-- ==== Sys2Proof/Word.lean ====
section
/-! DEFINITION. The words of the SD2: bytes, 32-bit and 64-bit words. Addresses that are computed are natural
numbers here, since the spec bounds each kind of address by its own width where it is formed (05 R151, R154). -/

namespace Sys2Proof

/-- One byte of a structure in device or host memory. -/
abbrev Byte := BitVec 8
/-- A 32-bit word: a set-up register half, an FP32 word, a doorbell slot. -/
abbrev Word32 := BitVec 32
/-- A 64-bit word: a counter (R114), a conjunction counter (R65), the time base. -/
abbrev Word64 := BitVec 64

end Sys2Proof
end

