-- ==== Sys2Proof/Syntax.lean ====
section
/-! DEFINITION. The commands of the SD2: one constructor of `Instr` for each row of the opcode table. The table gives
no bits, so the operands are the model's: what names the unit concerned, and what the world outside the device
(the host, a peer, a sensor, a rail) supplies at that step (log 5, log 6). -/

namespace Sys2Proof

/-- What the device reads of host memory during a step: bytes by host physical address, and the 32-byte flits
(address / 32) that arrive poisoned (R37, R461). A byte not listed keeps what the device saw last. -/
structure HostView where
  cells  : List (Nat × Byte)
  poison : List Nat
deriving DecidableEq, Repr

/-- One doorbell line as read: its sixteen producer indices, and whether it came poisoned (R43, R462). -/
structure LineRead where
  slots  : List Word32
  poison : Bool
deriving DecidableEq, Repr

/-- One fetched clause: its 64 bytes as a little-endian number, and its poison (R49, R462). -/
structure FetchedClause where
  bits   : BitVec 512
  poison : Bool
deriving DecidableEq, Repr

/-- What a share did that only its own run decides: cycles and passes for the counters of R114, R125 and R142, and
how many of the clause's non-finite and saturated elements this share wrote (R140). `poisoned` tells of array 0 and 1
whether its last pass consumed a poisoned entry (R115), `imemCe` how many instruction-memory errors were corrected (R118),
`admitted` the cycles for which the parenthetical context was admitted (R125). -/
structure ShareActivity where
  adv       : List Nat   -- array 0, array 1: cycles advanced
  holdFeed  : List Nat
  holdDrain : List Nat
  passes    : List Nat
  vecIssue  : Nat
  poisoned  : List Bool
  imemCe    : Nat
  admitted  : Nat
  nonFinite : Nat
  saturated : Nat
deriving DecidableEq, Repr

/-- One parenthetical accumulator bank in flight at a yield: the array (0 or 1) and its 4,096 words (R122). -/
structure SpilledBank where
  array : Nat
  words : List Word32
deriving DecidableEq, Repr

/-- On whose behalf a burst is read (R148, R159, R165): the operand noun of a clause, a table walker, the scrubber. -/
inductive BurstSource where
  | noun (ring slot operand : Nat)
  | walker
  | scrubber
deriving DecidableEq, Repr

/-- One burst on a vault's channel (R162): where it went, `burst` counting in the row; the bits of its data and of its ST
byte that the lanes inverted. `requesters` are the islands whose cores, collective or update engines read it, the opener of
its combining entry first (R160). -/
structure Burst where
  vault   : Nat
  tier    : Nat
  bank    : Nat
  row     : Nat
  burst   : Nat
  isWrite : Bool
  err     : BitVec 512
  stErr   : BitVec 8
  requesters : List Nat
  source  : BurstSource
deriving DecidableEq, Repr

/-- What a lane's training pattern passes as its sweep crosses one unit interval: the passing windows by first phase and
width in 1/64 UI (R21, R23). Crossing 0 is the Playa port (lanes 0 to 1,023 data, 1,024 to 1,055 control); crossing 1 + d is
the vault channel to tier d (lanes 0 to 527 data and spare data lanes, 528 on the command lanes and their spares). -/
structure LaneSweep where
  column   : Nat
  crossing : Nat
  lane     : Nat
  windows  : List (Nat × Nat)
deriving DecidableEq, Repr

/-- What the start of a clause takes: its slot, and host memory as the start reads it (R226, R229). -/
structure ClauseRead where
  slot : Nat
  host : HostView
deriving DecidableEq, Repr

/-- A LOAD_KERNEL with STANDARD at its slot: whether the kernel store finds an uncorrectable word when it is read (R117). -/
structure KernelRead where
  slot     : Nat
  storeBad : Bool
deriving DecidableEq, Repr

/-- An uncorrectable instruction word: the half it stands in, and whether the kernel store then finds one too (R117, R118). -/
structure ImemStrike where
  paren    : Bool
  storeBad : Bool
deriving DecidableEq, Repr

/-- An admission of the parenthetical context: the core, and the arrays on which its main context has a pass in progress or
an undrained bank (R121). -/
structure Admission where
  core : Nat
  held : List Nat
deriving DecidableEq, Repr

/-- A tick at an island: the core cycles since the last one, and, at the root of a chain, the time base that the management
core sets with it (R20, R311). -/
structure Tick where
  cycles : Nat
  set    : Option Word64
deriving DecidableEq, Repr

/-- A droop as a detector sees it: the island whose clock it watches, and how far below its set voltage, in mV (R403). -/
structure Droop where
  island  : Nat
  belowMv : Nat
deriving DecidableEq, Repr

/-- Whether the Ed25519 and the ML-DSA-65 signature of an object verify (R6, R521; log 11). -/
structure Signatures where
  edOk : Bool
  mlOk : Bool
deriving DecidableEq, Repr

/-- A flit of the bulk mesh: its 256 data bits, the poison bit of its 32 bytes, and its CRC-8 (R245). -/
structure Flit where
  data   : BitVec 256
  poison : Bool
  crc    : BitVec 8
deriving DecidableEq, Repr

/-- A packet of the bulk mesh: header flit, mask flit (zero where MCAST = 0, when none is sent), payload flits (R245). -/
structure Packet where
  head    : Flit
  mask    : Flit
  payload : List Flit
deriving DecidableEq, Repr

/-- A reduction of a clause as its kernel lays it out (R259): its identifier, the island of each rank, whether it has a
seed, and the flits of each of its blocks. -/
structure Reduction where
  red    : Nat
  ranks  : List Nat
  seed   : Bool
  blocks : List Nat
deriving DecidableEq, Repr

/-- A flit of a running sum: eight FP32 elements and its poison (R262, R263). -/
structure SumFlit where
  words  : List Word32
  poison : Bool
deriving DecidableEq, Repr

/-- A Caravan frame with its trailer (R279, R280). `fec` names, for each RS(544,514) codeword in which one of its blocks
lies, the symbols that arrived wrong (R276, R277); it is empty in a frame as sent. -/
structure Frame where
  dst      : Nat
  src      : Nat
  vc       : Nat
  kind     : Nat
  resent   : Bool
  seq      : Nat
  hops     : Nat
  arg      : Nat
  payload  : List Byte
  poison   : List Nat
  fcrc     : Word32
  ack      : Nat
  ackV     : Bool
  nak      : Bool
  cred     : List Nat
  tcrc     : Word32
  fec      : List (List Nat)
deriving DecidableEq, Repr

/-- What an activity counter of the power estimate counts (R411). -/
inductive Activity where
  | kSteps (operandClass : Nat)
  | vectorIssues
  | playaAccesses
  | flits
  | vaultBursts
  | refreshes
  | frames (port : Nat)
deriving DecidableEq, Repr

/-- What the power controller's counters give for one 4 µs interval (R411, R414, R415): the activity counts, the time
that engines held step tokens in thousandths of an interval, the measured power of VAUX in mW, the demand of links and the
compute estimate at each 50 MHz step from 1.0 GHz to 1.8 GHz for the next interval in mW, the current in mA of domains at
each of these steps, and the cycles that cores have been held under R415. -/
structure PowerInput where
  counts  : List (Activity × Nat)
  tokens  : Nat
  vaux    : Nat
  demLink : Nat
  stepEst : List Nat
  domMa   : List (Nat × List Nat)
  held    : List (Nat × Nat)
deriving DecidableEq, Repr

/-- The analog side of a telemetry record (R418). -/
structure TelemetryInput where
  sagMax  : Nat
  hold    : Bool
  liveMin : Nat
  energy  : Nat
  domI    : List Nat
  vddI    : List Nat
  vppI    : List Nat
deriving DecidableEq, Repr

/-- One tray sensor poll (R425): a failed reading is `none`; temperatures in 1/128 °C, flow in mL/min. -/
structure TrayReading where
  inlet  : Option Int
  outlet : Option Int
  flow   : Option Nat
deriving DecidableEq, Repr

/-- A finding for the defect list (R488): KIND, UNIT, SUB, SUB2. -/
structure Defect where
  kind : Nat
  unit : Nat
  sub  : Nat
  sub2 : Nat
deriving DecidableEq, Repr

/-- What the tests and training of a start step give: findings, the sweeps of lanes, and the domains whose regulator fails its
self-test (R482, R484, R486). -/
structure StepTests where
  found  : List Defect
  sweeps : List LaneSweep
  regs   : List Nat
deriving DecidableEq, Repr

/-- What the tests on the way out of a reset give: findings, and the domains whose regulator fails its self-test (R496). -/
structure LeaveTests where
  found : List Defect
  regs  : List Nat
deriving DecidableEq, Repr

/-- A signed object as received (R521), with the outcome of its two signature checks against the ROM keys, which the
spec does not hold (log 11). -/
structure SignedObject where
  magic   : Word32
  kind    : Nat
  key     : Nat
  unit    : Word64
  nonce   : Word64
  expiry  : Word64
  payload : List Byte
  edOk    : Bool
  mlOk    : Bool
deriving DecidableEq, Repr

/-- Which cache or buffer a parity error strikes (R461). -/
inductive ParityTarget where
  | noun (index : Nat)
  | translation (dva : Nat)
  | sequence (index : Nat)
  | clause (ring slot : Nat) (again : FetchedClause)   -- fetched again from host memory
  | chain (index : Nat)
  | dataBuffer (flits : List Nat)                      -- device flits (DPA / 32) the buffer holds
deriving DecidableEq, Repr

/-- One sample of Oasis (R529): voltages in mV and currents in mA of VIN_CORE, VDD_DRAM and VPP_DRAM, and whether an
input left its range (R565), whether an ADC self-check failed and on which channel (R533). -/
structure OasisReading where
  vinMv : Nat
  vinMa : Nat
  vddMv : Nat
  vddMa : Nat
  vppMv : Nat
  vppMa : Nat
  outOfRange : Option (Nat × Nat)   -- channel, value
  adcFailed  : Option Nat
deriving DecidableEq, Repr

/-- The commands of the block: one constructor for each row of the opcode table, in the table's order. -/
inductive Instr where
  -- doorbells, fetch and the life of a clause (02, 04)
  | snoopInvalidate (line : Nat) (reread : Option LineRead)
  | doorbellReread (line : Nat) (read : LineRead)
  | pollTimer
  | fetchComplete (ring : Nat) (clauses : List FetchedClause)
  | clauseStart (ring : Nat) (start : ClauseRead)
  | shareFinish (ring slot core : Nat) (act : ShareActivity)
  | clauseComplete (ring slot : Nat)
  | msixHoldoffExpiry (vector : Nat)
  | waitTimeout (ring : Nat)
  -- the verbs' own work (03 to 08, 10, 11)
  | matrixProduct (ring slot : Nat) (host : HostView) (unstarted : List Nat)
  | elementWiseChain (ring slot : Nat) (host : HostView)
  | nearBankMatrixVector (ring slot : Nat) (host : HostView)
  | attentionForward (ring slot : Nat) (host : HostView)
  | attentionBackward (ring slot : Nat) (host : HostView)
  | decodeAttention (ring slot : Nat) (host : HostView)
  | keyValueAppend (ring slot : Nat) (host : HostView)
  | kvEvictClose (ring slot : Nat) (host : HostView)
  | kvEvictTruncate (ring slot : Nat) (host : HostView)
  | deferredPageFree (page : Nat)
  | copy (ring slot : Nat) (host : HostView)
  | reduce (ring slot : Nat) (host : HostView)
  | allReduce (ring slot : Nat) (host : HostView)
  | reduceScatter (ring slot : Nat) (host : HostView)
  | allGather (ring slot : Nat) (host : HostView)
  | broadcast (ring slot : Nat) (host : HostView)
  | decide (ring slot : Nat) (host : HostView)
  | apply (ring slot : Nat) (host : HostView)
  | release (ring slot : Nat)
  | waveRelease (owner : Nat)
  | waveTimeout (ring slot : Nat)
  | slowApplication (pset : Nat) (host : HostView)
  | digest (ring slot : Nat) (host : HostView)
  | audit (ring slot : Nat) (host : HostView)
  | scrub (ring slot : Nat)
  -- ring 0 and its registers (11, 02, 17)
  | configure (ring slot : Nat) (host : HostView)
  | dissolve (ring slot : Nat)
  | loadKernel (ring slot : Nat) (host : HostView)
  | loadKernelStandard (ring : Nat) (read : KernelRead)
  | fence (ring slot : Nat)
  | fenceSet (ring slot : Nat)
  | resume (slot : Nat)
  | skip (slot : Nat)
  | flush (slot : Nat) (host : HostView)
  | close (slot : Nat) (host : HostView)
  | adminEnable (host : HostView)
  | adminDisable (host : HostView)
  | waitTimeoutWrite (value : Word32)
  | registerWrite (offset size : Nat) (value : Word64)
  | counterLowRead (offset : Nat)
  -- host memory accesses
  | hostMemRead (dpa : Nat)
  | hostMemWrite (dpa : Nat) (bytes : List Byte) (poison : Bool)
  | hostRequestPromoted (vault : Nat) (isScrubber : Bool)
  | deferredWriteRetry (vault : Nat)
  | heldRequestTimeout
  -- cores (04, 01)
  | imemUncorrectable (core : Nat) (strike : ImemStrike)
  | kernelStoreRefill
  | parenAdmit (admission : Admission)
  | contextYield (core cycles : Nat) (spill : List SpilledBank)
  | playaRetuneDone (core : Nat) (sweeps : List LaneSweep)
  -- vaults, refresh and engines (05, 06, 14)
  | burstReturn (b : Burst)
  | laneTest (vault sub : Nat) (dataLanes cmdLanes : List Nat)
  -- `data`, `cmds`: the sweeps of the spares for data and for command lanes
  | spareTrained (vault sub : Nat) (data cmds : List LaneSweep)
  | combineWindowExpiry (vault burst : Nat) (late : List Nat)
  | refreshDue (vault tier : Nat)
  | refreshIssue (vault tier : Nat) (sweeps : List LaneSweep)
  | refreshComplete (vault tier : Nat)
  | refreshRateRestore (vault tier : Nat)
  | pageRepair (vault row tier bank : Nat)
  | pageRepairDone (vault : Nat)
  | engineStepBoundary (vault engine : Nat)
  | stagingDone (vault : Nat)
  | mergeDone (vault : Nat)
  | engineFault (vault engine : Nat)
  -- the on-die networks (08)
  | meshPacket (island : Nat) (p : Packet)
  | flitCrcFail (island dir : Nat) (control : Bool)
  | ctrlMsgPromotion (island : Nat)
  | barrierArrive (object island : Nat) (gen : Bool)
  | flagContribute (object island : Nat) (value : Bool)
  | timeTick (island : Nat) (tick : Tick)
  | slotReserve (ring slot : Nat) (r : Reduction)
  -- `locals`: the matching elements of the step's contributions, once the slot has drawn them in (R262)
  | reductionFlitArrive (island unit index : Nat) (flit : SumFlit) (locals : Option (List SumFlit))
  | reduceTimeout (ring slot : Nat) (atPort : Bool)
  | bufferContribution (field buffer : Nat)
  | fieldFault (field island : Nat)
  -- Caravan (09)
  | frameReceive (port : Nat) (f : Frame)
  | replayTimer (port : Nat)
  | laneFail (port lane : Nat)
  | laneRetrainDone (port : Nat)
  | portDown (port : Nat)
  | ackStallTimeout (port : Nat)
  | resentFrameExpiry (port : Nat)
  | poolWaitExpiry (port vc : Nat)
  | identReceive (port : Nat)
  | timeWave
  | timeFrameReceive (port t4 : Nat)
  | syncUp (port : Nat)
  | syncDown (port : Nat)
  | redUp (port : Nat)
  | redDown (port : Nat)
  | collectiveAbort (port : Nat)
  -- power (12)
  | powerEstimate (x : PowerInput)
  | weightCalibration (estimated measured : List Nat)
  | pathResistanceCheck (domain microohm currentMa : Nat) (temp8 : Int)
  | sagSample (mv : Nat)
  | sagStageLeave
  | vinCoreCollapse
  | dramRailLow (vddMv vppMv : Nat)
  | phaseFail (domain phase : Nat)
  | regulatorFail (domain : Nat)
  | bridgeComplete (domain : Nat)
  | domainDark (domain : Nat)
  | idlePowerOff (core : Nat)
  | wakeRequest (domain : Nat)
  | wakeTokenGrant (domain : Nat)
  -- `expired`: 50 µs have passed
  | wakeWaitEnd (domain : Nat) (expired : Bool)
  | rampStage (domain : Nat)
  | wakeComplete (domain : Nat)
  | droopDetect (domain : Nat) (droop : Droop) (cycles : Nat)
  | droopRecover (island : Nat)
  | linkHoldEnd
  | brakeAssert (asserted : Bool)
  | telemetryRecord (x : TelemetryInput)
  | regulatorSample (domain mv ma : Nat)
  -- thermal (13, 01)
  | sensorConversion (sensor : Nat) (temp8 : Int)
  | emergencyClear (sensor : Nat)
  | thermalEvaluation (power : List (Nat × Nat))
  | bondCheckpoint
  -- `evaluation`: the number of the evaluation that it follows
  | wadiResidualCheck (evaluation : Nat)
  | traySensorPoll (r : TrayReading)
  | trayReadingStale (flow : Bool)
  | lowFlowTimeout
  | flowLost
  | flowLossTimeout
  | flowRestored
  | thermalTrip (source : Nat) (isNode : Bool) (temp8 : Int)
  -- errors, checker mode, stress tests, debug (14, 17)
  | cacheParityError (t : ParityTarget)
  | cperRecord
  | rawWrite (ctrl : Word32)
  | rawRead (ctrl : Word32)
  | stressStart (ctrl : Word32)
  | stressCornerDone (passed skipped : List Nat)
  | stressResult
  | debugUnlockWrite (value : Word64)
  | unlockCheckDone (o : Signatures)
  | debugLock
  | unlockExpiry
  | slotArm (i : Nat) (value : Word32)
  | slotCountExpiry (i : Nat)
  -- start, reset and epochs (15)
  | start
  | coreRailsPresent
  | dramRailsPresent
  | startStepDone (found : StepTests)
  | deviceReady
  | pendingDefectRecord
  | computeResetRequest (ctrl : Word32)
  | resetHoldSet (ctrl : Word32)
  | resetHoldClear (ctrl : Word32)
  | resetEntryDone
  | resetLeaveDone (host : HostView) (found : LeaveTests)
  | fullResetRequest (ctrl : Word32)
  | epochRequest (ctrl : Word64)
  | epochDrainDone
  | epochApply
  | epochTimeout
  | epochCommit
  | rootWaveTimeout (object : Nat)
  | vauxLoss
  | trayReset
  -- management (16)
  | setEndpointId (eid : Nat)
  -- `device`: the device ID that the management core's map gives the endpoint; `neighbour`: the port of a neighbour
  -- whose ID is not valid (R511)
  | mctpBridge (fromPort : Option Nat) (destEid : Nat) (device neighbour : Option Nat) (message : List Byte)
  | getSensorReading (id : Nat)
  | setNumericEffecterValue (id value : Nat)
  | setStateEffecter (id value : Nat)
  | setEventReceiver (eid : Nat)
  | platformEventMessage
  | requestUpdate (component : Nat)
  | firmwareTransfer (component version minor : Nat) (image : List Byte) (kinds : List Nat)
  | verifyComplete (o : SignedObject)
  | activateFirmware
  | challenge (nonce : List Byte)
  | getMeasurements (indices : List Nat) (nonce : List Byte)
  | getPqSignature
  | keyExchange (exchange : List Byte)
  | finish (verifyData : List Byte) (macOk : Bool)
  | mgtComputeReset (function : Nat)
  | mgtFullReset
  | mgtStressTest (ctrl : Word32)
  | mgtRequestEpoch (ctrl : Word64)
  | submitSignedObject (o : SignedObject)
  | removeDefectEntries (o : SignedObject)
  | clearBondWear (o : SignedObject)
  | replacePathBaseline (o : SignedObject)
  | restoreFactoryWeights (o : SignedObject)
  | readEventLog (fromSeq : Nat)
  | readOasisRecords (fromSecond : Nat) (isLog : Bool)
  | readDbgNonce
  -- Oasis (16)
  | sealOpen
  | sealClose
  | oasisImageLoad (version : Nat) (complete edOk mlOk : Bool)
  | oasisParameterChange (params : List Nat)
  | oasisClockSet (micros : Nat)
  | oasisSample (r : OasisReading)
  | intervalClose
  | oasisCommit
  | oasisPowerFail
  | oasisStart
  | oasisRecordReceive
  -- links, rails and discretes at run time
  | linkTrainingDone (port : Nat) (ok : Bool)
  | portRetrain (port : Nat) (o : SignedObject)
  | refclkLoss
  | vbypOutOfRange
  | trayResetRelease
  | dynamicAddressAssignment (address : Nat)
  | sidePortMoveDone (vault : Nat) (trained : Bool)
  | meshLinkMoveDone (island dir : Nat) (control : Bool)
deriving DecidableEq, Repr

end Sys2Proof
end

