-- ==== Sys2Proof/Decode.lean ====
section
/-! DEFINITION. The opcode table of the SD2 gives no row a bit: its rows are steps of the device, not words that it
decodes. The 64-byte clause, which the device does decode, is data of the commands that carry it (Operands.lean). -/

namespace Sys2Proof

/-- No word spells a command, since no row of the table gives bits. -/
def decodeTableWord (_nbits _w : Nat) : Option Instr := none

end Sys2Proof
end

