-- ==== Sys2Proof/Config.lean ====
section
/-! DEFINITION. What the part fixes once, and the FREE VALUES: constants without a body, of which no proof can know
anything, for the values that the spec leaves open. -/

namespace Sys2Proof.Config

/-- Columns of the grid (R7, R9): core, Playa slice and vault share the index. -/
def columns : Nat := 256
/-- Bytes of one vault (R151). -/
def vaultBytes : Nat := 0x30000000
/-- Bytes of the host-managed device memory range: 192 GiB (R3, R151). -/
def dramBytes : Nat := columns * vaultBytes
/-- Bytes of one Playa slice (R143). -/
def sliceBytes : Nat := 0x400000
/-- `GLB_ID.JCM_MAJOR` (R546). -/
def jcmMajor : Nat := 2
/-- `GLB_ID.PART` of the SD2-192-LQ (R546). -/
def partId : Nat := 1
/-- Domains of the power controller (R392). -/
def domains : Nat := 308
/-- Temperature sensors (R423). -/
def sensors : Nat := 1152

/-- FREE VALUE: the n-th value that the spec leaves open (log 7). -/
opaque freeValue : Nat → BitVec 64

/-- FREE VALUE: which of the results that R128's accuracy bound admits a vector operation gives: operation code,
working-format code, operand (log 9). R129 makes it a function of the operand alone. -/
opaque vectorChoice : Nat → Nat → Nat → Nat

/-- FREE VALUE: the device seed that the PUF gives with the helper data (R519; log 11). -/
opaque deviceSeed : List (BitVec 8) → BitVec 256

/-- FREE VALUE: the labels under which keys are derived: 1 identity, 2 alias, of algorithm 1 Ed25519 or 2 ML-DSA-65 (R519
names none; log 11). -/
opaque keyLabel : Nat → Nat → List (BitVec 8)

/-- FREE VALUE: the public half of a key pair, by algorithm and derived key (RFC 8032, FIPS 204; log 11). -/
opaque publicKey : Nat → List (BitVec 8) → List (BitVec 8)

/-- FREE VALUE: the signature over a message, by algorithm and derived key (R524, R525; log 11). -/
opaque signature : Nat → List (BitVec 8) → List (BitVec 8) → List (BitVec 8)

/-- FREE VALUE: the public identity keys and the certificate chains in the part's identity region as manufactured (R520;
log 11). -/
opaque recordKey : Nat → List (BitVec 8)
opaque recordChain : Nat → List (BitVec 8)

/-- FREE VALUE: the part's thermal network (R426 to R428) under a version of its calibration: the temperature of a node in
1/8 °C, from the present nodes, the inlet temperature and the flows of the Wadi layers and bands, after the given steps of
250 µs with the power in mW of each domain in each of them (log 61). -/
opaque thermalNode : Nat → List (Nat × Int) → Int → List Nat → List (List (Nat × Nat)) → Nat → Int
/-- FREE VALUE: the heat in mW that the adjacent tiers pass into a Wadi layer's band, from the nodes and the flows (R436). -/
opaque layerHeat : Nat → List (Nat × Int) → List Nat → Nat → Nat → Int
/-- FREE VALUE: the calibrated resistance R_k in mK/W from a tier to a Wadi layer for one band (R437). -/
opaque tierResistance : Nat → Nat → Nat → Nat

/-- FREE VALUE: the part's voltage–frequency table under a version of its calibration, by core × 17 + step, within R393's
bounds where it is read (log 70). -/
opaque vfFactory : Nat → Nat → Nat

/-- FREE VALUE: the factory weight of one count of an activity under a version of the calibration, in µW over an interval
(R411; log 70). -/
opaque activityWeight : Nat → Nat → Nat
/-- FREE VALUE: parts per million of a memory activity that VPP_DRAM carries (log 70). -/
opaque vppPart : Nat → Nat
/-- FREE VALUE: the leakage of a domain in mW at a voltage in mV and a temperature in 1/8 °C (R411; log 70). -/
opaque leakage : Nat → Nat → Int → Nat
/-- FREE VALUE: the on-die conversion losses in mW of a load behind the regulators (R411; log 70). -/
opaque conversionLoss : Nat → Nat

/-- FREE VALUE: the digest of measurement block i, which depends on firmware the spec does not hold (R526; log 11). -/
opaque measurement : Nat → Nat → List (BitVec 8)

/-- FREE VALUE: the software identification of an Oasis image version (R530; log 11). -/
opaque oasisIdentification : Nat → List (BitVec 8)

end Sys2Proof.Config
end

