-- ==== Sys2Proof/Machine/State.lean ====
section
/-! DEFINITION. The state of the SD2 as plain data: every register, table, queue and record the spec gives the device,
and the queue of waiting commands. Sparse families of like units are tables `Tbl`: sorted lists of (unit, value)
without entries equal to the unit's reset value. INVENTORY.md lists every piece with its rule and reset value. -/

namespace Sys2Proof.Machine

/-- A sparse family of like units: strictly rising keys; a unit not listed holds the family's reset value. -/
abbrev Tbl (α : Type) := List (Nat × α)

/-! ### Memories -/

/-- The Dune tiers. `cells`: bytes by DPA, strictly rising, none zero (an unlisted byte reads zero, log 1). `poison`:
poisoned flits by DPA / 32 (R460). `checks`: words (DPA / 4) whose stored check bits differ from those R454 computes,
with the difference. `parity`: rows whose stored page parity differs from R456's, with the 32-byte difference; row
number ((vault × 3072 + row) × 8 + tier) × 16 + bank. -/
structure Dram where
  cells  : List Host.Cell
  poison : List Nat
  checks : Tbl (BitVec 7)
  parity : Tbl (List Byte)
deriving DecidableEq, Repr

/-- The Playa slices (key core × 4 MiB + offset): bytes, and the words (key / 4) whose stored check bits differ from those
R454 computes, with the difference; a poisoned flit is one whose words all differ by 0x03 (R145, R460). -/
structure Slices where
  cells  : List Host.Cell
  checks : Tbl (BitVec 7)
deriving DecidableEq, Repr

/-- Host memory outside the DVA space (key host physical address), with poisoned flits (key / 32). -/
structure Store where
  cells  : List Host.Cell
  poison : List Nat
deriving DecidableEq, Repr

/-! ### Set-up registers with a staged and an applied copy (R499) -/

/-- One `LNK_POOL_CFG` register (R315), both in units of 16 KiB. -/
structure PoolCfg where
  limit   : BitVec 12
  reserve : BitVec 8
deriving DecidableEq, Repr

/-- The shadow fields of R499, row by row. -/
structure Shadow where
  rctBase   : BitVec 52          -- row 0
  ntbBase   : BitVec 12          -- row 1
  chainBase : BitVec 18
  ptBase    : BitVec 17
  ptSize    : BitVec 10
  cacheEn   : List Nat           -- row 2: cores with CACHE_EN = 1, rising
  mainSlots : Tbl (BitVec 6)     -- row 3: islands whose MAIN_SLOTS is not 24
  seqEn     : Bool               -- row 4
  seqBase   : BitVec 13
  poolEn    : Bool
  poolFrames : BitVec 16
  poolBase  : BitVec 26
  psetEn    : Bool               -- row 5
  psetBase  : BitVec 17
  poolCfg   : Tbl PoolCfg        -- row 6: 5 × port + vc, where not the default of R289
  route     : Tbl Word32         -- row 7: nonzero route entries
  syncRoot  : Bool               -- row 8
  syncParent : BitVec 4
  syncChildren : BitVec 12
  idValid   : Bool               -- row 9
  deviceId  : BitVec 16
  hopLimit  : BitVec 5           -- row 10
  groupBase : BitVec 20
  lnkChainBase : BitVec 26
deriving DecidableEq, Repr

/-! ### Clauses, rings, nouns -/

/-- A noun entry as read (R57). -/
structure Noun where
  dva      : Nat
  place    : Nat
  layout   : Nat
  gen      : Nat
  format   : Nat
  rank     : Nat
  valid    : Bool
  rdonly   : Bool
  placeArg : Nat
  owner    : Nat
  dims     : List Nat
  length   : Nat
  scaleDva : Nat
  malformed : Bool
deriving DecidableEq, Repr

/-- What a failure record says (R53, R388, R389). -/
structure Failure where
  status  : Nat
  operand : Nat
  detail  : Nat
deriving DecidableEq, Repr

/-- How far a clause held by the front end has come (R62, R66, R78): posted, issued, started, and `done` when its work
is finished and only its completion remains. -/
inductive Phase where
  | posted | issued | started | done
deriving DecidableEq, Repr

/-- A clause held by the front end. -/
structure ClauseSt where
  index    : Nat                   -- free-running producer count, modulo 2^32 (R43)
  bits     : BitVec 512
  poison   : Bool
  phase    : Phase
  sentence : Nat                   -- number of its sentence in the ring (R62)
  nouns    : List (Nat × Noun)     -- operand slot and the entry read at issue (R60)
  entry    : Nat                   -- chain, parameter-set or group entry read at issue (R60, R135, R321)
  shares   : List Nat              -- cores whose share is sent and not finished (R116)
  unsent   : List Nat              -- cores whose share waits for room (R116)
  worked   : Bool                  -- the verb's own work is finished
  verdict  : Option Failure        -- failure to report once the shares have drained (R111)
  nonFinite : Nat                  -- non-finite outputs not yet counted by a share (R140)
  saturated : Nat
  detail   : Nat                   -- DETAIL of a successful record (R389)
  target   : Option Nat            -- ring this fence is closing (R387)
  passes   : Option Nat            -- array passes not yet counted by a share; none where the kernel's own work decides (R85, R114)
  begun    : Bool                  -- an operation that produces data for a write operand has issued (R78)
  vaults   : List Nat              -- vaults with near-bank work of this clause unfinished (R192)
  merged   : List (Nat × Word32 × Bool)  -- merged outputs whose MX block is not complete: index, value, poison (R182)
  seqs     : List (Nat × Nat)      -- a key-value clause's SEQ words as read at its start: index and GEN (R226, R229)
  order    : Nat                   -- its place in the order of issues of the device
  cores    : List Nat              -- its cores in the order of their shares, from its start (R116, R449)
  startedAt : Word64               -- the time base at its start (R467)
deriving DecidableEq, Repr

/-- A ring context entry (R39). -/
structure RingCtx where
  sqBase  : Nat
  cqBase  : Nat
  dbLine  : Nat
  fetchWb : Nat
  log2    : Nat
  dbSlot  : Nat
  field   : Nat
  paren   : Bool
  irqEn   : Bool
  prio    : Nat
  vector  : Nat
deriving DecidableEq, Repr

/-- Ring states of R77. -/
inductive RingState where
  | closed | idle | running | stopped | paused
deriving DecidableEq, Repr

/-- One ring: submission and completion side (R38, R39, R47, R77). -/
structure RingSt where
  state    : RingState
  before   : RingState             -- the state a PAUSED ring returns to (R77)
  ctx      : RingCtx
  field    : Nat                   -- field to which the ring is bound (R40: none for ring 0)
  fetched  : Nat                   -- fetch index, modulo 2^32
  produced : Nat                   -- latest producer index that passed R47
  seen     : Nat                   -- latest value read from the slot
  records  : Nat                   -- records written since the opening: entry and PHASE (R54)
  stopAt   : Nat                   -- index of the stop slot (R78)
  skipped  : Bool                  -- the stop-slot clause failed before it was fetched (R47, R462)
  sentence : Nat                   -- number of the sentence that the next fetched clause joins
  sentLen  : Nat                   -- clauses in it so far (R62)
  waitFrom : Option Word64         -- time base at which the head's wait began (R68, R549)
  closing  : Bool                  -- CLOSE acts and outstanding clauses run to their end (R79)
  flushing : Bool                  -- FLUSH has acted, and the ring becomes IDLE with its last outstanding clause (R77, R79)
  clauses  : List ClauseSt         -- in slot order
deriving DecidableEq, Repr

/-- A line of the watch table (R44). -/
structure WatchLine where
  line    : Nat
  shared  : Bool                   -- false from a snoop until the re-read returns (R45)
  poisoned : Nat                   -- consecutive poisoned reads (R462)
deriving DecidableEq, Repr

/-- The command front end's set-up registers and tables (R44, R46, R547). -/
structure Cmd where
  adminEnable : Bool
  r0State     : BitVec 2
  enableWaits : Bool               -- a write of 1 made before R0_STATE reached 0 (R548)
  poll        : BitVec 8
  holdoff     : BitVec 16
  waitTimeout : BitVec 14
  msixTable   : Tbl (BitVec 128)   -- entries that are not the reset entry
  pba         : List Nat
  hold        : Tbl Bool           -- vectors in hold-off; true: an event arrived meanwhile (R56)
  watch       : List WatchLine
  polled      : List WatchLine     -- polled lines, longest-waiting first
  reading     : List Nat           -- lines whose poll read is under way (R46)
  served      : Tbl Nat            -- last ring served in each field and priority: 4 × field + prio (R42)
  issues      : Nat                -- clauses issued so far, those that failed at issue left out
  nouns       : List (Nat × Nat)   -- noun entries cached, most recently used first: index and its 64 bytes (R60)
  chains      : List (Nat × Nat)   -- chain entries cached in the same way: index and its 256 bytes (R135)
deriving DecidableEq, Repr

/-! ### Fields, steps, sync -/

/-- A contribution waiting at its source for its pass (R267): clause, pass, elements from element 0, poisoned ones, and
those of tiles that were never computed (R111), which it does not send. -/
structure Contribution where
  ring   : Nat
  index  : Nat
  pass   : Nat
  words  : List Word32
  poison : List Nat
  absent : List Nat
deriving DecidableEq, Repr

/-- One reduction buffer of a field (R265, R267): slice offset, size in units of 16 KiB, next expected pass. -/
structure RBuf where
  offset : Nat
  size   : Nat
  pass   : Nat
  queue  : List Contribution
deriving DecidableEq, Repr

/-- A configured field (R72, R380). -/
structure FieldSt where
  row      : Nat
  col      : Nat
  height   : Nat
  width    : Nat
  paren    : Bool
  owner    : Nat
  quota    : Nat
  syncBase : Nat
  syncCount : Nat
  stepFlag : Nat
  rbufs    : List RBuf             -- sixteen
  faulted  : Option Nat            -- island of the trigger (R270, R389)
  degraded : Bool
  overQuota : Bool
deriving DecidableEq, Repr

/-- The phase of a step (R328). -/
inductive StepPhase where
  | open | pass | skip
deriving DecidableEq, Repr

/-- A decide, release, prepare or commit wave (R330, R503): the arrival of this device, those of its children by port
(value, STEP or NUMBER, MISMATCH), the release once known. -/
structure Wave where
  own      : Option (Bool × Nat)
  inputs   : Tbl (Bool × Nat × Bool)
  sentUp   : Bool
  released : Option (Bool × Bool)
  gen      : Bool
deriving DecidableEq, Repr

/-- The step state of a step owner (R327): STEP, phase, NF and scope; the sets applied in the step, the norm of its
DECIDE, whether a poisoned APPLY forces a discard (R462), and its wave. `owing` is the clause that waits for the wave;
`nfHeld` is the NF that a DECIDE with a norm check took in at its start (R329), until it arrives; `stallFrom` is the
time from which a RELEASE waits for due slow applications (R340). -/
structure StepSt where
  step     : Word32
  phase    : StepPhase
  nf       : Bool
  chain    : Bool
  flag     : Nat
  applied  : List Nat
  norm     : Word32
  normSkip : Bool
  forced   : Bool
  wave     : Wave
  waveKind : Nat                   -- 0 none, 1 decide, 2 release
  owing    : Option (Nat × Nat)    -- ring and index of the clause in the wave
  outcome  : Nat                   -- 1 commit and 2 skip decided, waiting for due slow applications (R340)
  nfHeld   : Bool
  stallFrom : Option Word64
deriving DecidableEq, Repr

/-- A sync object (R255 to R257): its kind (0 not yet used, 1 barrier, 2 flag), generation, islands arrived, held second
arrivals, flag value. -/
structure SyncObj where
  kind    : Nat
  gen     : Bool
  arrived : List Nat
  held    : List Nat
  value   : Bool
deriving DecidableEq, Repr

/-- The delayed application of a slow set (R339, R340): committed steps whose staged gradient waits, the last step
published, and the APPLY that waits for its slot (ring, index) with the time from which it does. -/
structure SlowSt where
  staged    : List Nat             -- steps staged, not yet decided
  committed : List Nat             -- steps whose commit is decided, not yet applied, rising
  applied   : List Nat             -- steps applied and not yet published
  stall     : Option ((Nat × Nat) × Word64)
deriving DecidableEq, Repr

/-! ### Cores and arrays -/

/-- What a half of instruction memory holds (R117, R118). -/
inductive Image where
  | empty                           -- before start step 4, or lost with its power
  | standard
  | loaded (code : List Byte)
  | invalid                         -- an uncorrectable word in a loaded image
deriving DecidableEq, Repr

/-- One matrix array: `ARR_STATE` (R115) and its two accumulator banks (R87), words not listed being clear. -/
structure ArraySt where
  mode   : BitVec 2
  fmtA   : BitVec 8
  fmtB   : BitVec 8
  poison : Bool
  bank   : Bool
  accum  : Bool
  sr     : Bool
  bank0  : Tbl Word32
  bank1  : Tbl Word32
deriving DecidableEq, Repr

/-- A core: its sequencer, its two contexts, its arrays and its island's clock (R18, R116, R125). -/
structure CoreSt where
  mappedOut : Bool
  imgMain   : Image
  imgParen  : Image
  qMain     : List (Nat × Nat)     -- ring and index of each share held, oldest first
  qParen    : List (Nat × Nat)
  run       : BitVec 2
  spilled   : List Nat             -- arrays whose parenthetical bank lies in the save area (R122, R123)
  mainHeld  : List Nat             -- arrays on which the waiting main context has a pass or an undrained bank (R121)
  vecMain   : Nat                  -- free index from which the words of the main register file are drawn (R126)
  vecParen  : Nat                  -- the same for the parenthetical register file (R122, R126)
  array0    : ArraySt
  array1    : ArraySt
  lastArray : Nat                  -- array that the previous one-array share used (R448)
  trim      : Int                  -- core cycles in the last tick less those set (R20)
  tunes     : List (Nat × Int)     -- Playa port, D0 to D7: voltage and temperature of the last tune (R25)
  retuning  : Bool
  stretch   : Nat                  -- 0, 25 or 50 % (R403)
deriving DecidableEq, Repr

/-! ### Vaults, tiers, engines -/

/-- A read-combining entry (R160). -/
structure Combine where
  burst      : Nat
  requesters : List Nat
  returned   : Bool
deriving DecidableEq, Repr

/-- A host or core request that waits (R166, R200, R444, R465). -/
inductive Waiting where
  | read (dpa : Nat) (promoted : Bool)
  | write (dpa : Nat) (bytes : List Byte) (poison : Bool) (promoted : Bool)
  | rawWrite (dpa : Nat) (parity : Bool)
  | rawRead (dpa : Nat)
deriving DecidableEq, Repr

/-- A row that engines step through: in the banks p with lo ≤ p < hi (R200). -/
structure LockedRow where
  row : Nat
  lo  : Nat
  hi  : Nat
deriving DecidableEq, Repr

/-- Near-bank work of one clause in a vault (R191, R192): its batches still to run, for a decode clause its tasks still to
run there and whether their PV phase has come (R238), the present stage (0 waiting, 1 staging, 2 stepping, 3 merging,
4 finished there and still locked), X and its poisoned flits, and the rows its engines step through (R200). -/
structure NbeJob where
  ring    : Nat
  index   : Nat
  field   : Nat
  decode  : Bool
  batches : List Nat
  tasks   : List Nat
  pv      : Bool
  stage   : Nat
  xs      : List Byte
  xPoison : List Nat               -- flits of X, by k / 32
  locked  : List LockedRow
deriving DecidableEq, Repr

/-- A task of a decode (R232): list position, head and block, its page, its valid positions, and where it runs: 0 on its
bank's engine, 1 on the core path, 2 by the controller for a dark engine (R236). -/
structure DecodeTask where
  seq   : Nat
  head  : Nat
  block : Nat
  page  : Nat
  count : Nat
  path  : Nat
deriving DecidableEq, Repr

/-- A decode under way (R233 to R240): its tasks in order of positions, heads and blocks, and what has reached the cores of
their segments, by task: its scores, its value partials; and the tasks that consumed a poisoned flit (R240). -/
structure DecodeSt where
  ring     : Nat
  index    : Nat
  tasks    : List DecodeTask
  scores   : Tbl (List Word32)
  partials : Tbl (List Word32)
  bad      : List Nat
deriving DecidableEq, Repr

/-- One near-bank engine (R179): its operand latch of 4 KiB (bytes not listed are zero), its accumulator file of 128 words,
its beat register of 32 bytes, the step it takes next (for a matrix-vector item its level, R186), its token. `orphan`: the step it is in belongs to a clause that has
ended meanwhile (R166, R202). -/
structure EngineSt where
  latch  : List Host.Cell
  acc    : List Word32
  beat   : List Byte
  orphan : Bool
  level  : Nat
  token  : Bool
  poison : Bool
  dead   : Bool                    -- failed at run time (R205)
deriving DecidableEq, Repr

/-- A vault and its controller (R165, R172 to R177, R206). -/
structure VaultSt where
  mode      : BitVec 2
  spares    : Nat
  cmdSpares : Nat
  halfSel   : BitVec 8
  failedLanes : List Nat           -- lane s × 64 + l of each failed data lane
  stopped   : List Nat             -- sub-channels that issue nothing (R172)
  repeats   : Tbl Nat              -- failed repetitions a sub-channel (R163)
  moving    : Bool                 -- the move to the side port is under way (R175)
  sideDead  : Bool                 -- the side port failed to train (R176)
  combine   : List Combine
  waiting   : List Waiting         -- requests held at a busy or held bank
  deferred  : List Waiting         -- host writes into a locked region (R200)
  repair    : Option Nat           -- row under page repair (R458)
  retune    : List Nat             -- tiers whose channel retunes at its next refresh (R25)
  dark      : List Nat             -- engines marked dark (R204)
  remapped  : List (Nat × Nat)     -- rows steered to spares: bank as 16 × tier + bank, and row (R484, R488)
  jobs      : List NbeJob          -- oldest first; the head holds the vault (R191)
  quota     : Nat
  nextEngine : Nat                 -- round-robin place of token grants (R202)
deriving DecidableEq, Repr

/-- One set of a vault cache: the tags of its ways, and the seven bits of its tree pseudo-LRU (R147). -/
structure CacheSet where
  ways : List (Option Nat)
  tree : BitVec 7
deriving DecidableEq, Repr

/-- Refresh of one tier of one vault (R168 to R170). -/
structure TierSt where
  debt       : Nat
  fast       : Bool                -- 5.208 µs interval
  rowIndex   : Nat
  refreshing : Bool
  yielding   : Bool                -- its engines stop at their boundary (R198)
deriving DecidableEq, Repr

/-! ### KVM -/

/-- What an append commits when it completes (R225, R229): for one sequence, its layer (counted from LAYER_BASE), its
new length and the pages reserved, as (block, head, page). -/
structure KvAppend where
  ring   : Nat
  index  : Nat
  seq    : Nat
  layer  : Nat
  length : Nat
  pages  : List (Nat × Nat × Nat)
deriving DecidableEq, Repr

/-- A page that an evict frees once the started clauses that read it have completed (R230). -/
structure FreeWait where
  page    : Nat
  ring    : Nat
  index   : Nat
  readers : List (Nat × Nat)
deriving DecidableEq, Repr

/-- A sequence as a decode read it at its start (R226, R229): its SEQ word, its 32-byte entry, the layer's length, and
the pages that the decode reads, in order of blocks, then heads. -/
structure KvRead where
  ring   : Nat
  index  : Nat
  seq    : Nat
  gen    : Nat
  raw    : Nat
  poison : Bool
  length : Nat
  pages  : List Nat
deriving DecidableEq, Repr

/-- The key-value manager (R218, R223, R225, R230). -/
structure Kvm where
  active     : Bool
  badFrame   : BitVec 16
  lastChange : BitVec 2
  used       : Tbl Nat             -- pages in use, with the sequence that holds each
  cache      : List Nat            -- sequence entries cached, most recent first
  appends    : List KvAppend       -- reservations of appends not completed
  freeing    : List FreeWait
  reading    : List KvRead         -- sequences of the started decodes (R229, R230)
  order      : List (Nat × Nat)    -- started appends in the order of their starts (R230)
deriving DecidableEq, Repr

/-! ### Fabric -/

/-- A packet in a router's buffers: the input it came by (0 to 3 N, E, S, W; 4 + port code for a local port), and the
arbitrations it has lost in a row (R246, R248). -/
structure Held where
  packet : Packet
  input  : Nat
  lost   : Nat
deriving DecidableEq, Repr

/-- A router of the bulk and control meshes (R243, R253, R272). -/
structure RouterSt where
  bulkFail : BitVec 4
  ctrlFail : BitVec 4
  moving   : List Nat              -- links (dir, plus 4 for control) whose traffic moves (R253)
  replays  : Tbl Nat               -- consecutive failed replays a link
  queue    : List Held             -- packets in its buffers, oldest first
  reserved : List (Nat × Nat)      -- local port and TAG of reads whose whole response has space here (R247)
  promoted : Nat                   -- class-4 messages that have moved to class 1 (R254)
  waiters  : List (Nat × Nat)      -- clauses whose reservation of a slot waits here (R261)
deriving DecidableEq, Repr

/-- A reduction slot in use (R261, R262): its reduction and step, the block it holds, the sum flits that wait for local
contributions, the output flits formed and not yet gone, those gone, and the credits the step before it holds. -/
structure Slot where
  ring    : Nat
  index   : Nat
  island  : Nat
  paren   : Bool
  red     : Nat
  step    : Nat
  block   : Nat
  sums    : Tbl SumFlit
  output  : Tbl SumFlit
  gone    : Nat
  credits : Nat
deriving DecidableEq, Repr

/-- A reduction that has begun to reserve slots, with its clause (R259, R261). -/
structure Reducing where
  ring  : Nat
  index : Nat
  red   : Reduction
  ready : Bool                     -- every slot is reserved
deriving DecidableEq, Repr

/-! ### Caravan -/

/-- A frame queued for an output: the port whose receive pool holds it, 12 for one of this device, and the arbitrations it
has lost in a row (R287, R288). -/
structure Queued where
  pool  : Nat
  frame : Frame
  lost  : Nat
deriving DecidableEq, Repr

/-- One Caravan port (R288, R290, R314). -/
structure PortSt where
  state    : BitVec 3
  half     : Bool
  halfSel  : Bool
  peerResetting : Bool
  qCause   : BitVec 3
  syncOpen : Bool
  peerId   : BitVec 16
  peerMajor : BitVec 8
  peerMinor : BitVec 8
  runMinor : BitVec 8
  badLanes : BitVec 8
  peerBad  : BitVec 2              -- halves that hold a lane which the peer's receiver marked failed (R290)
  laneCorr : Tbl Nat               -- corrected symbols a lane (R277)
  told     : List Nat              -- ACK, its validity, NAK and the credit counts of the last trailer sent (R280)
  laneMove : Bool                  -- VC 0 to 4 stopped for a lane change (R291)
  txSeq    : Nat                   -- next SEQ to send
  rxSeq    : Nat                   -- next SEQ to accept
  gotAny   : Bool
  nakDue   : Bool
  unacked  : List Frame            -- replay storage, oldest first
  resends  : Nat                   -- times the oldest has been resent
  pool     : Tbl Nat               -- pool units occupied a VC
  freed    : Tbl Nat               -- running count of units freed a VC (R280)
  sent     : Tbl Nat               -- running count of units sent a VC, and the peer's count of those it freed (R280, R288)
  peerFreed : Tbl Nat
  txQueue  : List Queued           -- frames queued for this output, oldest first
  lastAck  : Nat
  timeT1   : Option Nat            -- transmission stamp of the TIME frame under way, 1/8 ns
deriving DecidableEq, Repr

/-- A part of a block received for a collective (R301), or a part of a member's data (R302): the block, or the byte
offset of R282; the rank it came from; the part; its bytes; its poisoned 32-byte flits. -/
structure Part where
  block  : Nat
  rank   : Nat
  part   : Nat
  bf16   : Bool                    -- FMT of a RED_UP part (R282)
  bytes  : List Byte
  flits  : List Nat
deriving DecidableEq, Repr

/-- A group collective under way at this device (R299 to R303). -/
structure Coll where
  ring    : Nat
  index   : Nat
  verb    : Nat
  group   : Nat
  member  : Nat                    -- INST of this instance of the group's collective
  elems   : Nat                    -- E
  outFmt  : Nat
  bits    : BitVec 512             -- its clause, and the group entry read at issue
  entry   : Nat
  words   : List Word32            -- L, element by element (R300)
  bad     : List Nat               -- poisoned elements of L
  seed    : List (Word32 × Bool)   -- the seed where this device adds one
  nextBlock : Nat                  -- next block to take a slot
  slots   : List Nat               -- blocks that hold a slot (R301)
  leaving : List Nat               -- blocks whose output has not left their slots yet
  credits : List Nat               -- blocks for which the device above has given its credit
  parts   : List Part              -- running sums received
  downs   : List Part              -- result parts received
  done    : List Nat               -- blocks whose result is delivered here
  gathered : List Part             -- data received for an all-gather or a broadcast
  tainted : Bool                   -- a part or result of it was poisoned (R303)
deriving DecidableEq, Repr

/-- Device-wide link state (R294, R311, R316). -/
structure Lnk where
  cfgDigest : List Byte            -- 48 bytes, empty at reset
  offset    : BitVec 16
  depth     : BitVec 8
  locked    : Bool
  timeHold  : Option Word64        -- the parent's time, while a held counter waits for it (R312)
  inbox     : List (Nat × Frame)   -- frames delivered, not yet taken, with their port
  aborted   : List (Nat × Nat)     -- group and INST aborted by another member before its start here (R303)
  ctrlSeen  : List (Nat × Nat)     -- source and message number of CTRL frames accepted
  ctrlNext  : Nat
  instNext  : Tbl Nat              -- next INST of a group
  wave0     : Wave                 -- sync object 0: the wave of the CHAIN step owner (R330)
deriving DecidableEq, Repr

/-! ### Power and thermal -/

/-- One supply domain (R392, R397 to R406, R419, R422). -/
structure DomSt where
  power    : BitVec 2
  bypass   : Bool
  bridge   : BitVec 9
  derate   : BitVec 2
  phases   : BitVec 4
  spare    : Bool
  vset     : BitVec 11
  failed   : List Nat              -- phases disabled
  regOk    : Bool
  switching : Option Nat           -- domain it is being bridged to, 0x1FF for VBYP: its clock stands still (R398)
  baseline : BitVec 16
  filtered : BitVec 16
  pathSum  : List Nat              -- valid estimates of the filter, latest first
  minMv    : Option Nat
  minTime  : Word64
  readTime : Word64
  meanMa   : Nat                   -- over the last 1 µs (R401)
  window   : List Nat              -- means of the last 1 ms, latest first (R517)
  ramp     : Nat                   -- ramp stages done; 0 while waiting
  throttled : List Nat             -- neighbours pre-throttled for its ramp
  capMhz    : Nat                  -- ceiling that its current limit leaves (R397, R398, R406), MHz
  stretchAt : Option Word64        -- when a detector of it last stretched a clock (R401)
deriving DecidableEq, Repr

/-- The power controller (R390 to R421). -/
structure Pwr where
  mgtCap    : BitVec 12
  hostCap   : BitVec 12
  brakeCap  : BitVec 12
  gateEn    : Bool
  boostEn   : Bool
  fixedFreq : Bool
  prio      : BitVec 3
  live      : BitVec 16
  limit     : BitVec 16
  sagStage  : Nat
  sagPrev   : Nat                  -- stage whose threshold the last sample was below
  vinMv     : Nat                  -- last sample, mV
  railStage : Nat                  -- stage that a DRAM rail now demands (R410)
  linkHold  : Bool
  holdColls : List (Nat × Nat)     -- collectives whose end ends the hold (R417)
  holdAlloc : Nat                  -- link allocation kept, mW
  brake     : Bool
  capLimited : Bool
  railLimited : Bool
  calOk     : Bool
  calRuns   : Nat
  estLink   : Nat                  -- mW
  estMemory : Nat
  estCompute : Nat
  estVaux   : Nat
  allocLink : Nat
  allocMemory : Nat
  allocCompute : Nat
  budget    : Nat
  ceilMhz   : Nat
  throttle  : Nat
  demLink   : Nat
  tlmBase   : BitVec 52
  tlmEn     : Bool
  tlmLog2   : BitVec 4
  tlmSeq    : Nat
  weights   : List Nat             -- class weights, parts per million of the factory value
  wakes     : List Nat             -- domains waiting for a token, oldest first
  tokens    : List Nat             -- domains that hold a token
  vaux      : Bool
  vin       : Bool
  vbyp      : Bool
  vdd       : Bool
  vpp       : Bool
  duneOn    : BitVec 8             -- load switches of D0 to D7 that are closed (R391)
  refclk    : Bool
deriving DecidableEq, Repr

/-- A temperature sensor (R423, R424, R434, R452); temperatures in 1/8 °C. -/
structure SensorSt where
  state   : BitVec 2
  pred    : Int
  mean    : Int
  recent  : List Int               -- last 25 conversions, latest first
  off     : Nat                    -- evaluations in a row more than 5 °C off
  near    : Nat                    -- evaluations in a row within 3 °C
  emerg   : Bool
deriving DecidableEq, Repr

/-- Thermal control of an island (R430, R433, R452); ceiling and D before the hold of a marked band (R438). -/
structure IslandSt where
  peak    : BitVec 8
  src     : BitVec 2
  duty    : Nat
  ceilMhz : Nat
  cool    : Nat                    -- evaluations in a row with every peak 3 °C below target
  pairOff : Bool                   -- the pair event has been raised (R433)
  pairNear : Nat                   -- evaluations in a row within 3 °C
deriving DecidableEq, Repr

/-- Thermal quota of a tier of a vault (R431). -/
structure QuotaSt where
  quota : Nat
  cool  : Nat
  zero  : Bool
deriving DecidableEq, Repr

/-- Residual state of a layer and band (R436 to R439). -/
structure WadiSt where
  resid  : Int
  marked : BitVec 4
  qMeas  : Nat
  above  : Nat                     -- windows in a row with an implied excess above 8 °C
  below  : Nat                     -- windows in a row with Q_model above Q_meas by 25 %
  near   : Nat                     -- windows in a row with the deficit within 10 %
  half   : Bool
deriving DecidableEq, Repr

/-- What a window of the Wadi residual check has taken in: evaluations, the sums of inlet and outlet readings in 1/8 °C and
of the model heat in mW (R436). -/
structure WadiSum where
  count : Nat
  tin   : Int
  tout  : Int
  heat  : Int
deriving DecidableEq, Repr

/-- The thermal controller (R423 to R453). -/
structure Thm where
  flowNom  : BitVec 16
  duneTgt  : BitVec 8
  ergTgt   : BitVec 8
  cp       : BitVec 16
  shares   : List (BitVec 8)       -- W0 to W3
  trayEn   : Bool
  flowAddr : BitVec 7
  outletAddr : BitVec 7
  inletAddr  : BitVec 7
  flowState : BitVec 2
  trip     : Bool
  emerg    : Bool
  flowStale : Bool
  inletStale : Bool
  cfgReject : Bool
  pFlow    : BitVec 12
  flow     : Nat
  outlet   : Int                   -- 1/8 °C
  inlet    : Int
  flows    : List Nat              -- last ten flow readings, latest first
  lostPin  : Bool                  -- FLOW_LOST_N taken (R443)
  lostLow  : Bool                  -- low flow taken as lost (R442)
  islands  : Tbl IslandSt
  quotas   : Tbl QuotaSt           -- 8 × column + tier
  sensors  : Tbl SensorSt
  wadi     : Tbl WadiSt            -- 4 × layer + band
  nodes    : Tbl Int
  peaks    : Tbl Int
  evals    : Nat
  flowCeil : Nat                   -- compute ceiling, D and engine limit of R441
  flowDuty : Nat
  flowLive : Nat
  marked   : List (Nat × Nat)      -- tier code and band marked sensors-failed (R438)
  window   : Tbl WadiSum           -- 4 × layer + band, over the window since the last residual check (R436)
deriving DecidableEq, Repr

/-! ### Errors, debug, records -/

/-- An entry of a vault table or of the device summary (R463, R479). -/
structure CeEntry where
  vault : Nat
  tier  : Nat
  bank  : Nat
  row   : Nat
  word  : Bool
  page  : Bool
  count : Nat
  last  : Word64
deriving DecidableEq, Repr

/-- A stress test (R468 to R470). -/
structure Stress where
  corners : BitVec 5
  row     : BitVec 4
  col     : BitVec 4
  heightM1 : BitVec 4
  widthM1 : BitVec 4
  state   : BitVec 2
  reject  : BitVec 2
  corner  : BitVec 3
  left    : List Nat               -- corners still to run
  cores   : List Nat               -- cores under test
  failed  : List (Nat × Nat)       -- corner and core that failed
  skipped : List (Nat × Nat)
  results : Tbl (BitVec 2)         -- cores whose result is not 0
deriving DecidableEq, Repr

/-- ERR_ registers and tables (R463 to R465, R478). -/
structure Err where
  thresh    : BitVec 16
  chkEn     : Bool
  chkParity : Bool
  chkBusy   : Bool
  chkAddr   : BitVec 32
  chkPoison : BitVec 2
  chkData   : List Word32          -- sixteen
  chkCb     : List (BitVec 7)
  tables    : Tbl (List CeEntry)
  summary   : List CeEntry
  stress    : Stress
deriving DecidableEq, Repr

/-- A perturbation slot (R477). -/
structure DbgSlot where
  func  : BitVec 5
  arm   : Bool
  unit  : BitVec 16
  sub   : BitVec 16
  mag   : Word32
  count : Word32
  addr  : Word64
  mask  : Word64
  armedAt : Word64                 -- when a forced stretch began (function 5)
deriving DecidableEq, Repr

/-- The DBG_ window (R474 to R477, R551 to R553). -/
structure Dbg where
  unlocked : Bool
  nonce    : Word64
  result   : BitVec 2
  expiry   : Word64
  unlockDpa : Nat
  slots    : Tbl DbgSlot
deriving DecidableEq, Repr

/-- What an event to the management core is about. -/
inductive EventKind where
  | ceThreshold | flitsPoisoned | poisonConsumed | vaultLane | meshLink | fieldFault | regulator | crackedPath
  | thermalEmergency | flow | trip | sensorSuspect | tierMarked | port | quarantine | stress | auditRepair
  | imem | engineFault
  | retuneNarrow | degraded | ring0Unopened | bondWarning | bondCritical | retryLater | kvHostWrite
  | meshDevice | frameDiscard | rankMismatch | stepMismatch | identMismatch | stepSkip | updateNonFinite
  | quota | capLow | tray | defectList | defectOverflow | identity | stateSensor | epochParentLost
  | epochStray | vbyp | pairDisagree | wadiFlow | doorbellPoison | refclk
deriving DecidableEq, Repr

/-- What a Platform Memory Error section says of a memory event (R473): address, place and Memory Error Type. -/
structure MemoryError where
  dpa   : Nat
  vault : Nat
  tier  : Nat
  bank  : Nat
  row   : Nat
  burst : Nat
  type  : Nat
deriving DecidableEq, Repr

/-- One event-log entry (R516): sequence number, time base, what it is, the CPER kind when it has one (R473), the unit
and the clause's status, four data words. -/
structure Event where
  seq    : Nat
  time   : Word64
  kind   : EventKind
  cper   : Option Nat
  unitClass : Nat
  unit   : Nat
  field  : Option Nat
  step   : Word32
  status : Nat
  debug  : Bool
  suppressed : Nat
  data   : List Word64
  memory : Option MemoryError
deriving DecidableEq, Repr

/-- An entry of the defect list (R488). -/
structure DefectEntry where
  defect : Defect
  start  : Nat
  time   : Word64
deriving DecidableEq, Repr

/-- One of the two copies of an image in the boot store (R481, R514, R518). -/
structure Copy where
  good    : Bool
  version : Nat
  minor   : Nat
  image   : List Byte
deriving DecidableEq, Repr

/-- The identity region (R519, R520): PUF helper data, the record's public identity keys, whether its two signatures
verify, and one certificate chain per algorithm with whether both signatures of it verify (R6). -/
structure Identity where
  helper  : List Byte
  edPub   : List Byte
  mlPub   : List Byte
  signed  : Bool × Bool
  edChain : List Byte
  mlChain : List Byte
  chained : Bool × Bool
deriving DecidableEq, Repr

/-- The boot store (R5, R514): what survives a loss of power. -/
structure Boot where
  startCount : Nat
  unit       : Word64
  stepping   : BitVec 8
  fwMgt      : Copy × Copy          -- primary, secondary
  fwKernel   : Copy × Copy
  calib      : Copy × Copy
  identity   : Identity
  vf         : Tbl (Nat × Nat)      -- core: raises of 12.5 mV in 0.1 mV, and MARGINAL results (R470)
  weights    : List Nat             -- adapted weights, parts per million of factory (R412)
  baselines  : Tbl (BitVec 16)      -- path baselines by domain (R405)
  derates    : Tbl (BitVec 2)
  delays     : Tbl Nat              -- delay-line settings of the calibration (R514)
  defects    : List DefectEntry
  pending    : List DefectEntry
  removals   : List Defect          -- removals that the next start applies (R490)
  lastNew    : Nat                  -- NEW_DEFECTS of the last start (R485)
  bondCounts : Tbl Nat              -- checkpointed counters: 4 × interface + quadrant
  bondResidue : Tbl (List Int)
  bondLast   : Tbl Int
  events     : List Event           -- latest first, 4,096 at most
  maintenance : List Nat            -- functions of accepted maintenance commands, latest first
deriving DecidableEq, Repr

/-- Bond-wear counting as it runs (R30 to R35). Counters in units of (1/128 °C)² / (2 × 7,680²): 117,964,800 to one. -/
structure Bond where
  counts  : Tbl Nat
  residue : Tbl (List Int)          -- turning points, latest first, 1/128 °C
  last    : Tbl Int
  peak    : Tbl (Int × Bool)        -- running extreme and direction of the hysteresis filter
  warned  : Bool
  critical : Bool
  fresh   : Bool                    -- no sample since the start (R34)
deriving DecidableEq, Repr

/-- A firmware update under way (R518). -/
structure Update where
  component : Nat
  received  : Bool
  verified  : Option Bool
  version   : Nat
  minor     : Nat
  image     : List Byte
  kinds     : List Nat
deriving DecidableEq, Repr

/-- The management core (R508 to R526). -/
structure Mgt where
  eid       : Nat                   -- 0: the null endpoint ID
  dynAddr   : Option Nat
  routes    : Tbl Nat               -- remote endpoint ID to device ID (R511)
  receiver  : Option Nat
  awaiting  : List Event            -- oldest first
  sentInSec : Tbl (Nat × Nat)       -- CPER kind: second and records sent in it (R473)
  suppressed : Tbl Nat
  fullTest  : Bool
  update    : Option Update
  session   : Nat                   -- 0 none, 1 exchanging, 2 established
  transcript : Option (List Byte)   -- the transcript of a signed MEASUREMENTS just sent (R525)
  ready     : Bool                  -- firmware of the core verified (R480)
  seed      : Option (BitVec 256)   -- the device seed, reconstructed at each start (R519)
  slot0     : Bool                  -- certificate slot 0 is filled (R520)
  discarded : Nat                   -- messages of other types (R510)
  findings  : List DefectEntry      -- run-time findings not yet written as pending records (R489)
  active    : Nat × Nat × Nat       -- versions that run since their activating start: firmware, kernel, calibration (R518)
deriving DecidableEq, Repr

/-! ### Oasis -/

/-- An interval record (R531). -/
structure OasisRecord where
  second  : Word64
  eVin    : Word32
  eVdd    : Word32
  eVpp    : Word32
  samples : BitVec 20
  incomplete : Bool
  sealOpen : Bool
  range   : Bool
  clockSet : Bool
  param   : Bool
deriving DecidableEq, Repr

/-- A log entry of Oasis (R533). -/
structure OasisLog where
  seq  : Word64
  time : Word64
  kind : Nat
  data : List Byte
deriving DecidableEq, Repr

/-- The mirror of Oasis's export in the OAS_ window (R534). -/
structure OasisMirror where
  sealOpen : Bool
  running  : Bool
  range    : Bool
  version  : BitVec 16
  sealCount : Word32
  swid     : List Byte
  eVin     : Word64
  eVdd     : Word64
  eVpp     : Word64
  last     : Option OasisRecord
  devTime  : Word64
  log      : List OasisLog
deriving DecidableEq, Repr

/-- Oasis (R527 to R533). Energies of the running interval are kept in picojoules: mV × mA × 1 µs. -/
structure Oasis where
  running   : Bool
  micros    : Word64                -- Oasis's clock
  unsealed  : Bool                  -- true: the seal is open
  openings  : Word32
  bank      : Bool                  -- running image bank
  versions  : Nat × Nat             -- version in bank 0 and bank 1
  loaded    : Option Nat            -- accepted image version that the next restart runs
  loading   : Bool
  params    : List Nat
  newParams : Option (List Nat)
  newClock  : Option Nat
  cumVin    : Word64
  cumVdd    : Word64
  cumVpp    : Word64
  saved     : Word64 × Word64 × Word64
  savedTime : Word64
  accVin    : Nat
  accVdd    : Nat
  accVpp    : Nat
  samples   : Nat
  fSeal     : Bool
  fRange    : Bool
  fClock    : Bool
  fParam    : Bool
  fStart    : Bool
  rangeNow  : Option Nat
  records   : List OasisRecord      -- latest first, 65,536 at most
  logs      : List OasisLog         -- latest first, 1,024 at most
  nextSeq   : Nat
  exported  : Option OasisRecord    -- sent, not yet received by the management core
  mirror    : OasisMirror
deriving DecidableEq, Repr

/-! ### The rest -/

/-- GLB_ registers (R507, R546). -/
structure Glb where
  step       : BitVec 3
  ready      : Bool
  computeEn  : Bool
  fullTest   : Bool
  image      : Bool
  recovery   : Bool
  newDefects : BitVec 16
  minor      : BitVec 8
  epNumber   : Word32
  epScope    : Bool
  epIrqEn    : Bool
  epVector   : BitVec 11
  lastNumber : Word32
  epState    : BitVec 3
  epResult   : BitVec 3
  epMissed   : Bool
  epRej      : BitVec 11
  epTimeout  : Word32
  hold       : Bool
  bist       : Bool
  rstIrqEn   : Bool
  rstVector  : BitVec 11
  fullTestRq : Bool
  rstState   : BitVec 2
  holdMgt    : Bool
  holdSag    : Bool
  rstAgain   : Bool                 -- a request kept while the reset leaves (R491)
  kstoreOk   : Bool
  vectorsUp  : Bool                 -- CXL.io enumerable (R480)
  startDue   : Bool                 -- a start is to begin (R480, R498)
  startHeld  : Bool                 -- VAUX has risen with TRAY_RST_N low: step 1 waits (R513)
  collapsed  : Bool                 -- VIN_CORE has fallen below 1.45 V and not come back (R410)
  colTimeout : BitVec 17
deriving DecidableEq, Repr

/-- A configuration epoch in progress (R500 to R505). `state` as `GLB_EPOCH_STATUS.STATE`. -/
structure Epoch where
  active   : Bool
  waiting  : Bool                   -- waits for start step 3 (R545)
  number   : Word32
  chain    : Bool
  snap     : Shadow
  rows     : List Nat               -- rows that remain after validation
  badCores : List Nat
  badPorts : List Nat
  rej      : BitVec 11
  drained  : List Nat
  decided  : Option Bool            -- chain: released, true when it applies
  applied  : Bool
  wave     : Wave                   -- object 1
deriving DecidableEq, Repr

/-- Host requests that wait because the device is in reset or has lost its flow (R444, R495). -/
structure Cxl where
  held     : List Waiting
  discards : Nat                    -- accesses before READY (R483)
deriving DecidableEq, Repr

/-- The answer to a host CXL.mem access (R461, R201). -/
inductive HostAnswer where
  | data (dpa : Nat) (bytes : List Byte) (poison : Bool)
  | done (dpa : Nat)
  | retryLater (dpa : Nat)
  | discarded (dpa : Nat)
deriving DecidableEq, Repr

/-- CPER severities (R473). -/
inductive CperSeverity where
  | recoverable | fatal | corrected | informational
deriving DecidableEq, Repr

/-- An error record as sent (R472, R473): severity, Creator ID and Notification Type of the header, the type and the 64
bytes of the SD2 fault section, and the Platform Memory Error section of a memory event. -/
structure Cper where
  seq       : Nat                  -- the sequence number of its log entry (R516)
  severity  : CperSeverity
  creator   : String
  notification : String
  faultType : String
  fault     : List Byte
  memory    : Option MemoryError
deriving DecidableEq, Repr

/-- An answer of the management core (R516 to R526). -/
inductive MgtReply where
  | ok
  | refused (code : Nat)
  | value (v : Int)
  | unavailable
  | bytes (b : List Byte)
  | events (e : List Event)
  | records (r : List OasisRecord)
  | logs (l : List OasisLog)
  | message (eid : Nat) (b : List Byte)
  | event (e : Event)
  | cper (r : Cper)
deriving DecidableEq, Repr

/-- A host write into an operand of an outstanding clause, or into the translation of its pages (R70, R159): ring, index
and operand slot, and the elements concerned, first and count. -/
structure Taint where
  ring  : Nat
  index : Nat
  slot  : Nat
  first : Nat
  count : Nat
deriving DecidableEq, Repr

/-- What the device has put out, latest first. -/
structure Io where
  answers : List HostAnswer
  msix    : List Nat
  replies : List MgtReply
  bridged : List (Nat × List Byte)  -- endpoint ID and message put on the I3C target (R511)
  frames  : List (Nat × Frame)      -- Caravan frames sent, with their port
deriving DecidableEq, Repr

/-- Tray discretes: inputs as deglitched (true: asserted) and outputs (R513). MGT_ALERT_N follows from R513. -/
structure Pins where
  flowLost  : Bool
  brake     : Bool
  trayRst   : Bool
  sealOpen  : Bool
  thermtrip : Bool
  pwroffReq : Bool
deriving DecidableEq, Repr

/-- The state of the SD2. -/
structure State where
  pending  : List Instr
  time     : Word64
  freeIdx  : Nat
  dram     : Dram
  playa    : Slices
  delays   : Tbl Nat               -- delay-line settings in 1/64 UI by crossing and lane (R21, R23)
  host     : Store
  ctr      : Tbl Word64             -- counters of R114 by BAR0 offset, those that are not zero
  latchHi  : Tbl (Option Word32)    -- high halves latched for the next read of offset + 4 (R114)
  loHold   : Tbl Word32
  staged   : Shadow
  applied  : Shadow
  glb      : Glb
  epoch    : Epoch
  cmd      : Cmd
  rings    : Tbl RingSt
  tainted  : List Taint             -- elements of outstanding clauses' operands that the host wrote meanwhile (R70)
  conj     : Tbl Word64
  fields   : Tbl FieldSt
  steps    : Tbl StepSt
  sync     : Tbl SyncObj
  slow     : Tbl SlowSt
  cores    : Tbl CoreSt
  vaults   : Tbl VaultSt
  caches   : Tbl CacheSet           -- 4,096 × column + set
  tiers    : Tbl TierSt             -- 8 × column + tier
  engines  : Tbl EngineSt           -- 128 × column + p
  selfRef  : Bool
  kvm      : Kvm
  decodes  : List DecodeSt          -- decodes whose tasks run (R238)
  routers  : Tbl RouterSt
  slots    : List Slot
  reducing : List Reducing
  ports    : Tbl PortSt
  lnk      : Lnk
  colls    : List Coll
  pwr      : Pwr
  doms     : Tbl DomSt
  thm      : Thm
  err      : Err
  dbg      : Dbg
  boot     : Boot
  bond     : Bond
  mgt      : Mgt
  oas      : Oasis
  cxl      : Cxl
  io       : Io
  pins     : Pins
deriving DecidableEq, Repr

/-- The machine's faults. -/
inductive Fault where
  /-- A host access names an address outside the 192 GiB range (R151). Raised by hostMemRead, hostMemWrite, rawWrite
  and rawRead. Safe: the spec gives no address there. -/
  | noSuchAddress (dpa : Nat)
deriving DecidableEq, Repr

/-- The machine's refusals. -/
inductive Refusal where
  /-- No meaning yet for the command, by its mnemonic. Raised by the dispatch alone. Safe: the run stops. -/
  | notModelled (mnemonic : String)
deriving DecidableEq, Repr

/-! ### Reset values -/

/-- No byte listed, no flit poisoned, every code consistent (log 1). -/
def Dram.reset : Dram := { cells := [], poison := [], checks := [], parity := [] }

/-- A store with nothing written (log 1, log 6). -/
def Store.reset : Store := { cells := [], poison := [] }
/-- Slices with nothing written (log 1). -/
def Slices.reset : Slices := { cells := [], checks := [] }

/-- The reset value of every shadow field (R289, R316, R345, R547, R550). -/
def Shadow.reset : Shadow :=
  { rctBase := 0, ntbBase := 0, chainBase := 0, ptBase := 0, ptSize := 0, cacheEn := [], mainSlots := [],
    seqEn := false, seqBase := 0, poolEn := false, poolFrames := 0, poolBase := 0, psetEn := false, psetBase := 0,
    poolCfg := [], route := [], syncRoot := false, syncParent := 0, syncChildren := 0, idValid := false, deviceId := 0,
    hopLimit := 16, groupBase := 0, lnkChainBase := 0 }

/-- A noun that is not in use. -/
def Noun.unused : Noun :=
  { dva := 0, place := 0, layout := 0, gen := 0, format := 0, rank := 0, valid := false, rdonly := false, placeArg := 0,
    owner := 0, dims := [], length := 0, scaleDva := 0, malformed := false }

/-- A ring context of zeros. -/
def RingCtx.zero : RingCtx :=
  { sqBase := 0, cqBase := 0, dbLine := 0, fetchWb := 0, log2 := 0, dbSlot := 0, field := 0, paren := false,
    irqEn := false, prio := 0, vector := 0 }

/-- A ring is CLOSED after start-up (R77, R547). -/
def RingSt.reset : RingSt :=
  { state := .closed, before := .closed, ctx := RingCtx.zero, field := 0, fetched := 0, produced := 0, seen := 0,
    records := 0, stopAt := 0, skipped := false, sentence := 0, sentLen := 0, waitFrom := Option.none,
    closing := false, flushing := false, clauses := [] }

/-- The front end's registers at reset (R547). -/
def Cmd.reset : Cmd :=
  { adminEnable := false, r0State := 0, enableWaits := false, poll := 10, holdoff := 0, waitTimeout := 100,
    msixTable := [], pba := [], hold := [], watch := [], polled := [], reading := [], served := [], issues := 0,
    nouns := [], chains := [] }

/-- A wave in which nobody has arrived. -/
def Wave.idle : Wave :=
  { own := Option.none, inputs := [], sentUp := false, released := Option.none, gen := false }

/-- A step owner as it becomes one (R327). -/
def StepSt.fresh : StepSt :=
  { step := 0, phase := .open, nf := false, chain := false, flag := 0, applied := [], norm := 0, normSkip := false,
    forced := false, wave := Wave.idle, waveKind := 0, owing := Option.none, outcome := 0, nfHeld := false, stallFrom := Option.none }

/-- A sync object at reset: generation 0, nobody arrived, flag clear (log 2). -/
def SyncObj.reset : SyncObj := { kind := 0, gen := false, arrived := [], held := [], value := false }

/-- A slow set with nothing staged. -/
def SlowSt.reset : SlowSt := { staged := [], committed := [], applied := [], stall := Option.none }

/-- An array at reset: `ARR_STATE` reads zero and both banks are clear (R87, R115). -/
def ArraySt.reset : ArraySt :=
  { mode := 0, fmtA := 0, fmtB := 0, poison := false, bank := false, accum := false, sr := false,
    bank0 := [], bank1 := [] }

/-- A core at reset (R125, R421; log 2). -/
def CoreSt.reset : CoreSt :=
  { mappedOut := false, imgMain := .empty, imgParen := .empty, qMain := [], qParen := [], run := 0, spilled := [],
    mainHeld := [], vecMain := 0, vecParen := 0, array0 := ArraySt.reset, array1 := ArraySt.reset, lastArray := 0, trim := 0, tunes := [],
    retuning := false, stretch := 0 }

/-- A vault at reset: full width, nothing waiting (R177, R206). -/
def VaultSt.reset : VaultSt :=
  { mode := 0, spares := 0, cmdSpares := 0, halfSel := 0, failedLanes := [], stopped := [], repeats := [],
    moving := false, sideDead := false, combine := [], waiting := [], deferred := [], repair := Option.none, retune := [], dark := [], remapped := [],
    jobs := [], quota := 0, nextEngine := 0 }

/-- An empty cache set (R147, R149). -/
def CacheSet.empty : CacheSet := { ways := List.replicate 8 Option.none, tree := 0 }

/-- A tier at debt 0 with the long interval (R169, R171; row index by log 2). -/
def TierSt.reset : TierSt := { debt := 0, fast := false, rowIndex := 0, refreshing := false, yielding := false }

/-- An engine at reset (log 2). -/
def EngineSt.reset : EngineSt :=
  { latch := [], acc := List.replicate 128 0, beat := List.replicate 32 0, orphan := false, level := 0, token := false
    poison := false, dead := false }

/-- The KVM with no pool in service (R241). -/
def Kvm.reset : Kvm :=
  { active := false, badFrame := 0, lastChange := 0, used := [], cache := [], appends := [], freeing := [],
    reading := [], order := [] }

/-- A router with no failed link and nothing held (R272). -/
def RouterSt.reset : RouterSt :=
  { bulkFail := 0, ctrlFail := 0, moving := [], replays := [], queue := [], reserved := [], promoted := 0, waiters := [] }

/-- A port that is down (R314). -/
def PortSt.reset : PortSt :=
  { state := 0, half := false, halfSel := false, peerResetting := false, qCause := 0, syncOpen := false, peerId := 0,
    peerMajor := 0, peerMinor := 0, runMinor := 0, badLanes := 0, peerBad := 0, laneCorr := [], told := [], laneMove := false, txSeq := 0, rxSeq := 0,
    gotAny := false, nakDue := false, unacked := [], resends := 0, pool := [], freed := [], sent := [], peerFreed := [], txQueue := [],
    lastAck := 0, timeT1 := Option.none }

/-- Device-wide link state at reset (R316). -/
def Lnk.reset : Lnk :=
  { cfgDigest := [], offset := 0, depth := 0, locked := false, timeHold := none, inbox := [], aborted := [], ctrlSeen := [],
    ctrlNext := 0, instNext := [], wave0 := Wave.idle }

/-- A domain at reset: off, on VBYP, 750 mV (R422; log 2 for the per-part values). -/
def DomSt.reset : DomSt :=
  { power := 0, bypass := true, bridge := 0x1FF, derate := 0, phases := 0, spare := false, vset := 750, failed := [],
    regOk := true, switching := Option.none, baseline := 0, filtered := 0, pathSum := [], minMv := Option.none, minTime := 0,
    readTime := 0, meanMa := 0, window := [], ramp := 0, throttled := [], capMhz := 1800, stretchAt := none }

/-- The power controller at reset (R420, R421). -/
def Pwr.reset : Pwr :=
  { mgtCap := 1800, hostCap := 1800, brakeCap := 600, gateEn := false, boostEn := true, fixedFreq := false, prio := 0,
    live := 0, limit := 16384, sagStage := 0, sagPrev := 0, vinMv := 1800, railStage := 0, linkHold := false,
    holdColls := [], holdAlloc := 0, brake := false, capLimited := false, railLimited := false, calOk := false,
    calRuns := 0, estLink := 0, estMemory := 0, estCompute := 0, estVaux := 0, allocLink := 0, allocMemory := 0, allocCompute := 0,
    budget := 0, ceilMhz := 1500, throttle := 0, demLink := 0, tlmBase := 0, tlmEn := false, tlmLog2 := 4, tlmSeq := 0,
    weights := [1000000, 1000000, 1000000], wakes := [], tokens := [], vaux := false, vin := false, vbyp := false,
    vdd := false, vpp := false, duneOn := 0, refclk := true }

/-- A sensor at reset (R452). -/
def SensorSt.reset : SensorSt :=
  { state := 0, pred := 0, mean := 0, recent := [], off := 0, near := 0, emerg := false }

/-- Thermal control of an island at reset (R452). -/
def IslandSt.reset : IslandSt :=
  { peak := 0, src := 0, duty := 64, ceilMhz := 1800, cool := 0, pairOff := false, pairNear := 0 }

/-- A tier quota at reset (R452). -/
def QuotaSt.reset : QuotaSt := { quota := 16, cool := 0, zero := false }

/-- A residual band at reset (R452). -/
def WadiSt.reset : WadiSt := { resid := 0, marked := 0, qMeas := 0, above := 0, below := 0, near := 0, half := false }

/-- The thermal controller at reset (R451; no flow limit before the first estimate, log 2). -/
def Thm.reset : Thm :=
  { flowNom := 2200, duneTgt := 88, ergTgt := 100, cp := 4150, shares := [20, 35, 30, 15], trayEn := false,
    flowAddr := 0x4A, outletAddr := 0x49, inletAddr := 0x48, flowState := 0, trip := false, emerg := false,
    flowStale := false, inletStale := false, cfgReject := false, pFlow := 1800, flow := 0, outlet := 0, inlet := 0,
    flows := [], lostPin := false, lostLow := false, islands := [], quotas := [], sensors := [], wadi := [],
    nodes := [], peaks := [], evals := 0, flowCeil := 1800, flowDuty := 64, flowLive := 32768, marked := [], window := [] }

/-- No stress test run (R478). -/
def Stress.reset : Stress :=
  { corners := 0x1F, row := 0, col := 0, heightM1 := 0, widthM1 := 0, state := 0, reject := 0, corner := 0, left := [],
    cores := [], failed := [], skipped := [], results := [] }

/-- ERR_ registers at reset (R478; log 2 where the table gives none). -/
def Err.reset : Err :=
  { thresh := 16, chkEn := false, chkParity := false, chkBusy := false, chkAddr := 0, chkPoison := 0,
    chkData := List.replicate 16 0, chkCb := List.replicate 16 0, tables := [], summary := [],
    stress := Stress.reset }

/-- A perturbation slot at reset (log 2). -/
def DbgSlot.reset : DbgSlot :=
  { func := 0, arm := false, unit := 0, sub := 0, mag := 0, count := 0, addr := 0, mask := 0, armedAt := 0 }

/-- The debug window at reset (R479, R551). -/
def Dbg.reset : Dbg := { unlocked := false, nonce := 0, result := 0, expiry := 0, unlockDpa := 0, slots := [] }

/-- A good copy of version 0 (log 2). -/
def Copy.good0 : Copy := { good := true, version := 0, minor := 0, image := [] }

/-- The identity region as it leaves manufacture, its signatures good (log 11). -/
def Identity.made : Identity :=
  { helper := [], edPub := Config.recordKey 1, mlPub := Config.recordKey 2, signed := (true, true)
    edChain := Config.recordChain 1, mlChain := Config.recordChain 2, chained := (true, true) }

/-- A boot store as it leaves manufacture (log 2). -/
def Boot.reset : Boot :=
  { startCount := 0, unit := 0, stepping := 0, fwMgt := (Copy.good0, Copy.good0), fwKernel := (Copy.good0, Copy.good0),
    calib := (Copy.good0, Copy.good0), identity := Identity.made, vf := [], weights := [1000000, 1000000, 1000000], baselines := [],
    derates := [], delays := [], defects := [], pending := [], removals := [], lastNew := 0, bondCounts := [], bondResidue := [],
    bondLast := [], events := [], maintenance := [] }

/-- Bond wear with nothing counted (R33; log 2). -/
def Bond.reset : Bond :=
  { counts := [], residue := [], last := [], peak := [], warned := false, critical := false, fresh := true }

/-- The management core at reset (R509, R517). -/
def Mgt.reset : Mgt :=
  { eid := 0, dynAddr := Option.none, routes := [], receiver := Option.none, awaiting := [], sentInSec := [],
    suppressed := [], fullTest := false, update := Option.none, session := 0, transcript := Option.none
    ready := false, seed := Option.none, slot0 := false, discarded := 0, findings := [], active := (0, 0, 0) }

/-- The mirror at reset: every field 0 (R534). -/
def OasisMirror.reset : OasisMirror :=
  { sealOpen := false, running := false, range := false, version := 0, sealCount := 0, swid := [], eVin := 0, eVdd := 0,
    eVpp := 0, last := Option.none, devTime := 0, log := [] }

/-- Oasis before its first start (log 2). -/
def Oasis.reset : Oasis :=
  { running := false, micros := 0, unsealed := false, openings := 0, bank := false, versions := (0, 0),
    loaded := Option.none, loading := false, params := [], newParams := Option.none, newClock := Option.none,
    cumVin := 0, cumVdd := 0, cumVpp := 0, saved := (0, 0, 0), savedTime := 0, accVin := 0, accVdd := 0, accVpp := 0,
    samples := 0, fSeal := false, fRange := false, fClock := false, fParam := false, fStart := false,
    rangeNow := Option.none, records := [], logs := [], nextSeq := 0, exported := Option.none,
    mirror := OasisMirror.reset }

/-- GLB_ registers at reset (R274, R507). -/
def Glb.reset : Glb :=
  { step := 1, ready := false, computeEn := false, fullTest := false, image := false, recovery := false,
    newDefects := 0, minor := 0, epNumber := 0, epScope := false, epIrqEn := false, epVector := 0, lastNumber := 0,
    epState := 0, epResult := 0, epMissed := false, epRej := 0, epTimeout := 10000, hold := false, bist := false,
    rstIrqEn := false, rstVector := 0, fullTestRq := false, rstState := 0, holdMgt := false, holdSag := false,
    rstAgain := false, kstoreOk := false, vectorsUp := false, startDue := true, startHeld := false, collapsed := false, colTimeout := 10000 }

/-- No epoch in progress. -/
def Epoch.idle : Epoch :=
  { active := false, waiting := false, number := 0, chain := false, snap := Shadow.reset, rows := [], badCores := [],
    badPorts := [], rej := 0, drained := [], decided := Option.none, applied := false, wave := Wave.idle }

/-- Tray discretes deasserted, as unconnected inputs read (R566). -/
def Pins.reset : Pins :=
  { flowLost := false, brake := false, trayRst := false, sealOpen := false, thermtrip := false, pwroffReq := false }

/-- The device as VAUX comes up, before start step 1 runs (R480, R507), with no command waiting. -/
def State.reset : State :=
  { pending := [], time := 0, freeIdx := 0, dram := Dram.reset, playa := Slices.reset, delays := [], host := Store.reset, ctr := [],
    latchHi := [], loHold := [], staged := Shadow.reset, applied := Shadow.reset, glb := Glb.reset,
    epoch := Epoch.idle, cmd := Cmd.reset, rings := [], tainted := [], conj := [], fields := [], steps := [], sync := [], slow := [],
    cores := [], vaults := [], caches := [], tiers := [], engines := [], selfRef := false, kvm := Kvm.reset, decodes := [],
    routers := [], slots := [], reducing := [], ports := [], lnk := Lnk.reset, colls := [], pwr := Pwr.reset, doms := [],
    thm := Thm.reset, err := Err.reset, dbg := Dbg.reset, boot := Boot.reset, bond := Bond.reset, mgt := Mgt.reset,
    oas := Oasis.reset, cxl := { held := [], discards := 0 },
    io := { answers := [], msix := [], replies := [], bridged := [], frames := [] }, pins := Pins.reset }

end Sys2Proof.Machine
end

