-- ==== Sys2Proof/Machine/Ops.lean ====
section
/-! DEFINITION. The named operations over tables, memories, counters, events and host memory that the meanings share. -/

namespace Sys2Proof.Machine

/-- The answer of a step. -/
abbrev Answer := Host.Outcome State Fault Refusal

/-! ### Tables and sets -/

/-- The value of unit k: `d` where the table lists none. -/
def Tbl.get {α : Type} (d : α) : Tbl α → Nat → α
  | [], _ => d
  | (j, w) :: r, k => if k = j then w else Tbl.get d r k

/-- The table without unit k. -/
def Tbl.drop {α : Type} (t : Tbl α) (k : Nat) : Tbl α := t.filter (fun e => decide (e.1 ≠ k))

/-- The table with an entry for unit k, which it does not list, at its place. -/
def Tbl.ins {α : Type} (k : Nat) (v : α) : Tbl α → Tbl α
  | [] => [(k, v)]
  | (j, w) :: r => if k < j then (k, v) :: (j, w) :: r else (j, w) :: Tbl.ins k v r

/-- The table with unit k set to v, kept rising and without entries equal to `d`. -/
def Tbl.put {α : Type} [DecidableEq α] (d : α) (t : Tbl α) (k : Nat) (v : α) : Tbl α :=
  if v = d then t.drop k else Tbl.ins k v (t.drop k)

/-- The value of unit k where the table has an entry. -/
def Tbl.find {α : Type} : Tbl α → Nat → Option α
  | [], _ => none
  | (j, w) :: r, k => if k = j then some w else Tbl.find r k

/-- A table in which an entry of any value stands at key k. -/
def Tbl.setKey {α : Type} (t : Tbl α) (k : Nat) (v : α) : Tbl α :=
  t.filter (fun e => decide (e.1 < k)) ++ [(k, v)] ++ t.filter (fun e => decide (k < e.1))

/-- The keys of a table. -/
def Tbl.keys {α : Type} (t : Tbl α) : List Nat := t.map (·.1)

/-- A rising list with k added. -/
def insSet (k : Nat) : List Nat → List Nat
  | [] => [k]
  | j :: r => if k < j then k :: j :: r else if k = j then j :: r else j :: insSet k r

/-- A list without k. -/
def delSet (k : Nat) (l : List Nat) : List Nat := l.filter (fun j => decide (j ≠ k))

/-- A list with index i replaced. -/
def setAt {α : Type} (l : List α) (i : Nat) (v : α) : List α := l.set i v

/-- Ceiling division. -/
def ceilDiv (a b : Nat) : Nat := (a + b - 1) / b

/-! ### Bits and bytes -/

/-- Bits hi down to lo of a number. -/
def bits (v hi lo : Nat) : Nat := v / 2 ^ lo % 2 ^ (hi - lo + 1)

/-- One bit of a number. -/
def bitAt (v i : Nat) : Bool := v / 2 ^ i % 2 == 1

/-- A flag as a number. -/
def flag (b : Bool) : Nat := if b then 1 else 0

/-- Little-endian bytes as a number (R37). -/
def leNat : List Byte → Nat
  | [] => 0
  | b :: r => b.toNat + 256 * leNat r

/-- The n little-endian bytes of a number (R37). -/
def natLe : Nat → Nat → List Byte
  | 0, _ => []
  | n + 1, v => BitVec.ofNat 8 v :: natLe n (v / 256)

/-- A list cut into pieces of n (n > 0), at most `fuel` of them. -/
def chunksOf {α : Type} (n : Nat) : Nat → List α → List (List α)
  | 0, _ => []
  | fuel + 1, l => if l.isEmpty then [] else l.take n :: chunksOf n fuel (l.drop n)

/-- Bytes as little-endian 32-bit words. -/
def bytesToWords (bs : List Byte) : List Word32 :=
  (chunksOf 4 (bs.length / 4 + 1) bs).map (fun c => BitVec.ofNat 32 (leNat c))

/-- Little-endian 32-bit words as bytes. -/
def wordsToBytes (ws : List Word32) : List Byte := ws.flatMap (fun w => natLe 4 w.toNat)

/-- A signed value of w bits in two's complement. -/
def toSigned (w v : Nat) : Int := if v % 2 ^ w < 2 ^ (w - 1) then (v % 2 ^ w : Nat) else ((v % 2 ^ w : Nat) : Int) - 2 ^ w

/-- The low w bits of an integer. -/
def ofSigned (w : Nat) (v : Int) : Nat := (v % (2 ^ w : Int)).toNat

/-! ### Cells: bytes by address -/

/-- The canonical form of a memory: strictly rising addresses, no zero entry. -/
abbrev Memory.wf (cells : List Host.Cell) : Prop :=
  cells.Pairwise (fun a b => a.1 < b.1) ∧ ∀ c ∈ cells, c.2 ≠ 0

/-- What an unlisted address reads as (log 1). -/
def unlistedByte : Byte := 0

/-- One byte. -/
def Cells.read : List Host.Cell → Nat → Byte
  | [], _ => unlistedByte
  | (j, w) :: r, a => if a = j then w else Cells.read r a

/-- n bytes from address a. -/
def Cells.readRange (cells : List Host.Cell) (a n : Nat) : List Byte :=
  let near := cells.filter (fun c => decide (a ≤ c.1) && decide (c.1 < a + n))
  (List.range n).map (fun i => Cells.read near (a + i))

/-- The bytes that a write of `bs` at address a lists: those that are not zero. -/
def Cells.listed (a : Nat) : List Byte → List Host.Cell
  | [] => []
  | b :: r => if b = unlistedByte then Cells.listed (a + 1) r else (a, b) :: Cells.listed (a + 1) r

/-- The bytes `bs` written at address a. -/
def Cells.write (cells : List Host.Cell) (a : Nat) (bs : List Byte) : List Host.Cell :=
  cells.filter (fun c => decide (c.1 < a)) ++ Cells.listed a bs
    ++ cells.filter (fun c => decide (a + bs.length ≤ c.1))

/-- Cells of a host view in canonical form: later entries of a repeated address do not count. -/
def Cells.merge (cells : List Host.Cell) : List (Nat × Byte) → List Host.Cell
  | [] => cells
  | (a, b) :: r => Cells.write (Cells.merge cells r) a [b]

/-! ### Poison: one bit a 32-byte flit (R460) -/

/-- The flits that n bytes from address a touch. -/
def flitsOf (a n : Nat) : List Nat :=
  if n = 0 then [] else (List.range ((a + n - 1) / 32 - a / 32 + 1)).map (· + a / 32)

/-- Some flit of the range is poisoned. -/
def Poison.any (p : List Nat) (a n : Nat) : Bool :=
  n ≠ 0 && p.any (fun f => decide (a / 32 ≤ f) && decide (f ≤ (a + n - 1) / 32))

/-- The flits of the range set to `v`. -/
def Poison.set (p : List Nat) (a n : Nat) (v : Bool) : List Nat :=
  if v then (flitsOf a n).foldl (fun q f => insSet f q) p
  else p.filter (fun f => !(n ≠ 0 && decide (a / 32 ≤ f) && decide (f ≤ (a + n - 1) / 32)))

/-! ### Device addresses (R151 to R153) -/

/-- Column, row, tier, bank and burst-in-row of a DPA under the standard decode (R152). -/
structure Place where
  vault : Nat
  row   : Nat
  tier  : Nat
  bank  : Nat
  burst : Nat
  byte  : Nat
deriving DecidableEq, Repr

def decodeStandard (dpa : Nat) : Place :=
  let v := dpa % Config.vaultBytes
  { vault := dpa / Config.vaultBytes, row := bits v 29 18, burst := bits v 17 13, tier := bits v 12 10
    bank := bits v 9 9 + 2 * bits v 8 6, byte := bits v 5 0 }

/-- The bank-aligned decode (R152). -/
def decodeAligned (dpa : Nat) : Place :=
  let v := dpa % Config.vaultBytes
  { vault := dpa / Config.vaultBytes, row := bits v 29 18, tier := bits v 17 15, bank := bits v 14 11
    burst := bits v 10 6, byte := bits v 5 0 }

/-- The DPA under the standard decode (R153). Every memory key of the model is a standard DPA: a bank-aligned offset
is converted when it is used. -/
def Place.dpa (p : Place) : Nat :=
  p.vault * Config.vaultBytes + p.row * 2 ^ 18 + p.burst * 2 ^ 13 + p.tier * 2 ^ 10 + (p.bank % 2) * 2 ^ 9
    + (p.bank / 2) * 2 ^ 6 + p.byte

/-- The standard DPA of a bank-aligned one (R153). -/
def alignedToStandard (dpa : Nat) : Nat := (decodeAligned dpa).dpa

/-- Row number of a parity entry and of a page: ((vault × 3072 + row) × 8 + tier) × 16 + bank. -/
def rowKey (vault row tier bank : Nat) : Nat := ((vault * 3072 + row) * 8 + tier) * 16 + bank

/-- The DPA of byte i (below 2,048) of a row. -/
def rowByteDpa (vault row tier bank i : Nat) : Nat :=
  Place.dpa { vault := vault, row := row, tier := tier, bank := bank, burst := i / 64, byte := i % 64 }

/-! ### The word code (R454): stored check bits are kept as their syndrome -/

/-- Columns h_0 to h_31. -/
def wordColumns : List Nat :=
  [0x07, 0x0B, 0x0D, 0x0E, 0x13, 0x15, 0x16, 0x19, 0x1A, 0x1C, 0x23, 0x25, 0x26, 0x29, 0x2A, 0x2C,
   0x31, 0x32, 0x34, 0x38, 0x43, 0x45, 0x46, 0x49, 0x4A, 0x4C, 0x51, 0x52, 0x54, 0x58, 0x61, 0x62]
/-- Check bits of a word. -/
def wordCheck (w : Nat) : Nat := (wordColumns.zipIdx).foldl (fun c h => if bitAt w h.2 then Nat.xor c h.1 else c) 0
/-- What a syndrome says: the data bits to invert, where at most one bit is in error. -/
def wordFix (syndrome : Nat) : Option Nat :=
  if syndrome = 0 then some 0
  else match (wordColumns.zipIdx).find? (fun h => h.1 == syndrome) with
    | some h => some (2 ^ h.2)
    | none => if [1, 2, 4, 8, 16, 32, 64].contains syndrome then some 0 else none

/-! ### The page code (R455 to R459): stored parity is kept as its difference from R456's -/

/-- Multiplication in GF(2^8) modulo x^8 + x^4 + x^3 + x^2 + 1. -/
def gfMul : Nat → Nat → Nat → Nat
  | 0, _, _ => 0
  | n + 1, a, b =>
    Nat.xor (if b % 2 = 1 then a else 0) (gfMul n (if a < 128 then 2 * a else Nat.xor (2 * a) 0x11D) (b / 2))
def gf (a b : Nat) : Nat := gfMul 8 a b
/-- α^n. -/
def gfExp : Nat → Nat
  | 0 => 1
  | n + 1 => gf (gfExp n) 2
/-- Inverse of a nonzero element: its 254th power. -/
def gfInv (a : Nat) : Nat := (List.range 253).foldl (fun x _ => gf x a) a

/-- Parity that a change of message symbol i by x adds: p0 and p1 (R456). -/
def symbolParity (i x : Nat) : Nat × Nat :=
  let p0 := gf (Nat.xor x (gf x (gfExp (129 - i)))) (gfInv 3)
  (p0, Nat.xor x p0)

def noParity : List Byte := List.replicate 32 0

/-- A parity difference once row byte o has changed by x without its parity. -/
def parityFlip (p : List Byte) (o x : Nat) : List Byte :=
  let j := o % 16
  let d := symbolParity (o / 16) x
  setAt (setAt p (2 * j) (p.getD (2 * j) 0 ^^^ BitVec.ofNat 8 d.1)) (2 * j + 1) (p.getD (2 * j + 1) 0 ^^^ BitVec.ofNat 8 d.2)
/-- The same for the four bytes of a word at row byte o. -/
def parityFlipWord (p : List Byte) (o x : Nat) : List Byte :=
  (List.range 4).foldl (fun q k => parityFlip q (o + k) (x / 2 ^ (8 * k) % 256)) p

/-- The row of a DPA, and its byte in the row. -/
def rowOfDpa (dpa : Nat) : Nat := let p := decodeStandard dpa; rowKey p.vault p.row p.tier p.bank
def rowByte (dpa : Nat) : Nat := let p := decodeStandard dpa; 64 * p.burst + p.byte
/-- DPA of byte i of a row. -/
def rowDpa (key i : Nat) : Nat := rowByteDpa (key / 128 / 3072) (key / 128 % 3072) (key / 16 % 8) (key % 16) i

/-- One interleave of a row with parity difference (p0, p1) and erased symbols: the changes of its message symbols, or
none where it cannot be decoded (R457). -/
def decodeInterleave (p0 p1 : Nat) (erased : List Nat) : Option (List (Nat × Nat)) :=
  let s0 := Nat.xor p0 p1
  let s1 := Nat.xor (gf p0 2) p1
  match erased with
  | [] =>
    if s0 = 0 ∧ s1 = 0 then some []
    else if s0 = 0 then none
    else
      let x := gf s1 (gfInv s0)
      match (List.range 130).find? (fun e => gfExp e == x) with
      | some e => if e < 2 then some [] else some [(129 - e, s0)]
      | none => none
  | [i] => if s1 = gf s0 (gfExp (129 - i)) then some [(i, s0)] else none
  | [i, k] =>
    let xi := gfExp (129 - i)
    let xk := gfExp (129 - k)
    let y := gf (Nat.xor s1 (gf s0 xk)) (gfInv (Nat.xor xi xk))
    some [(i, y), (k, Nat.xor s0 y)]
  | _ => none

/-- Words of a row with a nonzero syndrome: row byte and syndrome. -/
def Dram.badWords (d : Dram) (key : Nat) : List (Nat × Nat) :=
  d.checks.filterMap (fun e => if rowOfDpa (4 * e.1) = key then some (rowByte (4 * e.1), e.2.toNat) else none)

/-- What a page repair finds in a row. -/
structure RowRepair where
  bytes    : List Byte        -- the row as rewritten
  poisoned : List Nat         -- flits of the row that it poisons
  symbols  : Bool             -- the page code corrected a symbol
deriving DecidableEq, Repr

/-- The decoding of a row (R457 to R459). -/
def Dram.decodeRow (d : Dram) (key : Nat) : RowRepair :=
  let bad := d.badWords key
  let fixed : List (Nat × Nat) := bad.filterMap (fun w => (wordFix w.2).map (fun x => (w.1, x)))
  let dead : List Nat := (bad.filter (fun w => (wordFix w.2).isNone)).map (·.1)
  let raw := (List.range 2048).map (fun i => Cells.read d.cells (rowDpa key i))
  let flip (l : List Byte) (o x : Nat) : List Byte := setAt l o (l.getD o 0 ^^^ BitVec.ofNat 8 x)
  let read := fixed.foldl (fun l w => (List.range 4).foldl (fun m k => flip m (w.1 + k) (w.2 / 2 ^ (8 * k) % 256)) l) raw
  let par := fixed.foldl (fun p w => parityFlipWord p w.1 w.2) (Tbl.get noParity d.parity key)
  let erased (j : Nat) : List Nat :=
    dead.flatMap (fun o => (List.range 4).filterMap (fun k => if (o + k) % 16 = j then some ((o + k) / 16) else none))
  let dec := (List.range 16).map (fun j =>
    decodeInterleave (par.getD (2 * j) 0).toNat (par.getD (2 * j + 1) 0).toNat (erased j))
  let fail := dec.any (·.isNone)
  let hit := (List.range 64).filter (fun f => bad.any (fun w => w.1 / 32 == f))
  let poisoned := if !fail then [] else if hit.isEmpty then List.range 64 else hit
  let changes := (dec.zipIdx).flatMap (fun e => match e.1 with
    | some l => (l.filter (fun (c : Nat × Nat) => c.2 ≠ 0)).map (fun c => (16 * c.1 + e.2, c.2))
    | none => [])
  { bytes := changes.foldl (fun l c => if poisoned.contains (c.1 / 32) then l else flip l c.1 c.2) read
    poisoned := poisoned
    symbols := changes.any (fun c => !poisoned.contains (c.1 / 32)) }

/-- A row rewritten by a page repair: fresh check bits, fresh parity, its poison map (R458, R459). -/
def Dram.repairRow (d : Dram) (key : Nat) : Dram :=
  let r := d.decodeRow key
  { cells := (List.range 32).foldl (fun c b => Cells.write c (rowDpa key (64 * b)) ((r.bytes.drop (64 * b)).take 64)) d.cells
    poison := r.poisoned.foldl (fun p f => insSet (rowDpa key (32 * f) / 32) p) d.poison
    checks := d.checks.filter (fun e => decide (rowOfDpa (4 * e.1) ≠ key))
    parity := Tbl.drop d.parity key }

/-- A burst's read needs a page repair first: an uncorrectable word, or more than two corrected (R162, R458). -/
def Dram.burstBad (d : Dram) (burst : Nat) : Bool :=
  let l := d.checks.filter (fun e => e.1 / 16 == burst)
  l.any (fun e => (wordFix e.2.toNat).isNone) || decide (2 < l.length)

/-- Device memory as a read of n bytes at a finds it: rows that the read would have repaired are repaired. -/
def Dram.seen (d : Dram) (a n : Nat) : Dram :=
  if d.checks.isEmpty || n = 0 then d
  else
    ((d.checks.filter (fun e => decide (a / 64 ≤ e.1 / 16) && decide (e.1 / 16 ≤ (a + n - 1) / 64))).map (fun e => e.1 / 16)).foldl
      (fun x b => if x.burstBad b then x.repairRow (rowOfDpa (64 * b)) else x) d

/-- Bytes with the single-bit corrections of the word code. -/
def Dram.readFixed (d : Dram) (a n : Nat) : List Byte :=
  let raw := Cells.readRange d.cells a n
  d.checks.foldl (fun l e =>
    if 4 * e.1 + 4 ≤ a ∨ a + n ≤ 4 * e.1 then l
    else match wordFix e.2.toNat with
      | some x => (List.range 4).foldl (fun m k =>
          if a ≤ 4 * e.1 + k then setAt m (4 * e.1 + k - a) (m.getD (4 * e.1 + k - a) 0 ^^^ BitVec.ofNat 8 (x / 2 ^ (8 * k)))
          else m) l
      | none => l) raw

/-! ### Device memory by DPA -/

/-- n bytes of a vault's banks, as the codes correct them. -/
def State.bankRead (s : State) (a n : Nat) : List Byte :=
  if s.dram.checks.isEmpty then Cells.readRange s.dram.cells a n else (s.dram.seen a n).readFixed a n

/-- The words that a write replaces, as they stand before it: corrected where the word code can, so that the parity's
encoded difference leaves nothing of a correctable error (R196, R456). -/
def Dram.beforeWrite (d : Dram) (a n : Nat) : Dram :=
  if d.checks.isEmpty || n = 0 then d
  else
    (d.checks.filter (fun e => decide (a / 4 ≤ e.1) && decide (e.1 ≤ (a + n - 1) / 4))).foldl (fun x e =>
      match wordFix e.2.toNat with
      | some m =>
        let key := rowOfDpa (4 * e.1)
        { x with
          cells := Cells.write x.cells (4 * e.1) (natLe 4 (Nat.xor (leNat (Cells.readRange x.cells (4 * e.1) 4)) m))
          parity := Tbl.put noParity x.parity key (parityFlipWord (Tbl.get noParity x.parity key) (rowByte (4 * e.1)) m) }
      | none => x) d

/-- Bytes written to a vault: the check bits of the words written and the page parity follow (R454, R456, R460). -/
def Dram.write (d : Dram) (a : Nat) (bs : List Byte) : Dram :=
  let d := d.beforeWrite a bs.length
  { d with
    cells := Cells.write d.cells a bs
    checks := d.checks.filter (fun e => !(bs.length ≠ 0 && decide (a / 4 ≤ e.1) && decide (e.1 ≤ (a + bs.length - 1) / 4))) }

/-- Bytes written with a given poison of the flits they touch. A write makes clean flits of those it covers whole;
a flit that it covers in part keeps its poison (R461). -/
def Dram.store (d : Dram) (a : Nat) (bs : List Byte) (poison : Bool) : Dram :=
  let d' := d.write a bs
  let lo := ceilDiv a 32 * 32
  let hi := (a + bs.length) / 32 * 32
  if poison then { d' with poison := Poison.set d.poison a bs.length true }
  else { d' with poison := if lo < hi then Poison.set d.poison lo (hi - lo) false else d.poison }

/-- Bits inverted in the stored word of a DPA, data and check (R477), without the parity. -/
def Dram.invert (d : Dram) (dpa data check : Nat) : Dram :=
  let w := dpa / 4
  let key := rowOfDpa (4 * w)
  { d with
    cells := Cells.write d.cells (4 * w) (natLe 4 (Nat.xor (leNat (Cells.readRange d.cells (4 * w) 4)) data))
    checks := Tbl.put 0 d.checks w (Tbl.get 0 d.checks w ^^^ BitVec.ofNat 7 (Nat.xor check (wordCheck data)))
    parity := Tbl.put noParity d.parity key (parityFlipWord (Tbl.get noParity d.parity key) (rowByte (4 * w)) data) }

/-- An armed slot with a function, on a unit and a place in it (R477). -/
def State.armedSlot (s : State) (func unit : Nat) (sub : Nat → Bool) : Option (Nat × DbgSlot) :=
  s.dbg.slots.find? (fun e => e.2.arm && e.2.func.toNat == func && e.2.unit.toNat == unit && sub e.2.sub.toNat)
/-- One occurrence of a slot's perturbation: its COUNT runs, and at its end the slot is disarmed. -/
def DbgSlot.used (x : DbgSlot) : DbgSlot :=
  if x.count = 0 then x else if x.count = 1 then { x with arm := false, count := 0 } else { x with count := x.count - 1 }
def State.useSlot (s : State) (i : Nat) (x : DbgSlot) : State :=
  { s with dbg := { s.dbg with slots := Tbl.put DbgSlot.reset s.dbg.slots i x.used } }

/-- A write has touched [a, a + n): armed slots with functions 8 and 11 act on it (R477). -/
def State.perturbWrite (s : State) (a n : Nat) : State :=
  if s.dbg.slots.isEmpty || n = 0 then s
  else
    s.dbg.slots.foldl (fun t e =>
      let x := e.2
      let w := x.addr.toNat / 4
      let hit := decide (a / 4 ≤ w) && decide (w ≤ (a + n - 1) / 4)
      if !x.arm || !hit || !(x.func == 8 || x.func == 11) then t
      else
        let d := if x.func = 8 then t.dram.invert (4 * w) (x.mask.toNat % 2 ^ 32) (x.mask.toNat / 2 ^ 32 % 2 ^ 7)
          else { t.dram with poison := insSet (x.addr.toNat / 32) t.dram.poison }
        ({ t with dram := d } : State).useSlot e.1 x) s

/-- Bytes written to a vault's banks. -/
def State.bankWrite (s : State) (a : Nat) (bs : List Byte) (poison : Bool) : State :=
  ({ s with dram := s.dram.store a bs poison } : State).perturbWrite a bs.length

/-- Poison of a DPA range in the banks. -/
def State.bankPoison (s : State) (a n : Nat) : Bool :=
  if s.dram.checks.isEmpty then Poison.any s.dram.poison a n else Poison.any (s.dram.seen a n).poison a n

/-- Bytes and poison of host memory. -/
def Store.store (m : Store) (a : Nat) (bs : List Byte) (poison : Bool) : Store :=
  let lo := ceilDiv a 32 * 32
  let hi := (a + bs.length) / 32 * 32
  { cells := Cells.write m.cells a bs
    poison := if poison then Poison.set m.poison a bs.length true
      else if lo < hi then Poison.set m.poison lo (hi - lo) false else m.poison }

def State.hostRead (s : State) (a n : Nat) : List Byte := Cells.readRange s.host.cells a n
def State.hostWrite (s : State) (a : Nat) (bs : List Byte) : State := { s with host := s.host.store a bs false }
/-- Words of a slice whose stored check bits do not fit, among those that [off, off + n) touches: key and syndrome. -/
def State.playaBad (s : State) (core off n : Nat) : List (Nat × Nat) :=
  let a := core * Config.sliceBytes + off
  if n = 0 then []
  else (s.playa.checks.filter (fun e => decide (a / 4 ≤ e.1) && decide (e.1 ≤ (a + n - 1) / 4))).map (fun e => (e.1, e.2.toNat))
/-- n bytes of a slice, as the word code corrects them (R145, R454). -/
def State.playaRead (s : State) (core off n : Nat) : List Byte :=
  let a := core * Config.sliceBytes + off
  (s.playaBad core off n).foldl (fun l e =>
    match wordFix e.2 with
    | some x => (List.range 4).foldl (fun m k =>
        if a ≤ 4 * e.1 + k then setAt m (4 * e.1 + k - a) (m.getD (4 * e.1 + k - a) 0 ^^^ BitVec.ofNat 8 (x / 2 ^ (8 * k))) else m) l
    | none => l) (Cells.readRange s.playa.cells a n)
/-- A flit that the range touches holds an uncorrectable word: it reads poisoned (R460). -/
def State.playaPoison (s : State) (core off n : Nat) : Bool :=
  n ≠ 0 && (s.playaBad core (off / 32 * 32) ((off + n - 1) / 32 * 32 + 32 - off / 32 * 32)).any (fun e => (wordFix e.2).isNone)
/-- What the code finds in a read of a slice is counted, at every read: `ERR_PLY_CE` and `ERR_PLY_UE` (R145, R478). -/
def State.playaSeen (s : State) (core off n : Nat) : State :=
  let l := s.playaBad core off n
  if l.isEmpty then s
  else
    let ue := (l.filter (fun e => (wordFix e.2).isNone)).length
    let k := 0x1180000 + 0x10 * core
    let c := Tbl.put 0 s.ctr k (Tbl.get 0 s.ctr k + BitVec.ofNat 64 (l.length - ue))
    { s with ctr := Tbl.put 0 c (k + 8) (Tbl.get 0 c (k + 8) + BitVec.ofNat 64 ue) }
/-- A write to a slice has touched [off, off + n): armed slots with function 9 invert bits of a word and of its check bits
(R477). -/
def State.perturbPlaya (s : State) (core off n : Nat) : State :=
  if s.dbg.slots.isEmpty || n = 0 then s
  else
    s.dbg.slots.foldl (fun t e =>
      let x := e.2
      let w := x.addr.toNat % Config.sliceBytes / 4
      if !x.arm || x.func ≠ 9 || x.unit.toNat ≠ core || !(decide (off / 4 ≤ w) && decide (w ≤ (off + n - 1) / 4)) then t
      else
        let a := core * Config.sliceBytes + 4 * w
        let data := x.mask.toNat % 2 ^ 32
        let syn := BitVec.ofNat 7 (Nat.xor (x.mask.toNat / 2 ^ 32 % 2 ^ 7) (wordCheck data))
        let m : Slices :=
          { cells := Cells.write t.playa.cells a (natLe 4 (Nat.xor (leNat (Cells.readRange t.playa.cells a 4)) data))
            checks := Tbl.put 0 t.playa.checks (a / 4) (Tbl.get 0 t.playa.checks (a / 4) ^^^ syn) }
        ({ t with playa := m } : State).useSlot e.1 x) s
/-- Every word of the flits that the range touches is stored with its check bits XOR 0x03 (R460). -/
def Slices.taint (m : Slices) (a n : Nat) : Slices :=
  { m with checks := (flitsOf a n).foldl (fun c f => (List.range 8).foldl (fun d k => Tbl.put 0 d (8 * f + k) 3) c) m.checks }
/-- Bytes written to slices: the words written get fresh check bits; with poison their flits are tainted. -/
def Slices.store (m : Slices) (a : Nat) (bs : List Byte) (poison : Bool) : Slices :=
  let m1 : Slices :=
    { cells := Cells.write m.cells a bs
      checks := m.checks.filter (fun e => !(bs.length ≠ 0 && decide (a / 4 ≤ e.1) && decide (e.1 ≤ (a + bs.length - 1) / 4))) }
  if poison then m1.taint a bs.length else m1
def State.playaWrite (s : State) (core off : Nat) (bs : List Byte) (poison : Bool) : State :=
  ({ s with playa := s.playa.store (core * Config.sliceBytes + off) bs poison } : State).perturbPlaya core off bs.length
/-- Flits of a slice marked poisoned. -/
def State.playaTaint (s : State) (core off n : Nat) : State :=
  { s with playa := s.playa.taint (core * Config.sliceBytes + off) n }

/-- Host memory as a command's operand says the device finds it (log 6). -/
def State.seeHost (s : State) (v : HostView) : State :=
  { s with host :=
      { cells := Cells.merge s.host.cells v.cells
        poison := v.poison.foldl (fun q f => insSet f q)
          (s.host.poison.filter (fun f => !(v.cells.any (fun c => c.1 / 32 == f)))) } }

/-! ### Units of State -/

def State.ring (s : State) (r : Nat) : RingSt := Tbl.get RingSt.reset s.rings r
def State.setRing (s : State) (r : Nat) (v : RingSt) : State := { s with rings := Tbl.put RingSt.reset s.rings r v }
def State.modRing (s : State) (r : Nat) (f : RingSt → RingSt) : State := s.setRing r (f (s.ring r))
def State.core (s : State) (c : Nat) : CoreSt := Tbl.get CoreSt.reset s.cores c
def State.setCore (s : State) (c : Nat) (v : CoreSt) : State := { s with cores := Tbl.put CoreSt.reset s.cores c v }
def State.modCore (s : State) (c : Nat) (f : CoreSt → CoreSt) : State := s.setCore c (f (s.core c))
def State.vault (s : State) (n : Nat) : VaultSt := Tbl.get VaultSt.reset s.vaults n
def State.setVault (s : State) (n : Nat) (v : VaultSt) : State := { s with vaults := Tbl.put VaultSt.reset s.vaults n v }
def State.modVault (s : State) (n : Nat) (f : VaultSt → VaultSt) : State := s.setVault n (f (s.vault n))
def State.tier (s : State) (n t : Nat) : TierSt := Tbl.get TierSt.reset s.tiers (8 * n + t)
def State.setTier (s : State) (n t : Nat) (v : TierSt) : State :=
  { s with tiers := Tbl.put TierSt.reset s.tiers (8 * n + t) v }
def State.engine (s : State) (n p : Nat) : EngineSt := Tbl.get EngineSt.reset s.engines (128 * n + p)
def State.setEngine (s : State) (n p : Nat) (v : EngineSt) : State :=
  { s with engines := Tbl.put EngineSt.reset s.engines (128 * n + p) v }
def State.router (s : State) (n : Nat) : RouterSt := Tbl.get RouterSt.reset s.routers n
def State.setRouter (s : State) (n : Nat) (v : RouterSt) : State :=
  { s with routers := Tbl.put RouterSt.reset s.routers n v }
def State.port (s : State) (p : Nat) : PortSt := Tbl.get PortSt.reset s.ports p
def State.setPort (s : State) (p : Nat) (v : PortSt) : State := { s with ports := Tbl.put PortSt.reset s.ports p v }
def State.modPort (s : State) (p : Nat) (f : PortSt → PortSt) : State := s.setPort p (f (s.port p))
def State.dom (s : State) (d : Nat) : DomSt := Tbl.get DomSt.reset s.doms d
def State.setDom (s : State) (d : Nat) (v : DomSt) : State := { s with doms := Tbl.put DomSt.reset s.doms d v }
def State.modDom (s : State) (d : Nat) (f : DomSt → DomSt) : State := s.setDom d (f (s.dom d))
def State.syncObj (s : State) (o : Nat) : SyncObj := Tbl.get SyncObj.reset s.sync o
def State.setSync (s : State) (o : Nat) (v : SyncObj) : State := { s with sync := Tbl.put SyncObj.reset s.sync o v }
def State.slowSet (s : State) (p : Nat) : SlowSt := Tbl.get SlowSt.reset s.slow p
def State.setSlow (s : State) (p : Nat) (v : SlowSt) : State := { s with slow := Tbl.put SlowSt.reset s.slow p v }
def State.sensor (s : State) (k : Nat) : SensorSt := Tbl.get SensorSt.reset s.thm.sensors k
def State.setSensor (s : State) (k : Nat) (v : SensorSt) : State :=
  { s with thm := { s.thm with sensors := Tbl.put SensorSt.reset s.thm.sensors k v } }
def State.island (s : State) (n : Nat) : IslandSt := Tbl.get IslandSt.reset s.thm.islands n
def State.setIsland (s : State) (n : Nat) (v : IslandSt) : State :=
  { s with thm := { s.thm with islands := Tbl.put IslandSt.reset s.thm.islands n v } }
/-- A field, where it is configured (R72). -/
def State.fieldOf (s : State) (f : Nat) : Option FieldSt := Tbl.find s.fields f
def fieldNone : FieldSt :=
  { row := 0, col := 0, height := 0, width := 0, paren := false, owner := 0, quota := 0, syncBase := 0, syncCount := 0,
    stepFlag := 0, rbufs := [], faulted := none, degraded := false, overQuota := false }
def State.setField (s : State) (f : Nat) (v : FieldSt) : State := { s with fields := Tbl.put fieldNone s.fields f v }
def stepNone : StepSt := { StepSt.fresh with outcome := 255 }
def State.stepOf (s : State) (o : Nat) : Option StepSt := Tbl.find s.steps o
def State.setStep (s : State) (o : Nat) (v : StepSt) : State := { s with steps := Tbl.put stepNone s.steps o v }

/-- Cores of a field in row-major order (R72): core number 16 × row + column (R9). -/
def FieldSt.cores (f : FieldSt) : List Nat :=
  (List.range f.height).flatMap (fun i => (List.range f.width).map (fun j => 16 * (f.row + i) + (f.col + j)))

/-! ### Vault caches and device memory by DPA (R145 to R149, R176) -/

/-- The cache of a column is in service (R149, R176). -/
def State.cacheOn (s : State) (n : Nat) : Bool := s.applied.cacheEn.contains n && (s.vault n).mode.toNat < 2
/-- Slice offset of a way's line: DESIGN CHOICE (log 53), way w of set x lies at 64 × (4,096 w + x) of the 2 MiB of R146. -/
def cacheSlot (set way : Nat) : Nat := 64 * (4096 * way + set)
/-- Where the cache of its vault holds the line of a DPA: core and slice offset of the byte (R147). -/
def State.cachedAt (s : State) (dpa : Nat) : Option (Nat × Nat) :=
  let n := dpa / Config.vaultBytes
  if s.caches.isEmpty || !s.cacheOn n then none
  else
    let set := bits dpa 17 6
    (((Tbl.get CacheSet.empty s.caches (4096 * n + set)).ways.zipIdx).find? (fun w => w.1 == some (dpa / 64))).map
      (fun w => (n, cacheSlot set w.2 + dpa % 64))
/-- [a, a + n) cut at lines of 64 bytes. -/
def linePieces (a n : Nat) : List (Nat × Nat) :=
  if n = 0 then []
  else (List.range ((a + n - 1) / 64 - a / 64 + 1)).map (fun i =>
    let lo := max a (64 * (a / 64 + i))
    (lo, min (a + n) (64 * (a / 64 + i) + 64) - lo))
/-- n bytes from a DPA as a requester of the vault reads them: of a cached line what the slice holds, else the banks. -/
def State.dpaRead (s : State) (a n : Nat) : List Byte :=
  if s.caches.isEmpty then s.bankRead a n
  else (linePieces a n).flatMap (fun p => match s.cachedAt p.1 with
    | some c => s.playaRead c.1 c.2 p.2
    | none => s.bankRead p.1 p.2)
/-- Poison of a DPA range as a requester of the vault finds it; a vault whose side port is dead returns poison (R176). -/
def State.dpaPoison (s : State) (a n : Nat) : Bool :=
  (s.vault (a / Config.vaultBytes)).sideDead
    || (if s.caches.isEmpty then s.bankPoison a n
      else (linePieces a n).any (fun p => match s.cachedAt p.1 with
        | some c => s.playaPoison c.1 c.2 p.2
        | none => s.bankPoison p.1 p.2))
/-- Lines that hold bytes of a write take them too (R148). -/
def State.updateLines (s : State) (a : Nat) (bs : List Byte) (poison : Bool) : State :=
  if s.caches.isEmpty then s
  else (linePieces a bs.length).foldl (fun t p => match t.cachedAt p.1 with
    | some c => t.playaWrite c.1 c.2 ((bs.drop (p.1 - a)).take p.2) poison
    | none => t) s
/-- A write closes the combining entries of the bursts that it touches (R160). -/
def State.closeEntries (s : State) (a n : Nat) : State :=
  let v := s.vault (a / Config.vaultBytes)
  if n = 0 || v.combine.isEmpty then s
  else s.setVault (a / Config.vaultBytes)
    { v with combine := v.combine.filter (fun e => !(decide (a / 64 ≤ e.burst) && decide (e.burst ≤ (a + n - 1) / 64))) }
/-- Bytes written to a DPA; a vault whose side port is dead discards them (R148, R160, R176). -/
def State.dpaWrite (s : State) (a : Nat) (bs : List Byte) (poison : Bool) : State :=
  if (s.vault (a / Config.vaultBytes)).sideDead then s
  else ((s.bankWrite a bs poison).updateLines a bs poison).closeEntries a bs.length

/-! ### Counters (R114) -/

def State.ctrGet (s : State) (off : Nat) : Word64 := Tbl.get 0 s.ctr off
def State.ctrPut (s : State) (off : Nat) (v : Word64) : State := { s with ctr := Tbl.put 0 s.ctr off v }
/-- A counter advances; it wraps at 2^64 (R114). -/
def State.ctrAdd (s : State) (off n : Nat) : State := s.ctrPut off (s.ctrGet off + BitVec.ofNat 64 n)
/-- A counter that holds a maximum. -/
def State.ctrMax (s : State) (off n : Nat) : State := if (s.ctrGet off).toNat < n then s.ctrPut off (BitVec.ofNat 64 n) else s

/-! ### Free values (log 7) -/

/-- The next free value. -/
def State.free (s : State) : BitVec 64 := Config.freeValue s.freeIdx
/-- The state once its next free value is taken. -/
def State.tookFree (s : State) : State := { s with freeIdx := s.freeIdx + 1 }

/-! ### Events to the management core (R516, R517) -/

/-- An event of a kind at the present time. -/
def State.mkEvent (s : State) (kind : EventKind) (cper : Option Nat) (unitClass unit : Nat) (field : Option Nat)
    (status : Nat) (data : List Word64) : Event :=
  { seq := match s.boot.events with
      | [] => 0
      | e :: _ => e.seq + 1
    time := s.time, kind := kind, cper := cper, unitClass := unitClass, unit := unit, field := field
    step := match field with
      | some f => match s.fieldOf f with
        | some x => match s.stepOf x.owner with
          | some o => o.step
          | none => 0
        | none => 0
      | none => 0
    status := status, debug := s.dbg.slots.any (fun e => e.2.arm), suppressed := 0, data := data, memory := none }

/-- An event is logged, and waits for its delivery (R516, R517). -/
def State.raise (s : State) (e : Event) : State :=
  { s with
    boot := { s.boot with events := (e :: s.boot.events).take 4096 }
    mgt := { s.mgt with awaiting := s.mgt.awaiting ++ [e] } }

/-- An event of a kind is raised. -/
def State.event (s : State) (kind : EventKind) (cper : Option Nat) (unitClass unit : Nat) (field : Option Nat)
    (status : Nat) (data : List Word64) : State :=
  s.raise (s.mkEvent kind cper unitClass unit field status data)

/-- A memory event: it carries the fields of its Platform Memory Error section (R473). -/
def State.memoryEvent (s : State) (kind : EventKind) (cper vault : Nat) (data : List Word64) (m : MemoryError) : State :=
  s.raise { s.mkEvent kind (some cper) 2 vault none 0 data with memory := some m }

/-- PLDM state sensors 0x5000 to 0x5004 (R517); how a composite state is packed is the model's (log 18). Missing rails:
VIN_CORE, VBYP, VDD_DRAM, VPP_DRAM from bit 0. -/
def State.stateSensor (s : State) (i : Nat) : Nat :=
  match i with
  | 0 => s.glb.step.toNat * 8 + flag s.glb.ready * 4 + flag s.glb.computeEn * 2 + flag s.glb.recovery
  | 1 => flag (!s.pwr.vin) + flag (!s.pwr.vbyp) * 2 + flag (!s.pwr.vdd) * 4 + flag (!s.pwr.vpp) * 8
  | 2 => s.pwr.sagStage
  | 3 => s.thm.flowState.toNat * 4 + flag s.thm.trip * 2 + flag s.thm.emerg
  | _ => flag s.dbg.unlocked * 2 + flag s.oas.mirror.sealOpen
/-- Each state sensor that differs from its value in `old` raises an event (R517). -/
def State.noteSensors (s old : State) : State :=
  (List.range 5).foldl (fun t i =>
    if t.stateSensor i = old.stateSensor i then t
    else t.event .stateSensor none 0 (0x5000 + i) none 0 [BitVec.ofNat 64 (old.stateSensor i), BitVec.ofNat 64 (t.stateSensor i)]) s

/-- A run-time finding for the next start (R489). -/
def State.finding (s : State) (kind unit sub sub2 : Nat) : State :=
  let e : DefectEntry :=
    { defect := { kind := kind, unit := unit, sub := sub, sub2 := sub2 }, start := s.boot.startCount, time := s.time }
  { s with mgt := { s.mgt with findings := s.mgt.findings ++ [e] } }

/-! ### Interrupts (R56) -/

/-- The MSI-X entry as PCIe lays it out: vector control bit 0 masks (log 8). -/
def msixReset : BitVec 128 := BitVec.ofNat 128 (2 ^ 96)
def State.msixMasked (s : State) (v : Nat) : Bool := (Tbl.get msixReset s.cmd.msixTable v).getLsbD 96

/-- The vectors in hold-off with v among them: a vector that has fired does not fire again within the hold-off. -/
def Cmd.startHold (c : Cmd) (v : Nat) : Cmd :=
  if c.holdoff = 0 then c
  else { c with hold := (insSet v (Tbl.keys c.hold)).map (fun j =>
    (j, match Tbl.find c.hold j with
      | some b => b
      | none => false)) }

/-- A vector fires and begins its hold-off, or pends while its entry is masked. -/
def State.fireMsix (s : State) (v : Nat) : State :=
  if s.msixMasked v then { s with cmd := { s.cmd with pba := insSet v s.cmd.pba } }
  else { s with io := { s.io with msix := v :: s.io.msix }, cmd := s.cmd.startHold v }

/-- A vector is raised: held back and merged while it is in its hold-off (R56). -/
def State.raiseMsix (s : State) (v : Nat) : State :=
  match Tbl.find s.cmd.hold v with
  | some _ => { s with cmd := { s.cmd with hold := s.cmd.hold.map (fun e => if e.1 = v then (v, true) else e) } }
  | none => s.fireMsix v

/-! ### The time base (R312, R546; log 3) -/

/-- A nanosecond of the reference: the time base advances, or a held counter waits for the parent's time to pass it. -/
def State.idle (s : State) : State :=
  match s.lnk.timeHold with
  | some t =>
    if t.toNat < s.time.toNat then { s with lnk := { s.lnk with timeHold := some (t + 1) } }
    else { s with time := s.time + 1, lnk := { s.lnk with timeHold := none } }
  | none => { s with time := s.time + 1 }

/-! ### What stops compute, and how fast it runs -/

/-- Compute is halted with its state kept: sag stage 4, loss of flow, a thermal trip, or loss of REFCLK_SYS (R407, R443,
R448, R559). Each keeps stopped what it stops (R446). -/
def State.halted (s : State) : Bool :=
  decide (4 ≤ s.pwr.sagStage) || decide (2 ≤ s.thm.flowState.toNat) || s.thm.trip || !s.pwr.refclk

/-- Supply domain of the Playa slices of a core's cluster (R9, R392). -/
def playaDomain (core : Nat) : Nat := 272 + (4 * (core / 64) + core % 16 / 4)

/-- A domain is on and its clock runs (R398, R402). -/
def State.domRuns (s : State) (d : Nat) : Bool := (s.dom d).power == 2 && (s.dom d).switching.isNone

/-- A thermal ceiling and fraction D fallen by k steps of 50 MHz: below 1.0 GHz, and in fixed-frequency mode, D falls by
8 a step instead, down to 16 (R430). -/
def fallSteps (fixed : Bool) (k mhz duty : Nat) : Nat × Nat :=
  let m := if fixed then 0 else min k ((mhz - 1000) / 50)
  (mhz - 50 * m, max 16 (duty - 8 * (k - m)))

/-- A tier with islands of the row band of column n is marked sensors-failed: B 0, S 1, C 2 (R438). -/
def State.bandMarked (s : State) (n : Nat) : Bool := s.thm.marked.any (fun m => decide (m.1 < 3) && m.2 == n / 64)

/-- Ceiling and D of an island as `THM_ISLAND` shows them: held three steps lower in a marked band (R430, R438). -/
def State.islandLimit (s : State) (n : Nat) : Nat × Nat :=
  let x := s.island n
  if s.bandMarked n then fallSteps s.pwr.fixedFreq 3 x.ceilMhz x.duty else (x.ceilMhz, x.duty)

/-- An emergency setting is in force on an island: a sensor of its Erg tier, of its group's Playa tier, or of Hamada (R432). -/
def State.emergencyAt (s : State) (n : Nat) : Bool :=
  s.thm.sensors.any (fun e => e.2.emerg && (if e.1 < 512 then e.1 / 2 == n
    else if e.1 < 576 then e.1 - 512 == 8 * (n / 32) + n % 16 / 2 else decide (1088 ≤ e.1) && decide (e.1 < 1120)))
/-- The thermal ceiling that acts on an island's clock: in fixed-frequency mode, where the control uses D at every level, a
ceiling left from outside the mode does not act, an emergency's does (R19, R430, R432; DEDUCED, log 54). -/
def State.thermalMhz (s : State) (n : Nat) : Nat :=
  if s.pwr.fixedFreq && !s.emergencyAt n then max 1500 (s.islandLimit n).1 else (s.islandLimit n).1

/-- The version of the calibration in use (R514, R518). -/
def State.calVersion (s : State) : Nat := s.mgt.active.2.2

/-- Point k of a core's voltage–frequency table, at 1000 + 50 k MHz, in 0.1 mV; a point raised above 0.95 V is removed
(R393, R470). -/
def State.vfPoint (s : State) (n k : Nat) : Option Nat :=
  let v := 5500 + Config.vfFactory s.calVersion (17 * n + k) % 4001 + (Tbl.get (0, 0) s.boot.vf n).1
  if v ≤ 9500 then some v else none
/-- The highest frequency that a core's table still holds; 0 where it holds none. -/
def State.vfTop (s : State) (n : Nat) : Nat :=
  match (List.range 17).reverse.find? (fun k => (s.vfPoint n k).isSome) with
  | some k => 1000 + 50 * k
  | none => 0
/-- Target voltage in mV for a clock: the lowest point at or above it (R393). -/
def State.vfMv (s : State) (n mhz : Nat) : Option Nat :=
  ((List.range 17).filterMap (fun k => if mhz ≤ 1000 + 50 * k then s.vfPoint n k else none)).head?.map (fun v => (v + 9) / 10)

/-- Core clock of an island on its own supply in MHz: the least of its ceilings (R393, R396, R397, R406, R407, R415, R430,
R441). -/
def State.ownMhz (s : State) (n : Nat) : Nat :=
  let d := s.dom n
  let c := s.dom (playaDomain n)
  [s.pwr.ceilMhz, s.thermalMhz n, if s.pwr.fixedFreq then max 1500 s.thm.flowCeil else s.thm.flowCeil, d.capMhz, c.capMhz,
   if s.pwr.sagStage = 0 then 1800 else 1500, if d.bypass then 1000 else 1800, if c.bypass then 1200 else 1800, s.vfTop n].foldl min 1800
/-- Core clock of an island: a bridged core runs at its neighbour's (R398). -/
def State.coreMhz (s : State) (n : Nat) : Nat :=
  let b := (s.dom n).bridge.toNat
  if b < 256 then s.ownMhz b else s.ownMhz n

/-! ### Delay lines (R21, R23, R24, R26) -/

/-- The widest passing window of a sweep, the first among equals (DESIGN CHOICE, log 57). -/
def widestWindow (ws : List (Nat × Nat)) : Option (Nat × Nat) :=
  ws.foldl (fun b w => match b with
    | some x => if x.2 < w.2 then some w else some x
    | none => some w) none
/-- A lane passes training (R24). -/
def LaneSweep.passes (x : LaneSweep) : Bool :=
  match widestWindow x.windows with
  | some w => decide (24 ≤ w.2)
  | none => false
/-- The centre of a lane's widest window, in 1/64 UI (R21, R23); of an even width the later middle phase (log 57). -/
def LaneSweep.centre (x : LaneSweep) : Nat :=
  match widestWindow x.windows with
  | some w => (w.1 + w.2 / 2) % 64
  | none => 0
/-- Key of a lane's delay line. -/
def delayKey (column crossing lane : Nat) : Nat := (column * 9 + crossing) * 2048 + lane
/-- Lanes that pass take their settings (R23). -/
def State.setDelays (s : State) (xs : List LaneSweep) : State :=
  (xs.filter LaneSweep.passes).foldl (fun t x => { t with delays := Tbl.put 0 t.delays (delayKey x.column x.crossing x.lane) (LaneSweep.centre x) }) s

/-! ### Answers and management replies -/

def State.answer (s : State) (a : HostAnswer) : State := { s with io := { s.io with answers := a :: s.io.answers } }
def State.reply (s : State) (r : MgtReply) : State := { s with io := { s.io with replies := r :: s.io.replies } }

end Sys2Proof.Machine
end

