-- ==== Sys2Proof/Machine/Num.lean ====
section
/-! DEFINITION. Number formats and exact arithmetic (03 R96 to R109): values as exact binary fractions, the formats'
encodings, rounding to nearest-even and stochastically, overflow, MX blocks. -/

namespace Sys2Proof.Machine

/-- An exact value: NaN, a signed infinity, or ± m × 2^e (zero keeps its sign). -/
inductive Val where
  | nan
  | inf (neg : Bool)
  | fin (neg : Bool) (m : Nat) (e : Int)
deriving DecidableEq, Repr

/-- m × 2^(e - q) as a natural number, for q ≤ e. -/
def scaleUp (m : Nat) (e q : Int) : Nat := m * 2 ^ (e - q).toNat

def Val.zero : Val := .fin false 0 0
def Val.ofInt (v : Int) : Val := .fin (decide (v < 0)) v.natAbs 0
def Val.isNan : Val → Bool
  | .nan => true
  | _ => false
def Val.isFinite : Val → Bool
  | .fin _ _ _ => true
  | _ => false
/-- Zero of either sign. -/
def Val.isZero : Val → Bool
  | .fin _ 0 _ => true
  | _ => false
def Val.negative : Val → Bool
  | .nan => false
  | .inf n => n
  | .fin n _ _ => n
def Val.neg : Val → Val
  | .nan => .nan
  | .inf n => .inf (!n)
  | .fin n m e => .fin (!n) m e
def Val.abs : Val → Val
  | .nan => .nan
  | .inf _ => .inf false
  | .fin _ m e => .fin false m e

/-- The signed numerator of a finite value over the unit 2^q, q ≤ e. -/
def signedOver (n : Bool) (m : Nat) (e q : Int) : Int := if n then - (scaleUp m e q : Int) else scaleUp m e q

/-- Exact sum under IEEE 754-2019 (R102): the sum of opposite values is +0, of two negative zeros −0. -/
def Val.add : Val → Val → Val
  | .nan, _ => .nan
  | _, .nan => .nan
  | .inf a, .inf b => if a = b then .inf a else .nan
  | .inf a, .fin _ _ _ => .inf a
  | .fin _ _ _, .inf b => .inf b
  | .fin n m e, .fin n' m' e' =>
    let q := min e e'
    let v := signedOver n m e q + signedOver n' m' e' q
    if v = 0 then .fin (n && n' && m == 0 && m' == 0) 0 q else .fin (decide (v < 0)) v.natAbs q

def Val.sub (a b : Val) : Val := a.add b.neg

/-- Exact product (R100, R102). -/
def Val.mul : Val → Val → Val
  | .nan, _ => .nan
  | _, .nan => .nan
  | .inf a, .inf b => .inf (a != b)
  | .inf a, .fin n m _ => if m = 0 then .nan else .inf (a != n)
  | .fin n m _, .inf b => if m = 0 then .nan else .inf (n != b)
  | .fin n m e, .fin n' m' e' => .fin (n != n') (m * m') (e + e')

/-- Numeric order of two values that are not NaN; zeros of either sign are equal. -/
def Val.lt : Val → Val → Bool
  | .nan, _ => false
  | _, .nan => false
  | .inf a, .inf b => a && !b
  | .inf a, .fin _ _ _ => a
  | .fin _ _ _, .inf b => !b
  | .fin n m e, .fin n' m' e' =>
    let q := min e e'
    decide (signedOver n m e q < signedOver n' m' e' q)

/-- Numeric equality; NaN equals nothing. -/
def Val.eq (a b : Val) : Bool := !a.isNan && !b.isNan && !(a.lt b) && !(b.lt a)

/-- Quotient with a sticky bit below 96 significant bits, enough for every rounding of R96's formats. -/
def Val.div : Val → Val → Val
  | .nan, _ => .nan
  | _, .nan => .nan
  | .inf _, .inf _ => .nan
  | .inf a, .fin n _ _ => .inf (a != n)
  | .fin n _ _, .inf b => .fin (n != b) 0 0
  | .fin n m e, .fin n' m' e' =>
    if m' = 0 then (if m = 0 then .nan else .inf (n != n'))
    else
      let k := Nat.log2 m' + 96
      let num := m * 2 ^ k
      .fin (n != n') (2 * (num / m') + (if num % m' = 0 then 0 else 1)) (e - e' - k - 1)

/-- Integer square root by bits, from bit i downwards. -/
def isqrtFrom (n : Nat) : Nat → Nat → Nat
  | 0, r => if (r + 1) * (r + 1) ≤ n then r + 1 else r
  | i + 1, r => isqrtFrom n i (if (r + 2 ^ (i + 1)) * (r + 2 ^ (i + 1)) ≤ n then r + 2 ^ (i + 1) else r)
def isqrt (n : Nat) : Nat := isqrtFrom n (Nat.log2 n / 2 + 1) 0

/-- Square root with a sticky bit: NaN below zero, −0 at −0 (IEEE 754-2019). -/
def Val.sqrt : Val → Val
  | .nan => .nan
  | .inf n => if n then .nan else .inf false
  | .fin n m e =>
    if m = 0 then .fin n 0 0
    else if n then .nan
    else
      let k := 192 + (e % 2).toNat
      let num := m * 2 ^ k
      let r := isqrt num
      .fin false (2 * r + (if r * r = num then 0 else 1)) ((e - k) / 2 - 1)

/-! ### Formats (R96) -/

/-- How a format spends its highest exponent: as IEEE does, on the one NaN of E4M3, or on finite values. -/
inductive Special where
  | ieee | e4m3 | none
deriving DecidableEq, Repr

structure FloatFmt where
  eb      : Nat
  fb      : Nat
  bias    : Nat
  special : Special
deriving DecidableEq, Repr

def fp32 : FloatFmt := { eb := 8, fb := 23, bias := 127, special := .ieee }
def bf16 : FloatFmt := { eb := 8, fb := 7, bias := 127, special := .ieee }
def fp16 : FloatFmt := { eb := 5, fb := 10, bias := 15, special := .ieee }
def fp8e4m3 : FloatFmt := { eb := 4, fb := 3, bias := 7, special := .e4m3 }
def fp8e5m2 : FloatFmt := { eb := 5, fb := 2, bias := 15, special := .ieee }
def fp6e3m2 : FloatFmt := { eb := 3, fb := 2, bias := 3, special := .none }
def fp6e2m3 : FloatFmt := { eb := 2, fb := 3, bias := 1, special := .none }
def fp4e2m1 : FloatFmt := { eb := 2, fb := 1, bias := 1, special := .none }

/-- Bits of an encoding. -/
def FloatFmt.width (f : FloatFmt) : Nat := 1 + f.eb + f.fb
/-- Exponent of the smallest subnormal. -/
def FloatFmt.qmin (f : FloatFmt) : Int := 1 - (f.bias : Int) - f.fb
/-- The highest exponent of a finite value. -/
def FloatFmt.emax (f : FloatFmt) : Int :=
  match f.special with
  | .ieee => (2 ^ f.eb : Nat) - 2 - (f.bias : Int)
  | _ => (2 ^ f.eb : Nat) - 1 - (f.bias : Int)
/-- The largest finite value as a multiple of 2^(emax − fb). -/
def FloatFmt.maxMant (f : FloatFmt) : Nat :=
  match f.special with
  | .e4m3 => 2 ^ (f.fb + 1) - 2
  | _ => 2 ^ (f.fb + 1) - 1
def FloatFmt.maxVal (f : FloatFmt) (neg : Bool) : Val := .fin neg f.maxMant (f.emax - f.fb)

/-- The value of an encoding. -/
def FloatFmt.decode (f : FloatFmt) (v : Nat) : Val :=
  let sign := bitAt v (f.eb + f.fb)
  let ex := v / 2 ^ f.fb % 2 ^ f.eb
  let fr := v % 2 ^ f.fb
  if f.special = .ieee ∧ ex = 2 ^ f.eb - 1 then (if fr = 0 then .inf sign else .nan)
  else if f.special = .e4m3 ∧ ex = 2 ^ f.eb - 1 ∧ fr = 2 ^ f.fb - 1 then .nan
  else if ex = 0 then .fin sign fr f.qmin
  else .fin sign (2 ^ f.fb + fr) ((ex : Int) - f.bias - f.fb)

/-- The positive canonical NaN (R102, R106). -/
def FloatFmt.nanBits (f : FloatFmt) : Nat :=
  match f.special with
  | .ieee => (2 ^ f.eb - 1) * 2 ^ f.fb + 2 ^ (f.fb - 1)
  | _ => 2 ^ (f.eb + f.fb) - 1
def FloatFmt.infBits (f : FloatFmt) (neg : Bool) : Nat := flag neg * 2 ^ (f.eb + f.fb) + (2 ^ f.eb - 1) * 2 ^ f.fb

/-- The encoding of ± n × 2^q, a value of the format. -/
def FloatFmt.encodeExact (f : FloatFmt) (neg : Bool) (n : Nat) (q : Int) : Nat :=
  let s := flag neg * 2 ^ (f.eb + f.fb)
  if n = 0 then s
  else
    let l := Nat.log2 n
    let ex : Int := l + q
    if ex < 1 - (f.bias : Int) then s + scaleUp n q f.qmin
    else
      let fr := if l ≤ f.fb then n * 2 ^ (f.fb - l) else n / 2 ^ (l - f.fb)
      s + (ex + f.bias).toNat * 2 ^ f.fb + (fr - 2 ^ f.fb)

/-- How a result is rounded: to nearest-even, or with a 16-bit random value (R108, R109). -/
inductive Rounding where
  | rne
  | sr (r : Nat)
deriving DecidableEq, Repr

/-- m × 2^e as a multiple of 2^q: quotient rounded as told. -/
def roundAt (m : Nat) (e q : Int) (rnd : Rounding) : Nat :=
  if q ≤ e then scaleUp m e q
  else
    let d := (q - e).toNat
    let lo := m / 2 ^ d
    let rem := m % 2 ^ d
    match rnd with
    | .rne =>
      if 2 * rem < 2 ^ d then lo
      else if 2 ^ d < 2 * rem then lo + 1
      else lo + lo % 2
    | .sr r => if rem = 0 then lo else if 2 ^ 16 ≤ 2 ^ 16 * rem / 2 ^ d + r then lo + 1 else lo

/-- The unit in the last place of m × 2^e in a format without upper bound. -/
def FloatFmt.quantum (f : FloatFmt) (m : Nat) (e : Int) : Int := max ((Nat.log2 m : Int) + e - f.fb) f.qmin

/-- A rounded result: encoding, whether it counts as non-finite, and whether it was saturated (R140). -/
structure Converted where
  bits      : Nat
  nonFinite : Bool
  saturated : Bool
deriving DecidableEq, Repr

/-- Rounding to a format with R106's treatment of overflow, infinity and NaN. -/
def FloatFmt.convert (f : FloatFmt) (rnd : Rounding) (sat : Bool) (v : Val) : Converted :=
  let limit (neg : Bool) : Nat :=
    if sat then f.encodeExact neg f.maxMant (f.emax - f.fb)
    else match f.special with
      | .ieee => f.infBits neg
      | _ => f.nanBits
  match v with
  | .nan => { bits := f.nanBits, nonFinite := true, saturated := false }
  | .inf neg => { bits := limit neg, nonFinite := !sat, saturated := sat }
  | .fin neg m e =>
    if m = 0 then { bits := f.encodeExact neg 0 0, nonFinite := false, saturated := false }
    else
      let q := f.quantum m e
      let n := roundAt m e q rnd
      let top := f.emax - f.fb
      if q > top ∨ (q = top ∧ n > f.maxMant)
      then { bits := limit neg, nonFinite := !sat, saturated := sat }
      else { bits := f.encodeExact neg n q, nonFinite := false, saturated := false }

/-- Round to FP32, nearest-even, overflow to infinity (R100, R101). -/
def roundFp32 (v : Val) : Nat := (fp32.convert .rne false v).bits
/-- A value rounded to a format and read back. -/
def FloatFmt.rounded (f : FloatFmt) (v : Val) : Val := f.decode (f.convert .rne false v).bits
def round32 (v : Val) : Val := fp32.rounded v
def fromFp32 (w : Word32) : Val := fp32.decode w.toNat
def toFp32 (v : Val) : Word32 := BitVec.ofNat 32 (roundFp32 v)

/-! ### FORMAT codes (R58) -/

inductive ElemKind where
  | float (f : FloatFmt)      -- FP32, BF16, FP16, FP8
  | mxFloat (f : FloatFmt)    -- MXFP8, MXFP6, MXFP4
  | mxInt8
  | int8
  | int32
deriving DecidableEq, Repr

def formatKind : Nat → Option ElemKind
  | 0x00 => some (.float fp32)
  | 0x01 => some (.float bf16)
  | 0x02 => some (.float fp16)
  | 0x03 => some (.float fp8e4m3)
  | 0x04 => some (.float fp8e5m2)
  | 0x05 => some (.mxFloat fp8e4m3)
  | 0x06 => some (.mxFloat fp8e5m2)
  | 0x07 => some (.mxFloat fp6e3m2)
  | 0x08 => some (.mxFloat fp6e2m3)
  | 0x09 => some (.mxFloat fp4e2m1)
  | 0x0A => some .mxInt8
  | 0x0B => some .int8
  | 0x0C => some .int32
  | _ => none

def isMx (fmt : Nat) : Bool := decide (5 ≤ fmt) && decide (fmt ≤ 0xA)
/-- Bits of an element in storage (R96, R98). -/
def formatBits : Nat → Nat
  | 0x00 => 32
  | 0x0C => 32
  | 0x01 => 16
  | 0x02 => 16
  | 0x07 => 6
  | 0x08 => 6
  | 0x09 => 4
  | _ => 8

/-- The value of an element: its encoding and, for MX, its scale byte (R97). -/
def elemVal (fmt code scale : Nat) : Val :=
  match formatKind fmt with
  | some (.float f) => f.decode code
  | some (.mxFloat f) =>
    if scale = 0xFF then .nan
    else match f.decode code with
      | .fin n m e => .fin n m (e + scale - 127)
      | v => v
  | some .mxInt8 =>
    if scale = 0xFF then .nan
    else
      let v := toSigned 8 code
      .fin (decide (v < 0)) v.natAbs ((scale : Int) - 127 - 6)
  | some .int8 => Val.ofInt (toSigned 8 code)
  | some .int32 => Val.ofInt (toSigned 32 code)
  | none => .nan

/-! ### Stochastic rounding (R108) -/

def splitMixFin (z : Word64) : Word64 :=
  let a := (z ^^^ (z >>> 30)) * 0xBF58476D1CE9E5B9#64
  let b := (a ^^^ (a >>> 27)) * 0x94D049BB133111EB#64
  b ^^^ (b >>> 31)
def splitMixGamma : Word64 := 0x9E3779B97F4A7C15#64
/-- r(E) for a seed and an element's logical linear index. -/
def srValue (seed : Word32) (e : Nat) : Nat :=
  let h := splitMixFin (seed.setWidth 64 + splitMixGamma)
  (splitMixFin (h + BitVec.ofNat 64 (e + 1) * splitMixGamma)).toNat % 2 ^ 16

/-- The conversion group of R352 as decoded: seed, ROUND, SAT. -/
structure Conv where
  seed : Word32
  sr   : Bool
  sat  : Bool
deriving DecidableEq, Repr

def Conv.plain : Conv := { seed := 0, sr := false, sat := false }
def Conv.rounding (c : Conv) (e : Nat) : Rounding := if c.sr then .sr (srValue c.seed e) else .rne

/-! ### MX blocks (R107) -/

def mxEmax : Nat → Int
  | 0x05 => 8
  | 0x06 => 15
  | 0x07 => 4
  | 0x08 => 2
  | 0x09 => 2
  | _ => 0

/-- The larger magnitude of two finite values. -/
def maxMagnitude (a b : Val) : Val := if a.abs.lt b.abs then b.abs else a.abs

/-- floor(log2 |v|) of a finite nonzero value. -/
def floorLog2 : Val → Int
  | .fin _ m e => (Nat.log2 m : Int) + e
  | _ => 0

/-- Block of an MX output: scale byte and element encodings, with how many elements saturated. `e0` is the index of
the block's first element in the noun. -/
def mxBlock (fmt : Nat) (c : Conv) (e0 : Nat) (vs : List Val) : Nat × List Converted :=
  if vs.any (fun v => !v.isFinite) then
    (0xFF, vs.map (fun _ => { bits := 0, nonFinite := true, saturated := false }))
  else
    let amax := vs.foldl maxMagnitude Val.zero
    if amax.isZero then
      (0, vs.map (fun v => match v with
        | .fin n _ _ => match formatKind fmt with
          | some (.mxFloat f) => { bits := f.encodeExact n 0 0, nonFinite := false, saturated := false }
          | _ => { bits := 0, nonFinite := false, saturated := false }
        | _ => { bits := 0, nonFinite := false, saturated := false }))
    else
      let x := max (-127) (min 127 (floorLog2 amax - mxEmax fmt))
      ((x + 127).toNat, (vs.zipIdx).map (fun p =>
        match p.1 with
        | .fin n m e =>
          match formatKind fmt with
          | some (.mxFloat f) =>
            let r := f.convert (c.rounding (e0 + p.2)) true (.fin n m (e - x))
            r
          | _ =>
            let k := roundAt m (e - x) (-6) (c.rounding (e0 + p.2))
            let k' := min k 127
            { bits := ofSigned 8 (if n then -(k' : Int) else k'), nonFinite := false, saturated := decide (127 < k) }
        | _ => { bits := 0, nonFinite := false, saturated := false }))

/-- One element converted to a format that is not MX; INT32 and INT8 take an exact integer modulo their width. FP32
has no rounding step (R352). -/
def convertElem (fmt : Nat) (c : Conv) (e : Nat) (v : Val) : Converted :=
  match formatKind fmt with
  | some (.float f) =>
    if fmt = 0 then f.convert .rne false v else f.convert (c.rounding e) c.sat v
  | _ =>
    match v with
    | .fin n m _ =>
      { bits := ofSigned (formatBits fmt) (if n then -(m : Int) else m), nonFinite := false, saturated := false }
    | _ => { bits := 0, nonFinite := true, saturated := false }

end Sys2Proof.Machine
end

