-- ==== Sys2Proof/Machine/Elementary.lean ====
section
/-! DEFINITION. The operations that R128 bounds in units in the last place (RCP, RSQRT, EXP, EXP2, LOG, LOG2, TANH,
SIGMOID, ERF): an enclosure of the exact value, and the choice of one result within the bound (04 R128, R129; log 9).
Fixed-point numbers count units of 2^-192. -/

namespace Sys2Proof.Machine

/-! ### One result within a bound -/

/-- Two magnitudes m × 2^e, from the first of which to below the second an exact value lies (both are zero where it is
zero), and its sign. -/
structure Enclosure where
  neg : Bool
  mLo : Nat
  eLo : Int
  mHi : Nat
  eHi : Int
deriving DecidableEq, Repr

/-- Largest pattern of a format, as a number without sign, whose value is at most m × 2^e; infinity above the largest
finite value. -/
def FloatFmt.patternDown (f : FloatFmt) (m : Nat) (e : Int) : Nat :=
  if m = 0 then 0
  else
    let q := f.quantum m e
    let n := if q ≤ e then scaleUp m e q else m / 2 ^ (q - e).toNat
    if f.emax - f.fb < q ∨ (q = f.emax - f.fb ∧ f.maxMant < n) then f.infBits false else f.encodeExact false n q

/-- Smallest pattern whose value is at least m × 2^e. -/
def FloatFmt.patternUp (f : FloatFmt) (m : Nat) (e : Int) : Nat :=
  if m = 0 then 0
  else
    let q := f.quantum m e
    let n := if q ≤ e then scaleUp m e q else (m + 2 ^ (q - e).toNat - 1) / 2 ^ (q - e).toNat
    if f.emax - f.fb < q ∨ (q = f.emax - f.fb ∧ f.maxMant < n) then f.infBits false else f.encodeExact false n q

/-- m × 2^e increased by k × 2^q. -/
def magAdd (m : Nat) (e : Int) (k : Nat) (q : Int) : Nat × Int :=
  (scaleUp m e (min e q) + scaleUp k q (min e q), min e q)
/-- m × 2^e decreased by k × 2^q, not below zero. -/
def magSub (m : Nat) (e : Int) (k : Nat) (q : Int) : Nat × Int :=
  (scaleUp m e (min e q) - scaleUp k q (min e q), min e q)

/-- Patterns, without sign, of the least and the greatest value within k units in the last place of an enclosed one. -/
def FloatFmt.withinRange (f : FloatFmt) (k : Nat) (x : Enclosure) : Nat × Nat :=
  let q := if x.mHi = 0 then f.qmin else f.quantum (2 * x.mHi - 1) (x.eHi - 1)
  let lo := magSub x.mLo x.eLo k q
  let hi := magAdd x.mHi x.eHi k q
  (f.patternUp lo.1 lo.2, f.patternDown hi.1 hi.2)

/-- One of the values of a format within k units in the last place of an enclosed exact value, of its sign: which one
is the free choice (log 9). -/
def FloatFmt.within (f : FloatFmt) (k choice : Nat) (x : Enclosure) : Val :=
  let r := f.withinRange k x
  f.decode (flag x.neg * 2 ^ (f.eb + f.fb) + r.1 + choice % (r.2 + 1 - r.1))

/-! ### Enclosures of the exact values -/

def fixBits : Nat := 192
def fixOne : Nat := 2 ^ fixBits
/-- ln 2, rounded down. -/
def ln2Fix : Nat := 4350955369971217654477563090224794165364344896676135745069
/-- 2 / √π, rounded down. -/
def erfFix : Nat := 7082950827949419406546779429796514218173736946937360083502
/-- Units by which a fixed-point result below may be off. -/
def fixSlack : Nat := 2 ^ 16

/-- n fixed-point units as an enclosure, times 2^shift. -/
def enclose (neg : Bool) (n slack : Nat) (shift : Int) : Enclosure :=
  { neg := neg, mLo := n - slack, eLo := shift - fixBits, mHi := n + slack, eHi := shift - fixBits }

/-- A finite value in fixed-point units, rounded towards zero. -/
def toFix (neg : Bool) (m : Nat) (e : Int) : Int :=
  let v : Nat := if -(fixBits : Int) ≤ e then scaleUp m e (-(fixBits : Int)) else m / 2 ^ (-(fixBits : Int) - e).toNat
  if neg then -(v : Int) else v

/-- Σ r^i / i!, for r below one. -/
def expSeries (r : Nat) : Nat :=
  ((List.range 48).foldl (fun (p : Nat × Nat) i => (p.1 + p.2, p.2 * r / fixOne / (i + 1))) (0, fixOne)).1
/-- Σ t^(2i+1) / (2i+1), for t up to 1/5. -/
def atanhSeries (t : Nat) : Nat :=
  ((List.range 48).foldl (fun (p : Nat × Nat) i => (p.1 + p.2 / (2 * i + 1), p.2 * t / fixOne * t / fixOne)) (0, t)).1
/-- Σ (−1)^i z^i / (i! (2i+1)), for z up to 36. -/
def erfSeries (z : Nat) : Int :=
  ((List.range 220).foldl (fun (p : Int × Nat) i =>
    (if i % 2 = 0 then p.1 + (p.2 / (2 * i + 1) : Nat) else p.1 - (p.2 / (2 * i + 1) : Nat), p.2 * z / fixOne / (i + 1)))
    ((0 : Int), fixOne)).1

/-- e^x as a mantissa in fixed-point units from one to two, and a power of two; x in fixed-point units. -/
def expParts (x : Int) : Nat × Int :=
  let n := x / ln2Fix
  (expSeries (x - n * ln2Fix).toNat, n)
/-- Too large a magnitude for e^x or 2^x to be a finite nonzero value of any format. -/
def farOut (m : Nat) (e : Int) : Bool := decide (m ≠ 0) && decide (12 ≤ (Nat.log2 m : Int) + e)
/-- The enclosure of e^x or 2^x for such an x. -/
def farExp (neg : Bool) : Enclosure :=
  if neg then { neg := false, mLo := 0, eLo := 0, mHi := 1, eHi := -4096 }
  else { neg := false, mLo := 1, eLo := 4096, mHi := 1, eHi := 4096 }
/-- Just below one. -/
def nearOne (neg : Bool) (n : Nat) : Enclosure := { neg := neg, mLo := 2 ^ n - 1, eLo := -(n : Int), mHi := 1, eHi := 0 }
/-- An enclosure in fixed-point units of a value below one. -/
def belowOne (x : Enclosure) : Enclosure := { x with mHi := min x.mHi fixOne }
/-- Zero of a sign. -/
def encloseZero (neg : Bool) : Enclosure := { neg := neg, mLo := 0, eLo := 0, mHi := 0, eHi := 0 }

def encloseExp (neg : Bool) (m : Nat) (e : Int) : Enclosure :=
  if farOut m e then farExp neg
  else
    let p := expParts (toFix neg m e)
    enclose false p.1 fixSlack p.2

def encloseExp2 (neg : Bool) (m : Nat) (e : Int) : Enclosure :=
  if farOut m e then farExp neg
  else
    let x := toFix neg m e
    let n := x / fixOne
    enclose false (expSeries ((x - n * fixOne).toNat * ln2Fix / fixOne)) fixSlack n

/-- For m × 2^e above zero: the power of two k, and ln (m × 2^e / 2^k) in fixed-point units, from ln 0.75 to ln 1.5. -/
def logParts (m : Nat) (e : Int) : Int × Int :=
  let l := Nat.log2 m
  let half := decide (3 * 2 ^ l < 2 * m)
  let one := if half then 2 ^ (l + 1) else 2 ^ l
  let t := (if m < one then one - m else m - one) * fixOne / (m + one)
  let a : Nat := 2 * atanhSeries t
  ((l : Int) + e + (if half then 1 else 0), if m < one then -(a : Int) else a)

def encloseLog (m : Nat) (e : Int) : Enclosure :=
  let p := logParts m e
  let v := p.1 * ln2Fix + p.2
  enclose (decide (v < 0)) v.natAbs fixSlack 0

def encloseLog2 (m : Nat) (e : Int) : Enclosure :=
  let p := logParts m e
  let v := p.1 * fixOne + p.2 * fixOne / ln2Fix
  enclose (decide (v < 0)) v.natAbs fixSlack 0

/-- e^-a in fixed-point units, for a not far out. -/
def expMinus (m : Nat) (e : Int) : Nat :=
  let p := expParts (toFix true m e)
  p.1 / 2 ^ (-p.2).toNat

/-- tanh: from a − a³ to a for a below 2^-20, else (1 − e^-2a) / (1 + e^-2a). -/
def encloseTanh (neg : Bool) (m : Nat) (e : Int) : Enclosure :=
  if m = 0 then encloseZero neg
  else if (Nat.log2 m : Int) + e < -20 then
    let lo := magSub m e (m * m * m) (3 * e)
    { neg := neg, mLo := lo.1, eLo := lo.2, mHi := m, eHi := e }
  else if farOut m (e + 1) then nearOne neg 100
  else
    let u := expMinus m (e + 1)
    belowOne (enclose neg ((fixOne - u) * fixOne / (fixOne + u)) (8 * fixSlack) 0)

/-- sigmoid: 1 / (1 + e^-a) at a or above zero, e^-a / (1 + e^-a) of the magnitude below. -/
def encloseSigmoid (neg : Bool) (m : Nat) (e : Int) : Enclosure :=
  if farOut m e then (if neg then farExp true else nearOne false 100)
  else
    let u := expMinus m e
    if neg then
      let p := expParts (toFix true m e)
      enclose false (p.1 * fixOne / (fixOne + u)) (8 * fixSlack) p.2
    else belowOne (enclose false (fixOne * fixOne / (fixOne + u)) (8 * fixSlack) 0)

/-- erf: a × 2/√π × Σ for a below 6, else within 2^-50 of one. -/
def encloseErf (neg : Bool) (m : Nat) (e : Int) : Enclosure :=
  if m = 0 then encloseZero neg
  else if farOut m e || decide ((6 * fixOne : Nat) ≤ toFix false m e) then nearOne neg 50
  else
    let a := (toFix false m e).toNat
    let s := (erfSeries (a * a / fixOne)).toNat * erfFix / fixOne
    { neg := neg, mLo := m * (s - 2 ^ 80), eLo := e - fixBits, mHi := m * (s + 2 ^ 80), eHi := e - fixBits }

/-- A finite quotient or root that Val.div and Val.sqrt give to 96 bits. -/
def encloseVal : Val → Enclosure
  | .fin n m e => { neg := n, mLo := m - 16, eLo := e, mHi := m + 16, eHi := e }
  | _ => encloseZero false

/-! ### The operations -/

/-- Bound of an operation in a working format, in units in the last place (R128). -/
def ulpBound (op fmtCode : Nat) : Nat := if decide (0x34 ≤ op) && fmtCode == 0 then 2 else 1

/-- The operations whose result R128 bounds: the special values of R129, those of IEEE 754-2019 where R129 gives none
(log 27), and else a result within the bound, a function of the operand alone (R129, log 9). -/
def approximate (f : FloatFmt) (op fmtCode : Nat) (a : Val) : Val :=
  let pick (x : Enclosure) : Val :=
    f.within (ulpBound op fmtCode) (Config.vectorChoice op fmtCode (f.convert .rne false a).bits) x
  let one : Val := .fin false 1 0
  match op, a with
  | _, .nan => .nan
  | 0x20, .inf n => .fin n 0 0
  | 0x20, .fin n m e => if m = 0 then .inf n else pick (encloseVal (one.div (.fin n m e)))
  | 0x23, .inf n => if n then .nan else .fin false 0 0
  | 0x23, .fin n m e => if m = 0 then .inf n else if n then .nan else pick (encloseVal (one.div (Val.sqrt (.fin n m e))))
  | 0x30, .inf n => if n then .fin false 0 0 else .inf false
  | 0x30, .fin n m e => pick (encloseExp n m e)
  | 0x31, .inf n => if n then .fin false 0 0 else .inf false
  | 0x31, .fin n m e => pick (encloseExp2 n m e)
  | 0x32, .inf n => if n then .nan else .inf false
  | 0x32, .fin n m e => if m = 0 then .inf true else if n then .nan else pick (encloseLog m e)
  | 0x33, .inf n => if n then .nan else .inf false
  | 0x33, .fin n m e => if m = 0 then .inf true else if n then .nan else pick (encloseLog2 m e)
  | 0x34, .inf n => .fin n 1 0
  | 0x34, .fin n m e => pick (encloseTanh n m e)
  | 0x35, .inf n => if n then .fin false 0 0 else .fin false 1 0
  | 0x35, .fin n m e => pick (encloseSigmoid n m e)
  | 0x36, .inf n => .fin n 1 0
  | 0x36, .fin n m e => pick (encloseErf n m e)
  | _, _ => .nan

end Sys2Proof.Machine
end

