-- ==== Sys2Proof/Machine/Grid.lean ====
section
/-! DEFINITION. The grid of islands: rows, columns, clusters, gateways, neighbours, dimension order, and what the control
mesh lets through (01 R9, 08 R243, R244, R249, R253, R254). -/

namespace Sys2Proof.Machine

/-! ### The grid (R9, R243, R244) -/

/-- Row and column of an island. -/
def gridRow (n : Nat) : Nat := n / 16
def gridCol (n : Nat) : Nat := n % 16
/-- Cluster of an island (R9). -/
def clusterOf (n : Nat) : Nat := 4 * (gridRow n / 4) + gridCol n / 4
/-- A gateway island: cluster-local row and column 1 or 2 (R244). -/
def isGateway (n : Nat) : Bool := (n / 16 % 4 == 1 || n / 16 % 4 == 2) && (n % 4 == 1 || n % 4 == 2)
/-- The gateway that serves an island: cluster-local row 1 + (a div 2), column 1 + (b div 2) (R244). -/
def gatewayOf (n : Nat) : Nat :=
  16 * (gridRow n / 4 * 4 + 1 + gridRow n % 4 / 2) + (gridCol n / 4 * 4 + 1 + gridCol n % 4 / 2)
/-- Direction of the next hop under dimension order: 0 N, 1 E, 2 S, 3 W; none at the destination (R249). -/
def nextDir (island dst : Nat) : Option Nat :=
  if gridCol island < gridCol dst then some 1
  else if gridCol dst < gridCol island then some 3
  else if gridRow dst < gridRow island then some 0
  else if gridRow island < gridRow dst then some 2
  else none

/-- The neighbour in a direction, none at the grid edge (R243). -/
def neighbour (n dir : Nat) : Option Nat :=
  match dir with
  | 0 => if gridRow n = 0 then none else some (n - 16)
  | 1 => if gridCol n = 15 then none else some (n + 1)
  | 2 => if gridRow n = 15 then none else some (n + 16)
  | _ => if gridCol n = 0 then none else some (n - 1)

/-- Links of the control mesh that a message crosses between an island and its gateway, as router and direction: at most
two hops, along the row first (R244, R254; the order is that of the bulk mesh: DESIGN CHOICE, log 64). -/
def controlPath (n : Nat) : List (Nat × Nat) :=
  let g := gatewayOf n
  match nextDir g n with
  | none => []
  | some d =>
    let m := (neighbour g d).getD n
    match nextDir m n with
    | none => [(g, d)]
    | some e => [(g, d), (m, e)]
/-- A control link is held: its traffic moves, or neither of the two links between the routers works (R253). -/
def State.controlStopped (s : State) (n dir : Nat) : Bool :=
  let r := s.router n
  r.moving.contains (dir + 4) || (r.bulkFail.getLsbD dir && r.ctrlFail.getLsbD dir)
/-- Messages between the front end and an island are held on their way (R253, R254). -/
def State.controlHeld (s : State) (n : Nat) : Bool := (controlPath n).any (fun x => s.controlStopped x.1 x.2)

end Sys2Proof.Machine
end

