-- ==== Sys2Proof/Machine/Codes.lean ====
section
/-! DEFINITION. The check codes that several units share: CRC-32 of 09 R281 and SHA-384 (09 R309, 16 R519). -/

namespace Sys2Proof.Machine

/-! ### CRC-32 (R281): reflected polynomial, initial value all ones, complemented result -/

def crcBit (c : Word32) : Word32 := if c.getLsbD 0 then (c >>> 1) ^^^ 0xEDB88320#32 else c >>> 1
def crcByte (c : Word32) (b : Byte) : Word32 := (List.range 8).foldl (fun x _ => crcBit x) (c ^^^ b.setWidth 32)
def crc32 (bs : List Byte) : Word32 := ~~~ (bs.foldl crcByte 0xFFFFFFFF#32)

/-! ### SHA-384 -/

/-- Round constants: the first 64 fraction bits of the cube roots of the first 80 primes. -/
def shaK : List Word64 :=
  [0x428A2F98D728AE22#64, 0x7137449123EF65CD#64, 0xB5C0FBCFEC4D3B2F#64, 0xE9B5DBA58189DBBC#64,
   0x3956C25BF348B538#64, 0x59F111F1B605D019#64, 0x923F82A4AF194F9B#64, 0xAB1C5ED5DA6D8118#64,
   0xD807AA98A3030242#64, 0x12835B0145706FBE#64, 0x243185BE4EE4B28C#64, 0x550C7DC3D5FFB4E2#64,
   0x72BE5D74F27B896F#64, 0x80DEB1FE3B1696B1#64, 0x9BDC06A725C71235#64, 0xC19BF174CF692694#64,
   0xE49B69C19EF14AD2#64, 0xEFBE4786384F25E3#64, 0x0FC19DC68B8CD5B5#64, 0x240CA1CC77AC9C65#64]
  ++ [0x2DE92C6F592B0275#64, 0x4A7484AA6EA6E483#64, 0x5CB0A9DCBD41FBD4#64, 0x76F988DA831153B5#64,
   0x983E5152EE66DFAB#64, 0xA831C66D2DB43210#64, 0xB00327C898FB213F#64, 0xBF597FC7BEEF0EE4#64,
   0xC6E00BF33DA88FC2#64, 0xD5A79147930AA725#64, 0x06CA6351E003826F#64, 0x142929670A0E6E70#64,
   0x27B70A8546D22FFC#64, 0x2E1B21385C26C926#64, 0x4D2C6DFC5AC42AED#64, 0x53380D139D95B3DF#64,
   0x650A73548BAF63DE#64, 0x766A0ABB3C77B2A8#64, 0x81C2C92E47EDAEE6#64, 0x92722C851482353B#64]
  ++ [0xA2BFE8A14CF10364#64, 0xA81A664BBC423001#64, 0xC24B8B70D0F89791#64, 0xC76C51A30654BE30#64,
   0xD192E819D6EF5218#64, 0xD69906245565A910#64, 0xF40E35855771202A#64, 0x106AA07032BBD1B8#64,
   0x19A4C116B8D2D0C8#64, 0x1E376C085141AB53#64, 0x2748774CDF8EEB99#64, 0x34B0BCB5E19B48A8#64,
   0x391C0CB3C5C95A63#64, 0x4ED8AA4AE3418ACB#64, 0x5B9CCA4F7763E373#64, 0x682E6FF3D6B2B8A3#64,
   0x748F82EE5DEFB2FC#64, 0x78A5636F43172F60#64, 0x84C87814A1F0AB72#64, 0x8CC702081A6439EC#64]
  ++ [0x90BEFFFA23631E28#64, 0xA4506CEBDE82BDE9#64, 0xBEF9A3F7B2C67915#64, 0xC67178F2E372532B#64,
   0xCA273ECEEA26619C#64, 0xD186B8C721C0C207#64, 0xEADA7DD6CDE0EB1E#64, 0xF57D4F7FEE6ED178#64,
   0x06F067AA72176FBA#64, 0x0A637DC5A2C898A6#64, 0x113F9804BEF90DAE#64, 0x1B710B35131C471B#64,
   0x28DB77F523047D84#64, 0x32CAAB7B40C72493#64, 0x3C9EBE0A15C9BEBC#64, 0x431D67C49C100D4C#64,
   0x4CC5D4BECB3E42B6#64, 0x597F299CFC657E2A#64, 0x5FCB6FAB3AD6FAEC#64, 0x6C44198C4A475817#64]

/-- Starting value: the first 64 fraction bits of the square roots of the ninth to sixteenth primes. -/
def shaStart : List Word64 :=
  [0xCBBB9D5DC1059ED8#64, 0x629A292A367CD507#64, 0x9159015A3070DD17#64, 0x152FECD8F70E5939#64,
   0x67332667FFC00B31#64, 0x8EB44A8768581511#64, 0xDB0C2E0D64F98FA7#64, 0x47B5481DBEFA4FA4#64]

def rotr (x : Word64) (n : Nat) : Word64 := (x >>> n) ||| (x <<< (64 - n))

/-- Big-endian bytes of a 64-bit word, and back. -/
def beBytes (w : Word64) : List Byte := (natLe 8 w.toNat).reverse
def beWord (bs : List Byte) : Word64 := BitVec.ofNat 64 (leNat bs.reverse)

/-- Message schedule: 64 further words, the window being the last sixteen. -/
def shaSchedule : Nat → List Word64 → List Word64
  | 0, _ => []
  | n + 1, w =>
    let x := w.getD 14 0
    let y := w.getD 1 0
    let s1 := rotr x 19 ^^^ rotr x 61 ^^^ (x >>> 6)
    let s0 := rotr y 1 ^^^ rotr y 8 ^^^ (y >>> 7)
    let v := s1 + w.getD 9 0 + s0 + w.getD 0 0
    v :: shaSchedule n (w.drop 1 ++ [v])

/-- One round on the eight working words. -/
def shaRound (h : List Word64) (kw : Word64) : List Word64 :=
  match h with
  | [a, b, c, d, e, f, g, x] =>
    let t1 := x + (rotr e 14 ^^^ rotr e 18 ^^^ rotr e 41) + ((e &&& f) ^^^ (~~~ e &&& g)) + kw
    let t2 := (rotr a 28 ^^^ rotr a 34 ^^^ rotr a 39) + ((a &&& b) ^^^ (a &&& c) ^^^ (b &&& c))
    [t1 + t2, a, b, c, d + t1, e, f, g]
  | l => l

/-- One 128-byte block. -/
def shaBlock (h : List Word64) (block : List Byte) : List Word64 :=
  let w := (chunksOf 8 17 block).map beWord
  let all := w ++ shaSchedule 64 w
  let out := (all.zip shaK).foldl (fun x p => shaRound x (p.1 + p.2)) h
  (h.zip out).map (fun p => p.1 + p.2)

/-- Padding to whole blocks: a one bit, zeros, the length in bits as 128 bits. -/
def shaPad (bs : List Byte) : List Byte :=
  let n := bs.length
  let z := (239 - n % 128) % 128
  bs ++ [0x80#8] ++ List.replicate z 0 ++ (natLe 16 (8 * n)).reverse

/-- SHA-384 of a byte string: 48 bytes. -/
def sha384 (bs : List Byte) : List Byte :=
  let p := shaPad bs
  (((chunksOf 128 (p.length / 128 + 1) p).foldl shaBlock shaStart).take 6).flatMap beBytes

/-! ### HKDF-SHA-384 (R519; RFC 5869) -/

/-- HMAC over blocks of 128 bytes. -/
def hmac384 (key msg : List Byte) : List Byte :=
  let k := if 128 < key.length then sha384 key else key
  let pad (b : Byte) : List Byte := (k ++ List.replicate (128 - k.length) 0).map (· ^^^ b)
  sha384 (pad 0x5C ++ sha384 (pad 0x36 ++ msg))

/-- Expand step n of RFC 5869: T(1) to T(n) joined. -/
def hkdfBlocks (prk info : List Byte) : Nat → List Byte × List Byte
  | 0 => ([], [])
  | n + 1 =>
    let r := hkdfBlocks prk info n
    let t := hmac384 prk (r.2 ++ info ++ [BitVec.ofNat 8 (n + 1)])
    (r.1 ++ t, t)

/-- n bytes of key from input key material, without a salt. -/
def hkdf384 (ikm info : List Byte) (n : Nat) : List Byte :=
  (hkdfBlocks (hmac384 (List.replicate 48 0) ikm) info ((n + 47) / 48)).1.take n

/-! ### The flit CRC of the bulk mesh (R245): CRC-8, x^8 + x^2 + x + 1, initial value zero -/

/-- One bit shifted in. -/
def crc8Bit (c : BitVec 8) (b : Bool) : BitVec 8 :=
  let x := c <<< 1
  if c.getLsbD 7 != b then x ^^^ 0x07 else x
/-- The code of 256 data bits, taken from bit 255 down (DESIGN CHOICE, log 60: R245 gives no order). -/
def flitCrc (data : BitVec 256) : BitVec 8 := (List.range 256).foldl (fun c i => crc8Bit c (data.getLsbD (255 - i))) 0

/-! ### The forward error correction of a link (R276): RS(544,514) over symbols of 10 bits

PRESUMED (log 62): R276 names IEEE 802.3 clause 91 for the code; its field is that of x^10 + x^3 + 1, with a root of it as α,
and its generator has the roots α^0 to α^29. -/

/-- Product in the field. -/
def symMul (a b : Nat) : Nat :=
  ((List.range 10).foldl (fun (s : Nat × Nat) i =>
    (if bitAt b i then Nat.xor s.1 s.2 else s.1,
     let x := 2 * s.2
     if bitAt x 10 then Nat.xor (x % 1024) 0x9 else x)) (0, a)).1

/-- A polynomial, lowest coefficient first, times (x + r). -/
def timesRoot (p : List Nat) (r : Nat) : List Nat :=
  ((0 :: p).zip (p.map (symMul r) ++ [0])).map (fun x => Nat.xor x.1 x.2)
/-- α^i. -/
def symPow : Nat → Nat
  | 0 => 1
  | i + 1 => symMul 2 (symPow i)
/-- The generator polynomial without its leading 1, highest coefficient first. -/
def rsGenerator : List Nat := (((List.range 30).foldl (fun p i => timesRoot p (symPow i)) [1]).take 30).reverse

/-- The 30 parity symbols of a message of 514 symbols, the first sent first. -/
def rsParity (msg : List Nat) : List Nat :=
  msg.foldl (fun (reg : List Nat) m =>
    let f := Nat.xor m (reg.headD 0)
    (((reg.drop 1 ++ [0]).zip rsGenerator) : List (Nat × Nat)).map (fun (x : Nat × Nat) => Nat.xor x.1 (symMul f x.2))) (List.replicate 30 0)
/-- A codeword: message and parity. -/
def rsEncode (msg : List Nat) : List Nat := msg ++ rsParity msg

/-- Blocks of a frame: 257 bits each, the flag bit 0 set in the first block of a frame alone, then 32 bytes (R276). -/
def frameBlocks (bytes : List Byte) : List Nat :=
  ((chunksOf 32 (bytes.length / 32 + 1) bytes).zipIdx).map (fun b => flag (b.2 = 0) + 2 * leNat b.1)
/-- Twenty blocks as the 514 symbols of a message. -/
def rsMessage (blocks : List Nat) : List Nat :=
  let n := (blocks.reverse).foldl (fun acc b => acc * 2 ^ 257 + b) 0
  (List.range 514).map (fun i => n / 2 ^ (10 * i) % 1024)
/-- The codewords of a stream of blocks. -/
def rsStream (blocks : List Nat) : List (List Nat) := (chunksOf 20 (blocks.length / 20 + 1) blocks).map (fun b => rsEncode (rsMessage b))

/-- A codeword with the symbols at these places wrong can be corrected: at most 15 of them (R276). -/
def rsCorrects (wrong : List Nat) : Bool := decide (wrong.eraseDups.length ≤ 15)
/-- Lane of symbol i of a codeword, dealt round-robin over the active lanes (R276). -/
def symbolLane (lanes : List Nat) (i : Nat) : Nat := lanes.getD (i % lanes.length) 0

end Sys2Proof.Machine
end

