-- ==== Sys2Proof/Machine/Operands.lean ====
section
/-! DEFINITION. The clause's fields (02 R49 to R51), noun entries (R57, R58), translation (05 R154 to R158), and the
reading and writing of tensors in layouts 0 and 1 (R572, 03 R97, R98). -/

namespace Sys2Proof.Machine

/-! ### The clause (R49) -/

/-- Bits hi to lo of the clause, counted from byte `off`. -/
def clauseBits (c : BitVec 512) (off hi lo : Nat) : Nat := bits c.toNat (8 * off + hi) (8 * off + lo)

def clVerb (c : BitVec 512) : Nat := clauseBits c 0 7 0
def clSentEnd (c : BitVec 512) : Bool := bitAt c.toNat 8
def clUnordBit (c : BitVec 512) : Bool := bitAt c.toNat 9
def clQuiet (c : BitVec 512) : Bool := bitAt c.toNat 10
def clIrq (c : BitVec 512) : Bool := bitAt c.toNat 11
def clRotatable (c : BitVec 512) : Bool := bitAt c.toNat 12
def clTag (c : BitVec 512) : Nat := clauseBits c 2 15 0
def clPowerHint (c : BitVec 512) : Nat := clauseBits c 4 7 0
def clDurHint (c : BitVec 512) : Nat := clauseBits c 5 7 0

/-- An operand word (R50). -/
structure OperandWord where
  noun : Nat
  acc  : Nat
  gen  : Nat
  raw  : Nat
deriving DecidableEq, Repr

def clOperand (c : BitVec 512) (i : Nat) : OperandWord :=
  let w := clauseBits c (8 + 4 * i) 31 0
  { noun := bits w 19 0, acc := bits w 21 20, gen := bits w 31 24, raw := w }

/-- MOD as a number (R351). -/
def clMod (c : BitVec 512) : Nat := clauseBits c 0x18 127 0
/-- Bits of MOD. -/
def clModBits (c : BitVec 512) (hi lo : Nat) : Nat := bits (clMod c) hi lo
def clModBit (c : BitVec 512) (i : Nat) : Bool := bitAt (clMod c) i

/-- Wait i (R51): enabled, counter, value. -/
def clWait (c : BitVec 512) (i : Nat) : Bool × Nat × Nat :=
  let w := clauseBits c (0x28 + 8 * i) 63 0
  (bitAt w 63, bits w 15 0, bits w 62 16)
/-- Signal i (R51): enabled, counter, addend. -/
def clSignal (c : BitVec 512) (i : Nat) : Bool × Nat × Nat :=
  let w := clauseBits c (0x38 + 4 * i) 31 0
  (bitAt w 31, bits w 15 0, bits w 30 16)

/-- The conversion group (R352). -/
def clConv (c : BitVec 512) : Conv :=
  { seed := BitVec.ofNat 32 (clModBits c 31 0), sr := clModBit c 32, sat := clModBit c 33 }
def clNfWatch (c : BitVec 512) : Bool := clModBit c 34
def clAccum (c : BitVec 512) : Bool := clModBit c 35

/-- Verbs of R348. -/
def verbMatrix : Nat := 0x01
def verbChain : Nat := 0x02
def verbNearBank : Nat := 0x03
def verbAttnFwd : Nat := 0x10
def verbAttnBwd : Nat := 0x11
def verbDecode : Nat := 0x12
def verbKvAppend : Nat := 0x18
def verbKvEvict : Nat := 0x19
def verbCopy : Nat := 0x20
def verbReduce : Nat := 0x30
def verbAllReduce : Nat := 0x31
def verbReduceScatter : Nat := 0x32
def verbAllGather : Nat := 0x33
def verbBroadcast : Nat := 0x34
def verbUpdate : Nat := 0x40
def verbDigest : Nat := 0x41
def verbScrub : Nat := 0x50
def verbConfigure : Nat := 0x60
def verbLoadKernel : Nat := 0x61
def verbFence : Nat := 0x70

def knownVerbs : List Nat :=
  [verbMatrix, verbChain, verbNearBank, verbAttnFwd, verbAttnBwd, verbDecode, verbKvAppend, verbKvEvict, verbCopy,
   verbReduce, verbAllReduce, verbReduceScatter, verbAllGather, verbBroadcast, verbUpdate, verbDigest, verbScrub,
   verbConfigure, verbLoadKernel, verbFence]

/-- UNORD as it acts: fence, configure-field and load-kernel treat it as 0 (R350). -/
def clUnord (c : BitVec 512) : Bool :=
  clUnordBit c && clVerb c ≠ verbFence && clVerb c ≠ verbConfigure && clVerb c ≠ verbLoadKernel

/-! ### Translation (05 R154 to R157) -/

/-- Where a byte of the device virtual space lies. -/
inductive Target where
  | dram (dpa : Nat)
  | host (addr : Nat)
deriving DecidableEq, Repr

/-- The column of member j of cluster c (R156). -/
def clusterColumn (c j : Nat) : Nat := 16 * (4 * (c / 4) + j / 4) + 4 * (c % 4) + j % 4

/-- The translation region: base DPA and bytes (R154, R550). -/
def State.ptBase (s : State) : Nat := s.applied.ptBase.toNat * 2 ^ 21
def State.ptBytes (s : State) : Nat := s.applied.ptSize.toNat * 2 ^ 21

def State.dpaWord (s : State) (a : Nat) : Nat := leNat (s.dpaRead a 8)

/-- The page entry of a DVA, where the level-1 entry allows one (R154). R157 speaks of the reserved bits of a page entry:
DESIGN CHOICE (log 66), those of a level-1 entry are not looked at. -/
def State.pageEntry (s : State) (dva : Nat) : Option Nat :=
  if s.ptBytes = 0 then none
  else
    let l1 := s.dpaWord (s.ptBase + 8 * bits dva 47 30)
    let l2 := bits l1 37 12 * 2 ^ 12
    if !bitAt l1 0 then none
    else if l2 < s.ptBase + 2 ^ 21 ∨ s.ptBase + s.ptBytes < l2 + 4096 then none
    else some (s.dpaWord (l2 + 8 * bits dva 29 21))

/-- A vault that is retired (R176, R177). -/
def State.vaultRetired (s : State) (n : Nat) : Bool := (s.vault n).mode == 3
/-- A vault that is evacuating (R176). -/
def State.vaultEvacuating (s : State) (n : Nat) : Bool := (s.vault n).mode == 2

/-- A page entry counts as mapped for a noun of that PLACE (R157), and where x = DVA[20:0] then lies (R156). -/
def State.resolve (s : State) (place entry x : Nat) : Option Target :=
  let mode := bits entry 3 1
  let unit := bits entry 15 8
  let frame := bits entry 51 21
  let voff := bits entry 37 21
  if !bitAt entry 0 || bits entry 7 4 ≠ 0 || bits entry 20 16 ≠ 0 || bits entry 63 52 ≠ 0 || mode ≠ place then none
  else if mode = 4 then (if unit ≠ 0 then none else some (.host (frame * 2 ^ 21 + x)))
  else if bits entry 51 38 ≠ 0 then none
  else if mode = 0 ∨ mode = 3 then
    if voff % 256 ≠ 0 ∨ Config.vaultBytes < voff * 8192 + 2 ^ 21 ∨ s.vaultRetired unit then none
    else
      let dpa := unit * Config.vaultBytes + voff * 8192 + x
      some (.dram (if mode = 3 then alignedToStandard dpa else dpa))
  else if mode = 1 then
    if 15 < unit ∨ voff % 16 ≠ 0 ∨ Config.vaultBytes < (voff + 16) * 8192
        ∨ (List.range 16).any (fun j => s.vaultRetired (clusterColumn unit j)) then none
    else some (.dram (clusterColumn unit (bits x 16 13) * Config.vaultBytes + (voff + bits x 20 17) * 8192 + bits x 12 0))
  else if mode = 2 then
    if unit ≠ 0 ∨ Config.vaultBytes < (voff + 1) * 8192 ∨ (List.range 256).any s.vaultRetired then none
    else some (.dram (bits x 20 13 * Config.vaultBytes + voff * 8192 + bits x 12 0))
  else none

/-- Where a DVA of a noun lies. -/
def State.translate (s : State) (place dva : Nat) : Option Target :=
  match s.pageEntry dva with
  | some e => s.resolve place e (bits dva 20 0)
  | none => none

/-- The first unmapped page of [dva, dva + n), counted from dva's page (R59, R389); `none` when all are mapped. -/
def State.firstUnmapped (s : State) (place dva n : Nat) : Option Nat :=
  if n = 0 then none
  else ((List.range ((dva + n - 1) / 2 ^ 21 - dva / 2 ^ 21 + 1)).find? (fun i =>
    match s.translate place ((dva / 2 ^ 21 + i) * 2 ^ 21) with
    | some _ => decide (2 ^ 48 ≤ (dva / 2 ^ 21 + i) * 2 ^ 21)
    | none => true))

/-! ### Bytes of the device virtual space -/

/-- [dva, dva + n) cut at 32-byte flits: start and length of each piece. -/
def flitPieces (dva n : Nat) : List (Nat × Nat) :=
  (flitsOf dva n).map (fun f =>
    let a := max dva (32 * f)
    (a, min (dva + n) (32 * f + 32) - a))

/-- A byte as read, with the poison of its flit. -/
structure PByte where
  byte   : Byte
  poison : Bool
deriving DecidableEq, Repr

/-- n bytes of a target; where nothing is mapped the spec states no value (log 7). -/
def State.readTarget (s : State) (t : Option Target) (n : Nat) : List PByte :=
  match t with
  | some (.dram a) =>
    let p := s.dpaPoison a n
    (s.dpaRead a n).map (fun b => { byte := b, poison := p })
  | some (.host a) =>
    let p := Poison.any s.host.poison a n
    (s.hostRead a n).map (fun b => { byte := b, poison := p })
  | none => List.replicate n { byte := BitVec.ofNat 8 (Config.freeValue (2 ^ 70)).toNat, poison := false }

def State.readDva (s : State) (place dva n : Nat) : List PByte :=
  (flitPieces dva n).flatMap (fun p => s.readTarget (s.translate place p.1) p.2)

/-- A flit, or a part of one, in the banks. -/
def State.bankFlit (s : State) (a : Nat) (bs : List Byte) (full poison : Bool) : State :=
  let d := s.dram.write a bs
  { s with dram := { d with poison :=
      if poison then Poison.set d.poison a bs.length true
      else if full && bs.length == 32 then Poison.set d.poison a 32 false
      else d.poison } }

/-- A flit, or a part of one, written: `full` clears the poison that it held, `poison` sets it (R461, R462). -/
def State.writeTarget (s : State) (t : Option Target) (bs : List Byte) (full poison : Bool) : State :=
  match t with
  | some (.dram a) => if (s.vault (a / Config.vaultBytes)).sideDead then s
    else (((s.bankFlit a bs full poison).perturbWrite a bs.length).updateLines a bs poison).closeEntries a bs.length
  | some (.host a) =>
    { s with host :=
        { cells := Cells.write s.host.cells a bs
          poison := if poison then Poison.set s.host.poison a bs.length true
            else if full && bs.length == 32 then Poison.set s.host.poison a 32 false
            else s.host.poison } }
  | none => s

/-- A byte to write: `none` keeps what is there. -/
abbrev WByte := Option PByte

/-- Bytes written from a DVA on, flit by flit. -/
def State.writePieces (s : State) (place : Nat) : List (Nat × Nat) → List WByte → State
  | [], _ => s
  | (a, n) :: r, ws =>
    let piece := ws.take n
    let t := s.translate place a
    let old := s.readTarget t n
    let s' :=
      if piece.all (fun w => w.isNone) then s
      else s.writeTarget t ((piece.zip old).map (fun p => match p.1 with
          | some b => b.byte
          | none => p.2.byte))
        (piece.all (fun w => w.isSome)) (piece.any (fun w => match w with
          | some b => b.poison
          | none => false))
    State.writePieces s' place r (ws.drop n)

def State.writeDva (s : State) (place dva : Nat) (ws : List WByte) : State :=
  s.writePieces place (flitPieces dva ws.length) ws

/-! ### Nouns (R57, R58, R158) -/

/-- A noun entry parsed from its 64 bytes. -/
def parseNoun (w : Nat) : Noun :=
  let lw (off hi lo : Nat) : Nat := bits w (8 * off + hi) (8 * off + lo)
  let format := lw 8 7 0
  let layout := lw 0 55 52
  let place := lw 0 51 48
  let arg := lw 8 31 16
  let scale := lw 0x30 47 0
  { dva := lw 0 47 0, place := place, layout := layout, gen := lw 0 63 56, format := format, rank := lw 8 10 8
    valid := bitAt (lw 8 63 0) 11, rdonly := bitAt (lw 8 63 0) 12, placeArg := arg, owner := lw 8 37 32
    dims := (List.range 6).map (fun i => lw (0x10 + 4 * i) 31 0)
    length := lw 0x28 63 0, scaleDva := scale
    malformed := decide (12 < format) || decide (4 < place) || decide (3 < layout) || lw 8 15 13 ≠ 0 || lw 8 63 38 ≠ 0
      || lw 0x30 63 48 ≠ 0 || lw 0 5 0 ≠ 0
      || (decide (scale ≠ 0) && !(isMx format && decide (layout ≤ 1)))
      || bits arg 7 1 ≠ 0 || (place ≠ 3 && bits arg 15 8 ≠ 0) }

/-- The DPA of noun entry i (R57). -/
def State.nounDpa (s : State) (i : Nat) : Nat := s.applied.ntbBase.toNat * 2 ^ 26 + 64 * i
/-- Noun entry i as memory holds it. -/
def State.storedNoun (s : State) (i : Nat) : Nat := leNat (s.dpaRead (s.nounDpa i) 64)
def State.readNoun (s : State) (i : Nat) : Noun := parseNoun (s.storedNoun i)
/-- Noun entry i as the front end reads it: from its cache, else from memory (R60). -/
def State.issueNoun (s : State) (i : Nat) : Noun :=
  parseNoun (match s.cmd.nouns.find? (fun e => e.1 == i) with
    | some e => e.2
    | none => s.storedNoun i)
/-- The read of noun entry i meets a poisoned flit: a cached entry was read clean (R60, R462). -/
def State.nounPoison (s : State) (i : Nat) : Bool :=
  !s.cmd.nouns.any (fun e => e.1 == i) && s.dpaPoison (s.nounDpa i) 64
/-- An entry used most recently, in a cache of `size` entries. Which entry makes way is the model's (log 52). -/
def touchEntry (size : Nat) (l : List (Nat × Nat)) (i v : Nat) : List (Nat × Nat) :=
  ((i, match l.find? (fun e => e.1 == i) with
    | some e => e.2
    | none => v) :: l.filter (fun e => decide (e.1 ≠ i))).take size
/-- The noun cache after a clause has read entry i: 8,192 entries (R60). -/
def State.cacheNoun (s : State) (i : Nat) : State :=
  if s.nounPoison i then s
  else { s with cmd := { s.cmd with nouns := touchEntry 8192 s.cmd.nouns i (s.storedNoun i) } }

def Noun.dim (n : Noun) (i : Nat) : Nat := n.dims.getD i 1
/-- Elements of a noun. -/
def Noun.count (n : Noun) : Nat := n.dims.foldl (· * ·) 1
/-- Product of DIM2 to DIM5. -/
def Noun.outer (n : Noun) : Nat := (n.dims.drop 2).foldl (· * ·) 1
/-! ### Bank-aligned placement (06 R185 to R189) -/

/-- The quantities of R185 to R187 for a bank-aligned weight noun. -/
structure MvPlan where
  slices : Nat     -- S
  k      : Nat
  n      : Nat
  ks     : Nat     -- K_s
  tk     : Nat     -- T_k
  heads  : Nat     -- H
  tiles  : Nat     -- R
  stride : Nat     -- L_b
  groups : Nat     -- G
  mx     : Bool
  four   : Bool
deriving DecidableEq, Repr

def roundUp64 (n : Nat) : Nat := 64 * ceilDiv n 64

/-- Head size h (R187). -/
def headBytes (mx : Bool) (ks : Nat) : Nat := roundUp64 ks + (if mx then 16 * ks / 32 else 0)

def mvPlan (w : Noun) : MvPlan :=
  let s := 2 ^ (bits w.placeArg 10 8)
  let tk := if w.format = 9 then 256 else 128
  let ks := w.dim 0 / s
  let mx := isMx w.format
  let h := ceilDiv (headBytes mx ks) 2048
  let r := ks / tk
  { slices := s, k := w.dim 0, n := w.dim 1, ks := ks, tk := tk, heads := h, tiles := r
    stride := 8 * ceilDiv (h + r + 1) 8, groups := w.dim 1 / 16, mx := mx, four := w.format == 9 }

def MvPlan.items (p : MvPlan) : Nat := p.groups * p.slices
def MvPlan.batches (p : MvPlan) : Nat := ceilDiv p.items 128
/-- Work items of batch β. -/
def MvPlan.slots (p : MvPlan) (b : Nat) : Nat := min 128 (p.items - 128 * b)
/-- Bytes that LENGTH must cover (R189). -/
def MvPlan.bytes (p : MvPlan) : Nat := p.batches * p.stride * 2 ^ 18
/-- DVA of level l of slot p of batch β (R186). -/
def MvPlan.levelDva (q : MvPlan) (w : Noun) (b p l : Nat) : Nat := w.dva + 2048 * (128 * (q.stride * b + l) + p)

/-- Storage positions of a noun (R572); for layout 2, every position of its levels (R186). -/
def Noun.positions (n : Noun) : Nat :=
  if n.layout = 1 then 4096 * ceilDiv (n.dim 0) 64 * ceilDiv (n.dim 1) 64 * n.outer
  else if n.layout = 2 then (mvPlan n).bytes * 8 / formatBits n.format
  else n.count
/-- Byte offset in a layout-2 noun of weight (k, j): level and byte of R186 and R188. -/
def MvPlan.weightByte (q : MvPlan) (k j : Nat) : Nat :=
  let w := q.slices * (j / 16) + k / q.ks
  let o := k % q.ks % q.tk
  2048 * (128 * (q.stride * (w / 128) + q.heads + k % q.ks / q.tk) + w % 128)
    + (if q.four then 32 * (o / 4) + 2 * (j % 16) + o % 4 / 2 else 32 * (o / 2) + 2 * (j % 16) + o % 2)
/-- Byte offset of the scale of weight (k, j) (R187). -/
def MvPlan.scaleByte (q : MvPlan) (k j : Nat) : Nat :=
  let w := q.slices * (j / 16) + k / q.ks
  let h := roundUp64 q.ks + j % 16 * (q.ks / 32) + k % q.ks / 32
  2048 * (128 * (q.stride * (w / 128) + h / 2048) + w % 128) + h % 2048
/-- Bytes of n elements packed (R98). -/
def packedBytes (fmt n : Nat) : Nat := (n * formatBits fmt + 7) / 8
/-- Storage position of a logical linear index (R572). -/
def Noun.posOf (n : Noun) (e : Nat) : Nat :=
  if n.layout = 1 then
    let i0 := e % n.dim 0
    let i1 := e / n.dim 0 % n.dim 1
    let h := e / n.dim 0 / n.dim 1
    4096 * (ceilDiv (n.dim 0) 64 * (ceilDiv (n.dim 1) 64 * h + i1 / 64) + i0 / 64) + 64 * (i1 % 64) + i0 % 64
  else if n.layout = 2 then
    let q := mvPlan n
    if q.four then 2 * q.weightByte (e % n.dim 0) (e / n.dim 0) + e % n.dim 0 % 2
    else q.weightByte (e % n.dim 0) (e / n.dim 0)
  else e
/-- Logical linear index of a storage position; `none` for padding (R572), and for what is no weight (R186). -/
def Noun.indexOf (n : Noun) (p : Nat) : Option Nat :=
  if n.layout = 2 then
    let q := mvPlan n
    let byte := if q.four then p / 2 else p
    let u := byte / 2048
    let w := 128 * (u / (128 * q.stride)) + u % 128
    let l := u / 128 % q.stride
    let o := byte % 2048
    let k0 := if q.four then 4 * (o / 32) + 2 * (o % 2) + p % 2 else 2 * (o / 32) + o % 2
    if w < q.items ∧ q.heads ≤ l ∧ l < q.heads + q.tiles then
      some (w % q.slices * q.ks + (l - q.heads) * q.tk + k0 + n.dim 0 * (16 * (w / q.slices) + o % 32 / 2))
    else none
  else
  if n.layout = 1 then
    let t0 := ceilDiv (n.dim 0) 64
    let t1 := ceilDiv (n.dim 1) 64
    let t := p / 4096
    let i0 := 64 * (t % t0) + p % 64
    let i1 := 64 * (t / t0 % t1) + p % 4096 / 64
    let h := t / t0 / t1
    if i0 < n.dim 0 ∧ i1 < n.dim 1 then some (i0 + n.dim 0 * (i1 + n.dim 1 * h)) else none
  else some p

/-- An element: encoding, scale byte, poison of its own flit and of its scale's flit (R573). -/
structure Elem where
  code    : Nat
  scale   : Nat
  poison  : Bool
  spoison : Bool
deriving DecidableEq, Repr

def Elem.zero : Elem := { code := 0, scale := 127, poison := false, spoison := false }
/-- A consumer treats the element as poisoned (R111, R573). -/
def Elem.bad (e : Elem) : Bool := e.poison || e.spoison

/-- Elements packed together in whole bytes: 4 of FP6 in 3 bytes, 2 of FP4 in 1 (R98). -/
def groupElems (fmt : Nat) : Nat := if formatBits fmt = 6 then 4 else if formatBits fmt = 4 then 2 else 1
def groupBytes (fmt : Nat) : Nat := groupElems fmt * formatBits fmt / 8

/-- The elements of a group of bytes. -/
def unpackGroup (fmt : Nat) (bs : List PByte) : List Elem :=
  let v := leNat (bs.map (·.byte))
  let w := formatBits fmt
  (List.range (groupElems fmt)).map (fun i =>
    let lo := i * w / 8
    let hi := (i * w + w - 1) / 8
    { code := v / 2 ^ (i * w) % 2 ^ w, scale := 127, poison := ((bs.take (hi + 1)).drop lo).any (·.poison), spoison := false })

/-- Elements in storage order from the bytes that hold them. -/
def unpackElems (fmt : Nat) (bs : List PByte) : List Elem :=
  (chunksOf (groupBytes fmt) (bs.length + 1) bs).flatMap (unpackGroup fmt)

/-- A group of elements as bytes; where an element is not written, its old code stays. -/
def packGroup (fmt : Nat) (es : List (Option Elem)) (old : List Elem) : List WByte :=
  if es.all (fun e => e.isNone) then List.replicate (groupBytes fmt) none
  else
    let w := formatBits fmt
    let v := ((es.zip old).zipIdx).foldl (fun acc p => acc + (match p.1.1 with
      | some e => e.code % 2 ^ w
      | none => p.1.2.code) * 2 ^ (p.2 * w)) 0
    let p := es.any (fun e => match e with
      | some x => x.poison
      | none => false)
    (natLe (groupBytes fmt) v).map (fun b => some { byte := b, poison := p })

/-- Elements in storage order, not written where `none`, as bytes over the old ones. -/
def packElems (fmt : Nat) (es : List (Option Elem)) (old : List PByte) : List WByte :=
  let g := groupElems fmt
  let b := groupBytes fmt
  ((chunksOf g (es.length + 1) es).zip (chunksOf b (old.length + 1) old)).flatMap (fun p =>
    packGroup fmt (p.1 ++ List.replicate (g - p.1.length) none) (unpackGroup fmt p.2))

/-- Bytes that hold the positions of a noun, rounded up to whole groups. -/
def Noun.storageBytes (n : Noun) : Nat := ceilDiv n.positions (groupElems n.format) * groupBytes n.format

/-- A noun uses a scale array (R97). -/
def Noun.scaled (n : Noun) : Bool := isMx n.format && decide (n.layout ≤ 1)

/-- The elements of a noun in logical order. For layout 3, whose nouns the spec gives no storage positions, every
encoding is free (log 7). -/
def State.loadTensor (s : State) (n : Noun) : List Elem :=
  if n.layout = 3 then
    (List.range n.count).map (fun e => { Elem.zero with
      code := (Config.freeValue (2 ^ 64 + n.dva * 2 ^ 32 + e)).toNat % 2 ^ formatBits n.format })
  else
  let store := (unpackElems n.format (s.readDva n.place n.dva n.storageBytes)).toArray
  let scales := (if n.scaled then s.readDva n.place n.scaleDva (ceilDiv n.count 32) else []).toArray
  (List.range n.count).map (fun e =>
    let x := store.getD (n.posOf e) Elem.zero
    if n.layout = 2 ∧ isMx n.format then
      match s.readDva n.place (n.dva + (mvPlan n).scaleByte (e % n.dim 0) (e / n.dim 0)) 1 with
      | b :: _ => { x with scale := b.byte.toNat, spoison := b.poison }
      | [] => x
    else if n.scaled then
      let sc := scales.getD (e / 32) { byte := 0, poison := false }
      { code := x.code, scale := sc.byte.toNat, poison := x.poison, spoison := sc.poison }
    else x)

/-- Elements written to a noun, given in logical order; `none` is not written. The scale of a block is that of its
written elements. A noun of layout 3 has no storage positions to write (log 7). -/
def State.storeTensor (s : State) (n : Noun) (es : List (Option Elem)) : State :=
  if n.layout = 3 then s
  else
  let arr := es.toArray
  let old := s.readDva n.place n.dva n.storageBytes
  -- padding may take any value (R572): it keeps its own, and counts as written when the whole tensor is
  let whole := es.all (fun e => e.isSome)
  let before := (unpackElems n.format old).toArray
  let stored := (List.range n.positions).map (fun p => match n.indexOf p with
    | some e => arr.getD e none
    | none => if whole then some { before.getD p Elem.zero with poison := false } else none)
  let s1 := s.writeDva n.place n.dva (packElems n.format stored old)
  if n.scaled then
    let blocks := chunksOf 32 (es.length + 1) es
    s1.writeDva n.place n.scaleDva (blocks.map (fun b =>
      match b.find? (fun e => e.isSome) with
      | some (some e) => some { byte := BitVec.ofNat 8 e.scale
                                poison := b.any (fun x => match x with
                                  | some y => y.spoison
                                  | none => false) }
      | _ => none))
  else if n.layout = 2 ∧ isMx n.format then
    (es.zipIdx).foldl (fun t p => match p.1 with
      | some e => if p.2 % 32 = 0 then
          t.writeDva n.place (n.dva + (mvPlan n).scaleByte (p.2 % n.dim 0) (p.2 / n.dim 0))
            [some { byte := BitVec.ofNat 8 e.scale, poison := e.spoison }]
        else t
      | none => t) s1
  else s1

/-- The value of an element of a noun. -/
def Noun.val (n : Noun) (e : Elem) : Val := elemVal n.format e.code e.scale
def State.loadVals (s : State) (n : Noun) : List (Val × Bool) := (s.loadTensor n).map (fun e => (n.val e, e.bad))

/-- Results converted to a noun's format (R105 to R109): elements in logical order with how many are non-finite and
how many saturated. -/
structure ConvertedTensor where
  elems     : List Elem
  sats      : List Bool               -- elements that saturated
  nonFinite : Nat
  saturated : Nat
deriving DecidableEq, Repr

/-- As it converts elements whose first has index `base` (a multiple of 32) in the output noun. -/
def convertAt (base fmt : Nat) (c : Conv) (vs : List (Val × Bool)) : ConvertedTensor :=
  let cs : List (Converted × Nat × Bool) :=
    if isMx fmt then
      ((chunksOf 32 (vs.length + 1) vs).zipIdx).flatMap (fun p =>
        let b := mxBlock fmt c (base + 32 * p.2) (p.1.map (·.1))
        let bad := p.1.any (·.2)
        b.2.map (fun q => (q, b.1, bad)))
    else (vs.zipIdx).map (fun p => (convertElem fmt c (base + p.2) p.1.1, 127, p.1.2))
  { elems := cs.map (fun x => { code := x.1.bits, scale := x.2.1, poison := x.2.2, spoison := x.2.2 })
    sats := cs.map (fun x => x.1.saturated)
    nonFinite := (cs.filter (fun x => x.1.nonFinite)).length
    saturated := (cs.filter (fun x => x.1.saturated)).length }

def convertTensor (fmt : Nat) (c : Conv) (vs : List (Val × Bool)) : ConvertedTensor := convertAt 0 fmt c vs

/-! ### Canonical bytes (R337): elements packed as layout 0, then the scale of each block -/

/-- Bytes of n scales. -/
def scaleBytes (fmt n : Nat) : Nat := if isMx fmt then ceilDiv n 32 else 0
def canonData (fmt : Nat) (es : List Elem) : List PByte :=
  let old : List PByte := List.replicate (ceilDiv es.length (groupElems fmt) * groupBytes fmt) { byte := 0, poison := false }
  ((packElems fmt (es.map some) old).map (fun b => b.getD { byte := 0, poison := false })).take (packedBytes fmt es.length)
def canonScales (fmt : Nat) (es : List Elem) : List PByte :=
  if isMx fmt then
    (chunksOf 32 (es.length + 1) es).map (fun b =>
      { byte := BitVec.ofNat 8 (b.headD Elem.zero).scale, poison := b.any (·.spoison) })
  else []
def canonBytes (fmt : Nat) (es : List Elem) : List PByte := canonData fmt es ++ canonScales fmt es
/-- The n elements that canonical bytes hold. -/
def canonElems (fmt n : Nat) (bs : List PByte) : List Elem :=
  let d := packedBytes fmt n
  let pad := ceilDiv n (groupElems fmt) * groupBytes fmt - d
  let es := (unpackElems fmt (bs.take d ++ List.replicate pad { byte := 0, poison := false })).take n
  let sc := (bs.drop d).toArray
  if isMx fmt then
    (es.zipIdx).map (fun p =>
      let b := sc.getD (p.2 / 32) { byte := 0, poison := false }
      { p.1 with scale := b.byte.toNat, spoison := b.poison })
  else es

end Sys2Proof.Machine
end

