-- ==== Sys2Proof/Machine/Link.lean ====
section
/-! DEFINITION. Sending and routing Caravan frames: header and trailer, sequence numbers and replay storage, the
receive pools, and the route table (09 R278 to R298). -/

namespace Sys2Proof.Machine

/-! ### Counters (R317) -/

def lnkCtr (p off : Nat) : Nat := 0xC00000 + 0x1000 * p + off
def lnkTxFrames (p : Nat) : Nat := lnkCtr p 0x40
def lnkRxFrames (p : Nat) : Nat := lnkCtr p 0x48
def lnkCrcFail (p : Nat) : Nat := lnkCtr p 0x50
def lnkReplays (p : Nat) : Nat := lnkCtr p 0x58
def lnkFecCorr (p : Nat) : Nat := lnkCtr p 0x60
def lnkFecUncorr (p : Nat) : Nat := lnkCtr p 0x68
def lnkDiscard (p : Nat) : Nat := lnkCtr p 0x70
def lnkRuBlocks (p : Nat) : Nat := lnkCtr p 0x78

/-! ### Frame bytes (R279 to R281) -/

/-- POISON as a number: bit i for payload bytes 32i to 32i + 31. -/
def poisonBits (l : List Nat) : Nat := (l.eraseDups.filter (· < 128)).foldl (fun n i => n + 2 ^ i) 0

/-- The 32 bytes of the header (R279). -/
def frameHeader (f : Frame) : List Byte :=
  natLe 2 f.dst ++ natLe 2 f.src
    ++ natLe 4 (f.vc % 8 + f.kind % 16 * 2 ^ 3 + flag f.resent * 2 ^ 7 + f.seq % 2 ^ 12 * 2 ^ 8 + f.hops % 2 ^ 5 * 2 ^ 20)
    ++ natLe 4 (f.payload.length % 2 ^ 13 + f.arg / 2 ^ 32 % 2 ^ 16 * 2 ^ 16) ++ natLe 4 f.arg ++ natLe 16 (poisonBits f.poison)

/-- FCRC over header and payload, with SEQ, HOPS and RESENT taken as zero (R281). -/
def frameCrc (f : Frame) : Word32 := crc32 (frameHeader { f with seq := 0, hops := 0, resent := false } ++ f.payload)

/-- Trailer bytes 0x04 to 0x1B. -/
def frameTrailer (f : Frame) : List Byte :=
  natLe 4 (f.ack % 2 ^ 12 + flag f.ackV * 2 ^ 12 + flag f.nak * 2 ^ 13)
    ++ (List.range 5).flatMap (fun v => natLe 4 (f.cred.getD v 0 % 2 ^ 17))
def frameTrailerCrc (f : Frame) : Word32 := crc32 (frameTrailer f)

/-- A frame as the port sends it: header, payload, trailer (R278). -/
def frameBytes (f : Frame) : List Byte :=
  frameHeader f ++ f.payload ++ natLe 4 f.fcrc.toNat ++ frameTrailer f ++ natLe 4 f.tcrc.toNat
/-- The codewords of a frame that begins one (R276, R278). -/
def frameCodewords (f : Frame) : List (List Nat) := rsStream (frameBlocks (frameBytes f))

/-- 64-byte pool units of a frame (R288). -/
def frameUnits (f : Frame) : Nat := ceilDiv (64 + f.payload.length) 64

/-- A frame of this device, its FCRC written at the source. -/
def State.newFrame (s : State) (dst vc kind arg : Nat) (payload : List Byte) (poison : List Nat) : Frame :=
  let f : Frame :=
    { dst := dst, src := s.applied.deviceId.toNat, vc := vc, kind := kind, resent := false, seq := 0
      hops := s.applied.hopLimit.toNat, arg := arg, payload := payload, poison := poison, fcrc := 0, ack := 0, ackV := false
      nak := false, cred := [], tcrc := 0, fec := [] }
  { f with fcrc := frameCrc f }

/-! ### Ports -/

/-- A port that counts as up for routes (R293, R310). -/
def State.portUp (s : State) (p : Nat) : Bool := (s.port p).state == 2

/-- VC 1 is carried on the ports of the sync tree only (R304). -/
def State.syncPort (s : State) (p : Nat) : Bool :=
  s.applied.syncChildren.getLsbD p || (!s.applied.syncRoot && s.applied.syncParent.toNat == p)

def sumOf (l : List Nat) : Nat := l.foldl (· + ·) 0

/-- The default of a pool register (R289), in units of 16 KiB. -/
def poolDefault (vc : Nat) : PoolCfg :=
  { limit := BitVec.ofNat 12 ([16, 2, 32, 192, 192].getD vc 0), reserve := BitVec.ofNat 8 ([4, 1, 8, 32, 64].getD vc 0) }
/-- Pool register of a port and VC. -/
def Shadow.pool (x : Shadow) (p vc : Nat) : PoolCfg := Tbl.get (poolDefault vc) x.poolCfg (5 * p + vc)

/-- Pool units of a VC that this port has sent and its peer has not freed. -/
def PortSt.outstanding (x : PortSt) (vc : Nat) : Nat :=
  let n := (Tbl.get 0 x.sent vc + 2 ^ 17 - Tbl.get 0 x.peerFreed vc % 2 ^ 17) % 2 ^ 17
  if 2 ^ 16 < n then 0 else n

/-- The peer's pool has room for the frame: its VC stays within the limit, and the excess over the reserves within the
shared space. The peer is taken to have the setting of this port (R288, log 35). -/
def State.creditFor (s : State) (p : Nat) (f : Frame) : Bool :=
  let x := s.port p
  let out (v : Nat) : Nat := x.outstanding v + (if v = f.vc then frameUnits f else 0)
  let reserve (v : Nat) : Nat := 256 * (s.applied.pool p v).reserve.toNat
  let all := List.range 5
  decide (out f.vc ≤ 256 * (s.applied.pool p f.vc).limit.toNat)
    && decide (sumOf (all.map (fun v => out v - reserve v)) ≤ 2 ^ 16 - sumOf (all.map reserve))

/-- A frame of this VC may leave on the port (R288, R291, R295, R304, R308, R310). -/
def State.mayCarry (s : State) (p : Nat) (f : Frame) : Bool :=
  let x := s.port p
  !x.laneMove && s.creditFor p f
    && (x.state == 2 || (x.state == 3 && f.vc == 0))
    && (f.vc ≠ 1 || (s.syncPort p && x.syncOpen))
    && (s.applied.idValid || (f.vc == 0 && f.hops == 0))
    && (!s.halted || f.vc == 0 || (f.vc == 1 && decide (4 ≤ s.pwr.sagStage) && decide (s.thm.flowState.toNat < 2) && !s.thm.trip))

/-- Replay storage has room (R285): fewer than 2,047 frames, at most 512 KiB. -/
def PortSt.room (x : PortSt) (f : Frame) : Bool :=
  decide (x.unacked.length < 2047)
    && decide ((x.unacked.foldl (fun n g => n + 64 + g.payload.length) (64 + f.payload.length)) ≤ 524288)

/-- VCs of a port on which an armed slot with function 3 withholds the credits (R477). -/
def State.withheld (s : State) (p : Nat) : List Nat := (List.range 5).filter (fun v => (s.armedSlot 3 p (· == v)).isSome)

/-- What a trailer of the port says now: ACK, its validity, NAK, the credit counts, of which withheld ones stand still
(R280, R477). -/
def PortSt.news (x : PortSt) (held : List Nat) : List Nat :=
  [(x.rxSeq + 4095) % 4096, flag x.gotAny, flag x.nakDue]
    ++ (List.range 5).map (fun v => if held.contains v then x.told.getD (3 + v) 0 else Tbl.get 0 x.freed v % 2 ^ 17)

/-- The trailer as this port writes it now (R280). -/
def PortSt.dress (x : PortSt) (held : List Nat) (f : Frame) : Frame :=
  let g := { f with ack := x.rxSeq + 4095, ackV := x.gotAny, nak := x.nakDue, cred := (x.news held).drop 3 }
  let h := { g with ack := g.ack % 4096 }
  { h with tcrc := frameTrailerCrc h }

/-- The port has sent a trailer: NAK stands in one of them (R285). -/
def PortSt.hasTold (x : PortSt) (held : List Nat) : PortSt :=
  let y := { x with nakDue := false }
  { y with told := y.news held }

/-- A frame leaves on a port: the next SEQ, kept until it is acknowledged. -/
def State.transmit (s : State) (p : Nat) (f : Frame) : State :=
  let x := s.port p
  let g := x.dress (s.withheld p) { f with seq := x.txSeq }
  let sent := Tbl.put 0 x.sent f.vc ((Tbl.get 0 x.sent f.vc + frameUnits f) % 2 ^ 17)
  let y := ({ x with txSeq := (x.txSeq + 1) % 4096, unacked := x.unacked ++ [g], sent := sent } : PortSt).hasTold (s.withheld p)
  let s1 := (s.setPort p y).ctrAdd (lnkTxFrames p) 1
  { s1 with io := { s1.io with frames := (p, g) :: s1.io.frames } }

/-- A link-layer frame (VC 7) leaves on a port; it carries SEQ zero and is not kept (R282). -/
def State.transmitLink (s : State) (p kind : Nat) (payload : List Byte) : State :=
  let x := s.port p
  let g := x.dress (s.withheld p) { s.newFrame x.peerId.toNat 7 kind 0 payload [] with seq := 0, hops := 0 }
  { s.setPort p (x.hasTold (s.withheld p)) with io := { s.io with frames := (p, g) :: s.io.frames } }

/-! ### The output of a port (R287) -/

def PortSt.take (x : PortSt) (f : Frame) : PortSt := { x with pool := Tbl.put 0 x.pool f.vc (Tbl.get 0 x.pool f.vc + frameUnits f) }
def PortSt.release (x : PortSt) (f : Frame) : PortSt :=
  { x with pool := Tbl.put 0 x.pool f.vc (Tbl.get 0 x.pool f.vc - frameUnits f)
           freed := Tbl.put 0 x.freed f.vc ((Tbl.get 0 x.freed f.vc + frameUnits f) % 2 ^ 17) }
/-- Pool units of a frame are freed at the port it came in by (R288). -/
def State.freePool (s : State) (p : Nat) (f : Frame) : State := if p < 12 then s.modPort p (fun x => x.release f) else s

/-- Order of the VCs at an output. -/
def vcOrder : List Nat := [1, 0, 2, 4, 3]

/-- Queued frames that may leave: the first of each VC from each input, where the port may carry it and keep it. -/
def State.contenders (s : State) (p : Nat) : List Queued :=
  let x := s.port p
  (x.txQueue.zipIdx).filterMap (fun q =>
    if !(x.txQueue.take q.2).any (fun y => y.pool == q.1.pool && y.frame.vc == q.1.frame.vc) && s.mayCarry p q.1.frame && x.room q.1.frame
    then some q.1 else none)

/-- The frame that goes next: one that has lost 32 arbitrations in a row, or the first VC of the order, the oldest first. -/
def State.nextQueued (s : State) (p : Nat) : Option Queued :=
  let l := s.contenders p
  match l.find? (fun q => decide (32 ≤ q.lost)) with
  | some q => some q
  | none => vcOrder.findSome? (fun v => l.find? (fun q => q.frame.vc == v))

/-- A queued frame leaves, the other contenders have lost an arbitration, and its pool units are free. -/
def State.sendQueued (s : State) (p : Nat) (q : Queued) : State :=
  let lost := s.contenders p
  let s1 := s.modPort p (fun x => { x with
    txQueue := (x.txQueue.erase q).map (fun y => if lost.contains y then { y with lost := y.lost + 1 } else y) })
  (s1.transmit p q.frame).freePool q.pool q.frame

/-- Queued frames leave while they may. -/
def State.pump : Nat → Nat → State → State
  | 0, _, s => s
  | n + 1, p, s =>
    match s.nextQueued p with
    | some q => State.pump n p (s.sendQueued p q)
    | none => s

def State.pumpPort (s : State) (p : Nat) : State := State.pump (s.port p).txQueue.length p s

/-- A frame joins the queue of an output, from the pool of an input or from this device. -/
def State.enqueue (s : State) (p pool : Nat) (f : Frame) : State :=
  s.modPort p (fun x => { x with txQueue := x.txQueue ++ [{ pool := pool, frame := f, lost := 0 }] })

/-- A port with nothing to send sends link frames (VC 7, KIND 0): one where its trailer has something new to tell; those
that would only repeat the last trailer are left out (log 65) (R278). -/
def State.idleLink (s : State) (p : Nat) : State :=
  let x := s.port p
  if decide (2 ≤ x.state.toNat) && x.told ≠ x.news (s.withheld p) then s.transmitLink p 0 [] else s

/-! ### Routes (R296, R297) -/

/-- A route entry as used: prefix length, primary and alternate port, where the entry is valid and matches. -/
def routeMatch (e dst : Nat) : Option (Nat × Nat × Nat) :=
  let plen := bits e 20 16
  let port := bits e 24 21
  let alt := bits e 28 25
  if bitAt e 31 && bits e 30 29 == 0 && decide (plen ≤ 16) && decide (port < 12) && (decide (alt < 12) || alt == 15)
      && dst / 2 ^ (16 - plen) == bits e 15 0 / 2 ^ (16 - plen) then
    some (plen, port, alt)
  else none

/-- The entry of longest prefix; among equal lengths the lowest index. -/
def bestRoute (dst : Nat) (t : Tbl Word32) : Option (Nat × Nat × Nat) :=
  t.foldl (fun (b : Option (Nat × Nat × Nat)) e =>
    match routeMatch e.2.toNat dst, b with
    | none, _ => b
    | some m, none => some m
    | some m, some o => if o.1 < m.1 then some m else b) none

/-- The port that a frame to a device takes. -/
def State.routePort (s : State) (dst : Nat) : Option Nat :=
  match bestRoute dst s.applied.route with
  | none => none
  | some (_, port, alt) =>
    if s.portUp port then some port else if alt < 12 ∧ s.portUp alt then some alt else none

/-- A frame is discarded and counted at a port, with an event (R297). -/
def State.discardFrame (s : State) (p : Nat) (f : Frame) : State :=
  (s.ctrAdd (lnkDiscard p) 1).event .frameDiscard none 5 p none 0 [BitVec.ofNat 64 f.dst, BitVec.ofNat 64 f.vc]

/-- The port at which a frame of this device that has no way out is counted: its entry's primary port, else port 0
(DESIGN CHOICE, log 21). -/
def State.discardPort (s : State) (dst : Nat) : Nat :=
  match bestRoute dst s.applied.route with
  | some (_, port, _) => port
  | none => 0

/-- A frame of this device sets out (R283, R297): for itself it is delivered at once, through port number 12. -/
def State.emit (s : State) (f : Frame) : State :=
  if f.dst = s.applied.deviceId.toNat then { s with lnk := { s.lnk with inbox := s.lnk.inbox ++ [(12, f)] } }
  else
    match s.routePort f.dst with
    | some p => (s.enqueue p 12 f).pumpPort p
    | none => s.discardFrame (s.discardPort f.dst) f

/-- A frame of this device goes out on a port of its choice: sync frames, and MCTP frames to a neighbour. -/
def State.emitOn (s : State) (p : Nat) (f : Frame) : State :=
  (s.enqueue p 12 f).pumpPort p

/-! ### Transit (R283, R297) -/

/-- A frame that came in by a port goes to the output of its route, or is discarded (R283, R297). -/
def State.forwardFrame (s : State) (inPort : Nat) (f : Frame) : State :=
  match s.routePort f.dst with
  | none => (s.discardFrame inPort f).freePool inPort f
  | some p => (s.enqueue p inPort f).pumpPort p

/-- Every port sends what it may, and link frames where it has nothing else. -/
def State.pumpAll (s : State) : State := (List.range 12).foldl (fun t p => (t.pumpPort p).idleLink p) s

/-! ### Delivered frames wait for the unit that takes them -/

def State.inboxFind (s : State) (p : Nat) (pred : Frame → Bool) : Option Frame :=
  (s.lnk.inbox.find? (fun e => e.1 == p && pred e.2)).map (·.2)
/-- A delivered frame is consumed. -/
def State.inboxTake (s : State) (p : Nat) (f : Frame) : State :=
  ({ s with lnk := { s.lnk with inbox := s.lnk.inbox.erase (p, f) } }).freePool p f

end Sys2Proof.Machine
end

