-- ==== Sys2Proof/Machine/Group.lean ====
section
/-! DEFINITION. Groups, the collectives under way and their control messages (09 R282, R299 to R303, 11 R373). -/

namespace Sys2Proof.Machine

/-! ### Group entries (R299) -/

structure Group where
  topo    : Nat
  redPort : Nat
  nin     : Nat
  members : Nat            -- N
  rank    : Nat
  sub     : Nat
  up      : Nat
  upV     : Bool
  wrap    : Nat
  ins     : List (Nat × Nat)   -- device and rank of the inputs in use
  valid   : Bool
deriving DecidableEq, Repr

/-- Children ranks rise from RANK + 1 within the subtree (R299: pre-order). -/
def preOrder (rank sub : Nat) (ins : List (Nat × Nat)) : Bool :=
  (ins.isEmpty || (ins.headD (0, 0)).2 == rank + 1) && ins.all (fun c => decide (c.2 ≤ rank + sub))
    && (ins.zip (ins.drop 1)).all (fun p => decide (p.1.2 < p.2.2)) && (ins.isEmpty == (sub == 0))

def parseGroup (e : Nat) : Group :=
  let f (off hi lo : Nat) : Nat := bits e (8 * off + hi) (8 * off + lo)
  let topo := f 0 1 0
  let nin := f 0 15 12
  let m1 := f 0 31 16
  let rank := f 4 15 0
  let sub := f 4 31 16
  let upV := f 8 16 16 == 1
  let ins := (List.range (min nin 8)).map (fun i => (f (0x10 + 4 * i) 15 0, f (0x10 + 4 * i) 31 16))
  let wrap := f 0xC 15 0
  { topo := topo, redPort := f 0 11 8, nin := nin, members := m1 + 1, rank := rank, sub := sub, up := f 8 15 0, upV := upV
    wrap := wrap, ins := ins
    valid := f 0 7 2 == 0 && f 8 31 17 == 0 && f 0xC 31 16 == 0 && f 0x30 127 0 == 0 && decide (f 0 11 8 < 12)
      && decide (rank ≤ m1)
      && (if topo = 1 then
            sub == 0 && nin == (if rank = 0 then 0 else 1) && upV == decide (rank < m1)
              && (rank == 0 || (ins.headD (0, 0)).2 == rank - 1)
          else topo == 2 && decide (nin ≤ 8) && wrap == 0 && upV == (rank ≠ 0) && decide (rank + sub ≤ m1)
              && (rank ≠ 0 || sub == m1) && preOrder rank sub ins) }

def State.groupDpa (s : State) (g : Nat) : Nat := s.applied.groupBase.toNat * 2 ^ 18 + 64 * g
def State.groupBytes (s : State) (g : Nat) : Nat := leNat (s.dpaRead (s.groupDpa g) 64)
def State.groupPoison (s : State) (g : Nat) : Bool := s.dpaPoison (s.groupDpa g) 64

/-- The device combines the last sum: last rank of a chain, or root of a tree (R300). -/
def Group.isLast (g : Group) : Bool := if g.topo = 1 then g.rank + 1 == g.members else g.rank == 0
/-- The device whose seed and broadcast source count: rank 0 (R371, R372). -/
def Group.isFirst (g : Group) : Bool := g.rank == 0
/-- The devices it exchanges frames with. -/
def Group.neighbours (g : Group) : List Nat := (if g.upV then [g.up] else []) ++ g.ins.map (·.1)

def needsGroup (verb : Nat) : Bool :=
  verb == verbAllReduce || verb == verbReduceScatter || verb == verbAllGather || verb == verbBroadcast

/-! ### Collectives under way -/

/-- Blocks of a collective of e elements (R282). -/
def collBlocks (e : Nat) : Nat := ceilDiv e 4096
def blockElems (e b : Nat) : Nat := min 4096 (e - 4096 * b)
def State.coll (s : State) (r index : Nat) : Option Coll := s.colls.find? (fun x => x.ring == r && x.index == index)
def State.setColl (s : State) (c : Coll) : State :=
  { s with colls := s.colls.map (fun x => if x.ring = c.ring ∧ x.index = c.index then c else x) }
def State.dropColl (s : State) (c : Coll) : State :=
  { s with colls := s.colls.filter (fun x => !(x.ring == c.ring && x.index == c.index)) }
/-- The collective under way that a frame's group and INST name. -/
def State.collFor (s : State) (group inst : Nat) : Option Coll := s.colls.find? (fun x => x.group == group && x.member == inst)
def Coll.grp (c : Coll) : Group := parseGroup c.entry
def Coll.moves (c : Coll) : Bool := c.verb == verbAllGather || c.verb == verbBroadcast

/-- A CTRL message (log 14: the spec gives its content, not its layout). Types: 0 opening, 1 block credit, 2 abort,
3 the members disagree. Each carries verb, E and OUT format (R373). -/
def ctrlPayload (type : Nat) (c : Coll) (block : Nat) : List Byte :=
  natLe 1 type ++ natLe 1 c.verb ++ natLe 1 c.outFmt ++ natLe 1 c.member ++ natLe 8 c.elems ++ natLe 4 block ++ List.replicate 16 0
def State.sendCtrl (s : State) (dst type : Nat) (c : Coll) (block : Nat) : State :=
  let n := s.lnk.ctrlNext
  let s1 := { s with lnk := { s.lnk with ctrlNext := (n + 1) % 2 ^ 32 } }
  s1.emit (s1.newFrame dst 2 0 (n + c.group * 2 ^ 32) (ctrlPayload type c block) [])

/-- The block goes into this device's OUT (R302, R371). -/
def Coll.wants (c : Coll) (b : Nat) : Bool :=
  if c.verb = verbReduceScatter then 4096 * b / (c.elems / c.grp.members) == c.grp.rank else true

/-- The messages that end a collective go to its neighbours: abort (2) or disagreement (3) (R303, R373). -/
def State.tellGroup (s : State) (c : Coll) (type except : Nat) : State :=
  (c.grp.neighbours.filter (fun d => decide (d ≠ except))).foldl (fun t d => t.sendCtrl d type c 0) s

/-- This device has what it wants of the collective. -/
def Coll.served (c : Coll) : Bool := !c.moves && (List.range (collBlocks c.elems)).all (fun b => !c.wants b || c.done.contains b)

/-- A clause fails while its collective is under way: the group is told, and the collective ends here (R303). -/
def State.abortColl (s : State) (r index : Nat) : State :=
  (s.colls.filter (fun c => c.ring == r && c.index == index && !c.served)).foldl (fun t c => (t.tellGroup c 2 65536).dropColl c) s

/-- The number under which a collective goes on for the rest of its group when its clause is over here. -/
def Coll.orphan (c : Coll) : Coll := { c with index := 2 ^ 32 + 4 * c.group + c.member }

end Sys2Proof.Machine
end

