-- ==== Sys2Proof/Machine/Flags.lean ====
section
/-! DEFINITION. Status codes (11 R388), completion records (02 R53 to R56), the failing of a clause (R78), and the
non-finite flag of a step (04 R141). -/

namespace Sys2Proof.Machine

/-! ### Status codes -/

def stDoorbellInvalid : Nat := 0x001
def stReservedSet : Nat := 0x002
def stBadVerb : Nat := 0x003
def stAdminVerb : Nat := 0x004
def stAdminOnly : Nat := 0x005
def stBadModifier : Nat := 0x006
def stOperandAccess : Nat := 0x007
def stChainInvalid : Nat := 0x008
def stRingEntry : Nat := 0x009
def stRingState : Nat := 0x00A
def stFlushed : Nat := 0x0FF
def stNounInvalid : Nat := 0x101
def stNounStale : Nat := 0x102
def stNounRdonly : Nat := 0x103
def stNounShape : Nat := 0x104
def stUnmapped : Nat := 0x105
def stFormatPair : Nat := 0x106
def stBankAlign : Nat := 0x107
def stKvDisabled : Nat := 0x108
def stKvSeqInvalid : Nat := 0x109
def stKvSeqStale : Nat := 0x10A
def stKvSeqDup : Nat := 0x10B
def stKvLayerRange : Nat := 0x10C
def stKvCapacity : Nat := 0x10D
def stKvPoolEmpty : Nat := 0x10E
def stScrubRange : Nat := 0x10F
def stWaitTimeout : Nat := 0x201
def stSyncRange : Nat := 0x202
def stPoisonConsumed : Nat := 0x301
def stImemUncorrectable : Nat := 0x302
def stFieldOverlap : Nat := 0x401
def stRingNotClosed : Nat := 0x402
def stFieldDegraded : Nat := 0x403
def stKernelRejected : Nat := 0x404
def stFieldFault : Nat := 0x405
def stFieldAbsent : Nat := 0x406
def stFieldBusy : Nat := 0x407
def stRbufLayout : Nat := 0x408
def stRbufPass : Nat := 0x409
def stRbufEmpty : Nat := 0x40A
def stQuotaExceeded : Nat := 0x40B
def stReduceTimeout : Nat := 0x501
def stGroupInvalid : Nat := 0x502
def stPsetInvalid : Nat := 0x601
def stStepState : Nat := 0x602
def stGateScope : Nat := 0x603
def stVaultEvacuating : Nat := 0x701
def stNbeFault : Nat := 0x702

/-- A failure that concerns no operand slot. -/
def failNone (status detail : Nat) : Failure := { status := status, operand := 7, detail := detail }
/-- A failure of operand slot i. -/
def failSlot (status i detail : Nat) : Failure := { status := status, operand := i, detail := detail }

/-- The first failure of a list of checks (R354). -/
def firstFailure (l : List (Option Failure)) : Option Failure :=
  match l with
  | [] => none
  | some f :: _ => some f
  | none :: r => firstFailure r

/-- A check: fails with `f` where `bad`. -/
def failIf (bad : Bool) (f : Failure) : Option Failure := if bad then some f else none

/-! ### Clauses of a ring -/

/-- Entries of the ring: 2^k (R38, R39). -/
def RingSt.size (r : RingSt) : Nat := 2 ^ (r.ctx.log2 + 6)
/-- Slot of a producer count (R43). -/
def RingSt.slotOf (r : RingSt) (index : Nat) : Nat := index % r.size
/-- Distance from one free-running index to another (R47). -/
def indexDiff (a b : Nat) : Nat := (a + 2 ^ 32 - b) % 2 ^ 32
def RingSt.clauseAt (r : RingSt) (slot : Nat) : Option ClauseSt := r.clauses.find? (fun c => r.slotOf c.index == slot)
def RingSt.clauseOf (r : RingSt) (index : Nat) : Option ClauseSt := r.clauses.find? (fun c => c.index == index)
def RingSt.modClause (r : RingSt) (index : Nat) (f : ClauseSt → ClauseSt) : RingSt :=
  { r with clauses := r.clauses.map (fun c => if c.index = index then f c else c) }
def RingSt.dropClause (r : RingSt) (index : Nat) : RingSt :=
  { r with clauses := r.clauses.filter (fun c => decide (c.index ≠ index)) }

/-- STOPPED, also while a live change holds the ring PAUSED (R77). -/
def RingSt.isStopped (r : RingSt) : Bool := r.state = .stopped || (r.state = .paused && r.before = .stopped)
def RingSt.isOpen (r : RingSt) : Bool := r.state ≠ .closed
/-- The state a ring takes, kept beneath PAUSED (R77). -/
def RingSt.become (r : RingSt) (st : RingState) : RingSt :=
  if r.state = .paused then { r with before := st } else { r with state := st }

/-- Whether any clause has issued and not completed (R77). -/
def ClauseSt.outstanding (c : ClauseSt) : Bool := c.phase ≠ .posted

/-- The noun read at issue for operand slot i (R60). -/
def ClauseSt.noun (c : ClauseSt) (i : Nat) : Noun := Tbl.get Noun.unused c.nouns i
def ClauseSt.hasNoun (c : ClauseSt) (i : Nat) : Bool := (Tbl.find c.nouns i).isSome

/-- Operand slot i has write access. -/
def clWrites (c : BitVec 512) (i : Nat) : Bool := 2 ≤ (clOperand c i).acc

/-! ### Regions locked by near-bank work (06 R200) -/

/-- The job's clause locks a DPA of its vault: a row of a bank that its engines step through, from its staging on. -/
def NbeJob.locks (j : NbeJob) (dpa : Nat) : Bool :=
  let p := decodeStandard dpa
  j.stage ≠ 0 && j.locked.any (fun (l : LockedRow) => l.row == p.row && decide (l.lo ≤ 16 * p.tier + p.bank) && decide (16 * p.tier + p.bank < l.hi))
/-- A DPA lies in a locked region. -/
def State.dpaLocked (s : State) (dpa : Nat) : Bool := (s.vault (dpa / Config.vaultBytes)).jobs.any (fun j => j.locks dpa)
/-- Some byte of [dva, dva + n) lies in a region that another clause than (r, index) locks. -/
def State.rangeLocked (s : State) (r index place dva n : Nat) : Bool :=
  let other (j : NbeJob) : Bool := decide ((j.ring, j.index) ≠ (r, index))
  s.vaults.any (fun e => e.2.jobs.any (fun j => j.stage ≠ 0 && other j))
    && (flitPieces dva n).any (fun p =>
      match s.translate place p.1 with
      | some (.dram a) => (s.vault (a / Config.vaultBytes)).jobs.any (fun j => other j && j.locks a)
      | _ => false)
/-- A write operand of a clause, or its scale array, reaches into a region that another clause locks: its writes are
deferred (R200). -/
def State.writesLocked (s : State) (r : Nat) (c : ClauseSt) : Bool :=
  c.nouns.any (fun e => clWrites c.bits e.1 && (s.rangeLocked r c.index e.2.place e.2.dva e.2.length
    || (e.2.scaled && s.rangeLocked r c.index e.2.place e.2.scaleDva (ceilDiv e.2.count 32))))

/-- Verbs whose work the cores' kernels carry out (R348). -/
def coreVerb (v : Nat) : Bool :=
  v == verbMatrix || v == verbChain || v == verbAttnFwd || v == verbAttnBwd || v == verbDecode || v == verbCopy

/-- The verb runs as shares on the field's cores (R116, R140). -/
def sharedVerb (v : Nat) : Bool := coreVerb v || v == verbReduce || v == verbAllReduce || v == verbReduceScatter

/-- The core issues operations of a context: it has power and an image, no retune holds it, and the context is the one
that runs (R76, R120, R122, R125). -/
def State.coreRuns (s : State) (core : Nat) (paren : Bool) : Bool :=
  let c := s.core core
  !s.halted && s.domRuns core && s.domRuns (playaDomain core) && !c.retuning
    && (if paren then c.run = 2 && c.imgParen ≠ .empty else decide (c.run.toNat < 2) && c.imgMain ≠ .empty)

/-- The running share of a core's context is the oldest that it holds (R116). -/
def State.runsShare (s : State) (core : Nat) (paren : Bool) (r index : Nat) : Bool :=
  s.coreRuns core paren && (if paren then (s.core core).qParen else (s.core core).qMain).head? == some (r, index)

/-- Verbs whose shares run array passes. -/
def arrayVerb (v : Nat) : Bool := v == verbMatrix || v == verbAttnFwd || v == verbAttnBwd || v == verbDecode
/-- A core has an array for the context: the parenthetical one is lent no array on which the main context has a pass in
progress or an undrained bank (R121). -/
def CoreSt.lendsArray (c : CoreSt) (paren : Bool) : Bool := !paren || !(c.mainHeld.contains 0 && c.mainHeld.contains 1)

/-- Some core runs its share of the clause; a clause without shares waits for no core (log 50). -/
def State.shareRuns (s : State) (r : Nat) (c : ClauseSt) : Bool :=
  let paren := (s.ring r).ctx.paren
  !sharedVerb (clVerb c.bits) || (c.shares.isEmpty && c.unsent.isEmpty)
    || c.shares.any (fun n => s.runsShare n paren r c.index && (!arrayVerb (clVerb c.bits) || (s.core n).lendsArray paren))

/-- The clause of a ring's slot whose shares have been sent, whose verb is `verb`, whose work is still to be done, of
which a core runs a share, and whose writes no locked region defers, and whose reductions are over. Core verbs stand still while
compute is halted (R76, R261, R408). -/
def State.startedClause (s : State) (r k verb : Nat) : Option ClauseSt :=
  match (s.ring r).clauseAt k with
  | some c =>
    if c.phase = .started ∧ clVerb c.bits = verb ∧ c.worked = false ∧ s.writesLocked r c = false ∧ s.shareRuns r c = true
        ∧ (coreVerb verb && s.halted) = false ∧ s.reducing.any (fun x => x.ring == r && x.index == c.index) = false then some c else none
  | none => none

/-! ### Records and interrupts (R53 to R56) -/

/-- The 16 bytes of a completion record (R53). -/
def recordBytes (slot tag : Nat) (f : Failure) (phase : Bool) (time : Word64) : List Byte :=
  natLe 2 slot ++ natLe 2 tag
    ++ natLe 4 (f.status % 2 ^ 12 + f.operand % 8 * 2 ^ 12 + f.detail % 2 ^ 15 * 2 ^ 16 + flag phase * 2 ^ 31)
    ++ natLe 8 time.toNat

/-- A record is written to the ring's completion ring, and its interrupt follows it (R54, R56, R71). -/
def State.writeRecord (s : State) (r slot tag : Nat) (f : Failure) (irq : Bool) : State :=
  let ring := s.ring r
  let entry := ring.records % ring.size
  let phase := ring.records / ring.size % 2 == 0
  let s1 := s.hostWrite (ring.ctx.cqBase + 16 * entry) (recordBytes slot tag f phase s.time)
  let s2 := s1.setRing r { ring with records := ring.records + 1 }
  if ring.ctx.irqEn && (irq || f.status ≠ 0) then s2.raiseMsix ring.ctx.vector else s2

/-- FETCH_WB is written with an index, zero-extended to 64 bits (R48). -/
def State.writeFetchWb (s : State) (r index : Nat) : State :=
  s.hostWrite (s.ring r).ctx.fetchWb (natLe 8 (index % 2 ^ 32))

/-! ### Opening and closing a ring (R39, R44, R48, R77 to R80, R548, R574) -/

/-- A ring context entry from its 64 bytes. -/
def parseRing (e : Nat) : RingCtx :=
  let f (off hi lo : Nat) : Nat := bits e (8 * off + hi) (8 * off + lo)
  { sqBase := f 0 63 0, cqBase := f 8 63 0, dbLine := f 0x10 63 0, fetchWb := f 0x18 63 0, log2 := f 0x20 3 0
    dbSlot := f 0x20 7 4, field := f 0x20 13 8, paren := f 0x20 14 14 == 1, irqEn := f 0x20 15 15 == 1
    prio := f 0x20 17 16, vector := f 0x20 28 18 }

/-- The entry breaks R38 or R39. -/
def ringEntryBad (e : Nat) : Bool :=
  let c := parseRing e
  c.sqBase % 4096 ≠ 0 || c.cqBase % 4096 ≠ 0 || c.dbLine % 64 ≠ 0 || c.fetchWb % 8 ≠ 0 || decide (10 < c.log2)
    || bits e (8 * 0x20 + 31) (8 * 0x20 + 29) ≠ 0 || bits e 511 (8 * 0x24) ≠ 0

def State.rctAddr (s : State) (r : Nat) : Nat := s.applied.rctBase.toNat * 4096 + 64 * r
def State.ringEntry (s : State) (r : Nat) : Nat := leNat (s.hostRead (s.rctAddr r) 64)
def State.ringEntryPoison (s : State) (r : Nat) : Bool := Poison.any s.host.poison (s.rctAddr r) 64

/-- A doorbell line gains its first open ring: watched while the table has room, else polled (R44, R46). -/
def Cmd.addLine (c : Cmd) (l : Nat) : Cmd :=
  if c.watch.any (fun w => w.line == l) || c.polled.any (fun w => w.line == l) then c
  else
    let w : WatchLine := { line := l, shared := true, poisoned := 0 }
    if c.watch.length < 4096 then { c with watch := c.watch ++ [w] } else { c with polled := c.polled ++ [w] }

/-- A doorbell line has lost its last open ring; the longest-waiting polled line takes a freed entry, and is read in
Shared state before it is watched (R44, R45). -/
def Cmd.dropLine (c : Cmd) (l : Nat) : Cmd :=
  if c.watch.any (fun w => w.line == l) then
    let watch := c.watch.filter (fun w => decide (w.line ≠ l))
    match c.polled with
    | [] => { c with watch := watch }
    | w :: r => { c with watch := watch ++ [{ w with shared := false }], polled := r, reading := delSet w.line c.reading }
  else { c with polled := c.polled.filter (fun w => decide (w.line ≠ l)), reading := delSet l c.reading }

/-- A ring opens (R574): its fetch index is the doorbell slot's value, which goes to FETCH_WB. -/
def State.openRing (s : State) (r : Nat) (ctx : RingCtx) (fid : Nat) : State :=
  let v := leNat (s.hostRead (ctx.dbLine + 4 * ctx.dbSlot) 4)
  let s1 := s.setRing r { RingSt.reset with state := .idle, before := .idle, ctx := ctx, field := fid, fetched := v, produced := v, seen := v }
  ({ s1 with cmd := s1.cmd.addLine ctx.dbLine }).writeFetchWb r v

/-- Entry 0 is read, and ring 0 opens or reports that it did not (R548). -/
def State.openAdmin (s : State) : State :=
  let e := s.ringEntry 0
  if s.applied.rctBase = 0 ∨ s.ringEntryPoison 0 ∨ ringEntryBad e then
    ({ s with cmd := { s.cmd with r0State := 3 } }).event .ring0Unopened none 0 0 none 0 []
  else ({ s with cmd := { s.cmd with r0State := 1 } }).openRing 0 (parseRing e) 0

/-- A FLUSHED record. -/
def State.flushRecord (s : State) (r slot tag : Nat) : State := s.writeRecord r slot tag (failNone stFlushed 0) false

/-- The posted clauses of a ring, fetched and not fetched, each write a FLUSHED record, after FETCH_WB has passed them
(R48, R79). A ring stopped at its fetch index may hold fetched clauses posted before its stop slot: R79 names only those
from the stop slot on, and DESIGN CHOICE (log 51) flushes these as well, since the ring becomes IDLE. -/
def State.flushPosted (s : State) (r : Nat) : State :=
  let ring := s.ring r
  let s1 := s.writeFetchWb r ring.produced
  let s2 := (ring.clauses.filter (fun c => c.phase = Phase.posted)).foldl (fun t c => t.flushRecord r (ring.slotOf c.index) (clTag c.bits)) s1
  let s3 := (List.range (indexDiff ring.produced ring.fetched)).foldl (fun t i =>
    let k := ring.slotOf (ring.fetched + i)
    t.flushRecord r k (leNat (t.hostRead (ring.ctx.sqBase + 64 * k + 2) 2))) s2
  s3.modRing r (fun (R : RingSt) =>
    { R with fetched := ring.produced, clauses := R.clauses.filter (fun c => c.phase ≠ Phase.posted), skipped := false
             waitFrom := none, sentence := R.sentence + 1, sentLen := 0 })

/-- The control fences that wait for ring t have done their work (R387). -/
def State.fencesDone (s : State) (t : Nat) : State :=
  s.modRing 0 (fun (R : RingSt) => { R with clauses := R.clauses.map (fun (c : ClauseSt) =>
    if c.target = some t then { c with phase := .done, worked := true } else c) })

/-- A ring becomes CLOSED. -/
def State.closeNow (s : State) (r : Nat) : State :=
  let s1 := s.flushPosted r
  let line := (s.ring r).ctx.dbLine
  let s2 := s1.setRing r RingSt.reset
  let s3 := if s2.rings.any (fun e => e.2.isOpen && e.2.ctx.dbLine == line) then s2 else { s2 with cmd := s2.cmd.dropLine line }
  if r = 0 then
    let c := { s3.cmd with r0State := 0, enableWaits := false }
    if s3.cmd.enableWaits then ({ s3 with cmd := c }).openAdmin else { s3 with cmd := c }
  else
    -- the fence that closes it has done its work (R387)
    s3.fencesDone r

/-- RUNNING while clauses are posted or outstanding, else IDLE; STOPPED and CLOSED rings keep their state (R77). -/
def RingSt.settle (r : RingSt) : RingSt :=
  let st : RingState := if r.clauses = [] ∧ r.produced = r.fetched then .idle else .running
  if r.state = .idle ∨ r.state = .running then { r with state := st }
  else if r.state = .paused ∧ (r.before = .idle ∨ r.before = .running) then { r with before := st }
  else r

/-- A ring stops at a clause that it has not fetched: one record, TAG 0, for the slot of its fetch index (R47, R462). -/
def State.stopUnfetched (s : State) (r : Nat) (f : Failure) : State :=
  let x := s.ring r
  let s1 := s.writeRecord r (x.slotOf x.fetched) 0 f false
  let s2 := if r = 0 ∧ s1.cmd.r0State = 1 then { s1 with cmd := { s1.cmd with r0State := 2 } } else s1
  s2.modRing r (fun (R : RingSt) => { R.become .stopped with stopAt := x.fetched, skipped := true, waitFrom := none })

/-- A producer index passes R47's check against the fetch index. -/
def RingSt.producerOk (x : RingSt) (v : Nat) : Bool := decide (indexDiff v x.fetched ≤ x.size)

/-- A ring's doorbell slot has been read. -/
def State.seeProducer (s : State) (r v : Nat) : State :=
  let x := s.ring r
  if x.isStopped then s.setRing r { x with seen := v }
  else if x.producerOk v then s.setRing r ({ x with seen := v, produced := v } : RingSt).settle
  else (s.setRing r { x with seen := v }).stopUnfetched r (failNone stDoorbellInvalid 0)

/-- A RUNNING or IDLE ring is paused. While it is PAUSED, `waitFrom` holds the length of its head's wait so far, since
the pause does not count (R77, R502). -/
def RingSt.pause (x : RingSt) (now : Word64) : RingSt :=
  if x.state = .running ∨ x.state = .idle then
    { x with state := .paused, before := x.state, waitFrom := x.waitFrom.map (fun w => now - w) }
  else x

/-- A ring that has left STOPPED while a live change drains its field is paused at once (R77, R502). -/
def State.pauseDrained (s : State) (r : Nat) : State :=
  if r ≠ 0 ∧ s.epoch.active ∧ !s.epoch.waiting ∧ s.epoch.drained.contains (s.ring r).field then
    s.modRing r (fun x => x.pause s.time)
  else s

/-- A flushed ring becomes IDLE once none of its clauses is outstanding; the latest value read from its slot is then
compared as R45 compares, so that no posted clause is missed (R45, R47, R77, R79). -/
def State.tryIdle (s : State) (r : Nat) : State :=
  let x := s.ring r
  if x.flushing ∧ !x.clauses.any ClauseSt.outstanding then
    let s1 := s.setRing r ({ x.become .idle with flushing := false, stopAt := 0 } : RingSt).settle
    ((s1.seeProducer r x.seen).pauseDrained r).fencesDone r
  else s

/-- A closing ring closes once no clause of it is outstanding (R79). -/
def State.tryClose (s : State) (r : Nat) : State :=
  if (s.ring r).closing ∧ !(s.ring r).clauses.any ClauseSt.outstanding then s.closeNow r else s.tryIdle r

/-! ### The non-finite flag (R141) -/

/-- The step owner of a field (R327). -/
def State.ownerOf (s : State) (f : Nat) : Option Nat := (s.fieldOf f).map (·.owner)

/-- A non-finite contribution to the step of a ring's field. -/
def State.raiseNf (s : State) (r : Nat) : State :=
  match s.ownerOf (s.ring r).field with
  | some o => match s.stepOf o with
    | some st => s.setStep o { st with nf := true }
    | none => s
  | none => s

/-- VEC_NF and VEC_SAT of a core and context (R142). -/
def vecCtr (core : Nat) (paren : Bool) (off : Nat) : Nat := 0x500000 + 0x1000 * core + off + (if paren then 8 else 0)
def State.countElems (s : State) (core : Nat) (paren : Bool) (nonFinite saturated : Nat) : State :=
  (s.ctrAdd (vecCtr core paren 0x10) nonFinite).ctrAdd (vecCtr core paren 0x20) saturated

/-- Elements of a failing clause that no share has counted yet: the first share still out counts them, and the
contribution is raised (R140, R141). -/
def State.countFailed (s : State) (r : Nat) (c : ClauseSt) : State :=
  let s1 := match c.shares with
    | core :: _ => s.countElems core (s.ring r).ctx.paren c.nonFinite c.saturated
    | [] => s
  if c.nonFinite = 0 then s1 else s1.raiseNf r

/-! ### The order of near-bank jobs in a vault (06 R191) -/

/-- Near-bank job that the vault's engines serve: the first not finished there (R191). -/
def VaultSt.activeJob (v : VaultSt) : Option NbeJob := v.jobs.find? (fun j => decide (j.stage < 4))
def VaultSt.modJob (v : VaultSt) (ring index : Nat) (f : NbeJob → NbeJob) : VaultSt :=
  { v with jobs := v.jobs.map (fun j => if j.ring = ring ∧ j.index = index then f j else j) }

/-- The first waiting job of a vault begins its staging. -/
def VaultSt.beginStaging (v : VaultSt) : VaultSt :=
  match v.activeJob with
  | some j => if j.stage = 0 then v.modJob j.ring j.index (fun x => { x with stage := 1 }) else v
  | none => v

/-! ### Shares at the cores (R116, R125) -/

/-- A core's RUN after its queues have changed (R125): a main share makes an admitted parenthetical context yield. -/
def CoreSt.settleRun (c : CoreSt) : CoreSt :=
  if c.run = 0 ∧ c.qMain ≠ [] then { c with run := 1 }
  else if c.run = 1 ∧ c.qMain = [] then { c with run := 0 }
  else if c.run = 2 ∧ c.qParen = [] then { c with run := if c.qMain = [] then 0 else 1 }
  else if c.run = 3 ∧ c.qMain = [] then { c with run := 0 }
  else c

/-- A share reaches a core. -/
def CoreSt.takeShare (c : CoreSt) (paren : Bool) (r index : Nat) : CoreSt :=
  if paren then ({ c with qParen := c.qParen ++ [(r, index)] } : CoreSt).settleRun
  else ({ c with qMain := c.qMain ++ [(r, index)], run := if c.run = 2 then 3 else c.run } : CoreSt).settleRun
def CoreSt.room (c : CoreSt) (paren : Bool) : Bool := decide ((if paren then c.qParen else c.qMain).length < 4)

/-- An earlier clause of the ring still waits to send its share to the core: shares of one ring reach a core in slot
order (R116). -/
def RingSt.waitsBefore (x : RingSt) (index core : Nat) : Bool :=
  (x.clauses.takeWhile (fun c => decide (c.index ≠ index))).any (fun c => c.unsent.contains core)

/-- The share of a clause for one core is sent through the core's gateway, or waits for room, for the ring's earlier shares,
and for a control link whose traffic moves (R116, R253, R254). -/
def State.sendShare (s : State) (r index core : Nat) : State :=
  let paren := (s.ring r).ctx.paren
  if (s.core core).room paren && !(s.ring r).waitsBefore index core && !s.controlHeld core then
    (s.modCore core (fun c => c.takeShare paren r index)).modRing r (fun R => R.modClause index (fun c =>
      { c with shares := insSet core c.shares, unsent := delSet core c.unsent }))
  else s.modRing r (fun R => R.modClause index (fun c => { c with unsent := insSet core c.unsent }))

/-- The oldest share waiting for a core in a context. -/
def State.nextUnsent (s : State) (core : Nat) (paren : Bool) : Option (Nat × Nat) :=
  let all := s.rings.flatMap (fun e =>
    if e.2.ctx.paren = paren then e.2.clauses.filterMap (fun c => if c.unsent.contains core then some (c.order, e.1, c.index) else none)
    else [])
  (all.foldl (fun (best : Option (Nat × Nat × Nat)) x => match best with
    | some b => if x.1 < b.1 then some x else some b
    | none => some x) none).map (·.2)

/-- The oldest waiting share goes to a core where one has left. -/
def State.sendNext (s : State) (core : Nat) (paren : Bool) : State :=
  match s.nextUnsent core paren with
  | some q => s.sendShare q.1 q.2 core
  | none => s

/-- Shares that a control link held are sent (R253). -/
def State.sendHeldShares (s : State) : State :=
  (List.range 256).foldl (fun t n => (List.range 4).foldl (fun u _ => (u.sendNext n false).sendNext n true) t) s

/-! ### Host writes into the storage of outstanding clauses (R70, R159) -/

/-- The walk of a DVA's page reads a byte of [a, a + n) of the translation region (R154, R159). -/
def State.walkOver (s : State) (dva a n : Nat) : Bool :=
  let hit (e : Nat) : Bool := decide (e < a + n) && decide (a < e + 8)
  let l1 := s.ptBase + 8 * bits dva 47 30
  s.ptBytes ≠ 0 && (hit l1 || (bitAt (s.dpaWord l1) 0 && hit (bits (s.dpaWord l1) 37 12 * 2 ^ 12 + 8 * bits dva 29 21)))

/-- The pieces of [dva, dva + len), as offset and length, whose bytes a write of [a, a + n) of the vaults changes: those
that lie there, and the pages whose walk reads there (R70, R159). -/
def State.piecesOver (s : State) (place dva len a n : Nat) (stored : Bool) : List (Nat × Nat) :=
  let here := if stored then (flitPieces dva len).filterMap (fun p => match s.translate place p.1 with
    | some (.dram d) => if d < a + n ∧ a < d + p.2 then some (p.1 - dva + (max a d - d), min (a + n) (d + p.2) - max a d) else none
    | _ => none) else []
  let pages := if len ≠ 0 && s.ptBase < a + n && a < s.ptBase + s.ptBytes then
    (List.range ((dva + len - 1) / 2 ^ 21 - dva / 2 ^ 21 + 1)).filterMap (fun i =>
      let page := (dva / 2 ^ 21 + i) * 2 ^ 21
      if s.walkOver page a n then some (max page dva - dva, min (page + 2 ^ 21) (dva + len) - max page dva) else none) else []
  here ++ pages

/-- The storage positions of a noun, first and count, whose bytes or scale the pieces of a write change. -/
def State.positionsOver (s : State) (x : Noun) (a n : Nat) (stored : Bool) : List (Nat × Nat) :=
  let w := formatBits x.format
  let data := (s.piecesOver x.place x.dva (min x.length x.storageBytes) a n stored).map (fun p =>
    (8 * p.1 / w, (8 * (p.1 + p.2) + w - 1) / w - 8 * p.1 / w))
  let scales := if x.scaled then s.piecesOver x.place x.scaleDva (ceilDiv x.count 32) a n stored else []
  -- a scale byte touches the 32 elements of its block
  data ++ scales.flatMap (fun p => (List.range p.2).flatMap (fun i => (List.range 32).map (fun e => (x.posOf (32 * (p.1 + i) + e), 1))))

/-- A host write into storage that an outstanding clause reads or writes, or into the translation of its pages, leaves
what depends on it unspecified (R70, R159). The weights of a near-bank clause follow R200 instead. -/
def State.taint (s : State) (a n : Nat) : State :=
  let hit := s.rings.flatMap (fun e => (e.2.clauses.filter ClauseSt.outstanding).flatMap (fun c => c.nouns.flatMap (fun x =>
    (s.positionsOver x.2 a n (!(clVerb c.bits == verbNearBank && x.2.place == 3))).map (fun p =>
      { ring := e.1, index := c.index, slot := x.1, first := p.1, count := p.2 : Taint }))))
  { s with tainted := hit.foldl (fun l x => if l.contains x then l else x :: l) s.tainted }

end Sys2Proof.Machine
end

