-- ==== Sys2Proof/Machine/Quota.lean ====
section
/-! DEFINITION. Parameter-set entries (10 R321), sequence-table entries (07 R216), and the memory quotas that both count
against (R343, R344). -/

namespace Sys2Proof.Machine

/-! ### Parameter-set entries (R318, R321) -/

structure Pset where
  algo    : Nat
  slow    : Bool
  cur     : Bool
  valid   : Bool
  wsr     : Bool
  wformat : Nat
  field   : Nat
  delay   : Nat
  wnoun   : Nat
  rows    : Nat
  cols    : Nat
  lr      : Word32
  beta1   : Word32
  beta2   : Word32
  eps     : Word32
  wd      : Word32
  seed    : Word32
  t0      : Word32
  t1      : Word32
  dvas    : List Nat      -- MASTER0, MASTER1, M0, M1, V0, V1, W0, W1
  gstage  : Nat
  applied : Word32
  malformed : Bool
deriving DecidableEq, Repr

/-- A parameter-set entry from its 128 bytes. -/
def parsePset (e : Nat) : Pset :=
  let f (off hi lo : Nat) : Nat := bits e (8 * off + hi) (8 * off + lo)
  let w (off : Nat) : Word32 := BitVec.ofNat 32 (f off 31 0)
  let wf := f 0 15 8
  { algo := f 0 1 0, slow := bitAt e 2, cur := bitAt e 3, valid := bitAt e 4, wsr := bitAt e 5, wformat := wf
    field := f 0 21 16, delay := f 0 24 22, wnoun := f 4 19 0, rows := f 8 31 0, cols := f 0xC 31 0
    lr := w 0x10, beta1 := w 0x14, beta2 := w 0x18, eps := w 0x1C, wd := w 0x20, seed := w 0x24, t0 := w 0x28
    t1 := w 0x2C, dvas := (List.range 8).map (fun i => f (0x30 + 8 * i) 47 0), gstage := f 0x70 47 0
    applied := w 0x78
    malformed := f 0 1 0 == 3 || f 0 7 6 ≠ 0 || f 0 31 25 ≠ 0 || decide (4 < f 0 24 22)
      || !(wf == 1 || (decide (3 ≤ wf) && decide (wf ≤ 0xA))) || f 4 31 20 ≠ 0
      || (List.range 9).any (fun i => f (0x30 + 8 * i) 63 48 ≠ 0) || f 0x7C 31 0 ≠ 0 }

/-- Elements of the set. -/
def Pset.count (p : Pset) : Nat := p.rows * p.cols
/-- The second moment is kept as row and column factors (R321, R324). -/
def Pset.factored (p : Pset) : Bool := p.algo == 2 && decide (2 ≤ p.rows) && decide (2 ≤ p.cols)
/-- FP32 words of v: none for SGD with momentum (R318, R324). -/
def Pset.vWords (p : Pset) : Nat := if p.algo = 0 then 0 else if p.factored then p.rows + p.cols else p.count
/-- DVA of a banked copy: 0 MASTER, 1 M, 2 V, 3 W. -/
def Pset.dva (p : Pset) (copy bank : Nat) : Nat := p.dvas.getD (2 * copy + bank) 0
def Pset.bank (p : Pset) : Nat := flag p.cur
def Pset.tOf (p : Pset) (bank : Nat) : Word32 := if bank = 0 then p.t0 else p.t1

/-- The DPA of entry i, the entry's bytes, and whether it is poisoned. -/
def State.psetDpa (s : State) (i : Nat) : Nat := s.applied.psetBase.toNat * 2 ^ 21 + 128 * i
def State.psetBytes (s : State) (i : Nat) : Nat := leNat (s.dpaRead (s.psetDpa i) 128)
def State.psetPoison (s : State) (i : Nat) : Bool := s.dpaPoison (s.psetDpa i) 128

/-- The mode of the page that holds a DVA; 8 where no entry is valid (R156, R322). -/
def State.dvaMode (s : State) (dva : Nat) : Nat :=
  match s.pageEntry dva with
  | some e => if bitAt e 0 then bits e 3 1 else 8
  | none => 8

/-- A tensor of FP32 words at a DVA, in the mode of its first page. -/
def State.wordsNoun (s : State) (dva n : Nat) : Noun :=
  { Noun.unused with dva := dva, place := s.dvaMode dva, layout := 0, format := 0, rank := 1, valid := true
                     dims := [n, 1, 1, 1, 1, 1], length := 4 * n }

/-- Bytes of the data of a working bank in WNOUN's layout, and of the whole bank (R321). -/
def workData (wn : Noun) : Nat := wn.storageBytes
def roundUp (m n : Nat) : Nat := m * ceilDiv n m
def workBytes (wn : Noun) : Nat := if isMx wn.format then roundUp 64 (workData wn) + ceilDiv wn.count 32 else workData wn

/-- A region of a set: its DVA, its bytes, and whether it may lie in device memory and in host memory (R318). -/
structure Region where
  dva    : Nat
  bytes  : Nat
  device : Bool
  host   : Bool
deriving DecidableEq, Repr

/-- The regions of a set (R318, R321). -/
def Pset.regions (p : Pset) (wn : Noun) : List Region :=
  let state (copy words : Nat) : List Region :=
    if words = 0 then []
    else if p.slow then [{ dva := p.dva copy 0, bytes := 4 * words, device := false, host := true }]
    else (List.range 2).map (fun b => { dva := p.dva copy b, bytes := 4 * words, device := true, host := false })
  state 0 p.count ++ state 1 p.count ++ state 2 p.vWords
    ++ (List.range 2).map (fun b => { dva := p.dva 3 b, bytes := workBytes wn, device := true, host := false })
    ++ (if p.slow then [{ dva := p.gstage, bytes := 4 * p.count * (p.delay + 1), device := true, host := true }] else [])

/-- The regions that an update writes, fast or slow: the bank that is not current, of the states where they are fast and
of the working copy (R318, R319). -/
def Pset.pendingRegions (p : Pset) (wn : Noun) (states : Bool) : List Region :=
  let copy (k words : Nat) : List Region :=
    if words = 0 || !states then [] else [{ dva := p.dva k (1 - p.bank), bytes := 4 * words, device := true, host := false }]
  copy 0 p.count ++ copy 1 p.count ++ copy 2 p.vWords
    ++ [{ dva := p.dva 3 (1 - p.bank), bytes := workBytes wn, device := true, host := false }]
/-- The regions that an APPLY writes: of a slow set the gradient stage (R318). -/
def Pset.applyRegions (p : Pset) (wn : Noun) : List Region :=
  if p.slow then [{ dva := p.gstage, bytes := 4 * p.count * (p.delay + 1), device := true, host := true }] else p.pendingRegions wn true

/-- A region of a set reaches into a region that a near-bank clause locks (R200). -/
def State.regionsLocked (s : State) (r index : Nat) (gs : List Region) : Bool :=
  gs.any (fun g => s.rangeLocked r index (s.dvaMode g.dva) g.dva g.bytes)

/-! ### Sequence entries (R216) -/

structure SeqEntry where
  length : Nat
  state  : Nat
  format : Nat
  cap    : Nat
  gen    : Nat
  owner  : Nat
  dir    : Nat
  base   : Nat
  count  : Nat
  heads  : Nat
deriving DecidableEq, Repr

def parseSeq (e : Nat) : SeqEntry :=
  { length := bits e 23 0, state := bits e 27 24, format := bits e 31 28, cap := bits e 47 32, gen := bits e 55 48
    owner := bits e 61 56, dir := bits e 111 64, base := bits e 135 128, count := bits e 143 136, heads := bits e 151 144 }

def State.seqDpa (s : State) (i : Nat) : Nat := s.applied.seqBase.toNat * 2 ^ 25 + 32 * i
def State.seqEntry (s : State) (i : Nat) : SeqEntry := parseSeq (leNat (s.dpaRead (s.seqDpa i) 32))
def SeqEntry.isOpen (e : SeqEntry) : Bool := e.state == 1

/-! ### Usage (R343) -/

/-- Indices of the noun table whose entry has VALID set: bit 3 of byte 9. -/
def State.validNouns (s : State) : List Nat :=
  let base := s.nounDpa 0
  s.dram.cells.filterMap (fun c =>
    if base ≤ c.1 ∧ c.1 < base + 2 ^ 26 ∧ (c.1 - base) % 64 = 9 ∧ c.2.getLsbD 3 then some ((c.1 - base) / 64) else none)

/-- Indices of the parameter-set table whose entry has VALID set: bit 4 of byte 0. -/
def State.validPsets (s : State) : List Nat :=
  let base := s.psetDpa 0
  if s.applied.psetEn then
    s.dram.cells.filterMap (fun c =>
      if base ≤ c.1 ∧ c.1 < base + 2 ^ 21 ∧ (c.1 - base) % 128 = 0 ∧ c.2.getLsbD 4 then some ((c.1 - base) / 128) else none)
  else []

/-- Bytes of device memory that count against field f. -/
def State.usage (s : State) (f : Nat) : Nat :=
  sumOf (s.validNouns.map (fun i =>
    let n := s.readNoun i
    if n.owner = f ∧ n.place ≠ 4 then roundUp 64 n.length else 0))
  + sumOf (s.validPsets.map (fun i =>
    let p := parsePset (s.psetBytes i)
    if p.field = f then
      sumOf ((p.regions (s.readNoun p.wnoun)).map (fun g => if s.dvaMode g.dva = 4 then 0 else g.bytes))
    else 0))
  + 32768 * (s.kvm.used.filter (fun u => (s.seqEntry u.2).isOpen && (s.seqEntry u.2).owner == f)).length

/-- The field's usage exceeds its quota. -/
def State.overQuota (s : State) (f : Nat) : Bool :=
  match s.fieldOf f with
  | some x => decide (x.quota < s.usage f)
  | none => false

/-- The latches of R344 are brought up to date. `loud`: a crossing raises an event. -/
def State.checkQuotas (s : State) (loud : Bool) : State :=
  (Tbl.keys s.fields).foldl (fun t f =>
    match t.fieldOf f with
    | some x =>
      let above := t.overQuota f
      if above = x.overQuota then t
      else
        let t1 := t.setField f { x with overQuota := above }
        if above && loud then t1.event .quota none 0 f (some f) stQuotaExceeded [BitVec.ofNat 64 (t.usage f)] else t1
    | none => t) s

end Sys2Proof.Machine
end

