-- ==== Sys2Proof/Machine/Repair.lean ====
section
/-! DEFINITION. The counters of a vault, the tables of correctable errors, and page repair (05 R162, R178; 14 R455 to R464,
R479). -/

namespace Sys2Proof.Machine

/-! ### Counters of a vault (R178, R479) -/

def vltCtr (n off : Nat) : Nat := 0x700000 + 0x1000 * n + off
def vltRdBursts (n : Nat) : Nat := vltCtr n 0x08
def vltWrBursts (n : Nat) : Nat := vltCtr n 0x10
def vltCombined (n : Nat) : Nat := vltCtr n 0x18
def vltCacheHit (n : Nat) : Nat := vltCtr n 0x20
def vltCacheMiss (n : Nat) : Nat := vltCtr n 0x28
def vltCrcRepeat (n : Nat) : Nat := vltCtr n 0x30
def vltHostPromoted (n : Nat) : Nat := vltCtr n 0x38
def vltRefDebtMax (n : Nat) : Nat := vltCtr n 0x40
def errVlt (n off : Nat) : Nat := 0x1120000 + 0x40 * n + off
def errCeBursts (n : Nat) : Nat := errVlt n 0x00
def errRepairs (n : Nat) : Nat := errVlt n 0x08
def errUeFlits (n : Nat) : Nat := errVlt n 0x10
def errPoisonReads (n : Nat) : Nat := errVlt n 0x18

/-! ### The tables of correctable errors (R463, R464) -/

def CeEntry.key (e : CeEntry) : Nat × Nat × Nat × Nat := (e.vault, e.tier, e.bank, e.row)
/-- The 16 bytes of an entry (R479): low and high half. -/
def CeEntry.words (e : CeEntry) : List Word64 :=
  [BitVec.ofNat 64 (e.row + 2 ^ 12 * e.tier + 2 ^ 15 * e.bank + 2 ^ 19 * e.vault + 2 ^ 27 + 2 ^ 28 * flag e.word
      + 2 ^ 29 * flag e.page + 2 ^ 32 * e.count), e.last]

/-- Two events of one key together. -/
def CeEntry.merge (a b : CeEntry) : CeEntry :=
  { a with word := a.word || b.word, page := a.page || b.page, count := min (2 ^ 32 - 1) (a.count + b.count)
           last := if a.last.toNat < b.last.toNat then b.last else a.last }

/-- The entry with the lowest COUNT, the oldest LAST among ties. -/
def lowestEntry (l : List CeEntry) : Option CeEntry :=
  l.foldl (fun (best : Option CeEntry) e => match best with
    | none => some e
    | some b => if e.count < b.count ∨ (e.count = b.count ∧ e.last.toNat < b.last.toNat) then some e else some b) none

/-- An entry joins a table of at most `size` entries: into its key's entry, a free one, or in place of the lowest. The
entry that made way comes second. -/
def joinTable (size : Nat) (l : List CeEntry) (e : CeEntry) : List CeEntry × Option CeEntry :=
  if l.any (fun x => x.key == e.key) then (l.map (fun x => if x.key = e.key then x.merge e else x), none)
  else if l.length < size then (l ++ [e], none)
  else match lowestEntry l with
    | some b => (l.filter (fun x => decide (x.key ≠ b.key)) ++ [e], some b)
    | none => ([e], none)

/-- An entry is merged into the device summary (R464). -/
def State.mergeSummary (s : State) (e : CeEntry) : State :=
  { s with err := { s.err with summary := (joinTable 1024 s.err.summary e).1 } }

/-- What a memory event says of the burst at an address (R473). -/
def memoryAt (dpa type : Nat) : MemoryError :=
  let p := decodeStandard dpa
  { dpa := dpa, vault := p.vault, tier := p.tier, bank := p.bank, row := p.row, burst := p.burst, type := type }

/-- An event of a vault's table: a word correction or a page repair, in the burst at an address, by a scrub or not (R463,
R473). -/
def State.ceEvent (s : State) (vault row tier bank : Nat) (page : Bool) (dpa : Nat) (scrub : Bool) : State :=
  let e : CeEntry := { vault := vault, tier := tier, bank := bank, row := row, word := !page, page := page, count := 1, last := s.time }
  let j := joinTable 32 (Tbl.get [] s.err.tables vault) e
  let s1 := match j.2 with
    | some b => s.mergeSummary b
    | none => s
  match j.1.find? (fun x => x.key == e.key) with
  | some x =>
    if s.err.thresh.toNat ≤ x.count then
      let s2 := { s1 with err := { s1.err with tables := Tbl.put [] s1.err.tables vault (j.1.filter (fun y => decide (y.key ≠ x.key))) } }
      (s2.mergeSummary x).memoryEvent .ceThreshold 1 vault x.words (memoryAt dpa (if scrub then 13 else if page then 5 else 2))
    else { s1 with err := { s1.err with tables := Tbl.put [] s1.err.tables vault j.1 } }
  | none => s1

/-! ### Page repair (R458, R459) -/

/-- A row is repaired, by a scrub or not: rewritten, logged, and its newly poisoned flits reported. The burst that its
events name is that of the first word in error, or the row's first (DESIGN CHOICE, log 68). -/
def State.repairRow (s : State) (key : Nat) (scrub : Bool) : State :=
  let d := s.dram.decodeRow key
  let vault := key / 128 / 3072
  let row := key / 128 % 3072
  let s1 := { s with dram := s.dram.repairRow key }
  let at_ := rowDpa key (((s.dram.badWords key).map (·.1)).headD 0 / 64 * 64)
  let s2 := ((s1.ctrAdd (errRepairs vault) 1).ctrAdd (errUeFlits vault) d.poisoned.length).ceEvent vault row (key / 16 % 8) (key % 16) true at_ scrub
  if d.poisoned.isEmpty then s2
  else s2.memoryEvent .flitsPoisoned 2 vault
    [BitVec.ofNat 64 key, BitVec.ofNat 64 (d.poisoned.foldl (fun n f => n + 2 ^ f) 0)]
    (memoryAt (rowDpa key (d.poisoned.headD 0 / 2 * 64)) (if scrub then 14 else 3))

/-- ST[7:6] of a read burst: 0 no correction, 1 one or two words corrected, 2 more, 3 an uncorrectable word (R162). -/
def Dram.burstStatus (d : Dram) (burst : Nat) : Nat :=
  let l := d.checks.filter (fun e => e.1 / 16 == burst)
  if l.any (fun e => (wordFix e.2.toNat).isNone) then 3 else if 2 < l.length then 2 else if l.isEmpty then 0 else 1
/-- A read burst with one or two corrected words is counted and logged (R463, R479). -/
def State.ceBurst (s : State) (dpa : Nat) : State :=
  let p := decodeStandard dpa
  (s.ctrAdd (errCeBursts p.vault) 1).ceEvent p.vault p.row p.tier p.bank false dpa false

/-- The vault of a row, its tier and bank. -/
def rowVault (key : Nat) : Nat := key / 128 / 3072
def rowTier (key : Nat) : Nat := key / 16 % 8

/-- A row in which a read found what a page repair is for, or whose parity a scrub finds inconsistent (R458). -/
def Dram.rowBad (d : Dram) (key : Nat) : Bool :=
  (d.badWords key).any (fun w => d.burstBad (rowDpa key w.1 / 64)) || Tbl.get noParity d.parity key ≠ noParity

/-- A repair of a row may start: DESIGN CHOICE (log 56), a vault controller repairs one row at a time; and the tier's
refresh debt is below 7 (R458). -/
def State.repairFree (s : State) (key : Nat) : Bool :=
  (s.vault (rowVault key)).repair.isNone && decide ((s.tier (rowVault key) (rowTier key)).debt < 7)
/-- The repair of a row starts where it may: its bank is held (R458). -/
def State.startRepair (s : State) (key : Nat) : State :=
  if s.repairFree key then s.modVault (rowVault key) (fun v => { v with repair := some key }) else s

end Sys2Proof.Machine
end

