-- ==== Sys2Proof/Machine/Requests.lean ====
section
/-! DEFINITION. Requests at a vault: the vault cache (05 R147 to R149), banks that are held (R166, R172, R175, R199,
R458), and the serving of host requests (14 R460, R461, R465, R489). -/

namespace Sys2Proof.Machine

/-! ### The vault cache (R147, R148, R176) -/

/-- The way that the tree points to, and the tree once a way has been used: node bits point away from the last use. -/
def treeVictim (t : BitVec 7) : Nat :=
  let a := flag (t.getLsbD 0)
  let b := flag (t.getLsbD (1 + a))
  let c := flag (t.getLsbD (3 + 2 * a + b))
  4 * a + 2 * b + c
def treeUse (t : BitVec 7) (w : Nat) : BitVec 7 :=
  let put (x : BitVec 7) (i : Nat) (v : Bool) : BitVec 7 := if v then x ||| BitVec.ofNat 7 (2 ^ i) else x &&& ~~~ (BitVec.ofNat 7 (2 ^ i))
  put (put (put t 0 (w < 4)) (1 + w / 4) (w / 2 % 2 = 0)) (3 + w / 2) (w % 2 = 0)

/-- A lookup of a line that may allocate: the set afterwards, and whether it hit. Of a set with invalid ways R147 does not
say which fills first: DESIGN CHOICE (log 66), the lowest. -/
def CacheSet.look (c : CacheSet) (line : Nat) (allocate : Bool) : CacheSet × Bool :=
  match (c.ways.zipIdx).find? (fun w => w.1 == some line) with
  | some w => ({ c with tree := treeUse c.tree w.2 }, true)
  | none =>
    if allocate then
      let w := match (c.ways.zipIdx).find? (fun x => x.1.isNone) with
        | some x => x.2
        | none => treeVictim c.tree
      ({ ways := setAt c.ways w (some line), tree := treeUse c.tree w }, false)
    else (c, false)

/-- k reads of a line look up the cache of its vault, and may allocate it: the line is then copied into the slice (R147,
R148). The answer says whether they hit. -/
def State.cacheRead (s : State) (dpa : Nat) (allocate : Bool) (k : Nat) : State × Bool :=
  let n := dpa / Config.vaultBytes
  if s.cacheOn n then
    let set := bits dpa 17 6
    let r := (Tbl.get CacheSet.empty s.caches (4096 * n + set)).look (dpa / 64) allocate
    let s1 := { s with caches := Tbl.put CacheSet.empty s.caches (4096 * n + set) r.1 }
    let s2 := if r.2 then s1
      else match (r.1.ways.zipIdx).find? (fun w => w.1 == some (dpa / 64)) with
        | some w => s1.playaWrite n (cacheSlot set w.2) (s.bankRead (dpa / 64 * 64) 64) false
        | none => s1
    (s2.ctrAdd (if r.2 then vltCacheHit n else vltCacheMiss n) k, r.2)
  else (s, false)

/-- Every line of a column's cache is invalid. -/
def State.dropCache (s : State) (n : Nat) : State := { s with caches := s.caches.filter (fun e => decide (e.1 / 4096 ≠ n)) }

/-! ### Banks that are held -/

/-- The bank p = 16 × tier + bank of a DPA in its vault (R179). -/
def bankOf (dpa : Nat) : Nat := 16 * (decodeStandard dpa).tier + (decodeStandard dpa).bank

/-- A request to a DPA must wait: an engine's step, a page repair, a refresh, a stopped sub-channel, a move. -/
def State.bankHeld (s : State) (dpa : Nat) : Bool :=
  let n := dpa / Config.vaultBytes
  let v := s.vault n
  let p := decodeStandard dpa
  (s.engine n (bankOf dpa)).token
    || (match v.repair with
        | some key => key % 128 == bankOf dpa
        | none => false)
    || (s.tier n p.tier).refreshing || v.stopped.contains (p.bank / 2) || v.moving

/-- A read finds its line in the vault's cache, and reaches no bank. -/
def State.readHits (s : State) (dpa : Nat) : Bool := (s.cachedAt dpa).isSome
/-- A read of the burst has to wait for a page repair first (R162, R458). -/
def State.readRepairs (s : State) (dpa : Nat) : Bool :=
  !s.readHits dpa && !s.vaultRetired (dpa / Config.vaultBytes) && s.dram.burstBad (dpa / 64)

/-! ### Serving -/

/-- A line as a host read returns it, and its poison; a retired vault, and one whose side port is dead, return poison
(R176, R489). -/
def State.lineOf (s : State) (dpa : Nat) : List Byte × Bool :=
  let a := dpa / 64 * 64
  let n := dpa / Config.vaultBytes
  (s.dpaRead a 64, s.dpaPoison a 64 || s.vaultRetired n || (s.vault n).sideDead)

/-- A host read is answered; what the codes corrected in it is counted (R145, R463). -/
def State.serveRead (s : State) (dpa : Nat) : State :=
  let n := dpa / Config.vaultBytes
  let l := s.lineOf dpa
  let s0 := match s.cachedAt (dpa / 64 * 64) with
    | some c => s.playaSeen c.1 c.2 64
    | none => if s.dram.burstStatus (dpa / 64) = 1 then s.ceBurst dpa else s
  let c := s0.cacheRead dpa (!l.2) 1
  let s1 := if c.2 then c.1 else c.1.ctrAdd (vltRdBursts n) 1
  let s2 := if l.2 then s1.ctrAdd (errPoisonReads n) 1 else s1
  s2.answer (.data (dpa / 64 * 64) l.1 l.2)

/-- Tables in device memory whose writes change a field's usage (R343). -/
def State.quotaTable (s : State) (a n : Nat) : Bool :=
  let hit (base size : Nat) : Bool := decide (a < base + size) && decide (base < a + n)
  hit (s.nounDpa 0) (2 ^ 26) || (s.applied.psetEn && hit (s.psetDpa 0) (2 ^ 21)) || (s.applied.seqEn && hit (s.seqDpa 0) (2 ^ 25))

/-- Sequence entries that a write touches (R216, R217). -/
def State.seqTouched (s : State) (a n : Nat) : List Nat :=
  let base := s.seqDpa 0
  if s.applied.seqEn && n ≠ 0 && decide (a < base + 2 ^ 25) && decide (base < a + n) then
    let lo := (max a base - base) / 32
    let hi := (min (a + n) (base + 2 ^ 25) - 1 - base) / 32
    (List.range (hi - lo + 1)).map (· + lo)
  else []

/-- Some entry of the sequence table that a write touches is not FREE (R217). -/
def State.seqGuarded (s : State) (dpa n : Nat) : Bool := (s.seqTouched dpa n).any (fun i => (s.seqEntry i).state ≠ 0)

/-- A host write that touches an entry in use is dropped, counted in `KVM_HOST_WR_DROP` and told (R217). -/
def State.dropSeqWrite (s : State) (dpa : Nat) : State :=
  ((s.ctrAdd 0x900048 1).event .kvHostWrite none 0 0 none 0 [BitVec.ofNat 64 dpa]).answer (.done dpa)

/-- Cached noun, chain and sequence entries that a CXL.mem write of [a, a + n) touches leave their caches (R60, R135,
R218). -/
def State.dropEntries (s : State) (a n : Nat) : State :=
  let hit (base size : Nat) : Bool := decide (base < a + n) && decide (a < base + size)
  let touched := s.seqTouched a n
  { s with
    cmd := { s.cmd with
      nouns := s.cmd.nouns.filter (fun e => !hit (s.nounDpa e.1) 64)
      chains := s.cmd.chains.filter (fun e => !hit (s.applied.chainBase.toNat * 2 ^ 20 + 256 * e.1) 256) }
    kvm := { s.kvm with cache := s.kvm.cache.filter (fun i => !touched.contains i) } }

/-- A line is poisoned, in its bank and where the cache of its vault holds it (R461). -/
def State.poisonLine (s : State) (a : Nat) : State :=
  let t := { s with dram := { s.dram with poison := Poison.set s.dram.poison a 64 true } }
  match t.cachedAt a with
  | some c => t.playaTaint c.1 c.2 64
  | none => t

/-- A host write is stored: whole line poisoned where it carries poison (R461), combining entries of its burst closed
(R160), quotas brought up to date (R343); one that meets a sequence entry in use by now is dropped (R217), and a retired
vault, and one whose side port is dead, discard it (R176, R489). A write that hits the vault cache changes its line and is
no use of it in the tree (R147 names no order for writes: DESIGN CHOICE, log 66). -/
def State.serveWrite (s : State) (dpa : Nat) (bs : List Byte) (poison : Bool) : State :=
  let n := dpa / Config.vaultBytes
  let a := dpa / 64 * 64
  let dead := s.vaultRetired n || (s.vault n).sideDead
  if dead then (if s.vaultRetired n then s.ctrAdd (errPoisonReads n) 1 else s).answer (.done dpa)
  else if s.seqGuarded dpa bs.length then s.dropSeqWrite dpa
  else
    let s1 := (s.taint dpa bs.length).dpaWrite dpa bs poison
    let s2 := if poison then s1.poisonLine a else s1
    let s4 := s2.dropEntries dpa bs.length
    let s5 := (s4.ctrAdd (vltWrBursts n) 1).answer (.done dpa)
    if s5.quotaTable dpa bs.length then s5.checkQuotas true else s5

/-- The 16 raw words of a burst are read or written as the checker registers hold them (R465). -/
def State.serveRaw (s : State) (w : Waiting) : State :=
  match w with
  | .rawWrite a keep =>
    let d := (List.range 16).foldl (fun (x : Dram) i =>
      let new := (s.err.chkData.getD i 0).toNat
      let cb := (s.err.chkCb.getD i 0).toNat
      let at_ := a + 4 * i
      let old := leNat (Cells.readRange x.cells at_ 4)
      let key := rowOfDpa at_
      { x with
        cells := Cells.write x.cells at_ (natLe 4 new)
        checks := Tbl.put 0 x.checks (at_ / 4) (BitVec.ofNat 7 (Nat.xor cb (wordCheck new)))
        parity := if keep then x.parity
          else Tbl.put noParity x.parity key (parityFlipWord (Tbl.get noParity x.parity key) (rowByte at_) (Nat.xor old new)) }) s.dram
    let p := Poison.set (Poison.set d.poison a 32 (s.err.chkPoison.getLsbD 0)) (a + 32) 32 (s.err.chkPoison.getLsbD 1)
    { s with dram := { d with poison := p }, err := { s.err with chkBusy := false } }
  | .rawRead a =>
    let word (i : Nat) : Nat := leNat (Cells.readRange s.dram.cells (a + 4 * i) 4)
    { s with err := { s.err with
      chkBusy := false
      chkData := (List.range 16).map (fun i => BitVec.ofNat 32 (word i))
      chkCb := (List.range 16).map (fun i => BitVec.ofNat 7 (wordCheck (word i)) ^^^ Tbl.get 0 s.dram.checks ((a + 4 * i) / 4))
      chkPoison := BitVec.ofNat 2 (flag (Poison.any s.dram.poison a 32) + 2 * flag (Poison.any s.dram.poison (a + 32) 32)) } }
  | _ => s

def Waiting.dpa : Waiting → Nat
  | .read a _ => a
  | .write a _ _ _ => a
  | .rawWrite a _ => a
  | .rawRead a => a
def Waiting.promoted : Waiting → Bool
  | .read _ p => p
  | .write _ _ _ p => p
  | _ => false

/-- A waiting request is served. -/
def State.serve (s : State) (w : Waiting) : State :=
  match w with
  | .read a _ => s.serveRead a
  | .write a bs p _ => s.serveWrite a bs p
  | .rawWrite _ _ => s.serveRaw w
  | .rawRead _ => s.serveRaw w

/-- A request waits at its vault. -/
def State.wait (s : State) (w : Waiting) : State :=
  s.modVault (w.dpa / Config.vaultBytes) (fun v => { v with waiting := v.waiting ++ [w] })
/-- A request to the burst waits already: a later one does not pass it (R167). -/
def State.burstWaits (s : State) (dpa : Nat) : Bool :=
  (s.vault (dpa / Config.vaultBytes)).waiting.any (fun w => w.dpa / 64 == dpa / 64)

/-- Requests of a queue with whether they are of the promoted rank: promoted themselves, or before a promoted one to the
same burst, which cannot pass them (R166, R167). -/
def rankedRequests : List Waiting → List (Waiting × Bool)
  | [] => []
  | w :: r => (w, w.promoted || r.any (fun x => x.promoted && x.dpa / 64 == w.dpa / 64)) :: rankedRequests r
/-- Requests waiting at a vault in the order in which they are chosen: promoted ones first, then the oldest (R165, R166). -/
def VaultSt.ordered (v : VaultSt) : List Waiting :=
  let l := rankedRequests v.waiting
  (l.filter (·.2)).map (·.1) ++ (l.filter (fun w => !w.2)).map (·.1)

/-- No older request to its burst waits before a request (R167). -/
def VaultSt.firstOfBurst (v : VaultSt) (w : Waiting) : Bool :=
  v.waiting.find? (fun x => x.dpa / 64 == w.dpa / 64) == some w

def Waiting.isRead : Waiting → Bool
  | .read _ _ => true
  | _ => false

/-- A request can be served: no older one to its burst waits, its bank is free unless the cache holds what it reads, and a
raw access finds no locked region (R167, R465). -/
def State.canServe (s : State) (w : Waiting) : Bool :=
  (s.vault (w.dpa / Config.vaultBytes)).firstOfBurst w && (!s.bankHeld w.dpa || (w.isRead && s.readHits w.dpa))
    && (match w with
      | .read _ _ => true
      | .write _ _ _ _ => true
      | _ => !s.dpaLocked w.dpa)

/-- A waiting request leaves the queue and is served; where it has to wait for a page repair, that is started. -/
def State.serveOne (s : State) (w : Waiting) : State :=
  if !s.canServe w then s
  else if w.isRead && s.readRepairs w.dpa then s.startRepair (rowOfDpa w.dpa)
  else (s.modVault (w.dpa / Config.vaultBytes) (fun v => { v with waiting := v.waiting.erase w })).serve w

/-- Requests whose bank is free are served, in the order of R165. -/
def State.serveFree (s : State) (n : Nat) : State := (s.vault n).ordered.foldl State.serveOne s
/-- The same for every vault where requests wait. -/
def State.serveAllFree (s : State) : State :=
  (s.vaults.filter (fun e => !e.2.waiting.isEmpty)).foldl (fun t e => t.serveFree e.1) s

/-- A bank's requests up to 8 row activations: consecutive requests to one row share one. -/
def eightActivations : Nat → Option Nat → List Waiting → List Waiting
  | _, _, [] => []
  | n, open?, w :: r =>
    let row := (decodeStandard w.dpa).row
    if open? = some row then w :: eightActivations n open? r
    else if n = 0 then []
    else w :: eightActivations (n - 1) (some row) r

/-- Requests that waited at the bank of an engine are served at its boundary, up to 8 row activations (R166, R199). -/
def State.serveBoundary (s : State) (n p counter : Nat) : State :=
  let here := eightActivations 8 none ((s.vault n).ordered.filter (fun w => bankOf w.dpa == p && s.canServe w))
  let t := here.foldl State.serveOne s
  t.ctrAdd counter ((s.vault n).waiting.length - (t.vault n).waiting.length)

end Sys2Proof.Machine
end

