-- ==== Sys2Proof/Machine/Fail.lean ====
section
/-! DEFINITION. How a clause's work is given up, and the failing of a clause (02 R78, R81; 14 R462); deferred host writes
(06 R200, R201); what a clause's work leaves, and loaded images (02 R74). -/

namespace Sys2Proof.Machine

/-! ### Failing (R78) -/

/-- Shares, slots and near-bank jobs of a clause are given up; its collective goes on for the others of its group. -/
def State.releaseWork (s : State) (r index : Nat) : State :=
  { s with
    cores := s.cores.filterMap (fun e =>
      let c := ({ e.2 with
        qMain := e.2.qMain.filter (fun q => decide (q ≠ (r, index)))
        qParen := e.2.qParen.filter (fun q => decide (q ≠ (r, index))) } : CoreSt).settleRun
      if c = CoreSt.reset then none else some (e.1, c))
    slots := s.slots.filter (fun x => decide ((x.ring, x.index) ≠ (r, index)))
    reducing := s.reducing.filter (fun x => decide ((x.ring, x.index) ≠ (r, index)))
    routers := s.routers.filterMap (fun e =>
      let x := { e.2 with waiters := e.2.waiters.filter (fun x => decide (x ≠ (r, index))) }
      if x = RouterSt.reset then none else some (e.1, x))
    colls := s.colls.map (fun x => if x.ring = r ∧ x.index = index then x.orphan else x)
    fields := s.fields.map (fun e => (e.1, { e.2 with rbufs := e.2.rbufs.map (fun b =>
      { b with queue := b.queue.filter (fun x => decide ((x.ring, x.index) ≠ (r, index))) }) }))
    vaults := s.vaults.filterMap (fun e =>
      let v := ({ e.2 with jobs := e.2.jobs.filter (fun j => decide ((j.ring, j.index) ≠ (r, index))) } : VaultSt).beginStaging
      if v = VaultSt.reset then none else some (e.1, v))
    -- an engine in the middle of a step keeps its token to the boundary (R166, R202)
    engines := s.engines.map (fun e =>
      if e.2.token && (match (s.vault (e.1 / 128)).activeJob with
          | some j => j.ring == r && j.index == index
          | none => false)
      then (e.1, { e.2 with orphan := true }) else e)
    decodes := s.decodes.filter (fun x => decide ((x.ring, x.index) ≠ (r, index)))
    kvm := { s.kvm with
      appends := s.kvm.appends.filter (fun x => decide ((x.ring, x.index) ≠ (r, index)))
      reading := s.kvm.reading.filter (fun x => decide ((x.ring, x.index) ≠ (r, index)))
      order := s.kvm.order.filter (fun x => decide (x ≠ (r, index))) }
    tainted := s.tainted.filter (fun x => decide ((x.ring, x.index) ≠ (r, index)))
    pwr := { s.pwr with holdColls := s.pwr.holdColls.filter (fun x => decide (x ≠ (r, index))) } }

/-- Deferred host writes whose region is no longer locked are performed (R200, R201). -/
def State.drainDeferred (s : State) (n : Nat) : State :=
  let free (t : State) (w : Waiting) : Bool := match w with
    | .write a _ _ _ => !t.dpaLocked a
    | _ => false
  let go := (s.vault n).deferred.filter (free s)
  let s1 := s.modVault n (fun v => { v with deferred := v.deferred.filter (fun w => !free s w) })
  go.foldl (fun t w => if t.bankHeld w.dpa || t.burstWaits w.dpa then t.wait w else t.serve w) s1
def State.drainAllDeferred (s : State) : State :=
  (s.vaults.filter (fun e => !e.2.deferred.isEmpty)).foldl (fun t e => t.drainDeferred e.1) s

/-- The clause as it returns to the posted state. -/
def ClauseSt.repost (c : ClauseSt) : ClauseSt :=
  { c with phase := .posted, nouns := [], entry := 0, shares := [], unsent := [], worked := false, verdict := none
           nonFinite := 0, saturated := 0, detail := 0, target := none, passes := none, begun := false, vaults := [], merged := [], seqs := [], cores := [], startedAt := 0 }

/-- The clause of a stopped ring returns to the posted state: issued after the stop slot, and not started, a share that
is queued or delivered not counting as a start (R78). -/
def ClauseSt.returns (x : ClauseSt) (stop : Nat) : Bool :=
  (x.phase = Phase.issued || (x.phase = Phase.started && !x.begun)) && decide (0 < indexDiff x.index stop)
    && decide (indexDiff x.index stop < 2 ^ 31)

/-- The DPA of the first poisoned flit of a noun, zero where it has none in the vaults. -/
def State.poisonedDpa (s : State) (n : Noun) : Nat :=
  match (flitPieces n.dva n.length).findSome? (fun p => match s.translate n.place p.1 with
    | some (.dram a) => if s.dpaPoison a p.2 then some a else none
    | _ => none) with
  | some a => a
  | none => 0

/-- POISON_CONSUMED is also an event (R472, kind 3). -/
def State.poisonEvent (s : State) (r : Nat) (c : ClauseSt) (f : Failure) : State :=
  if f.status = stPoisonConsumed then
    s.event .poisonConsumed (some 3) 0 0 (if r = 0 then none else some (s.ring r).field) f.status
      [BitVec.ofNat 64 (clVerb c.bits), BitVec.ofNat 64 ((s.ring r).slotOf c.index),
       BitVec.ofNat 64 (if f.operand < 4 then s.poisonedDpa (c.noun f.operand) else 0)]
  else s

/-- Bytes of no stated value (log 7). -/
def State.freeBytes (s : State) (n : Nat) : List Byte :=
  (List.range n).map (fun i => BitVec.ofNat 8 (Config.freeValue (s.freeIdx + i)).toNat)

/-- Storage whose contents are undefined; the poison of its flits stays. -/
def State.undefineBytes (s : State) (place dva n : Nat) : State :=
  let old := s.readDva place dva n
  let s1 := s.writeDva place dva (((s.freeBytes n).zip old).map (fun p => some { byte := p.1, poison := p.2.poison }))
  { s1 with freeIdx := s1.freeIdx + n }

/-- Statuses that a clause takes at its start, before it has written anything. -/
def startStatus (st : Nat) : Bool :=
  st == stStepState || st == stVaultEvacuating || (decide (stKvSeqInvalid ≤ st) && decide (st ≤ stKvPoolEmpty)) || st == stNounShape

/-- The write operands of a clause that failed after it started, or that a reset ended, are undefined (R81, R493). The
key-value verbs write none of theirs. -/
def State.undefineOutputs (s : State) (c : ClauseSt) : State :=
  if clVerb c.bits = verbKvAppend ∨ clVerb c.bits = verbKvEvict then s
  else
    c.nouns.foldl (fun t e =>
      if clWrites c.bits e.1 ∧ e.2.layout ≠ 3 then
        let t1 := t.undefineBytes e.2.place e.2.dva (min e.2.length e.2.storageBytes)
        if e.2.scaled then t1.undefineBytes e.2.place e.2.scaleDva (ceilDiv e.2.count 32) else t1
      else t) s

/-- Clauses that run a collective across devices: those of a group, and a DECIDE (R333, R369). -/
def groupVerb (c : BitVec 512) : Bool := needsGroup (clVerb c) || (clVerb c == verbUpdate && clModBits c 3 0 == 0)

/-- The statuses with which R111 says what the write operands hold: array tiles drained, and poisoned ones. -/
def drainedFailure (c : BitVec 512) (st : Nat) : Bool :=
  st == stPoisonConsumed && (clVerb c == verbMatrix || clVerb c == verbNearBank)

/-- A clause fails (R78): its record is written at once. While its ring is not STOPPED the ring stops at it, it counts
as posted again, and issued clauses after it that have not started return to the posted state, their shares taken back.
A clause that fails while the ring is STOPPED is gone. -/
def State.failClause (s : State) (r index : Nat) (f : Failure) : State :=
  let ring := s.ring r
  match ring.clauseOf index with
  | none => s
  | some c =>
    let sA := if c.phase = Phase.started ∧ groupVerb c.bits then s.abortColl r index else s
    let back := if ring.isStopped then [] else ring.clauses.filter (fun x => x.returns index)
    let s0 := (((back.foldl (fun t x => t.releaseWork r x.index) (sA.countFailed r c)).releaseWork r index).drainAllDeferred).poisonEvent r c f
    let s1 := if c.phase = Phase.started ∧ !startStatus f.status ∧ !drainedFailure c.bits f.status then s0.undefineOutputs c else s0
    let s2 := s1.writeRecord r (ring.slotOf index) (clTag c.bits) f false
    let s3 := if r = 0 ∧ s2.cmd.r0State = 1 then { s2 with cmd := { s2.cmd with r0State := 2 } } else s2
    let s4 := s3.modRing r (fun (R : RingSt) =>
      if R.isStopped then R.dropClause index
      else
        let R1 := { R with
          stopAt := index
          waitFrom := none
          clauses := R.clauses.map (fun (x : ClauseSt) =>
            if x.index = index ∨ x.returns index then x.repost else x) }
        { R1.become .stopped with skipped := false })
    let s5 := { s4 with tainted := s4.tainted.filter (fun x => x.ring ≠ r || ((s4.ring r).clauseOf x.index).any ClauseSt.outstanding) }
    ((c.shares ++ back.flatMap (fun x => x.shares)).foldl (fun t n => t.sendNext n ring.ctx.paren) s5).tryClose r

/-- A clause whose work and shares are finished is done, or fails with the verdict its work left (R111). -/
def State.settleClause (s : State) (r index : Nat) : State :=
  match (s.ring r).clauseOf index with
  | some c =>
    if c.phase = .started ∧ c.worked ∧ c.shares = [] ∧ c.unsent = [] ∧ c.vaults = [] then
      match c.verdict with
      | some f => s.failClause r index f
      | none => s.modRing r (fun R => R.modClause index (fun x => { x with phase := .done }))
    else s
  | none => s

/-- An operation that produces data for a write operand of the clause, or a contribution, has issued: it has started (R78). -/
def State.dataBegun (s : State) (r index : Nat) : State := s.modRing r (fun R => R.modClause index (fun c => { c with begun := true }))

/-- The verb's work on a clause is done: `f` says what it left, and the clause settles if no share is out. -/
def State.workDone (s : State) (r index : Nat) (f : ClauseSt → ClauseSt) : State :=
  (s.modRing r (fun R => R.modClause index (fun c =>
    { f c with worked := true
               begun := true
               verdict := match c.verdict with
                 | some v => some v
                 | none => (f c).verdict }))).settleClause r index

/-! ### Loaded images (R74) -/

/-- A core of the clause's field runs a loaded image in the ring's context. -/
def State.stageLoaded (s : State) (r : Nat) : Bool :=
  match s.fieldOf (s.ring r).field with
  | some f => f.cores.any (fun c =>
      match (if f.paren then (s.core c).imgParen else (s.core c).imgMain) with
      | .loaded _ => true
      | _ => false)
  | none => false

/-- What a toolchain image computes is its own (R74): the clause's write operands take values of which nothing is
known (log 7). -/
def State.runImage (s : State) (r : Nat) (c : ClauseSt) : State := (s.undefineOutputs c).workDone r c.index (fun x => x)

end Sys2Proof.Machine
end

