-- ==== Sys2Proof/Machine/Chain.lean ====
section
/-! DEFINITION. The vector engine's operations and the element-wise chain (04 R126 to R138, 11 R358, R359). -/

namespace Sys2Proof.Machine

/-! ### One operation on one lane (R128, R129) -/

/-- The larger of two values, NaN when either is, −0 below +0 (IEEE 754-2019 maximum). -/
def Val.maximum (a b : Val) : Val :=
  if a.isNan || b.isNan then .nan
  else if a.lt b then b
  else if b.lt a then a
  else if a.negative then b else a
def Val.minimum (a b : Val) : Val :=
  if a.isNan || b.isNan then .nan
  else if a.lt b then a
  else if b.lt a then b
  else if a.negative then a else b

/-- An arithmetic operation in a working format; the result is rounded to it. -/
def laneOp (f : FloatFmt) (fmtCode op : Nat) (a b c : Val) : Val :=
  match op with
  | 0x01 => f.rounded (a.add b)
  | 0x02 => f.rounded (a.sub b)
  | 0x03 => f.rounded (a.mul b)
  | 0x04 => f.rounded ((a.mul b).add c)
  | 0x05 => a.minimum b
  | 0x06 => a.maximum b
  | 0x07 => a.abs
  | 0x08 => a.neg
  | 0x09 => a
  | 0x21 => f.rounded (a.div b)
  | 0x22 => f.rounded a.sqrt
  | _ => approximate f op fmtCode a

/-- A compare (R128): less, less or equal, equal, not equal. -/
def laneCompare (op : Nat) (a b : Val) : Bool :=
  match op with
  | 0x10 => a.lt b
  | 0x11 => a.lt b || a.eq b
  | 0x12 => a.eq b
  | _ => !a.eq b

/-- Pairwise combination of 64 partials in six levels (R132). -/
def combinePairs (f : Val → Val → Val) : Nat → List Val → Val
  | 0, l => l.headD Val.zero
  | n + 1, l => combinePairs f n ((chunksOf 2 (l.length + 1) l).map (fun p => match p with
    | a :: b :: _ => f a b
    | a :: _ => a
    | [] => Val.zero))

/-- A row reduced (R132): the elements that take part, in DIM0 order with their index. -/
def reduceRow (f : FloatFmt) (isMax : Bool) (l : List (Nat × Val)) : Val :=
  let step (a b : Val) : Val := if isMax then a.maximum b else round32 (a.add b)
  let empty : Val := if isMax then .inf true else .fin true 0 0
  let parts := (List.range 64).map (fun j => (l.filter (fun p => p.1 % 64 == j)).foldl (fun acc p => step acc p.2) empty)
  let v := combinePairs step 6 parts
  if isMax then v else f.rounded v

/-! ### Chain entries (R135, R136) -/

structure ChainOp where
  op     : Nat
  dst    : Nat
  a      : Nat
  b      : Nat
  c      : Nat
  mask   : Nat
  masked : Bool
  zero   : Bool
  extra  : Nat
deriving DecidableEq, Repr

def parseChainOp (w : Nat) : ChainOp :=
  { op := bits w 7 0, dst := bits w 11 8, a := bits w 17 12, b := bits w 23 18, c := bits w 29 24, mask := bits w 31 30
    masked := bitAt w 32, zero := bitAt w 33, extra := bits w 63 34 }

/-- A chain entry is a number of 256 bytes. -/
def chainNops (e : Nat) : Nat := bits e 4 0
def chainWork (e : Nat) : Nat := bits e 6 5
def chainOps (e : Nat) : List ChainOp :=
  (List.range (min 16 (chainNops e))).map (fun i => parseChainOp (bits e (8 * (0x80 + 8 * i) + 63) (8 * (0x80 + 8 * i))))
def chainConst (e i : Nat) : Word32 := BitVec.ofNat 32 (bits e (8 * (0x40 + 4 * i) + 31) (8 * (0x40 + 4 * i)))
def workFmt (w : Nat) : FloatFmt := if w = 1 then bf16 else if w = 2 then fp16 else fp32

/-- Sources of an operation by code (R128): how many of a, b, c it reads; none for a reserved code. -/
def opSources (op : Nat) : Option Nat :=
  if op = 4 then some 3
  else if [1, 2, 3, 5, 6, 0x10, 0x11, 0x12, 0x13, 0x15, 0x21].contains op then some 2
  else if [7, 8, 9, 0x20, 0x22, 0x23, 0x30, 0x31, 0x32, 0x33, 0x34, 0x35, 0x36, 0x40, 0x41].contains op then some 1
  else none
def isCompare (op : Nat) : Bool := decide (0x10 ≤ op) && decide (op ≤ 0x13)
def isReduction (op : Nat) : Bool := op == 0x40 || op == 0x41
def ChainOp.sources (o : ChainOp) : List Nat := [o.a, o.b, o.c].take ((opSources o.op).getD 0)
/-- A merge: masked, not zeroing, not SEL (R130). -/
def ChainOp.merges (o : ChainOp) : Bool := o.masked && !o.zero && o.op ≠ 0x15

/-- One operation of a chain is valid, given the temporaries written before it (R131, R136, R137). -/
def chainOpValid (acc : Nat → Nat) (written : List Nat) (o : ChainOp) : Bool :=
  (opSources o.op).isSome && o.extra == 0
    && (match opSources o.op with
      | some 1 => o.b == 0 && o.c == 0
      | some 2 => o.c == 0
      | _ => true)
    && o.sources.all (fun x =>
      (decide (x < 8) && written.contains x) || (decide (8 ≤ x) && decide (x < 12) && bitAt (acc (x - 8)) 0)
        || (decide (0x10 ≤ x) && decide (x < 0x20)))
    && (isCompare o.op == (decide (8 ≤ o.dst) && decide (o.dst < 12)))
    && !(isCompare o.op && o.masked)
    && (o.op ≠ 0x15 || o.masked)
    && (decide (o.dst < 12) || bitAt (acc (o.dst - 12)) 1)
    && !(o.merges && decide (o.dst < 8) && !written.contains o.dst)
    && !(o.merges && decide (12 ≤ o.dst) && acc (o.dst - 12) ≠ 3)

def chainOpsValid (acc : Nat → Nat) : List Nat → List ChainOp → Bool
  | _, [] => true
  | written, o :: r => chainOpValid acc written o && chainOpsValid acc (if o.dst < 8 then o.dst :: written else written) r

/-- How the chain uses operand i: reads it, writes it. -/
def chainReads (ops : List ChainOp) (i : Nat) : Bool :=
  ops.any (fun o => o.sources.contains (8 + i) || (o.merges && o.dst == 12 + i))
def chainWrites (ops : List ChainOp) (i : Nat) : Bool := ops.any (fun o => o.dst == 12 + i)

/-- CHAIN_INVALID (R131, R137, R359). -/
def chainInvalid (e : Nat) (acc : Nat → Nat) : Bool :=
  let ops := chainOps e
  chainNops e == 0 || decide (16 < chainNops e) || chainWork e == 3 || bits e 511 7 ≠ 0
    || !chainOpsValid acc [] ops
    || decide (2 < (ops.filter (fun o => isReduction o.op)).length)
    || !(List.range 4).all (fun i => acc i == flag (chainReads ops i) + 2 * flag (chainWrites ops i))
    || !(List.range 4).any (chainWrites ops)

/-- The first dimension in which two nouns differ. -/
def dimDiffers (a b : Noun) : Option Nat := (List.range 6).find? (fun i => decide (a.dim i ≠ b.dim i))

/-- An input fits the chain's shape (R138). -/
def chainInputFits (shape n : Noun) : Bool :=
  (dimDiffers shape n).isNone || n.count == 1
    || (n.dim 0 == shape.dim 0 && (List.range 5).all (fun i => n.dim (i + 1) == 1))

/-- CHAIN of MOD (R358). -/
def chainIndex (c : BitVec 512) : Nat := clModBits c 51 40
def State.chainDpa (s : State) (i : Nat) : Nat := s.applied.chainBase.toNat * 2 ^ 20 + 256 * i
/-- Chain entry i as memory holds it, and as the front end reads it (R60, R135). -/
def State.storedChain (s : State) (i : Nat) : Nat := leNat (s.dpaRead (s.chainDpa i) 256)
def State.readChain (s : State) (i : Nat) : Nat :=
  match s.cmd.chains.find? (fun e => e.1 == i) with
  | some e => e.2
  | none => s.storedChain i
def State.chainPoison (s : State) (i : Nat) : Bool :=
  !s.cmd.chains.any (fun e => e.1 == i) && s.dpaPoison (s.chainDpa i) 256
/-- The chain cache after a clause has read entry i: the cache rules of nouns, 8,192 entries hold the whole table. -/
def State.cacheChain (s : State) (i : Nat) : State :=
  if s.chainPoison i then s
  else { s with cmd := { s.cmd with chains := touchEntry 8192 s.cmd.chains i (s.storedChain i) } }

/-- The verb's checks (R359, R138, R133, R105): the entry as read, the access and noun of each slot. For an MX noun whose
DIM0 is no multiple of 32 R97 names no status: DESIGN CHOICE (log 51), an MX output fails with NOUN_SHAPE and DETAIL 0,
and an MX input passes. -/
def checkChain (e : Nat) (acc : Nat → Nat) (noun : Nat → Noun) : Option Failure :=
  let ops := chainOps e
  if chainInvalid e acc then some (failNone stChainInvalid 0)
  else
    match (List.range 4).find? (chainWrites ops) with
    | none => some (failNone stChainInvalid 0)
    | some o =>
      let shape := noun o
      firstFailure [
        ((List.range 4).findSome? (fun i =>
          if chainWrites ops i then (dimDiffers shape (noun i)).map (fun d => failNone stNounShape d)
          else if chainReads ops i && !chainInputFits shape (noun i) then
            some (failNone stNounShape ((dimDiffers shape (noun i)).getD 7))
          else none)),
        failIf (ops.any (fun x => isReduction x.op) && decide (65536 < shape.dim 0)) (failNone stNounShape 0),
        ((List.range 4).findSome? (fun i =>
          if chainWrites ops i && isMx (noun i).format && (noun i).dim 0 % 32 ≠ 0 then some (failNone stNounShape 0) else none)),
        ((List.range 4).findSome? (fun i =>
          if chainWrites ops i && !outputAllowed' (noun i).format then some (failNone stFormatPair 0) else none))]
where
  /-- Outputs of R105 with an FP32 value. -/
  outputAllowed' (f : Nat) : Bool := decide (f ≤ 0xA)

/-! ### Running a chain -/

/-- A lane: value and whether a poisoned element went into it (R462). -/
abbrev Lane := Val × Bool

structure ChainEnv where
  ins   : List (List Lane)
  consts : List Val
  temps : List (List Lane)
  masks : List (List (Bool × Bool))
  outs  : List (List (Option Lane))
deriving DecidableEq, Repr

/-- The lanes of a source code. -/
def ChainEnv.source (v : ChainEnv) (lanes x : Nat) : List Lane :=
  if x < 8 then v.temps.getD x []
  else if x < 12 then v.ins.getD (x - 8) []
  else List.replicate lanes (v.consts.getD (x - 16) Val.zero, false)

/-- The lanes that an operation computes, before masking. -/
def chainResult (f : FloatFmt) (work width lanes : Nat) (v : ChainEnv) (o : ChainOp) : List Lane :=
  let a := v.source lanes o.a
  let n := (opSources o.op).getD 0
  let zeros := List.replicate lanes (Val.zero, false)
  let b := if 2 ≤ n then v.source lanes o.b else zeros
  let c := if 3 ≤ n then v.source lanes o.c else zeros
  let m := v.masks.getD o.mask []
  if isReduction o.op then
    let kept := if o.masked then m else List.replicate lanes (true, false)
    ((chunksOf width (lanes + 1) (a.zip kept))).flatMap (fun row =>
      let part := (row.zipIdx).filterMap (fun p => if p.1.2.1 then some (p.2, p.1.1.1) else none)
      let res := reduceRow f (o.op == 0x41) part
      let bad := row.any (fun p => (p.2.1 && p.1.2) || p.2.2)
      row.map (fun _ => (res, bad)))
  else if o.op = 0x15 then
    ((a.zip b).zip m).map (fun p => (if p.2.1 then p.1.1.1 else p.1.2.1, p.1.1.2 || p.1.2.2 || p.2.2))
  else
    ((a.zip b).zip c).map (fun p => (laneOp f work o.op p.1.1.1 p.1.2.1 p.2.1, p.1.1.2 || p.1.2.2 || p.2.2))

/-- One operation runs on every lane; `kept` is the result of a reduction of an earlier sweep. Of a masked reduction the
spec gives the row's result to each lane (R132) and merges or zeroes the lanes masked off (R130): DESIGN CHOICE (log 51),
the latter holds of its destination too. -/
def chainStep (f : FloatFmt) (work width lanes : Nat) (v : ChainEnv) (o : ChainOp) (kept : Option (List Lane)) : ChainEnv :=
  if isCompare o.op then
    let m := ((v.source lanes o.a).zip (v.source lanes o.b)).map (fun p => (laneCompare o.op p.1.1 p.2.1, p.1.2 || p.2.2))
    { v with masks := setAt v.masks (o.dst - 8) m }
  else
    let res := kept.getD (chainResult f work width lanes v o)
    let m := if o.masked && o.op ≠ 0x15 then v.masks.getD o.mask [] else List.replicate lanes (true, false)
    if o.dst < 8 then
      let old := v.temps.getD o.dst []
      let old' := if old.isEmpty then List.replicate lanes (Val.zero, false) else old
      { v with temps := setAt v.temps o.dst (((res.zip m).zip old').map (fun p =>
          if p.1.2.1 then (p.1.1.1, p.1.1.2 || p.1.2.2)
          else if o.zero then (Val.zero, p.1.2.2)
          else (p.2.1, p.2.2 || p.1.2.2))) }
    else
      let old := v.outs.getD (o.dst - 12) []
      { v with outs := setAt v.outs (o.dst - 12) (((res.zip m).zip old).map (fun p =>
          if p.1.2.1 then some (p.1.1.1, p.1.1.2 || p.1.2.2)
          else if o.zero then some (Val.zero, p.1.2.2)
          else p.2)) }

/-- The lanes of an input operand, converted to the working format and broadcast (R127, R138). -/
def chainInput (f : FloatFmt) (shape n : Noun) (vs : List (Val × Bool)) : List Lane :=
  let w := vs.map (fun v => (f.rounded v.1, v.2))
  if (dimDiffers shape n).isNone then w
  else if n.count = 1 then List.replicate shape.count (w.headD (Val.zero, false))
  else (List.range (shape.count / shape.dim 0)).flatMap (fun _ => w)

/-- The mask registers before any compare hold no stated value: each lane's bit is free (log 7). -/
def State.freeMasks (s : State) (lanes : Nat) : List (List (Bool × Bool)) :=
  (List.range 4).map (fun m => (List.range lanes).map (fun e => ((Config.freeValue (s.freeIdx + 4 * e + m)).getLsbD 0, false)))

/-- The sweeps in which the temporaries and the mask registers hold their values. -/
structure SweepEnv where
  temps : List Nat
  masks : List Nat
deriving DecidableEq, Repr

/-- The sweep of an operation: the latest one that any of its sources needs. -/
def SweepEnv.sweep (v : SweepEnv) (o : ChainOp) : Nat :=
  let src := o.sources.map (fun x => if x < 8 then v.temps.getD x 0 else 0)
  let mask := if o.masked then v.masks.getD o.mask 0 else 0
  let old := if o.merges && decide (o.dst < 8) then v.temps.getD o.dst 0 else 0
  (src ++ [mask, old]).foldl max 0
/-- The sweep of each operation: what uses a reduction's result runs in the sweep after it (R133). -/
def sweepsOf : SweepEnv → List ChainOp → List Nat
  | _, [] => []
  | v, o :: r =>
    let k := v.sweep o
    let k' := if isReduction o.op then k + 1 else k
    k :: sweepsOf (if o.dst < 8 then { v with temps := setAt v.temps o.dst k' }
      else if o.dst < 12 then { v with masks := setAt v.masks (o.dst - 8) k' } else v) r

/-- What the sweeps of a chain have left: the state, the results of its reductions by operation, the slots whose poison
was read, and the non-finite and saturated elements written. -/
structure ChainRun where
  st        : State
  reduced   : List (Nat × List Lane)
  bad       : List Nat
  nonFinite : Nat
  saturated : Nat
deriving DecidableEq, Repr

/-- Non-finite elements of an output: lanes written, and 32 for an MX block written with scale 0xFF (R140). -/
def chainNonFinite (n : Noun) (out : List (Option Lane)) (es : List Elem) : Nat :=
  let ps := out.zip es
  if isMx n.format then
    sumOf ((chunksOf 32 (ps.length + 1) ps).map (fun b =>
      if b.any (fun p => p.2.scale == 0xFF) then (if b.any (fun p => p.1.isSome) then 32 else 0)
      else (b.filter (fun p => p.1.isSome && !(n.val p.2).isFinite)).length))
  else (ps.filter (fun p => p.1.isSome && !(n.val p.2).isFinite)).length

/-- An output of a sweep is converted and written; lanes masked off count in no counter (R130, R140). -/
def ChainRun.writeOut (x : ChainRun) (conv : Conv) (n : Noun) (out : List (Option Lane)) : ChainRun :=
  let old := if isMx n.format then x.st.loadVals n else []
  let got := convertTensor n.format conv ((out.zipIdx).map (fun p => p.1.getD (old.getD p.2 (Val.zero, false))))
  let written := (out.zip got.elems).map (fun p => if p.1.isSome || isMx n.format then some p.2 else none)
  { x with
    st := x.st.storeTensor n written
    nonFinite := x.nonFinite + chainNonFinite n out got.elems
    saturated := x.saturated + ((out.zip got.sats).filter (fun p => p.1.isSome && p.2)).length }

/-- One sweep over the rows: its inputs are read anew, the operations of earlier sweeps are issued again, a reduction of
an earlier sweep keeps its result, and what this sweep's operations write to outputs is written (R133). DEDUCED (log 51):
an operation runs in the earliest sweep in which all its sources stand, and an output is written in that sweep. -/
def ChainRun.sweep (c : ClauseSt) (x : ChainRun) (k : Nat) : ChainRun :=
  let e := c.entry
  let ops := chainOps e
  let f := workFmt (chainWork e)
  let shape := c.noun (((List.range 4).find? (chainWrites ops)).getD 0)
  let lanes := shape.count
  let loaded := (List.range 4).map (fun i =>
    if chainReads ops i then chainInput f shape (c.noun i) (x.st.loadVals (c.noun i)) else [])
  let env : ChainEnv :=
    { ins := loaded
      consts := (List.range 16).map (fun i => f.rounded (fromFp32 (chainConst e i)))
      temps := List.replicate 8 []
      masks := x.st.freeMasks lanes
      outs := List.replicate 4 (List.replicate lanes none) }
  let lv := sweepsOf { temps := List.replicate 8 0, masks := List.replicate 4 0 } ops
  let run := ((ops.zip lv).zipIdx).foldl (fun (a : ChainEnv × List (Nat × List Lane)) p =>
    let o := p.1.1
    if k < p.1.2 || (decide (12 ≤ o.dst) && decide (p.1.2 < k)) then a
    else
      let kept := if p.1.2 < k then Tbl.find x.reduced p.2 else none
      (chainStep f (chainWork e) (shape.dim 0) lanes a.1 o kept,
       if isReduction o.op && p.1.2 == k then a.2 ++ [(p.2, chainResult f (chainWork e) (shape.dim 0) lanes a.1 o)] else a.2))
    (env, x.reduced)
  let bad := (List.range 4).filter (fun i => chainReads ops i && (loaded.getD i []).any (·.2))
  let x1 := { x with st := { x.st with freeIdx := x.st.freeIdx + 4 * lanes }, reduced := run.2, bad := x.bad ++ bad }
  (List.range 4).foldl (fun (t : ChainRun) i =>
    let out := run.1.outs.getD i []
    if out.any (fun l => l.isSome) then t.writeOut (clConv c.bits) (c.noun i) out else t) x1

/-- The chain of a started clause: entry as read at issue, nouns as read at issue, at most three sweeps. -/
def State.runChain (s : State) (r : Nat) (c : ClauseSt) : State :=
  let last := (sweepsOf { temps := List.replicate 8 0, masks := List.replicate 4 0 } (chainOps c.entry)).foldl max 0
  let fin := (List.range (last + 1)).foldl (ChainRun.sweep c) { st := s, reduced := [], bad := [], nonFinite := 0, saturated := 0 }
  fin.st.workDone r c.index (fun x =>
    { x with verdict := (fin.bad.foldl (fun (m : Option Nat) i => some (match m with
                 | some j => min i j
                 | none => i)) none).map (fun i => failSlot stPoisonConsumed i 0)
             saturated := fin.saturated, passes := some 0
             nonFinite := if clNfWatch c.bits then fin.nonFinite else 0 })

/-- ELEMENT_WISE_CHAIN: the vector engines run a started chain. -/
def execElementWiseChain (ring slot : Nat) (host : HostView) (s : State) : Answer :=
  match s.startedClause ring slot verbChain with
  | some c => .next (if s.stageLoaded ring then (s.seeHost host).runImage ring c else (s.seeHost host).runChain ring c)
  | none => .next s

end Sys2Proof.Machine
end

