-- ==== Sys2Proof/Machine/Buffers.lean ====
section
/-! DEFINITION. Reduction buffers in the Playa slices of a field (08 R265 to R268). -/

namespace Sys2Proof.Machine

/-- A buffer that is not defined. -/
def RBuf.undefined : RBuf := { offset := 0, size := 0, pass := 0, queue := [] }
/-- Buffer b of a field. -/
def FieldSt.rbuf (f : FieldSt) (b : Nat) : RBuf := f.rbufs.getD b RBuf.undefined
/-- Elements of a buffer held in one core (R265): E_c = size / 4. -/
def RBuf.perCore (b : RBuf) : Nat := b.size * 4096
/-- Elements of a buffer in all. -/
def FieldSt.rbufCapacity (f : FieldSt) (b : Nat) : Nat := (f.rbuf b).perCore * f.cores.length
/-- The buffer is defined for the field and holds n elements (R357, R370). -/
def FieldSt.rbufHolds (f : FieldSt) (b n : Nat) : Bool := (f.rbuf b).size ≠ 0 && decide (n ≤ f.rbufCapacity b)
/-- Nothing has been contributed since the buffer was last empty (R267, R268). -/
def RBuf.isEmpty (b : RBuf) : Bool := b.pass == 0

/-- Core and slice offset of element e (R265). -/
def FieldSt.rbufPlace (f : FieldSt) (b e : Nat) : Nat × Nat :=
  (f.cores.getD (e / (f.rbuf b).perCore) 0, (f.rbuf b).offset + 4 * (e % (f.rbuf b).perCore))

/-- The first n elements of a buffer with their poison, core by core. -/
def State.rbufRead (s : State) (f : FieldSt) (b n : Nat) : List (Word32 × Bool) :=
  let ec := (f.rbuf b).perCore
  ((f.cores.zipIdx).flatMap (fun p =>
    let m := min ec (n - ec * p.2)
    let off := (f.rbuf b).offset
    ((bytesToWords (s.playaRead p.1 off (4 * m))).zipIdx).map (fun w => (w.1, s.playaPoison p.1 (off + 4 * w.2) 4)))).take n

/-- What the words' code finds as the first n elements are read is counted (R145). -/
def State.rbufSeen (s : State) (f : FieldSt) (b n : Nat) : State :=
  let ec := (f.rbuf b).perCore
  (f.cores.zipIdx).foldl (fun t p => t.playaSeen p.1 (f.rbuf b).offset (4 * min ec (n - ec * p.2))) s

/-- Elements written from element 0 on, core by core; a poisoned element poisons its flit. -/
def State.rbufWrite (s : State) (f : FieldSt) (b : Nat) (ws : List (Word32 × Bool)) : State :=
  let ec := (f.rbuf b).perCore
  (f.cores.zipIdx).foldl (fun t p =>
    let part := (ws.drop (ec * p.2)).take ec
    if part.isEmpty then t
    else
      let off := (f.rbuf b).offset
      let t1 := t.playaWrite p.1 off (wordsToBytes (part.map (·.1))) false
      (part.zipIdx).foldl (fun u w => if w.1.2 then u.playaTaint p.1 (off + 4 * w.2) 4 else u) t1) s

/-- A field's buffer replaced. -/
def State.setRbuf (s : State) (fid : Nat) (f : FieldSt) (b : Nat) (v : RBuf) : State :=
  s.setField fid { f with rbufs := setAt f.rbufs b v }

/-- A clause's contribution waits at its source for its pass (R267). -/
def State.contribute (s : State) (fid b : Nat) (c : Contribution) : State :=
  match s.fieldOf fid with
  | some f => s.setRbuf fid f b { f.rbuf b with queue := (f.rbuf b).queue ++ [c] }
  | none => s

/-- The clause already has a contribution waiting. -/
def State.hasContribution (s : State) (fid b r index : Nat) : Bool :=
  match s.fieldOf fid with
  | some f => (f.rbuf b).queue.any (fun c => c.ring == r && c.index == index)
  | none => false

/-- The first contribution that the buffer does not have to hold: one for the pass it expects, or for a pass that
never comes (R267). -/
def RBuf.ready (b : RBuf) : Option Contribution :=
  b.queue.find? (fun c => decide (c.pass ≤ b.pass) || decide (63 < c.pass))

/-- The clause of a contribution is out of the queue. -/
def RBuf.without (b : RBuf) (c : Contribution) : RBuf :=
  { b with queue := b.queue.filter (fun x => decide ((x.ring, x.index) ≠ (c.ring, c.index))) }

/-- A contribution is applied: pass 0 writes it, a later pass adds it with round_FP32 (R267). Poison travels. The buffer
expects the next pass once every element has been applied. -/
def State.applyContribution (s : State) (fid : Nat) (f : FieldSt) (b : Nat) (c : Contribution) : State :=
  let g := (c.words.zipIdx).map (fun w => (w.1, c.poison.contains w.2))
  let sum := (((s.rbufRead f b c.words.length).zip g).zipIdx).map (fun p =>
    if c.absent.contains p.2 then p.1.1
    else if c.pass = 0 then p.1.2
    else (toFp32 ((fromFp32 p.1.1.1).add (fromFp32 p.1.2.1)), p.1.1.2 || p.1.2.2))
  let s1 := (if c.pass = 0 then s else s.rbufSeen f b c.words.length).rbufWrite f b sum
  (s1.setRbuf fid f b { (f.rbuf b).without c with pass := if c.absent.isEmpty then c.pass + 1 else c.pass }).workDone
    c.ring c.index (fun x => x)

/-- BUFFER_CONTRIBUTION: the buffer takes the contribution it is ready for: it applies the pass it expects, and fails
the clause of a pass that is past or out of range; contributions above the expected pass stay held (R267). -/
def execBufferContribution (field buffer : Nat) (s : State) : Answer :=
  match s.fieldOf field with
  | none => .next s
  | some f =>
    match (f.rbuf buffer).ready with
    | none => .next s
    | some c =>
      if c.pass = (f.rbuf buffer).pass ∧ c.pass ≤ 63 then .next (s.applyContribution field f buffer c)
      else
        .next ((s.setRbuf field f buffer ((f.rbuf buffer).without c)).failClause c.ring c.index
          (failNone stRbufPass c.pass))

end Sys2Proof.Machine
end

