-- ==== Sys2Proof/Machine/Matrix.lean ====
section
/-! DEFINITION. The matrix product (03 R82 to R111, 11 R356, R357). -/

namespace Sys2Proof.Machine

def isF16 (f : Nat) : Bool := f == 1 || f == 2
def isF8 (f : Nat) : Bool := f == 3 || f == 4

/-- Operand pairs of R84. -/
def matrixPair (a b : Nat) : Bool :=
  (isF16 a && (isF16 b || isF8 b)) || (isF8 a && (isF8 b || isF16 b)) || (isMx a && isMx b) || (a == 0xB && b == 0xB)
/-- Two MXFP4 operands: the 4-bit class (R83, R84). -/
def fourBitPair (a b : Nat) : Bool := a == 9 && b == 9
/-- Output formats of R105 for an accumulator. -/
def outputAllowed (intAcc : Bool) (out : Nat) : Bool := if intAcc then out == 0xC else decide (out ≤ 0xA)

/-- The fields of the verb's MOD (R356). -/
def mxTransB (c : BitVec 512) : Bool := clModBit c 40
def mxShape (c : BitVec 512) : Nat := clModBits c 43 41
def mxSplitK (c : BitVec 512) : Nat := clModBits c 48 44
def mxOutRbuf (c : BitVec 512) : Bool := clModBit c 49
def mxRbuf (c : BitVec 512) : Nat := clModBits c 53 50
def mxPass (c : BitVec 512) : Nat := clModBits c 59 54

/-- Modifier values of the matrix product (R356): SHAPE above 4, SPLITK outside 1 to 16. -/
def matrixModifiers (c : BitVec 512) : Option Failure :=
  firstFailure [failIf (decide (4 < mxShape c)) (failNone stBadModifier 41),
    failIf (decide (mxSplitK c = 0) || decide (16 < mxSplitK c)) (failNone stBadModifier 44)]

/-- A noun that the arrays cannot take as operand: rank, placement or layout (R357). -/
def matrixLayoutBad (n : Noun) : Bool := n.rank ≠ 2 || n.place == 3 || n.layout == 2 || n.layout == 3

/-- Rows, columns of the mode that SHAPE or AUTO selects for M (R93, R94); the mode's `ARR_STATE` code. -/
def matrixMode (shape m : Nat) : Nat :=
  match shape with
  | 1 => 0
  | 2 => 1
  | 3 => 2
  | 4 => 3
  | _ => if m ≤ 8 then 3 else if m ≤ 16 then 2 else if m ≤ 32 then 1 else 0
def modeRows (mode : Nat) : Nat := 64 / 2 ^ mode
def modeCols (mode : Nat) : Nat := 64 * 2 ^ mode

/-- The verb's own checks, in the order of R357. `na`, `nb`, `nc` are the nouns of slots 0 to 2. For an MX noun whose DIM0
is no multiple of 32 R97 names no status: DESIGN CHOICE (log 51), an MX output fails with NOUN_SHAPE and DETAIL 0, as
R357 has an MX operand A fail. -/
def checkMatrix (f : Option FieldSt) (c : BitVec 512) (na nb nc : Noun) : Option Failure :=
  let out := if mxOutRbuf c then 0 else nc.format
  let intAcc := na.format == 0xB
  let k := na.dim 0
  let m := na.dim 1
  let bk := if mxTransB c then nb.dim 0 else nb.dim 1
  let n := if mxTransB c then nb.dim 1 else nb.dim 0
  let s := mxSplitK c
  firstFailure [
    failIf (!matrixPair na.format nb.format) (failNone stFormatPair 0),
    failIf (clAccum c && !mxOutRbuf c && !(out == 0 || out == 1 || out == 2 || out == 0xC)) (failNone stFormatPair 0),
    failIf (isMx nb.format && !mxTransB c) (failNone stFormatPair 0),
    failIf (decide (1 < s) && intAcc) (failNone stFormatPair 0),
    failIf (!outputAllowed intAcc out) (failNone stFormatPair 0),
    failIf (matrixLayoutBad na || matrixLayoutBad nb || (!mxOutRbuf c && matrixLayoutBad nc)) (failNone stNounShape 7),
    failIf (decide (k ≠ bk)) (failNone stNounShape 0),
    failIf (!mxOutRbuf c && decide (nc.dim 0 ≠ n)) (failNone stNounShape 0),
    failIf (!mxOutRbuf c && decide (nc.dim 1 ≠ m)) (failNone stNounShape 1),
    failIf (isMx na.format && decide (k % 32 ≠ 0)) (failNone stNounShape 0),
    failIf (!mxOutRbuf c && isMx nc.format && decide (n % 32 ≠ 0)) (failNone stNounShape 0),
    failIf (decide (1 < s) && (decide (k % s ≠ 0) || decide (k / s % 64 ≠ 0))) (failNone stNounShape 0),
    failIf (mxOutRbuf c && (clConv c).seed ≠ 0) (failNone stBadModifier 0),
    failIf (mxOutRbuf c && (clConv c).sr) (failNone stBadModifier 32),
    failIf (mxOutRbuf c && (clConv c).sat) (failNone stBadModifier 33),
    failIf (mxOutRbuf c && clAccum c) (failNone stBadModifier 35),
    failIf (mxOutRbuf c && !(match f with
      | some x => x.rbufHolds (mxRbuf c) (m * n)
      | none => false)) (failNone stRbufLayout 0)]

/-- acc ← round_FP32(acc + s) over the products of one slice, one a cycle, or two where the class is 4-bit (R100). -/
def accumulate (four : Bool) : Nat → Val → List (Val × Val) → Val
  | 0, acc, _ => acc
  | _ + 1, acc, [] => acc
  | n + 1, acc, (a, b) :: r =>
    if four then
      match r with
      | (a', b') :: r' => accumulate four n (round32 (acc.add ((a.mul b).add (a'.mul b')))) r'
      | [] => round32 (acc.add (a.mul b))
    else accumulate four n (round32 (acc.add (a.mul b))) r

/-- The INT32 accumulator: products added modulo 2^32 (R103). -/
def accumulateInt (init : Int) (ps : List (Val × Val)) : Int :=
  toSigned 32 (ofSigned 32 (ps.foldl (fun acc p => match p.1.mul p.2 with
    | .fin n m _ => acc + (if n then -(m : Int) else m)
    | _ => acc) init))

/-- One output element (R100 to R104): `init` is the preloaded value of C under ACCUM. -/
def matrixElement (four intAcc : Bool) (slices : Nat) (init : Option Val) (ps : List (Val × Val)) : Val :=
  if intAcc then
    Val.ofInt (accumulateInt (match init with
      | some (.fin n m _) => if n then -(m : Int) else m
      | _ => 0) ps)
  else if slices ≤ 1 then accumulate four ps.length (init.getD Val.zero) ps
  else
    let parts := (chunksOf (ps.length / slices) (slices + 1) ps).map (fun p => accumulate four p.length Val.zero p)
    match init, parts with
    | some i, _ => parts.foldl (fun y p => round32 (y.add p)) i
    | none, [] => Val.zero
    | none, p0 :: r => r.foldl (fun y p => round32 (y.add p)) p0

/-- Row i of a matrix stored with `width` elements a row. -/
def rowOf {α : Type} (width i : Nat) (l : List α) : List α := (l.drop (width * i)).take width
/-- The rows of a matrix. -/
def rowsOf {α : Type} (width rows : Nat) (l : List α) : List (List α) := (List.range rows).map (fun i => rowOf width i l)
/-- Columns of a matrix of `rows` rows, each a list over the rows. -/
def columnsOf {α : Type} (width rows : Nat) (l : List α) : List (List α) :=
  let rs := rowsOf width rows l
  (List.range width).map (fun j => rs.filterMap (fun r => r[j]?))

/-- The result of a matrix product before conversion. -/
structure MatrixResult where
  vals    : List (Option (Val × Bool))   -- by output index; `none` where the element's tile never ran (R111)
  operand : Option Nat                   -- lowest slot whose poison was consumed
  passes  : Nat                          -- tiles that ran, once for each slice of K (R85, R104)
deriving DecidableEq, Repr

/-- All elements of the product, with R111's stop: when some tile consumes poison, the tiles of `unstarted` (tile row
by tile row) never ran; one tile that consumes poison ran, the lowest where `unstarted` names them all (log 10). -/
def matrixCompute (four intAcc : Bool) (slices mode : Nat) (arows bcols : List (List (Val × Bool)))
    (init : Option (List (Val × Bool))) (unstarted : List Nat) : MatrixResult :=
  let n := bcols.length
  let across := ceilDiv n (modeCols mode)
  let tileOf (i j : Nat) : Nat := i / modeRows mode * across + j / modeCols mode
  let badRows : List Nat := (arows.zipIdx).filterMap (fun p => if p.1.any (·.2) then some p.2 else none)
  let badCols : List Nat := (bcols.zipIdx).filterMap (fun p => if p.1.any (·.2) then some p.2 else none)
  let badInit : List Nat := match init with
    | some l => (l.zipIdx).filterMap (fun (p : (Val × Bool) × Nat) => if p.1.2 then some p.2 else none)
    | none => []
  let rowTiles := badRows.map (fun i => i / modeRows mode)
  let colTiles := badCols.map (fun j => j / modeCols mode)
  let initTiles := badInit.map (fun e => tileOf (e / n) (e % n))
  let tiles := List.range (ceilDiv arows.length (modeRows mode) * across)
  let bites (t : Nat) : Bool := rowTiles.contains (t / across) || colTiles.contains (t % across) || initTiles.contains t
  let first := (tiles.find? (fun t => bites t && !unstarted.contains t)).orElse (fun _ => tiles.find? bites)
  let ran (t : Nat) : Bool := first.isNone || first == some t || !unstarted.contains t
  let hit (f : Nat → Bool) : Bool := tiles.any (fun t => ran t && f t)
  { vals := (arows.zipIdx).flatMap (fun a => (bcols.zipIdx).map (fun b =>
      let t := tileOf a.2 b.2
      if ran t then
        some (matrixElement four intAcc slices (match init with
            | some l => some (l.getD (b.2 + n * a.2) (Val.zero, false)).1
            | none => none) ((a.1.map (·.1)).zip (b.1.map (·.1))), bites t)
      else none))
    operand :=
      if hit (fun t => rowTiles.contains (t / across)) then some 0
      else if hit (fun t => colTiles.contains (t % across)) then some 1
      else if hit (fun t => initTiles.contains t) then some 2
      else none
    passes := slices * (tiles.filter ran).length }

/-- The product of a started clause. -/
def State.matrixProduct (s : State) (r : Nat) (c : ClauseSt) (unstarted : List Nat) : State :=
  let na := c.noun 0
  let nb := c.noun 1
  let nc := c.noun 2
  let k := na.dim 0
  let m := na.dim 1
  let n := if mxTransB c.bits then nb.dim 1 else nb.dim 0
  let a := s.loadVals na
  let b := s.loadVals nb
  let bcols := if mxTransB c.bits then rowsOf k n b else columnsOf n k b
  let init := if clAccum c.bits then some (s.loadVals nc) else none
  let mode := matrixMode (mxShape c.bits) m
  let intAcc := na.format == 0xB
  let res := matrixCompute (fourBitPair na.format nb.format) intAcc (mxSplitK c.bits) mode (rowsOf k m a) bcols init unstarted
  let verdict := res.operand.map (fun i => failSlot stPoisonConsumed i 0)
  let done := res.vals.map (fun v => v.getD (Val.zero, false))
  if mxOutRbuf c.bits then
    let nf := (done.filter (fun v => !v.1.isFinite)).length
    let s2 := s.modRing r (fun R => R.modClause c.index (fun x =>
      { x with verdict := verdict, passes := some res.passes, begun := true, nonFinite := if clNfWatch c.bits then nf else 0 }))
    s2.contribute (s.ring r).field (mxRbuf c.bits)
      { ring := r, index := c.index, pass := mxPass c.bits, words := done.map (fun v => toFp32 v.1)
        poison := (done.zipIdx).filterMap (fun v => if v.1.2 then some v.2 else none)
        absent := (res.vals.zipIdx).filterMap (fun v => if v.1.isNone then some v.2 else none) }
  else
    let conv := convertTensor nc.format (clConv c.bits) done
    let s2 := s.storeTensor nc ((res.vals.zip conv.elems).map (fun p => p.1.map (fun _ => p.2)))
    s2.workDone r c.index (fun x =>
      { x with verdict := verdict, saturated := conv.saturated, passes := some res.passes
               nonFinite := if clNfWatch c.bits then conv.nonFinite else 0 })

/-- MATRIX_PRODUCT: the arrays compute every output tile of a started clause (R82 to R111). -/
def execMatrixProduct (ring slot : Nat) (host : HostView) (unstarted : List Nat) (s : State) : Answer :=
  match s.startedClause ring slot verbMatrix with
  | some c =>
    if mxOutRbuf c.bits && s.hasContribution (s.ring ring).field (mxRbuf c.bits) ring c.index then .next s
    else .next (if s.stageLoaded ring then (s.seeHost host).runImage ring c else (s.seeHost host).matrixProduct ring c unstarted)
  | none => .next s

end Sys2Proof.Machine
end

