-- ==== Sys2Proof/Machine/Attention.lean ====
section
/-! DEFINITION. Attention forward and backward (07 R209 to R215, 11 R361, R362). -/

namespace Sys2Proof.Machine

/-- FP32 vector operations that attention uses (R128, R132). -/
def exp32 (a : Val) : Val := laneOp fp32 0 0x30 a Val.zero Val.zero
def div32 (a b : Val) : Val := laneOp fp32 0 0x21 a b Val.zero
def redMax32 (l : List (Nat × Val)) : Val := reduceRow fp32 true l
def redSum32 (l : List (Nat × Val)) : Val := reduceRow fp32 false l
def toBf16 (v : Val) : Val := bf16.rounded v
/-- Values numbered from 0. -/
def indexed (l : List Val) : List (Nat × Val) := (l.zipIdx).map (fun p => (p.2, p.1))

/-- An array product of two vectors (R100). -/
def dot (a b : List Val) : Val := accumulate false a.length Val.zero (a.zip b)

/-- TAU and CAUSAL of MOD (R361). -/
def attnTau (c : BitVec 512) : Word32 := BitVec.ofNat 32 (clModBits c 71 40)
def attnCausal (c : BitVec 512) : Bool := clModBit c 72

/-- A finite nonzero FP32 modifier. -/
def finiteNonzero (w : Word32) : Bool := (fromFp32 w).isFinite && !(fromFp32 w).isZero

/-- Modifier values: TAU finite and nonzero (R361). -/
def attentionModifiers (c : BitVec 512) : Option Failure := failIf (!finiteNonzero (attnTau c)) (failNone stBadModifier 40)

/-- The first dimension whose extent is not the one given. -/
def extentsDiffer (n : Noun) (l : List Nat) : Option Nat :=
  (List.range 6).find? (fun i => decide (n.dim i ≠ l.getD i 1))
def shapeIf (n : Noun) (l : List Nat) : Option Failure := (extentsDiffer n l).map (fun d => failNone stNounShape d)

/-- Pairs of R210: Q with K, BF16 with V; the output by R105. -/
def attentionFormats (q kv o : Noun) : Option Failure :=
  firstFailure [failIf (!matrixPair q.format kv.format) (failNone stFormatPair 0),
    failIf (!matrixPair 1 kv.format) (failNone stFormatPair 0),
    failIf (!outputAllowed false o.format) (failNone stFormatPair 0)]

/-- Checks of attention forward (R362): nouns of slots 0 to 3. -/
def checkAttnFwd (q kv o : Noun) (stats : Option Noun) : Option Failure :=
  let tq := q.dim 1
  let tk := kv.dim 1
  firstFailure [
    shapeIf q [128, tq, q.dim 2, q.dim 3],
    shapeIf kv [128, tk, q.dim 2, q.dim 3, 2],
    shapeIf o [128, tq, q.dim 2, q.dim 3],
    failIf (tq % 64 ≠ 0 || tk % 64 ≠ 0) (failNone stNounShape 1),
    (stats.bind (fun st => shapeIf st [2, tq, q.dim 2, q.dim 3])),
    attentionFormats q kv o,
    (stats.bind (fun st => failIf (st.format ≠ 0) (failNone stNounShape 7)))]

/-- Checks of attention backward (R362). -/
def checkAttnBwd (qod kv stats dqkv : Noun) : Option Failure :=
  let t := qod.dim 1
  firstFailure [
    shapeIf qod [128, t, qod.dim 2, qod.dim 3, 3],
    shapeIf kv [128, t, qod.dim 2, qod.dim 3, 2],
    failIf (t % 64 ≠ 0) (failNone stNounShape 1),
    shapeIf dqkv [128, t, qod.dim 2, qod.dim 3, 3],
    shapeIf stats [2, t, qod.dim 2, qod.dim 3],
    attentionFormats qod kv dqkv,
    failIf (stats.format ≠ 0) (failNone stNounShape 7)]

/-- Row r of head `hb` (head + heads × batch) of plane z, in a tensor of 128 × T × HB × Z. -/
def attnRow (a : Array (Val × Bool)) (t hbs r hb z : Nat) : List (Val × Bool) :=
  (List.range 128).map (fun d => a.getD (d + 128 * (r + t * (hb + hbs * z))) (Val.zero, false))

/-- Query row r may attend key t (R211). -/
def attends (causal : Bool) (tq tk r t : Nat) : Bool := !causal || decide (t + tq ≤ tk + r)

/-- Key blocks that a query block works: those with some pair not masked (R211). -/
def keyBlocks (causal : Bool) (tq tk qb : Nat) : List Nat :=
  (List.range (tk / 64)).filter (fun kb =>
    (List.range 64).any (fun i => (List.range 64).any (fun j => attends causal tq tk (64 * qb + i) (64 * kb + j))))

/-- Scaled scores of a query row against a key block (R212). -/
def scaledScores (tau : Val) (causal : Bool) (tq tk r kb : Nat) (q : List Val) (ks : List (List Val)) : List Val :=
  (ks.zipIdx).map (fun k =>
    if attends causal tq tk r (64 * kb + k.2) then round32 ((dot q k.1).mul tau) else .inf true)

/-- Running state of a query row: m, l, O (R212). -/
structure RowState where
  m : Val
  l : Val
  o : List Val
deriving DecidableEq, Repr

def RowState.start : RowState := { m := .inf true, l := Val.zero, o := List.replicate 128 Val.zero }

/-- One key block of the forward pass (R212). -/
def forwardBlock (scores : List Val) (vs : List (List Val)) (x : RowState) : RowState :=
  let mn := x.m.maximum (redMax32 (indexed scores))
  let a := if x.m = .inf true then Val.zero else exp32 (round32 (x.m.sub mn))
  let p := scores.map (fun v => toBf16 (exp32 (round32 (v.sub mn))))
  let u := (List.range 128).map (fun d => dot p (vs.map (fun row => row.getD d Val.zero)))
  { m := mn
    l := round32 ((round32 (x.l.mul a)).add (redSum32 (indexed p)))
    o := (x.o.zip u).map (fun y => round32 ((round32 (y.1.mul a)).add y.2)) }

/-- The values without their poison. -/
def plainRow (l : List (Val × Bool)) : List Val := l.map (·.1)
def rowBad (l : List (Val × Bool)) : Bool := l.any (·.2)

/-- Attention forward of a started clause: O and, when used, the row statistics. The arrays show its last product, BF16
by V in the base mode (R115, R210, log 45). -/
def State.attnForward (s : State) (r : Nat) (c : ClauseSt) : State :=
  let q := c.noun 0
  let kv := c.noun 1
  let o := c.noun 2
  let tq := q.dim 1
  let tk := kv.dim 1
  let hbs := q.dim 2 * q.dim 3
  let tau := fromFp32 (attnTau c.bits)
  let causal := attnCausal c.bits
  let qa := (s.loadVals q).toArray
  let ka := (s.loadVals kv).toArray
  let rows := (List.range hbs).flatMap (fun hb => (List.range tq).map (fun i =>
    let qr := attnRow qa tq hbs i hb 0
    let blocks := keyBlocks causal tq tk (i / 64)
    let krows (kb z : Nat) := (List.range 64).map (fun t => attnRow ka tk hbs (64 * kb + t) hb z)
    let fin := blocks.foldl (fun x kb =>
      forwardBlock (scaledScores tau causal tq tk i kb (plainRow qr) ((krows kb 0).map plainRow)) ((krows kb 1).map plainRow) x)
      RowState.start
    let none_ := !(List.range tk).any (attends causal tq tk i)
    let badQ := rowBad qr && !blocks.isEmpty
    let badK := blocks.any (fun kb => (krows kb 0).any rowBad || (krows kb 1).any rowBad)
    (if none_ then RowState.start else fin,
     if none_ then List.replicate 128 Val.zero else fin.o.map (fun v => div32 v fin.l), badQ, badK)))
  let conv := convertTensor o.format (clConv c.bits) (rows.flatMap (fun x => x.2.1.map (fun v => (v, x.2.2.1 || x.2.2.2))))
  let s1 := s.storeTensor o (conv.elems.map some)
  let s2 := if c.hasNoun 3 then
      let st := convertTensor 0 Conv.plain (rows.flatMap (fun x =>
        [(x.1.m, x.2.2.1 || x.2.2.2), (x.1.l, x.2.2.1 || x.2.2.2)]))
      s1.storeTensor (c.noun 3) (st.elems.map some)
    else s1
  let verdict := if rows.any (fun x => x.2.2.1) then some (failSlot stPoisonConsumed 0 0)
    else if rows.any (fun x => x.2.2.2) then some (failSlot stPoisonConsumed 1 0) else none
  s2.workDone r c.index (fun x =>
    { x with verdict := verdict, saturated := conv.saturated })

def execAttentionForward (ring slot : Nat) (host : HostView) (s : State) : Answer :=
  match s.startedClause ring slot verbAttnFwd with
  | some c => .next (if s.stageLoaded ring then (s.seeHost host).runImage ring c else (s.seeHost host).attnForward ring c)
  | none => .next s

/-- FP32 partials added with round in the order given (R214). -/
def outerSum : List (List Val) → List Val
  | [] => List.replicate 128 Val.zero
  | p :: r => r.foldl (fun y x => (y.zip x).map (fun v => round32 (v.1.add v.2))) p

/-- Probability and dS of one query row against one key block (R214). -/
def backwardBlock (scores : List Val) (m l dr : Val) (dps : List Val) : List (Val × Val) :=
  (scores.zip dps).map (fun x =>
    let p := div32 (exp32 (round32 (x.1.sub m))) l
    (p, toBf16 (round32 (p.mul (round32 (x.2.sub dr))))))

/-- Attention backward of a started clause (R214, R215). The arrays show its last product, BF16 by dO (R115, log 45). -/
def State.attnBackward (s : State) (r : Nat) (c : ClauseSt) : State :=
  let qod := c.noun 0
  let kv := c.noun 1
  let stats := c.noun 2
  let out := c.noun 3
  let t := qod.dim 1
  let hbs := qod.dim 2 * qod.dim 3
  let tau := fromFp32 (attnTau c.bits)
  let causal := attnCausal c.bits
  let qa := (s.loadVals qod).toArray
  let ka := (s.loadVals kv).toArray
  let sa := (s.loadVals stats).toArray
  let nb := t / 64
  let heads := (List.range hbs).map (fun hb =>
    let qr (i : Nat) := attnRow qa t hbs i hb 0
    let orow (i : Nat) := attnRow qa t hbs i hb 1
    let dorow (i : Nat) := attnRow qa t hbs i hb 2
    let kr (j : Nat) := attnRow ka t hbs j hb 0
    let vr (j : Nat) := attnRow ka t hbs j hb 1
    let stat (i z : Nat) := sa.getD (z + 2 * (i + t * hb)) (Val.zero, false)
    -- p and dS by query row, key block, key of the block
    let work := (List.range t).map (fun i =>
      let dr := redSum32 (indexed (((plainRow (dorow i)).zip (plainRow (orow i))).map (fun x => round32 (x.1.mul x.2))))
      (keyBlocks causal t t (i / 64)).map (fun kb =>
        let ks := (List.range 64).map (fun j => plainRow (kr (64 * kb + j)))
        let vs := (List.range 64).map (fun j => plainRow (vr (64 * kb + j)))
        (kb, backwardBlock (scaledScores tau causal t t i kb (plainRow (qr i)) ks) (stat i 0).1 (stat i 1).1 dr
          (vs.map (fun v => dot (plainRow (dorow i)) v)))))
    let wa := work.toArray
    let cell (i kb j : Nat) : Val × Val :=
      match (wa.getD i []).find? (fun x => x.1 == kb) with
      | some x => x.2.getD j (Val.zero, Val.zero)
      | none => (Val.zero, Val.zero)
    let dq := (List.range t).map (fun i =>
      (outerSum ((wa.getD i []).map (fun x => (List.range 128).map (fun d =>
        dot (x.2.map (·.2)) ((List.range 64).map (fun j => ((kr (64 * x.1 + j)).getD d (Val.zero, false)).1)))))).map
          (fun v => round32 (v.mul tau)))
    let colSum (j : Nat) (pick : Val × Val → Val) (row : Nat → List (Val × Bool)) : List Val :=
      outerSum (((List.range nb).filter (fun qb => (keyBlocks causal t t qb).contains (j / 64))).map (fun qb =>
        (List.range 128).map (fun d => dot ((List.range 64).map (fun i => pick (cell (64 * qb + i) (j / 64) (j % 64))))
          ((List.range 64).map (fun i => ((row (64 * qb + i)).getD d (Val.zero, false)).1)))))
    let dk := (List.range t).map (fun j => (colSum j (·.2) qr).map (fun v => round32 (v.mul tau)))
    let dv := (List.range t).map (fun j => colSum j (fun x => toBf16 x.1) dorow)
    let badQ := (List.range t).any (fun i => rowBad (qr i) || rowBad (orow i) || rowBad (dorow i))
    let badK := (List.range t).any (fun i => rowBad (kr i) || rowBad (vr i))
    let badS := (List.range t).any (fun i => (stat i 0).2 || (stat i 1).2)
    (dq, dk, dv, badQ, badK, badS))
  let plane (pick : (List (List Val) × List (List Val) × List (List Val) × Bool × Bool × Bool) → List (List Val)) :=
    heads.flatMap (fun h => (pick h).flatMap (fun row => row.map (fun v => (v, h.2.2.2.1 || h.2.2.2.2.1 || h.2.2.2.2.2))))
  let conv := convertTensor out.format (clConv c.bits) (plane (·.1) ++ plane (·.2.1) ++ plane (·.2.2.1))
  let verdict := if heads.any (fun h => h.2.2.2.1) then some (failSlot stPoisonConsumed 0 0)
    else if heads.any (fun h => h.2.2.2.2.1) then some (failSlot stPoisonConsumed 1 0)
    else if heads.any (fun h => h.2.2.2.2.2) then some (failSlot stPoisonConsumed 2 0) else none
  let s1 := s.storeTensor out (conv.elems.map some)
  s1.workDone r c.index (fun x =>
    { x with verdict := verdict, saturated := conv.saturated
             nonFinite := if clNfWatch c.bits then conv.nonFinite else 0 })

def execAttentionBackward (ring slot : Nat) (host : HostView) (s : State) : Answer :=
  match s.startedClause ring slot verbAttnBwd with
  | some c => .next (if s.stageLoaded ring then (s.seeHost host).runImage ring c else (s.seeHost host).attnBackward ring c)
  | none => .next s

end Sys2Proof.Machine
end

