-- ==== Sys2Proof/Machine/Waves.lean ====
section
/-! DEFINITION. Decide and release waves: sync object 0 on the tree, and what a wave's release does to a step (10 R327
to R334, R340; 09 R304 to R306). -/

namespace Sys2Proof.Machine

def updElems : Nat := 0xE00800
def updSkips : Nat := 0xE00808
def updSlowStall : Nat := 0xE00818
def updDiscards : Nat := 0xE00810
def updAuditFix : Nat := 0xE00820
def updNf : Nat := 0xE00828
def updDigests : Nat := 0xE00830

/-! ### Sync frames (R282) -/

/-- What a sync frame carries. -/
structure SyncArg where
  object   : Nat
  gen      : Bool
  value    : Bool
  mismatch : Bool
  step     : Nat
deriving DecidableEq, Repr

def SyncArg.encode (a : SyncArg) : Nat :=
  a.object % 2 ^ 12 + flag a.gen * 2 ^ 12 + flag a.value * 2 ^ 13 + flag a.mismatch * 2 ^ 14 + a.step % 2 ^ 32 * 2 ^ 16
def parseSync (arg : Nat) : SyncArg :=
  { object := bits arg 11 0, gen := bitAt arg 12, value := bitAt arg 13, mismatch := bitAt arg 14, step := bits arg 47 16 }

/-- Child ports of the sync tree. -/
def State.childPorts (s : State) : List Nat := (List.range 12).filter (fun p => s.applied.syncChildren.getLsbD p)

/-- A SYNC_UP frame to the parent; a SYNC_DOWN frame to every child. -/
def State.sendSyncUp (s : State) (a : SyncArg) : State :=
  let p := s.applied.syncParent.toNat
  s.emitOn p (s.newFrame (s.port p).peerId.toNat 1 0 a.encode [] [])
def State.sendSyncDown (s : State) (a : SyncArg) : State :=
  s.childPorts.foldl (fun t p => t.emitOn p (t.newFrame (t.port p).peerId.toNat 1 1 a.encode [] [])) s

/-- Arrivals of a wave together: value, MISMATCH, STEP to send (R305, R330). -/
def Wave.combine (w : Wave) (own : Option (Bool × Nat)) : Bool × Bool × Option Nat :=
  let steps := (match own with
    | some o => [o.2]
    | none => []) ++ w.inputs.map (fun e => e.2.2.1)
  let v := (match own with
    | some o => o.1
    | none => false) || w.inputs.any (fun e => e.2.1)
  let mm := w.inputs.any (fun e => e.2.2.2) || steps.any (fun x => some x ≠ steps.head?)
  (v, mm, steps.head?)

/-- The step owner of CHAIN scope (R327). -/
def State.chainOwner (s : State) : Option Nat := (s.steps.find? (fun e => e.2.chain)).map (·.1)
/-- A compute-only reset is under way (R306, R494). -/
def State.inReset (s : State) : Bool := s.glb.rstState ≠ 0
/-- The owner whose arrival object 0 waits for: none while the device is in reset (R306, R330). -/
def State.waveOwner (s : State) : Option Nat := if s.inReset then none else s.chainOwner

/-- Object 0 is released here: down the tree, and to this device's owner, or the next wave begins at once. -/
def State.releaseWave0 (s : State) (v mm : Bool) : State :=
  let w := s.lnk.wave0
  let s1 := s.sendSyncDown { object := 0, gen := w.gen, value := v, mismatch := mm, step := 0 }
  match s.waveOwner with
  | some _ => { s1 with lnk := { s1.lnk with wave0 := { w with released := some (v, mm) } } }
  | none => { s1 with lnk := { s1.lnk with wave0 := { Wave.idle with gen := !w.gen } } }

/-- STEP values at object 0 that differ are told, each with both values (R305, R308). -/
def State.stepDiffer (s : State) (own : Option (Bool × Nat)) (inputs : Tbl (Bool × Nat × Bool)) : State :=
  let mine := match own, inputs with
    | some o, _ => o.2
    | none, e :: _ => e.2.2.1
    | none, [] => 0
  (inputs.filter (fun e => decide (e.2.2.1 ≠ mine))).foldl (fun t e =>
    t.event .stepMismatch none 5 e.1 none 0 [BitVec.ofNat 64 mine, BitVec.ofNat 64 e.2.2.1]) s

/-- Object 0 goes on once every arrival it waits for is there: up the tree, or released at the root (R330). -/
def State.stepWave0 (s : State) : State :=
  let w := s.lnk.wave0
  let kids := s.childPorts
  let here := match s.waveOwner with
    | some _ => w.own.isSome
    | none => true
  if w.sentUp || w.released.isSome || !here || !kids.all (fun p => (Tbl.find w.inputs p).isSome) then s
  else
    let own := if s.waveOwner.isSome then w.own else none
    let c := w.combine own
    let t := s.stepDiffer own w.inputs
    if s.applied.syncRoot then
      if own.isNone && kids.isEmpty then s else t.releaseWave0 (c.1 || c.2.1) c.2.1
    else if own.isNone && kids.isEmpty && !s.portUp s.applied.syncParent.toNat then s
    else
      -- a device without STEP of its own or of inputs has none to send: free (log 7)
      let step := c.2.2.getD (s.free.toNat % 2 ^ 32)
      let s1 := if c.2.2.isNone then t.tookFree else t
      let s2 := s1.sendSyncUp { object := 0, gen := w.gen, value := c.1, mismatch := c.2.1, step := step }
      { s2 with lnk := { s2.lnk with wave0 := { w with sentUp := true } } }

/-! ### A step owner's wave -/

def State.waveOf (s : State) (x : StepSt) : Wave := if x.chain then s.lnk.wave0 else x.wave

/-- A step owner arrives with a value, unless its arrival is in the tree already (R330, R332). -/
def State.arriveStep (s : State) (o kind : Nat) (v : Bool) (r index : Nat) : State :=
  match s.stepOf o with
  | none => s
  | some x =>
    let y := { x with waveKind := kind, owing := some (r, index) }
    let t := s.dataBegun r index
    if (s.waveOf x).own.isSome then t.setStep o y
    else if x.chain then
      let s1 := t.setStep o y
      ({ s1 with lnk := { s1.lnk with wave0 := { s1.lnk.wave0 with own := some (v, x.step.toNat) } } }).stepWave0
    else t.setStep o { y with wave := { x.wave with own := some (v, x.step.toNat), released := some (v, false) } }

/-- The wave of an owner is over: the next one has the other generation. -/
def State.endWave (s : State) (o : Nat) : State :=
  match s.stepOf o with
  | none => s
  | some x =>
    if x.chain then
      ({ s with lnk := { s.lnk with wave0 := { Wave.idle with gen := !s.lnk.wave0.gen } } }).setStep o { x with waveKind := 0 }
    else s.setStep o { x with waveKind := 0, wave := { Wave.idle with gen := !x.wave.gen } }

/-! ### Publishing banks (R319, R323) -/

/-- A noun entry leaves the front end's cache. -/
def State.forgetNoun (s : State) (i : Nat) : State :=
  { s with cmd := { s.cmd with nouns := s.cmd.nouns.filter (fun e => decide (e.1 ≠ i)) } }

/-- A set's CUR flips, and its WNOUN takes the address of the bank that became current; its cached copy is dropped. -/
def State.flipSet (s : State) (i : Nat) : State :=
  let p := parsePset (s.psetBytes i)
  let wn := s.readNoun p.wnoun
  let w := p.dva 3 (1 - p.bank)
  let b0 := leNat (s.dpaRead (s.psetDpa i) 1)
  let s1 := s.dpaWrite (s.psetDpa i) [BitVec.ofNat 8 b0 ^^^ 8] false
  let s2 := s1.dpaWrite (s1.nounDpa p.wnoun) (natLe 6 w) false
  (if isMx wn.format then s2.dpaWrite (s2.nounDpa p.wnoun + 0x30) (natLe 6 (w + roundUp 64 (workData wn))) false else s2).forgetNoun p.wnoun

/-- Slow sets of a step owner. -/
def State.slowSets (s : State) (o : Nat) : List Nat :=
  (Tbl.keys s.slow).filter (fun i => s.ownerOf (parsePset (s.psetBytes i)).field == some o)

/-- The step whose application the advance from STEP n publishes for a set (R340). -/
def State.dueStep (s : State) (i n : Nat) : Option Nat :=
  let d := (parsePset (s.psetBytes i)).delay
  if d ≤ n then some (n - d) else none

/-- An application that the advance from STEP n publishes is not complete (R340). -/
def State.slowDue (s : State) (o n : Nat) : Bool :=
  (s.slowSets o).any (fun i => match s.dueStep i n with
    | some j => (s.slowSet i).committed.contains j
    | none => false)

/-- The advance from STEP n publishes the applications due (R340). -/
def State.publishDue (s : State) (o n : Nat) : State :=
  (s.slowSets o).foldl (fun t i => match t.dueStep i n with
    | some j =>
      if (t.slowSet i).applied.contains j then
        (t.flipSet i).setSlow i { t.slowSet i with applied := delSet j (t.slowSet i).applied }
      else t
    | none => t) s

/-- A wait of R339 or R340 that began at t0 is over: its microseconds are counted. -/
def State.countStall (s : State) (t0 : Word64) : State := s.ctrAdd updSlowStall ((s.time - t0).toNat / 1000)

/-- A RELEASE whose outcome is an advance ends once its due applications are complete: then
the sets flip and STEP advances (R334, R340). -/
def State.tryAdvance (s : State) (o : Nat) : State :=
  match s.stepOf o with
  | none => s
  | some x =>
    let n := x.step.toNat
    if x.outcome = 0 ∨ x.outcome = 255 then s
    else if s.slowDue o n then
      (if x.stallFrom.isSome then s else s.setStep o { x with stallFrom := some s.time })
    else
      let s0 := if x.outcome = 1 then
          x.applied.foldl (fun t i => if (parsePset (t.psetBytes i)).slow then t else t.flipSet i) s else s
      let s1 := s0.publishDue o n
      let s2 := s1.setStep o { x with step := x.step + 1, phase := .open, applied := [], forced := false, outcome := 0, owing := none
                                      stallFrom := none }
      let s4 := match x.stallFrom with
        | some t0 => s2.countStall t0
        | none => s2
      let s3 := if x.outcome = 2 then s4.ctrAdd updSkips 1 else s4
      match x.owing with
      | some (r, index) => s3.workDone r index (fun c => c)
      | none => s3

/-- Slow sets' gradients staged in step n: their commit is decided, or their slots are freed. -/
def State.settleStaged (s : State) (o n : Nat) (commit : Bool) : State :=
  (s.slowSets o).foldl (fun t i =>
    let x := t.slowSet i
    if x.staged.contains n then
      t.setSlow i { x with staged := delSet n x.staged, committed := if commit then insSet n x.committed else x.committed }
    else t) s

/-- MISMATCH came down with a wave: every device raises an event (R305). -/
def State.mismatchEvent (s : State) (o : Nat) (x : StepSt) (mm : Bool) : State :=
  if mm then s.event .stepMismatch none 0 o (some o) 0 [BitVec.ofNat 64 x.step.toNat] else s

/-- The outcome of a release wave (R334). -/
def State.releaseOutcome (s0 : State) (o : Nat) (x : StepSt) (bad mm : Bool) : State :=
  let s := s0.mismatchEvent o x mm
  let n := x.step.toNat
  if x.phase = .skip then (s.setStep o { x with outcome := 2 }).tryAdvance o
  else if bad then
    let s1 := (s.settleStaged o n false).ctrAdd updDiscards 1
    let s2 := s1.setStep o { x with phase := .open, applied := [], forced := false, owing := none }
    match x.owing with
    | some (r, index) => s2.workDone r index (fun c => c)
    | none => s2
  else
    ((s.settleStaged o n true).setStep o { x with outcome := 1 }).tryAdvance o

/-- The outcome of a decide wave (R331). -/
def State.decideOutcome (s : State) (o : Nat) (x : StepSt) (v mm : Bool) : State :=
  let skip := v || mm
  let detail := flag skip + 2 * flag mm + 4 * flag x.normSkip
  let s1 := s.setStep o { x with phase := if skip then .skip else .pass, owing := none }
  let s2 := if skip then s1.event .stepSkip none 0 o (some o) detail [BitVec.ofNat 64 x.step.toNat] else s1
  match x.owing with
  | some (r, index) => s2.workDone r index (fun c => { c with detail := detail })
  | none => s2

/-- WAVE_RELEASE: the released wave of an owner is applied to its step, when a clause waits for it (R330 to R334). -/
def execWaveRelease (owner : Nat) (s : State) : Answer :=
  match s.stepOf owner with
  | none => .next s
  | some x =>
    match (s.waveOf x).released, x.owing with
    | some (v, mm), some _ =>
      let s1 := s.endWave owner
      match s1.stepOf owner with
      | none => .next s1
      | some y =>
        let t := if x.waveKind = 1 then s1.decideOutcome owner y v mm else s1.releaseOutcome owner y (v || mm) mm
        .next (if y.chain then t.stepWave0 else t)
    | _, _ => .next s

/-- WAVE_TIMEOUT: the clause of an unreleased wave fails with REDUCE_TIMEOUT; its arrival stays in the tree (R332). -/
def execWaveTimeout (ring slot : Nat) (s : State) : Answer :=
  match (s.ring ring).clauseAt slot, s.ownerOf (s.ring ring).field with
  | some c, some o =>
    match s.stepOf o with
    | some x =>
      if x.owing = some (ring, c.index) ∧ x.outcome = 0 ∧ (s.waveOf x).released = none ∧ !s.halted then
        .next ((s.setStep o { x with owing := none }).failClause ring c.index (failNone stReduceTimeout 3))
      else .next s
    | none => .next s
  | _, _ => .next s

/-! ### Rows of the sync tree for object 0 -/

/-- SYNC_UP of object 0: the arrival of a child, when it belongs to the present wave (R330). -/
def State.syncUp0 (s : State) (p : Nat) (f : Frame) : State :=
  let a := parseSync f.arg
  let w := s.lnk.wave0
  if a.gen = w.gen ∧ w.released = none then
    let s1 := s.inboxTake p f
    ({ s1 with lnk := { s1.lnk with
        wave0 := { w with inputs := (w.inputs.filter (fun (e : Nat × Bool × Nat × Bool) => decide (e.1 < p))) ++ [(p, a.value, a.step, a.mismatch)]
                            ++ (w.inputs.filter (fun (e : Nat × Bool × Nat × Bool) => decide (p < e.1))) } } }).stepWave0
  else if a.gen ≠ w.gen ∧ w.released.isSome then s   -- the next wave's: it waits until this one is over
  else s.inboxTake p f                               -- a repeat of an arrival taken before

/-- SYNC_DOWN of object 0. -/
def State.syncDown0 (s : State) (p : Nat) (f : Frame) : State :=
  let a := parseSync f.arg
  let s1 := s.inboxTake p f
  if a.gen = s.lnk.wave0.gen ∧ s.lnk.wave0.released = none then
    let s2 := s1.releaseWave0 a.value a.mismatch
    if s2.waveOwner.isNone then s2.stepWave0 else s2
  else s1

end Sys2Proof.Machine
end

