-- ==== Sys2Proof/Machine/Collect.lean ====
section
/-! DEFINITION. Reductions on the die and across devices: reduce, all-reduce, reduce-scatter, all-gather, broadcast
(08 R259 to R264, 09 R299 to R303, 11 R369 to R373). -/

namespace Sys2Proof.Machine

/-! ### Modifiers and checks (R369, R370, R372) -/

def coSrcRbuf (c : BitVec 512) : Bool := clModBit c 40
def coRbuf (c : BitVec 512) : Nat := clModBits c 44 41
def coLocalM1 (c : BitVec 512) : Nat := clModBits c 52 45
def coGroup (c : BitVec 512) : Nat := clModBits c 64 53

def collectModifiers (c : BitVec 512) : Option Failure :=
  if clVerb c = verbAllReduce ∨ clVerb c = verbReduceScatter then
    firstFailure [failIf (!coSrcRbuf c && coRbuf c ≠ 0) (failNone stBadModifier 41),
      failIf (coSrcRbuf c && coLocalM1 c ≠ 0) (failNone stBadModifier 45)]
  else none

/-- E of a reducing clause (R370, R371): from IN, or from OUT when a buffer is the source. -/
def reduceElems (c : BitVec 512) (n : Nat) (inp out : Noun) : Nat :=
  if coSrcRbuf c ∧ clVerb c ≠ verbReduce then (if clVerb c = verbReduceScatter then out.count * n else out.count)
  else inp.count / (coLocalM1 c + 1)

def mxShapeBad (n : Noun) : Bool := isMx n.format && n.dim 0 % 32 ≠ 0

/-- The checks of the reducing verbs (R370, R371, R268). -/
def checkReduce (f : Option FieldSt) (c : BitVec 512) (g : Group) (inp out : Noun) (seed : Option Noun) : Option Failure :=
  let src := coSrcRbuf c && clVerb c ≠ verbReduce
  let n := if clVerb c = verbReduce then 1 else g.members
  let e := reduceElems c n inp out
  firstFailure [
    failIf (clVerb c ≠ verbReduce && !g.valid) (failNone stGroupInvalid 0),
    failIf (!src && coLocalM1 c ≠ 0 && inp.dim (inp.rank - 1) ≠ coLocalM1 c + 1) (failNone stNounShape (inp.rank - 1)),
    (seed.bind (fun x => failIf (x.count ≠ e) (failNone stNounShape 0))),
    failIf (clVerb c == verbReduceScatter && e % (4096 * n) ≠ 0) (failNone stNounShape 0),
    failIf (out.count ≠ (if clVerb c = verbReduceScatter then e / n else e)) (failNone stNounShape 0),
    failIf (mxShapeBad out) (failNone stNounShape 0),
    failIf (!src && !(inp.format == 0 || inp.format == 1)) (failNone stFormatPair 0),
    (seed.bind (fun x => failIf (x.format ≠ 0) (failNone stFormatPair 0))),
    failIf (!outputAllowed false out.format) (failNone stFormatPair 0),
    (if src then match f with
      | some x => firstFailure [failIf (!x.rbufHolds (coRbuf c) e) (failNone stRbufLayout 0),
          failIf (x.rbuf (coRbuf c)).isEmpty (failNone stRbufEmpty 0)]
      | none => none
    else none)]

/-- The checks of all-gather and broadcast (R372). -/
def checkGather (c : BitVec 512) (g : Group) (inp : Option Noun) (out : Noun) : Option Failure :=
  firstFailure [
    failIf (!g.valid) (failNone stGroupInvalid 0),
    (inp.bind (fun i => failIf (out.count ≠ (if clVerb c = verbAllGather then i.count * g.members else i.count)) (failNone stNounShape 0))),
    failIf (mxShapeBad out) (failNone stNounShape 0),
    (inp.bind (fun i => failIf (i.format ≠ out.format) (failNone stFormatPair 0)))]

/-! ### Sums (R260, R300) -/

abbrev Sum := List (Val × Bool)
def addSums (a b : Sum) : Sum := (a.zip b).map (fun p => (round32 (p.1.1.add p.2.1), p.1.2 || p.2.2))

/-- Contributions added in rank order, after the seed where there is one (R260). -/
def reduceSum (seed : Option Sum) (parts : List Sum) : Sum :=
  match seed, parts with
  | some y, _ => parts.foldl addSums y
  | none, y :: r => r.foldl addSums y
  | none, [] => []

/-- The local contributions of a reducing clause. -/
def State.localParts (s : State) (f : Option FieldSt) (c : ClauseSt) (e : Nat) : List Sum :=
  if coSrcRbuf c.bits ∧ clVerb c.bits ≠ verbReduce then
    match f with
    | some x => [(s.rbufRead x (coRbuf c.bits) e).map (fun w => (fromFp32 w.1, w.2))]
    | none => []
  else chunksOf e (coLocalM1 c.bits + 1) (s.loadVals (c.noun 0))

/-- A buffer of which n elements were read becomes EMPTY; what the words' code found is counted (R145, R268). -/
def State.emptyRbuf (s : State) (fid b n : Nat) : State :=
  match s.fieldOf fid with
  | some x => (s.rbufSeen x b n).setRbuf fid x b { x.rbuf b with pass := 0 }
  | none => s

/-- The failure a poisoned contribution leaves (R263, R303): the slot it came from, where it has one. -/
def poisonVerdict (seedBad inBad : Bool) : Option Failure :=
  if inBad then some (failSlot stPoisonConsumed 0 0) else if seedBad then some (failSlot stPoisonConsumed 2 0) else none

/-- The clause reads a reduction buffer that is EMPTY by now: another clause has taken its contents since its issue (R268). -/
def State.emptySource (s : State) (r : Nat) (c : ClauseSt) : Bool :=
  coSrcRbuf c.bits && clVerb c.bits ≠ verbReduce &&
  (match s.fieldOf (s.ring r).field with
   | some x => (x.rbuf (coRbuf c.bits)).isEmpty
   | none => false)

/-- REDUCE of a started clause, and a group of one member (R371). -/
def State.reduceHere (s : State) (r : Nat) (c : ClauseSt) : State :=
  let fid := (s.ring r).field
  let out := c.noun 1
  let parts := s.localParts (s.fieldOf fid) c out.count
  let seed := if c.hasNoun 2 then some (s.loadVals (c.noun 2)) else none
  let sum := if clVerb c.bits = verbReduce then reduceSum seed parts
    else match seed with
      | some y => addSums y (reduceSum none parts)
      | none => reduceSum none parts
  let conv := convertTensor out.format (clConv c.bits) sum
  let s1 := s.storeTensor out (conv.elems.map some)
  let s2 := if coSrcRbuf c.bits ∧ clVerb c.bits ≠ verbReduce then s1.emptyRbuf fid (coRbuf c.bits) out.count else s1
  s2.workDone r c.index (fun x =>
    { x with verdict := poisonVerdict ((seed.getD []).any (·.2)) (parts.any (fun p => p.any (·.2))), saturated := conv.saturated, passes := some 0
             nonFinite := if clNfWatch c.bits then conv.nonFinite else 0 })

def execReduce (ring slot : Nat) (host : HostView) (s : State) : Answer :=
  match s.startedClause ring slot verbReduce with
  | some c => .next ((s.seeHost host).reduceHere ring c)
  | none => .next s

/-! ### The norm check of a DECIDE (R333), continued when its all-reduce is done -/

def decNormCheck (c : BitVec 512) : Bool := clModBit c 4
def decGroup (c : BitVec 512) : Nat := clModBits c 16 5
def decNormMax (c : BitVec 512) : Word32 := BitVec.ofNat 32 (clModBits c 63 32)

/-- A DECIDE arrives with its value; `n2` is the reduced sum of squares where it checks the norm. Its NF is that of its
start: with a norm check the one held since then, and what was raised meanwhile is the next step's (R328, R329). -/
def State.decideArrive (s : State) (r : Nat) (c : ClauseSt) (n2 : Option Word32) : State :=
  match s.ownerOf (s.ring r).field with
  | none => s
  | some o =>
    match s.stepOf o with
    | none => s
    | some x =>
      let norm := n2.map (fun w => laneOp fp32 0 0x22 (fromFp32 w) Val.zero Val.zero)
      let bad := match norm with
        | some v => !v.isFinite || (fromFp32 (decNormMax c.bits)).lt v
        | none => false
      let s1 := match norm with
        | some v => s.storeTensor (c.noun 1) [some { Elem.zero with code := (toFp32 v).toNat }]
        | none => s
      let word := match norm with
        | some v => toFp32 v
        | none => 0
      if (s.waveOf x).own.isSome then s1.arriveStep o 1 false r c.index
      else
        let mine := x.nfHeld || (n2.isNone && x.nf)
        (s1.setStep o { x with nf := n2.isSome && x.nf, nfHeld := false, norm := word, normSkip := bad }).arriveStep o 1 (mine || bad) r c.index

/-! ### Collectives across devices -/

def redArg (c : Coll) (block part rank : Nat) : Nat :=
  block % 2 ^ 15 + part * 2 ^ 15 + c.group * 2 ^ 17 + rank * 2 ^ 29 + c.member * 2 ^ 46

/-- Bytes as the parts of a block, each padded to whole 32-byte units, with their poisoned units. -/
def partsOf (bs : List PByte) : List (List Byte × List Nat) :=
  (chunksOf 4096 (bs.length / 4096 + 1) bs).map (fun c =>
    (c.map (·.byte) ++ List.replicate (roundUp 32 c.length - c.length) 0,
     ((chunksOf 32 129 c).zipIdx).filterMap (fun u => if u.1.any (·.poison) then some u.2 else none)))

/-- A block sent to devices: RED_UP (kind 0) or RED_DOWN (kind 1). -/
def State.sendBlock (s : State) (c : Coll) (kind block rank : Nat) (bs : List PByte) (dsts : List Nat) : State :=
  dsts.foldl (fun t d => ((partsOf bs).zipIdx).foldl (fun u p =>
    u.emit (u.newFrame d 4 kind (redArg c block p.2 rank) p.1.1 p.1.2)) t) s

/-- The n bytes of a block from its parts; `none` while one is missing. -/
def assemble (ps : List Part) (block rank n : Nat) : Option (List PByte) :=
  let mine := ps.filter (fun p => p.block == block && p.rank == rank)
  let want := ceilDiv n 4096
  if (List.range want).all (fun k => mine.any (fun p => p.part == k)) then
    some (((List.range want).flatMap (fun k =>
      match mine.find? (fun p => p.part == k) with
      | some p => (p.bytes.zipIdx).map (fun b => ({ byte := b.1, poison := p.flits.contains (b.2 / 32) } : PByte))
      | none => [])).take n)
  else none

def sumBytes (y : Sum) : List PByte :=
  y.flatMap (fun v => (natLe 4 (toFp32 v.1).toNat).map (fun b => { byte := b, poison := v.2 }))
/-- Elements of `unit` bytes: FP32, or BF16, which is widened exactly (R260). -/
def sumOfBytes (unit : Nat) (bs : List PByte) : Sum :=
  (chunksOf unit (bs.length / unit + 1) bs).map (fun c =>
    (fromFp32 (BitVec.ofNat 32 (leNat (c.map (·.byte)) * 2 ^ (32 - 8 * unit))), c.any (·.poison)))

/-- L, or the seed with L, of a block. -/
def Coll.own (c : Coll) (b : Nat) : Sum :=
  let part (l : Sum) : Sum := (l.drop (4096 * b)).take 4096
  let l := part ((c.words.zipIdx).map (fun w => (fromFp32 w.1, c.bad.contains w.2)))
  if c.seed.isEmpty then l else addSums (part (c.seed.map (fun w => (fromFp32 w.1, w.2)))) l

/-- The sum of a block from one input: four parts of FP32 elements, or two of BF16 ones, as its FMT says (R282). -/
def Coll.inputSum (c : Coll) (b rank : Nat) : Option Sum :=
  let bf := c.parts.any (fun p => p.block == b && p.rank == rank && p.bf16)
  let unit := if bf then 2 else 4
  (assemble c.parts b rank (unit * blockElems c.elems b)).map (sumOfBytes unit)

/-- A block combined when every part of every input is present (R300, R301). -/
def Coll.combine (c : Coll) (b : Nat) : Option Sum :=
  let ins := c.grp.ins.map (fun d => c.inputSum b d.2)
  if ins.any (·.isNone) then none
  else
    let ys := ins.map (fun o => o.getD [])
    if c.grp.topo = 1 then
      match ys with
      | y :: _ => some (addSums y (c.own b))
      | [] => some (c.own b)
    else some (ys.foldl addSums (c.own b))

/-- Index in OUT of the block's first element: a share of reduce-scatter begins anew (R300, R371). -/
def Coll.outBase (c : Coll) (b : Nat) : Nat := if c.verb = verbReduceScatter then 4096 * b % (c.elems / c.grp.members) else 4096 * b
/-- A clause of the collective that has not completed. -/
def State.collClause (s : State) (c : Coll) : Option ClauseSt :=
  match (s.ring c.ring).clauseOf c.index with
  | some x => if x.phase = Phase.started ∧ x.worked = false ∧ x.bits = c.bits then some x else none
  | none => none

/-- Once every block wanted is written the clause's work is done; once every block has passed, the instance is over. -/
def State.settleColl (s : State) (c : Coll) : State :=
  let all := List.range (collBlocks c.elems)
  let s1 :=
    if all.all (fun b => !c.wants b || c.done.contains b) then
      match s.collClause c with
      | some x =>
        if c.verb = verbUpdate then s   -- its one block was handed on by `deliverBlock`
        else
          let bad := !c.bad.isEmpty || c.seed.any (·.2) || c.tainted
          let t := if bad then s.tellGroup c 2 65536 else s   -- it fails here: the members are told (R303)
          t.workDone c.ring c.index (fun y =>
          { y with verdict := if !c.bad.isEmpty then some (failSlot stPoisonConsumed 0 0)
              else if c.seed.any (·.2) then some (failSlot stPoisonConsumed 2 0)
              else if c.tainted then some (failNone stPoisonConsumed 0) else x.verdict })
      | none => s
    else s
  if all.all c.done.contains ∧ c.slots = [] ∧ c.leaving = [] then s1.dropColl c else s1

/-- A result block reaches this device (R302). -/
def State.deliverBlock (s : State) (c : Coll) (b : Nat) (bs : List PByte) : State :=
  let es := canonElems c.outFmt (blockElems c.elems b) bs
  let c1 := { c with done := insSet b c.done, tainted := c.tainted || es.any (·.bad) }
  let s1 := s.setColl c1
  let s2 :=
    if c.wants b then
      match s.collClause c with
      | some x =>
        if c.verb = verbUpdate then
          let w := BitVec.ofNat 32 (es.headD Elem.zero).code
          if c1.tainted || !c.bad.isEmpty then s1.failClause c.ring c.index (failNone stPoisonConsumed 0)
          else s1.decideArrive c.ring x (some w)
        else
          let out := x.noun 1
          let nf := (es.filter (fun e => !(elemVal c.outFmt e.code e.scale).isFinite)).length
          let put := (List.range out.count).map (fun i =>
            if c.outBase b ≤ i ∧ i < c.outBase b + es.length then es[i - c.outBase b]? else none)
          (s1.storeTensor out put).modRing c.ring (fun R => R.modClause c.index (fun y =>
            { y with nonFinite := if clNfWatch c.bits then y.nonFinite + nf else 0 }))
      | none => s1
    else s1
  match s2.coll c.ring c.index with
  | some k => s2.settleColl k
  | none => s2

/-- The result block at the last rank or root: converted, sent down, delivered (R300, R302). -/
def State.resultBlock (s : State) (c : Coll) (b : Nat) (y : Sum) : State :=
  let g := c.grp
  let conv := convertAt (c.outBase b) c.outFmt (if c.verb = verbUpdate then Conv.plain else clConv c.bits) y
  let bs := canonBytes c.outFmt conv.elems
  let dsts := if g.members = 1 then [] else if g.topo = 1 then [g.wrap] else g.ins.map (·.1)
  let s1 := s.sendBlock c 1 b g.rank bs dsts
  let s2 := s1.modRing c.ring (fun R => R.modClause c.index (fun x => { x with saturated := x.saturated + conv.saturated }))
  s2.deliverBlock c b bs

/-- A part of the block's output, sent by this device, still waits in a port's queue. -/
def State.blockQueued (s : State) (c : Coll) (b : Nat) : Bool :=
  s.ports.any (fun e => e.2.txQueue.any (fun q =>
    q.pool == 12 && q.frame.vc == 4 && bits q.frame.arg 28 17 == c.group && bits q.frame.arg 47 46 == c.member && bits q.frame.arg 14 0 == b))
/-- Slots whose output has left are released (R301). -/
def State.freeLeft (s : State) : State :=
  { s with colls := s.colls.map (fun c => { c with leaving := c.leaving.filter (fun b => s.blockQueued c b) }) }
/-- Reductions whose every block is delivered here and has left its slot are over. -/
def State.dropDone (s : State) : State :=
  { s with colls := s.colls.filter (fun c => c.moves || c.verb == verbUpdate || !(c.slots.isEmpty && c.leaving.isEmpty
      && (List.range (collBlocks c.elems)).all c.done.contains)) }
/-- Slots in use in a port's reduction unit: those that combine, and those whose output has not left (R301). -/
def State.unitSlots (s : State) (port : Nat) : Nat :=
  sumOf ((s.colls.filter (fun c => c.grp.redPort == port)).map (fun c => c.slots.length + c.leaving.length))

/-- The next blocks take slots while the unit has them, and the inputs get their credits (R301). -/
def State.takeSlots : Nat → Nat → Nat → State → State
  | 0, _, _, s => s
  | n + 1, r, index, s =>
    match s.coll r index with
    | none => s
    | some c =>
      if c.nextBlock < collBlocks c.elems ∧ s.unitSlots c.grp.redPort < 16 then
        let c1 := { c with slots := c.slots ++ [c.nextBlock], nextBlock := c.nextBlock + 1 }
        State.takeSlots n r index (c.grp.ins.foldl (fun t d => t.sendCtrl d.1 1 c c.nextBlock) (s.setColl c1))
      else s

/-- One block whose inputs and credit are there leaves its slot. -/
def State.outputBlock (s : State) (c : Coll) : Option State :=
  let g := c.grp
  match c.slots.findSome? (fun b =>
    if g.isLast || c.credits.contains b then (c.combine b).map (fun y => (b, y)) else none) with
  | none => none
  | some (b, y) =>
    let c1 := { c with slots := delSet b c.slots, leaving := insSet b c.leaving, parts := c.parts.filter (fun p => p.block ≠ b)
                       tainted := c.tainted || y.any (·.2) }
    let s1 := (s.setColl c1).ctrAdd (lnkRuBlocks g.redPort) 1
    some (if g.isLast then s1.resultBlock c1 b y else s1.sendBlock c1 0 b g.rank (sumBytes y) [g.up]).freeLeft

/-- A collective goes on as far as it can. -/
def State.advanceColl : Nat → Nat → Nat → State → State
  | 0, _, _, s => s
  | n + 1, r, index, s =>
    let s1 := s.takeSlots 16 r index
    match s1.coll r index with
    | none => s1
    | some c => match s1.outputBlock c with
      | some t => State.advanceColl n r index t
      | none => s1

/-- Every collective that may have gained a slot or a credit goes on. -/
def State.advanceColls (s : State) : State :=
  let t := s.freeLeft.dropDone
  t.colls.foldl (fun t c => t.advanceColl (collBlocks c.elems + 1) c.ring c.index) t

/-! ### Data that moves without rounding: all-gather and broadcast on BULK frames (R302, R372) -/

/-- Elements of one member's data: E / N of an all-gather, E of a broadcast. -/
def Coll.share (c : Coll) : Nat := if c.verb = verbAllGather then c.elems / c.grp.members else c.elems
def Coll.shares (c : Coll) : Nat := if c.verb = verbAllGather then c.grp.members else 1

/-- Byte offsets in the destination of member m's data and scales, each with its length, in pieces of 4,096. -/
def Coll.pieces (c : Coll) (m : Nat) : List (Nat × Nat) :=
  let d := packedBytes c.outFmt c.share
  let k := scaleBytes c.outFmt c.share
  (List.range (ceilDiv d 4096)).map (fun i => (m * d + 4096 * i, min 4096 (d - 4096 * i)))
    ++ (List.range (ceilDiv k 4096)).map (fun i => (c.shares * d + m * k + 4096 * i, min 4096 (k - 4096 * i)))

def bulkArg (c : Coll) (off : Nat) : Nat := off % 2 ^ 34 + c.group * 2 ^ 34 + c.member * 2 ^ 46

/-- A piece sent to devices. -/
def State.sendPiece (s : State) (c : Coll) (off : Nat) (bytes : List Byte) (flits dsts : List Nat) : State :=
  dsts.foldl (fun t d => t.emit (t.newFrame d 3 0 (bulkArg c off) bytes flits)) s

/-- Members whose data this device must have received. -/
def Coll.sources (c : Coll) : List Nat :=
  if c.verb = verbAllGather then (List.range c.grp.members).filter (fun m => decide (m ≠ c.grp.rank))
  else if c.grp.isFirst then [] else [0]

/-- The elements of one member from the pieces received. -/
def Coll.memberElems (c : Coll) (m : Nat) : List Elem :=
  canonElems c.outFmt c.share ((c.pieces m).flatMap (fun p =>
    match c.gathered.find? (fun x => x.block == p.1) with
    | some x => ((x.bytes.zipIdx).map (fun b => ({ byte := b.1, poison := x.flits.contains (b.2 / 32) } : PByte))).take p.2
    | none => List.replicate p.2 { byte := 0, poison := false }))

/-- When every piece is there, OUT is written and the clause's work is done. -/
def State.settleGather (s : State) (c : Coll) : State :=
  if c.sources.all (fun m => (c.pieces m).all (fun p => c.gathered.any (fun x => x.block == p.1))) then
    match s.collClause c with
    | some x =>
      let own := if x.hasNoun 0 then s.loadTensor (x.noun 0) else []
      let es :=
        if c.verb = verbAllGather then
          (List.range c.grp.members).flatMap (fun m => if m = c.grp.rank then own else c.memberElems m)
        else if c.grp.isFirst then own else c.memberElems 0
      ((s.storeTensor (x.noun 1) (es.map some)).dropColl c).workDone c.ring c.index (fun y => y)
    | none => s.dropColl c
  else s

/-- A BULK frame for a collective under way. -/
def State.bulkArrive (s : State) (c : Coll) (f : Frame) : State :=
  let off := bits f.arg 33 0
  if c.gathered.any (fun x => x.block == off) then s
  else
    let c1 := { c with gathered := c.gathered ++ [{ block := off, rank := 0, part := 0, bf16 := false, bytes := f.payload, flits := f.poison }] }
    ((s.setColl c1).sendPiece c off f.payload f.poison (c.grp.neighbours.filter (fun d => decide (d ≠ f.src)))).settleGather c1

/-! ### Control messages -/

/-- A collective ends here with a failure, and its neighbours are told: abort (2) or disagreement (3) (R303, R373). -/
def State.failColl (s : State) (c : Coll) (type : Nat) (f : Failure) (except : Nat) : State :=
  let s1 := (s.tellGroup c type except).dropColl c
  match s.collClause c with
  | some _ => s1.failClause c.ring c.index f
  | none => s1

/-- A CTRL message other than an abort, for a collective under way. -/
def State.ctrlArrive (s : State) (c : Coll) (f : Frame) : State :=
  let b (i n : Nat) : Nat := leNat ((f.payload.drop i).take n)
  if b 0 1 = 3 then s.failColl c 3 (failNone stGroupInvalid 1) f.src
  else if b 1 1 ≠ c.verb ∨ b 2 1 ≠ c.outFmt ∨ b 4 8 ≠ c.elems then s.failColl c 3 (failNone stGroupInvalid 1) 65536
  else if b 0 1 = 1 then
    (s.setColl { c with credits := insSet (b 12 4) c.credits }).advanceColl (collBlocks c.elems + 1) c.ring c.index
  else s

def ctrlType (f : Frame) : Nat := leNat (f.payload.take 1)
def ctrlInst (f : Frame) : Nat := leNat ((f.payload.drop 3).take 1)
def ctrlGroup (f : Frame) : Nat := bits f.arg 43 32

/-- A delivered CTRL or BULK frame goes to its collective; it waits for one that has not started here. -/
def State.takeFrame (s : State) (e : Nat × Frame) : State :=
  let f := e.2
  if f.vc = 2 ∧ ctrlType f ≠ 2 then
    match s.collFor (ctrlGroup f) (ctrlInst f) with
    | some c => (s.inboxTake e.1 f).ctrlArrive c f
    | none => s
  else if f.vc = 3 then
    match s.collFor (bits f.arg 45 34) (bits f.arg 47 46) with
    | some c => (s.inboxTake e.1 f).bulkArrive c f
    | none => s
  else s

/-- Frames that wait for collectives are looked at again. -/
def State.drainInbox (s : State) : State := s.lnk.inbox.foldl State.takeFrame s

/-! ### Starting a collective -/

/-- A collective of a clause whose group has more members than one. -/
def State.startColl (s : State) (r : Nat) (c : ClauseSt) (verb group elems fmt : Nat) (words : List (Word32 × Bool))
    (seed : List (Word32 × Bool)) : State :=
  let inst := Tbl.get 0 s.lnk.instNext group
  let k : Coll :=
    { ring := r, index := c.index, verb := verb, group := group, member := inst, elems := elems, outFmt := fmt
      bits := c.bits, entry := c.entry, words := words.map (·.1)
      bad := (words.zipIdx).filterMap (fun w => if w.1.2 then some w.2 else none), seed := seed, nextBlock := 0, slots := [], leaving := []
      credits := [], parts := [], downs := [], done := [], gathered := [], tainted := false }
  let kept := s.colls.filter (fun x => !(x.group == group && x.member == inst && decide (2 ^ 32 ≤ x.index)))
  let s1 := { s with colls := kept ++ [k], lnk := { s.lnk with instNext := Tbl.put 0 s.lnk.instNext group ((inst + 1) % 4) } }
  let s2 := (k.grp.neighbours.foldl (fun t d => t.sendCtrl d 0 k 0) s1).dataBegun r c.index
  if s.lnk.aborted.contains (group, inst) then
    ({ s1 with lnk := { s1.lnk with aborted := s1.lnk.aborted.filter (fun x => decide (x ≠ (group, inst))) } }).failColl k 2 (failNone stReduceTimeout 2) 65536
  else if k.moves then
    let s3 :=
      if verb = verbAllGather ∨ k.grp.isFirst then
        let m := if verb = verbAllGather then k.grp.rank else 0
        let es := s.loadTensor (c.noun 0)
        let bytes := canonData fmt es ++ canonScales fmt es
        let d := packedBytes fmt k.share
        let dataPieces := partsOf (bytes.take d)
        let scalePieces := partsOf (bytes.drop d)
        ((k.pieces m).zip (dataPieces ++ scalePieces)).foldl (fun t p => t.sendPiece k p.1.1 p.2.1 p.2.2 k.grp.neighbours) s2
      else s2
    (s3.settleGather k).drainInbox
  else (s2.advanceColl (collBlocks elems + 1) r c.index).drainInbox

/-- A reducing clause over a group. -/
def State.reduceGroup (s : State) (r : Nat) (c : ClauseSt) : State :=
  let g := parseGroup c.entry
  if g.members = 1 then s.reduceHere r c
  else
    let fid := (s.ring r).field
    let out := c.noun 1
    let e := reduceElems c.bits g.members (c.noun 0) out
    let l := reduceSum none (s.localParts (s.fieldOf fid) c e)
    let words := l.map (fun v => (toFp32 v.1, v.2))
    let seed := if c.hasNoun 2 && g.isFirst then (s.loadVals (c.noun 2)).map (fun v => (toFp32 v.1, v.2)) else []
    let s1 := if coSrcRbuf c.bits then s.emptyRbuf fid (coRbuf c.bits) e else s
    s1.startColl r c (clVerb c.bits) (coGroup c.bits) e out.format words seed

/-- An all-gather or broadcast over a group: within one member it is a copy. -/
def State.gatherGroup (s : State) (r : Nat) (c : ClauseSt) : State :=
  let g := parseGroup c.entry
  if g.members = 1 then
    (s.storeTensor (c.noun 1) ((s.loadTensor (c.noun 0)).map some)).workDone r c.index (fun x => x)
  else s.startColl r c (clVerb c.bits) (coGroup c.bits) (c.noun 1).count (c.noun 1).format [] []

/-- The started clause of a slot whose collective has not begun. -/
def State.startedColl (s : State) (r k verb : Nat) : Option ClauseSt :=
  match s.startedClause r k verb with
  | some c => if (s.coll r c.index).isSome then none else some c
  | none => none

/-- A reducing clause over a group, of a buffer that holds something (R268). -/
def State.reduceOrFail (s : State) (r : Nat) (c : ClauseSt) : State :=
  if s.emptySource r c then s.failClause r c.index (failNone stRbufEmpty 0) else s.reduceGroup r c

def execAllReduce (ring slot : Nat) (host : HostView) (s : State) : Answer :=
  match s.startedColl ring slot verbAllReduce with
  | some c => .next ((s.seeHost host).reduceOrFail ring c)
  | none => .next s
def execReduceScatter (ring slot : Nat) (host : HostView) (s : State) : Answer :=
  match s.startedColl ring slot verbReduceScatter with
  | some c => .next ((s.seeHost host).reduceOrFail ring c)
  | none => .next s
def execAllGather (ring slot : Nat) (host : HostView) (s : State) : Answer :=
  match s.startedColl ring slot verbAllGather with
  | some c => .next ((s.seeHost host).gatherGroup ring c)
  | none => .next s
def execBroadcast (ring slot : Nat) (host : HostView) (s : State) : Answer :=
  match s.startedColl ring slot verbBroadcast with
  | some c => .next ((s.seeHost host).gatherGroup ring c)
  | none => .next s

/-! ### Rows of the reduction units -/

/-- A part as a frame of VC 4 carries it. -/
def framePart (f : Frame) (rank : Nat) : Part :=
  { block := bits f.arg 14 0, rank := rank, part := bits f.arg 16 15, bf16 := f.kind == 0 && bitAt f.arg 45, bytes := f.payload, flits := f.poison }
def redGroup (f : Frame) : Nat := bits f.arg 28 17
def redInst (f : Frame) : Nat := bits f.arg 47 46

/-- RED_UP: the oldest running-sum part from a port is taken in; a block is combined once all its parts are present
(R301). A part of a device that the entry does not name, or with another RANK, is discarded. -/
def execRedUp (port : Nat) (s : State) : Answer :=
  match s.inboxFind port (fun f => f.vc == 4 && f.kind == 0) with
  | none => .next s
  | some f =>
    let s1 := s.inboxTake port f
    match s.collFor (redGroup f) (redInst f) with
    | none => .next (s1.ctrAdd (lnkDiscard port) 1)
    | some c =>
      let rank := bits f.arg 44 29
      if !(c.grp.ins.contains (f.src, rank)) then
        .next ((s1.ctrAdd (lnkDiscard port) 1).event .rankMismatch none 5 port none 0 [BitVec.ofNat 64 f.src, BitVec.ofNat 64 rank])
      else
        let p := framePart f rank
        if c.parts.any (fun q => q.block == p.block && q.rank == p.rank && q.part == p.part) || !c.slots.contains p.block then
          .next (s1.ctrAdd (lnkDiscard port) 1)
        else
          .next ((s1.setColl { c with parts := c.parts ++ [p] }).advanceColl (collBlocks c.elems + 1) c.ring c.index).advanceColls

/-- Where a result part goes on: up a chain until the last rank but one has it, or to a tree's children (R302). -/
def Group.downTo (g : Group) : List Nat :=
  if g.topo = 1 then (if g.rank + 2 < g.members then [g.up] else []) else g.ins.map (·.1)

/-- RED_DOWN: the oldest result part from a port is forwarded, and the block delivered once it is whole (R302). -/
def execRedDown (port : Nat) (s : State) : Answer :=
  match s.inboxFind port (fun f => f.vc == 4 && f.kind == 1) with
  | none => .next s
  | some f =>
    let s1 := s.inboxTake port f
    match s.collFor (redGroup f) (redInst f) with
    | none => .next (s1.ctrAdd (lnkDiscard port) 1)
    | some c =>
      let p := framePart f 0
      if c.downs.any (fun q => q.block == p.block && q.part == p.part) || c.done.contains p.block then
        .next (s1.ctrAdd (lnkDiscard port) 1)
      else
        let s2 := c.grp.downTo.foldl (fun t d => t.emit (t.newFrame d 4 1 f.arg f.payload f.poison)) s1
        let c1 := { c with downs := c.downs ++ [p] }
        let n := packedBytes c.outFmt (blockElems c.elems p.block) + scaleBytes c.outFmt (blockElems c.elems p.block)
        match assemble c1.downs p.block 0 n with
        | none => .next (s2.setColl c1)
        | some bs =>
          let c2 := { c1 with downs := c1.downs.filter (fun q => q.block ≠ p.block) }
          .next ((s2.setColl c2).deliverBlock c2 p.block bs)

/-- An abort of the group's next instance, not started here, is kept for its start (R303). -/
def State.noteAbort (s : State) (group inst : Nat) : State :=
  if Tbl.get 0 s.lnk.instNext group = inst then { s with lnk := { s.lnk with aborted := (group, inst) :: s.lnk.aborted } } else s

/-- COLLECTIVE_ABORT: the oldest abort from a port fails its collective with REDUCE_TIMEOUT, at its start where it has not
started here yet (R303). -/
def execCollectiveAbort (port : Nat) (s : State) : Answer :=
  match s.inboxFind port (fun f => f.vc == 2 && ctrlType f == 2) with
  | none => .next s
  | some f =>
    let s1 := s.inboxTake port f
    match s1.collFor (ctrlGroup f) (ctrlInst f) with
    | some c => .next (s1.failColl c 2 (failNone stReduceTimeout 2) f.src)
    | none => .next (s1.noteAbort (ctrlGroup f) (ctrlInst f))

/-- REDUCE_TIMEOUT: a slot on the die, or a port slot or part, made no progress for COL_TIMEOUT: the clause fails, its
slots are released, and the group is told (R263, R303). -/
def execReduceTimeout (ring slot : Nat) (atPort : Bool) (s : State) : Answer :=
  match (s.ring ring).clauseAt slot with
  | none => .next s
  | some c =>
    if c.phase ≠ Phase.started ∨ c.worked ∨ s.halted then .next s
    else
      match s.coll ring c.index with
      | some k => .next (s.failColl k 2 (failNone stReduceTimeout (if atPort then 1 else 0)) 65536)
      | none =>
        if !atPort && s.slots.any (fun x => x.ring == ring && x.index == c.index) then
          .next (s.failClause ring c.index (failNone stReduceTimeout 0))
        else .next s

end Sys2Proof.Machine
end

