-- ==== Sys2Proof/Machine/Copy.lean ====
section
/-! DEFINITION. The copy verb (11 R367, R368). -/

namespace Sys2Proof.Machine

/-- The verb's own checks: extents and layouts, then formats (R367). -/
def checkCopy (src dst : Noun) : Option Failure :=
  firstFailure [
    ((List.range 6).find? (fun i => src.dim i ≠ dst.dim i)).map (fun i => failNone stNounShape i),
    failIf (decide (1 < src.layout) || decide (1 < dst.layout)) (failNone stNounShape 7),
    failIf (src.format ≠ dst.format) (failNone stFormatPair 0)]

/-- COPY: every element of DST takes the bits of SRC's at the same logical index, an MX block its scale, a poisoned
flit its poison; it consumes nothing and completes with success (R367, R368). -/
def execCopy (ring slot : Nat) (host : HostView) (s : State) : Answer :=
  match s.startedClause ring slot verbCopy with
  | some c =>
    let t := s.seeHost host
    if s.stageLoaded ring then .next (t.runImage ring c)
    else .next ((t.storeTensor (c.noun 1) ((t.loadTensor (c.noun 0)).map some)).workDone ring c.index
      (fun x => { x with passes := some 0 }))
  | none => .next s

end Sys2Proof.Machine
end

