-- ==== Sys2Proof/Machine/Fields.lean ====
section
/-! DEFINITION. Configure-field: CONFIGURE and DISSOLVE (11 R380 to R382; 02 R41, R72, R76; 08 R265, R266; 10 R327). -/

namespace Sys2Proof.Machine

/-! ### Helpers -/

/-- The words of an INT32 noun in logical order. -/
def State.nounWords (s : State) (n : Noun) : List Nat := (s.loadTensor n).map (·.code)
/-- Bits hi to lo set. -/
def maskOf (hi lo : Nat) : Nat := 2 ^ (hi + 1) - 2 ^ lo
/-- The first of n bytes of v that is not zero. -/
def lowestByte (v n : Nat) : Option Nat := (List.range n).find? (fun i => v / 2 ^ (8 * i) % 256 ≠ 0)
/-- Words as one little-endian number. -/
def wordsNat (ws : List Nat) : Nat := (ws.zipIdx).foldl (fun n w => n + w.1 % 2 ^ 32 * 2 ^ (32 * w.2)) 0

/-- Cores of a rectangle in row-major order. -/
def rectCores (row col height width : Nat) : List Nat :=
  (List.range height).flatMap (fun i => (List.range width).map (fun j => 16 * (row + i) + (col + j)))

/-- The configured field of a context that covers a core (R76). -/
def State.fieldCovering (s : State) (core : Nat) (paren : Bool) : Option Nat :=
  (s.fields.find? (fun e => e.2.paren == paren && e.2.cores.contains core)).map (·.1)

/-- Two ranges [a, b) and [c, d) overlap. -/
def overlaps (a b c d : Nat) : Bool := decide (a < d) && decide (c < b)

/-! ### The descriptor (R380) -/

structure Desc where
  row       : Nat
  col       : Nat
  height    : Nat
  width     : Nat
  paren     : Bool
  owner     : Nat
  chain     : Bool
  setStep   : Bool
  initStep  : Nat
  syncBase  : Nat
  syncCount : Nat
  stepFlag  : Nat
  quota     : Nat
  rbufs     : List (Nat × Nat)     -- offset and size in units of 16 KiB
  rings     : List Nat
deriving DecidableEq, Repr

def parseDesc (ws : List Nat) : Desc :=
  let w (off hi lo : Nat) : Nat := bits (ws.getD (off / 4) 0) hi lo
  { row := w 0 3 0, col := w 0 7 4, height := w 0 11 8 + 1, width := w 0 15 12 + 1, paren := w 0 16 16 == 1
    owner := w 0 22 17, chain := w 0 23 23 == 1, setStep := w 0 24 24 == 1, initStep := w 4 31 0
    syncBase := w 8 11 0, syncCount := w 8 23 12, stepFlag := w 0xC 11 0
    quota := w 0x10 31 0 + 2 ^ 32 * w 0x14 31 0
    rbufs := (List.range 16).map (fun i => (w (0x20 + 8 * i) 21 0, w (0x24 + 8 * i) 6 0))
    rings := (List.range (w 0x18 15 0)).map (fun i => if i % 2 = 0 then w (0x100 + 2 * i) 15 0 else w (0x100 + 2 * i) 31 16) }

/-- The descriptor's reserved bits. -/
def descReserved : Nat :=
  maskOf 31 25 + 2 ^ 64 * maskOf 31 24 + 2 ^ 96 * maskOf 31 12 + 2 ^ 192 * maskOf 31 16 + 2 ^ 224 * maskOf 31 0
    + (List.range 16).foldl (fun n i => n + 2 ^ (256 + 64 * i) * (maskOf 31 22 + maskOf 63 39)) 0
    + 2 ^ (8 * 0xA0) * maskOf (8 * 0x60 - 1) 0

/-- The verb's modifier values (R380). -/
def configureModifiers (c : BitVec 512) : Option Failure := failIf (decide (1 < clModBits c 7 6)) (failNone stBadModifier 6)
def cfgField (c : BitVec 512) : Nat := clModBits c 5 0
def cfgDissolve (c : BitVec 512) : Bool := clModBits c 7 6 == 1

/-! ### Checks (R381) -/

/-- An open ring of a field has a clause that has issued and not completed. -/
def State.fieldOutstanding (s : State) (f : Nat) : Bool :=
  s.rings.any (fun e => decide (e.1 ≠ 0) && e.2.isOpen && e.2.field == f && e.2.clauses.any ClauseSt.outstanding)
/-- Another configured field names f as its step owner. -/
def State.ownedByOthers (s : State) (f : Nat) : Bool := s.fields.any (fun e => decide (e.1 ≠ f) && e.2.owner == f)

/-- Some buffer breaks R265 or R266. -/
def rbufsBad (s : State) (fid : Nat) (d : Desc) : Bool :=
  let spans := (d.rbufs.filter (fun (b : Nat × Nat) => b.2 ≠ 0)).map (fun b => (b.1, b.1 + 16384 * b.2))
  let hits (lo hi : Nat) : Bool := spans.any (fun (p : Nat × Nat) => overlaps p.1 p.2 lo hi)
  let cores := rectCores d.row d.col d.height d.width
  d.rbufs.any (fun (b : Nat × Nat) => b.2 ≠ 0 && (b.1 % 64 ≠ 0 || decide (64 < b.2)))
    || spans.any (fun (p : Nat × Nat) => decide (Config.sliceBytes < p.2))
    || decide (2 * 1024 * 1024 < sumOf (spans.map (fun p => p.2 - p.1)))
    || (List.range spans.length).any (fun i => (List.range i).any (fun j =>
        overlaps (spans.getD i (0, 0)).1 (spans.getD i (0, 0)).2 (spans.getD j (0, 0)).1 (spans.getD j (0, 0)).2))
    || (hits 0 0x200000 && cores.any (fun c => s.applied.cacheEn.contains c || s.staged.cacheEn.contains c))
    || (hits 0x3F8000 0x400000 && (d.paren || cores.any (fun c => match s.fieldCovering c true with
        | some g => decide (g ≠ fid)
        | none => false)))
    || (d.paren && cores.any (fun c => match s.fieldCovering c false with
        | some g => decide (g ≠ fid) && (match s.fieldOf g with
          | some x => x.rbufs.any (fun b => b.size ≠ 0 && overlaps b.offset (b.offset + 16384 * b.size) 0x3F8000 0x400000)
          | none => false)
        | none => false))

/-- What is wrong with a listed ring (R38, R39, R41, R76, R381). A ring already open is judged by the entry read at its
opening, since the device reads an entry at no other time (R39). -/
def ringListed (s : State) (fid : Nat) (paren : Bool) (r : Nat) : Option Failure :=
  let x := s.ring r
  if r = 0 then some (failNone stRingEntry 0)
  else if x.isOpen then
    firstFailure [
      failIf (x.ctx.field ≠ fid || x.ctx.paren ≠ paren) (failNone stRingEntry 0),
      failIf (x.field ≠ fid) (failNone stRingNotClosed 0)]
  else if s.ringEntryPoison r then some (failNone stPoisonConsumed 0)
  else
    let e := s.ringEntry r
    failIf (ringEntryBad e || (parseRing e).field ≠ fid || (parseRing e).paren ≠ paren) (failNone stRingEntry 0)

/-- The checks of CONFIGURE on the descriptor (R381), in their order. -/
def checkConfigure (s : State) (fid : Nat) (ws : List Nat) : Option Failure :=
  let d := parseDesc ws
  let cores := rectCores d.row d.col d.height d.width
  let others := s.fields.filter (fun e => decide (e.1 ≠ fid))
  firstFailure [
    (lowestByte (Nat.land (wordsNat (ws.take 64)) descReserved) 256).map (fun b => failNone stReservedSet (0x40 + b)),
    failIf (decide (16 < d.row + d.height) || decide (16 < d.col + d.width)) (failNone stBadModifier 0x40),
    failIf (s.fieldOutstanding fid || ((s.fieldOf fid).isSome && d.owner ≠ fid && s.ownedByOthers fid)) (failNone stFieldBusy 0),
    failIf (others.any (fun e => e.2.paren == d.paren && e.2.cores.any (fun c => cores.contains c))) (failNone stFieldOverlap 0),
    failIf (d.owner ≠ fid && !(match s.fieldOf d.owner with
      | some x => x.owner == d.owner
      | none => false)) (failNone stFieldAbsent 0),
    failIf ((d.syncCount ≠ 0 && (decide (d.syncBase < 64) || decide (4096 < d.syncBase + d.syncCount)
        || others.any (fun e => e.2.syncCount ≠ 0
          && overlaps d.syncBase (d.syncBase + d.syncCount) e.2.syncBase (e.2.syncBase + e.2.syncCount))))
      || (if d.owner = fid ∧ !d.chain then
            !(decide (d.syncBase ≤ d.stepFlag) && decide (d.stepFlag < d.syncBase + d.syncCount))
          else d.stepFlag ≠ 0)) (failNone stSyncRange 0),
    failIf (d.owner = fid && d.chain && s.steps.any (fun e => decide (e.1 ≠ fid) && e.2.chain)) (failNone stGateScope 0),
    failIf (rbufsBad s fid d) (failNone stRbufLayout 0),
    d.rings.findSome? (ringListed s fid d.paren)]

/-- DESC's own shape (R380), its poison, then the checks. -/
def checkDescriptor (s : State) (fid : Nat) (n : Noun) : Option Failure :=
  let es := s.loadTensor n
  let ws := es.map (·.code)
  firstFailure [
    failIf (n.format ≠ 0xC) (failNone stFormatPair 0),
    failIf (n.rank ≠ 1) (failNone stNounShape 7),
    failIf (decide (n.dim 0 < 64)) (failNone stNounShape 0),
    failIf (es.any (·.poison)) (failSlot stPoisonConsumed 0 0),
    failIf (n.dim 0 ≠ 64 + ceilDiv (parseDesc ws).rings.length 2) (failNone stNounShape 0),
    checkConfigure s fid ws]

/-! ### Effects (R382, R327) -/

/-- The standard kernel as a core's half holds it again (R117, R382); a half without power gets it at the next wake. -/
def CoreSt.revert (c : CoreSt) (paren : Bool) : CoreSt :=
  if paren then { c with imgParen := if c.imgParen = .empty then .empty else .standard }
  else { c with imgMain := if c.imgMain = .empty then .empty else .standard }

/-- Cores that leave a field run the standard kernel in its context. -/
def State.revertCores (s : State) (cores : List Nat) (paren : Bool) : State :=
  cores.foldl (fun t c => t.modCore c (fun x => x.revert paren)) s

/-- Cores that no field covers any more lose their power, and the Playa of a cluster that no field touches (R400). -/
def State.gateUncovered (s : State) (cores : List Nat) : State :=
  let covered (t : State) (c : Nat) : Bool := (t.fieldCovering c false).isSome || (t.fieldCovering c true).isSome
  cores.foldl (fun t c =>
    if covered t c then t
    else
      let t1 := (t.modDom c (fun d => { d with power := 0 })).modCore c (fun x =>
        { x with imgMain := .empty, imgParen := .empty, run := 0, spilled := [] })
      if (List.range 256).any (fun k => playaDomain k == playaDomain c && covered t1 k) then t1
      else t1.modDom (playaDomain c) (fun d => { d with power := 0 })) s

/-- Step states that no configured field names are discarded (R327). -/
def State.pruneSteps (s : State) : State := { s with steps := s.steps.filter (fun e => s.fields.any (fun f => f.2.owner == e.1)) }

/-- Sync objects of a range return to their reset state. -/
def State.freeSync (s : State) (base count : Nat) : State :=
  { s with sync := s.sync.filter (fun e => !(decide (base ≤ e.1) && decide (e.1 < base + count))) }

/-- The owner's step state after a CONFIGURE that makes the field its own owner (R327, R380). -/
def ownStep (old : Option StepSt) (d : Desc) : StepSt :=
  let base := old.getD StepSt.fresh
  { base with chain := d.chain, flag := d.stepFlag
              step := if d.setStep then BitVec.ofNat 32 d.initStep else base.step }

/-- The field that a descriptor describes: buffers empty, not faulted. -/
def Desc.field (d : Desc) (s : State) : FieldSt :=
  { row := d.row, col := d.col, height := d.height, width := d.width, paren := d.paren, owner := d.owner, quota := d.quota
    syncBase := d.syncBase, syncCount := d.syncCount, stepFlag := d.stepFlag
    rbufs := d.rbufs.map (fun b => { offset := b.1, size := b.2, pass := 0, queue := [] })
    faulted := none
    degraded := (rectCores d.row d.col d.height d.width).any (fun c => (s.core c).mappedOut)
    overQuota := false }

/-- CONFIGURE acts: the field is replaced, and its listed CLOSED rings open. -/
def State.configureField (s : State) (fid : Nat) (d : Desc) : State :=
  let new := d.field s
  let s1 := match s.fieldOf fid with
    | some old =>
      let left := if old.paren = new.paren then old.cores.filter (fun c => !new.cores.contains c) else old.cores
      (s.revertCores left old.paren).freeSync old.syncBase old.syncCount
    | none => s
  let s2 := (s1.setField fid new).freeSync d.syncBase d.syncCount
  let s3 := if d.owner = fid then s2.setStep fid (ownStep (s2.stepOf fid) d) else s2
  let s4 := (s3.pruneSteps.checkQuotas false).gateUncovered (match s.fieldOf fid with
    | some old => old.cores
    | none => [])
  d.rings.foldl (fun t r => if (t.ring r).isOpen then t else t.openRing r (parseRing (t.ringEntry r)) fid) s4

/-- A stress test runs on a core that a descriptor covers: the clause waits (R468). -/
def State.stressBlocks (s : State) (ws : List Nat) : Bool :=
  let d := parseDesc ws
  s.err.stress.state == 1 && (rectCores d.row d.col d.height d.width).any (fun c => s.err.stress.cores.contains c)

/-- CONFIGURE: the descriptor is read and checked, and acts on the state it was checked against (R381, R382). -/
def execConfigure (ring slot : Nat) (host : HostView) (s : State) : Answer :=
  match s.startedClause ring slot verbConfigure with
  | some c =>
    if cfgDissolve c.bits then .next s
    else
      let t := s.seeHost host
      if t.stressBlocks (t.nounWords (c.noun 0)) then .next s
      else
      match checkDescriptor t (cfgField c.bits) (c.noun 0) with
      | some f => .next (t.failClause ring c.index f)
      | none =>
        .next ((t.configureField (cfgField c.bits) (parseDesc (t.nounWords (c.noun 0)))).workDone ring c.index (fun x => x))
  | none => .next s

/-- The checks of DISSOLVE (R382). -/
def checkDissolve (s : State) (fid : Nat) : Option Failure :=
  firstFailure [
    failIf (s.fieldOf fid).isNone (failNone stFieldAbsent 0),
    failIf (s.ownedByOthers fid) (failNone stFieldBusy 0),
    failIf (s.rings.any (fun e => decide (e.1 ≠ 0) && e.2.isOpen && e.2.field == fid)) (failNone stRingNotClosed 0)]

/-- DISSOLVE acts: cores, buffers, sync range and slots are free. -/
def State.dissolveField (s : State) (fid : Nat) : State :=
  match s.fieldOf fid with
  | none => s
  | some f =>
    let s1 := (s.revertCores f.cores f.paren).freeSync f.syncBase f.syncCount
    let s2 := { s1 with
      fields := Tbl.drop s1.fields fid
      slots := s1.slots.filter (fun x => !(x.paren == f.paren && f.cores.contains x.island)) }
    s2.pruneSteps.gateUncovered f.cores

/-- DISSOLVE (R382). -/
def execDissolve (ring slot : Nat) (s : State) : Answer :=
  match s.startedClause ring slot verbConfigure with
  | some c =>
    if !cfgDissolve c.bits then .next s
    else
      match checkDissolve s (cfgField c.bits) with
      | some f => .next (s.failClause ring c.index f)
      | none => .next ((s.dissolveField (cfgField c.bits)).workDone ring c.index (fun x => x))
  | none => .next s

end Sys2Proof.Machine
end

