-- ==== Sys2Proof/Machine/Kernel.lean ====
section
/-! DEFINITION. Load-kernel (11 R383 to R385; 02 R74; 04 R117). -/

namespace Sys2Proof.Machine

def lkField (c : BitVec 512) : Nat := clModBits c 5 0
def lkParen (c : BitVec 512) : Bool := clModBit c 6
def lkStandard (c : BitVec 512) : Bool := clModBit c 7
def lkRow (c : BitVec 512) : Nat := clModBits c 11 8
def lkCol (c : BitVec 512) : Nat := clModBits c 15 12
def lkHeight (c : BitVec 512) : Nat := clModBits c 19 16 + 1
def lkWidth (c : BitVec 512) : Nat := clModBits c 23 20 + 1

/-- TFIELD must be the ring's field except on ring 0 (R383). -/
def loadModifiers (r fid : Nat) (c : BitVec 512) : Option Failure :=
  failIf (r ≠ 0 && lkField c ≠ fid) (failNone stBadModifier 0)

/-- The target cores. -/
def lkCores (f : FieldSt) (c : BitVec 512) : List Nat := rectCores (f.row + lkRow c) (f.col + lkCol c) (lkHeight c) (lkWidth c)
/-- The rectangle leaves the field. -/
def lkOutside (f : FieldSt) (c : BitVec 512) : Bool :=
  decide (f.height < lkRow c + lkHeight c) || decide (f.width < lkCol c + lkWidth c)
/-- A target core holds a share of the context. -/
def State.lkBusy (s : State) (f : FieldSt) (c : BitVec 512) : Bool :=
  (lkCores f c).any (fun n => !(if lkParen c then (s.core n).qParen else (s.core n).qMain).isEmpty)

/-- An image with its header as bytes (R384). -/
structure KernelImage where
  bytes  : List Byte
  length : Nat
  code   : List Byte
deriving DecidableEq, Repr

def parseImage (bytes : List Byte) : KernelImage :=
  let n := leNat ((bytes.drop 8).take 4)
  { bytes := bytes, length := n, code := if n ≤ 131072 then (bytes.drop 64).take n else [] }
/-- 32-bit word of the header at byte `off`. -/
def KernelImage.word (k : KernelImage) (off : Nat) : Nat := leNat ((k.bytes.drop off).take 4)
/-- CODE_LEN is out of range (cause 1). -/
def KernelImage.lengthBad (k : KernelImage) : Bool := k.length % 4 ≠ 0 || decide (k.length < 4) || decide (131072 < k.length)
/-- MAGIC or CODE_CRC is wrong, or the image is short (cause 4). -/
def KernelImage.contentBad (k : KernelImage) : Bool :=
  decide (k.bytes.length < 64 + k.length) || k.word 0 ≠ 0x4A4B494D || k.word 12 ≠ (crc32 k.code).toNat

/-- KERNEL_REJECTED for a cause. -/
def rejected (cause : Nat) : Failure := failNone stKernelRejected cause

/-- The checks of an image (R385): causes in the order of their numbers. -/
def checkImage (s : State) (f : FieldSt) (c : BitVec 512) (k : KernelImage) : Option Failure :=
  firstFailure [
    failIf k.lengthBad (rejected 1),
    failIf (bits (k.word 4) 7 0 ≠ Config.jcmMajor) (rejected 2),
    failIf (s.lkBusy f c) (rejected 3),
    failIf k.contentBad (rejected 4),
    failIf (lkOutside f c) (rejected 5),
    failIf (decide (s.glb.minor.toNat < bits (k.word 4) 15 8)) (rejected 6)]

/-- A half of instruction memory of each target core takes an image. -/
def State.writeHalves (s : State) (cores : List Nat) (paren : Bool) (img : Image) : State :=
  cores.foldl (fun t n => t.modCore n (fun x => if paren then { x with imgParen := img } else { x with imgMain := img })) s

/-- LOAD_KERNEL: IMAGE is checked, and its code replaces one half of every target core (R383 to R385). -/
def execLoadKernel (ring slot : Nat) (host : HostView) (s : State) : Answer :=
  match s.startedClause ring slot verbLoadKernel with
  | some c =>
    if lkStandard c.bits then .next s
    else
      let t := s.seeHost host
      match t.fieldOf (lkField c.bits) with
      | none => .next (t.failClause ring c.index (failNone stFieldAbsent 0))
      | some f =>
        let es := t.loadTensor (c.noun 0)
        let k := parseImage (es.flatMap (fun e => natLe 4 e.code))
        if (es.take (16 + k.code.length / 4)).any (·.poison) then .next (t.failClause ring c.index (failSlot stPoisonConsumed 0 0))
        else
          match checkImage t f c.bits k with
          | some e => .next (t.failClause ring c.index e)
          | none =>
            .next ((t.writeHalves (lkCores f c.bits) (lkParen c.bits) (.loaded k.code)).workDone ring c.index (fun x => x))
  | none => .next s

/-- The checks of STANDARD (R385). -/
def checkStandard (s : State) (f : FieldSt) (c : BitVec 512) : Option Failure :=
  firstFailure [failIf (s.lkBusy f c) (rejected 3), failIf (lkOutside f c) (rejected 5)]

/-- The kernel store finds an uncorrectable word: until its refill nothing is written from it (R117). -/
def State.storeLost (s : State) : State := { s with glb := { s.glb with kstoreOk := false } }

/-- LOAD_KERNEL with STANDARD: the standard kernel is written from the kernel store; a store that finds an uncorrectable
word, or is under refill, makes the writing wait (R117, R383, R385). -/
def execLoadKernelStandard (ring : Nat) (read : KernelRead) (s : State) : Answer :=
  match s.startedClause ring read.slot verbLoadKernel with
  | some c =>
    if lkStandard c.bits = false then .next s
    else
      match s.fieldOf (lkField c.bits) with
      | none => .next (s.failClause ring c.index (failNone stFieldAbsent 0))
      | some f =>
        match checkStandard s f c.bits with
        | some e => .next (s.failClause ring c.index e)
        | none =>
          if read.storeBad && s.glb.kstoreOk then .next s.storeLost
          else if s.glb.kstoreOk then
            .next ((s.writeHalves (lkCores f c.bits) (lkParen c.bits) .standard).workDone ring c.index (fun x => x))
          else .next s
  | none => .next s

end Sys2Proof.Machine
end

