-- ==== Sys2Proof/Machine/NearBank.lean ====
section
/-! DEFINITION. Near-bank engines: the matrix-vector clause, its staging, steps and merge (06 R179 to R205, 11 R360). -/

namespace Sys2Proof.Machine

/-! ### The placement of W (R185 to R189) -/

/-- The columns of the pages of batch β, `none` for an unmapped page (R189). -/
def State.batchColumns (s : State) (w : Noun) (q : MvPlan) (b : Nat) : List (Option Nat) :=
  (List.range (q.stride / 8)).map (fun i =>
    match s.translate w.place (w.dva + 2 ^ 21 * (q.stride / 8 * b + i)) with
    | some (.dram a) => some (a / Config.vaultBytes)
    | _ => none)

/-- The column of a batch. -/
def State.batchColumn (s : State) (w : Noun) (q : MvPlan) (b : Nat) : Nat := (((s.batchColumns w q b).headD none).getD 0)

/-- Columns of a clause's batches, without repeats, rising. -/
def State.mvVaults (s : State) (w : Noun) (q : MvPlan) : List Nat :=
  (List.range q.batches).foldl (fun l b => insSet (s.batchColumn w q b) l) []

/-- The first dimension in which a noun is not a vector of n elements. -/
def vectorShape (x : Noun) (n : Nat) : Option Nat :=
  if x.dim 0 ≠ n then some 0 else (List.range 5).findSome? (fun i => if x.dim (i + 1) ≠ 1 then some (i + 1) else none)

/-- The verb's own checks (R185, R190, R189, R176). -/
def checkNearBank (s : State) (f : Option FieldSt) (c : BitVec 512) (w x y : Noun) : Option Failure :=
  let q := mvPlan w
  let cols := match f with
    | some v => v.cores
    | none => []
  firstFailure [
    failIf (w.place ≠ 3 || w.layout ≠ 2) (failNone stNounShape 7),
    failIf (w.dva % 2 ^ 21 ≠ 0) (failNone stNounShape 7),
    failIf (w.rank ≠ 2) (failNone stNounShape 7),
    failIf (!([3, 4, 5, 6, 9].contains w.format)) (failNone stNounShape 7),
    failIf (bits w.placeArg 15 11 ≠ 0) (failNone stNounShape 7),
    failIf (q.n % 16 ≠ 0) (failNone stNounShape 1),
    failIf (q.k % (q.slices * q.tk) ≠ 0) (failNone stNounShape 0),
    failIf (decide (4096 < headBytes q.mx q.ks)) (failNone stNounShape 0),
    failIf (!isF8 x.format) (failNone stFormatPair 0),
    (vectorShape x q.k).map (fun d => failNone stNounShape d),
    (vectorShape y q.n).map (fun d => failNone stNounShape d),
    failIf (!outputAllowed false y.format) (failNone stFormatPair 0),
    failIf (clAccum c && !(y.format == 0 || y.format == 1 || y.format == 2)) (failNone stFormatPair 0),
    failIf (x.place == 3 || y.place == 3) (failNone stNounShape 7),
    failIf (isMx y.format && decide (q.n % 32 ≠ 0)) (failNone stNounShape 0),
    failIf ((List.range q.batches).any (fun b =>
      let l := s.batchColumns w q b
      !(l.all (fun o => o == l.headD none && (match o with
        | some n => cols.contains n
        | none => false))))) (failNone stBankAlign 0),
    failIf ((s.mvVaults w q).any s.vaultEvacuating) (failNone stVaultEvacuating 0)]

/-! ### Starting (R191, R192) -/

/-- The clause of a job with its weight noun. -/
def State.jobClause (s : State) (j : NbeJob) : Option ClauseSt := (s.ring j.ring).clauseOf j.index

/-- The rows that a batch's engines step through: row index of each level and the slots in use (R200). -/
def State.batchRows (s : State) (w : Noun) (q : MvPlan) (b : Nat) : List LockedRow :=
  (List.range (q.heads + q.tiles + 1)).filterMap (fun l =>
    match s.translate w.place (q.levelDva w b 0 l) with
    | some (.dram a) => some { row := (decodeStandard a).row, lo := 0, hi := q.slots b }
    | _ => none)

/-- Verbs whose work runs at the vaults' engines (R181). -/
def engineVerb (v : Nat) : Bool := v == verbNearBank || v == verbDecode
/-- An earlier issued near-bank or decode clause of the field has not yet come to its vaults: clauses reach a vault
controller in field issue order (R191). -/
def State.engineTurn (s : State) (r : Nat) (c : ClauseSt) : Bool :=
  !s.rings.any (fun e => e.2.field == (s.ring r).field && e.2.clauses.any (fun x =>
    engineVerb (clVerb x.bits) && x.phase ≠ Phase.posted && !x.worked && decide (x.order < c.order)))

/-- NEAR_BANK_MATRIX_VECTOR: X is read and sent to the clause's vaults, whose controllers queue it (R191, R192). -/
def State.startNearBank (s : State) (r : Nat) (c : ClauseSt) : State :=
  let w := c.noun 0
  let x := c.noun 1
  let q := mvPlan w
  let vaults := s.mvVaults w q
  if vaults.any s.vaultEvacuating then s.failClause r c.index (failNone stVaultEvacuating 0)
  else
    let es := s.loadTensor x
    let poison := (es.zipIdx).foldl (fun l e => if e.1.bad then insSet (e.2 / 32) l else l) []
    let s1 := vaults.foldl (fun t n => t.modVault n (fun v =>
      let mine := (List.range q.batches).filter (fun b => s.batchColumn w q b == n)
      let job : NbeJob :=
        { ring := r, index := c.index, field := (s.ring r).field, decode := false, batches := mine, tasks := [], pv := false
          stage := 0, xs := es.map (fun e => BitVec.ofNat 8 e.code), xPoison := poison
          locked := mine.flatMap (s.batchRows w q) }
      ({ v with jobs := v.jobs ++ [job] } : VaultSt).beginStaging)) s
    s1.workDone r c.index (fun y => { y with vaults := vaults })

def execNearBankMatrixVector (ring slot : Nat) (host : HostView) (s : State) : Answer :=
  match s.startedClause ring slot verbNearBank with
  | some c => .next (if s.engineTurn ring c then (s.seeHost host).startNearBank ring c else s)
  | none => .next s

/-! ### Steps (R182, R187, R188, R193, R194) -/

/-- An engine before its first step of a batch; its token, and that it has failed, stand. -/
def EngineSt.fresh (e : EngineSt) : EngineSt :=
  { e with latch := [], acc := List.replicate 128 0, level := 0, poison := false }

/-- n bytes from an address as the open row of a bank gives them to its engine, or as the merge unit reads them: no cache
lies between (R179). -/
def State.readBank (s : State) (dva n : Nat) : List PByte :=
  (flitPieces dva n).flatMap (fun p => match s.translate 3 p.1 with
    | some (.dram a) =>
      let bad := s.bankPoison a p.2
      (s.bankRead a p.2).map (fun b => { byte := b, poison := bad })
    | t => s.readTarget t p.2)
/-- An engine's write step: whole flits in the open row, poisoned or not; combining entries of their bursts close (R160,
R196). -/
def State.writeBank (s : State) (dva : Nat) (bs : List Byte) (poison : Bool) : State :=
  (flitPieces dva bs.length).foldl (fun t p => match t.translate 3 p.1 with
    | some (.dram a) =>
      let part := (bs.drop (p.1 - dva)).take p.2
      ((t.bankFlit a part true poison).perturbWrite a part.length).closeEntries a part.length
    | _ => t) s

/-- The head of the latch as an array. -/
def EngineSt.latchArray (e : EngineSt) (n : Nat) : Array Byte := (Cells.readRange e.latch 0 n).toArray

/-- The value of x[k] of a slice, from the latch. -/
def latchX (fmtX : Nat) (latch : Array Byte) (i : Nat) : Val := elemVal fmtX (latch.getD i 0).toNat 127

/-- The products of lane j over one tile, in ascending k. `i0` is the tile's first k in its slice. -/
def laneProducts (w : Noun) (q : MvPlan) (fmtX : Nat) (latch row : Array Byte) (i0 j : Nat) : List (Val × Val) :=
  (List.range q.tk).map (fun i =>
    let code :=
      if q.four then
        let b := (row.getD (32 * (i / 4) + 2 * j + i % 4 / 2) 0).toNat
        if i % 2 = 0 then b % 16 else b / 16
      else (row.getD (32 * (i / 2) + 2 * j + i % 2) 0).toNat
    let scale := if q.mx then (latch.getD (roundUp64 q.ks + j * (q.ks / 32) + (i0 + i) / 32) 0).toNat else 127
    (latchX fmtX latch (i0 + i), elemVal w.format code scale))

/-- A row read into an engine: the last beat stays in its beat register (R179). -/
def EngineSt.takeBeat (e : EngineSt) (row : List PByte) : EngineSt := { e with beat := (row.drop (row.length - 32)).map (·.byte) }
/-- Accumulator words from `first` on replaced. -/
def EngineSt.putAcc (e : EngineSt) (first : Nat) (ws : List Word32) : EngineSt :=
  { e with acc := e.acc.take first ++ ws ++ e.acc.drop (first + ws.length) }

/-- What a read step leaves in the engine, with the operand slot whose poison it consumed: a head level fills the
latch, a weight level adds to the accumulators. -/
def readStep (w : Noun) (q : MvPlan) (fmtX : Nat) (row : List PByte) (l : Nat) (e0 : EngineSt) : EngineSt × Option Nat :=
  let e := e0.takeBeat row
  if l < q.heads then
    let used := row.take (headBytes q.mx q.ks - 2048 * l)
    let badX := (used.take (q.ks - 2048 * l)).any (·.poison)
    let badW := (used.drop (q.ks - 2048 * l)).any (·.poison)
    ({ e with latch := Cells.write e.latch (2048 * l) (row.map (·.byte)), level := l + 1, poison := e.poison || badX || badW },
     if badW then some 0 else if badX then some 1 else none)
  else
    let latch := e.latchArray (headBytes q.mx q.ks)
    let bytes := (row.map (·.byte)).toArray
    let bad := row.any (·.poison)
    let acc := (List.range 16).map (fun j =>
      let ps := laneProducts w q fmtX latch bytes (q.tk * (l - q.heads)) j
      toFp32 (accumulate q.four ps.length (fromFp32 (e.acc.getD j 0)) ps))
    ({ e.putAcc 0 acc with level := l + 1, poison := e.poison || bad }, if bad then some 0 else none)

/-- The lowest operand slot whose poison was consumed so far (R111, R197). -/
def mergeVerdict (old : Option Failure) (slot : Option Nat) : Option Failure :=
  match slot, old with
  | none, _ => old
  | some i, none => some (failSlot stPoisonConsumed i 0)
  | some i, some f => if f.status = stPoisonConsumed ∧ i < f.operand then some (failSlot stPoisonConsumed i 0) else some f

/-- Levels of an item run one after another without an engine, over the channel: the fallback of R204. -/
def State.fallbackItem (s : State) (w : Noun) (q : MvPlan) (fmtX b p : Nat) : State × Option Nat :=
  let run := (List.range (q.heads + q.tiles)).foldl (fun (a : EngineSt × Option Nat) l =>
    let r := readStep w q fmtX (s.readDva w.place (q.levelDva w b p l) 2048) l a.1
    (r.1, match a.2, r.2 with
      | some i, some j => some (min i j)
      | some i, none => some i
      | none, o => o)) (EngineSt.reset.fresh, none)
  (s.writeDva w.place (q.levelDva w b p (q.heads + q.tiles))
    ((wordsToBytes (run.1.acc.take 16)).map (fun x => some { byte := x, poison := run.1.poison })), run.2)

/-- An engine that does not step: marked dark, or failed at run time (R204, R205). -/
def State.engineOut (s : State) (n p : Nat) : Bool := (s.vault n).dark.contains p || (s.engine n p).dead

/-- Staging is done in a vault: the heads of the present batch hold their slices of X (R187, R192). -/
def State.writeHeads (s : State) (w : Noun) (q : MvPlan) (j : NbeJob) (b : Nat) : State :=
  (List.range (q.slots b)).foldl (fun t p =>
    let sl := (128 * b + p) % q.slices
    let xs := (j.xs.drop (sl * q.ks)).take q.ks
    let ws : List WByte := (xs.zipIdx).map (fun v =>
      some { byte := v.1, poison := j.xPoison.contains ((sl * q.ks + v.2) / 32) })
    (chunksOf 2048 (xs.length + 1) ws).zipIdx.foldl (fun u c => u.writeDva w.place (q.levelDva w b p c.2) c.1) t) s

/-! ### Tokens (R202, R203) -/

/-- The decode of a job. -/
def State.decodeOf (s : State) (r index : Nat) : Option DecodeSt := s.decodes.find? (fun d => d.ring == r && d.index == index)
def DecodeSt.task (d : DecodeSt) (i : Nat) : DecodeTask :=
  d.tasks.getD i { seq := 0, head := 0, block := 0, page := 0, count := 0, path := 0 }
/-- Two tasks of one segment (R232). -/
def DecodeSt.sameSegment (d : DecodeSt) (i k : Nat) : Bool :=
  let a := d.task i
  let b := d.task k
  a.seq == b.seq && a.head == b.head && a.block / 8 == b.block / 8
/-- The tasks of a bank of the vault, in their order. -/
def DecodeSt.ofBank (d : DecodeSt) (tasks : List Nat) (p : Nat) : List Nat := tasks.filter (fun i => (d.task i).page % 128 == p)
/-- The first task of a vault that finds no task slot, were every bank to take its next 16. -/
def DecodeSt.leftOut (d : DecodeSt) (tasks : List Nat) : Option Nat :=
  ((List.range 128).filterMap (fun p => ((d.ofBank tasks p).drop 16).head?)).min?
/-- The batch of a bank: its next tasks, at most 16, in task slots from 0 on. DESIGN CHOICE (log 58): the vault takes whole
segments, in their order, up to the first with a task that finds no slot, since a segment's scores are wanted together
(R233, R238). -/
def DecodeSt.batch (d : DecodeSt) (tasks : List Nat) (p : Nat) : List Nat :=
  match d.leftOut tasks with
  | none => d.ofBank tasks p
  | some next => (d.ofBank tasks p).filter (fun i => decide (i < next) && !d.sameSegment i next)
/-- Steps of a bank's batch in one phase: a head step, and for each task eight read steps and a write step (R238). -/
def decodeSteps (n : Nat) : Nat := if n = 0 then 0 else 1 + 9 * n

/-- The engine's batch still has a step to take. -/
def State.engineBusy (s : State) (n p : Nat) : Bool :=
  match (s.vault n).activeJob with
  | some j =>
    j.stage == 2 && !s.engineOut n p && (if j.decode then
      match s.decodeOf j.ring j.index with
      | some d => decide ((s.engine n p).level < decodeSteps (d.batch j.tasks p).length)
      | none => false
    else match s.jobClause j, j.batches with
      | some c, b :: _ =>
        let q := mvPlan (c.noun 0)
        decide (p < q.slots b) && decide ((s.engine n p).level ≤ q.heads + q.tiles)
      | _, _ => false)
  | none => false

/-- Engines are stopped under R203: a sag of stage 2 or more, loss of flow or a trip, self-refresh. -/
def State.enginesStopped (s : State) : Bool :=
  decide (2 ≤ s.pwr.sagStage) || decide (2 ≤ s.thm.flowState.toNat) || s.thm.trip || s.selfRef
/-- The bank of an engine is under page repair (R458). -/
def State.bankRepairing (s : State) (n p : Nat) : Bool :=
  match (s.vault n).repair with
  | some key => key % 128 == p
  | none => false
/-- An engine takes no step: engines are stopped, its tier yields or refreshes, its bank is under repair (R198, R203). -/
def State.enginePaused (s : State) (n p : Nat) : Bool :=
  s.enginesStopped || (s.tier n (p / 16)).yielding || (s.tier n (p / 16)).refreshing || s.bankRepairing n p

/-- Tokens held in a vault, and in one of its tiers. -/
def State.tokensHeld (s : State) (n : Nat) : Nat := ((List.range 128).filter (fun p => (s.engine n p).token)).length
def State.tierTokens (s : State) (n t : Nat) : Nat :=
  ((List.range 16).filter (fun b => (s.engine n (16 * t + b)).token)).length
def State.tierQuota (s : State) (n t : Nat) : Nat := (Tbl.get QuotaSt.reset s.thm.quotas (8 * n + t)).quota

/-- Tokens granted in a vault to waiting engines, in ascending p after the last granted, up to its quota and the
thermal quota of each tier (R202, R431). -/
def State.grantTokens (s : State) (n : Nat) : State :=
  let start := (s.vault n).nextEngine
  (List.range 128).foldl (fun t i =>
    let p := (start + i) % 128
    let e := t.engine n p
    if !e.token && t.engineBusy n p && !t.enginePaused n p && decide (t.tokensHeld n < (t.vault n).quota)
        && decide (t.tierTokens n (p / 16) < t.tierQuota n (p / 16)) then
      (t.setEngine n p { e with token := true }).modVault n (fun v => { v with nextEngine := (p + 1) % 128 })
    else t) s

/-- Offsets of the counters of R207 in BAR0. -/
def nbeCtr (n off : Nat) : Nat := 0x800000 + 0x1000 * n + off
def nbeStepsRd (n : Nat) : Nat := nbeCtr n 0x08
def nbeStepsWr (n : Nat) : Nat := nbeCtr n 0x10
def nbeTokenWait (n : Nat) : Nat := nbeCtr n 0x18
def nbeRefreshYields (n : Nat) : Nat := nbeCtr n 0x20
def nbeBoundaryServed (n : Nat) : Nat := nbeCtr n 0x28
def nbeWrDeferred (n : Nat) : Nat := nbeCtr n 0x30
def nbeWrRetry (n : Nat) : Nat := nbeCtr n 0x38
def nbePageRepairs (n : Nat) : Nat := nbeCtr n 0x40
def nbeFallback (n : Nat) : Nat := nbeCtr n 0x48

/-- An engine waits for a token: it could step, and holds none; an engine stopped for another reason does not wait for
one (R202). -/
def State.wantsToken (s : State) (n p : Nat) : Bool := s.engineBusy n p && !s.enginePaused n p && !(s.engine n p).token
def State.waitingEngines (s : State) (n : Nat) : Nat := ((List.range 128).filter (fun p => s.wantsToken n p)).length

/-- The batch's items are all at their end: the merge may begin (R192). -/
def State.batchFinished (s : State) (n : Nat) : Bool := (List.range 128).all (fun p => !s.engineBusy n p)

/-- When every item of the batch has its partials, the vault goes on to its merge. -/
def State.toMerge (s : State) (n : Nat) : State :=
  match (s.vault n).activeJob with
  | some j => if j.stage = 2 ∧ s.batchFinished n then s.modVault n (fun v => v.modJob j.ring j.index (fun x => { x with stage := 3 })) else s
  | none => s

/-- The staged batch's steps begin: tokens are granted, and engines that find none wait (R202). -/
def State.beginSteps (s : State) (n : Nat) (j : NbeJob) : State :=
  let s1 := (s.modVault n (fun v => v.modJob j.ring j.index (fun x => { x with stage := 2 }))).grantTokens n
  (s1.ctrAdd (nbeTokenWait n) (s1.waitingEngines n)).toMerge n

/-- A clause remembers the lowest slot whose poison it consumed. -/
def State.noteVerdict (s : State) (r index : Nat) (slot : Option Nat) : State :=
  s.modRing r (fun R => R.modClause index (fun c => { c with verdict := mergeVerdict c.verdict slot }))

/-- STAGING_DONE of a matrix-vector batch: heads written, dark engines' items carried out by the controller (R192, R204). -/
def State.stageMv (s : State) (n : Nat) (j : NbeJob) (c : ClauseSt) (b : Nat) : State :=
  let w := c.noun 0
  let q := mvPlan w
  let s1 := s.writeHeads w q j b
  (List.range (q.slots b)).foldl (fun t p =>
    if t.engineOut n p then
      let f := t.fallbackItem w q (c.noun 1).format b p
      (f.1.noteVerdict j.ring j.index f.2).ctrAdd (nbeFallback n) 1
    else t.setEngine n p (t.engine n p).fresh) s1

/-- The DVA of a level's row in the bank of an engine, and the bytes of it that its step uses: all of a read step's row, the
two beats of a write step (R193). -/
def State.mvStep (s : State) (n p : Nat) (c : ClauseSt) (b : Nat) : Nat × Nat :=
  let w := c.noun 0
  let q := mvPlan w
  let l := (s.engine n p).level
  (q.levelDva w b p l, if l < q.heads + q.tiles then 2048 else 64)

/-- One step of a matrix-vector item: a head or weight level is read, or the result level written (R188, R196). -/
def State.stepMv (s : State) (n p : Nat) (j : NbeJob) (c : ClauseSt) (b : Nat) : State :=
  let w := c.noun 0
  let q := mvPlan w
  let e := s.engine n p
  if e.level < q.heads + q.tiles then
    let st := readStep w q (c.noun 1).format (s.readBank (q.levelDva w b p e.level) 2048) e.level e
    ((s.setEngine n p st.1).noteVerdict j.ring j.index st.2).ctrAdd (nbeStepsRd n) 1
  else
    let old := s.readBank (q.levelDva w b p e.level) 64
    ((s.writeBank (q.levelDva w b p e.level) (wordsToBytes (e.acc.take 16)) e.poison).setEngine n p
      { e.takeBeat old with level := e.level + 1 }).ctrAdd (nbeStepsWr n) 1

/-! ### Merge (R182, R192, R195) -/

/-- The partials of the outputs of batch β, from its result levels: output index, and its S partials with poison. -/
def State.readPartials (s : State) (w : Noun) (q : MvPlan) (b : Nat) : List (Nat × List (Val × Bool)) :=
  (List.range (q.slots b / q.slices)).flatMap (fun i =>
    let items := (List.range q.slices).map (fun sl =>
      let bs := s.readBank (q.levelDva w b (q.slices * i + sl) (q.heads + q.tiles)) 64
      ((bytesToWords (bs.map (·.byte))).zipIdx).map (fun x =>
        (fromFp32 x.1, ((bs.drop (4 * x.2)).take 4).any (·.poison))))
    (List.range 16).map (fun j => (16 * (128 * b / q.slices + i) + j, items.map (fun l => l.getD j (Val.zero, false)))))

/-- The merge of one output (R182). -/
def mergeOutput (init : Option (Val × Bool)) (ps : List (Val × Bool)) : Val × Bool :=
  match init, ps with
  | some i, _ => ps.foldl (fun y p => (round32 (y.1.add p.1), y.2 || p.2)) i
  | none, p0 :: r => r.foldl (fun y p => (round32 (y.1.add p.1), y.2 || p.2)) p0
  | none, [] => (Val.zero, false)

/-- Vault-cache lines of rows that engines wrote are dropped (R148, R195). -/
def State.dropCacheRow (s : State) (n : Nat) (l : LockedRow) : State :=
  { s with caches := s.caches.filterMap (fun e =>
      if e.1 / 4096 = n then
        let c := { e.2 with ways := e.2.ways.map (fun w => match w with
          | some line =>
            let p := decodeStandard (line * 64)
            if p.row = l.row ∧ l.lo ≤ 16 * p.tier + p.bank ∧ 16 * p.tier + p.bank < l.hi then none else w
          | none => none) }
        if c = CacheSet.empty then none else some (e.1, c)
      else some e) }

/-- Outputs written to Y where their format's blocks are complete; the others are kept until they are (R105 to R109, R182).
The elements of one block, or one element of a format without blocks, go together. -/
def State.writeOutputs (s : State) (r : Nat) (c : ClauseSt) (outs : List (Nat × Word32 × Bool)) : State :=
  let y := c.noun 2
  let size := if isMx y.format then 32 else 1
  let all := c.merged ++ outs
  let blocks := (all.map (fun o => o.1 / size)).foldl (fun l b => insSet b l) []
  let whole (b : Nat) : List (Nat × Word32 × Bool) := all.filter (fun o => o.1 / size == b)
  let ready := blocks.filter (fun b => (whole b).length == size)
  let done := ready.map (fun b => (size * b, convertAt (size * b) y.format (clConv c.bits)
    ((List.range size).map (fun i => match (whole b).find? (fun o => o.1 == size * b + i) with
      | some o => (fromFp32 o.2.1, o.2.2)
      | none => (Val.zero, false)))))
  let es := (List.range y.count).map (fun e => match done.find? (fun d => decide (d.1 ≤ e) && decide (e < d.1 + size)) with
    | some d => d.2.elems[e - d.1]?
    | none => none)
  let left := all.filter (fun o => !ready.contains (o.1 / size))
  (s.storeTensor y es).modRing r (fun R => R.modClause c.index (fun x =>
    { x with merged := left, saturated := x.saturated + sumOf (done.map (fun d => d.2.saturated)) }))

/-- The merge unit of a vault computes the outputs of a batch and writes them (R182, R192). -/
def State.mergeBatch (s : State) (n : Nat) (j : NbeJob) (c : ClauseSt) (b : Nat) : State :=
  let w := c.noun 0
  let y := c.noun 2
  let q := mvPlan w
  let init := if clAccum c.bits then some (s.loadVals y) else none
  let outs := (s.readPartials w q b).map (fun p =>
    let v := mergeOutput (init.map (fun l => l.getD p.1 (Val.zero, false))) p.2
    (p.1, toFp32 v.1, v.2))
  let badY := match init with
    | some l => outs.any (fun o => (l.getD o.1 (Val.zero, false)).2)
    | none => false
  let s0 := (s.batchRows w q b).foldl (fun t l => t.dropCacheRow n l) s
  (s0.writeOutputs j.ring c outs).noteVerdict j.ring j.index (if badY then some 2 else none)

/-- The vault has finished a clause: its next job may begin, and the clause settles where it was the last (R191). -/
def State.leaveVault (s : State) (n : Nat) (j : NbeJob) : State :=
  let s1 := s.modVault n (fun v =>
    (v.modJob j.ring j.index (fun x => { x with stage := 4, batches := [], tasks := [] })).beginStaging)
  s1.modRing j.ring (fun R => R.modClause j.index (fun x => { x with vaults := delSet n x.vaults }))

end Sys2Proof.Machine
end

