-- ==== Sys2Proof/Machine/KeyValue.lean ====
section
/-! DEFINITION. Sequences, key-value pages, append, evict and decode attention (07 R216 to R240, 11 R363 to R366). -/

namespace Sys2Proof.Machine

/-! ### The directory (R219): words reached in the mode of their own page, 0 to 2 -/

def State.dirPlace (s : State) (dva : Nat) : Nat := if s.dvaMode dva ≤ 2 then s.dvaMode dva else 8
def State.dirWord (s : State) (dva : Nat) : Nat := leNat ((s.readDva (s.dirPlace dva) dva 4).map (·.byte))
def State.setDirWord (s : State) (dva v : Nat) : State :=
  s.writeDva (s.dirPlace dva) dva ((natLe 4 v).map (fun b => some { byte := b, poison := false }))

/-- DVA of the length word of the i-th layer held, and of the map word of (block, layer, head). -/
def SeqEntry.lengthDva (e : SeqEntry) (i : Nat) : Nat := e.dir + 4 * i
def SeqEntry.mapDva (e : SeqEntry) (b i h : Nat) : Nat :=
  e.dir + roundUp64 (4 * e.count) + 4 * ((b * e.count + i) * e.heads + h)
def State.layerLength (s : State) (e : SeqEntry) (i : Nat) : Nat := bits (s.dirWord (e.lengthDva i)) 23 0
def State.pageOf (s : State) (e : SeqEntry) (b i h : Nat) : Nat := bits (s.dirWord (e.mapDva b i h)) 22 0
/-- LENGTH of a sequence: the smallest of its length words. -/
def State.minLength (s : State) (e : SeqEntry) : Nat :=
  ((List.range e.count).map (s.layerLength e)).foldl Nat.min (2 ^ 24 - 1)

/-- A sequence entry's LENGTH and STATE as the device writes them. -/
def State.putSeq (s : State) (i length state : Nat) : State :=
  let w := leNat (s.dpaRead (s.seqDpa i) 4)
  s.dpaWrite (s.seqDpa i) (natLe 4 (length % 2 ^ 24 + state % 16 * 2 ^ 24 + w / 2 ^ 28 * 2 ^ 28)) false

/-! ### The sequence-table cache (R218) -/

def kvmSeqHit : Nat := 0x900020
def kvmSeqMiss : Nat := 0x900028
def kvmPagesAlloc : Nat := 0x900030
def kvmPagesFreed : Nat := 0x900038
def kvmFreeDeferred : Nat := 0x900040
def kvmHostWrDrop : Nat := 0x900048
def kvmTasksEngine : Nat := 0x900050
def kvmTasksCore : Nat := 0x900058

/-- The words of a SEQ noun: index and GEN (R226). -/
def State.seqWords (s : State) (n : Noun) : List (Nat × Nat) :=
  (s.loadTensor n).map (fun e => (bits e.code 19 0, bits e.code 31 24))

def isKvVerb (v : Nat) : Bool := v == verbDecode || v == verbKvAppend || v == verbKvEvict
/-- Operand slot of SEQ (R353). -/
def seqSlot (c : BitVec 512) : Nat := if clVerb c = verbDecode then 1 else 0

/-- Sequences that started clauses name: their entries are pinned. -/
def State.pinned (s : State) : List Nat :=
  s.rings.foldl (fun l e => (e.2.clauses.filter (fun c => c.phase = Phase.started && isKvVerb (clVerb c.bits))).foldl
    (fun l c => c.seqs.foldl (fun l w => insSet w.1 l) l) l) []

/-- Drops the least recent entry that is not pinned, when the cache holds more than 16,384. -/
def trimCache (pinned cache : List Nat) : List Nat :=
  if cache.length ≤ 16384 then cache
  else match cache.reverse.find? (fun i => !pinned.contains i) with
    | some i => cache.filter (fun j => decide (j ≠ i))
    | none => cache

/-- An entry is looked up in the cache. Of a clause that fails its start checks or its capacity R218 does not say what its
lookups leave: DESIGN CHOICE (log 67), they count nothing and bring nothing in, since only a clause that goes on comes here. -/
def State.touchSeq (s : State) (pinned : List Nat) (i : Nat) : State :=
  if s.kvm.cache.contains i then
    ({ s with kvm := { s.kvm with cache := i :: s.kvm.cache.filter (fun j => decide (j ≠ i)) } }).ctrAdd kvmSeqHit 1
  else ({ s with kvm := { s.kvm with cache := trimCache pinned (i :: s.kvm.cache) } }).ctrAdd kvmSeqMiss 1

/-! ### The pool (R220 to R222) -/

def State.poolDva (s : State) (f r p : Nat) : Nat :=
  s.applied.poolBase.toNat * 2 ^ 22 + 2 ^ 22 * f + 2 ^ 21 * (r / 8) + 2 ^ 18 * (r % 8) + 2048 * p
/-- DVA of row r of page k. -/
def State.pageDva (s : State) (k r : Nat) : Nat := s.poolDva (k / 128) r (k % 128)

/-- The column of a frame; 256 where it is not mapped. -/
def State.frameColumn (s : State) (f : Nat) : Nat :=
  match s.translate 3 (s.poolDva f 0 0) with
  | some (.dram a) => a / Config.vaultBytes
  | _ => 256

/-- Frames of the pool with their columns. -/
def State.poolFrames (s : State) : List (Nat × Nat) :=
  (List.range s.applied.poolFrames.toNat).map (fun f => (f, s.frameColumn f))
/-- Pool columns in ascending number. -/
def poolColumns (fs : List (Nat × Nat)) : List Nat := fs.foldl (fun l e => insSet e.2 l) []
/-- The frames of a column that hold pages, and its scratch frame. -/
def pageFrames (fs : List (Nat × Nat)) (col : Nat) : List Nat := ((fs.filter (fun e => e.2 == col)).map (·.1)).drop 1
def scratchFrame (fs : List (Nat × Nat)) (col : Nat) : Nat := ((fs.filter (fun e => e.2 == col)).map (·.1)).headD 0
/-- Pages in the pool: every frame but one in each column holds 128. -/
def State.poolPages (s : State) : Nat :=
  let fs := s.poolFrames
  128 * (fs.length - (poolColumns fs).length)

/-- Pages not free: in use, or reserved by an append. -/
def State.pagesTaken (s : State) : List Nat := Tbl.keys s.kvm.used ++ s.kvm.appends.flatMap (fun a => a.pages.map (fun p => p.2.2))
/-- `KVM_POOL_STATUS.FREE_PAGES`. -/
def State.freePages (s : State) : Nat := if s.kvm.active then s.poolPages - s.pagesTaken.length else 0

/-- The bit of a page in its column's free bitmap, 1 for a free page (R222, log 13). -/
def State.markPage (s : State) (k : Nat) (free : Bool) : State :=
  let fs := s.poolFrames
  let col := s.frameColumn (k / 128)
  let pos := 128 * ((pageFrames fs col).findIdx (· == k / 128)) + k % 128
  let dva := s.poolDva (scratchFrame fs col) 15 0 + pos / 8
  match s.readDva 3 dva 1 with
  | b :: _ =>
    let m : Byte := BitVec.ofNat 8 (2 ^ (pos % 8))
    s.writeDva 3 dva [some { byte := if free then b.byte ||| m else b.byte &&& (~~~ m), poison := b.poison }]
  | [] => s

/-! ### Allocation (R224) -/

def State.nodeTemp (s : State) (tierCode col : Nat) : Int := Tbl.get 0 s.thm.nodes (256 * tierCode + col)

/-- The tier that an append takes in a column: free pages, not reduced by thermal control, coolest, lowest. -/
def State.pickTier (s : State) (col : Nat) (freeTier : Nat → Bool) : Option Nat :=
  (List.range 8).foldl (fun (best : Option Nat) d =>
    if !freeTier d then best
    else match best with
      | none => some d
      | some x =>
        let rx := decide (s.tierQuota col x < 16)
        let rd := decide (s.tierQuota col d < 16)
        if (rx && !rd) || (rx == rd && decide (s.nodeTemp (3 + d) col < s.nodeTemp (3 + x) col)) then some d else best) none

/-- The page taken in a column, given those not free. -/
def State.pickPage (s : State) (fs : List (Nat × Nat)) (taken : List Nat) (col : Nat) : Option Nat :=
  let frames := pageFrames fs col
  let firstFree (d : Nat) : Option Nat := frames.findSome? (fun f =>
    (List.range 16).findSome? (fun b =>
      let k := 128 * f + 16 * d + b
      if taken.contains k then none else some k))
  match s.pickTier col (fun d => (firstFree d).isSome) with
  | some d => firstFree d
  | none => none

/-- The page for sequence q, layer i, head h, block b: the preferred column first, then the next, wrapping. -/
def State.allocate (s : State) (fs : List (Nat × Nat)) (taken : List Nat) (q i h b : Nat) : Option Nat :=
  let cols := poolColumns fs
  (List.range cols.length).findSome? (fun n =>
    s.pickPage fs taken (cols.getD ((q + 13 * i + h + b + n) % cols.length) 0))

/-- Several pages one after another; `none` when the pool cannot supply them all (R225). -/
def State.allocateAll (s : State) (fs : List (Nat × Nat)) (q i : Nat) :
    List (Nat × Nat) → List Nat → Option (List (Nat × Nat × Nat) × List Nat)
  | [], taken => some ([], taken)
  | (b, h) :: r, taken =>
    match s.allocate fs taken q i h b with
    | none => none
    | some k => match s.allocateAll fs q i r (k :: taken) with
      | none => none
      | some (l, t) => some ((b, h, k) :: l, t)

/-! ### Checks (R226, R364 to R366) -/

/-- The sequence table or the pool is not in use (R364). -/
def State.kvDisabled (s : State) : Bool := !s.applied.seqEn || !s.applied.poolEn
def checkKvEnabled (s : State) : Option Failure := failIf s.kvDisabled (failNone stKvDisabled 0)

/-- SEQ: INT32 with DIM0 = B from 1 to 4,096 (R226). -/
def checkSeqNoun (q : Noun) : Option Failure :=
  firstFailure [failIf (q.format ≠ 0xC) (failNone stNounShape 7),
    failIf (q.dim 0 == 0 || decide (4096 < q.dim 0)) (failNone stNounShape 0), shapeIf q [q.dim 0]]

def decTau (c : BitVec 512) : Word32 := BitVec.ofNat 32 (clModBits c 71 40)
def decLayer (c : BitVec 512) : Nat := clModBits c 79 72
def decNorm (c : BitVec 512) : Bool := clModBit c 80
def decEngine (c : BitVec 512) : Bool := clModBit c 81
def kvLayer (c : BitVec 512) : Nat := clModBits c 7 0
def evFunction (c : BitVec 512) : Nat := clModBits c 1 0
def evNewLength (c : BitVec 512) : Nat := clModBits c 31 8

/-- Modifier values (R363, R365, R366). -/
def decodeModifiers (c : BitVec 512) : Option Failure := failIf (!finiteNonzero (decTau c)) (failNone stBadModifier 40)
def evictModifiers (c : BitVec 512) : Option Failure :=
  firstFailure [failIf (decide (1 < evFunction c)) (failNone stBadModifier 0),
    failIf (evFunction c == 0 && evNewLength c ≠ 0) (failNone stBadModifier 8)]

/-- The checks of decode attention at issue (R364). -/
def checkDecode (s : State) (c : BitVec 512) (q seq o : Noun) (stats : Option Noun) : Option Failure :=
  firstFailure [
    checkKvEnabled s, checkSeqNoun seq,
    shapeIf q [128, q.dim 1, seq.dim 0],
    shapeIf o [128, q.dim 1, seq.dim 0],
    (stats.bind (fun st => shapeIf st [2, q.dim 1, seq.dim 0])),
    (stats.bind (fun st => failIf (st.format ≠ 0) (failNone stNounShape 7))),
    failIf (!isF8 q.format) (failNone stFormatPair 0),
    failIf (!outputAllowed false o.format) (failNone stFormatPair 0),
    failIf (!decNorm c && o.format ≠ 0) (failNone stFormatPair 0)]

/-- The checks of key-value append at issue (R366, R227). -/
def checkAppend (s : State) (seq new : Noun) : Option Failure :=
  firstFailure [
    checkKvEnabled s, checkSeqNoun seq,
    shapeIf new [128, new.dim 1, new.dim 2, seq.dim 0, 2],
    failIf (new.dim 2 == 0 || decide (2048 < new.dim 2)) (failNone stNounShape 2),
    failIf (decide (4 < new.format)) (failNone stFormatPair 0)]

/-- The checks of key-value evict at issue (R366); the use of slot 1 by CLOSE is an access check. -/
def checkEvict (s : State) (seq : Noun) (len : Option Noun) : Option Failure :=
  firstFailure [
    checkKvEnabled s, checkSeqNoun seq,
    (len.bind (fun l => failIf (l.format ≠ 0xC) (failNone stFormatPair 0))),
    (len.bind (fun l => shapeIf l [seq.dim 0]))]

/-- The checks of one SEQ word at start against its entry (R226). `layer`, `heads`: what the clause names, where the
check applies. -/
def checkWord (e : SeqEntry) (poison : Bool) (words : List (Nat × Nat)) (w : Nat × Nat) (pos : Nat) (layer heads : Option Nat) :
    Option Failure :=
  firstFailure [
    failIf poison (failNone stPoisonConsumed 0),
    failIf (!e.isOpen || decide (1 < e.format)) (failNone stKvSeqInvalid pos),
    failIf (e.gen ≠ w.2) (failNone stKvSeqStale pos),
    failIf (decide (1 < (words.filter (fun x => x.1 == w.1)).length)) (failNone stKvSeqDup pos),
    (layer.bind (fun l => failIf (decide (l < e.base) || decide (e.base + e.count ≤ l)) (failNone stKvLayerRange pos))),
    (heads.bind (fun h => failIf (e.heads ≠ h) (failNone stNounShape 1)))]

def State.checkWords (s : State) (words : List (Nat × Nat)) (layer heads : Option Nat) : Option Failure :=
  firstFailure ((words.zipIdx).map (fun p =>
    checkWord (s.seqEntry p.1.1) (s.dpaPoison (s.seqDpa p.1.1) 32) words p.1 p.2 layer heads))

/-! ### Append (R225, R227, R230) -/

/-- Page format of a sequence as a FORMAT code. -/
def SeqEntry.elemFormat (e : SeqEntry) : Nat := if e.format = 0 then 3 else 4

/-- What an append needs of one sequence. -/
structure AppendPlan where
  seq   : Nat
  layer : Nat
  start : Nat
  pages : List (Nat × Nat × Nat)
deriving DecidableEq, Repr

/-- The pages of every sequence of an append, in the order of SEQ; the position of the first that goes without. -/
def State.planAppends (s : State) (fs : List (Nat × Nat)) (layer tnew : Nat) :
    List ((Nat × Nat) × Nat) → List Nat → (List AppendPlan) ⊕ Nat
  | [], _ => .inl []
  | (w, pos) :: r, taken =>
    let e := s.seqEntry w.1
    let i := layer - e.base
    let len := s.layerLength e i
    let held := ceilDiv len 128
    let need := (List.range (ceilDiv (len + tnew) 128 - held)).flatMap (fun b => (List.range e.heads).map (fun h => (held + b, h)))
    match s.allocateAll fs w.1 i need taken with
    | none => .inr pos
    | some (l, t) => match s.planAppends fs layer tnew r t with
      | .inr p => .inr p
      | .inl ps => .inl ({ seq := w.1, layer := i, start := len, pages := l } :: ps)

/-- The page of block b and head h: one held, or one reserved. -/
def AppendPlan.page (p : AppendPlan) (s : State) (e : SeqEntry) (b h : Nat) : Nat :=
  match p.pages.find? (fun x => x.1 == b && x.2.1 == h) with
  | some x => x.2.2
  | none => s.pageOf e b p.layer h

/-- Dimension and position in a block of byte i of row r of a page (R220). -/
def pageCell (r i : Nat) : Nat × Nat :=
  let q := i / 32
  let j := i % 32 / 2
  let h := i % 2
  if r < 8 then (2 * q + h, 16 * r + j) else (16 * (r - 8) + j, 2 * q + h)

/-- The new positions of one sequence are written to its pages. `at_` gives NEW's value by dimension, head, position
and plane. -/
def State.writePositions (s : State) (e : SeqEntry) (p : AppendPlan) (tnew : Nat) (at_ : Nat → Nat → Nat → Nat → Val × Bool) : State :=
  let first := p.start / 128
  (List.range (ceilDiv (p.start + tnew) 128 - first)).foldl (fun t bi =>
    (List.range e.heads).foldl (fun t h =>
      (List.range 16).foldl (fun t r =>
        let b := first + bi
        let ws : List WByte := (List.range 2048).map (fun i =>
          let c := pageCell r i
          let pos := 128 * b + c.2
          if p.start ≤ pos ∧ pos < p.start + tnew then
            let v := at_ c.1 h (pos - p.start) (r / 8)
            some { byte := BitVec.ofNat 8 (convertElem e.elemFormat { Conv.plain with sat := true } 0 v.1).bits, poison := v.2 }
          else none)
        t.writeDva 3 (t.pageDva (p.page s e b h) r) ws) t) t) s

/-- Key-value append of a started clause. -/
def State.kvAppend (s : State) (r : Nat) (c : ClauseSt) : State :=
  let new := c.noun 1
  let words := c.seqs
  let tnew := new.dim 2
  let layer := kvLayer c.bits
  match s.checkWords words (some layer) (some (new.dim 1)) with
  | some f => s.failClause r c.index f
  | none =>
    match (words.zipIdx).find? (fun p =>
      let e := s.seqEntry p.1.1
      decide (128 * e.cap < s.layerLength e (layer - e.base) + tnew)) with
    | some p => s.failClause r c.index (failNone stKvCapacity p.2)
    | none =>
      match s.planAppends s.poolFrames layer tnew (words.zipIdx) s.pagesTaken with
      | .inr pos => s.failClause r c.index (failNone stKvPoolEmpty pos)
      | .inl plans =>
        let pins := s.pinned
        let s1 := words.foldl (fun t w => t.touchSeq pins w.1) s
        let vals := (s1.loadVals new).toArray
        let kh := new.dim 1
        let bb := new.dim 3
        let s2 := (plans.zipIdx).foldl (fun t p =>
          t.writePositions (s.seqEntry p.1.seq) p.1 tnew (fun d h tt z =>
            vals.getD (d + 128 * (h + kh * (tt + tnew * (p.2 + bb * z)))) (Val.zero, false))) s1
        let recs := plans.map (fun p => ({ ring := r, index := c.index, seq := p.seq, layer := p.layer
                                           length := p.start + tnew, pages := p.pages } : KvAppend))
        ({ s2 with kvm := { s2.kvm with appends := s2.kvm.appends ++ recs } }).workDone r c.index (fun x => x)

/-- Sequences of a clause. -/
def State.clauseSeqs (s : State) (r index : Nat) : List Nat :=
  match (s.ring r).clauseOf index with
  | some c => c.seqs.map (·.1)
  | none => []

/-- An append that started earlier and names a sequence of this one is not complete (R230). -/
def State.appendWaits (s : State) (r index : Nat) : Bool :=
  let mine := s.clauseSeqs r index
  (s.kvm.order.takeWhile (fun x => decide (x ≠ (r, index)))).any (fun x => (s.clauseSeqs x.1 x.2).any (fun q => mine.contains q))

/-- KEY_VALUE_APPEND: pages reserved and positions written; lengths rise when the clause completes (R225, R229). -/
def execKeyValueAppend (ring slot : Nat) (host : HostView) (s : State) : Answer :=
  match s.startedClause ring slot verbKvAppend with
  | some c => if s.appendWaits ring c.index then .next s else .next ((s.seeHost host).kvAppend ring c)
  | none => .next s

/-- What an append's completion commits (R225, R227, R229): bitmap, map words, length word, LENGTH. -/
def State.commitAppend (s : State) (a : KvAppend) : State :=
  let e := s.seqEntry a.seq
  let s1 := a.pages.foldl (fun t p => ((t.markPage p.2.2 false).setDirWord (e.mapDva p.1 a.layer p.2.1) (2 ^ 31 + p.2.2)).ctrAdd kvmPagesAlloc 1) s
  let old := s1.dirWord (e.lengthDva a.layer)
  let s2 := s1.setDirWord (e.lengthDva a.layer) (old / 2 ^ 24 * 2 ^ 24 + a.length % 2 ^ 24)
  let s3 := s2.putSeq a.seq (s2.minLength e) e.state
  { s3 with kvm := { s3.kvm with used := a.pages.foldl (fun u p => Tbl.put (2 ^ 20) u p.2.2 a.seq) s3.kvm.used } }

/-- The appends of a completed clause take effect. -/
def State.commitAppends (s : State) (r index : Nat) : State :=
  let mine := s.kvm.appends.filter (fun a => a.ring == r && a.index == index)
  if mine.isEmpty then s
  else
    let s1 := mine.foldl (fun t a => t.commitAppend a) s
    ({ s1 with kvm := { s1.kvm with appends := s1.kvm.appends.filter (fun a => !(a.ring == r && a.index == index)) } }).checkQuotas true

/-! ### Evict (R228, R230) -/

/-- A page becomes free. -/
def State.freePage (s : State) (k : Nat) : State :=
  let s1 := (s.markPage k true).ctrAdd kvmPagesFreed 1
  { s1 with kvm := { s1.kvm with used := s1.kvm.used.filter (fun u => decide (u.1 ≠ k)) } }

/-- A page that an evict frees: at once, or once the started clauses that read it have completed. -/
def State.evictPage (s : State) (r index k : Nat) : State :=
  let readers := (s.kvm.reading.filter (fun x => x.pages.contains k)).map (fun x => (x.ring, x.index))
  if readers.isEmpty then s.freePage k
  else
    ({ s with kvm := { s.kvm with
        freeing := s.kvm.freeing ++ [({ page := k, ring := r, index := index, readers := readers } : FreeWait)] } }).ctrAdd kvmFreeDeferred 1

/-- Pages of a sequence from block `lo i` of each layer on: (block, layer, head). -/
def State.pagesFrom (s : State) (e : SeqEntry) (lo : Nat → Nat) : List (Nat × Nat × Nat) :=
  (List.range e.count).flatMap (fun i =>
    let n := ceilDiv (s.layerLength e i) 128
    (List.range (n - lo i)).flatMap (fun b => (List.range e.heads).map (fun h => (lo i + b, i, h))))

/-- The evict clause is done once none of its pages waits. -/
def State.settleEvict (s : State) (r index : Nat) : State :=
  if s.kvm.freeing.any (fun x => x.ring == r && x.index == index) then s else s.workDone r index (fun x => x)

def State.kvClose (s : State) (r : Nat) (c : ClauseSt) : State :=
  let words := c.seqs
  match s.checkWords words none none with
  | some f => s.failClause r c.index f
  | none =>
    let pins := s.pinned
    let s1 := words.foldl (fun t w =>
      let e := t.seqEntry w.1
      let t1 := (t.pagesFrom e (fun _ => 0)).foldl (fun u p => u.evictPage r c.index (t.pageOf e p.1 p.2.1 p.2.2)) (t.touchSeq pins w.1)
      t1.putSeq w.1 e.length 0) s
    (s1.checkQuotas true).settleEvict r c.index

/-- L' for the x-th sequence: its element of LEN, or NEW_LENGTH. A negative element is no length: free (log 7). -/
def State.evictLength (s : State) (c : ClauseSt) (x : Nat) : Nat :=
  if c.hasNoun 1 then
    let v := ((s.loadTensor (c.noun 1)).getD x Elem.zero).code
    if v < 2 ^ 31 then v else (Config.freeValue (s.freeIdx + x)).toNat % 2 ^ 24
  else evNewLength c.bits

def State.kvTruncate (s : State) (r : Nat) (c : ClauseSt) : State :=
  let words := c.seqs
  match s.checkWords words none none with
  | some f => s.failClause r c.index f
  | none =>
    let pins := s.pinned
    let s1 := (words.zipIdx).foldl (fun t w =>
      let e := t.seqEntry w.1.1
      let cut := s.evictLength c w.2
      let gone := t.pagesFrom e (fun _ => ceilDiv cut 128)
      let t1 := gone.foldl (fun u p =>
        let m := e.mapDva p.1 p.2.1 p.2.2
        (u.evictPage r c.index (bits (u.dirWord m) 22 0)).setDirWord m (u.dirWord m % 2 ^ 31)) (t.touchSeq pins w.1.1)
      let t2 := (List.range e.count).foldl (fun u i =>
        let old := u.dirWord (e.lengthDva i)
        u.setDirWord (e.lengthDva i) (old / 2 ^ 24 * 2 ^ 24 + min (old % 2 ^ 24) cut)) t1
      t2.putSeq w.1.1 (t2.minLength e) e.state) s
    let s2 := { s1 with freeIdx := s1.freeIdx + words.length }
    (s2.checkQuotas true).settleEvict r c.index

/-- The started evict clause of a slot, unless its pages wait already. -/
def State.startedEvict (s : State) (r k fn : Nat) : Option ClauseSt :=
  match s.startedClause r k verbKvEvict with
  | some c =>
    if evFunction c.bits = fn ∧ !s.kvm.freeing.any (fun x => x.ring == r && x.index == c.index) then some c else none
  | none => none

def execKvEvictClose (ring slot : Nat) (host : HostView) (s : State) : Answer :=
  match s.startedEvict ring slot 0 with
  | some c => .next ((s.seeHost host).kvClose ring c)
  | none => .next s

def execKvEvictTruncate (ring slot : Nat) (host : HostView) (s : State) : Answer :=
  match s.startedEvict ring slot 1 with
  | some c => .next ((s.seeHost host).kvTruncate ring c)
  | none => .next s

/-- DEFERRED_PAGE_FREE: a page whose readers have completed is released; the evict completes with its last (R230). -/
def execDeferredPageFree (page : Nat) (s : State) : Answer :=
  match s.kvm.freeing.find? (fun x => x.page == page) with
  | none => .next s
  | some w =>
    if w.readers.any (fun x => s.kvm.reading.any (fun y => x == (y.ring, y.index))) then .next s
    else
      let s1 := { s with kvm := { s.kvm with freeing := s.kvm.freeing.filter (fun x => decide (x.page ≠ page)) } }
      .next (((s1.freePage page).checkQuotas true).settleEvict w.ring w.index)

/-! ### Decode attention (R231 to R240) -/

/-- A segment's products: its maximum, sum, partials, and whether a page flit it consumed was poisoned. -/
structure Segment where
  m   : Val
  l   : Val
  o   : List Val
  bad : Bool
deriving DecidableEq, Repr

/-- The 128 elements of lane j of a row of a page: bytes 32q + 2j + h in ascending 2q + h (R188, R220). -/
def laneValues (fmt : Nat) (row : Array Byte) (j : Nat) : List Val :=
  (List.range 128).map (fun i => elemVal fmt (row.getD (32 * (i / 2) + 2 * j + i % 2) 0).toNat 127)

/-- Accumulator words 16r to 16r + 15 after read step r of a phase. QK, row r of the keys: the scores of positions 16r + j,
with no product added at or beyond n. PV, row 8 + r: the value sums of dimensions 16r + j over the n valid positions (R233,
R238). -/
def taskWords (pv : Bool) (fmt n r : Nat) (v : List Val) (row : Array Byte) : List Word32 :=
  (List.range 16).map (fun j =>
    if pv then toFp32 (dot (v.take n) ((laneValues fmt row j).take n))
    else if 16 * r + j < n then toFp32 (dot v (laneValues fmt row j)) else 0)

/-- The rows of a page that a phase reads. -/
def phaseRows (pv : Bool) : List Nat := (List.range 8).map (fun r => if pv then 8 + r else r)

/-- A task's 128 words of a phase, its rows being read over the channel, and whether a flit was poisoned (R204, R236). -/
def State.pageWords (s : State) (pv : Bool) (fmt n page : Nat) (v : List Val) : List Word32 × Bool :=
  let rows := (phaseRows pv).map (fun r => s.readDva 3 (s.pageDva page r) 2048)
  ((rows.zipIdx).flatMap (fun x => taskWords pv fmt n x.2 v (x.1.map (·.byte)).toArray), rows.any (fun r => r.any (·.poison)))

/-- The scaled scores of a segment's tasks, their maximum, the E4M3 probabilities × 256 of their valid positions, and their
sum (R233). `tasks`: valid positions and scores. -/
structure Softmax where
  m  : Val
  l  : Val
  ps : List (List Val)
deriving DecidableEq, Repr
def segmentSoftmax (tau : Val) (tasks : List (Nat × List Word32)) : Softmax :=
  let scores := tasks.map (fun t => (t.2.take t.1).map (fun w => round32 ((fromFp32 w).mul tau)))
  let mg := redMax32 (indexed scores.flatten)
  let ps := scores.map (fun l => l.map (fun v =>
    fp8e4m3.rounded ((exp32 (round32 (v.sub mg))).mul (.fin false 256 0))))
  { m := mg, l := redSum32 (indexed ps.flatten), ps := ps }

/-- The merge of segments in ascending order (R234). -/
def mergeSegments : List Segment → Segment
  | [] => { m := .inf true, l := Val.zero, o := List.replicate 128 Val.zero, bad := false }
  | s0 :: r => r.foldl (fun x g =>
      let n := x.m.maximum g.m
      let a := exp32 (round32 (x.m.sub n))
      let c := exp32 (round32 (g.m.sub n))
      { m := n
        l := round32 ((round32 (x.l.mul a)).add (round32 (g.l.mul c)))
        o := (x.o.zip g.o).map (fun p => round32 ((round32 (p.1.mul a)).add (round32 (p.2.mul c))))
        bad := x.bad || g.bad }) s0

/-- The sequence of a SEQ word as a decode reads it (R229): entry, length and pages, the latter two only of a sequence
that passes the checks. -/
def State.readSeq (s : State) (r index : Nat) (words : List (Nat × Nat)) (w : Nat × Nat) (layer heads : Nat) : KvRead :=
  let raw := leNat (s.dpaRead (s.seqDpa w.1) 32)
  let e := parseSeq raw
  let poison := s.dpaPoison (s.seqDpa w.1) 32
  let i := layer - e.base
  let ok := (checkWord e poison words w 0 (some layer) (some heads)).isNone
  let n := if ok then s.layerLength e i else 0
  { ring := r, index := index, seq := w.1, gen := w.2, raw := raw, poison := poison, length := n
    pages := (List.range (ceilDiv n 128)).flatMap (fun b => (List.range heads).map (fun h => s.pageOf e b i h)) }

/-- A key-value clause reads its SEQ words at its start; an append takes its place in the order of appends, and a decode
reads the lengths and pages of its sequences (R226, R229, R230). -/
def State.startKv (s : State) (r : Nat) (c : ClauseSt) : State :=
  let words := s.seqWords (c.noun (seqSlot c.bits))
  let s1 := s.modRing r (fun R => R.modClause c.index (fun x => { x with seqs := words }))
  if clVerb c.bits = verbKvAppend then { s1 with kvm := { s1.kvm with order := s1.kvm.order ++ [(r, c.index)] } }
  else if clVerb c.bits = verbDecode then
    let now := words.map (fun w => s.readSeq r c.index words w (decLayer c.bits) ((c.noun 0).dim 1))
    { s1 with kvm := { s1.kvm with reading := s1.kvm.reading ++ now } }
  else s1

/-- The sequences of a started decode as read at its start. -/
def State.decodeReads (s : State) (r : Nat) (c : ClauseSt) : List KvRead :=
  s.kvm.reading.filter (fun x => x.ring == r && x.index == c.index)
def checkReads (xs : List KvRead) (layer heads : Nat) : Option Failure :=
  let words := xs.map (fun x => (x.seq, x.gen))
  firstFailure ((xs.zipIdx).map (fun p =>
    checkWord (parseSeq p.1.raw) p.1.poison words (p.1.seq, p.1.gen) p.2 (some layer) (some heads)))

/-- The core that runs segment g of list position x and head h, of the F cores of a field in row-major order; the merge of x
and h runs on that of segment 0 (R235). -/
def segmentCore (cores : List Nat) (g h x : Nat) : Nat := cores.getD ((g + h + x) % cores.length) 0
/-- The cores of a decode's segments; a sequence without positions has only its merge. -/
def decodeCores (cores : List Nat) (reads : List KvRead) (heads : Nat) : List Nat :=
  (reads.zipIdx).foldl (fun l x => (List.range heads).foldl (fun m h =>
    (List.range (max 1 (ceilDiv x.1.length 1024))).foldl (fun k g => insSet (segmentCore cores g h x.2) k) m) l) []

/-- Where a task runs (R236): 0 on its bank's engine, 1 on the core path, 2 by the controller for a dark engine. -/
def State.taskPath (s : State) (f : Option FieldSt) (onCores : Bool) (k : Nat) : Nat :=
  let col := s.frameColumn (k / 128)
  if onCores || s.vaultEvacuating col || s.vaultRetired col || !(match f with
      | some x => x.cores.contains col
      | none => false) then 1
  else if s.engineOut col (k % 128) then 2 else 0

/-- The tasks of a decode in order of positions, heads and blocks (R232). -/
def State.decodeTasks (s : State) (f : Option FieldSt) (onCores : Bool) (reads : List KvRead) (heads : Nat) : List DecodeTask :=
  (reads.zipIdx).flatMap (fun x => (List.range heads).flatMap (fun h => (List.range (ceilDiv x.1.length 128)).map (fun b =>
    let k := x.1.pages.getD (b * heads + h) 0
    { seq := x.2, head := h, block := b, page := k, count := min 128 (x.1.length - 128 * b), path := s.taskPath f onCores k })))

/-- q of a list position and head, with its poison. -/
def queryRow (q : Noun) (qa : Array (Val × Bool)) (x h : Nat) : List (Val × Bool) :=
  (List.range 128).map (fun d => qa.getD (d + 128 * (h + q.dim 1 * x)) (Val.zero, false))

/-- Format of the pages of a list position. -/
def readFormat (reads : List KvRead) (x : Nat) : Nat := match reads[x]? with
  | some k => (parseSeq k.raw).elemFormat
  | none => 3

/-- Tasks whose scores their own cores compute (R236). -/
def State.coreScores (s : State) (c : ClauseSt) (reads : List KvRead) (d : DecodeSt) (items : List Nat) : DecodeSt :=
  let q := c.noun 0
  let qa := (s.loadVals q).toArray
  items.foldl (fun e i =>
    let t := e.task i
    let w := s.pageWords false (readFormat reads t.seq) t.count t.page (plainRow (queryRow q qa t.seq t.head))
    { e with scores := Tbl.put [] e.scores i w.1, bad := if w.2 then insSet i e.bad else e.bad }) d

/-- The tasks of a segment, by their places in the clause. -/
def DecodeSt.segment (d : DecodeSt) (i : Nat) : List Nat := (List.range d.tasks.length).filter (d.sameSegment i)
/-- The probabilities × 256 of a task, once every score of its segment has reached its core. -/
def DecodeSt.probabilities (d : DecodeSt) (tau : Val) (i : Nat) : Option (List Val) :=
  let seg := d.segment i
  if seg.all (fun k => (Tbl.find d.scores k).isSome) then
    some ((segmentSoftmax tau (seg.map (fun k => ((d.task k).count, Tbl.get [] d.scores k)))).ps.getD (seg.findIdx (· == i)) [])
  else none

/-- The value partials of the tasks that no engine has served (R236). -/
def State.corePartials (s : State) (tau : Val) (reads : List KvRead) (d : DecodeSt) : DecodeSt :=
  ((List.range d.tasks.length).filter (fun i => (Tbl.find d.partials i).isNone)).foldl (fun e i =>
    let t := e.task i
    let w := s.pageWords true (readFormat reads t.seq) t.count t.page ((e.probabilities tau i).getD [])
    { e with partials := Tbl.put [] e.partials i w.1, bad := if w.2 then insSet i e.bad else e.bad }) d

/-- One head of one list position: its segments computed and merged (R233, R234). -/
def DecodeSt.headResult (d : DecodeSt) (tau : Val) (x h : Nat) : Segment :=
  let mine := (List.range d.tasks.length).filter (fun i => (d.task i).seq == x && (d.task i).head == h)
  mergeSegments ((List.range (ceilDiv mine.length 8)).map (fun g =>
    let seg := (mine.drop (8 * g)).take 8
    let sm := segmentSoftmax tau (seg.map (fun i => ((d.task i).count, Tbl.get [] d.scores i)))
    { m := sm.m, l := sm.l, o := outerSum (seg.map (fun i => (Tbl.get [] d.partials i).map fromFp32))
      bad := seg.any (fun i => d.bad.contains i) }))

/-- The outputs of a decode whose scores are complete (R234, R240). -/
def State.finishDecode (s : State) (r : Nat) (c : ClauseSt) (d0 : DecodeSt) : State :=
  let q := c.noun 0
  let o := c.noun 2
  let kh := q.dim 1
  let reads := s.decodeReads r c
  let tau := fromFp32 (decTau c.bits)
  let qa := (s.loadVals q).toArray
  let d := s.corePartials tau reads d0
  let heads := (reads.zipIdx).flatMap (fun w => (List.range kh).map (fun h =>
    let x := d.headResult tau w.2 h
    (w.1.length, { x with bad := x.bad || (w.1.length ≠ 0 && rowBad (queryRow q qa w.2 h)) })))
  let down : Val := .fin false 1 (-8)
  let outs := heads.flatMap (fun x => x.2.o.map (fun v =>
    (if x.1 = 0 then Val.zero else if decNorm c.bits then div32 v x.2.l else round32 (v.mul down), x.2.bad)))
  let conv := convertTensor o.format (clConv c.bits) outs
  let s1 := s.storeTensor o (conv.elems.map some)
  let s2 := if c.hasNoun 3 then
      let st := convertTensor 0 Conv.plain (heads.flatMap (fun x => [(x.2.m, x.2.bad), (round32 (x.2.l.mul down), x.2.bad)]))
      s1.storeTensor (c.noun 3) (st.elems.map some)
    else s1
  let s3 := ({ s2 with decodes := s2.decodes.filter (fun x => !(x.ring == r && x.index == c.index)) } : State).ctrAdd kvmTasksCore
    (d.tasks.filter (fun t => t.path == 1)).length
  s3.modRing r (fun R => R.modClause c.index (fun x =>
    { x with verdict := if heads.any (fun y => y.2.bad) then some (failSlot stPoisonConsumed 0 0) else none
             saturated := conv.saturated }))

/-- The rows that a decode's engines step through in a vault: those of its pages, and levels 0 to 9 of the scratch frame in
their banks (R200, R222). -/
def State.decodeRows (s : State) (scratch : Nat) (pages : List Nat) : List LockedRow :=
  let row (dva p : Nat) : List LockedRow := match s.translate 3 dva with
    | some (.dram a) => [{ row := (decodeStandard a).row, lo := p, hi := p + 1 }]
    | _ => []
  pages.flatMap (fun k => (List.range 16).flatMap (fun r => row (s.pageDva k r) (k % 128)))
    ++ (pages.foldl (fun l k => insSet (k % 128) l) []).flatMap (fun p =>
      (List.range 10).flatMap (fun l => row (s.poolDva scratch l p) p))

/-- The tasks of a decode go to the vaults of their pages, whose controllers queue them (R191, R236). -/
def State.queueDecode (s : State) (r : Nat) (c : ClauseSt) (d : DecodeSt) (cols : List Nat) : State :=
  let fs := s.poolFrames
  cols.foldl (fun t n =>
    let mine := (List.range d.tasks.length).filter (fun i => (d.task i).path ≠ 1 && s.frameColumn ((d.task i).page / 128) == n)
    let job : NbeJob :=
      { ring := r, index := c.index, field := (s.ring r).field, decode := true, batches := [], tasks := mine, pv := false
        stage := 0, xs := [], xPoison := []
        locked := s.decodeRows (scratchFrame fs n) (mine.map (fun i => (d.task i).page)) }
    t.modVault n (fun v => ({ v with jobs := v.jobs ++ [job] } : VaultSt).beginStaging)) s

/-- Decode attention of a started clause: its tasks go to their engines, its cores take the others; it finishes at once
where no engine has a task. -/
def State.decodeAttention (s : State) (r : Nat) (c : ClauseSt) : State :=
  let reads := s.decodeReads r c
  let kh := (c.noun 0).dim 1
  match checkReads reads (decLayer c.bits) kh with
  | some f => s.failClause r c.index f
  | none =>
    let tasks := s.decodeTasks (s.fieldOf (s.ring r).field) (decEngine c.bits) reads kh
    let cols := (tasks.filter (fun t => t.path ≠ 1)).foldl (fun l t => insSet (s.frameColumn (t.page / 128)) l) []
    let d0 : DecodeSt := { ring := r, index := c.index, tasks := tasks, scores := [], partials := [], bad := [] }
    let d := s.coreScores c reads d0 ((List.range tasks.length).filter (fun i => (d0.task i).path == 1))
    let pins := s.pinned
    let s1 := reads.foldl (fun t w => t.touchSeq pins w.seq) s
    if cols.isEmpty then (s1.finishDecode r c d).workDone r c.index (fun x => x)
    else
      (({ s1 with decodes := s1.decodes ++ [d] } : State).queueDecode r c d cols).workDone r c.index (fun x => { x with vaults := cols })

def execDecodeAttention (ring slot : Nat) (host : HostView) (s : State) : Answer :=
  match s.startedClause ring slot verbDecode with
  | some c => .next (if s.engineTurn ring c then (s.seeHost host).decodeAttention ring c else s)
  | none => .next s

end Sys2Proof.Machine
end

