-- ==== Sys2Proof/Machine/Update.lean ====
section
/-! DEFINITION. The update and digest verbs: DECIDE, APPLY, RELEASE, delayed applications, digests and the drift audit
(10 R322 to R340, 11 R374 to R377). -/

namespace Sys2Proof.Machine

/-! ### Modifiers (R374, R376) -/

def upFunction (c : BitVec 512) : Nat := clModBits c 3 0
def apPset (c : BitVec 512) : Nat := clModBits c 17 4
def apClip (c : BitVec 512) : Bool := clModBit c 18
def apGRbuf (c : BitVec 512) : Bool := clModBit c 19
def apRbuf (c : BitVec 512) : Nat := clModBits c 23 20
def apGscale (c : BitVec 512) : Word32 := BitVec.ofNat 32 (clModBits c 63 32)
def apClipMax (c : BitVec 512) : Word32 := BitVec.ofNat 32 (clModBits c 95 64)
def reReject (c : BitVec 512) : Bool := clModBit c 4
def dgFunction (c : BitVec 512) : Nat := clModBits c 1 0
def dgSource (c : BitVec 512) : Nat := clModBits c 5 2
def dgPset (c : BitVec 512) : Nat := clModBits c 19 6

def isFinite32 (w : Word32) : Bool := (fromFp32 w).isFinite
def isPositive32 (w : Word32) : Bool := isFinite32 w && Val.zero.lt (fromFp32 w)

/-- Modifier values of update (R374). -/
def updateModifiers (c : BitVec 512) : Option Failure :=
  if 2 < upFunction c then some (failNone stBadModifier 0)
  else if upFunction c = 0 then
    firstFailure [failIf (!decNormCheck c && decGroup c ≠ 0) (failNone stBadModifier 5),
      failIf (decNormCheck c && !isPositive32 (decNormMax c)) (failNone stBadModifier 32)]
  else if upFunction c = 1 then
    firstFailure [failIf (!isFinite32 (apGscale c)) (failNone stBadModifier 32),
      failIf (apClip c && !isPositive32 (apClipMax c)) (failNone stBadModifier 64)]
  else none

/-- Modifier values of digest (R376, R377). -/
def digestModifiers (c : BitVec 512) : Option Failure :=
  firstFailure [failIf (decide (1 < dgFunction c)) (failNone stBadModifier 0),
    failIf (decide (10 < dgSource c)) (failNone stBadModifier 2),
    failIf (dgFunction c == 1 && dgSource c ≠ 0) (failNone stBadModifier 2),
    failIf (dgFunction c == 0 && dgSource c == 0 && dgPset c ≠ 0) (failNone stBadModifier 6)]

/-! ### Checks of a set (R322) -/

/-- A set that is not valid for use. -/
def psetBad (s : State) (p : Pset) : Bool :=
  let wn := s.readNoun p.wnoun
  !s.applied.psetEn || !p.valid || p.malformed || (!p.slow && p.delay ≠ 0)
    || !wn.valid || wn.malformed || wn.dim 0 ≠ p.cols || p.rows ≠ (wn.dims.drop 1).foldl (· * ·) 1
    || wn.format ≠ p.wformat || !(wn.layout == 0 || wn.layout == 1) || decide (wn.length < workData wn)
    || (p.regions wn).any (fun g =>
      decide (2 ^ 48 < g.dva + g.bytes) || (s.dvaMode g.dva == 4 && !g.host) || (decide (s.dvaMode g.dva < 4) && !g.device))

/-- The first page of a set's regions that is not mapped. -/
def psetUnmapped (s : State) (p : Pset) : Option Failure :=
  ((p.regions (s.readNoun p.wnoun)).findSome? (fun g => s.firstUnmapped (s.dvaMode g.dva) g.dva g.bytes)).map (fun i =>
    failNone stUnmapped (min i 0x3FFF))

/-- The verb's checks of APPLY at issue (R375). `f`: the ring's field. -/
def checkApply (s : State) (fid : Nat) (c : BitVec 512) (g norm : Option Noun) : Option Failure :=
  let p := parsePset (s.psetBytes (apPset c))
  if s.psetPoison (apPset c) then some (failNone stPoisonConsumed 0)
  else
    firstFailure [
      failIf (psetBad s p || s.ownerOf p.field ≠ s.ownerOf fid) (failNone stPsetInvalid 0),
      psetUnmapped s p,
      (g.bind (fun n => failIf (n.format ≠ 0) (failNone stNounShape 7))),
      (g.bind (fun n => failIf (n.count ≠ p.count) (failNone stNounShape 0))),
      (norm.bind (fun n => failIf (n.format ≠ 0) (failNone stNounShape 7))),
      (norm.bind (fun n => failIf (n.count ≠ 1) (failNone stNounShape 0))),
      (if apGRbuf c then match s.fieldOf fid with
        | some x => failIf (!x.rbufHolds (apRbuf c) p.count || (x.rbuf (apRbuf c)).isEmpty) (failNone stRbufEmpty 0)
        | none => none
      else none)]

/-- The verb's checks of DECIDE at issue (R375, R333). -/
def checkDecide (c : BitVec 512) (g : Group) (sq out : Option Noun) : Option Failure :=
  if decNormCheck c then
    let one (n : Noun) : Option Failure := firstFailure [failIf (n.format ≠ 0) (failNone stNounShape 7), failIf (n.count ≠ 1) (failNone stNounShape 0)]
    firstFailure [failIf (!g.valid) (failNone stGroupInvalid 0), sq.bind one, out.bind one]
  else none

/-- Sources of a digest that a set does not have (R377, R324). -/
def digestSourceBad (p : Pset) (src : Nat) : Bool :=
  (p.slow && (src == 2 || src == 4 || src == 5 || src == 6 || src == 7 || src == 8 || src == 10))
    || (p.algo == 0 && (src == 7 || src == 8))

/-- The verb's checks of digest at issue (R377). -/
def checkDigest (s : State) (c : BitVec 512) (slot0 : Option (Nat × Noun)) (out : Option Noun) : Option Failure :=
  let set := dgFunction c == 1 || dgSource c ≠ 0
  let p := parsePset (s.psetBytes (dgPset c))
  if set && s.psetPoison (dgPset c) then some (failNone stPoisonConsumed 0)
  else
    firstFailure [
      failIf (set && psetBad s p) (failNone stPsetInvalid 0),
      failIf (set && digestSourceBad p (dgSource c)) (failNone stPsetInvalid 0),
      failIf (dgFunction c == 1 && (slot0.map (·.1)) ≠ some p.wnoun) (failNone stPsetInvalid 0),
      (if set then psetUnmapped s p else none),
      (out.bind (fun n => failIf (n.format ≠ 0xC) (failNone stFormatPair 0))),
      (out.bind (fun n => failIf (n.rank ≠ 1) (failNone stNounShape 7))),
      (out.bind (fun n => failIf (n.dim 0 ≠ 4) (failNone stNounShape 0)))]

/-! ### Waiting for a step (R328, R334) -/

/-- A DECIDE or RELEASE of the owner is under way. -/
def State.stepBusy (s : State) (o : Nat) : Bool :=
  (match s.stepOf o with
    | some x => x.owing.isSome
    | none => false)
  || s.colls.any (fun k => k.verb == verbUpdate && s.ownerOf (s.ring k.ring).field == some o)

/-- The STEP_STATE check at start: the clause's owner with its step, in one of the phases. -/
def State.stepReady (s : State) (r : Nat) (allowed : StepPhase → Bool) : Option (Nat × StepSt) :=
  match s.ownerOf (s.ring r).field with
  | none => none
  | some o => match s.stepOf o with
    | some x => if allowed x.phase then some (o, x) else none
    | none => none

/-- An APPLY of the owner that issued before is not complete (R334). -/
def State.applyPending (s : State) (o order : Nat) : Bool :=
  s.rings.any (fun e => s.ownerOf e.2.field == some o && e.2.clauses.any (fun c =>
    c.phase ≠ Phase.posted && clVerb c.bits == verbUpdate && upFunction c.bits == 1 && decide (c.order < order)))

/-! ### DECIDE and RELEASE -/

/-- The started update clause of a slot with a function. -/
def State.startedUpdate (s : State) (r k fn : Nat) : Option ClauseSt :=
  match s.startedClause r k verbUpdate with
  | some c => if upFunction c.bits = fn then some c else none
  | none => none

/-- A DECIDE with a norm check takes in the contributions raised before it starts, unless its owner has arrived (R329). -/
def State.holdNf (s : State) (o : Nat) (x : StepSt) : State :=
  if (s.waveOf x).own.isSome then s else s.setStep o { x with nfHeld := x.nf || x.nfHeld, nf := false }

/-- DECIDE of a started clause, its owner idle. -/
def State.decideClause (s : State) (r : Nat) (c : ClauseSt) : State :=
  match s.stepReady r (fun p => p == .open) with
  | none => s.failClause r c.index (failNone stStepState 0)
  | some (o, x) =>
    if decNormCheck c.bits then
      let sq := (s.loadVals (c.noun 0)).headD (Val.zero, false)
      let g := parseGroup c.entry
      let s1 := s.holdNf o x
      if sq.2 then s1.failClause r c.index (failSlot stPoisonConsumed 0 0)
      else if g.members = 1 then s1.decideArrive r c (some (toFp32 sq.1))
      else s1.startColl r c verbUpdate (decGroup c.bits) 1 0 [(toFp32 sq.1, false)] []
    else s.decideArrive r c none

def execDecide (ring slot : Nat) (host : HostView) (s : State) : Answer :=
  match s.startedUpdate ring slot 0, s.ownerOf (s.ring ring).field with
  | some c, some o => if s.stepBusy o then .next s else .next ((s.seeHost host).decideClause ring c)
  | _, _ => .next s

/-- RELEASE: once the step's earlier APPLYs have completed, the owner arrives with REJECT, or with 1 where a poisoned
APPLY forces a discard (R334, R462). -/
def execRelease (ring slot : Nat) (s : State) : Answer :=
  match s.startedUpdate ring slot 2, s.ownerOf (s.ring ring).field with
  | some c, some o =>
    if s.stepBusy o || s.applyPending o c.order then .next s
    else
      match s.stepReady ring (fun p => p != .open) with
      | none => .next (s.failClause ring c.index (failNone stStepState 0))
      | some (o, x) => .next (s.arriveStep o 2 (reReject c.bits || x.forced) ring c.index)
  | _, _ => .next s

/-! ### The update algorithms (R324) -/

def fr (v : Val) : Val := round32 v
def pow32 (b t : Val) : Val := laneOp fp32 0 0x31 (fr (t.mul (laneOp fp32 0 0x33 b Val.zero Val.zero))) Val.zero Val.zero
def sqrt32 (v : Val) : Val := laneOp fp32 0 0x22 v Val.zero Val.zero
def natVal (n : Nat) : Val := fr (Val.ofInt n)

/-- What a set's update reads and writes: master, m, v with poison. -/
structure SetState where
  p : Sum
  m : Sum
  v : Sum
deriving DecidableEq, Repr

/-- The scale s of an APPLY: GSCALE, clipped by the norm (R324, R333). -/
def applyScale (gscale clipMax : Word32) (clip : Bool) (norm : Val) : Val :=
  let k := if clip then (Val.fin false 1 0).minimum (div32 (fromFp32 clipMax) norm) else .fin false 1 0
  fr ((fromFp32 gscale).mul k)
where
  div32 (a b : Val) : Val := laneOp fp32 0 0x21 a b Val.zero

def divide32 (a b : Val) : Val := laneOp fp32 0 0x21 a b Val.zero
def oneMinus (b : Val) : Val := fr ((Val.fin false 1 0).sub b)

/-- Step of SGD with momentum. -/
def sgdElement (lr beta1 wd : Val) (g p m : Val × Bool) : (Val × Bool) × (Val × Bool) :=
  let bad := g.2 || p.2 || m.2
  let m' := fr ((fr (beta1.mul m.1)).add g.1)
  let p' := fr (p.1.sub (fr (lr.mul (fr (m'.add (fr (wd.mul p.1)))))))
  ((p', bad), (m', g.2 || m.2))

/-- AdamW from m' and v'. -/
def adamParam (lr eps wd c1 c2 p m v : Val) : Val :=
  let u := divide32 (divide32 m c1) (fr ((sqrt32 (divide32 v c2)).add eps))
  fr (p.sub (fr (lr.mul (fr (u.add (fr (wd.mul p)))))))

def ewma (beta : Val) (old new : Val) : Val := fr ((fr (beta.mul old)).add (fr ((oneMinus beta).mul new)))

/-- The new row and column factors (R324). -/
def newFactors (beta2 : Val) (rows cols : Nat) (v q : Sum) : Sum × Sum :=
  let qa := q.toArray
  let va := v.toArray
  let at_ (a : Array (Val × Bool)) (i : Nat) : Val × Bool := a.getD i (Val.zero, false)
  let rowf := (List.range rows).map (fun r =>
    let row := (List.range cols).map (fun c => at_ qa (r * cols + c))
    let old := at_ va r
    (ewma beta2 old.1 (divide32 (reduceRow fp32 false ((row.zipIdx).map (fun p => (p.2, p.1.1)))) (natVal cols)),
     old.2 || row.any (·.2)))
  let colf := (List.range cols).map (fun c =>
    let col := (List.range rows).map (fun r => at_ qa (r * cols + c))
    let old := at_ va (rows + c)
    let sum := match col with
      | [] => Val.zero
      | x :: r => r.foldl (fun y z => fr (y.add z.1)) x.1
    (ewma beta2 old.1 (divide32 sum (natVal rows)), old.2 || col.any (·.2)))
  (rowf, colf)

/-- The update of a whole set from its gradient, already scaled (R324). -/
def updateSet (s : Pset) (t : Nat) (g : Sum) (x : SetState) : SetState :=
  let lr := fromFp32 s.lr
  let b1 := fromFp32 s.beta1
  let b2 := fromFp32 s.beta2
  let eps := fromFp32 s.eps
  let wd := fromFp32 s.wd
  if s.algo = 0 then
    let out := ((g.zip x.p).zip x.m).map (fun e => sgdElement lr b1 wd e.1.1 e.1.2 e.2)
    { p := out.map (·.1), m := out.map (·.2), v := [] }
  else
    let c1 := oneMinus (pow32 b1 (natVal t))
    let c2 := oneMinus (pow32 b2 (natVal t))
    let m' := (x.m.zip g).map (fun e => (ewma b1 e.1.1 e.2.1, e.1.2 || e.2.2))
    let q := g.map (fun e => (fr (e.1.mul e.1), e.2))
    let v' : Sum × Sum :=   -- what is kept, and v' of each element
      if s.factored then
        let f := newFactors b2 s.rows s.cols x.v q
        let total := reduceRow fp32 false ((f.1.zipIdx).map (fun p => (p.2, p.1.1)))
        let totalBad := f.1.any (·.2)
        let col := f.2.toArray
        (f.1 ++ f.2, f.1.flatMap (fun r => (List.range s.cols).map (fun c =>
          let k := col.getD c (Val.zero, false)
          (divide32 (fr (r.1.mul k.1)) total, r.2 || k.2 || totalBad))))
      else
        let v := (x.v.zip q).map (fun e => (ewma b2 e.1.1 e.2.1, e.1.2 || e.2.2))
        (v, v)
    let p' := ((x.p.zip m').zip v'.2).map (fun e =>
      (adamParam lr eps wd c1 c2 e.1.1.1 e.1.2.1 e.2.1, e.1.1.2 || e.1.2.2 || e.2.2))
    { p := p', m := m', v := v'.1 }

/-- A tensor of FP32 words of a set, loaded and stored at a DVA. -/
def State.loadWords (s : State) (dva n : Nat) : Sum := if n = 0 then [] else s.loadVals (s.wordsNoun dva n)
def State.storeWords (s : State) (dva : Nat) (v : Sum) : State :=
  if v = [] then s
  else s.storeTensor (s.wordsNoun dva v.length) ((convertTensor 0 Conv.plain v).elems.map some)

/-- Rounding of a working copy of bank value t (R324). -/
def workConv (p : Pset) (t : Nat) : Conv :=
  { seed := (splitMixFin (BitVec.ofNat 64 (p.seed.toNat + t))).setWidth 32, sr := p.wsr, sat := true }

/-- The tensor of a working bank: WNOUN at that bank's address. -/
def State.workNoun (s : State) (p : Pset) (bank : Nat) : Noun :=
  let wn := s.readNoun p.wnoun
  let w := p.dva 3 bank
  { wn with dva := w, place := s.dvaMode w, scaleDva := if isMx wn.format then w + roundUp 64 (workData wn) else 0 }

/-- What an update leaves in a set: state in `stateBank`, working copy and T in `workBank` (R324, R326, R340). -/
def State.writeSet (s : State) (i : Nat) (p : Pset) (t stateBank workBank : Nat) (x : SetState) : State :=
  let w := convertTensor p.wformat (workConv p t) x.p
  let nf := (x.p.filter (fun v => !v.1.isFinite)).length
  let s1 := ((s.storeWords (p.dva 0 stateBank) x.p).storeWords (p.dva 1 stateBank) x.m).storeWords (p.dva 2 stateBank) x.v
  let s2 := s1.storeTensor (s1.workNoun p workBank) (w.elems.map some)
  let s3 := s2.dpaWrite (s2.psetDpa i + 0x28 + 4 * workBank) (natLe 4 t) false
  let s4 := (s3.ctrAdd updElems p.count).ctrAdd updNf nf
  if nf = 0 then s4 else s4.event .updateNonFinite none 0 i (some p.field) 0 [BitVec.ofNat 64 nf]

/-- The set as read: host-written fields as the clause read them at issue, CUR, T0, T1 and APPLIED as they stand. -/
def State.setNow (s : State) (i entry : Nat) : Pset :=
  let a := parsePset entry
  let b := parsePset (s.psetBytes i)
  { a with cur := b.cur, t0 := b.t0, t1 := b.t1, applied := b.applied }

/-- The gradient of an APPLY (R375). -/
def State.gradient (s : State) (r : Nat) (c : ClauseSt) (n : Nat) : Sum :=
  if apGRbuf c.bits then
    match s.fieldOf (s.ring r).field with
    | some x => (s.rbufRead x (apRbuf c.bits) n).map (fun w => (fromFp32 w.1, w.2))
    | none => []
  else s.loadVals (c.noun 0)

/-- An APPLY in phase PASS. -/
def State.applySet (s : State) (r : Nat) (c : ClauseSt) (o : Nat) (x : StepSt) : State :=
  let i := apPset c.bits
  let p := s.setNow i c.entry
  let g := s.gradient r c p.count
  let norm := if apClip c.bits then (s.loadVals (c.noun 1)).headD (Val.zero, false) else (Val.zero, false)
  let k := applyScale (apGscale c.bits) (apClipMax c.bits) (apClip c.bits) norm.1
  let scaled := g.map (fun e => (fr (e.1.mul k), e.2 || norm.2))
  let s0 := if apGRbuf c.bits then s.emptyRbuf (s.ring r).field (apRbuf c.bits) p.count else s
  let mark (t : State) (bad : Bool) : State :=
    t.setStep o { x with applied := insSet i x.applied, forced := x.forced || bad }
  if p.slow then
    let slot := x.step.toNat % (p.delay + 1)
    let bad := scaled.any (·.2)
    let s1 := s0.storeWords (p.gstage + 4 * p.count * slot) scaled
    let s2 := s1.setSlow i { s1.slowSet i with staged := insSet x.step.toNat (s1.slowSet i).staged }
    (mark s2 bad).workDone r c.index (fun y =>
      { y with verdict := if g.any (·.2) then some (failSlot stPoisonConsumed 0 0)
          else if norm.2 then some (failSlot stPoisonConsumed 1 0) else none })
  else
    let b := p.bank
    let old : SetState :=
      { p := s0.loadWords (p.dva 0 b) p.count, m := s0.loadWords (p.dva 1 b) p.count, v := s0.loadWords (p.dva 2 b) p.vWords }
    let new := updateSet p (x.step.toNat + 1) scaled old
    let bad := scaled.any (·.2) || old.p.any (·.2) || old.m.any (·.2) || old.v.any (·.2)
    (mark (s0.writeSet i p (x.step.toNat + 1) (1 - b) (1 - b) new) bad).workDone r c.index (fun y =>
      { y with verdict := if g.any (·.2) then some (failSlot stPoisonConsumed 0 0)
          else if norm.2 then some (failSlot stPoisonConsumed 1 0)
          else if bad then some (failNone stPoisonConsumed 0) else none })

/-- The slot of the gradient stage is not free yet (R339). -/
def State.stageBusy (s : State) (i : Nat) (p : Pset) (step : Nat) : Bool :=
  p.slow && (s.slowSet i).committed.any (fun j => decide (j + p.delay + 1 ≤ step))

/-- An APPLY begins to wait for its gradient stage (R339). -/
def State.stageStall (s : State) (i r index : Nat) : State :=
  let x := s.slowSet i
  if x.stall.any (fun t => t.1 = (r, index)) then s else s.setSlow i { x with stall := some ((r, index), s.time) }

/-- An APPLY goes on: what it waited is counted (R339, R340). -/
def State.stageGo (s : State) (i r index : Nat) : State :=
  match (s.slowSet i).stall with
  | none => s
  | some t =>
    let s1 := s.setSlow i { s.slowSet i with stall := none }
    if t.1 = (r, index) then s1.countStall t.2 else s1

/-- The gradient's buffer is EMPTY by now: another clause has taken its contents since the issue (R268). -/
def State.emptyGradient (s : State) (r : Nat) (c : ClauseSt) : Bool :=
  apGRbuf c.bits &&
  (match s.fieldOf (s.ring r).field with
   | some x => (x.rbuf (apRbuf c.bits)).isEmpty
   | none => false)

/-- An update writes into rows that a near-bank clause steps through: it waits for that clause (R200). -/
def State.setLocked (s : State) (r index : Nat) (p : Pset) (regions : Noun → List Region) : Bool :=
  s.regionsLocked r index (regions (s.readNoun p.wnoun))

/-- APPLY; a write into rows that a near-bank clause steps through waits for that clause (R200, R324, R328, R339). -/
def execApply (ring slot : Nat) (host : HostView) (s : State) : Answer :=
  match s.startedUpdate ring slot 1 with
  | none => .next s
  | some c =>
    match s.stepReady ring (fun p => p != .open) with
    | none => .next (s.failClause ring c.index (failNone stStepState 0))
    | some (o, x) =>
      if x.phase = .skip then .next (s.workDone ring c.index (fun y => { y with detail := 1 }))
      else if x.applied.contains (apPset c.bits) then .next (s.failClause ring c.index (failNone stStepState 0))
      else if s.emptyGradient ring c then .next (s.failClause ring c.index (failNone stRbufEmpty 0))
      else if s.stageBusy (apPset c.bits) (parsePset c.entry) x.step.toNat then .next (s.stageStall (apPset c.bits) ring c.index)
      else if s.setLocked ring c.index (s.setNow (apPset c.bits) c.entry) (s.setNow (apPset c.bits) c.entry).applyRegions then .next s
      else .next (((s.stageGo (apPset c.bits) ring c.index).seeHost host).applySet ring c o x)

/-! ### The delayed application (R340) -/

/-- SLOW_APPLICATION: the earliest committed step of a slow set whose forerunner has been published is applied, in
place; a RELEASE that waited for it goes on. -/
def execSlowApplication (pset : Nat) (host : HostView) (s : State) : Answer :=
  let x := s.slowSet pset
  match x.committed with
  | [] => .next s
  | j :: rest =>
    let q := parsePset (s.psetBytes pset)
    if x.applied ≠ [] ∨ s.setLocked 65536 0 q (fun wn => q.pendingRegions wn false) then .next s
    else
      let s0 := s.seeHost host
      let p := parsePset (s0.psetBytes pset)
      let g := s0.loadWords (p.gstage + 4 * p.count * (j % (p.delay + 1))) p.count
      let old : SetState :=
        { p := s0.loadWords (p.dva 0 0) p.count, m := s0.loadWords (p.dva 1 0) p.count, v := s0.loadWords (p.dva 2 0) p.vWords }
      let new := updateSet p (j + 1) g old
      let s1 := s0.writeSet pset p (j + 1) 0 (1 - p.bank) new
      let s2 := s1.dpaWrite (s1.psetDpa pset + 0x78) (natLe 4 j) false
      let s3 := s2.setSlow pset { x with committed := rest, applied := [j] }
      match s3.ownerOf p.field with
      | some o => .next (s3.tryAdvance o)
      | none => .next s3

/-! ### Digests (R337) -/

def digestP : Nat := 2 ^ 61 - 1
def digestX1 : Nat := 0x0123456789ABCDEF
def digestX2 : Nat := 0x1B8735930CA5E29D
def digestHash (x : Nat) (ws : List Word32) : Nat := ws.foldl (fun h w => (h * x + w.toNat + 1) % digestP) 0

/-- The four words of a digest of a byte stream. -/
def digestWords (bs : List Byte) : List Nat :=
  let ws := bytesToWords (bs ++ List.replicate (roundUp 4 bs.length - bs.length) 0)
  let h1 := digestHash digestX1 ws
  let h2 := digestHash digestX2 ws
  [h1 % 2 ^ 32, h1 / 2 ^ 32, h2 % 2 ^ 32, h2 / 2 ^ 32]

/-- The canonical stream of a tensor. -/
def State.streamOf (s : State) (n : Noun) : List PByte := canonBytes n.format (s.loadTensor n)

/-- A master bank rounded to WFORMAT again, with the bank's T (R324, R337). -/
def State.rerounded (s : State) (p : Pset) (bank : Nat) : ConvertedTensor :=
  convertTensor p.wformat (workConv p (p.tOf bank).toNat) (s.loadWords (p.dva 0 (if p.slow then 0 else bank)) p.count)

/-- The stream of a digest's source (R376). -/
def State.digestStream (s : State) (c : ClauseSt) : List PByte :=
  let p := s.setNow (dgPset c.bits) c.entry
  let cur := p.bank
  let words (copy bank n : Nat) : List PByte := s.streamOf (s.wordsNoun (p.dva copy bank) n)
  match dgSource c.bits with
  | 0 => s.streamOf (c.noun 0)
  | 1 => s.streamOf (s.workNoun p cur)
  | 2 => s.streamOf (s.workNoun p (1 - cur))
  | 3 => words 0 (if p.slow then 0 else cur) p.count
  | 4 => words 0 (1 - cur) p.count
  | 5 => words 1 cur p.count
  | 6 => words 1 (1 - cur) p.count
  | 7 => words 2 cur p.vWords
  | 8 => words 2 (1 - cur) p.vWords
  | 9 => canonBytes p.wformat (s.rerounded p cur).elems
  | _ => canonBytes p.wformat (s.rerounded p (1 - cur)).elems

/-- The started digest clause of a slot with a function. -/
def State.startedDigest (s : State) (r k fn : Nat) : Option ClauseSt :=
  match s.startedClause r k verbDigest with
  | some c => if dgFunction c.bits = fn then some c else none
  | none => none

def State.digestClause (s : State) (r : Nat) (c : ClauseSt) : State :=
  let st := s.digestStream c
  if st.any (·.poison) then
    s.workDone r c.index (fun x => { x with verdict := some (if dgSource c.bits = 0 then failSlot stPoisonConsumed 0 0 else failNone stPoisonConsumed 0) })
  else
    ((s.storeTensor (c.noun 1) ((digestWords (st.map (·.byte))).map (fun w => some { Elem.zero with code := w }))).ctrAdd updDigests 1).workDone
      r c.index (fun x => x)

/-- DIGEST (R337, R377). -/
def execDigest (ring slot : Nat) (host : HostView) (s : State) : Answer :=
  match s.startedDigest ring slot 0 with
  | some c => .next ((s.seeHost host).digestClause ring c)
  | none => .next s

/-- AUDIT of a started clause in phase OPEN (R338). -/
def State.auditClause (s : State) (r : Nat) (c : ClauseSt) : State :=
  let p := s.setNow (dgPset c.bits) c.entry
  let cur := p.bank
  if p.slow ∧ p.tOf (1 - cur) = p.applied + 1 ∧ (p.tOf cur).toNat < (p.tOf (1 - cur)).toNat then
    s.workDone r c.index (fun x => { x with detail := 2 })
  else
    let wn := s.workNoun p cur
    let work := s.streamOf wn
    let again := s.rerounded p cur
    let ref := canonBytes p.wformat again.elems
    if work.any (·.poison) then s.workDone r c.index (fun x => { x with verdict := some (failSlot stPoisonConsumed 0 0) })
    else if ref.any (·.poison) then s.workDone r c.index (fun x => { x with verdict := some (failNone stPoisonConsumed 0) })
    else
      let s1 := s.ctrAdd updDigests 2
      if digestWords (work.map (·.byte)) = digestWords (ref.map (·.byte)) then s1.workDone r c.index (fun x => x)
      else
        ((((s1.storeTensor wn (again.elems.map some)).ctrAdd updAuditFix 1).event .auditRepair (some 0xD) 0 (dgPset c.bits)
          (some p.field) 0 [BitVec.ofNat 64 (dgPset c.bits), (match s.ownerOf p.field with
            | some o => match s.stepOf o with
              | some x => x.step.setWidth 64
              | none => 0
            | none => 0)])).workDone r c.index (fun x => { x with detail := 1 })

/-- AUDIT (R328, R338). -/
def execAudit (ring slot : Nat) (host : HostView) (s : State) : Answer :=
  match s.startedDigest ring slot 1 with
  | none => .next s
  | some c =>
    match s.stepReady ring (fun p => p == .open) with
    | none => .next (s.failClause ring c.index (failNone stStepState 0))
    | some _ => .next ((s.seeHost host).auditClause ring c)

end Sys2Proof.Machine
end

