-- ==== Sys2Proof/Machine/Issue.lean ====
section
/-! DEFINITION. Issue: the choice of the next clause (02 R42, R61, R68) and its checks in their order (11 R348 to R355;
02 R52, R59, R60). -/

namespace Sys2Proof.Machine

/-! ### Step 1: clause format (R50 to R52, R351, R352, R355) -/

/-- Reserved bits of MOD, by verb and function. -/
def modReserved (c : BitVec 512) : Nat :=
  let v := clVerb c
  if v = verbMatrix then maskOf 39 36 + maskOf 127 60
  else if v = verbChain then maskOf 39 35 + maskOf 127 52
  else if v = verbNearBank then maskOf 34 34 + maskOf 39 36 + maskOf 127 40
  else if v = verbAttnFwd then maskOf 39 34 + maskOf 127 73
  else if v = verbAttnBwd then maskOf 39 35 + maskOf 127 73
  else if v = verbDecode then maskOf 39 34 + maskOf 127 82
  else if v = verbKvAppend then maskOf 127 8
  else if v = verbKvEvict then maskOf 7 2 + maskOf 127 32
  else if v = verbCopy then maskOf 127 0
  else if v = verbReduce then maskOf 44 35 + maskOf 127 53
  else if v = verbAllReduce ∨ v = verbReduceScatter then maskOf 39 35 + maskOf 127 65
  else if v = verbAllGather ∨ v = verbBroadcast then maskOf 52 0 + maskOf 127 65
  else if v = verbUpdate then
    (if clModBits c 3 0 = 0 then maskOf 31 17 + maskOf 127 64
     else if clModBits c 3 0 = 1 then maskOf 31 24 + maskOf 127 96
     else if clModBits c 3 0 = 2 then maskOf 127 5 else 0)
  else if v = verbDigest then maskOf 127 20
  else if v = verbScrub then maskOf 31 27 + maskOf 127 59
  else if v = verbConfigure then maskOf 127 8
  else if v = verbLoadKernel then maskOf 127 24
  else if v = verbFence then maskOf 63 20
  else 0

/-- Bits of the clause that must be zero. -/
def clauseReserved (c : BitVec 512) : Nat :=
  maskOf 15 13 + maskOf 63 48
    + (List.range 4).foldl (fun n i => n + 2 ^ (64 + 32 * i) * (if (clOperand c i).acc = 0 then maskOf 31 0 else maskOf 23 22)) 0
    + 2 ^ 192 * modReserved c
    + (List.range 2).foldl (fun n i => n + 2 ^ (320 + 64 * i) * (if (clWait c i).1 then 0 else maskOf 63 0)) 0
    + (List.range 2).foldl (fun n i => n + 2 ^ (448 + 32 * i) * (if (clSignal c i).1 then 0 else maskOf 31 0)) 0

/-- The first offending byte (R389): a reserved bit, or the ADD of a signal that adds 0 (R51). -/
def offendingByte (c : BitVec 512) : Option Nat :=
  let zero (i : Nat) : Bool := (clSignal c i).1 && (clSignal c i).2.2 == 0
  let l := (match lowestByte (Nat.land c.toNat (clauseReserved c)) 64 with
    | some b => [b]
    | none => []) ++ (if zero 0 then [0x3A] else []) ++ (if zero 1 then [0x3E] else [])
  match l with
  | [] => none
  | b :: r => some (r.foldl min b)

/-! ### Step 2: ring 0 (R349, R387) -/

def fenceFunction (c : BitVec 512) : Nat := clModBits c 3 0
def fenceTarget (c : BitVec 512) : Nat := clModBits c 19 4
def fenceValue (c : BitVec 512) : Nat := clModBits c 127 64
/-- A fence with one of the ring-control functions. -/
def isRingControl (c : BitVec 512) : Bool := clVerb c == verbFence && decide (2 ≤ fenceFunction c) && decide (fenceFunction c ≤ 5)
/-- Verbs that ring 0 executes (R40, R348). -/
def adminVerb (v : Nat) : Bool := v == verbScrub || v == verbConfigure || v == verbLoadKernel || v == verbFence

def checkRing0 (r : Nat) (c : BitVec 512) : Option Failure :=
  firstFailure [
    failIf (r = 0 && !adminVerb (clVerb c)) (failNone stAdminVerb 0),
    failIf (r ≠ 0 && (clVerb c == verbConfigure || isRingControl c)) (failNone stAdminOnly 0)]

/-! ### Step 4: modifier values -/

def fenceModifiers (c : BitVec 512) : Option Failure :=
  firstFailure [
    failIf (decide (5 < fenceFunction c)) (failNone stBadModifier 0),
    failIf (fenceFunction c = 0 && fenceTarget c ≠ 0) (failNone stBadModifier 4),
    failIf (fenceFunction c ≠ 1 && fenceValue c ≠ 0) (failNone stBadModifier 64)]

def scrubStart (c : BitVec 512) : Nat := clModBits c 26 0
def scrubPages (c : BitVec 512) : Nat := clModBits c 58 32
def scrubModifiers (c : BitVec 512) : Option Failure :=
  failIf (scrubPages c = 0 || decide (100663296 < scrubPages c)) (failNone stBadModifier 32)

def checkModifiers (r fid : Nat) (c : BitVec 512) : Option Failure :=
  let v := clVerb c
  if v = verbMatrix then matrixModifiers c
  else if v = verbAttnFwd ∨ v = verbAttnBwd then attentionModifiers c
  else if v = verbDecode then decodeModifiers c
  else if v = verbKvEvict then evictModifiers c
  else if v = verbAllReduce ∨ v = verbReduceScatter then collectModifiers c
  else if v = verbUpdate then updateModifiers c
  else if v = verbDigest then digestModifiers c
  else if v = verbScrub then scrubModifiers c
  else if v = verbConfigure then configureModifiers c
  else if v = verbLoadKernel then loadModifiers r fid c
  else if v = verbFence then fenceModifiers c
  else none

/-! ### Step 5: operands (R353, R59) -/

/-- The access codes that slot i of a clause may hold (R353). -/
def slotAllows (c : BitVec 512) (i : Nat) : List Nat :=
  let v := clVerb c
  let src := if coSrcRbuf c then [0] else [1]
  let slots : List (List Nat) :=
    if v = verbMatrix then [[1], [1], if mxOutRbuf c then [0] else if clAccum c then [3] else [2], [0]]
    else if v = verbChain then [[0, 1, 2, 3], [0, 1, 2, 3], [0, 1, 2, 3], [0, 1, 2, 3]]
    else if v = verbNearBank then [[1], [1], if clAccum c then [3] else [2], [0]]
    else if v = verbAttnFwd ∨ v = verbDecode then [[1], [1], [2], [0, 2]]
    else if v = verbAttnBwd then [[1], [1], [1], [2]]
    else if v = verbKvAppend then [[3], [1], [0], [0]]
    else if v = verbKvEvict then [[3], if evFunction c = 0 then [0] else [0, 1], [0], [0]]
    else if v = verbCopy then [[1], [2], [0], [0]]
    else if v = verbReduce then [[1], [2], [0, 1], [0]]
    else if v = verbAllReduce ∨ v = verbReduceScatter then [src, [2], [0, 1], [0]]
    else if v = verbAllGather then [[1], [2], [0], [0]]
    else if v = verbBroadcast then [[0, 1], [2], [0], [0]]
    else if v = verbUpdate then
      (if upFunction c = 0 then (if decNormCheck c then [[1], [2], [0], [0]] else [[0], [0], [0], [0]])
       else if upFunction c = 1 then [if apGRbuf c then [0] else [1], if apClip c then [1] else [0], [0], [0]]
       else [[0], [0], [0], [0]])
    else if v = verbDigest then
      (if dgFunction c = 1 then [[3], [0], [0], [0]] else [if dgSource c = 0 then [1] else [0], [2], [0], [0]])
    else if v = verbScrub then [[2], [0], [0], [0]]
    else if v = verbConfigure then [if cfgDissolve c then [0] else [1], [0], [0], [0]]
    else if v = verbLoadKernel then [if lkStandard c then [0] else [1], [0], [0], [0]]
    else [[0], [0], [0], [0]]
  slots.getD i [0]

/-- Bytes that LENGTH must cover (R98, R189, R572). -/
def Noun.needed (n : Noun) : Nat := if n.layout = 2 then (mvPlan n).bytes else packedBytes n.format n.positions

/-- A page entry of [dva, dva + n) was read poisoned (R462). -/
def State.walkPoison (s : State) (dva n : Nat) : Bool :=
  s.ptBytes ≠ 0 && n ≠ 0 && (List.range ((dva + n - 1) / 2 ^ 21 - dva / 2 ^ 21 + 1)).any (fun i =>
    let a := (dva / 2 ^ 21 + i) * 2 ^ 21
    let l1 := s.ptBase + 8 * bits a 47 30
    let l2 := bits (s.dpaWord l1) 37 12 * 2 ^ 12
    s.dpaPoison l1 8 || (bitAt (s.dpaWord l1) 0 && s.dpaPoison (l2 + 8 * bits a 29 21) 8))

/-- Pages of a range are mapped; DETAIL is the first that is not (R59, R97, R389). -/
def State.checkMapped (s : State) (slot place dva n mark : Nat) : Option Failure :=
  if s.walkPoison dva n then some (failSlot stPoisonConsumed slot 0)
  else (s.firstUnmapped place dva n).map (fun i => failSlot stUnmapped slot (min i 0x3FFF + mark))

/-- The checks of R59 on a noun. -/
def State.checkNoun (s : State) (slot gen : Nat) (wr : Bool) (n : Noun) : Option Failure :=
  firstFailure [
    failIf (!n.valid || n.malformed) (failSlot stNounInvalid slot 0),
    failIf (n.gen ≠ gen) (failSlot stNounStale slot 0),
    failIf (wr && n.rdonly) (failSlot stNounRdonly slot 0),
    failIf (n.rank = 0 || decide (6 < n.rank)) (failSlot stNounShape slot 7),
    ((List.range 6).find? (fun i => decide (n.rank ≤ i) && n.dim i ≠ 1)).map (fun i => failSlot stNounShape slot i),
    failIf (decide (n.length < n.needed)) (failSlot stNounShape slot 6),
    s.checkMapped slot n.place n.dva n.length 0,
    if n.scaled then s.checkMapped slot n.place n.scaleDva (ceilDiv n.count 32) (2 ^ 14) else none]

/-- Step 5 for one slot. -/
def State.checkSlot (s : State) (c : BitVec 512) (i : Nat) : Option Failure :=
  let w := clOperand c i
  if !(slotAllows c i).contains w.acc then some (failSlot stOperandAccess i 0)
  else if w.acc = 0 then none
  else if s.nounPoison w.noun then some (failSlot stPoisonConsumed i 0)
  else s.checkNoun i w.gen (decide (2 ≤ w.acc)) (s.issueNoun w.noun)

/-! ### Step 6: the verb's own checks -/

/-- The noun of a slot in use. -/
def State.slotNoun (s : State) (c : BitVec 512) (i : Nat) : Option Noun :=
  if (clOperand c i).acc = 0 then none else some (s.issueNoun (clOperand c i).noun)

/-- The clause reads a chain entry, a parameter-set entry or a group entry at issue: its contents and its poison. -/
def State.issueEntry (s : State) (c : BitVec 512) : Nat × Bool :=
  let v := clVerb c
  if v = verbChain then (s.readChain (chainIndex c), s.chainPoison (chainIndex c))
  else if v = verbUpdate ∧ upFunction c = 1 then (s.psetBytes (apPset c), s.psetPoison (apPset c))
  else if v = verbUpdate ∧ upFunction c = 0 ∧ decNormCheck c then (s.groupBytes (decGroup c), s.groupPoison (decGroup c))
  else if v = verbDigest ∧ (dgFunction c = 1 ∨ dgSource c ≠ 0) then (s.psetBytes (dgPset c), s.psetPoison (dgPset c))
  else if needsGroup v then (s.groupBytes (coGroup c), s.groupPoison (coGroup c))
  else (0, false)

/-- The checks of scrub (R379). -/
def checkScrub (s : State) (r : Nat) (f : Option FieldSt) (c : BitVec 512) (summary : Noun) : Option Failure :=
  let first := scrubStart c * 2048 / Config.vaultBytes
  let last := (scrubStart c * 2048 + scrubPages c * 2048 - 1) / Config.vaultBytes
  let vaults := (List.range (last - first + 1)).map (· + first)
  firstFailure [
    failIf (decide (Config.dramBytes < (scrubStart c + scrubPages c) * 2048)) (failNone stScrubRange 0),
    failIf (vaults.any s.vaultRetired) (failNone stScrubRange 0),
    failIf (r ≠ 0 && !(match f with
      | some x => vaults.all (fun v => x.cores.contains v)
      | none => false)) (failNone stScrubRange 0),
    failIf (summary.format ≠ 0xC) (failNone stFormatPair 0),
    failIf (summary.rank ≠ 1) (failNone stNounShape 7),
    failIf (summary.dim 0 ≠ 64) (failNone stNounShape 0)]

def State.checkVerb (s : State) (r fid : Nat) (c : BitVec 512) : Option Failure :=
  let v := clVerb c
  let f := if r = 0 then none else s.fieldOf fid
  let n (i : Nat) : Noun := (s.slotNoun c i).getD Noun.unused
  let e := s.issueEntry c
  let g := parseGroup e.1
  if e.2 then some (failNone stPoisonConsumed 0)
  else if v = verbMatrix then checkMatrix f c (n 0) (n 1) (n 2)
  else if v = verbChain then checkChain e.1 (fun i => (clOperand c i).acc) n
  else if v = verbNearBank then checkNearBank s f c (n 0) (n 1) (n 2)
  else if v = verbAttnFwd then checkAttnFwd (n 0) (n 1) (n 2) (s.slotNoun c 3)
  else if v = verbAttnBwd then checkAttnBwd (n 0) (n 1) (n 2) (n 3)
  else if v = verbDecode then checkDecode s c (n 0) (n 1) (n 2) (s.slotNoun c 3)
  else if v = verbKvAppend then checkAppend s (n 0) (n 1)
  else if v = verbKvEvict then checkEvict s (n 0) (s.slotNoun c 1)
  else if v = verbCopy then checkCopy (n 0) (n 1)
  else if v = verbReduce ∨ v = verbAllReduce ∨ v = verbReduceScatter then checkReduce f c g (n 0) (n 1) (s.slotNoun c 2)
  else if v = verbAllGather ∨ v = verbBroadcast then
    -- IN is read at rank 0 of a broadcast (R372)
    (if v = verbBroadcast ∧ g.valid ∧ g.isFirst ∧ (clOperand c 0).acc = 0 then some (failSlot stOperandAccess 0 0)
     else checkGather c g (s.slotNoun c 0) (n 1))
  else if v = verbUpdate then
    (if upFunction c = 0 then checkDecide c g (s.slotNoun c 0) (s.slotNoun c 1)
     else if upFunction c = 1 then checkApply s fid c (s.slotNoun c 0) (s.slotNoun c 1) else none)
  else if v = verbDigest then
    checkDigest s c ((s.slotNoun c 0).map (fun x => ((clOperand c 0).noun, x))) (s.slotNoun c 1)
  else if v = verbScrub then checkScrub s r f c (n 0)
  else if v = verbFence then failIf (isRingControl c && fenceTarget c = 0) (failNone stRingState 0)
  else none

/-- A stage that the clause needs is on a mapped-out core, or its image is invalid (R75, R118). -/
def State.checkStages (s : State) (r fid : Nat) (c : BitVec 512) : Option Failure :=
  if r = 0 || !coreVerb (clVerb c) then none
  else match s.fieldOf fid with
    | none => none
    | some f =>
      let img (n : Nat) : Image := if f.paren then (s.core n).imgParen else (s.core n).imgMain
      firstFailure [
        failIf (f.cores.any (fun n => (s.core n).mappedOut && (match img n with
          | .loaded _ => true
          | .invalid => true
          | _ => false))) (failNone stFieldDegraded 0),
        failIf (f.cores.any (fun n => img n = .invalid)) (rejected 7)]

/-- A clause that QUOTA_EXCEEDED concerns (R344): one with a write operand; DECIDE is exempt. -/
def quotaConcerns (c : BitVec 512) : Bool :=
  !(clVerb c == verbUpdate && upFunction c == 0) && (List.range 4).any (clWrites c)

/-- The ring's field is faulted; with compute disabled every clause fails as if it were (R270, R487). -/
def State.checkFault (s : State) (r fid : Nat) : Option Failure :=
  if !s.glb.computeEn then some (failNone stFieldFault 0)
  else if r = 0 then none
  else (s.fieldOf fid).bind (fun f => f.faulted.map (fun island => failNone stFieldFault island))

/-- All checks at issue, in the order of R354. -/
def State.checkIssue (s : State) (r fid : Nat) (c : BitVec 512) : Option Failure :=
  match firstFailure [
      (offendingByte c).map (failNone stReservedSet),
      failIf (!knownVerbs.contains (clVerb c)) (failNone stBadVerb 0),
      checkRing0 r c,
      s.checkFault r fid,
      checkModifiers r fid c] with
  | some f => some f
  | none =>
    match (List.range 4).findSome? (s.checkSlot c) with
    | some f => some f
    | none => firstFailure [
        s.checkVerb r fid c,
        s.checkStages r fid c,
        failIf (r ≠ 0 && quotaConcerns c && s.overQuota fid) (failNone stQuotaExceeded 0)]

/-! ### Which clause issues next (R42, R61) -/

/-- A wait is satisfied (R65). -/
def State.waitMet (s : State) (w : Bool × Nat × Nat) : Bool := !w.1 || decide (w.2.2 ≤ (Tbl.get 0 s.conj w.2.1).toNat)
def State.waitsMet (s : State) (c : BitVec 512) : Bool := s.waitMet (clWait c 0) && s.waitMet (clWait c 1)

/-- The clause at the head of a ring's issue: its first posted one. -/
def RingSt.head (r : RingSt) : Option ClauseSt := r.clauses.find? (fun c => c.phase = Phase.posted)

/-- Rings issue nothing in a compute-only reset (R493), and ring 0 issues no configure-field or load-kernel clause
during an epoch (R502). -/
def State.issueHeld (s : State) (r : Nat) (c : ClauseSt) : Bool :=
  s.glb.rstState ≠ 0 || (r = 0 && s.epoch.active && !c.poison && (clVerb c.bits == verbConfigure || clVerb c.bits == verbLoadKernel))

/-- The ring can issue: running, not closing, its head free to go. -/
def State.ringReady (s : State) (r : Nat) : Bool :=
  let x := s.ring r
  x.state = .running && !x.closing && (match x.head with
    | some c => !s.issueHeld r c && (c.poison || s.waitsMet c.bits)
    | none => false)

/-- What an issuing clause has read stays in the front end's caches: its noun entries and its chain entry (R60, R135).
Entries that only a failing clause read are not kept (log 52). -/
def State.keepEntries (s : State) (c : BitVec 512) : State :=
  let s1 := (List.range 4).foldl (fun t i => if (clOperand c i).acc = 0 then t else t.cacheNoun (clOperand c i).noun) s
  if clVerb c = verbChain then s1.cacheChain (chainIndex c) else s1

/-- The head clause of a ring issues or fails. -/
def State.issueHead (s : State) (r : Nat) : State :=
  let x := s.ring r
  match x.head with
  | none => s
  | some c =>
    let fail := if c.poison then some (failNone stPoisonConsumed 0) else s.checkIssue r x.field c.bits
    match fail with
    | some f => s.failClause r c.index f
    | none =>
      let nouns := (List.range 4).filterMap (fun i => (s.slotNoun c.bits i).map (fun n => (i, n)))
      let s1 := s.setRing r { x.modClause c.index (fun y =>
        { y with phase := .issued, nouns := nouns, entry := (s.issueEntry c.bits).1, order := s.cmd.issues }) with waitFrom := none }
      ({ s1 with cmd := { s1.cmd with issues := s1.cmd.issues + 1 } } : State).keepEntries c.bits

/-- Rings bound to a field, in the order of their IDs; ring 0 stands alone. -/
def State.ringsOf (s : State) (f : Option Nat) : List Nat :=
  s.rings.filterMap (fun e => match f with
    | none => if e.1 = 0 then some 0 else none
    | some k => if e.1 ≠ 0 ∧ e.2.isOpen ∧ e.2.field = k then some e.1 else none)

/-- The next ring of a priority after the one served last, round-robin by ring ID (R42). -/
def nextAfter (last : Option Nat) (l : List Nat) : Option Nat :=
  match last with
  | none => l.head?
  | some k => (l.find? (fun r => decide (k < r))).orElse (fun _ => l.head?)

/-- The ring that a field serves next. -/
def State.pickRing (s : State) (f : Option Nat) : Option Nat :=
  let ready := (s.ringsOf f).filter s.ringReady
  let prio := ready.foldl (fun m r => max m (s.ring r).ctx.prio) 0
  match f with
  | none => ready.head?
  | some k => nextAfter (Tbl.find s.cmd.served (4 * k + prio)) (ready.filter (fun r => (s.ring r).ctx.prio == prio))

/-- Issues of one field, as many as can be. -/
def State.issueField (f : Option Nat) : Nat → State → State
  | 0, s => s
  | n + 1, s =>
    match s.pickRing f with
    | none => s
    | some r =>
      let s1 := s.issueHead r
      let s2 := match f with
        | some k =>
          let key := 4 * k + (s.ring r).ctx.prio
          { s1 with cmd := { s1.cmd with served := insEntry key r s1.cmd.served } }
        | none => s1
      State.issueField f n s2
where
  /-- The table with ring r last served under a key; ring 0 never appears here. -/
  insEntry (key r : Nat) (t : Tbl Nat) : Tbl Nat := Tbl.put 0 t key r

/-- Clauses in the posted state. -/
def State.postedCount (s : State) (f : Option Nat) : Nat :=
  sumOf ((s.ringsOf f).map (fun r => ((s.ring r).clauses.filter (fun c => c.phase = Phase.posted)).length))

/-- A ring whose head waits on a conjunction has its wait timed from now on (R68). -/
def State.noteWait (s : State) (r : Nat) : State :=
  let x := s.ring r
  match x.head with
  | some c =>
    if x.state = .running ∧ !c.poison ∧ !s.waitsMet c.bits then
      (if x.waitFrom.isNone then s.setRing r { x with waitFrom := some s.time } else s)
    else if x.state = .running ∧ x.waitFrom.isSome then s.setRing r { x with waitFrom := none } else s
  | none => if x.waitFrom.isSome then s.setRing r { x with waitFrom := none } else s

/-- Every ring issues what it can: ring 0, then the fields in the order of their numbers. -/
def State.issueAll (s : State) : State :=
  let s1 := State.issueField none (s.postedCount none) s
  let s2 := (Tbl.keys s1.fields).foldl (fun t k => State.issueField (some k) (t.postedCount (some k)) t) s1
  (Tbl.keys s2.rings).foldl State.noteWait s2

/-! ### Ring states (R77) -/

def State.settleRing (s : State) (r : Nat) : State := s.modRing r RingSt.settle

end Sys2Proof.Machine
end

