-- ==== Sys2Proof/Machine/Depend.lean ====
section
/-! DEFINITION. What depends on storage that the host wrote while a clause was outstanding over it (02 R70, 05 R159):
those elements are unspecified, and nothing else. -/

namespace Sys2Proof.Machine

/-- The logical elements of a noun at its storage positions from `first` on. -/
def Noun.elementsAt (n : Noun) (first count : Nat) : List Nat := (List.range count).filterMap (fun i => n.indexOf (first + i))

/-- Element e of an output of the chain depends on element x of one of its inputs (R132, R138). -/
def chainDepends (ops : List ChainOp) (shape n : Noun) (x e : Nat) : Bool :=
  let width := shape.dim 0
  let reduces := ops.any (fun o => isReduction o.op)
  if (dimDiffers shape n).isNone then e == x || (reduces && e / width == x / width)
  else n.count == 1 || reduces || e % width == x

/-- Element e of the output in slot w depends on element x of the noun in slot i. An output depends on its own element. -/
def dependsOn (c : ClauseSt) (w i x e : Nat) : Bool :=
  let v := clVerb c.bits
  if i = w then e == x
  else if v = verbMatrix then
    let width := if mxTransB c.bits then (c.noun 1).dim 1 else (c.noun 1).dim 0
    if i = 0 then e / width == x / (c.noun 0).dim 0
    else e % width == (if mxTransB c.bits then x / (c.noun 1).dim 0 else x % width)
  else if v = verbNearBank then i == 1 || e == x / (c.noun 0).dim 0
  else if v = verbCopy then e == x
  else if v = verbChain then
    let ops := chainOps c.entry
    chainDepends ops (c.noun (((List.range 4).find? (chainWrites ops)).getD 0)) (c.noun i) x e
  else true

/-- Elements of a noun become free, with the scales of their blocks; poison stays (log 7). -/
def State.undefineElems (s : State) (n : Noun) (hit : Nat → Bool) : State :=
  let old := s.loadTensor n
  let blockHit (b : Nat) : Bool := (List.range 32).any (fun k => decide (32 * b + k < n.count) && hit (32 * b + k))
  let on (e : Nat) : Bool := if isMx n.format then blockHit (e / 32) else hit e
  let new (p : Elem × Nat) : Option Elem :=
    if on p.2 then some { p.1 with
      code := (Config.freeValue (s.freeIdx + p.2)).toNat % 2 ^ formatBits n.format
      scale := (Config.freeValue (s.freeIdx + n.count + p.2 / 32)).toNat % 256 }
    else none
  { s.storeTensor n ((old.zipIdx).map new) with freeIdx := s.freeIdx + 2 * n.count }

/-- The elements of a clause's outputs that depend on what the host wrote into its storage are free (R70, R159). -/
def State.undefineDependent (s : State) (r : Nat) (c : ClauseSt) : State :=
  let mine := s.tainted.filter (fun x => x.ring == r && x.index == c.index)
  if mine.isEmpty then s
  else
    let touched := mine.flatMap (fun x => ((c.noun x.slot).elementsAt x.first x.count).map (fun e => (x.slot, e)))
    c.nouns.foldl (fun t e =>
      if clWrites c.bits e.1 ∧ e.2.layout ≠ 3 then t.undefineElems e.2 (fun k => touched.any (fun x => dependsOn c e.1 x.1 x.2 k)) else t) s

end Sys2Proof.Machine
end

