-- ==== Sys2Proof/Machine/Front.lean ====
section
/-! DEFINITION. The command front end: doorbells, fetching, starting, shares, completion, waits, and ring control (02
R42 to R80, 04 R116, 11 R386, R387, 17 R548, R549). -/

namespace Sys2Proof.Machine

/-! ### Doorbells (R45 to R47, R462) -/

/-- Open rings whose producer index lies on a line. -/
def State.ringsOnLine (s : State) (line : Nat) : List Nat :=
  s.rings.filterMap (fun e => if e.2.isOpen ∧ e.2.ctx.dbLine = line then some e.1 else none)

/-- A line's read has returned: consecutive poisoned reads are counted, and a clean one is compared slot by slot. -/
def State.readLine (s : State) (line : Nat) (rd : LineRead) : State :=
  let upd (w : WatchLine) : WatchLine :=
    if w.line = line then { w with shared := true, poisoned := if rd.poison then w.poisoned + 1 else 0 } else w
  let old := match (s.cmd.watch ++ s.cmd.polled).find? (fun w => w.line == line) with
    | some w => w.poisoned
    | none => 0
  let c := { s.cmd with watch := s.cmd.watch.map upd, polled := s.cmd.polled.map upd, reading := delSet line s.cmd.reading }
  let s1 := { s with cmd := c }
  if rd.poison then
    let s2 := s1.ctrAdd 0x1100020 1   -- ERR_DOORBELL_POISON
    if old + 1 = 3 then
      (s2.ringsOnLine line).foldl (fun t r =>
        if (t.ring r).isStopped then t else t.stopUnfetched r (failNone stPoisonConsumed 0)) s2
    else s2
  else
    let s2 := s1.hostWrite line (wordsToBytes (rd.slots.take 16))
    (s2.ringsOnLine line).foldl (fun t r => t.seeProducer r (rd.slots.getD (t.ring r).ctx.dbSlot 0).toNat) s2

/-- SNOOP_INVALIDATE: a watched line is given up; its re-read may return at once (R45). -/
def execSnoopInvalidate (line : Nat) (reread : Option LineRead) (s : State) : Answer :=
  if s.cmd.watch.any (fun w => w.line == line) then
    let s1 := { s with cmd := { s.cmd with watch := s.cmd.watch.map (fun w => if w.line = line then { w with shared := false } else w) } }
    match reread with
    | some rd => .next (s1.readLine line rd)
    | none => .next s1
  else .next s

/-- DOORBELL_REREAD: the re-read of a line given up, or a poll's read, returns (R45 to R47). -/
def execDoorbellReread (line : Nat) (read : LineRead) (s : State) : Answer :=
  if s.cmd.watch.any (fun w => w.line == line && !w.shared) || s.cmd.reading.contains line then .next (s.readLine line read)
  else .next s

/-- POLL_TIMER: every polled line is read (R46). -/
def execPollTimer (s : State) : Answer :=
  .next { s with cmd := { s.cmd with reading := s.cmd.polled.foldl (fun l w => insSet w.line l) s.cmd.reading } }

/-! ### Fetching (R48, R62) -/

/-- A fetched clause as the ring holds it. -/
def newClause (index sentence : Nat) (c : FetchedClause) : ClauseSt :=
  { index := index, bits := c.bits, poison := c.poison, phase := .posted, sentence := sentence, nouns := [], entry := 0
    shares := [], unsent := [], worked := false, verdict := none, nonFinite := 0, saturated := 0, detail := 0
    target := none, passes := none, begun := false, vaults := [], merged := [], seqs := [], order := 0, cores := [], startedAt := 0 }

/-- The ring takes a fetched clause at its fetch index; a sentence ends at SENT_END, at its 64th clause, and at a fence
(R62, R69). Of a clause fetched poisoned the spec does not say whether it ends its sentence: DESIGN CHOICE (log 51) takes
SENT_END and VERB from its bytes as fetched. -/
def RingSt.takeClause (x : RingSt) (c : FetchedClause) : RingSt :=
  let ends := clSentEnd c.bits || x.sentLen + 1 == 64 || clVerb c.bits == verbFence
  { x with
    clauses := x.clauses ++ [newClause x.fetched x.sentence c]
    fetched := (x.fetched + 1) % 2 ^ 32
    sentence := if ends then x.sentence + 1 else x.sentence
    sentLen := if ends then 0 else x.sentLen + 1 }

/-- Clauses that one read may fetch. -/
def RingSt.fetchRoom (x : RingSt) : Nat :=
  let unissued := (x.clauses.filter (fun c => c.phase = Phase.posted)).length
  min (min 16 (indexDiff x.produced x.fetched)) (min (x.size - x.fetched % x.size) (32 - unissued))

/-- The ring fetches: open, not STOPPED, not closing (R77, R79). -/
def RingSt.mayFetch (x : RingSt) : Bool := x.isOpen && !x.isStopped && !x.closing

/-- FETCH_COMPLETE: the clauses join the ring, FETCH_WB takes the new fetch index, and the field issues (R48, R62). -/
def execFetchComplete (ring : Nat) (clauses : List FetchedClause) (s : State) : Answer :=
  let x := s.ring ring
  let got := clauses.take x.fetchRoom
  if !x.mayFetch || got.isEmpty then .next s
  else
    let y := got.foldl RingSt.takeClause x
    .next (((s.setRing ring y.settle).writeFetchWb ring y.fetched).issueAll)

/-! ### Starting (R61, R62, R218, R504) -/

/-- The clause must wait, as a fence does, for every earlier clause of its ring (R69, R381, R385). -/
def actsAlone (r : Nat) (c : BitVec 512) : Bool :=
  clVerb c == verbFence || clVerb c == verbConfigure || (clVerb c == verbLoadKernel && r ≠ 0)

/-- Two clauses use a noun, either with write access (R62). -/
def hazard (a b : BitVec 512) : Bool :=
  (List.range 4).any (fun i => (clOperand a i).acc ≠ 0 && (List.range 4).any (fun j =>
    (clOperand b j).acc ≠ 0 && (clOperand a i).noun == (clOperand b j).noun && (clWrites a i || clWrites b j)))

/-- Verbs that a link row of an epoch holds at start (R504). -/
def crossDevice (c : BitVec 512) : Bool :=
  needsGroup (clVerb c) || (clVerb c == verbUpdate && upFunction c == 0 && decNormCheck c)
/-- An epoch in progress changes a link row. -/
def State.linkEpoch (s : State) : Bool := s.epoch.active && s.epoch.rows.any (fun r => decide (6 ≤ r))

/-- The KVM can pin the clause's sequence entries (R218). -/
def State.pinRoom (s : State) (c : ClauseSt) : Bool :=
  !isKvVerb (clVerb c.bits)
    || decide (((s.seqWords (c.noun (seqSlot c.bits))).foldl (fun l w => insSet w.1 l) s.pinned).length ≤ 16384)

/-- An issued clause may start. -/
def State.mayStart (s : State) (r : Nat) (c : ClauseSt) : Bool :=
  let before := (s.ring r).clauses.takeWhile (fun x => decide (x.index ≠ c.index))
  c.phase = .issued && decide (s.glb.rstState = 0)
    && before.all (fun x => x.sentence == c.sentence)
    && before.all (fun x => !(x.outstanding && hazard x.bits c.bits))
    && !(actsAlone r c.bits && before.any ClauseSt.outstanding)
    && !(s.linkEpoch && crossDevice c.bits)
    && s.pinRoom c
    -- shares of one ring reach a core in slot order (R116)
    && !(sharedVerb (clVerb c.bits) && before.any (fun x => x.phase = .issued && sharedVerb (clVerb x.bits)))

/-- Cores that take part in a clause: those of the field that are not mapped out (R73, R75). -/
def State.clauseCores (s : State) (r : Nat) (c : BitVec 512) : List Nat :=
  if r = 0 || !sharedVerb (clVerb c) then []
  else match s.fieldOf (s.ring r).field with
    | some f => f.cores.filter (fun n => !(s.core n).mappedOut)
    | none => []

/-- Cores to which a starting clause sends shares: for a decode those of its segments (R116, R235). -/
def State.startCores (s : State) (cores : List Nat) (r : Nat) (c : ClauseSt) : List Nat :=
  if clVerb c.bits = verbDecode ∧ cores ≠ [] then
    (decodeCores cores (s.decodeReads r c) ((c.noun 0).dim 1)).filter cores.contains
  else cores

/-- A cluster's cores in ascending order of their Erg forecast peak, ties by ascending n (R449). -/
def State.byPeak (s : State) (cores : List Nat) : List Nat :=
  let peak (n : Nat) : Int := Tbl.get 0 s.thm.peaks (512 + n)
  cores.mergeSort (fun a b => decide (peak a < peak b) || (peak a == peak b && decide (a ≤ b)))
/-- The cores as rotation gives them the shares: within each cluster the j-th share goes to the j-th core by peak (R449). -/
def State.rotated (s : State) (cores : List Nat) : List Nat :=
  cores.map (fun n =>
    let own := cores.filter (fun m => playaDomain m == playaDomain n)
    (s.byPeak own).getD (own.idxOf n) n)
/-- A clause's cores in the order of its shares: the standard kernel's, or rotated for a ROTATABLE clause. -/
def State.shareOrder (s : State) (r : Nat) (c : BitVec 512) : List Nat :=
  if clRotatable c then s.rotated (s.clauseCores r c) else s.clauseCores r c

/-- CLAUSE_START: the clause starts, and its shares go to the cores; one that needs a loaded stage on a core mapped out
since its issue fails; a ROTATABLE clause that rotation remaps is counted; a key-value clause reads its SEQ words, which
may lie in host memory, and a decode its sequences (R62, R75, R78, R116, R226, R229, R235, R449, R453). -/
def execClauseStart (ring : Nat) (start : ClauseRead) (s : State) : Answer :=
  match (s.ring ring).clauseAt start.slot with
  | some c =>
    let u := if isKvVerb (clVerb c.bits) then s.seeHost start.host else s
    if u.mayStart ring c then
      match u.checkStages ring (u.ring ring).field c.bits with
      | some f => .next (u.failClause ring c.index f).issueAll
      | none =>
        let s0 := if isKvVerb (clVerb c.bits) then u.startKv ring c else u
        let all := s0.shareOrder ring c.bits
        let cores := s0.startCores all ring c
        let s1 := if all ≠ s0.clauseCores ring c.bits then s0.ctrAdd 0x1003028 1 else s0
        let s2 := s1.modRing ring (fun R => R.modClause c.index (fun x => { x with phase := .started, cores := all, startedAt := s.time }))
        .next (cores.foldl (fun t n => t.sendShare ring c.index n) s2)
    else .next u
  | none => .next s

/-! ### Shares (R116, R114, R140 to R142) -/

/-- CORE_ counter of a core (R125). -/
def coreCtr (n off : Nat) : Nat := 0x300000 + 0x1000 * n + off
/-- ARR_ counter of an array. -/
def arrCtr (core array off : Nat) : Nat := 0x400000 + 0x1000 * core + 0x100 * array + off

/-- `ARR_STATE.BANK` after n more passes: each pass fills the other bank, the first of all bank 0 (R85, R87). -/
def bankAfter (bank : Bool) (first : Bool) (n : Nat) : Bool :=
  if n = 0 then bank else if first then n % 2 = 0 else bank != (n % 2 = 1)
def CoreSt.passBanks (k : CoreSt) (first0 first1 : Bool) (n0 n1 : Nat) : CoreSt :=
  { k with array0 := { k.array0 with bank := bankAfter k.array0.bank first0 n0 }
           array1 := { k.array1 with bank := bankAfter k.array1.bank first1 n1 } }

/-- The activity of a share on the arrays: the one array it uses, or the larger part of its passes, is the array that
the core's previous one-array share left idle (R448). -/
def placeActivity (a : ShareActivity) (k : CoreSt) : ShareActivity :=
  let p := a.passes.getD 0 0
  let q := a.passes.getD 1 0
  let turn (l : List Nat) : List Nat := [l.getD 1 0, l.getD 0 0]
  if p = q ∨ (decide (p < q)) = (k.lastArray == 0) then a
  else { a with adv := turn a.adv, holdFeed := turn a.holdFeed, holdDrain := turn a.holdDrain, passes := turn a.passes }
/-- The core after a share: a one-array share leaves the other array idle. -/
def CoreSt.lastUsed (k : CoreSt) (a : ShareActivity) : CoreSt :=
  if (a.passes.getD 0 0 = 0) = (a.passes.getD 1 0 = 0) then k else { k with lastArray := 1 - k.lastArray }

/-- The activity of a parenthetical share: it uses no array on which the main context has a pass in progress or an
undrained bank, and its passes are those of the other one (R121). -/
def lendActivity (held : List Nat) (a : ShareActivity) : ShareActivity :=
  let lend (l : List Nat) : List Nat :=
    let n := l.getD 0 0 + l.getD 1 0
    if held.contains 0 then [0, n] else if held.contains 1 then [n, 0] else l
  { a with adv := lend a.adv, holdFeed := lend a.holdFeed, holdDrain := lend a.holdDrain, passes := lend a.passes }

/-- The passes that the last share of a clause completes are those that no other share has counted. -/
def restPasses (a : ShareActivity) (n : Nat) : ShareActivity :=
  { a with passes := if a.passes.getD 1 0 = 0 then [n, 0] else [n - min n (a.passes.getD 1 0), min n (a.passes.getD 1 0)] }

/-- The activity of a share on the arrays of its core. Where the clause's work ties the passes of its shares, a share
counts no more than are left, and the last one all of them; a share without a pass does nothing on the arrays. -/
def State.shareActivity (s : State) (core : Nat) (paren final : Bool) (c : ClauseSt) (act : ShareActivity) : ShareActivity :=
  let k := s.core core
  let a := match c.passes with
    | some n => if final ∨ n < act.passes.getD 0 0 + act.passes.getD 1 0 then restPasses act n else act
    | none => act
  let b := if paren then lendActivity k.mainHeld a else placeActivity a k
  if c.passes = some 0 then { b with adv := [], holdFeed := [], holdDrain := [], passes := [] } else b

/-- What an array shows of the share's clause once the share has run passes on it (R115). -/
def ArraySt.showClause (a : ArraySt) (c : ClauseSt) (poison : Bool) : ArraySt :=
  let v := clVerb c.bits
  { a with mode := BitVec.ofNat 2 (if v = verbMatrix then matrixMode (mxShape c.bits) ((c.noun 0).dim 1) else 0)
           fmtA := BitVec.ofNat 8 (if v = verbMatrix then (c.noun 0).format else 1)
           fmtB := BitVec.ofNat 8 (if v = verbMatrix then (c.noun 1).format else if v = verbAttnFwd then (c.noun 1).format else (c.noun 2).format)
           poison := poison, accum := v == verbMatrix && clAccum c.bits, sr := (clConv c.bits).sr }

/-- The arrays after a share: those on which it ran passes show its clause, and the passes of the main context turn their
banks. A lent array keeps one bank free, and its bank stands (R87, R115, R121). -/
def CoreSt.afterShare (k : CoreSt) (c : ClauseSt) (paren first0 first1 : Bool) (a : ShareActivity) : CoreSt :=
  let n0 := a.passes.getD 0 0
  let n1 := a.passes.getD 1 0
  let bad (i : Nat) : Bool := c.verdict.any (fun f => f.status == stPoisonConsumed) && a.poisoned.getD i false
  let x := if paren then k else (k.passBanks first0 first1 n0 n1).lastUsed a
  { x with array0 := if n0 = 0 then x.array0 else x.array0.showClause c (bad 0)
           array1 := if n1 = 0 then x.array1 else x.array1.showClause c (bad 1) }

/-- Words of a context's vector register file: 24 KiB (R126). -/
def vectorWords : Nat := 6144
/-- Word i of the vector register file of a core's context. The spec states none of its contents: they are free values,
drawn afresh by each share that has run (R126; log 7). -/
def State.vectorWord (s : State) (core : Nat) (paren : Bool) (i : Nat) : Word32 :=
  (Config.freeValue ((if paren then (s.core core).vecParen else (s.core core).vecMain) + i)).setWidth 32
/-- A share has used the register file of its context. -/
def State.useVectors (s : State) (core : Nat) (paren : Bool) : State :=
  let t := s.modCore core (fun k => if paren then { k with vecParen := s.freeIdx } else { k with vecMain := s.freeIdx })
  { t with freeIdx := s.freeIdx + vectorWords }

/-- A share's counts go to its core's counters, its arrays show its clause, and its register file holds its values (R114,
R115, R118, R125, R126, R142). -/
def State.countShare (s : State) (core : Nat) (paren final : Bool) (c : ClauseSt) (act : ShareActivity) (nonFinite saturated : Nat) : State :=
  let a := s.shareActivity core paren final c act
  let first (k : Nat) : Bool := s.ctrGet (arrCtr core k 0x18) == 0
  let s1 := (List.range 2).foldl (fun t k =>
    (((t.ctrAdd (arrCtr core k 0x00) (a.adv.getD k 0)).ctrAdd (arrCtr core k 0x08) (a.holdFeed.getD k 0)).ctrAdd
      (arrCtr core k 0x10) (a.holdDrain.getD k 0)).ctrAdd (arrCtr core k 0x18) (a.passes.getD k 0))
    (s.modCore core (fun x => x.afterShare c paren (first 0) (first 1) a))
  let s2 := (s1.ctrAdd (coreCtr core 0x20) a.imemCe).ctrAdd (coreCtr core 0x08) (if paren then a.admitted else 0)
  ((s2.ctrAdd (vecCtr core paren 0x00) a.vecIssue).countElems core paren nonFinite saturated).useVectors core paren

/-- A half after an uncorrectable word: the standard kernel is written again, at once or when the kernel store has been
refilled; a loaded image is invalid. -/
def imemLost (storeOk : Bool) (i : Image) : Image :=
  match i with
  | .standard => if storeOk then .standard else .empty
  | .loaded _ => .invalid
  | .empty => .empty
  | .invalid => .invalid

/-- An uncorrectable instruction word: the running share stops and its clause fails; the half is reloaded from the kernel
store, unless that finds an uncorrectable word in turn, or marked invalid (R117, R118). -/
def State.strikeImem (s : State) (core : Nat) (paren storeBad : Bool) : State :=
  let c := s.core core
  match (if paren then c.qParen else c.qMain) with
  | [] => s
  | (r, index) :: _ =>
    if !s.coreRuns core paren then s
    else
      let s0 := if storeBad && (if paren then c.imgParen else c.imgMain) == .standard then s.storeLost else s
      let s1 := s0.modCore core (fun x =>
        if paren then { x with imgParen := imemLost s0.glb.kstoreOk x.imgParen }
        else { x with imgMain := imemLost s0.glb.kstoreOk x.imgMain })
      let s2 := s1.event .imem (some 0xE) 1 core (some (s.ring r).field) stImemUncorrectable [BitVec.ofNat 64 core]
      (s2.failClause r index (failNone stImemUncorrectable 0)).issueAll

/-- An armed slot with function 10 on a core's half: its index, and its word with no bit, one bit or more bits wrong. The
share that runs fetches the word (R477; log 69). -/
def State.imemSlot (s : State) (core : Nat) (paren : Bool) : Option (Nat × DbgSlot) :=
  s.armedSlot 10 core (· == flag paren)
/-- The syndrome that a slot's MASK leaves in a word. -/
def DbgSlot.syndrome (x : DbgSlot) : Nat := Nat.xor (x.mask.toNat / 2 ^ 32 % 2 ^ 7) (wordCheck (x.mask.toNat % 2 ^ 32))

/-- A share ends: its counts are taken, its contribution to the non-finite flag is raised, and the next share goes to its
core. -/
def State.finishShare (s : State) (ring core : Nat) (c : ClauseSt) (act : ShareActivity) : State :=
  let paren := (s.ring ring).ctx.paren
  let final := c.shares == [core] && c.unsent.isEmpty
  let nf := if final then c.nonFinite else min act.nonFinite c.nonFinite
  let sat := if final then c.saturated else min act.saturated c.saturated
  let s1 := s.countShare core paren final c act nf sat
  let ran := (s.shareActivity core paren final c act).passes
  let left := c.passes.map (fun n => n - (ran.getD 0 0 + ran.getD 1 0))
  let s2 := if nf = 0 then s1 else s1.raiseNf ring
  let s3 := s2.modRing ring (fun R => R.modClause c.index (fun y =>
    { y with shares := delSet core y.shares, passes := left, nonFinite := y.nonFinite - nf, saturated := y.saturated - sat }))
  let s4 := s3.modCore core (fun k => ({ k with
    qMain := if paren then k.qMain else k.qMain.filter (fun q => decide (q ≠ (ring, c.index)))
    qParen := if paren then k.qParen.filter (fun q => decide (q ≠ (ring, c.index))) else k.qParen } : CoreSt).settleRun)
  (s4.sendNext core paren).settleClause ring c.index

/-- SHARE_FINISH: a share's writes are visible; its counts are taken, its contribution to the non-finite flag is raised,
and the next share goes to its core. While the control mesh holds the core's messages its completion does not arrive (R116,
R140 to R142, R253). A word that an armed slot has inverted is met on the way (R118, R477). -/
def execShareFinish (ring slot core : Nat) (act : ShareActivity) (s : State) : Answer :=
  let x := s.ring ring
  match x.clauseAt slot with
  | some c =>
    let paren := x.ctx.paren
    if c.phase = .started ∧ c.worked ∧ c.shares.contains core ∧ s.runsShare core paren ring c.index ∧ s.controlHeld core = false then
      match s.imemSlot core paren with
      | none => .next (s.finishShare ring core c act)
      | some (i, x) =>
        let t := s.useSlot i x
        if x.syndrome = 0 then .next (t.finishShare ring core c act)
        else if (wordFix x.syndrome).isSome then .next ((t.ctrAdd (coreCtr core 0x20) 1).finishShare ring core c act)
        else .next (t.strikeImem core paren false)
    else .next s
  | none => .next s

/-! ### Completion (R64, R66, R71) -/

/-- Completion order allows the clause to complete (R64). -/
def RingSt.inOrder (x : RingSt) (c : ClauseSt) : Bool :=
  clUnord c.bits || (x.clauses.takeWhile (fun y => decide (y.index ≠ c.index))).all (fun y => !y.outstanding || clUnord y.bits)

/-- The signals of a clause are applied (R65, R66). -/
def State.applySignals (s : State) (c : BitVec 512) : State :=
  (List.range 2).foldl (fun t i =>
    let g := clSignal c i
    if g.1 then { t with conj := Tbl.put 0 t.conj g.2.1 (Tbl.get 0 t.conj g.2.1 + BitVec.ofNat 64 g.2.2) } else t) s

/-- A clause that is done completes: its writes are visible, its signals applied, its record written (R66). The elements
that depend on storage which the host wrote meanwhile are free (R70). -/
def State.completeClause (s : State) (r : Nat) (c : ClauseSt) : State :=
  let s0 := s.undefineDependent r c
  let s1 := ((s0.commitAppends r c.index).releaseWork r c.index).drainAllDeferred.serveAllFree
  let s2 := s1.applySignals c.bits
  let s3 := if clQuiet c.bits then s2
    else s2.writeRecord r ((s2.ring r).slotOf c.index) (clTag c.bits) (failNone 0 c.detail) (clIrq c.bits)
  ((s3.modRing r (fun R => (R.dropClause c.index).settle)).tryClose r).issueAll

/-- CLAUSE_COMPLETE (R64, R66). -/
def execClauseComplete (ring slot : Nat) (s : State) : Answer :=
  let x := s.ring ring
  match x.clauseAt slot with
  | some c => if c.phase = .done ∧ x.inOrder c then .next (s.completeClause ring c) else .next s
  | none => .next s

/-! ### Interrupt hold-off and wait timeout (R56, R68, R549) -/

/-- MSIX_HOLDOFF_EXPIRY: the hold-off ends; events that arrived in it raise one interrupt (R56). -/
def execMsixHoldoffExpiry (vector : Nat) (s : State) : Answer :=
  match Tbl.find s.cmd.hold vector with
  | some late =>
    let s1 := { s with cmd := { s.cmd with hold := Tbl.drop s.cmd.hold vector } }
    .next (if late then s1.raiseMsix vector else s1)
  | none => .next s

/-- The wait of a ring's head fails (R68, R389). -/
def State.failWait (s : State) (r : Nat) : State :=
  match (s.ring r).head with
  | some c => s.failClause r c.index (failNone stWaitTimeout (if s.waitMet (clWait c.bits 0) then 1 else 0))
  | none => s

/-- WAIT_TIMEOUT: the head clause has waited for CMD_WAIT_TIMEOUT; a value of 0 disables it, and PAUSED time does not
count (R68, R502). -/
def execWaitTimeout (ring : Nat) (s : State) : Answer :=
  let x := s.ring ring
  if x.state = .running ∧ x.waitFrom.isSome ∧ s.cmd.waitTimeout ≠ 0 ∧ !s.halted then .next (s.failWait ring) else .next s

/-- WAIT_TIMEOUT_WRITE: the timeout changes, and waits that have run longer fail (R549). -/
def execWaitTimeoutWrite (value : Word32) (s : State) : Answer :=
  let v := value.toNat % 2 ^ 14
  let s1 := { s with cmd := { s.cmd with waitTimeout := BitVec.ofNat 14 v } }
  .next ((Tbl.keys s.rings).foldl (fun t r =>
    let x := t.ring r
    match x.waitFrom with
    | some w => if x.state = .running ∧ v ≠ 0 ∧ 1000000 * min v 10000 < (t.time - w).toNat then t.failWait r else t
    | none => t) s1)

/-! ### Fences (R69, R79, R387) -/

/-- The started fence of a slot with a function. -/
def State.startedFence (s : State) (r k fn : Nat) : Option ClauseSt :=
  match s.startedClause r k verbFence with
  | some c => if fenceFunction c.bits = fn then some c else none
  | none => none

/-- FENCE: order only (R69). -/
def execFence (ring slot : Nat) (s : State) : Answer :=
  match s.startedFence ring slot 0 with
  | some c => .next (s.workDone ring c.index (fun x => x))
  | none => .next s

/-- FENCE_SET: the counter takes VALUE (R387). -/
def execFenceSet (ring slot : Nat) (s : State) : Answer :=
  match s.startedFence ring slot 1 with
  | some c =>
    let s1 := { s with conj := Tbl.put 0 s.conj (fenceTarget c.bits) (BitVec.ofNat 64 (fenceValue c.bits)) }
    .next ((s1.workDone ring c.index (fun x => x)).issueAll)
  | none => .next s

/-- Ring control needs its target in a state that the function allows (R79, R387). -/
def State.controlFence (s : State) (slot fn : Nat) (ok : RingSt → Bool) (act : Nat → State → State) : Answer :=
  match s.startedFence 0 slot fn with
  | none => .next s
  | some c =>
    let t := fenceTarget c.bits
    if ok (s.ring t) then .next (((act t s).workDone 0 c.index (fun x => x)).issueAll)
    else .next (s.failClause 0 c.index (failNone stRingState 0))

/-- A STOPPED ring runs on: R47's check is made on the latest value read, and `f` is what the function does first. The
spec leaves open whether a SKIP whose value fails the check has passed over the stop slot: DESIGN CHOICE (log 51), it has,
and the ring then stops at its fetch index. -/
def State.restart (s : State) (t : Nat) (f : State → State) : State :=
  let x := s.ring t
  let s1 := f (if x.producerOk x.seen then s.setRing t { x with produced := x.seen } else s)
  if x.producerOk x.seen then
    (s1.modRing t (fun (R : RingSt) => ({ R.become .running with skipped := false, stopAt := 0 } : RingSt).settle)).pauseDrained t
  else s1.stopUnfetched t (failNone stDoorbellInvalid 0)

/-- RESUME (R79). -/
def execResume (slot : Nat) (s : State) : Answer := s.controlFence slot 2 RingSt.isStopped (fun t u => u.restart t (fun v => v))

/-- The stop slot is left without effect: a clause held, or the next one to be fetched. -/
def State.skipSlot (s : State) (t : Nat) : State :=
  let x := s.ring t
  if x.skipped then
    if x.produced ≠ x.fetched then
      (s.setRing t { x with fetched := (x.fetched + 1) % 2 ^ 32 }).writeFetchWb t ((x.fetched + 1) % 2 ^ 32)
    else s
  else s.setRing t (x.dropClause x.stopAt)

/-- SKIP (R79). -/
def execSkip (slot : Nat) (s : State) : Answer :=
  s.controlFence slot 3 RingSt.isStopped (fun t u => u.restart t (fun v => v.skipSlot t))

/-- A STOPPED ring is flushed: it is IDLE as soon as none of its clauses is outstanding (R77, R79). -/
def State.flushRing (s : State) (t : Nat) : State :=
  ((s.flushPosted t).modRing t (fun (R : RingSt) => { R with flushing := true })).tryIdle t

/-- FLUSH: the fence is done once its target is IDLE (R79, R387). -/
def execFlush (slot : Nat) (host : HostView) (s : State) : Answer :=
  let u := s.seeHost host
  match u.startedFence 0 slot 4 with
  | none => .next s
  | some c =>
    let t := fenceTarget c.bits
    if (u.ring t).isStopped then
      .next ((u.modRing 0 (fun R => R.modClause c.index (fun x => { x with target := some t, begun := true }))).flushRing t).issueAll
    else .next (u.failClause 0 c.index (failNone stRingState 0)).issueAll

/-- A ring begins to close: a STOPPED one is flushed at once (R79). -/
def State.beginClose (s : State) (t : Nat) : State :=
  let s1 := if (s.ring t).isStopped then s.flushPosted t else s
  (s1.modRing t (fun (R : RingSt) => { R with closing := true })).tryClose t

/-- CLOSE: the fence is done once its target is CLOSED (R79, R387). -/
def execClose (slot : Nat) (host : HostView) (s : State) : Answer :=
  let u := s.seeHost host
  match u.startedFence 0 slot 5 with
  | none => .next s
  | some c =>
    let t := fenceTarget c.bits
    if (u.ring t).isOpen ∧ (u.ring t).closing = false then
      .next ((u.modRing 0 (fun R => R.modClause c.index (fun x => { x with target := some t, begun := true }))).beginClose t)
    else .next (u.failClause 0 c.index (failNone stRingState 0))

/-! ### Ring 0 (R40, R80, R548) -/

/-- ADMIN_ENABLE: ENABLE changes from 0 to 1; a close still under way makes it wait (R548). -/
def execAdminEnable (host : HostView) (s : State) : Answer :=
  let u := s.seeHost host
  if u.cmd.adminEnable then .next u
  else
    let v := { u with cmd := { u.cmd with adminEnable := true } }
    if (v.ring 0).isOpen then .next { v with cmd := { v.cmd with enableWaits := true } }
    else .next v.openAdmin

/-- The producer index read at this moment, when it passes R47's check (R80, R493). -/
def State.readProducer (s : State) (r : Nat) : State :=
  let x := s.ring r
  let v := leNat (s.hostRead (x.ctx.dbLine + 4 * x.ctx.dbSlot) 4)
  if x.producerOk v then s.setRing r { x with seen := v, produced := v } else s.setRing r { x with seen := v }

/-- ADMIN_DISABLE: ring 0 closes (R80, R548). -/
def execAdminDisable (host : HostView) (s : State) : Answer :=
  let u := s.seeHost host
  let v := { u with cmd := { u.cmd with adminEnable := false, enableWaits := false, r0State := if u.cmd.r0State = 3 then 0 else u.cmd.r0State } }
  if (v.ring 0).isOpen then .next ((v.readProducer 0).beginClose 0) else .next v

end Sys2Proof.Machine
end

