-- ==== Sys2Proof/Machine/Pause.lean ====
section
/-! DEFINITION. Rings PAUSED for a live change, and the end of a configuration epoch (02 R77; 15 R502, R505, R506). -/

namespace Sys2Proof.Machine

/-! ### PAUSED (R77, R502) -/

/-- A PAUSED ring returns to the state it would hold without the pause. -/
def RingSt.unpause (x : RingSt) (now : Word64) : RingSt :=
  if x.state = .paused then ({ x with state := x.before, waitFrom := x.waitFrom.map (fun w => now - w) } : RingSt).settle else x

/-- The rings of some fields are paused. -/
def State.pauseFields (s : State) (fids : List Nat) : State :=
  (Tbl.keys s.rings).foldl (fun t r =>
    if r ≠ 0 ∧ (t.ring r).isOpen ∧ fids.contains (t.ring r).field then t.modRing r (fun x => x.pause t.time) else t) s

/-- Every PAUSED ring goes on. -/
def State.resumeRings (s : State) : State :=
  (Tbl.keys s.rings).foldl (fun t r => t.modRing r (fun x => x.unpause t.time)) s

/-! ### The end of an epoch (R506) -/

/-- No epoch in progress; the generation and the inputs of object 1 stand. -/
def Epoch.over (e : Epoch) : Epoch := { Epoch.idle with wave := { e.wave with own := none, released := none } }

/-- `GLB_EPOCH_STATUS` is written, and the vector raised when IRQ_EN is set. -/
def State.writeEpochStatus (s : State) (number : Word32) (result : Nat) (missed : Bool) (rej : BitVec 11) : State :=
  let s1 := { s with glb := { s.glb with
    lastNumber := number, epState := 0, epResult := BitVec.ofNat 3 result, epMissed := missed, epRej := rej } }
  if s1.glb.epIrqEn then s1.raiseMsix s1.glb.epVector.toNat else s1

/-- An epoch ends: its rings leave PAUSED, its status is written, and what it held goes on (R501, R502, R506). -/
def State.endEpoch (s : State) (result : Nat) (missed : Bool) : State :=
  let e := s.epoch
  let s1 := ({ s with epoch := e.over }).resumeRings
  (s1.writeEpochStatus e.number result missed e.rej).issueAll.pumpAll

/-- RESULT of an epoch that applied its rows. -/
def State.appliedResult (s : State) : Nat := if s.epoch.rej = 0 then 1 else 2

/-- A chain epoch in progress whose commit wave has not reached this device: the parent port goes down and the epoch is
aborted (R505). -/
def State.epochParentDown (s : State) : State :=
  if s.epoch.active ∧ s.epoch.chain ∧ !s.epoch.waiting ∧ s.epoch.wave.released.isNone then
    (s.event .epochParentLost none 0 0 none 0 [s.epoch.number.setWidth 64]).endEpoch 4 true
  else s

end Sys2Proof.Machine
end

