-- ==== Sys2Proof/Machine/Caravan.lean ====
section
/-! DEFINITION. Caravan ports at run time: frames received, retry, lanes, port failure, the identity exchange, time
waves (09 R275 to R317). -/

namespace Sys2Proof.Machine

/-! ### Registers of a port (R314) -/

/-- STATE: a port that returns to eight lanes reads as training (R291, R314). -/
def portState (x : PortSt) : Nat := if x.laneMove && !x.half then 1 else x.state.toNat
def portStatus (x : PortSt) : Nat :=
  portState x * 2 ^ 29 + flag x.half * 2 ^ 28 + (if x.half then flag x.halfSel else 0) * 2 ^ 27 + flag x.peerResetting * 2 ^ 26
    + x.qCause.toNat * 2 ^ 23 + flag x.syncOpen * 2 ^ 20 + x.peerId.toNat
def portPeer (x : PortSt) : Nat :=
  x.peerMajor.toNat * 2 ^ 24 + x.peerMinor.toNat * 2 ^ 16 + x.runMinor.toNat * 2 ^ 8 + x.badLanes.toNat

/-- Causes of a port event, as its data give them (DESIGN CHOICE, log 15): 1 lane, 2 down, 3 quarantine. -/
def State.portEvent (s : State) (p : Nat) (kind : EventKind) (cause : Nat) : State :=
  s.event kind (some 0xB) 5 p none 0 [BitVec.ofNat 64 (portStatus (s.port p)), BitVec.ofNat 64 cause]

/-! ### A port goes down (R292 to R294) -/

/-- The port of the sync tree's parent. -/
def State.parentPort (s : State) : Option Nat := if s.applied.syncRoot then none else some s.applied.syncParent.toNat

/-- A frame that a port can no longer carry is routed again with RESENT set, from the pool that holds it (R294). -/
def State.reroute (s : State) (p pool : Nat) (f : Frame) : State :=
  let g := { f with resent := true }
  match s.routePort g.dst with
  | some q => s.enqueue q pool g
  | none => (s.discardFrame p g).freePool pool g

/-- The frames in a port's replay storage and in its queue that `pred` names take other ways (R294, R310). -/
def State.rerouteAll (s : State) (p : Nat) (x : PortSt) (pred : Frame → Bool) : State :=
  let t := (x.unacked.filter pred).foldl (fun t f => t.reroute p 12 f) s
  (x.txQueue.filter (fun q => pred q.frame)).foldl (fun t q => t.reroute p q.pool q.frame) t

/-- A port is declared down: its routes fail over, its frames of VC 0 to 4 take other ways, and a chain epoch that it
leads to is aborted (R505). -/
def State.portDown (s : State) (p : Nat) : State :=
  let x := s.port p
  if x.state = 0 then s
  else
    let s1 := s.setPort p { x with
      state := 0, syncOpen := false, laneMove := false, qCause := 0, peerResetting := false, txSeq := 0, rxSeq := 0
      gotAny := false, nakDue := false, unacked := [], resends := 0, freed := [], sent := [], peerFreed := [], txQueue := [], told := []
      lastAck := 0, timeT1 := none }
    let s2 := s1.portEvent p .port 2
    let s3 := (s2.rerouteAll p x (fun _ => true)).pumpAll
    if s.parentPort = some p then s3.epochParentDown else s3

/-- A port that becomes quarantined carries VC 0 and VC 7 alone: its other queued frames take other ways (R310). -/
def State.shunPort (s : State) (p : Nat) : State :=
  let x := s.port p
  let s1 := s.setPort p { x with txQueue := x.txQueue.filter (fun q => q.frame.vc == 0) }
  s1.rerouteAll p { x with unacked := x.unacked } (fun f => decide (f.vc ≠ 0))

/-- PORT_DOWN (R292). -/
def execPortDown (port : Nat) (s : State) : Answer := .next (s.portDown port)

/-! ### Retry (R285, R291) -/

/-- Unacknowledged frames leave again, in order: on a quarantined port those of VC 0 alone. NAK stands in the first of their
trailers, if it is due (R285, R310). -/
def State.resendAll (s : State) (p : Nat) : State :=
  let x := s.port p
  match x.unacked.filter (fun f => x.state == 2 || f.vc == 0) with
  | [] => s
  | f :: r =>
    let held := s.withheld p
    let out := (p, x.dress held f) :: r.map (fun g => (p, (x.hasTold held).dress held g))
    { s.setPort p (x.hasTold held) with io := { s.io with frames := out.reverse ++ s.io.frames } }

/-- A resend under R285: the port goes down when its oldest frame has been resent 4 times. -/
def State.replay (s : State) (p : Nat) : State :=
  let x := s.port p
  if x.unacked.isEmpty || x.laneMove then s
  else if 4 ≤ x.resends then s.portDown p
  else
    let s1 := s.setPort p { x with resends := x.resends + 1 }
    (s1.ctrAdd (lnkReplays p) x.unacked.length).resendAll p

/-- REPLAY_TIMER: frames are outstanding and ACK has not changed for 4 µs (R285). -/
def execReplayTimer (port : Nat) (s : State) : Answer :=
  if (s.port port).state.toNat < 2 then .next s else .next (s.replay port)

/-- ACK_STALL_TIMEOUT: ACK has not advanced for 12 µs with frames outstanding (R292). -/
def execAckStallTimeout (port : Nat) (s : State) : Answer :=
  if (s.port port).unacked.isEmpty then .next s else .next (s.portDown port)

/-- Frames acknowledged by a trailer leave the replay storage; a NAK resends the rest (R285). -/
def State.takeTrailer (s : State) (p : Nat) (f : Frame) : State :=
  if frameTrailerCrc f ≠ f.tcrc then s
  else
    let x := { s.port p with peerFreed := ((List.range 5).map (fun v => (v, f.cred.getD v 0 % 2 ^ 17))).filter (fun e => e.2 ≠ 0) }
    let n := match (x.unacked.zipIdx).find? (fun u => u.1.seq == f.ack) with
      | some u => if f.ackV then u.2 + 1 else 0
      | none => 0
    let s1 := if n = 0 then s.setPort p x else s.setPort p { x with unacked := x.unacked.drop n, resends := 0, lastAck := f.ack }
    if f.nak then s1.replay p else s1

/-! ### Delivery (R282, R283, R294, R306) -/

/-- VC and KIND form a pair of R282. -/
def frameKindOk (f : Frame) : Bool :=
  match f.vc with
  | 0 => f.kind == 0
  | 1 => decide (f.kind < 2)
  | 2 => f.kind == 0
  | 3 => f.kind == 0
  | 4 => decide (f.kind < 2)
  | 7 => decide (f.kind < 4)
  | _ => false

/-- The payload that R282 gives the kind. -/
def frameSizeOk (f : Frame) : Bool :=
  let n := f.payload.length
  match f.vc with
  | 1 => n == 0
  | 2 => decide (32 ≤ n) && decide (n ≤ 256)
  | 7 => if f.kind = 0 then n == 0 else if f.kind = 1 then n == 128 else n == 32
  | _ => true
/-- LEN and POISON are as R279 says, and the payload as R282 does. -/
def frameShapeOk (f : Frame) : Bool :=
  f.payload.length % 32 == 0 && decide (f.payload.length ≤ 4096) && f.poison.all (fun b => decide (b < f.payload.length / 32))
    && frameSizeOk f

/-- A frame is discarded and counted, without an event. -/
def State.countDiscard (s : State) (p : Nat) (f : Frame) : State := (s.ctrAdd (lnkDiscard p) 1).freePool p f

/-- The group and INST that a data frame names. -/
def frameInstance (f : Frame) : Nat × Nat := if f.vc = 3 then (bits f.arg 45 34, bits f.arg 47 46) else (redGroup f, redInst f)

/-- A RESENT frame is no longer wanted here (R294). -/
def State.staleResent (s : State) (f : Frame) : Bool :=
  f.resent &&
  (if f.vc = 2 then s.lnk.ctrlSeen.contains (f.src, bits f.arg 31 0)
   else if f.vc = 3 ∨ f.vc = 4 then
     let gi := frameInstance f
     !((s.collFor gi.1 gi.2).isSome || Tbl.get 0 s.lnk.instNext gi.1 == gi.2)
   else false)

/-- An accepted CTRL message's number is kept, the last 4,096 of its source. -/
def State.noteCtrl (s : State) (f : Frame) : State :=
  if f.vc = 2 then
    let mine := ((f.src, bits f.arg 31 0) :: s.lnk.ctrlSeen.filter (fun e => e.1 == f.src)).take 4096
    { s with lnk := { s.lnk with ctrlSeen := mine ++ s.lnk.ctrlSeen.filter (fun e => decide (e.1 ≠ f.src)) } }
  else s

/-- A frame for this device: data wait for the unit that takes them, MCTP goes to the management core at once; in a
compute-only reset frames of VC 2 to 4 are discarded (R306). -/
def State.deliverFrame (s : State) (p : Nat) (f : Frame) : State :=
  if f.vc = 0 then s.freePool p f
  else if (s.inReset && decide (2 ≤ f.vc)) || s.staleResent f then s.countDiscard p f
  else
    let s1 := s.noteCtrl f
    ({ s1 with lnk := { s1.lnk with inbox := s1.lnk.inbox ++ [(p, f)] } }).drainInbox

/-- A good frame is delivered, forwarded or discarded (R283, R310). -/
def State.routeFrame (s : State) (p : Nat) (f : Frame) : State :=
  if !frameKindOk f || !frameShapeOk f then s.countDiscard p f
  else if (s.port p).state = 3 ∧ f.vc ≠ 0 then s.countDiscard p f
  else if f.vc = 1 ∧ !(s.syncPort p && (s.port p).syncOpen) then s.countDiscard p f
  else if s.applied.idValid ∧ f.dst = s.applied.deviceId.toNat then s.deliverFrame p f
  else if f.hops = 0 then (if f.vc = 0 then s.deliverFrame p f else s.countDiscard p f)
  else s.forwardFrame p { f with hops := f.hops - 1 }

/-! ### Link frames (R282, R291, R307, R311) -/

/-- Running version of a firmware image: its primary copy, or the secondary (R481). -/
def runningCopy (c : Copy × Copy) : Copy := if c.1.good then c.1 else c.2

/-- This device's identity block (R307). -/
def State.identBlock (s : State) : List Byte :=
  natLe 1 Config.jcmMajor ++ natLe 1 s.glb.minor.toNat ++ natLe 2 s.applied.deviceId.toNat
    ++ natLe 4 (flag s.applied.idValid + 2 * flag s.inReset) ++ natLe 4 s.mgt.active.1
    ++ natLe 4 s.mgt.active.2.1
    ++ (s.lnk.cfgDigest ++ List.replicate (48 - s.lnk.cfgDigest.length) 0)
    ++ natLe 8 s.time.toNat ++ natLe 8 s.boot.unit.toNat ++ List.replicate 48 0
def State.sendIdent (s : State) (p : Nat) : State := s.transmitLink p 1 s.identBlock
/-- IDENT goes out on every port that has a link. -/
def State.sendIdents (s : State) : State :=
  (List.range 12).foldl (fun t p => if (t.port p).state = 0 then t else t.sendIdent p) s

/-- TIME payload (DESIGN CHOICE, log 16): t1, t2, t3 in 1/8 ns and the sender's depth. -/
def timePayload (t1 t2 t3 depth : Nat) : List Byte := natLe 8 t1 ++ natLe 8 t2 ++ natLe 8 t3 ++ natLe 8 depth

/-- |θ| or an offset is within 1 µs. -/
def withinMicro (ns : Int) : Bool := decide (ns.natAbs ≤ 1000)

/-- A half of a port that holds no failed lane in either direction: false for lanes 0 to 3. `peer` has bit 0 set where the
peer's receiver marked a lane of 0 to 3, bit 1 where it marked one of 4 to 7 (R290). -/
def goodHalf (badLanes peer : Nat) : Option Bool :=
  if badLanes % 16 = 0 ∧ !bitAt peer 0 then some false else if badLanes / 16 % 16 = 0 ∧ !bitAt peer 1 then some true else none

/-- A resolution of 1/8 ns. -/
def State.stamp (s : State) : Nat := 8 * s.time.toNat

/-- A link frame (VC 7) is never forwarded: IDENT and TIME answers wait for their rows, a child's TIME is answered, and
LANE makes this end change its lanes too, or takes the port down where the half it names has a failed lane here. LANE names
the half in byte 0 (DESIGN CHOICE, log 16). A parent opens VC 1 of a port closed for its offset once the child's time is
within 1 µs of its own (R308; log 16). A link frame of another shape is ignored. -/
def State.takeLink (s : State) (p : Nat) (f : Frame) : State :=
  if !frameShapeOk f then s
  else if f.kind = 1 ∨ (f.kind = 2 ∧ s.parentPort = some p) then { s with lnk := { s.lnk with inbox := s.lnk.inbox ++ [(p, f)] } }
  else if f.kind = 2 ∧ s.applied.syncChildren.getLsbD p then
    let t1 := leNat (f.payload.take 8)
    let near := withinMicro (((t1 : Int) - s.stamp) / 8)
    let s1 := if near then s.modPort p (fun x => { x with syncOpen := x.syncOpen || x.state == 2 }) else s
    s1.transmitLink p 2 (timePayload t1 s.stamp s.stamp s.lnk.depth.toNat)
  else if f.kind = 3 then
    let h := bitAt (leNat (f.payload.take 1)) 0
    let x := s.port p
    let peer := x.peerBad ||| (if h then 1 else 2)
    let s1 := s.setPort p { x with peerBad := peer }
    if goodHalf x.badLanes.toNat peer.toNat ≠ some h then s1.portDown p
    else s1.modPort p (fun x => { x with half := true, halfSel := h, laneMove := true })
  else s

/-! ### FRAME_RECEIVE -/

/-- Lanes in use: eight, or one half (R276). -/
def PortSt.lanes (x : PortSt) : List Nat := if x.half then (if x.halfSel then [4, 5, 6, 7] else [0, 1, 2, 3]) else List.range 8

/-- The codewords of a frame are decoded: corrected symbols are counted by lane, uncorrectable codewords by port (R276,
R277). -/
def State.decodeFec (s : State) (p : Nat) (f : Frame) : State :=
  let lanes := (s.port p).lanes
  let fixed := (f.fec.filter rsCorrects).flatMap (·.eraseDups)
  let s1 := s.modPort p (fun x => { x with
    laneCorr := fixed.foldl (fun t i => Tbl.put 0 t (symbolLane lanes i) (Tbl.get 0 t (symbolLane lanes i) + 1)) x.laneCorr })
  (s1.ctrAdd (lnkFecCorr p) fixed.length).ctrAdd (lnkFecUncorr p) ((f.fec.filter (fun c => !rsCorrects c)).length)
/-- A block of the frame is marked bad: its codeword could not be corrected (R277). -/
def badBlock (f : Frame) : Bool := f.fec.any (fun c => !rsCorrects c)

/-- Codewords that a frame's blocks lie in, each of 20 blocks of 32 bytes (R276). -/
def codewordCount (f : Frame) : Nat := ceilDiv (64 + f.payload.length) 640
/-- The frame with the symbol errors that an armed slot with function 13 inserts: in each codeword while its COUNT runs,
MAG symbols of a lane in use. Which of the lane's symbols: the first (DESIGN CHOICE, log 69) (R477). -/
def State.insertErrors (s : State) (p : Nat) (f : Frame) : Frame × State :=
  let lanes := (s.port p).lanes
  match s.armedSlot 13 p lanes.contains with
  | none => (f, s)
  | some (i, x) =>
    let words := if f.fec.isEmpty then List.replicate (codewordCount f) [] else f.fec
    let n := if x.count = 0 then words.length else min words.length x.count.toNat
    let own := ((List.range 544).filter (fun k => symbolLane lanes k == x.sub.toNat)).take (min 20 x.mag.toNat)
    ({ f with fec := (words.zipIdx).map (fun (e : List Nat × Nat) => if e.2 < n then e.1 ++ own.filter (fun k => !e.1.contains k) else e.1) },
     (List.range n).foldl (fun t _ => t.useSlot i (Tbl.get x t.dbg.slots i)) s)

/-- FRAME_RECEIVE: the codewords are decoded and the trailer is taken; a frame that fails its CRC or comes out of order is
refused with NAK; an accepted one is delivered, forwarded or discarded (R276, R277, R280 to R285, R288, R310). -/
def execFrameReceive (port : Nat) (got : Frame) (s0 : State) : Answer :=
  if (s0.port port).state = 0 then .next s0
  else
    let f := (s0.insertErrors port got).1
    let s := (s0.insertErrors port got).2
    let bad := badBlock f || decide (frameCrc f ≠ f.fcrc)
    let s1 := if f.fec.isEmpty then s else s.decodeFec port f
    if bad then
      let s2 := (s1.ctrAdd (lnkCrcFail port) 1).modPort port (fun x => { x with nakDue := true })
      .next ((if badBlock f then s2 else s2.takeTrailer port f).pumpAll).advanceColls
    else
      let s2 := s1.takeTrailer port f
      if f.vc = 7 then .next ((s2.takeLink port f).pumpAll).advanceColls
      else if (s2.port port).state.toNat < 2 then .next s2.pumpAll.advanceColls
      else if f.seq ≠ (s2.port port).rxSeq then .next ((s2.modPort port (fun x => { x with nakDue := true })).pumpAll).advanceColls
      else
        let s3 := (s2.modPort port (fun x => ({ x with rxSeq := (x.rxSeq + 1) % 4096, gotAny := true } : PortSt).take f)).ctrAdd (lnkRxFrames port) 1
        .next ((s3.routeFrame port f).pumpAll).advanceColls

/-! ### Held frames (R294, R298) -/

/-- The oldest waiting frame that `pred` names, with the output whose queue it is in: outputs in rising order. -/
def State.queuedFind (s : State) (pred : Nat → Queued → Bool) : Option (Nat × Queued) :=
  (List.range 12).findSome? (fun p => ((s.port p).txQueue.find? (pred p)).map (fun q => (p, q)))
/-- A waiting frame leaves its queue, and its pool units are free. -/
def State.unqueue (s : State) (p : Nat) (q : Queued) : State :=
  (s.modPort p (fun x => { x with txQueue := x.txQueue.erase q })).freePool q.pool q.frame

/-- RESENT_FRAME_EXPIRY: the oldest RESENT frame that this hop has held at the port, for its output or in its pool, is
discarded (R294). -/
def execResentFrameExpiry (port : Nat) (s : State) : Answer :=
  match s.queuedFind (fun p q => q.frame.resent && (p == port || q.pool == port)) with
  | some e => .next ((s.unqueue e.1 e.2).ctrAdd (lnkDiscard port) 1)
  | none => .next s

/-- POOL_WAIT_EXPIRY: the oldest frame of VC 2 to 4 that waits in the port's pool is discarded, with an event (R298). -/
def execPoolWaitExpiry (port vc : Nat) (s : State) : Answer :=
  if vc < 2 then .next s
  else
    match s.queuedFind (fun _ q => q.pool == port && q.frame.vc == vc) with
    | some e => .next ((s.unqueue e.1 e.2).discardFrame port e.2.frame).pumpAll
    | none => .next s

/-! ### Lanes (R290, R291) -/

/-- LANE_FAIL: the port drops to the half that holds no failed lane, and tells its peer; with none it goes down (R290,
R291). -/
def execLaneFail (port lane : Nat) (s : State) : Answer :=
  let x := s.port port
  let bad := x.badLanes ||| BitVec.ofNat 8 (2 ^ lane)
  let s1 := s.setPort port { x with badLanes := bad }
  if x.state.toNat < 2 then .next s1
  else
    match goodHalf bad.toNat x.peerBad.toNat with
    | none => .next (s1.portDown port)
    | some h =>
      if x.half ∧ x.halfSel = h ∧ !x.laneMove then .next s1
      else
        let s2 := s1.modPort port (fun y => { y with half := true, halfSel := h, laneMove := true })
        .next (s2.transmitLink port 3 (natLe 32 (flag h)))

/-- LANE_RETRAIN_DONE: lock is regained, unacknowledged frames leave again from ACK + 1, and IDENT is sent (R291, R307). -/
def execLaneRetrainDone (port : Nat) (s : State) : Answer :=
  if !(s.port port).laneMove then .next s
  else
    let s1 := s.modPort port (fun x => { x with laneMove := false })
    .next (((s1.resendAll port).sendIdent port).portEvent port .port 1).pumpAll

/-! ### Training and identity (R307 to R310) -/

/-- LINK_TRAINING_DONE: the port comes up on its good lanes and sends IDENT, or stays down (R307). -/
def execLinkTrainingDone (port : Nat) (ok : Bool) (s : State) : Answer :=
  let x := s.port port
  if 2 ≤ x.state.toNat ∨ s.glb.step.toNat < 3 ∨ !s.pwr.refclk then .next s
  else
    match goodHalf x.badLanes.toNat 0 with
    | none => .next (s.portDown port)
    | some h =>
      if !ok then .next (s.portDown port)
      else
        let half := decide (x.badLanes ≠ 0)
        let y := { PortSt.reset with
          state := 2, half := half, halfSel := half && h, badLanes := x.badLanes, laneCorr := x.laneCorr, pool := x.pool }
        .next ((s.setPort port y).sendIdent port).pumpAll

/-- A field of a peer's identity block. -/
def identField (f : Frame) (off n : Nat) : Nat := leNat ((f.payload.drop off).take n)

/-- The cause for which a port is quarantined, 0 for none (R308). -/
def State.quarantineCause (s : State) (f : Frame) : Nat :=
  if (f.payload.drop 0x10).take 48 ≠ s.lnk.cfgDigest ++ List.replicate (48 - s.lnk.cfgDigest.length) 0 then 1
  else if identField f 0 1 ≠ Config.jcmMajor then 2
  else if identField f 2 2 = s.applied.deviceId.toNat ∧ s.applied.idValid ∧ bitAt (identField f 4 4) 0 then 3
  else if !bitAt (identField f 4 4) 0 then 4
  else 0

/-- The mismatches of an identity block, each with both values (R308). -/
def State.identEvents (s : State) (p : Nat) (f : Frame) : State :=
  let me := s.identBlock
  let pairs : List (Nat × Nat × Nat) :=
    [(1, leNat ((me.drop 0x10).take 8), identField f 0x10 8), (2, Config.jcmMajor, identField f 0 1),
     (4, 1, identField f 4 4 % 2), (5, s.glb.minor.toNat, identField f 1 1), (6, leNat ((me.drop 8).take 4), identField f 8 4),
     (7, leNat ((me.drop 0xC).take 4), identField f 0xC 4)]
  let differ := pairs.filter (fun x => if x.1 = 1 then (me.drop 0x10).take 48 ≠ (f.payload.drop 0x10).take 48 else x.2.1 ≠ x.2.2)
  let same := if identField f 2 2 = s.applied.deviceId.toNat ∧ s.applied.idValid ∧ bitAt (identField f 4 4) 0 then
      [(3, s.applied.deviceId.toNat, identField f 2 2)] else []
  let late := if withinMicro ((identField f 0x40 8 : Int) - s.time.toNat) then [] else [(8, s.time.toNat, identField f 0x40 8)]
  (differ ++ same ++ late).foldl (fun t x =>
    t.event .identMismatch none 5 p none 0 [BitVec.ofNat 64 x.1, BitVec.ofNat 64 x.2.1, BitVec.ofNat 64 x.2.2]) s

/-- IDENT_RECEIVE: the identity block that has come in on the port is compared, and the port is quarantined, limited or
opened (R307, R308, R310). -/
def execIdentReceive (port : Nat) (s : State) : Answer :=
  match s.inboxFind port (fun f => f.vc == 7 && f.kind == 1) with
  | none => .next s
  | some f =>
    let s1 := { s with lnk := { s.lnk with inbox := s.lnk.inbox.erase (port, f) } }
    let x := s1.port port
    if x.state = 0 then .next s1
    else
      let cause := s1.quarantineCause f
      let minor := identField f 1 1
      let near := withinMicro ((identField f 0x40 8 : Int) - s1.time.toNat)
      let y := { x with
        state := if cause = 0 then 2 else 3
        qCause := BitVec.ofNat 3 cause
        peerResetting := bitAt (identField f 4 4) 1
        peerId := BitVec.ofNat 16 (identField f 2 2)
        peerMajor := BitVec.ofNat 8 (identField f 0 1)
        peerMinor := BitVec.ofNat 8 minor
        runMinor := BitVec.ofNat 8 (min minor s1.glb.minor.toNat)
        syncOpen := cause = 0 && s1.syncPort port && near }
      let s2 := (s1.setPort port y).identEvents port f
      let s3 := if cause ≠ 0 ∧ x.qCause.toNat ≠ cause then s2.portEvent port .quarantine 3 else s2
      let s4 := if cause ≠ 0 ∧ x.state = 2 then s3.shunPort port else s3
      .next s4.pumpAll

/-! ### Time (R311, R312) -/

/-- The time base moves by n ns; a negative step holds the counter until the parent's time has passed it. -/
def State.stepTime (s : State) (n : Int) : State :=
  if 0 ≤ n then { s with time := s.time + BitVec.ofNat 64 n.toNat, lnk := { s.lnk with timeHold := none } }
  else { s with lnk := { s.lnk with timeHold := some (s.time - BitVec.ofNat 64 n.natAbs) } }

/-- The management core of a root sets its time base, which never runs backwards (R311, R312). -/
def State.setRootTime (s : State) (set : Option Word64) : State :=
  match set, s.parentPort with
  | some t, none => s.stepTime ((t.toNat : Int) - s.time.toNat)
  | _, _ => s

/-- TIME_TICK: the island's loop compares the core-clock cycles since the last tick with its set frequency; the management core
of a root may set the time base with a tick (R20, R311). -/
def execTimeTick (island : Nat) (tick : Tick) (s : State) : Answer :=
  let s1 := s.modCore island (fun c => { c with trim := (tick.cycles : Int) - s.coreMhz island })
  .next ((s1.setRouter island { s1.router island with replays := [] }).setRootTime tick.set)

/-- TIME_WAVE: the child sends a TIME frame to its parent; a root has depth 0 (R311, R316). -/
def execTimeWave (s : State) : Answer :=
  match s.parentPort with
  | none => .next { s with lnk := { s.lnk with depth := 0 } }
  | some p =>
    if (s.port p).state.toNat < 2 then .next s
    else
      .next ((s.modPort p (fun x => { x with timeT1 := some s.stamp })).transmitLink p 2 (timePayload s.stamp 0 0 s.lnk.depth.toNat))

/-- θ in ns, as `LNK_TIME_STATUS.OFFSET` holds it: signed, saturating (R316). -/
def offsetField (ns : Int) : BitVec 16 := BitVec.ofNat 16 (ofSigned 16 (max (-32768) (min 32767 ns)))

/-- TIME_FRAME_RECEIVE: the parent's answer gives θ; within 1 µs the child slews, by at most 50 ns in a wave (±200 ppm of
250 µs), beyond it steps its time base with VC 1 closed until the next wave (R311, R312). `t4` in 1/8 ns. -/
def execTimeFrameReceive (port t4 : Nat) (s : State) : Answer :=
  match s.inboxFind port (fun f => f.vc == 7 && f.kind == 2) with
  | none => .next s
  | some f =>
    let s1 := { s with lnk := { s.lnk with inbox := s.lnk.inbox.erase (port, f) } }
    match (s1.port port).timeT1 with
    | none => .next s1
    | some t1 =>
      let t (off : Nat) : Int := (identField f off 8 : Int)
      let theta8 : Int := ((t 8 - t1) - ((t4 : Int) - t 0x10)) / 2
      let theta := theta8 / 8
      let ok := decide (theta8.natAbs ≤ 8000)
      let depth := BitVec.ofNat 8 (identField f 0x18 8 + 1)
      let s2 := s1.modPort port (fun x =>
        { x with timeT1 := none, syncOpen := ok && x.state == 2 && s1.syncPort port })
      let s3 := { s2 with lnk := { s2.lnk with offset := offsetField theta, depth := depth, locked := ok } }
      .next (if ok then s3.stepTime (max (-50) (min 50 theta)) else s3.stepTime theta).pumpAll

end Sys2Proof.Machine
end

