-- ==== Sys2Proof/Machine/Fabric.lean ====
section
/-! DEFINITION. The on-die networks: field faults, the bulk mesh, mesh links, sync objects, the time tick, reduction
slots (08 R242 to R273; 01 R20). -/

namespace Sys2Proof.Machine

/-! ### Counters of an island (R273) -/

def fabCtr (n off : Nat) : Nat := 0xA00000 + 0x1000 * n + off
def fabFlitsOut (n : Nat) : Nat := fabCtr n 0x08
def fabMcastCopies (n : Nat) : Nat := fabCtr n 0x10
def fabRedFlits (n : Nat) : Nat := fabCtr n 0x18
def fabSlotWait (n : Nat) : Nat := fabCtr n 0x20
def fabReplays (n : Nat) : Nat := fabCtr n 0x28
def fabFieldDrop (n : Nat) : Nat := fabCtr n 0x30

/-! ### The header of a packet (R245) -/

/-- Bits [hi:lo] of the header flit. -/
def packetBits (p : Packet) (hi lo : Nat) : Nat := bits p.head.data.toNat hi lo
def packetDst (p : Packet) : Nat := packetBits p 7 0
def packetDport (p : Packet) : Nat := packetBits p 10 8
def packetSrc (p : Packet) : Nat := packetBits p 18 11
def packetSport (p : Packet) : Nat := packetBits p 21 19
def packetVc (p : Packet) : Nat := packetBits p 23 22
def packetKind (p : Packet) : Nat := packetBits p 27 24
def packetField (p : Packet) : Nat := packetBits p 33 28
def packetSys (p : Packet) : Bool := bitAt p.head.data.toNat 34
def packetParen (p : Packet) : Bool := bitAt p.head.data.toNat 35
def packetMcast (p : Packet) : Bool := bitAt p.head.data.toNat 36
def packetLen (p : Packet) : Nat := packetBits p 46 37
def packetAddr (p : Packet) : Nat := packetBits p 84 47
def packetTag (p : Packet) : Nat := packetBits p 96 85
def packetRed (p : Packet) : Nat := packetBits p 108 97
def packetRank (p : Packet) : Nat := packetBits p 116 109
def packetBlock (p : Packet) : Nat := packetBits p 132 117
def packetFmt (p : Packet) : Nat := packetBits p 140 133

/-- Islands that the mask flit selects (R251). -/
def packetMask (p : Packet) : List Nat := (List.range 256).filter (fun i => p.mask.data.getLsbD i)
/-- The islands to which a packet goes. -/
def packetDests (p : Packet) : List Nat := if packetMcast p then packetMask p else [packetDst p]
/-- The header carries a reserved code or a reserved bit. -/
def packetReserved (p : Packet) : Bool :=
  packetBits p 255 141 ≠ 0 || decide (4 < packetDport p) || decide (4 < packetSport p)
    || packetVc p == 3 || decide (5 < packetKind p) || decide (512 < packetLen p)
    || (decide (4 ≤ packetKind p) && decide (1 < packetFmt p))
/-- KIND belongs to the VC. -/
def packetKindOk (p : Packet) : Bool := packetKind p / 2 == packetVc p
/-- Header, mask and payload flits. -/
def packetFlits (p : Packet) : Nat := 1 + flag (packetMcast p) + packetLen p
/-- Every flit carries its CRC (R245, R253). -/
def packetSound (p : Packet) : Bool :=
  let good (f : Flit) : Bool := flitCrc f.data == f.crc
  good p.head && (!packetMcast p || good p.mask) && p.payload.all good

/-! ### Ports of a router (R27, R243) -/

/-- A router has the local port: C and V everywhere, K and U on the north-west island of a cluster, G on a gateway (R243). -/
def hasPort (n port : Nat) : Bool :=
  if port < 2 then true else if port < 4 then gridRow n % 4 == 0 && gridCol n % 4 == 0 else port == 4 && isGateway n
/-- The router's cluster fabric domain is on; the core beside it does not matter (R27, R29). -/
def State.routerOn (s : State) (n : Nat) : Bool := (s.dom (256 + clusterOf n)).power == 2

/-! ### Field faults (R269 to R271) -/

/-- The three triggers of R269, as the event's data give them (DESIGN CHOICE, log 15). -/
def faultDark : Nat := 1
def faultPacket : Nat := 2
def faultMesh : Nat := 3

/-- Packets of a field in every router's buffers are discarded and counted. -/
def State.dropPackets (s : State) (fid : Nat) : State :=
  let mine (h : Held) : Bool := !packetSys h.packet && packetField h.packet == fid
  s.routers.foldl (fun t e =>
    let gone := (e.2.queue.filter mine).length
    if gone = 0 then t
    else (t.setRouter e.1 { e.2 with queue := e.2.queue.filter (fun h => !mine h) }).ctrAdd (fabFieldDrop e.1) gone) s

/-- A ring of a faulted field without outstanding clauses enters STOPPED too, at its lowest clause, or at the next to be
fetched; the spec gives no stop slot there: DESIGN CHOICE (log 63), RESUME goes on with that clause. -/
def RingSt.haltEmpty (x : RingSt) : RingSt :=
  let at_ := match x.clauses with
    | c :: _ => c.index
    | [] => x.fetched
  { x.become .stopped with stopAt := at_, skipped := x.clauses.isEmpty, waitFrom := none }

/-- Every outstanding clause of a ring fails; the lowest becomes the stop slot (R78, R270). -/
def State.failOutstanding (s : State) (r : Nat) (f : Failure) : State :=
  (((s.ring r).clauses.filter ClauseSt.outstanding).map (·.index)).foldl (fun t i => t.failClause r i f) s

/-- A field faults: its packets and slots are given up, and its outstanding clauses fail (R270). A field that is
faulted already stays so. -/
def State.faultField (s : State) (fid trigger island : Nat) : State :=
  match s.fieldOf fid with
  | none => s
  | some f =>
    if f.faulted.isSome then s
    else
      let s1 := (s.setField fid { f with faulted := some island }).dropPackets fid
      let s2 := s1.event .fieldFault (some 6) 1 island (some fid) stFieldFault [BitVec.ofNat 64 trigger, BitVec.ofNat 64 island]
      let rings := s2.rings.filterMap (fun e => if e.1 ≠ 0 ∧ e.2.isOpen ∧ e.2.field = fid then some e.1 else none)
      (rings.foldl (fun t r =>
        let u := t.failOutstanding r (failNone stFieldFault island)
        if (u.ring r).isStopped then u else u.modRing r RingSt.haltEmpty) s2).issueAll

/-- FIELD_FAULT: a trigger of R269 found at an island acts on its field (R270). -/
def execFieldFault (field island : Nat) (s : State) : Answer := .next (s.faultField field faultPacket island)

/-! ### Packets (R246 to R252) -/

/-- The field check at a port (R252). -/
def State.fieldOk (s : State) (island : Nat) (p : Packet) : Bool :=
  packetSys p ||
  (match s.fieldOf (packetField p) with
   | some f =>
     if packetDport p = 0 then f.paren == packetParen p && f.cores.contains island
     else if packetDport p = 2 ∨ packetDport p = 3 then f.cores.any (fun c => clusterOf c == clusterOf island)
     else true
   | none => decide (packetDport p = 1) || decide (packetDport p = 4))

/-- A packet is discarded and counted; its field faults, or the device reports it (R252). -/
def State.discardPacket (s : State) (island : Nat) (p : Packet) : State :=
  let s1 := s.ctrAdd (fabFieldDrop island) 1
  if packetSys p then s1.event .meshDevice none 1 island none 0 [BitVec.ofNat 64 (packetSrc p), BitVec.ofNat 64 (packetKind p)]
  else s1.faultField (packetField p) faultPacket island

/-- A faulted field's packets for ports C, K and U are taken in and discarded (R270). -/
def State.faultedDrop (s : State) (p : Packet) : Bool :=
  !packetSys p && decide (packetDport p = 0 ∨ packetDport p = 2 ∨ packetDport p = 3) &&
  (match s.fieldOf (packetField p) with
   | some f => f.faulted.isSome
   | none => false)

/-- Directions in which a multicast packet leaves a router (R251). -/
def mcastDirs (island src : Nat) (mask : List Nat) : List Nat :=
  let here := gridRow island == gridRow src
  let east := here && decide (gridCol src ≤ gridCol island) && mask.any (fun m => decide (gridCol island < gridCol m))
  let west := here && decide (gridCol island ≤ gridCol src) && mask.any (fun m => decide (gridCol m < gridCol island))
  let north := decide (gridRow island ≤ gridRow src) && mask.any (fun m => gridCol m == gridCol island && decide (gridRow m < gridRow island))
  let south := decide (gridRow src ≤ gridRow island) && mask.any (fun m => gridCol m == gridCol island && decide (gridRow island < gridRow m))
  (if north then [0] else []) ++ (if east then [1] else []) ++ (if south then [2] else []) ++ (if west then [3] else [])

/-- Directions of a packet at a router. -/
def packetDirs (p : Packet) (island : Nat) : List Nat :=
  if packetMcast p then mcastDirs island (packetSrc p) (packetMask p)
  else match nextDir island (packetDst p) with
    | some d => [d]
    | none => []
/-- The packet is for this island. -/
def packetHere (p : Packet) (island : Nat) : Bool := (packetDests p).contains island

/-- A link that is moving its traffic, or whose bulk and control wires have both failed, holds the packet (R253). -/
def State.linkHeld (s : State) (island dir : Nat) : Bool :=
  let r := s.router island
  r.moving.contains dir || (r.bulkFail.getLsbD dir && r.ctrlFail.getLsbD dir)

/-- Flits that a router buffers for each input and VC (R246). -/
def bufferFlits : Nat := 16
/-- An input of a router has a flit free for a header of the VC; a longer packet trails back along its path. -/
def RouterSt.inputRoom (r : RouterSt) (input vc : Nat) : Bool :=
  decide (((r.queue.filter (fun h => h.input == input && packetVc h.packet == vc)).foldl
    (fun n h => n + min bufferFlits (packetFlits h.packet)) 0) < bufferFlits)

/-- An input takes a header of the VC: it has a flit free, and no armed slot with function 2 withholds its credits; the
slot's SUB gives the input in [2:0] and the VC in [5:4] (R246, R477; inputs numbered by log 69). -/
def State.inputOpen (s : State) (n input vc : Nat) : Bool :=
  (s.router n).inputRoom input vc && (s.armedSlot 2 n (fun sub => sub % 8 == input && sub / 16 % 4 == vc)).isNone

/-- The opposite direction. -/
def opposite (dir : Nat) : Nat := (dir + 2) % 4
/-- A copy may go out in a direction: the link is not held, and the next router is on and has room (R246, R251). -/
def State.dirFree (s : State) (island : Nat) (p : Packet) (dir : Nat) : Bool :=
  match neighbour island dir with
  | none => false
  | some m => !s.linkHeld island dir && s.routerOn m && s.inputOpen m (opposite dir) (packetVc p)

/-- A vault controller's queue of 64 reads or 64 writes is full: it holds request packets (R165, R247). -/
def State.vaultFull (s : State) (n kind : Nat) : Bool :=
  decide (64 ≤ ((s.vault n).waiting.filter (fun w => w.isRead == (kind == 0))).length)
/-- The port here takes the packet now. -/
def State.portTakes (s : State) (island : Nat) (p : Packet) : Bool :=
  !(decide (packetKind p < 2) && packetDport p == 1 && s.vaultFull island (packetKind p))

/-- An endpoint of this router sends the packet: the port is there, traffic to or from the Hamada tier uses the serving
gateway (R244), multicast goes on the response VC alone (R251), a read has space reserved for its response, under a TAG
that is not in use, and read data answers such a read (R247). -/
def State.maySend (s : State) (island : Nat) (p : Packet) : Bool :=
  let away (m : Nat) : Bool := packetDport p ≠ 4 || gatewayOf island == m
  island == packetSrc p && hasPort island (packetSport p)
    && (packetDests p).all (fun m => away m && (packetSport p ≠ 4 || gatewayOf m == island))
    && (!packetMcast p || packetVc p == 1)
    && (packetKind p ≠ 0 || !(s.router island).reserved.contains (packetSport p, packetTag p))
    && (packetKind p ≠ 2 || packetMcast p || (s.router (packetDst p)).reserved.contains (packetDport p, packetTag p))

/-- Place of a VC at an output: response, reduction, request (R248). -/
def vcRank (vc : Nat) : Nat := if vc = 1 then 0 else if vc = 2 then 1 else 2
/-- Two packets want one output of a router: a direction, or a local port. -/
def sameOutput (island : Nat) (p q : Packet) : Bool :=
  (packetDirs p island).any (fun d => (packetDirs q island).contains d)
    || (packetHere p island && packetHere q island && packetDport p == packetDport q)
/-- The packet goes next at its outputs: no earlier one of its VC wants one of them, and none of a higher VC unless it has
lost 64 arbitrations as a request (R248). -/
def RouterSt.goesNext (r : RouterSt) (island : Nat) (h : Held) : Bool :=
  let before := r.queue.takeWhile (fun x => decide (x ≠ h))
  !before.any (fun x => packetVc x.packet == packetVc h.packet && sameOutput island x.packet h.packet)
    && (decide (packetVc h.packet = 0 ∧ 64 ≤ h.lost)
      || !r.queue.any (fun x => sameOutput island x.packet h.packet && decide (vcRank (packetVc x.packet) < vcRank (packetVc h.packet))))

/-- A copy goes to the next router's buffers; a flit that crosses ends the count of failed replays. -/
def State.sendPacket (s : State) (island : Nat) (p : Packet) (dir : Nat) : State :=
  match neighbour island dir with
  | none => s
  | some m =>
    let r := s.router island
    let s1 := (s.setRouter island { r with replays := Tbl.drop r.replays dir }).ctrAdd (fabFlitsOut island) (packetFlits p)
    s1.setRouter m { s1.router m with queue := (s1.router m).queue ++ [{ packet := p, input := opposite dir, lost := 0 }] }

/-- A read's answer gives up the space that was reserved for it (R247). -/
def RouterSt.answered (r : RouterSt) (p : Packet) : RouterSt :=
  if packetKind p = 2 then { r with reserved := r.reserved.erase (packetDport p, packetTag p) } else r

/-- A packet leaves the buffers of a router: forwarded, delivered or discarded (R249, R251, R252, R270). -/
def State.passPacket (s : State) (island : Nat) (h : Held) : State :=
  let p := h.packet
  let s1 := s.setRouter island { s.router island with queue := (s.router island).queue.erase h }
  if packetReserved p || !packetKindOk p then s1.discardPacket island p
  else
    let dirs := packetDirs p island
    let s2 := dirs.foldl (fun t d => t.sendPacket island p d) s1
    let copies := dirs.length + flag (packetHere p island)
    let s3 := if packetMcast p then s2.ctrAdd (fabMcastCopies island) (copies - 1) else s2
    if !packetHere p island then s3
    else if s3.faultedDrop p then s3.ctrAdd (fabFieldDrop island) 1
    else if s3.fieldOk island p && hasPort island (packetDport p) then s3.setRouter island ((s3.router island).answered p)
    else s3.discardPacket island p

/-! ### Mesh links (R253) -/

/-- Number of a link in a router: control links follow the bulk links. -/
def linkNo (dir : Nat) (control : Bool) : Nat := dir + (if control then 4 else 0)
/-- A router with a link failed and its traffic on the move. -/
def RouterSt.failLink (r : RouterSt) (dir : Nat) (control : Bool) : RouterSt :=
  let b : BitVec 4 := BitVec.ofNat 4 (2 ^ dir)
  let q := { r with moving := insSet (linkNo dir control) r.moving, replays := Tbl.drop r.replays (linkNo dir control) }
  if control then { q with ctrlFail := q.ctrlFail ||| b } else { q with bulkFail := q.bulkFail ||| b }

/-- The field covering an island is faulted. -/
def State.islandFaulted (s : State) (n : Nat) (paren : Bool) : Bool :=
  match s.fieldCovering n paren with
  | some f => match s.fieldOf f with
    | some x => x.faulted.isSome
    | none => false
  | none => false
/-- `FAB_RTR_STATE` of island n (R272). -/
def State.rtrState (s : State) (n : Nat) : Nat :=
  let r := s.router n
  let used (paren : Bool) : Nat := (s.slots.filter (fun x => x.island == n && x.paren == paren)).length
  r.bulkFail.toNat * 2 ^ 28 + r.ctrlFail.toNat * 2 ^ 24 + flag (isGateway n) * 2 ^ 23 + flag (s.islandFaulted n false) * 2 ^ 22
    + flag (s.islandFaulted n true) * 2 ^ 21 + used false * 2 ^ 12 + used true * 2 ^ 6

/-- A link is declared failed in both directions: its traffic begins to move, an event is raised, and the link goes to
the defect list; when both links between the two routers have failed every field faults, and the device reports it. -/
def State.declareLink (s : State) (island dir : Nat) (control : Bool) : State :=
  match neighbour island dir with
  | none => s
  | some m =>
    let s1 := s.setRouter island ((s.router island).failLink dir control)
    let s2 := s1.setRouter m ((s1.router m).failLink (opposite dir) control)
    let s3 := (s2.event .meshLink (some 5) 6 island none 0 [BitVec.ofNat 64 (s2.rtrState island)]).finding (if control then 8 else 7) island dir 0
    let r := s3.router island
    if r.bulkFail.getLsbD dir && r.ctrlFail.getLsbD dir then
      ((Tbl.keys s3.fields).foldl (fun t f => t.faultField f faultMesh island) s3).event .meshDevice none 6 island none 0 [BitVec.ofNat 64 (s3.rtrState island)]
    else s3

/-- A flit of a link has failed its CRC: the sending router replays, and the failure of the third replay declares the link
failed (R253). -/
def State.crcFail (s : State) (island dir : Nat) (control : Bool) : State :=
  let r := s.router island
  let k := linkNo dir control
  let dead := if control then r.ctrlFail.getLsbD dir else r.bulkFail.getLsbD dir
  if dead || (neighbour island dir).isNone then s
  else
    let n := Tbl.get 0 r.replays k
    if n < 3 then (s.setRouter island { r with replays := Tbl.put 0 r.replays k (n + 1) }).ctrAdd (fabReplays island) 1
    else s.declareLink island dir control

/-- Directions in which the packet would leave and an armed slot with function 12 corrupts the flits of the bulk link (R477). -/
def State.corruptDirs (s : State) (island : Nat) (p : Packet) : List Nat :=
  (packetDirs p island).filter (fun d => !(s.router island).bulkFail.getLsbD d && (s.armedSlot 12 island (· == d)).isSome)
/-- A flit with a corrupt CRC-8 leaves: it fails at the next router, and the slot's COUNT runs. -/
def State.sendCorrupt (s : State) (island dir : Nat) : State :=
  match s.armedSlot 12 island (· == dir) with
  | some (i, x) => (s.useSlot i x).crcFail island dir false
  | none => s

/-- The packet as a router holds it: an input port of the router has taken it in. -/
def RouterSt.find (r : RouterSt) (p : Packet) : Option Held := r.queue.find? (fun h => h.packet == p)

/-- A packet in the buffers goes on where the router's outputs let it, and otherwise has lost an arbitration. -/
def State.tryPacket (s : State) (island : Nat) (h : Held) : State :=
  let bad := packetReserved h.packet || !packetKindOk h.packet
  let free := bad || ((packetDirs h.packet island).all (fun d => s.dirFree island h.packet d)
    && (!packetHere h.packet island || s.portTakes island h.packet))
  if free && (s.router island).goesNext island h then
    match s.corruptDirs island h.packet with
    | d :: _ => s.sendCorrupt island d
    | [] => s.passPacket island h
  else s.setRouter island { s.router island with queue := (s.router island).queue.map (fun x => if x = h then { x with lost := x.lost + 1 } else x) }

/-- A source's packet enters the buffers of its router; a read reserves the space of its response there (R247). -/
def State.injectPacket (s : State) (island : Nat) (p : Packet) : State :=
  let r := s.router island
  s.setRouter island { r with
    queue := r.queue ++ [{ packet := p, input := 4 + packetSport p, lost := 0 }]
    reserved := if packetKind p = 0 then r.reserved ++ [(packetSport p, packetTag p)] else r.reserved }

/-- MESH_PACKET: a router that is on takes in a packet of one of its ports, or turns to one in its buffers, and forwards,
delivers or discards it; a flit that fails its CRC is not taken (R245 to R252). -/
def execMeshPacket (island : Nat) (p : Packet) (s : State) : Answer :=
  if !s.routerOn island || !packetSound p then .next s
  else match (s.router island).find p with
    | some h => .next (s.tryPacket island h)
    | none =>
      if !s.maySend island p || !s.inputOpen island (4 + packetSport p) (packetVc p) then .next s
      else
        let s1 := s.injectPacket island p
        .next (s1.tryPacket island { packet := p, input := 4 + packetSport p, lost := 0 })

/-! ### Events of mesh links (R253, R254) -/

/-- FLIT_CRC_FAIL: the sending router replays; the failure of a flit's third replay declares the link failed (R253). -/
def execFlitCrcFail (island dir : Nat) (control : Bool) (s : State) : Answer :=
  .next (s.crcFail island dir control)

/-- MESH_LINK_MOVE_DONE: the failed link's traffic goes on over the parallel link (R253). -/
def execMeshLinkMoveDone (island dir : Nat) (control : Bool) (s : State) : Answer :=
  let k := linkNo dir control
  if !(s.router island).moving.contains k then .next s
  else
    match neighbour island dir with
    | none => .next s
    | some m =>
      let s1 := s.setRouter island { s.router island with moving := delSet k (s.router island).moving, promoted := 0 }
      let s2 := s1.setRouter m { s1.router m with moving := delSet (linkNo (opposite dir) control) (s1.router m).moving }
      .next (if control then s2.sendHeldShares else s2)

/-- CTRL_MSG_PROMOTION: a class-4 message that has waited 10 µs at a router moves to class 1; the messages there so moved
are counted until its links' traffic goes on. Of the control mesh the model holds what its links stop (log 64) (R254). -/
def execCtrlMsgPromotion (island : Nat) (s : State) : Answer :=
  .next (s.setRouter island { s.router island with promoted := (s.router island).promoted + 1 })

/-! ### Sync objects (R255 to R258) -/

/-- The islands that take part in an object (R256): all of them for objects 0 and 1. -/
def State.participants (s : State) (object : Nat) : List Nat :=
  if object < 2 then List.range 256
  else match s.fields.find? (fun e => decide (e.2.syncBase ≤ object) && decide (object < e.2.syncBase + e.2.syncCount)) with
    | some e => e.2.cores
    | none => []

/-- The combiner answers for an island whose core domain is dark, held in reset or mapped out (R258). -/
def State.islandAway (s : State) (n : Nat) : Bool := (s.core n).mappedOut || (s.dom n).power == 3 || decide (s.glb.rstState ≠ 0)

/-- Kind of an object: 0 not yet used, 1 barrier, 2 flag. Object 0 is a flag, object 1 a barrier, a field's step flag a
flag; of the others the spec does not say what decides: DESIGN CHOICE (log 64), the first use does (R255). -/
def State.objectKind (s : State) (object : Nat) : Nat :=
  if object = 0 then 2 else if object = 1 then 1
  else if s.fields.any (fun e => e.2.stepFlag == object) then 2 else (s.syncObj object).kind

/-- A barrier is released once every participant has arrived; arrivals held for the next generation then count. -/
def State.releaseBarrier (s : State) (object : Nat) (x : SyncObj) : SyncObj :=
  let all := s.participants object
  let full (l : List Nat) : Bool := all.all (fun n => l.contains n || s.islandAway n)
  if !all.isEmpty && full x.arrived && x.arrived ≠ [] then
    let y := { x with gen := !x.gen, arrived := x.held, held := [] }
    if full y.arrived && y.arrived ≠ [] then { y with gen := !y.gen, arrived := [] } else y
  else x

/-- Barriers that only waited for an island that is now away are released (R258). -/
def State.settleBarriers (s : State) : State :=
  (s.sync.filter (fun e => !e.2.arrived.isEmpty)).foldl (fun t e => t.setSync e.1 (s.releaseBarrier e.1 e.2)) s

/-- BARRIER_ARRIVE: a participant arrives with its generation bit; one that has arrived in this generation is held
until the release (R256). -/
def execBarrierArrive (object island : Nat) (gen : Bool) (s : State) : Answer :=
  let x := { s.syncObj object with kind := 1 }
  if s.objectKind object = 2 || !(s.participants object).contains island || s.islandAway island then .next s
  else if x.arrived.contains island then .next (s.setSync object { x with held := insSet island x.held })
  else if gen ≠ x.gen then .next s
  else .next (s.setSync object (s.releaseBarrier object { x with arrived := insSet island x.arrived }))

/-- The step owner whose non-finite flag an object is (R327). -/
def State.flagOwner (s : State) (object : Nat) : Option Nat :=
  (s.steps.find? (fun e => if e.2.chain then object == 0 else object == e.2.flag && object ≠ 0)).map (·.1)

/-- FLAG_CONTRIBUTE: the flag becomes the OR of its contributions; an island that is away contributes 0. The flag
object of a step owner is its NF bit (R257, R258, R327). -/
def execFlagContribute (object island : Nat) (value : Bool) (s : State) : Answer :=
  if !value || s.objectKind object = 1 || !(s.participants object).contains island || s.islandAway island then .next s
  else
    match s.flagOwner object with
    | some o => match s.stepOf o with
      | some x => .next (s.setStep o { x with nf := true })
      | none => .next s
    | none => .next (s.setSync object { s.syncObj object with kind := 2, value := true })

/-! ### Reduction slots (R259 to R264) -/

/-- Slots of a share of a router: the main field's, or the parenthetical field's (R264, R272). -/
def State.slotShare (s : State) (island : Nat) (paren : Bool) : Nat :=
  let main := min 32 (Tbl.get 24#6 s.applied.mainSlots island).toNat
  if paren then 32 - main else main
def State.slotsUsed (s : State) (island : Nat) (paren : Bool) : Nat :=
  (s.slots.filter (fun x => x.island == island && x.paren == paren)).length

/-- Clauses that run as reductions: a matrix product with SPLITK above 1, attention backward, and the reducing verbs (R259). -/
def reduces (c : BitVec 512) : Bool :=
  let v := clVerb c
  (v == verbMatrix && decide (1 < clModBits c 48 44)) || v == verbAttnBwd || v == verbReduce || v == verbAllReduce
    || v == verbReduceScatter

/-- The steps of a reduction: each maximal run of consecutive ranks at one island, as the island and its ranks (R259). -/
def cutSteps : List Nat → List (Nat × Nat)
  | [] => []
  | n :: r => match cutSteps r with
    | [] => [(n, 1)]
    | (m, k) :: t => if n = m then (n, k + 1) :: t else (n, 1) :: (m, k) :: t
/-- The steps that hold a slot, by number and island: all of them but step 0 without a seed (R259). -/
def slotSteps (r : Reduction) : List (Nat × Nat) :=
  (((cutSteps r.ranks).zipIdx).map (fun x => (x.2, x.1.1))).filter (fun x => r.seed || decide (0 < x.1))
/-- Contributions that the step's slot adds. -/
def stepRanks (r : Reduction) (k : Nat) : Nat := ((cutSteps r.ranks).getD k (0, 0)).2
/-- The slot steps in the order of their reservation: ascending island index (R261). -/
def reserveOrder (r : Reduction) : List (Nat × Nat) :=
  (List.range 256).flatMap (fun n => (slotSteps r).filter (fun x => x.2 == n))

/-- Slots that a reduction holds. -/
def State.slotsOf (s : State) (ring index red : Nat) : List Slot :=
  s.slots.filter (fun x => x.ring == ring && x.index == index && x.red == red)
/-- The next slot step that a reduction reserves. -/
def State.nextReserve (s : State) (ring index : Nat) (r : Reduction) : Option (Nat × Nat) :=
  (reserveOrder r)[(s.slotsOf ring index r.red).length]?

/-- A slot as it is reserved: no block yet, and the 512 credits of its block with the step before it (R262). -/
def Slot.fresh (ring index island : Nat) (paren : Bool) (red step : Nat) : Slot :=
  { ring := ring, index := index, island := island, paren := paren, red := red, step := step, block := 0, sums := [], output := []
    gone := 0, credits := 512 }

/-- A reduction that reserves, as it now is. -/
def State.noteReducing (s : State) (x : Reducing) : State :=
  { s with reducing := s.reducing.filter (fun y => !(y.ring == x.ring && y.index == x.index && y.red.red == x.red.red)) ++ [x] }

/-- SLOT_RESERVE: a started reduction takes the next of its slots, in ascending island index, of its field's share, or
waits there (R259, R261, R264). Every contributor lies in the field. -/
def execSlotReserve (ring slot : Nat) (r : Reduction) (s : State) : Answer :=
  let x := s.ring ring
  match x.clauseAt slot, s.fieldOf x.field with
  | some c, some f =>
    let known := s.reducing.find? (fun y => y.ring == ring && y.index == c.index && y.red.red == r.red)
    if c.phase ≠ Phase.started ∨ c.worked ∨ !reduces c.bits ∨ !r.ranks.all f.cores.contains ∨ known.any (fun y => decide (y.red ≠ r) || y.ready) then .next s
    else match s.nextReserve ring c.index r with
      | none => .next s
      | some (step, island) =>
        let q := s.router island
        if s.slotsUsed island f.paren < s.slotShare island f.paren then
          let s1 := s.setRouter island { q with waiters := q.waiters.filter (fun w => decide (w ≠ (ring, c.index))) }
          let s2 := { s1 with slots := s1.slots ++ [Slot.fresh ring c.index island f.paren r.red step] }
          .next (s2.noteReducing { ring := ring, index := c.index, red := r, ready := (s2.nextReserve ring c.index r).isNone })
        else
          let s0 := s.noteReducing { ring := ring, index := c.index, red := r, ready := false }
          if q.waiters.contains (ring, c.index) then .next s0
          else .next ((s0.setRouter island { q with waiters := q.waiters ++ [(ring, c.index)] }).ctrAdd (fabSlotWait island) 1)
  | _, _ => .next s

/-- A sum flit with the local contributions of the step, in rank order (R260, R262, R263). -/
def addFlits (a b : SumFlit) : SumFlit :=
  { words := (a.words.zip b.words).map (fun p => toFp32 ((fromFp32 p.1).add (fromFp32 p.2))), poison := a.poison || b.poison }

/-- A slot replaced, and a slot released. -/
def State.putSlot (s : State) (x y : Slot) : State := { s with slots := replaceFirst s.slots x y }
where
  replaceFirst : List Slot → Slot → Slot → List Slot
    | [], _, _ => []
    | z :: r, x, y => if z = x then y :: r else z :: replaceFirst r x y
/-- A slot whose last block has left is free; with its last slot the reduction is over (R261). -/
def State.freeSlot (s : State) (x : Slot) : State :=
  let s1 := { s with slots := s.slots.erase x }
  if (s1.slotsOf x.ring x.index x.red).isEmpty then
    { s1 with reducing := s1.reducing.filter (fun y => !(y.ring == x.ring && y.index == x.index && y.red.red == x.red)) }
  else s1

/-- An output flit leaves its slot: the step before it gets its credit back, and after a block's last flit the next block
may enter (R262). -/
def State.flitLeaves (s : State) (r : Reduction) (x : Slot) (i : Nat) : State :=
  let y := { x with output := Tbl.drop x.output i, gone := x.gone + 1, credits := x.credits + 1 }
  if y.gone < r.blocks.getD x.block 0 then s.putSlot x y
  else if x.block + 1 < r.blocks.length then s.putSlot x { y with block := x.block + 1, gone := 0, credits := 512 }
  else s.freeSlot x

/-- A slot's output flit is formed; the last step's leaves at once for the destination (R260, R262, R263). -/
def State.formFlit (s : State) (r : Reduction) (x : Slot) (i : Nat) (sum : SumFlit) (locals : List SumFlit) : State :=
  let out := locals.foldl addFlits sum
  let y := { x with sums := Tbl.drop x.sums i, output := Tbl.setKey x.output i out }
  let s1 := (s.putSlot x y).ctrAdd (fabRedFlits x.island) 1
  let s2 := if x.step + 1 = (cutSteps r.ranks).length then s1.flitLeaves r y i else s1
  if out.poison then
    s2.modRing x.ring (fun R => R.modClause x.index (fun c =>
      if c.verdict.isSome then c else { c with verdict := some (failNone stPoisonConsumed 0) }))
  else s2

/-- The flits of the present block that have come into a slot. -/
def Slot.arrived (x : Slot) : Nat := x.gone + x.output.length + x.sums.length

/-- The slot of the step before, where that step holds one. -/
def State.slotBefore (s : State) (x : Slot) : Option Slot :=
  (s.slotsOf x.ring x.index x.red).find? (fun y => y.step + 1 == x.step)
/-- The sum flit that comes in: the output of the step before, or what the first step sends or the seed gives. -/
def State.incoming (s : State) (x : Slot) (i : Nat) (flit : SumFlit) : Option SumFlit :=
  match s.slotBefore x with
  | some y => if y.block = x.block then Tbl.find y.output i else none
  | none => some flit

/-- A sum flit comes into a slot against a credit, and leaves the step before it (R262). -/
def State.takeFlit (s : State) (r : Reduction) (x : Slot) (i : Nat) (sum : SumFlit) : State :=
  let s1 := s.putSlot x { x with sums := Tbl.setKey x.sums i sum, credits := x.credits - 1 }
  match s.slotBefore x with
  | some y => s1.flitLeaves r y i
  | none => s1

/-- REDUCTION_FLIT_ARRIVE: the next sum flit of a block comes into a slot of a reduction that has all its slots, against a
credit, or one that waits there meets its local contributions; with them the slot forms output flit `index`. A poisoned
output fails the clause when the reduction ends (R261 to R263). -/
def execReductionFlitArrive (island unit index : Nat) (flit : SumFlit) (locals : Option (List SumFlit)) (s : State) : Answer :=
  match (s.slots.filter (fun x => x.island == island))[unit]? with
  | none => .next s
  | some x =>
    match s.reducing.find? (fun y => y.ring == x.ring && y.index == x.index && y.red.red == x.red) with
    | none => .next s
    | some q =>
      let r := q.red
      let drawn (l : List SumFlit) : Bool := l.length == stepRanks r x.step
      if !q.ready then .next s
      else match Tbl.find x.sums index with
        | some sum => match locals with
          | some l => if drawn l then .next (s.formFlit r x index sum l) else .next s
          | none => .next s
        | none =>
          if index ≠ x.arrived ∨ r.blocks.getD x.block 0 ≤ index ∨ x.credits = 0 then .next s
          else match s.incoming x index flit with
            | none => .next s
            | some sum =>
              let s1 := (s.takeFlit r x index sum).dataBegun x.ring x.index
              match locals, (s1.slots.filter (fun y => y.island == island))[unit]? with
              | some l, some y => if drawn l then .next (s1.formFlit r y index sum l) else .next s1
              | _, _ => .next s1

end Sys2Proof.Machine
end

