-- ==== Sys2Proof/Machine/Engines.lean ====
section
/-! DEFINITION. The engines at work: staging, step boundaries and merges of matrix-vector and decode batches, page repairs
that a step needs, and engine faults (06 R191 to R205; 07 R222, R238 to R240). -/

namespace Sys2Proof.Machine

/-! ### Decode batches (R222, R238) -/

/-- DVA of byte i of scratch level l in bank p of a vault. -/
def State.scratchDva (s : State) (n p l i : Nat) : Nat := s.poolDva (scratchFrame s.poolFrames n) l p + i
/-- Where the words of task slot k of a phase lie: levels 1 to 4 the scores, 6 to 9 the partials. -/
def State.slotDva (s : State) (n p k : Nat) (pv : Bool) : Nat :=
  s.scratchDva n p ((if pv then 6 else 1) + k / 4) (512 * (k % 4))

/-- What the controller stages for a task: its q vector, or its probabilities × 256 in E4M3, zero where no position is
valid. -/
def State.stagedVector (s : State) (c : ClauseSt) (d : DecodeSt) (pv : Bool) (i : Nat) : List WByte :=
  let t := d.task i
  if pv then
    let ps := (d.probabilities (fromFp32 (decTau c.bits)) i).getD []
    (List.range 128).map (fun k => some
      { byte := BitVec.ofNat 8 (convertElem 3 Conv.plain 0 (ps.getD k Val.zero)).bits, poison := d.bad.contains i })
  else
    let q := (s.loadTensor (c.noun 0)).toArray
    (List.range 128).map (fun k =>
      let e := q.getD (k + 128 * (t.head + (c.noun 0).dim 1 * t.seq)) Elem.zero
      some { byte := BitVec.ofNat 8 e.code, poison := e.bad })

/-- The vector of a task in its phase. -/
def State.taskVector (s : State) (c : ClauseSt) (d : DecodeSt) (pv : Bool) (i : Nat) : List Val :=
  if pv then (d.probabilities (fromFp32 (decTau c.bits)) i).getD []
  else (s.stagedVector c d false i).map (fun b => match b with
    | some x => elemVal (c.noun 0).format x.byte.toNat 127
    | none => Val.zero)

/-- Every score that the batch's probabilities need has reached its core (R233, R238). -/
def DecodeSt.scoresIn (d : DecodeSt) (tasks : List Nat) : Bool :=
  (List.range 128).all (fun p => (d.batch tasks p).all (fun i => (d.segment i).all (fun k => (Tbl.find d.scores k).isSome)))

/-- A decode's record changed. -/
def State.setDecode (s : State) (d : DecodeSt) : State :=
  { s with decodes := s.decodes.map (fun x => if x.ring = d.ring ∧ x.index = d.index then d else x) }

/-- Tasks consumed a poisoned flit (R240). -/
def State.noteBad (s : State) (d : DecodeSt) (items : List Nat) : State :=
  s.setDecode { d with bad := items.foldl (fun l i => insSet i l) d.bad }

/-- STAGING_DONE of a decode batch: level 0 or 5 holds the vectors of every bank's task slots; a dark engine's tasks are run
by the controller, with identical arithmetic (R204, R222, R236, R238). -/
def State.stageDecode (s : State) (n : Nat) (j : NbeJob) (c : ClauseSt) (d : DecodeSt) : State :=
  let reads := s.decodeReads j.ring c
  (List.range 128).foldl (fun t p =>
    let b := d.batch j.tasks p
    if b.isEmpty then t
    else
      let t1 := (b.zipIdx).foldl (fun u x =>
        u.writeDva 3 (u.scratchDva n p (if j.pv then 5 else 0) (128 * x.2)) (s.stagedVector c d j.pv x.1)) t
      if t.engineOut n p then
        (b.zipIdx).foldl (fun u x =>
          let k := d.task x.1
          let w := u.pageWords j.pv (readFormat reads k.seq) k.count k.page (s.taskVector c d j.pv x.1)
          (u.writeDva 3 (u.slotDva n p x.2 j.pv)
            ((wordsToBytes w.1).map (fun y => some { byte := y, poison := w.2 }))).ctrAdd (nbeFallback n) (if j.pv then 0 else 1)) t1
      else t1.setEngine n p (t1.engine n p).fresh) s

/-- The step of a decode batch that an engine takes next: the DVA and the bytes it uses of the row, and for a read or write
step its task slot and place among the task's nine steps (R238). -/
def State.decodeStep (s : State) (n p : Nat) (j : NbeJob) (d : DecodeSt) : Nat × Nat × Nat × Nat :=
  let l := (s.engine n p).level
  if l = 0 then (s.scratchDva n p (if j.pv then 5 else 0) 0, 2048, 0, 0)
  else
    let k := (l - 1) / 9
    let i := (l - 1) % 9
    if i < 8 then (s.pageDva (d.task ((d.batch j.tasks p).getD k 0)).page (if j.pv then 8 + i else i), 2048, k, i)
    else (s.slotDva n p k j.pv, 512, k, 8)

/-- One step of a decode batch: the vectors are read into the latch, a row adds to the accumulators, or a task's 128 words
are written (R238 to R240). -/
def State.stepDecode (s : State) (n p : Nat) (j : NbeJob) (c : ClauseSt) (d : DecodeSt) : State :=
  let e := s.engine n p
  let st := s.decodeStep n p j d
  let row := s.readBank st.1 st.2.1
  let batch := d.batch j.tasks p
  if e.level = 0 then
    let used := row.take (128 * batch.length)
    let bad := (batch.zipIdx).filterMap (fun x => if ((used.drop (128 * x.2)).take 128).any (·.poison) then some x.1 else none)
    ((s.setEngine n p { e.takeBeat row with latch := Cells.write [] 0 (used.map (·.byte)), level := 1 }).noteBad d bad).ctrAdd (nbeStepsRd n) 1
  else
    let i := batch.getD st.2.2.1 0
    let t := d.task i
    if st.2.2.2 < 8 then
      let fmt := readFormat (s.decodeReads j.ring c) t.seq
      let v := (Cells.readRange e.latch (128 * st.2.2.1) 128).map (fun b => elemVal (if j.pv then 3 else (c.noun 0).format) b.toNat 127)
      let bad := row.any (·.poison)
      let e1 := (e.takeBeat row).putAcc (16 * st.2.2.2) (taskWords j.pv fmt t.count st.2.2.2 v (row.map (·.byte)).toArray)
      let s1 := s.setEngine n p { e1 with level := e.level + 1, poison := e.poison || bad }
      (if bad then s1.noteBad d [i] else s1).ctrAdd (nbeStepsRd n) 1
    else
      ((s.writeBank st.1 (wordsToBytes e.acc) e.poison).setEngine n p
        { e.takeBeat row with acc := List.replicate 128 0, level := e.level + 1, poison := false }).ctrAdd (nbeStepsWr n) 1

/-- The tasks of the present batch of a vault, with their banks and slots. -/
def DecodeSt.present (d : DecodeSt) (tasks : List Nat) : List (Nat × Nat × Nat) :=
  (List.range 128).flatMap (fun p => ((d.batch tasks p).zipIdx).map (fun x => (x.1, p, x.2)))

/-- The controller reads the words of the present batch and sends them to the cores of their segments (R235, R238). -/
def State.collectWords (s : State) (n : Nat) (j : NbeJob) (d : DecodeSt) : DecodeSt :=
  (d.present j.tasks).foldl (fun e x =>
    let bs := s.readBank (s.slotDva n x.2.1 x.2.2 j.pv) 512
    let ws := bytesToWords (bs.map (·.byte))
    let e1 := if bs.any (·.poison) then { e with bad := insSet x.1 e.bad } else e
    if j.pv then { e1 with partials := Tbl.put [] e1.partials x.1 ws } else { e1 with scores := Tbl.put [] e1.scores x.1 ws }) d

/-! ### The three rows -/

/-- What a vault's present job works on: its clause, and a decode's record or a matrix-vector clause's batch. -/
inductive Work where
  | mv (c : ClauseSt) (batch : Nat)
  | decode (c : ClauseSt) (d : DecodeSt)
deriving DecidableEq, Repr

def State.workOf (s : State) (j : NbeJob) : Option Work :=
  match s.jobClause j with
  | none => none
  | some c =>
    if j.decode then (s.decodeOf j.ring j.index).map (fun d => .decode c d)
    else match j.batches with
      | b :: _ => some (.mv c b)
      | [] => none

/-- STAGING_DONE: a batch's heads are written, and the engine steps begin; a PV phase waits for the scores of its segments
(R192, R204, R238). -/
def execStagingDone (vault : Nat) (s : State) : Answer :=
  match (s.vault vault).activeJob with
  | none => .next s
  | some j =>
    if j.stage ≠ 1 then .next s
    else match s.workOf j with
      | none => .next s
      | some (.mv c b) => .next ((s.stageMv vault j c b).beginSteps vault j)
      | some (.decode c d) =>
        if j.pv && !d.scoresIn j.tasks then .next s else .next ((s.stageDecode vault j c d).beginSteps vault j)

/-- The DVA and bytes that the next step of an engine reads of its row, before it writes there too. -/
def State.stepSpan (s : State) (n p : Nat) (j : NbeJob) : Work → Nat × Nat
  | .mv c b => s.mvStep n p c b
  | .decode _ d => let x := s.decodeStep n p j d; (x.1, x.2.1)

/-- The row of a span, where one of its bursts needs a page repair first (R197). -/
def State.spanRepair (s : State) (dva n : Nat) : Option Nat :=
  if s.dram.checks.isEmpty then none
  else (flitPieces dva n).findSome? (fun p => match s.translate 3 p.1 with
    | some (.dram a) => if s.dram.burstBad (a / 64) then some (rowOfDpa a) else none
    | _ => none)

/-- The words of a span that the step corrects in line are counted and logged, burst by burst (R162, R197, R463). -/
def State.spanCe (s : State) (dva n : Nat) : State :=
  if s.dram.checks.isEmpty then s
  else (flitPieces dva n).foldl (fun t p => match t.translate 3 p.1 with
    | some (.dram a) => if a % 64 = 0 ∧ t.dram.burstStatus (a / 64) = 1 then t.ceBurst a else t
    | _ => t) s

/-- The step itself. -/
def State.takeStep (s : State) (n p : Nat) (j : NbeJob) : Work → State
  | .mv c b => s.stepMv n p j c b
  | .decode c d => s.stepDecode n p j c d

/-- After a step: the token goes back, requests that waited at the bank are served up to 8 row activations, tokens are
granted again, and the bank's other requests are served if its engine found none (R166, R199, R202). -/
def State.endStep (s : State) (n p : Nat) : State :=
  let s1 := s.setEngine n p { s.engine n p with token := false, orphan := false }
  let s2 := (s1.serveBoundary n p (nbeBoundaryServed n)).grantTokens n
  let s3 := if s2.wantsToken n p then s2.ctrAdd (nbeTokenWait n) 1 else s2
  (if (s3.engine n p).token then s3 else s3.serveFree n).toMerge n

/-- ENGINE_STEP_BOUNDARY: the engine's step ends. A step that finds what a page repair is for waits for it and is then
repeated; with the tier's refresh debt at 7 the engine gives way to the refresh, and repeats the step later. The step of a
clause that has ended leaves nothing (log 56) (R192 to R203, R238, R458). -/
def execEngineStepBoundary (vault engine : Nat) (s : State) : Answer :=
  if !(s.engine vault engine).token then .next s
  else if (s.engine vault engine).orphan then .next (s.endStep vault engine)
  else if !s.engineBusy vault engine || s.bankRepairing vault engine then .next s
  else
    match (s.vault vault).activeJob with
    | none => .next s
    | some j =>
      match s.workOf j with
      | none => .next s
      | some w =>
        let span := s.stepSpan vault engine j w
        match s.spanRepair span.1 span.2 with
        | some key =>
          if s.repairFree key then .next (s.startRepair key)
          else if 7 ≤ (s.tier vault (engine / 16)).debt then .next (s.endStep vault engine)
          else .next s
        | none => .next ((((s.spanCe span.1 span.2).takeStep vault engine j w).dataBegun j.ring j.index).endStep vault engine)

/-- A decode's present batch has ended its phase in a vault: on to the PV phase, to the next batch, or out (R238). -/
def State.mergeDecode (s : State) (n : Nat) (j : NbeJob) (c : ClauseSt) (d : DecodeSt) : State :=
  let e := s.collectWords n j d
  let done := (d.present j.tasks).map (·.1)
  let s1 := s.setDecode e
  if !j.pv then s1.modVault n (fun v => v.modJob j.ring j.index (fun x => { x with stage := 1, pv := true }))
  else
    let left := j.tasks.filter (fun i => !done.contains i)
    let s2 := s1.ctrAdd kvmTasksEngine (done.filter (fun i => (d.task i).path == 0)).length
    if left.isEmpty then
      let s3 := (j.locked.foldl (fun t l => t.dropCacheRow n l) s2).leaveVault n j
      (if delSet n c.vaults = [] then s3.finishDecode j.ring c e else s3).settleClause j.ring j.index
    else s2.modVault n (fun v => v.modJob j.ring j.index (fun x => { x with stage := 1, pv := false, tasks := left }))

/-- MERGE_DONE: the outputs of the vault's present batch are written, or its words sent to the cores; then the next batch
is staged, or the clause is finished there (R182, R192, R195, R238). -/
def execMergeDone (vault : Nat) (s : State) : Answer :=
  match (s.vault vault).activeJob with
  | none => .next s
  | some j =>
    if j.stage ≠ 3 then .next s
    else
      match s.workOf j with
      | none => .next s
      | some (.mv c b) =>
        let s1 := s.mergeBatch vault j c b
        let more := j.batches.drop 1
        if more.isEmpty then .next ((s1.leaveVault vault j).settleClause j.ring j.index)
        else .next (s1.modVault vault (fun v => v.modJob j.ring j.index (fun x => { x with stage := 1, batches := more })))
      | some (.decode c d) => .next (s.mergeDecode vault j c d)

/-- ENGINE_FAULT: an engine fails at run time: the clause it serves fails with NBE_FAULT; until the next start, when it
is marked dark, its items run by fallback (R205). -/
def execEngineFault (vault engine : Nat) (s : State) : Answer :=
  let busy := s.engineBusy vault engine
  let s1 := s.setEngine vault engine { s.engine vault engine with dead := true, token := false, orphan := false }
  let s2 := s1.event .engineFault (some 0xE) 2 vault none stNbeFault [BitVec.ofNat 64 (128 * vault + engine)]
  let s3 := s2.finding 6 vault engine 0
  let s4 := match (s.vault vault).activeJob with
    | some j => if busy then s3.failClause j.ring j.index (failNone stNbeFault 0) else s3
    | none => s3
  .next ((s4.grantTokens vault).serveFree vault)

/-! ### An evacuating vault (R176, R236) -/

/-- The near-bank work of a vault that starts to evacuate: matrix-vector clauses that need its engines fail, and a decode's
tasks there go on along the core path. -/
def State.leaveEngines (s : State) (n : Nat) : State :=
  (s.vault n).jobs.foldl (fun t j =>
    if 4 ≤ j.stage then t
    else if j.decode then
      match t.jobClause j, t.decodeOf j.ring j.index with
      | some c, some d =>
        let reads := t.decodeReads j.ring c
        let moved (i : Nat) (x : DecodeTask) : DecodeTask := if j.tasks.contains i then { x with path := 1 } else x
        let d1 := { d with tasks := (d.tasks.zipIdx).map (fun x => moved x.2 x.1) }
        let d2 := t.coreScores c reads d1 (j.tasks.filter (fun i => (Tbl.find d1.scores i).isNone))
        let t1 := (t.setDecode d2).leaveVault n j
        (if delSet n c.vaults = [] then t1.finishDecode j.ring c d2 else t1).settleClause j.ring j.index
      | _, _ => t
    else t.failClause j.ring j.index (failNone stVaultEvacuating 0)) s

end Sys2Proof.Machine
end

