-- ==== Sys2Proof/Machine/Tune.lean ====
section
/-! DEFINITION. When delay lines are tuned again (01 R23, R25). -/

namespace Sys2Proof.Machine

/-! ### Tunes (R23, R25) -/

/-- Temperature of the receiving tier of a crossing: Playa, then D0 to D7. -/
def State.crossingTemp (s : State) (n x : Nat) : Int := s.nodeTemp (if x = 0 then 1 else 2 + x) n
/-- Voltage and temperature for which a crossing's delay lines were last tuned; none since the start. -/
def CoreSt.tuneOf (c : CoreSt) (x : Nat) : Nat × Int := c.tunes.getD x (0, 0)
/-- A crossing's delay lines are set for the column's present voltage and temperature. -/
def State.noteTune (s : State) (n x : Nat) : State :=
  s.modCore n (fun c => { c with tunes := (List.range 9).map (fun k =>
    if k = x then ((s.dom n).vset.toNat, s.crossingTemp n x) else c.tuneOf k) })
/-- Those of every crossing of a column. -/
def State.noteTunes (s : State) (n : Nat) : State := (List.range 9).foldl (fun t x => t.noteTune n x) s
/-- A crossing needs a retune: the core domain's voltage has moved by more than 50 mV since its last tune, or its receiving
tier's temperature by more than 10 °C (R25). -/
def State.tuneDue (s : State) (n x : Nat) : Bool :=
  let old := (s.core n).tuneOf x
  decide (50 < (((s.dom n).vset.toNat : Int) - old.1).natAbs) || decide (80 < (s.crossingTemp n x - old.2).natAbs)
/-- RETUNE_TRIGGER: a Playa-port retune stalls a running core; a tier's channel retunes at its next refresh, whether or not
the column's core is in use (R25). -/
def State.retuneTest (s : State) (n : Nat) : State :=
  let c := s.core n
  let s1 := if (s.dom n).power = 2 ∧ !c.retuning ∧ !c.mappedOut ∧ s.tuneDue n 0 then s.modCore n (fun x => { x with retuning := true }) else s
  let due := (List.range 8).filter (fun t => s.tuneDue n (1 + t))
  if due.isEmpty || s.vaultRetired n then s1
  else s1.modVault n (fun v => { v with retune := due.foldl (fun l t => insSet t l) v.retune })

end Sys2Proof.Machine
end

