-- ==== Sys2Proof/Machine/CoreSeq.lean ====
section
/-! DEFINITION. Core sequencing: instruction memory errors, admission and yield of the parenthetical context, retunes,
and the loss of a core (04 R117, R118, R120 to R125; 01 R25, R26; 02 R75; 12 R399). -/

namespace Sys2Proof.Machine

def coreYields (n : Nat) : Nat := coreCtr n 0x10
def coreYieldMax (n : Nat) : Nat := coreCtr n 0x18

/-! ### Instruction memory (R117, R118) -/

/-- IMEM_UNCORRECTABLE (R117, R118). -/
def execImemUncorrectable (core : Nat) (strike : ImemStrike) (s : State) : Answer :=
  .next (s.strikeImem core strike.paren strike.storeBad)

/-- A core that waits for the standard kernel gets it (R117, R402). -/
def CoreSt.loadStandard (c : CoreSt) : CoreSt :=
  { c with imgMain := if c.imgMain = .empty then .standard else c.imgMain
           imgParen := if c.imgParen = .empty then .standard else c.imgParen }

/-- KERNEL_STORE_REFILL: the kernel store is good again, and the writings that waited for it are done (R117). -/
def execKernelStoreRefill (s : State) : Answer :=
  if s.glb.step.toNat < 5 then .next s
  else
    let s1 := { s with glb := { s.glb with kstoreOk := true } }
    .next ((List.range 256).foldl (fun t n =>
      if (t.dom n).power = 2 ∧ !(t.core n).mappedOut then t.modCore n CoreSt.loadStandard else t) s1)

/-! ### Two contexts (R120 to R123) -/

/-- Slice offset of an array's save area (R123). -/
def saveArea (array : Nat) : Nat := 0x3F8000 + 0x4000 * array

/-- Words of a bank that are not clear. -/
def bankWords (ws : List Word32) : Tbl Word32 := ((ws.zipIdx).filter (fun w => w.1 ≠ 0)).map (fun w => (w.2, w.1))

/-- A parenthetical bank leaves the array for the save area, and the main context takes the other bank. -/
def ArraySt.spill (a : ArraySt) : ArraySt :=
  if a.bank then { a with bank1 := [], bank := false } else { a with bank0 := [], bank := true }
/-- A spilled bank is preloaded. -/
def ArraySt.restore (a : ArraySt) (ws : List Word32) : ArraySt :=
  if a.bank then { a with bank1 := bankWords ws } else { a with bank0 := bankWords ws }

/-- The main context has nothing to issue: no share, or its running share still waits for its data (R120). -/
def State.mainWaits (s : State) (core : Nat) : Bool :=
  match (s.core core).qMain with
  | [] => true
  | (r, i) :: _ => match (s.ring r).clauseOf i with
    | some c => !c.worked
    | none => true

/-- PAREN_ADMIT: after 32 cycles without an issue of the main context the parenthetical context runs; spilled banks are
restored first. Held arrays, on which a main share has a pass in progress or an undrained bank, are not lent (R120,
R121, R123). -/
def execParenAdmit (admission : Admission) (s0 : State) : Answer :=
  let core := admission.core
  let held := admission.held
  let c := s0.core core
  if c.run = 2 ∨ c.run = 3 ∨ c.qParen = [] ∨ c.retuning ∨ (s0.dom core).power ≠ 2 ∨ s0.halted ∨ !s0.mainWaits core then .next s0
  else
    let s := c.spilled.foldl (fun t k => t.playaSeen core (saveArea k) 0x4000) s0
    let words (k : Nat) : List Word32 := bytesToWords (s.playaRead core (saveArea k) 0x4000)
    .next (s.modCore core (fun x =>
      { x with
        run := 2
        mainHeld := if x.qMain = [] then [] else held.foldl (fun l k => insSet k l) []
        array0 := if x.spilled.contains 0 then x.array0.restore (words 0) else x.array0
        array1 := if x.spilled.contains 1 then x.array1.restore (words 1) else x.array1
        spilled := [] }))

/-- CONTEXT_YIELD: the main context is ready again; parenthetical banks in flight are spilled to the save area, and the
yield is counted; vector operations in flight finish into the parenthetical register file. `cycles` runs from main ready to
main's first issue: at least 1 and at most 16 (R122, R125). -/
def execContextYield (core cycles : Nat) (spill : List SpilledBank) (s : State) : Answer :=
  let c := s.core core
  if (c.run ≠ 2 ∧ c.run ≠ 3) ∨ c.qMain = [] then .next s
  else
    let s1 := spill.foldl (fun t b =>
      (t.playaWrite core (saveArea b.array) (wordsToBytes b.words) false).modCore core (fun x =>
        if b.array = 0 then { x with array0 := x.array0.spill, spilled := insSet 0 x.spilled }
        else { x with array1 := x.array1.spill, spilled := insSet 1 x.spilled })) s
    let s2 := (s1.useVectors core true).modCore core (fun x => { x with run := 1, mainHeld := [] })
    .next ((s2.ctrAdd (coreYields core) 1).ctrMax (coreYieldMax core) (max 1 (min 16 cycles)))

/-! ### The loss of a core (R26, R75, R269, R271, R399) -/

/-- A field has shares out. -/
def State.sharesOut (s : State) (fid : Nat) : Bool :=
  s.rings.any (fun e => decide (e.1 ≠ 0) && e.2.field == fid && e.2.clauses.any (fun c => !c.shares.isEmpty || !c.unsent.isEmpty))

/-- The share of a clause at a lost core falls to the remaining cores, or fails the clause that needs its stage (R75). -/
def State.dropShare (s : State) (r index core : Nat) (stage : Bool) : State :=
  if stage then s.failClause r index (failNone stFieldDegraded 0)
  else
    match (s.ring r).clauseOf index with
    | none => s
    | some c =>
      let final := (delSet core c.shares).isEmpty && (delSet core c.unsent).isEmpty
      let s1 := if final then s.countFailed r c else s
      let s2 := s1.modRing r (fun R => R.modClause index (fun x =>
        { x with shares := delSet core x.shares, unsent := delSet core x.unsent
                 nonFinite := if final then 0 else x.nonFinite, saturated := if final then 0 else x.saturated }))
      let s3 := s2.modCore core (fun k =>
        { k with qMain := k.qMain.filter (fun q => decide (q ≠ (r, index))), qParen := k.qParen.filter (fun q => decide (q ≠ (r, index))) })
      s3.settleClause r index

/-- A field goes on without a core, and the management core hears of it (R75). -/
def State.degradeField (s : State) (fid core : Nat) : State :=
  match s.fieldOf fid with
  | none => s
  | some f =>
    let s1 := (s.setField fid { f with degraded := true }).event .degraded none 1 core (some fid) 0 [BitVec.ofNat 64 core]
    let stage := match (if f.paren then (s.core core).imgParen else (s.core core).imgMain) with
      | .loaded _ => true
      | .invalid => true
      | _ => false
    let held := s1.rings.flatMap (fun e =>
      if e.1 ≠ 0 ∧ e.2.field = fid then
        (e.2.clauses.filter (fun (c : ClauseSt) => c.shares.contains core || c.unsent.contains core)).map (fun c => (e.1, c.index))
      else [])
    held.foldl (fun t q => t.dropShare q.1 q.2 core stage) s1

/-- A core is mapped out while it runs: its main field faults where it has shares out, else it is degraded; its
parenthetical field faults only where the main field does not (R269, R271, R399). -/
def State.loseCore (s : State) (core : Nat) : State :=
  let s1 := (s.modCore core (fun c => { c with mappedOut := true, retuning := false })).settleBarriers
  let main := s1.fieldCovering core false
  let par := s1.fieldCovering core true
  let fault := match main with
    | some f => s1.sharesOut f
    | none => false
  let s2 := match main with
    | some f => if fault then s1.faultField f faultDark core else s1.degradeField f core
    | none => s1
  match par with
  | some f => if !fault && s2.sharesOut f then s2.faultField f faultDark core else s2.degradeField f core
  | none => s2

/-- PLAYA_RETUNE_DONE: the port's delay lines are set and the core goes on, or a lane is too narrow and the core is mapped
out (R21, R24 to R26). -/
def execPlayaRetuneDone (core : Nat) (sweeps : List LaneSweep) (s : State) : Answer :=
  if !(s.core core).retuning then .next s
  else
    let mine := sweeps.filter (fun x => x.column == core && x.crossing == 0)
    let s1 := ((s.setDelays mine).noteTune core 0).modCore core (fun c => { c with retuning := false })
    match mine.filter (fun x => !LaneSweep.passes x) with
    | [] => .next s1
    | l =>
      let s2 := l.foldl (fun t x => (t.event .retuneNarrow none 1 core none 0 [BitVec.ofNat 64 x.lane]).finding 2 core x.lane 0) s1
      .next ((s2.loseCore core).issueAll)

end Sys2Proof.Machine
end

