-- ==== Sys2Proof/Machine/Domains.lean ====
section
/-! DEFINITION. Supply domains: phases and spares, bridges, dark domains, wakes, droop (12 R392 to R404). -/

namespace Sys2Proof.Machine

def pwrDom (d off : Nat) : Nat := 0xF10000 + 0x40 * d + off
def pwrWakes : Nat := 0xF00100
def pwrWakeWaits : Nat := 0xF00108
def pwrPrethrottle : Nat := 0xF00110
def pwrSagEntries : Nat := 0xF00118
def pwrHolds : Nat := 0xF00120

/-! ### The domains (R392) -/

/-- Active phases. -/
def domPhases (d : Nat) : Nat := if d < 256 then 4 else if d < 272 then 8 else if d < 288 then 6 else 12
/-- Maximum current, mA. -/
def domMaxMa (d : Nat) : Nat := 2000 * domPhases d
/-- The cores of a core's 2 × 2 group: n differs only in bit 0 of row and bit 0 of col. -/
def coreGroup (n : Nat) : List Nat := let b := n / 32 * 32 + n % 16 / 2 * 2; [b, b + 1, b + 16, b + 17]
/-- The group neighbour to the east or west, and the one to the north or south. -/
def groupSide (n : Nat) : Nat := Nat.xor n 1
def groupAbove (n : Nat) : Nat := Nat.xor n 16

/-! ### Phases (R397) -/

/-- A spare phase is free for a domain. -/
def State.spareFree (s : State) (d : Nat) : Bool :=
  if d < 256 then (coreGroup d).all (fun n => !(s.dom n).spare) else !(s.dom d).spare

/-- A phase is disabled, and a spare takes its place where one is free. -/
def State.failPhase (s : State) (d phase : Nat) : State :=
  let x := s.dom d
  let gone := insSet phase x.failed
  s.setDom d { x with failed := gone, phases := BitVec.ofNat 4 gone.length, spare := x.spare || s.spareFree d }

/-- `PWR_DOM_STATE` and `PWR_DOM_PATH` (R422). -/
def domState (x : DomSt) : Nat :=
  x.power.toNat * 2 ^ 30 + flag x.bypass * 2 ^ 29 + x.bridge.toNat * 2 ^ 20 + x.derate.toNat * 2 ^ 18 + x.phases.toNat * 2 ^ 12
    + flag x.spare * 2 ^ 11 + x.vset.toNat
def domPath (x : DomSt) : Nat := x.baseline.toNat + x.filtered.toNat * 2 ^ 16

/-- An event about a regulator, with PWR_DOM_STATE (R473): what it did (DESIGN CHOICE, log 15: 1 phase, 2 bridged or bypassed, 3 dark), the unit. -/
def State.regulatorEvent (s : State) (d what detail : Nat) : State :=
  s.event .regulator (some 7) 3 d none 0 [BitVec.ofNat 64 (domState (s.dom d)), BitVec.ofNat 64 what, BitVec.ofNat 64 detail]

/-- PHASE_FAIL (R397). -/
def execPhaseFail (domain phase : Nat) (s : State) : Answer :=
  if (s.dom domain).failed.contains phase ∨ (s.dom domain).power = 3 then .next s
  else .next (((s.failPhase domain phase).regulatorEvent domain 1 phase).finding 9 domain phase 0)

/-! ### Current limits (R396, R397, R398, R402, R406) -/

/-- The current limit of a domain's own supply, mA: its working phases and spare, derated; a ramping domain's enabled
phases; a core's 2.25 A on VBYP. -/
def State.domLimitMa (s : State) (d : Nat) : Nat :=
  let x := s.dom d
  let phases := 2000 * (domPhases d - x.failed.length + flag x.spare)
  let derated := if x.derate = 1 then phases * 3 / 4 else if x.derate = 2 then phases / 2 else phases
  let ramped := if x.power = 1 then min derated (2000 * x.ramp) else derated
  if x.bypass ∧ d < 256 then min ramped 2250 else ramped

/-- The domain bridged to a core domain. -/
def State.bridgedTo (s : State) (n : Nat) : Option Nat := (coreGroup n).find? (fun m => (s.dom m).bridge.toNat == n)

/-- Rows of the bypass budget: the use that a domain belongs to and its current, mA (R396). -/
def bypassRow (d : Nat) : Nat := if d < 256 then 0 else if d < 272 then 1 else if d < 288 then 2 else 3
def bypassRowMa (row : Nat) : Nat := [144000, 60000, 31000, 72000].getD row 0
/-- The estimated currents of a row's domains on VBYP. -/
def State.bypassMa (s : State) (row : Nat) : Nat :=
  sumOf ((List.range 308).map (fun d =>
    if bypassRow d = row ∧ ((s.dom d).bypass ∨ (s.dom d).switching = some 0x1FF) then (s.dom d).meanMa else 0))
/-- VBYP admits a domain while its row's use holds (R396). -/
def State.bypassAdmits (s : State) (d : Nat) : Bool :=
  s.pwr.vbyp && decide (s.bypassMa (bypassRow d) + (s.dom d).meanMa ≤ bypassRowMa (bypassRow d))

/-! ### Whole regulators (R398, R399) -/

/-- A neighbour that may take a bridged core: powered, its regulator working, not bridged already, not derated. -/
def State.mayBridge (s : State) (n : Nat) : Bool :=
  let x := s.dom n
  x.power == 2 && x.regOk && !x.bypass && x.bridge == 0x1FF && x.derate == 0 && x.switching.isNone
    && !(coreGroup n).any (fun m => (s.dom m).bridge.toNat == n || (s.dom m).switching == some n)

/-- The supply that takes a domain over: a group neighbour for a core, VBYP for another domain. -/
def State.newSupply (s : State) (d : Nat) : Option Nat :=
  if d < 256 then
    (if s.mayBridge (groupSide d) then some (groupSide d) else if s.mayBridge (groupAbove d) then some (groupAbove d) else none)
  else if s.bypassAdmits d then some 0x1FF else none

/-- A domain is dark and off its supply. -/
def State.cutDomain (s : State) (d : Nat) : State :=
  s.modDom d (fun x => { x with power := 3, switching := none, regOk := false, bridge := 0x1FF, bypass := false, ramp := 0 })

/-- A domain goes dark; a core in it is mapped out, and so is a core that had been bridged to it (R399). -/
def State.darkDomain (s : State) (d : Nat) : State :=
  let both := if d < 256 then d :: (coreGroup d).filter (fun n => n ≠ d && (s.dom n).bridge.toNat == d) else [d]
  both.foldl (fun t n =>
    let t1 := ((t.cutDomain n).regulatorEvent n 3 0).finding 10 n 0 0
    if n < 256 then t1.loseCore n else t1) s

/-- A regulator is disabled: its domain's clock stops until the new supply is in, and a bridge partner's clock is
stretched by 50 % meanwhile (`clockStretch`). -/
def State.failRegulator (s : State) (d : Nat) : State :=
  match s.newSupply d with
  | none => s.darkDomain d
  | some p => s.modDom d (fun x => { x with regOk := false, switching := some p })

/-- REGULATOR_FAIL (R398, R399, R562). -/
def execRegulatorFail (domain : Nat) (s : State) : Answer :=
  let x := s.dom domain
  if x.power = 3 ∨ !x.regOk then .next s else .next ((s.failRegulator domain).issueAll)

/-- BRIDGE_COMPLETE: the domain is in regulation at its new supply, the stretch is removed, its clock restarts (R398). -/
def execBridgeComplete (domain : Nat) (s : State) : Answer :=
  let x := s.dom domain
  match x.switching with
  | none => .next s
  | some p =>
    if p < 256 then
      .next ((s.setDom domain { x with switching := none, bridge := BitVec.ofNat 9 p, vset := (s.dom p).vset }).regulatorEvent domain 2 p)
    else .next ((s.setDom domain { x with switching := none, bypass := true, vset := 750 }).regulatorEvent domain 2 p)

/-- DOMAIN_DARK: the switch has not closed at 5 µs (R399). -/
def execDomainDark (domain : Nat) (s : State) : Answer :=
  match (s.dom domain).switching with
  | none => .next s
  | some _ => .next ((s.darkDomain domain).issueAll)

/-! ### Powering off and waking (R400 to R402) -/

/-- Some field covers a core. -/
def State.coreCovered (s : State) (n : Nat) : Bool := (s.fieldCovering n false).isSome || (s.fieldCovering n true).isSome

/-- IDLE_POWER_OFF: a core without shares and without a loaded image is powered off when GATE_EN is set (R400). -/
def execIdlePowerOff (core : Nat) (s : State) : Answer :=
  let c := s.core core
  let plain (i : Image) : Bool := match i with
    | .loaded _ => false
    | .invalid => false
    | _ => true
  if s.pwr.gateEn ∧ (s.dom core).power = 2 ∧ c.qMain = [] ∧ c.qParen = [] ∧ plain c.imgMain ∧ plain c.imgParen then
    .next ((s.modDom core (fun d => { d with power := 0 })).modCore core (fun x =>
      { x with imgMain := .empty, imgParen := .empty, run := 0, spilled := [] }))
  else .next s

/-- Cluster of a core or Playa domain. -/
def domCluster (d : Nat) : Nat := if d < 256 then clusterOf d else d - 272
/-- Core and Playa domains wake; the others are on while the device is. -/
def wakes (d : Nat) : Bool := decide (d < 256) || (decide (272 ≤ d) && decide (d < 288))
/-- A field covers the domain. -/
def State.domCovered (s : State) (d : Nat) : Bool :=
  if d < 256 then s.coreCovered d && !(s.core d).mappedOut
  else (List.range 256).any (fun n => playaDomain n == d && s.coreCovered n)

/-- A domain joins the requests once. -/
def State.askWake (s : State) (d : Nat) : State :=
  if (s.dom d).power = 0 ∧ !s.pwr.wakes.contains d ∧ !s.pwr.tokens.contains d then
    { s with pwr := { s.pwr with wakes := s.pwr.wakes ++ [d] } }
  else s

/-- WAKE_REQUEST: a field or a share needs the domain; a core's Playa domain wakes before it (R400, R402). -/
def execWakeRequest (domain : Nat) (s : State) : Answer :=
  if wakes domain && s.domCovered domain && s.glb.ready && decide (s.glb.rstState = 0) then
    .next ((if domain < 256 then s.askWake (playaDomain domain) else s).askWake domain)
  else .next s

/-- A request may be granted now: its cluster holds no token, and a core's Playa domain is on. -/
def State.grantable (s : State) (d : Nat) : Bool :=
  !s.pwr.tokens.any (fun t => domCluster t == domCluster d) && (decide (256 ≤ d) || (s.dom (playaDomain d)).power == 2)

/-- The ramp begins: phase 0 (R402). -/
def State.startRamp (s : State) (d : Nat) : State := s.modDom d (fun x => { x with power := 1, ramp := 1 })

/-- Neighbours of a core domain: the orthogonally adjacent cores and its Playa domain. A Playa domain has none (R401). -/
def wakeNeighbours (d : Nat) : List Nat :=
  if d < 256 then ((List.range 4).filterMap (fun k => neighbour d k)) ++ [playaDomain d] else []

/-- A domain's droop guard is active: a detector of it has stretched a clock within the last 20 µs, or its mean current
exceeds 75 % of its maximum (R401). -/
def State.guardActive (s : State) (d : Nat) : Bool :=
  let x := s.dom d
  (decide (d < 256) && (s.core d).stretch != 0)
    || (match x.stretchAt with
        | some t => decide (s.time.toNat ≤ t.toNat + 20000)
        | none => false)
    || decide (3 * domMaxMa d < 4 * x.meanMa)
/-- The neighbours of a waking domain that guard. -/
def State.guards (s : State) (d : Nat) : List Nat := (wakeNeighbours d).filter s.guardActive

/-- WAKE_TOKEN_GRANT: the oldest request within the limits, which is that of `domain`, takes a token; without an active guard
its ramp begins at once (R401, R402). -/
def execWakeTokenGrant (domain : Nat) (s : State) : Answer :=
  if 8 ≤ s.pwr.tokens.length then .next s
  else
    match s.pwr.wakes.find? s.grantable with
    | none => .next s
    | some d =>
      if d ≠ domain then .next s
      else
        let s1 := { s with pwr := { s.pwr with wakes := delSet d s.pwr.wakes, tokens := s.pwr.tokens ++ [d] } }
        .next (if s1.guards d ≠ [] then s1.ctrAdd pwrWakeWaits 1 else s1.startRamp d)

/-- WAKE_WAIT_END: no guard is active, or 50 µs have passed and the neighbours that still guard are pre-throttled (R402). -/
def execWakeWaitEnd (domain : Nat) (expired : Bool) (s : State) : Answer :=
  if s.pwr.tokens.contains domain ∧ (s.dom domain).ramp = 0 ∧ (s.dom domain).power = 0 ∧ (expired || (s.guards domain).isEmpty) then
    let g := s.guards domain
    let s1 := if g.isEmpty then s else (s.modDom domain (fun x => { x with throttled := g })).ctrAdd pwrPrethrottle 1
    .next (s1.startRamp domain)
  else .next s

/-- RAMP_STAGE: the next phase; after the fourth stage the ramp is complete, the pre-throttle is removed and the token
returned (R402). -/
def execRampStage (domain : Nat) (s : State) : Answer :=
  let x := s.dom domain
  if x.power ≠ 1 then .next s
  else if x.ramp < 4 then .next (s.setDom domain { x with ramp := x.ramp + 1 })
  else
    let s1 := s.setDom domain { x with power := 2, ramp := 0, throttled := [] }
    .next (({ s1 with pwr := { s1.pwr with tokens := delSet domain s1.pwr.tokens } }).ctrAdd pwrWakes 1)

/-- WAKE_COMPLETE: the delay lines are tuned, the standard kernel stands in both halves, and shares may issue (R117, R402). -/
def execWakeComplete (domain : Nat) (s : State) : Answer :=
  if (s.dom domain).power = 2 ∧ domain < 256 ∧ s.glb.kstoreOk ∧ !(s.core domain).mappedOut then
    .next ((s.noteTunes domain).modCore domain CoreSt.loadStandard)
  else .next s

/-! ### Droop (R403, R404) -/

/-- An island that a domain's detectors watch: the core domain's own, or one with a slice of the Playa domain (R403). -/
def watches (d island : Nat) : Bool := decide (island < 256) && (d == island || d == playaDomain island)

/-- DROOP_DETECT: the core clock of an island with a core or Playa domain's detector is stretched by 25 % or 50 %; fabric
and Hamada domains only count and log. The stretched cycles are counted (R403, R404). -/
def execDroopDetect (domain : Nat) (droop : Droop) (cycles : Nat) (s : State) : Answer :=
  let island := droop.island
  let belowMv := droop.belowMv
  if belowMv ≤ 40 then .next s
  else
    let half := decide (70 < belowMv)
    let s1 := s.ctrAdd (pwrDom domain (if half then 0x18 else 0x10)) cycles
    if watches domain island then
      .next ((s1.modCore island (fun c => { c with stretch := if half then 50 else max c.stretch 25 })).modDom domain
        (fun x => { x with stretchAt := some s.time }))
    else .next s1

/-- DROOP_RECOVER: the stretch ends (R403). -/
def execDroopRecover (island : Nat) (s : State) : Answer :=
  if (s.core island).stretch = 0 then .next s
  else
    let s1 := s.modCore island (fun c => { c with stretch := 0 })
    .next ([island, playaDomain island].foldl (fun t d => if (t.dom d).stretchAt.isSome then t.modDom d (fun x => { x with stretchAt := some s.time }) else t) s1)

/-- A forced stretch begins on an island, by 25 or 50 % (R477, function 5). -/
def State.beginForced (s : State) (x : DbgSlot) : State :=
  if x.func = 5 ∧ x.unit.toNat < 256 ∧ (x.mag = 25 ∨ x.mag = 50) then
    (s.modCore x.unit.toNat (fun c => { c with stretch := max c.stretch x.mag.toNat })).modDom x.unit.toNat (fun d => { d with stretchAt := some s.time })
  else s
/-- Cycles of an island's clock since the slot was armed, COUNT at most. -/
def State.forcedCycles (s : State) (x : DbgSlot) : Nat :=
  let n := (s.time.toNat - x.armedAt.toNat) * s.coreMhz x.unit.toNat / 1000
  if x.count = 0 then n else min n x.count.toNat
/-- It ends after some cycles, which are counted (R404). -/
def State.endForced (s : State) (x : DbgSlot) (cycles : Nat) : State :=
  if x.arm ∧ x.func = 5 ∧ x.unit.toNat < 256 ∧ (x.mag = 25 ∨ x.mag = 50) then
    ((s.modCore x.unit.toNat (fun c => { c with stretch := 0 })).modDom x.unit.toNat (fun d => { d with stretchAt := some s.time })).ctrAdd
      (pwrDom x.unit.toNat (if x.mag = 50 then 0x18 else 0x10)) cycles
  else s

/-- By how much an island's core-clock period is lengthened, in 1/8: the larger of its droop's and a bridging partner's
stretch, doubled periods at sag stage 3, and a pre-throttle of 12.5 % (R398, R402, R403, R407). -/
def State.clockStretch (s : State) (n : Nat) : Nat :=
  [(s.core n).stretch * 8 / 100, if (coreGroup n).any (fun m => (s.dom m).switching == some n) then 4 else 0,
   if 3 ≤ s.pwr.sagStage then 8 else 0, if s.doms.any (fun e => e.2.throttled.contains n) then 1 else 0].foldl max 0

end Sys2Proof.Machine
end

