-- ==== Sys2Proof/Machine/Epoch.lean ====
section
/-! DEFINITION. Configuration epochs, on one device and across a chain (15 R499 to R506; 17 R545; 07 R223; 08 R266; 09
R289, R304 to R309). -/

namespace Sys2Proof.Machine

/-- `GLB_EPOCH_REJECTS`. -/
def glbEpochRejects : Nat := 0x118

/-! ### The rows of R499 -/

/-- A row's staged fields equal its applied ones. -/
def Shadow.sameRow (a b : Shadow) (r : Nat) : Bool :=
  match r with
  | 0 => a.rctBase == b.rctBase
  | 1 => a.ntbBase == b.ntbBase && a.chainBase == b.chainBase && a.ptBase == b.ptBase && a.ptSize == b.ptSize
  | 2 => a.cacheEn == b.cacheEn
  | 3 => a.mainSlots == b.mainSlots
  | 4 => a.seqEn == b.seqEn && a.seqBase == b.seqBase && a.poolEn == b.poolEn && a.poolFrames == b.poolFrames && a.poolBase == b.poolBase
  | 5 => a.psetEn == b.psetEn && a.psetBase == b.psetBase
  | 6 => a.poolCfg == b.poolCfg
  | 7 => a.route == b.route
  | 8 => a.syncRoot == b.syncRoot && a.syncParent == b.syncParent && a.syncChildren == b.syncChildren
  | 9 => a.idValid == b.idValid && a.deviceId == b.deviceId
  | _ => a.hopLimit == b.hopLimit && a.groupBase == b.groupBase && a.lnkChainBase == b.lnkChainBase

def shadowRows : List Nat := List.range 11
/-- Rows whose staged value differs from the applied one. -/
def Shadow.changed (st ap : Shadow) : List Nat := shadowRows.filter (fun r => !st.sameRow ap r)

/-- A row takes the values of a snapshot; rejected cores (row 2) and ports (row 6) keep theirs. -/
def Shadow.takeRow (a x : Shadow) (badCores badPorts : List Nat) (r : Nat) : Shadow :=
  match r with
  | 0 => { a with rctBase := x.rctBase }
  | 1 => { a with ntbBase := x.ntbBase, chainBase := x.chainBase, ptBase := x.ptBase, ptSize := x.ptSize }
  | 2 => { a with cacheEn := (List.range 256).filter (fun n => if badCores.contains n then a.cacheEn.contains n else x.cacheEn.contains n) }
  | 3 => { a with mainSlots := x.mainSlots }
  | 4 => { a with seqEn := x.seqEn, seqBase := x.seqBase, poolEn := x.poolEn, poolFrames := x.poolFrames, poolBase := x.poolBase }
  | 5 => { a with psetEn := x.psetEn, psetBase := x.psetBase }
  | 6 => { a with poolCfg := (List.range 60).filterMap (fun k =>
      (Tbl.find (if badPorts.contains (k / 5) then a.poolCfg else x.poolCfg) k).map (fun v => (k, v))) }
  | 7 => { a with route := x.route }
  | 8 => { a with syncRoot := x.syncRoot, syncParent := x.syncParent, syncChildren := x.syncChildren }
  | 9 => { a with idValid := x.idValid, deviceId := x.deviceId }
  | _ => { a with hopLimit := x.hopLimit, groupBase := x.groupBase, lnkChainBase := x.lnkChainBase }

def isLinkRow (r : Nat) : Bool := decide (6 ≤ r)

/-! ### Validation (R499, R501) -/

/-- Row 1 breaks R57, R135, R154 or R550: a table outside device memory, or no region. -/
def ntbBad (x : Shadow) : Bool :=
  decide (Config.dramBytes < x.ntbBase.toNat * 2 ^ 26 + 2 ^ 26) || decide (Config.dramBytes < x.chainBase.toNat * 2 ^ 20 + 2 ^ 20)
    || decide (x.ptSize = 0) || decide (512 < x.ptSize.toNat)
    || decide (Config.dramBytes < x.ptBase.toNat * 2 ^ 21 + x.ptSize.toNat * 2 ^ 21)

/-- Row 2 is rejected for a core whose cache would come on over a reduction buffer (R266). -/
def State.cacheBlocked (s : State) (x : Shadow) (n : Nat) : Bool :=
  x.cacheEn.contains n && !s.applied.cacheEn.contains n
    && s.fields.any (fun f => f.2.cores.contains n && f.2.rbufs.any (fun b => b.size ≠ 0 && decide (b.offset < 0x200000)))

/-- Row 6 is rejected for a port (R289). -/
def poolBad (x : Shadow) (p : Nat) : Bool :=
  let cfg := (List.range 5).map (x.pool p)
  cfg.any (fun c => c.reserve = 0 || decide (c.limit.toNat < c.reserve.toNat)) || decide (256 < sumOf (cfg.map (fun c => c.reserve.toNat)))

/-- The column of a pool frame whose two pages are mapped, of mode 3, and of one UNIT (R223). -/
def State.frameUnit (s : State) (f : Nat) : Option Nat :=
  let col (i : Nat) : Option Nat :=
    match s.translate 3 (s.poolDva f 0 0 + 2 ^ 21 * i) with
    | some (.dram a) => some (a / Config.vaultBytes)
    | _ => none
  if col 0 = col 1 then col 0 else none

/-- The first frame that fails R223: not mapped as it must be, or alone in its column. -/
def State.badFrame (s : State) : Option Nat :=
  let units := (List.range s.applied.poolFrames.toNat).map s.frameUnit
  ((units.zipIdx).find? (fun u => u.1.isNone || (units.filter (fun v => v == u.1)).length == 1)).map (·.2)

/-- Some sequence of the table in use is OPEN. -/
def State.anyOpen (s : State) : Bool :=
  let base := s.seqDpa 0
  s.applied.seqEn && s.dram.cells.any (fun c =>
    decide (base ≤ c.1) && decide (c.1 < base + 2 ^ 25) && (c.1 - base) % 32 == 3 && c.2.toNat % 16 == 1)

/-- A clause of some verbs has started and not completed. -/
def State.startedVerb (s : State) (p : Nat → Bool) : Bool :=
  s.rings.any (fun e => e.2.clauses.any (fun c => (c.phase = .started || c.phase = .done) && p (clVerb c.bits)))

/-- What row 4 meets (R223): `LAST_CHANGE` and the frame it names, rejected or not. -/
inductive KvChange where
  | ok
  | busy
  | seqOpen
  | frame (f : Nat)
deriving DecidableEq, Repr

/-- The check of row 4, made on a state `t` in which the change stands. R223 leaves open a pool of no frames and one of
more than 49,152: DESIGN CHOICE (log 67), EN = 1 with FRAMES = 0 is rejected with LAST_CHANGE 3 and BAD_FRAME 0, and a large
FRAMES is not rejected as such. -/
def State.kvChange (s t : State) : KvChange :=
  if s.anyOpen then .seqOpen
  else if s.startedVerb isKvVerb then .busy
  else if t.applied.poolEn then
    match t.badFrame with
    | some f => .frame f
    | none => if t.applied.poolFrames = 0 then .frame 0 else .ok
  else .ok

/-- A rejection of row 4 is recorded in `KVM_POOL_STATUS`; BAD_FRAME keeps its value over a later applied change (DESIGN
CHOICE, log 67). -/
def State.noteKv (s : State) (k : KvChange) : State :=
  match k with
  | .ok => s
  | .busy => s
  | .seqOpen => { s with kvm := { s.kvm with lastChange := 2 } }
  | .frame f => { s with kvm := { s.kvm with lastChange := 3, badFrame := BitVec.ofNat 16 f } }

/-- A row is rejected whole. -/
def State.rowBad (s : State) (r : Nat) : Bool :=
  let x := s.epoch.snap
  match r with
  | 1 => ntbBad x
  | 5 => s.steps.any (fun e => e.2.phase ≠ .open) || s.startedVerb (fun v => v == verbUpdate || v == verbDigest)
  | 8 => !x.syncRoot && x.syncChildren.getLsbD x.syncParent.toNat
  | _ => false

/-- The state in which some rows of the epoch in progress stand. -/
def State.withRows (s : State) (rows : List Nat) : State :=
  { s with applied := rows.foldl (fun a r => a.takeRow s.epoch.snap s.epoch.badCores s.epoch.badPorts r) s.applied }

def bitSet (w : BitVec 11) (r : Nat) : BitVec 11 := w ||| BitVec.ofNat 11 (2 ^ r)

/-- Every changed row is validated (R501). -/
def State.validateRows (s : State) : State :=
  let e := s.epoch
  let changed := e.snap.changed s.applied
  let whole := changed.filter s.rowBad
  let rest := changed.filter (fun r => !whole.contains r)
  let kv := if rest.contains 4 then s.kvChange (s.withRows (rest.filter (fun r => r == 1 || r == 4))) else KvChange.ok
  let rows := if kv = .ok then rest else delSet 4 rest
  let bad := if kv = .ok then whole else 4 :: whole
  let cores := if rows.contains 2 then (List.range 256).filter (s.cacheBlocked e.snap) else []
  let ports := if rows.contains 6 then (List.range 12).filter (poolBad e.snap) else []
  let partly := (if cores.isEmpty then [] else [2]) ++ (if ports.isEmpty then [] else [6])
  ({ s with epoch := { e with rows := rows, badCores := cores, badPorts := ports, rej := (bad ++ partly).foldl bitSet 0 } }).noteKv kv

/-! ### Object 1 across the chain (R503 to R505) -/

/-- A chain epoch is under way here. -/
def State.chainEpoch (s : State) : Bool := s.epoch.active && s.epoch.chain && !s.epoch.waiting

/-- Object 1 is released here. The prepare wave's release decides the epoch; the commit wave's ends it; a device without
an epoch passes the generation and raises an event (R505). -/
def State.releaseWave1 (s : State) (v mm : Bool) : State :=
  let w := s.epoch.wave
  let next : Wave := { Wave.idle with gen := !w.gen }
  let s1 := s.sendSyncDown { object := 1, gen := w.gen, value := v, mismatch := mm, step := 0 }
  let e := s1.epoch
  if s1.chainEpoch then
    match e.decided with
    | none =>
      let own := if s1.inReset then some (false, e.number.toNat) else none
      { s1 with epoch := { e with decided := some (!v && !mm), wave := { next with own := own } }
                glb := { s1.glb with epState := 3 } }
    | some _ => { s1 with epoch := { e with wave := { w with released := some (v, mm) } } }
  else ({ s1 with epoch := { e with wave := next } }).event .epochStray none 0 0 none 0 []

/-- Object 1 goes on once every arrival it waits for is there. A device in reset without an epoch counts as arrived with
value 0 (R306) and sends the NUMBER it holds. -/
def State.moveWave1 (s : State) : State :=
  let w := s.epoch.wave
  let kids := s.childPorts
  let here := if s.chainEpoch then w.own.isSome else s.inReset
  if w.sentUp || w.released.isSome || !here || !kids.all (fun p => (Tbl.find w.inputs p).isSome) then s
  else
    let c := w.combine w.own
    if s.applied.syncRoot then
      if w.own.isNone && kids.isEmpty then s else s.releaseWave1 c.1 c.2.1
    else if !s.portUp s.applied.syncParent.toNat then s
    else
      let step := c.2.2.getD s.glb.epNumber.toNat
      let s1 := s.sendSyncUp { object := 1, gen := w.gen, value := c.1, mismatch := c.2.1, step := step }
      { s1 with epoch := { s1.epoch with wave := { w with sentUp := true } } }

/-- Object 1 goes on; a commit wave in which this device has already arrived may follow at once. -/
def State.stepWave1 (s : State) : State := s.moveWave1.moveWave1

/-- This device arrives at object 1. -/
def State.arriveWave1 (s : State) (v : Bool) : State :=
  let e := s.epoch
  ({ s with epoch := { e with wave := { e.wave with own := some (v, e.number.toNat) } } }).stepWave1

/-- SYNC_UP of object 1. -/
def State.syncUp1 (s : State) (p : Nat) (f : Frame) : State :=
  let a := parseSync f.arg
  let w := s.epoch.wave
  if a.gen = w.gen ∧ w.released = none then
    let s1 := s.inboxTake p f
    ({ s1 with epoch := { s1.epoch with wave := { w with
        inputs := (w.inputs.filter (fun (e : Nat × Bool × Nat × Bool) => decide (e.1 < p))) ++ [(p, a.value, a.step, a.mismatch)]
          ++ (w.inputs.filter (fun (e : Nat × Bool × Nat × Bool) => decide (p < e.1))) } } }).stepWave1
  else if a.gen ≠ w.gen ∧ w.released.isSome then s
  else s.inboxTake p f

/-- SYNC_DOWN of object 1. -/
def State.syncDown1 (s : State) (p : Nat) (f : Frame) : State :=
  let a := parseSync f.arg
  let s1 := s.inboxTake p f
  if a.gen = s.epoch.wave.gen ∧ s.epoch.wave.released = none then (s1.releaseWave1 a.value a.mismatch).stepWave1 else s1

/-- The oldest VC 1 frame of a kind from a port that a unit can take now: one of the next wave waits (R330). -/
def State.nextSync (s : State) (p kind : Nat) : Option Frame :=
  let waits (f : Frame) : Bool :=
    let a := parseSync f.arg
    kind == 0 && (a.object == 0 && a.gen ≠ s.lnk.wave0.gen && s.lnk.wave0.released.isSome
      || a.object == 1 && a.gen ≠ s.epoch.wave.gen && s.epoch.wave.released.isSome)
  s.inboxFind p (fun f => f.vc == 1 && f.kind == kind && !waits f)

/-- SYNC_UP: an arrival from a child (R304, R305, R330, R503). Objects other than 0 and 1 do not span the chain. -/
def execSyncUp (port : Nat) (s : State) : Answer :=
  match s.nextSync port 0 with
  | none => .next s
  | some f =>
    let o := (parseSync f.arg).object
    .next (if o = 0 then s.syncUp0 port f else if o = 1 then s.syncUp1 port f else s.inboxTake port f)

/-- SYNC_DOWN: a release from the parent (R304, R305, R330, R503). -/
def execSyncDown (port : Nat) (s : State) : Answer :=
  match s.nextSync port 1 with
  | none => .next s
  | some f =>
    let o := (parseSync f.arg).object
    .next (if o = 0 then s.syncDown0 port f else if o = 1 then s.syncDown1 port f else s.inboxTake port f)

/-- ROOT_WAVE_TIMEOUT: the root has seen a first arrival of object 1 and waited for `GLB_EPOCH_TIMEOUT`: it releases the
wave with value 1 (R505). -/
def execRootWaveTimeout (object : Nat) (s : State) : Answer :=
  let w := s.epoch.wave
  if object = 1 ∧ s.applied.syncRoot ∧ (w.own.isSome ∨ w.inputs ≠ []) ∧ w.released = none then
    .next ((s.releaseWave1 true (w.combine w.own).2.1).stepWave1)
  else .next s

/-! ### The start of an epoch (R500 to R502, R545) -/

/-- Fields that a row drains: all for row 1, those covering a changed core or island for rows 2 and 3. -/
def State.rowFields (s : State) (r : Nat) : List Nat :=
  let x := s.epoch.snap
  let units : List Nat :=
    if r = 2 then (List.range 256).filter (fun n =>
      !s.epoch.badCores.contains n && x.cacheEn.contains n ≠ s.applied.cacheEn.contains n)
    else if r = 3 then (List.range 256).filter (fun n => Tbl.get 24 x.mainSlots n ≠ Tbl.get 24 s.applied.mainSlots n)
    else []
  if r = 1 then Tbl.keys s.fields
  else if r = 2 ∨ r = 3 then (s.fields.filter (fun f => f.2.cores.any (fun n => units.contains n))).map (·.1)
  else []

/-- An epoch begins: its rows are validated and the fields they name are paused. -/
def State.beginEpoch (s : State) : State :=
  let s1 := ({ s with epoch := { s.epoch with waiting := false } }).validateRows
  let fids := s1.epoch.rows.foldl (fun l r => (s1.rowFields r).foldl (fun m f => insSet f m) l) []
  ({ s1 with epoch := { s1.epoch with drained := fids }, glb := { s1.glb with epState := 1 } }).pauseFields fids

/-- GLB_EPOCH_CTRL is written without a request. -/
def State.setEpochCtrl (s : State) (ctrl : Word64) : State :=
  { s with glb := { s.glb with
      epNumber := BitVec.ofNat 32 (bits ctrl.toNat 63 32), epScope := bitAt ctrl.toNat 30, epIrqEn := bitAt ctrl.toNat 29
      epVector := BitVec.ofNat 11 (bits ctrl.toNat 28 18) } }

/-- An epoch is requested: ignored and counted while one is in progress; RESULT 6 where nothing differs; it waits for
start step 3, since it needs object 1 (R500, R545). -/
def State.requestEpoch (s : State) : State :=
  if s.epoch.active then s.ctrAdd glbEpochRejects 1
  else if s.staged.changed s.applied = [] then s.writeEpochStatus s.glb.epNumber 6 false 0
  else
    let e := { s.epoch with active := true, waiting := true, number := s.glb.epNumber, chain := s.glb.epScope, snap := s.staged }
    let s1 := { s with epoch := e }
    if s1.glb.step.toNat < 3 then s1 else s1.beginEpoch

/-- A write of GLB_EPOCH_CTRL (R507). -/
def State.writeEpochCtrl (s : State) (ctrl : Word64) : State :=
  let s1 := s.setEpochCtrl ctrl
  if bitAt ctrl.toNat 31 then s1.requestEpoch else s1

/-- EPOCH_REQUEST: a write of GLB_EPOCH_CTRL with REQ (R500). -/
def execEpochRequest (ctrl : Word64) (s : State) : Answer := .next (s.writeEpochCtrl ctrl)

/-! ### Draining (R501, R504) -/

/-- A clause that a link row waits for has started and not completed. -/
def State.crossStarted (s : State) : Bool :=
  s.rings.any (fun e => e.2.clauses.any (fun c => (c.phase = .started || c.phase = .done) && crossDevice c.bits))

/-- Ports hold no VC 2 to 4 frame in pools or replay storage (R504). -/
def State.portsQuiet (s : State) : Bool :=
  s.ports.all (fun e => (List.range 3).all (fun v => Tbl.get 0 e.2.pool (v + 2) == 0) && e.2.unacked.all (fun f => decide (f.vc < 2)))

/-- The epoch's drain is complete. -/
def State.drained (s : State) : Bool :=
  let e := s.epoch
  s.rings.all (fun r => !(r.1 ≠ 0 && e.drained.contains r.2.field) || !r.2.clauses.any ClauseSt.outstanding)
    && (!e.rows.any isLinkRow || (!s.crossStarted && s.portsQuiet))

/-- The device arrives at object 1: a local epoch is released at once by its own islands, a chain epoch takes part in the
prepare wave with the value of its validation (R501, R503). -/
def State.epochArrive (s : State) (v : Bool) : State :=
  if s.epoch.chain then ({ s with glb := { s.glb with epState := 2 } }).arriveWave1 v
  else { s with glb := { s.glb with epState := 3 }, epoch := { s.epoch with decided := some true } }

/-- EPOCH_DRAIN_DONE (R501, R503). -/
def execEpochDrainDone (s : State) : Answer :=
  if s.epoch.active ∧ !s.epoch.waiting ∧ s.glb.epState = 1 ∧ s.drained then .next (s.epochArrive (s.epoch.rej ≠ 0)) else .next s

/-- EPOCH_TIMEOUT: a local epoch aborts with RESULT 3; in a chain the device arrives with value 1 (R501, R503). -/
def execEpochTimeout (s : State) : Answer :=
  if s.epoch.active ∧ !s.epoch.waiting ∧ s.glb.epState = 1 then
    .next (if s.epoch.chain then s.epochArrive true else s.endEpoch 3 false)
  else .next s

/-! ### Applying (R501, R503, R506) -/

/-- Every page of a newly applied pool is free (R222, R223). -/
def State.startPool (s : State) : State :=
  let s1 := { s with kvm := { s.kvm with active := s.applied.poolEn, lastChange := 1, used := [], cache := [], freeing := [] } }
  if s.applied.poolEn then
    let fs := s1.poolFrames
    (poolColumns fs).foldl (fun t col =>
      let n := 16 * (pageFrames fs col).length
      t.writeDva 3 (t.poolDva (scratchFrame fs col) 15 0) (List.replicate n (some { byte := 0xFF, poison := false }))) s1
  else s1

/-- A change of row 1 drops what the front end has cached of the old tables (R499). -/
def State.forgetEntries (s : State) : State := { s with cmd := { s.cmd with nouns := [], chains := [] } }

/-- A vault cache that goes out of service, or comes into it, holds nothing (R149). That storage is not preserved:
DESIGN CHOICE (log 53), slice offsets 0x00_0000 to 0x1F_FFFF keep the bytes that they held. -/
def State.applyCaches (s : State) (old : List Nat) : State :=
  (List.range 256).foldl (fun t n => if old.contains n ≠ t.applied.cacheEn.contains n then t.dropCache n else t) s

/-- Rows of the epoch in progress are applied. Row 4 is judged again as it is applied (R223). -/
def State.applyRows (s : State) (rows : List Nat) : State :=
  let kv := if rows.contains 4 then s.kvChange (s.withRows (rows.filter (fun r => r == 1 || r == 4))) else KvChange.ok
  let go := if kv = .ok then rows else delSet 4 rows
  let rej := if kv = .ok then s.epoch.rej else bitSet s.epoch.rej 4
  let s1 := ({ s.withRows go with epoch := { s.epoch with rej := rej } }).noteKv kv
  let s2 := if go.contains 4 then s1.startPool else s1
  let s3 := if go.contains 2 then s2.applyCaches s.applied.cacheEn else s2
  (if go.contains 1 then s3.forgetEntries else s3).checkQuotas true

/-- The chain configuration record's digest (R309). -/
def State.digestConfig (s : State) : State :=
  { s with lnk := { s.lnk with cfgDigest := sha384 (s.dpaRead (s.applied.lnkChainBase.toNat * 4096) 4096) } }

/-- An epoch that has applied rows ends: the digest, IDENT on every port, then its status (R506). -/
def State.finishApplied (s : State) (missed : Bool) : State :=
  let s1 := if s.epoch.rows.isEmpty then s else s.digestConfig.sendIdents
  s1.endEpoch s1.appliedResult missed

/-- EPOCH_APPLY: at the release, a local epoch applies its rows and ends; in a chain the device applies them, all but
`LNK_SYNC_CFG`, or discards them, and arrives in the commit wave (R501, R503). -/
def execEpochApply (s : State) : Answer :=
  match s.epoch.decided with
  | none => .next s
  | some go =>
    if !s.epoch.active ∨ s.epoch.applied then .next s
    else if !s.epoch.chain then .next ((s.applyRows s.epoch.rows).finishApplied false)
    else if s.inReset then .next s
    else
      let s1 := if go then s.applyRows (delSet 8 s.epoch.rows) else s
      let s2 := { s1 with epoch := { s1.epoch with applied := true }, glb := { s1.glb with epState := 4 } }
      .next (if s2.epoch.wave.own.isSome || s2.epoch.wave.released.isSome then s2 else s2.arriveWave1 false)

/-- The commit wave is over for this device: `LNK_SYNC_CFG` takes effect, and the epoch ends. -/
def State.finishChain (s : State) (go missed : Bool) : State :=
  let s1 := { s with epoch := { s.epoch with wave := { Wave.idle with gen := !s.epoch.wave.gen } } }
  let s2 := if go then (s1.applyRows (s1.epoch.rows.filter (fun r => r == 8))).finishApplied missed else s1.endEpoch 4 missed
  s2.stepWave1

/-- EPOCH_COMMIT: the commit wave is released: held collectives and paused rings go on (R503). -/
def execEpochCommit (s : State) : Answer :=
  match s.epoch.decided, s.epoch.wave.released with
  | some go, some _ => if s.chainEpoch ∧ s.epoch.applied ∧ !s.inReset then .next (s.finishChain go false) else .next s
  | _, _ => .next s

/-! ### A compute-only reset (R497, R505) -/

/-- A reset begins: a local epoch is aborted with RESULT 5; in a chain epoch the device's drain counts as complete, and
it arrives where it has not. -/
def State.epochReset (s : State) : State :=
  if s.chainEpoch then
    if s.glb.epState = 1 then s.epochArrive (s.epoch.rej ≠ 0)
    else if s.epoch.decided.isSome ∧ s.epoch.wave.own.isNone ∧ s.epoch.wave.released.isNone then s.arriveWave1 false
    else s
  else if s.epoch.active ∧ !s.epoch.waiting then s.endEpoch 5 false
  else s.stepWave1

/-- A reset has ended: an epoch whose commit was released meanwhile is applied now, with MISSED, or discarded. -/
def State.epochAfterReset (s : State) : State :=
  match s.epoch.decided, s.epoch.wave.released with
  | some go, some _ =>
    if !s.chainEpoch then s
    else
      let s1 := if go ∧ !s.epoch.applied then s.applyRows (delSet 8 s.epoch.rows) else s
      s1.finishChain go (go && !s.epoch.applied)
  | _, _ => s

end Sys2Proof.Machine
end

