-- ==== Sys2Proof/Machine/HostMem.lean ====
section
/-! DEFINITION. Host CXL.mem accesses and the checker's raw accesses (02 R60, R70; 05 R147 to R151, R166; 06 R200, R201;
13 R444; 14 R461, R465; 15 R483, R495). -/

namespace Sys2Proof.Machine

/-- Host requests are held: in a compute-only reset, while flow is lost, after a trip, while DRAM refreshes itself (R171,
R444, R447, R495). -/
def State.hostHeld (s : State) : Bool :=
  s.glb.rstState ≠ 0 || decide (2 ≤ s.thm.flowState.toNat) || s.thm.trip || s.selfRef

/-- A request waits outside the vaults. -/
def State.hold (s : State) (w : Waiting) : State := { s with cxl := { s.cxl with held := s.cxl.held ++ [w] } }

/-- An access before READY is counted (R483). -/
def State.early (s : State) : State := { s with cxl := { s.cxl with discards := s.cxl.discards + 1 } }
/-- A read answered with poison: its bytes carry nothing (log 7). -/
def State.answerPoison (s : State) (dpa : Nat) : State :=
  ({ s with freeIdx := s.freeIdx + 64 } : State).answer (.data (dpa / 64 * 64) (s.freeBytes 64) true)

/-- A host read at its vault: answered, or waiting for its bank, an older request to its burst or a page repair (R166,
R167, R458). -/
def State.offerRead (s : State) (dpa : Nat) : State :=
  if s.burstWaits dpa || (s.bankHeld dpa && !s.readHits dpa) then s.wait (.read dpa false)
  else if s.readRepairs dpa then (s.startRepair (rowOfDpa dpa)).wait (.read dpa false)
  else s.serveRead dpa

/-- HOST_MEM_READ: a line of device memory with its poison (R147, R151, R166, R461, R483, R495). -/
def execHostMemRead (dpa : Nat) (s : State) : Answer :=
  if Config.dramBytes ≤ dpa then .fault (.noSuchAddress dpa)
  else if !s.glb.ready then .next (s.early.answerPoison dpa)
  else if s.hostHeld then .next (s.hold (.read dpa false))
  else .next (s.offerRead dpa)

/-- A host write of bytes within one line (R60, R200, R217, R461, R483, R495). -/
def State.hostStore (s : State) (dpa : Nat) (bs : List Byte) (poison : Bool) : State :=
  if !s.glb.ready then s.early.answer (.discarded dpa)
  else if s.hostHeld then s.hold (.write dpa bs poison false)
  else if s.seqGuarded dpa bs.length then s.dropSeqWrite dpa
  else
    -- its arrival closes the burst's combining entry (R160)
    let t := s.closeEntries dpa bs.length
    if t.dpaLocked dpa then
      let n := dpa / Config.vaultBytes
      (t.modVault n (fun v => { v with deferred := v.deferred ++ [.write dpa bs poison false] })).ctrAdd (0x800030 + 0x1000 * n) 1
    else if t.bankHeld dpa || t.burstWaits dpa then t.wait (.write dpa bs poison false)
    else t.serveWrite dpa bs poison

/-- HOST_MEM_WRITE: bytes from a DPA to at most the end of its line. -/
def execHostMemWrite (dpa : Nat) (bytes : List Byte) (poison : Bool) (s : State) : Answer :=
  if Config.dramBytes ≤ dpa then .fault (.noSuchAddress dpa)
  else .next (s.hostStore dpa (bytes.take (64 - dpa % 64)) poison)

/-- A waiting request moves to the core class. -/
def Waiting.promote : Waiting → Waiting
  | .read a _ => .read a true
  | .write a bs p _ => .write a bs p true
  | w => w

/-- The first host request of a queue that is not promoted, promoted; whether there was one. -/
def promoteFirst : List Waiting → List Waiting × Bool
  | [] => ([], false)
  | w :: r => if w.promote ≠ w then (w.promote :: r, true) else let p := promoteFirst r; (w :: p.1, p.2)

/-- HOST_REQUEST_PROMOTED: the oldest host request at a vault that waits at its own rank moves up; a scrubber request's
promotion changes no state that can be read (R166, R178). -/
def execHostRequestPromoted (vault : Nat) (isScrubber : Bool) (s : State) : Answer :=
  if isScrubber then .next s
  else
    let p := promoteFirst (s.vault vault).waiting
    if p.2 then .next ((s.modVault vault (fun v => { v with waiting := p.1 })).ctrAdd (vltHostPromoted vault) 1) else .next s

/-- DEFERRED_WRITE_RETRY: the oldest write deferred at a locked region of the vault is discarded with retry-later
semantics (R201). -/
def execDeferredWriteRetry (vault : Nat) (s : State) : Answer :=
  match (s.vault vault).deferred with
  | [] => .next s
  | w :: r =>
    let s1 := (s.modVault vault (fun v => { v with deferred := r })).ctrAdd (0x800038 + 0x1000 * vault) 1
    .next ((s1.event .retryLater none 2 vault none 0 [BitVec.ofNat 64 w.dpa]).answer (.retryLater w.dpa))

/-- A host read or write among held requests; raw accesses wait without limit. -/
def Waiting.isHost : Waiting → Bool
  | .read _ _ => true
  | .write _ _ _ _ => true
  | _ => false

/-- HELD_REQUEST_TIMEOUT: the oldest host request held by a reset or a loss of flow completes: a read with poison, a write
with retry-later semantics (R444, R495). -/
def execHeldRequestTimeout (s : State) : Answer :=
  match s.cxl.held.find? Waiting.isHost with
  | none => .next s
  | some w =>
    let s1 := { s with cxl := { s.cxl with held := s.cxl.held.erase w } }
    match w with
    | .read a _ => .next (s1.answerPoison a)
    | .write a _ _ _ => .next (s1.answer (.retryLater a))
    | _ => .next s

/-- Requests held outside the vaults are taken up once nothing holds them (R445, R496). -/
def State.takeHeld (s : State) : State :=
  if s.hostHeld then s
  else s.cxl.held.foldl (fun t w => match w with
    | .read a _ => t.offerRead a
    | .write a bs p _ => t.hostStore a bs p
    | _ => if t.dpaLocked w.dpa || t.bankHeld w.dpa || t.burstWaits w.dpa then t.wait w else t.serveRaw w)
    { s with cxl := { s.cxl with held := [] } }

/-! ### Checker test mode (R465) -/

/-- A raw access begins: host class, waiting where a host request would; one outside memory faults. -/
def State.rawAccess (s : State) (w : Waiting) : Answer :=
  if !s.err.chkEn || s.err.chkBusy then .next s
  else if Config.dramBytes ≤ w.dpa then .fault (.noSuchAddress w.dpa)
  else
    let s1 := { s with err := { s.err with chkBusy := true } }
    if s1.hostHeld then .next (s1.hold w)
    else if s1.bankHeld w.dpa || s1.burstWaits w.dpa || s1.dpaLocked w.dpa then .next (s1.wait w)
    else .next (s1.serveRaw w)

/-- EN and PARITY of a written ERR_CHK_CTRL take effect. -/
def State.setChkCtrl (s : State) (ctrl : Word32) : State :=
  { s with err := { s.err with chkEn := ctrl.getLsbD 0, chkParity := ctrl.getLsbD 1 } }
/-- The burst that ERR_CHK_ADDR names. -/
def State.chkDpa (s : State) : Nat := s.err.chkAddr.toNat * 64

/-- RAW_WRITE: a write of ERR_CHK_CTRL with OP 1 (R465). -/
def execRawWrite (ctrl : Word32) (s : State) : Answer :=
  let s1 := s.setChkCtrl ctrl
  if bits ctrl.toNat 3 2 = 1 then s1.rawAccess (.rawWrite s1.chkDpa s1.err.chkParity) else .next s1
/-- RAW_READ: a write of ERR_CHK_CTRL with OP 2 (R465). -/
def execRawRead (ctrl : Word32) (s : State) : Answer :=
  let s1 := s.setChkCtrl ctrl
  if bits ctrl.toNat 3 2 = 2 then s1.rawAccess (.rawRead s1.chkDpa) else .next s1

end Sys2Proof.Machine
end

