-- ==== Sys2Proof/Machine/Errors.lean ====
section
/-! DEFINITION. Correctable errors, page repair, scrub, parity errors of caches, error records and stress tests (14 R455
to R473; 11 R378, R379). -/

namespace Sys2Proof.Machine

/-! ### Page repair (R458, R459) -/

/-- PAGE_REPAIR: the bank is held for the repair of a row in which a read or a scrub found errors; it waits for a step or a
refresh in the bank, for the repair in progress, and for the refresh of a tier at debt 7 (R458). -/
def execPageRepair (vault row tier bank : Nat) (s : State) : Answer :=
  let key := rowKey vault row tier bank
  if !s.dram.rowBad key || (s.engine vault (16 * tier + bank)).token || (s.tier vault tier).refreshing then .next s
  else .next (s.startRepair key)

/-- PAGE_REPAIR_DONE: the row is rewritten; a repair that an engine's step waits for is counted, and the requests that
waited are served (R197, R207, R458, R459). -/
def execPageRepairDone (vault : Nat) (s : State) : Answer :=
  match (s.vault vault).repair with
  | some key =>
    let s1 := (s.repairRow key false).modVault vault (fun v => { v with repair := none })
    let s2 := if (s.engine vault (key % 128)).token then s1.ctrAdd (nbePageRepairs vault) 1 else s1
    .next ((s2.grantTokens vault).serveFree vault)
  | none => .next s

/-! ### Scrub (R378, R379, R466, R467) -/

/-- A row holds a byte of [lo, hi). -/
def rowInRange (key lo hi : Nat) : Bool :=
  (List.range 32).any (fun b => decide (lo < rowDpa key (64 * b) + 64) && decide (rowDpa key (64 * b) < hi))

/-- Rows of [lo, hi): each 256 KiB of a vault holds 128 rows, whose bursts take turns every 64 bytes (R152). -/
def rowsOf' (lo hi : Nat) : Nat :=
  if hi ≤ lo then 0
  else sumOf ((List.range ((hi - 1) / 2 ^ 18 - lo / 2 ^ 18 + 1)).map (fun i =>
    let a := (lo / 2 ^ 18 + i) * 2 ^ 18
    min 128 ((min hi (a + 2 ^ 18) - max lo a) / 64)))

/-- Scrub order of a row: vault, tier, bank, row. -/
def scrubOrder (key : Nat) : Nat := ((key / 128 / 3072 * 8 + key / 16 % 8) * 16 + key % 16) * 3072 + key / 128 % 3072

/-- Rows of [lo, hi) with a nonzero syndrome, in scrub order. -/
def State.badRows (s : State) (lo hi : Nat) : List Nat :=
  let keys := (s.dram.checks.map (fun e => rowOfDpa (4 * e.1)) ++ Tbl.keys s.dram.parity).filter (fun k => rowInRange k lo hi)
  ((keys.map scrubOrder).foldl (fun l k => insSet k l) []).map (fun o =>
    rowKey (o / 3072 / 128) (o % 3072) (o / 3072 / 16 % 8) (o / 3072 % 16))

/-- The finds of a row: word offset and code 1 word-corrected, 2 page-corrected, 3 uncorrectable. -/
def Dram.finds (d : Dram) (key : Nat) : List (Nat × Nat) :=
  let r := d.decodeRow key
  let bad := d.badWords key
  let raw := (List.range 2048).map (fun i => Cells.read d.cells (rowDpa key i))
  (List.range 512).filterMap (fun w =>
    if r.poisoned.contains (w / 8) then some (4 * w, 3)
    else match bad.find? (fun b => b.1 == 4 * w) with
      | some b => some (4 * w, if (wordFix b.2).isSome then 1 else 2)
      | none => if (raw.drop (4 * w)).take 4 = (r.bytes.drop (4 * w)).take 4 then none else some (4 * w, 2))

/-- A scrub's counts so far. -/
structure ScrubSum where
  corrected : Nat
  pages     : Nat
  lost      : Nat
  addrs     : List Nat
deriving DecidableEq, Repr

/-- One row of a scrub. -/
def State.scrubRow (s : State) (key : Nat) (x : ScrubSum) : State × ScrubSum :=
  let r := s.dram.decodeRow key
  let fresh := (r.poisoned.filter (fun f => !s.dram.poison.contains (rowDpa key (32 * f) / 32))).length
  let finds := s.dram.finds key
  (s.repairRow key true,
   { corrected := x.corrected + ((s.dram.badWords key).filter (fun w => (wordFix w.2).isSome)).length
     pages := x.pages + flag r.symbols
     lost := x.lost + 8 * fresh
     addrs := (x.addrs ++ finds.map (fun (f : Nat × Nat) => rowDpa key f.1 + f.2 * 2 ^ 60 + 2 ^ 63)).take 8 })

/-- The range that a scrub clause names. -/
def scrubLo (c : BitVec 512) : Nat := scrubStart c * 2048
def scrubHi (c : BitVec 512) : Nat := (scrubStart c + scrubPages c) * 2048

/-- A locked region lies in the range: the scrub waits for it (R466). -/
def State.scrubLocked (s : State) (lo hi : Nat) : Bool :=
  s.vaults.any (fun e => e.2.jobs.any (fun j => j.stage ≠ 0 && j.locked.any (fun (l : LockedRow) =>
    let a := e.1 * Config.vaultBytes + l.row * 2 ^ 18
    decide (a < hi) && decide (lo < a + 2 ^ 18))))

/-- SCRUB: every row of the range is read, rows with a nonzero syndrome are repaired, and the summary is written. -/
def State.scrub (s : State) (r : Nat) (c : ClauseSt) : State :=
  let lo := scrubLo c.bits
  let hi := scrubHi c.bits
  let rows := rowsOf' lo hi
  let before := (s.dram.poison.filter (fun f => rowInRange (rowOfDpa (32 * f)) lo hi)).length
  let z := (s.badRows lo hi).foldl (fun (p : State × ScrubSum) k => p.1.scrubRow k p.2)
    (s, { corrected := 0, pages := 0, lost := 0, addrs := [] })
  let x := z.2
  let words64 := [512 * rows, x.corrected, x.pages, x.lost, before, rows, c.startedAt.toNat, s.time.toNat]
    ++ x.addrs ++ List.replicate (24 - x.addrs.length) 0
  let elems := words64.flatMap (fun w => [w % 2 ^ 32, w / 2 ^ 32 % 2 ^ 32])
  let t := z.1.storeTensor (c.noun 0) (elems.map (fun w => some { Elem.zero with code := w }))
  t.workDone r c.index (fun y => { y with detail := min x.lost 0x7FFF })

def execScrub (ring slot : Nat) (s : State) : Answer :=
  match s.startedClause ring slot verbScrub with
  | some c => if s.scrubLocked (scrubLo c.bits) (scrubHi c.bits) then .next s else .next (s.scrub ring c)
  | none => .next s

/-! ### Parity errors of caches and buffers (R461) -/

def errCacheParity : Nat := 0x1100018

/-- CACHE_PARITY_ERROR: an entry is dropped and fetched again, and counted; a data buffer's flits become poisoned. -/
def execCacheParityError (t : ParityTarget) (s : State) : Answer :=
  match t with
  | .dataBuffer flits => .next { s with dram := { s.dram with poison := flits.foldl (fun p f => insSet f p) s.dram.poison } }
  | .sequence i => .next (({ s with kvm := { s.kvm with cache := s.kvm.cache.filter (fun j => decide (j ≠ i)) } } : State).ctrAdd errCacheParity 1)
  | .clause r k again =>
    match (s.ring r).clauseAt k with
    | some c =>
      if c.phase = .posted then
        .next ((s.modRing r (fun R => R.modClause c.index (fun x => { x with bits := again.bits, poison := again.poison }))).ctrAdd errCacheParity 1)
      else .next (s.ctrAdd errCacheParity 1)
    | none => .next s
  | .noun i => .next ((s.forgetNoun i).ctrAdd errCacheParity 1)
  | .translation _ => .next (s.ctrAdd errCacheParity 1)
  | .chain i =>
    .next (({ s with cmd := { s.cmd with chains := s.cmd.chains.filter (fun e => decide (e.1 ≠ i)) } } : State).ctrAdd errCacheParity 1)

/-! ### Error records (R472, R473) -/

def errCperSent : Nat := 0x1100008
def errCperSuppressed : Nat := 0x1100010
/-- The second of the time base. -/
def State.second (s : State) : Nat := s.time.toNat / 1000000000

/-- Events that the log still holds, oldest first: the others are not sent (R517). -/
def State.deliverable (s : State) : List Event :=
  match s.boot.events.getLast? with
  | some old => s.mgt.awaiting.filter (fun e => decide (old.seq ≤ e.seq))
  | none => []

def cperCreator : String := "5D2E0A91-3C7B-4F16-8B2D-9E40A6C1F358"
def cperFaultType : String := "5D2E0A92-3C7B-4F16-8B2D-9E40A6C1F358"
/-- Severity by kind (R473); of kind 7 a phase that a spare replaces is corrected (DEDUCED, log 68). -/
def cperSeverity (kind : Nat) (e : Event) : CperSeverity :=
  if kind = 1 ∨ kind = 0xD then .corrected
  else if kind = 7 then (if e.data.getD 1 0 = 1 then .corrected else .recoverable)
  else if kind = 9 then (if e.kind = .trip then .fatal else .recoverable)
  else if kind = 0xA then .informational
  else .recoverable
/-- The SD2 fault section (R473). -/
def State.faultSection (s : State) (kind : Nat) (e : Event) : List Byte :=
  natLe 4 (1 + 2 ^ 8 * kind + 2 ^ 16 * flag e.debug) ++ natLe 4 (e.unitClass % 256 + 2 ^ 16 * (e.unit % 2 ^ 16)) ++ natLe 8 e.time.toNat
    ++ natLe 4 (s.applied.deviceId.toNat + 2 ^ 16 * flag s.applied.idValid + 2 ^ 17 * (e.field.getD 0 % 64) + 2 ^ 23 * flag e.field.isSome)
    ++ natLe 4 e.step.toNat ++ natLe 4 (e.status % 2 ^ 12 + 2 ^ 16 * min 0xFFFF e.suppressed) ++ natLe 4 0
    ++ (List.range 4).flatMap (fun i => natLe 8 (e.data.getD i 0).toNat)
/-- The error record of an event. -/
def State.cperOf (s : State) (kind : Nat) (e : Event) : Cper :=
  { seq := e.seq, severity := cperSeverity kind e, creator := cperCreator, notification := cperCreator, faultType := cperFaultType
    fault := s.faultSection kind e, memory := e.memory }

/-- CPER_RECORD: with a receiver set and an event of a CPER kind next in sequence, its record is sent, or withheld when
64 of its kind have gone in this second (R472, R473, R517). -/
def execCperRecord (s : State) : Answer :=
  match s.mgt.receiver, s.deliverable with
  | some _, e :: r =>
    match e.cper with
    | none => .next s
    | some k =>
      let was := Tbl.get (0, 0) s.mgt.sentInSec k
      let sent := if was.1 = s.second then was.2 else 0
      let n := Tbl.get 0 s.mgt.suppressed k
      if sent < 64 then
        let m := { s.mgt with
          awaiting := r, sentInSec := Tbl.put (0, 0) s.mgt.sentInSec k (s.second, sent + 1), suppressed := Tbl.put 0 s.mgt.suppressed k 0 }
        .next ((({ s with mgt := m } : State).ctrAdd errCperSent 1).reply (.cper (s.cperOf k { e with suppressed := n })))
      else
        let m := { s.mgt with awaiting := r, suppressed := Tbl.put 0 s.mgt.suppressed k (n + 1) }
        .next (({ s with mgt := m } : State).ctrAdd errCperSuppressed 1)
  | _, _ => .next s

/-! ### Stress tests (R468 to R470) -/

/-- Cores of the rectangle that the registers name, those beyond the grid left out. -/
def Stress.rect (x : Stress) : List Nat :=
  (List.range (x.heightM1.toNat + 1)).flatMap (fun i => (List.range (x.widthM1.toNat + 1)).filterMap (fun j =>
    let r := x.row.toNat + i
    let c := x.col.toNat + j
    if r < 16 ∧ c < 16 then some (16 * r + c) else none))

/-- Fields of a written ERR_STRESS_CTRL. -/
def Stress.write (x : Stress) (v : Word32) : Stress :=
  let n := v.toNat
  { x with corners := BitVec.ofNat 5 (bits n 20 16), row := BitVec.ofNat 4 (bits n 15 12), col := BitVec.ofNat 4 (bits n 11 8)
           heightM1 := BitVec.ofNat 4 (bits n 7 4), widthM1 := BitVec.ofNat 4 (bits n 3 0) }

/-- A start is accepted or rejected (R468). -/
def State.stressBegin (s : State) : State :=
  let x := s.err.stress
  let put (y : Stress) : State := { s with err := { s.err with stress := y } }
  if x.state = 1 then put { x with reject := 2 }
  else if x.rect.any (fun c => s.fields.any (fun e => e.2.cores.contains c)) then put { x with state := 3, reject := 1 }
  else
    let todo := (List.range 5).filter (fun k => x.corners.getLsbD k)
    let t := put { x with state := 1, reject := 0, left := todo, corner := BitVec.ofNat 3 (todo.headD 0), cores := x.rect, failed := []
                          skipped := [], results := (List.range 256).map (fun c => (c, 3)) }
    { t with playa := { cells := t.playa.cells.filter (fun e => !x.rect.contains (e.1 / Config.sliceBytes))
                        checks := t.playa.checks.filter (fun e => !x.rect.contains (4 * e.1 / Config.sliceBytes)) } }

/-- STRESS_START: a write of ERR_STRESS_CTRL; START begins a test. -/
def execStressStart (ctrl : Word32) (s : State) : Answer :=
  let t := { s with err := { s.err with stress := s.err.stress.write ctrl } }
  .next (if ctrl.getLsbD 31 then t.stressBegin else t)

/-- STRESS_CORNER_DONE: the corner in progress is over; cores neither passed nor skipped have failed it (R469). -/
def execStressCornerDone (passed skipped : List Nat) (s : State) : Answer :=
  let x := s.err.stress
  match x.left with
  | [] => .next s
  | k :: r =>
    let skip := x.cores.filter (fun c => skipped.contains c)
    let fail := x.cores.filter (fun c => !skipped.contains c && !passed.contains c)
    .next { s with err := { s.err with stress := { x with
      left := r
      corner := BitVec.ofNat 3 (r.headD k)
      failed := x.failed ++ fail.map (fun c => (k, c))
      skipped := x.skipped ++ skip.map (fun c => (k, c)) } } }

/-- Result of a core: 0 PASS, 1 MARGINAL, 2 FAIL, 3 SKIPPED (R470, R478). -/
def Stress.result (x : Stress) (c : Nat) : Nat :=
  if x.failed.contains (0, c) then 2
  else if x.failed.any (fun e => e.2 == c) then 1
  else if x.skipped.any (fun e => e.2 == c) then 3 else 0

/-- A core's result acts (R470). -/
def State.stressAct (s : State) (c : Nat) : State :=
  let x := s.err.stress
  let v := x.result c
  let corner := match x.failed.find? (fun e => e.2 == c) with
    | some e => e.1
    | none => 0
  let s1 := { s with err := { s.err with stress := { s.err.stress with results := Tbl.put 0 s.err.stress.results c (BitVec.ofNat 2 v) } } }
  let note (t : State) : State := t.event .stress (some 0xC) 1 c none 0 [BitVec.ofNat 64 c, BitVec.ofNat 64 v, BitVec.ofNat 64 corner]
  if v = 2 then note ((s1.modCore c (fun k => { k with mappedOut := true })).finding 1 c 0 0)
  else if v = 1 then
    let old := Tbl.get (0, 0) s1.boot.vf c
    note { s1 with boot := { s1.boot with vf := Tbl.put (0, 0) s1.boot.vf c (old.1 + 125, old.2 + 1) } }
  else s1

/-- STRESS_RESULT: every corner has run, and each core receives its result. -/
def execStressResult (s : State) : Answer :=
  let x := s.err.stress
  if x.state = 1 ∧ x.left = [] then
    let t := x.cores.foldl State.stressAct s
    .next { t with err := { t.err with stress := { t.err.stress with state := 2 } } }
  else .next s

end Sys2Proof.Machine
end

