-- ==== Sys2Proof/Machine/Vault.lean ====
section
/-! DEFINITION. The vault channel: bursts and their repetition, read combining, lane sparing, half width, evacuation, and
refresh (05 R160 to R178; 06 R198). -/

namespace Sys2Proof.Machine

/-! ### VLT_LANE_STATUS (R177) -/

/-- The partner column p(n) (R175). -/
def partner (n : Nat) : Nat := if n % 16 = 15 then n - 1 else n + 1
def laneStatus (v : VaultSt) (n : Nat) : Nat :=
  v.mode.toNat * 2 ^ 30 + min 16 v.spares * 2 ^ 24 + min 2 v.cmdSpares * 2 ^ 20
    + (if v.mode = 1 then v.halfSel.toNat else 0) * 2 ^ 8 + partner n

/-- The management core hears of a change of a vault's lanes. -/
def State.laneEvent (s : State) (n : Nat) : State :=
  let data := [BitVec.ofNat 64 (laneStatus (s.vault n) n), BitVec.ofNat 64 (flag (s.vault n).sideDead)]
  -- an evacuating vault is to be retired: DEDUCED, log 68
  if (s.vault n).mode.toNat < 2 then s.event .vaultLane (some 4) 2 n none 0 data
  else s.memoryEvent .vaultLane 4 n data (memoryAt (n * Config.vaultBytes) 15)

/-! ### Sparing, half width, evacuation (R172 to R176) -/

/-- The vault's traffic moves to the side port; its cache is off, near-bank work there ends or leaves its engines, and the
vault goes to the defect list. -/
def State.evacuate (s : State) (n : Nat) : State :=
  if 2 ≤ (s.vault n).mode.toNat then s
  else
    let s1 := s.modVault n (fun v => { v with mode := 2, moving := true, halfSel := 0 })
    (((s1.dropCache n).laneEvent n).finding 5 n 0 0).leaveEngines n

/-- Failed lanes of one half of a sub-channel. -/
def VaultSt.halfFailed (v : VaultSt) (sub : Nat) (upper : Bool) : Nat :=
  (v.failedLanes.filter (fun l => l / 64 == sub && (decide (32 ≤ l % 64)) == upper)).length
/-- The chosen half of every sub-channel: the upper one where it has fewer failed lanes (R174). -/
def VaultSt.chooseHalves (v : VaultSt) : Nat :=
  (List.range 8).foldl (fun m s => if v.halfFailed s true < v.halfFailed s false then m + 2 ^ s else m) 0
/-- Failed lanes of the halves of a choice. -/
def VaultSt.halvesNeed (v : VaultSt) (sel : Nat) : Nat :=
  (List.range 8).foldl (fun m s => m + v.halfFailed s (bitAt sel s)) 0

/-- The channel moves to half width, pausing whole, or the vault is evacuated. -/
def State.toHalfWidth (s : State) (n : Nat) : State :=
  let v := s.vault n
  let sel := v.chooseHalves
  if v.halvesNeed sel ≤ 16 then
    s.setVault n { v with mode := 1, halfSel := BitVec.ofNat 8 sel, spares := v.halvesNeed sel, stopped := List.range 8 }
  else s.evacuate n

/-- A data lane has failed: a free spare takes its place; with none the channel moves to half width, and at half width
the vault is evacuated (R173 to R175). A lane of a half that is not in use needs no spare. -/
def State.failDataLane (s : State) (n sub lane : Nat) : State :=
  let v := s.vault n
  let s1 := s.setVault n { v with failedLanes := insSet (64 * sub + lane) v.failedLanes }
  if v.mode = 0 then
    if v.spares < 16 then s1.modVault n (fun x => { x with spares := x.spares + 1 }) else s1.toHalfWidth n
  else if v.mode = 1 then
    if bitAt v.halfSel.toNat sub ≠ decide (32 ≤ lane) then s1
    else if v.spares < 16 then s1.modVault n (fun x => { x with spares := x.spares + 1 }) else s1.evacuate n
  else s1

/-- A command lane has failed. -/
def State.failCmdLane (s : State) (n : Nat) : State :=
  if (s.vault n).cmdSpares < 2 then s.modVault n (fun x => { x with cmdSpares := x.cmdSpares + 1 }) else s.evacuate n

/-- LANE_TEST: the test pattern marks the failing lanes of a stopped sub-channel, and each is replaced; where none fails
the sub-channel goes on (R172 to R175). -/
def execLaneTest (vault sub : Nat) (dataLanes cmdLanes : List Nat) (s : State) : Answer :=
  if !(s.vault vault).stopped.contains sub || (s.vault vault).moving then .next s
  else if dataLanes.isEmpty && cmdLanes.isEmpty then
    .next ((s.modVault vault (fun v => { v with stopped := delSet sub v.stopped })).serveFree vault)
  else
    let s1 := dataLanes.foldl (fun t l => t.failDataLane vault sub l) s
    .next (cmdLanes.foldl (fun t _ => t.failCmdLane vault) s1)

/-- Lanes of a vault's channel whose window is too narrow: a data lane by sub-channel and place, a spare data lane, which is
then no longer free, or a command lane (R24, R26, R172). Lanes below 528 are the data lanes 64 s + l and their spares. -/
def State.failSweeps (s : State) (n : Nat) (xs : List LaneSweep) : State :=
  (xs.filter (fun x => !LaneSweep.passes x)).foldl (fun t x =>
    if 528 ≤ x.lane then t.failCmdLane n else t.failDataLane n (x.lane / 64) (x.lane % 64)) s

/-- SPARE_TRAINED: the spare's delay lines are set, and the sub-channel goes on, after a change to half width the whole
channel; a spare that fails its training is replaced in turn, a command spare by a command spare. DESIGN CHOICE (log 59):
with several lanes failed on one sub-channel, its first SPARE_TRAINED without a failure resumes it (R23, R173, R174). -/
def execSpareTrained (vault sub : Nat) (data cmds : List LaneSweep) (s : State) : Answer :=
  let v := s.vault vault
  let sweeps := data ++ cmds
  if !v.stopped.contains sub || v.moving then .next s
  else
    let s0 := s.setDelays sweeps
    if sweeps.any (fun x => !LaneSweep.passes x) then .next (s0.failSweeps vault sweeps)
    else
      let s1 := s0.modVault vault (fun v => { v with stopped := if v.stopped.length = 8 ∧ v.mode = 1 then [] else delSet sub v.stopped })
      .next ((s1.laneEvent vault).serveFree vault)

/-- SIDE_PORT_MOVE_DONE: the vault's requests go on through the side port, or find it dead (R175, R176). -/
def execSidePortMoveDone (vault : Nat) (trained : Bool) (s : State) : Answer :=
  if !(s.vault vault).moving then .next s
  else
    let s1 := s.modVault vault (fun v => { v with moving := false, stopped := [], sideDead := !trained })
    .next ((if trained then s1 else s1.laneEvent vault).serveFree vault)

/-! ### Bursts (R160 to R163, R463) -/

def burstDpa (b : Burst) : Nat := rowByteDpa b.vault b.row b.tier b.bank (64 * b.burst)
/-- CRC-6 of 512 bits: x^6 + x + 1, initial value zero. DESIGN CHOICE (log 60): bit 511 goes first (R162). -/
def crc6 (v : BitVec 512) : Nat :=
  (List.range 512).foldl (fun c i =>
    let top := (c / 32 % 2 == 1) != v.getLsbD (511 - i)
    Nat.xor (c * 2 % 64) (if top then 3 else 0)) 0
/-- The CRC of a burst holds: the code is linear, so what counts is the inverted bits alone (R162). -/
def burstHolds (b : Burst) : Bool := crc6 b.err == b.stErr.toNat % 64
/-- ST[7:6] of a read burst as received (R162). -/
def State.burstSt (s : State) (b : Burst) : Nat := Nat.xor (s.dram.burstStatus (burstDpa b / 64)) (b.stErr.toNat / 64)

/-- Repetitions of a sub-channel's burst. -/
def State.failBurst (s : State) (n sub : Nat) : State :=
  let v := s.vault n
  let k := Tbl.get 0 v.repeats sub
  if k < 3 then (s.setVault n { v with repeats := Tbl.put 0 v.repeats sub (k + 1) }).ctrAdd (vltCrcRepeat n) 1
  else s.setVault n { v with repeats := Tbl.drop v.repeats sub, stopped := insSet sub v.stopped }

/-- The combining entry of a burst. -/
def VaultSt.entryOf (v : VaultSt) (burst : Nat) : Option Combine := v.combine.find? (fun e => e.burst == burst)
/-- A read opens a combining entry when it issues, where one of the 32 is free, or joins the burst's (R160). `back`: its
data has returned. Readers beyond the opener cost no access of their own. -/
def State.combineRead (s : State) (n burst : Nat) (who : List Nat) (back : Bool) : State :=
  if who.isEmpty then s
  else
    let v := s.vault n
    match v.entryOf burst with
    | some e =>
      let new := who.filter (fun x => !e.requesters.contains x)
      (s.setVault n { v with combine := v.combine.map (fun x =>
        if x.burst = burst then { x with requesters := x.requesters ++ new, returned := x.returned || back } else x) }).ctrAdd
          (vltCombined n) new.length
    | none =>
      if v.combine.length < 32 then
        (s.setVault n { v with combine := v.combine ++ [{ burst := burst, requesters := who, returned := back }] }).ctrAdd
          (vltCombined n) (who.length - 1)
      else s

/-- The read may allocate a line: not for the scrubber, nor for a NOCACHE noun (R148, R158). -/
def State.mayAllocate (s : State) : BurstSource → Bool
  | .noun r k i => match (s.ring r).clauseAt k with
    | some c => !bitAt (c.noun i).placeArg 0
    | none => true
  | .walker => true
  | .scrubber => false

/-- A read burst has come back good: a status that asks for it starts a page repair, after which the read is repeated; else
its corrections are logged, its line is allocated, and it goes to its readers (R148, R160, R162, R458, R463). -/
def State.readBurst (s : State) (b : Burst) : State :=
  let a := burstDpa b
  let st := s.burstSt b
  if 2 ≤ st then s.startRepair (rowOfDpa a)
  else
    let s1 := s.combineRead b.vault (a / 64) b.requesters true
    let s2 := if s1.dpaPoison a 64 then s1.ctrAdd (errPoisonReads b.vault) 1 else s1
    let s3 := if st = 1 then s2.ceBurst a else s2
    (s3.cacheRead a (s.mayAllocate b.source && !s.bankPoison a 64) (max 1 b.requesters.length)).1

/-- BURST_RETURN: a read that finds its line in the column's cache, or its data in an open combining entry, takes no burst;
a burst whose CRC fails is repeated, up to three times, after which its sub-channel stops; a good read goes to its readers,
a write closes its burst's entry (R147, R148, R160 to R163, R463). A burst whose bank is held has not come back. -/
def execBurstReturn (b : Burst) (s : State) : Answer :=
  let n := b.vault
  let a := burstDpa b
  let sub := b.bank / 2
  if !b.isWrite && s.readHits a then
    .next (((s.cacheRead a false (max 1 b.requesters.length)).1).playaSeen n ((s.cachedAt a).getD (n, 0)).2 64)
  else if s.vaultRetired n || s.bankHeld a then .next s
  else if !b.isWrite && !b.requesters.isEmpty && (match (s.vault n).entryOf (a / 64) with
      | some e => e.returned
      | none => false) then
    .next ((s.cacheRead a false b.requesters.length).1.combineRead n (a / 64) b.requesters true)
  else
    let s1 := s.ctrAdd (if b.isWrite then vltWrBursts n else vltRdBursts n) 1
    if !burstHolds b then
      .next ((if b.isWrite then s1 else s1.combineRead n (a / 64) b.requesters false).failBurst n sub)
    else
      let s2 := s1.modVault n (fun x => { x with repeats := Tbl.drop x.repeats sub })
      .next (if b.isWrite then s2.closeEntries a 64 else s2.readBurst b)

/-- COMBINE_WINDOW_EXPIRY: the entry closes; `late` joined after its data had returned, and had their own copies (R160). -/
def execCombineWindowExpiry (vault burst : Nat) (late : List Nat) (s : State) : Answer :=
  if (s.vault vault).combine.any (fun e => e.burst == burst) then
    .next ((s.modVault vault (fun v => { v with combine := v.combine.filter (fun e => decide (e.burst ≠ burst)) })).ctrAdd
      (vltCombined vault) late.length)
  else .next s

/-! ### Refresh (R168 to R171, R198) -/

/-- REFRESH_DUE: the debt rises by 1, never above 8; from 4 on the tier's engines stop at their boundaries (R170, R198). -/
def execRefreshDue (vault tier : Nat) (s : State) : Answer :=
  if s.selfRef then .next s
  else
    let t := s.tier vault tier
    let debt := min 8 (t.debt + 1)
    .next ((s.setTier vault tier { t with debt := debt, yielding := t.yielding || decide (4 ≤ debt) }).ctrMax (vltRefDebtMax vault) debt)

/-- A request of ranks 2 to 5 waits for the tier (R165). -/
def State.tierWanted (s : State) (n t : Nat) : Bool :=
  (s.vault n).waiting.any (fun w => (decodeStandard w.dpa).tier == t) || (List.range 16).any (fun b => s.engineBusy n (16 * t + b))

/-- The 16 banks of the tier are closed: no engine steps in them, no row is under repair, and no other tier of the
vault is at its refresh (R168, R198). -/
def State.tierClosed (s : State) (n t : Nat) : Bool :=
  s.tierTokens n t == 0 && (List.range 8).all (fun k => !(s.tier n k).refreshing)
    && (match (s.vault n).repair with
        | some key => key / 16 % 8 ≠ t
        | none => true)

/-- A retune of the channel to a tier that rides on its refresh: the lanes' delay lines are set and the tune is noted; a
narrow lane is spared, and the management core hears of it (R25, R26, R172). -/
def State.retuneTier (s : State) (n t : Nat) (sweeps : List LaneSweep) : State :=
  if !(s.vault n).retune.contains t then s
  else
    let mine := sweeps.filter (fun x => x.column == n && x.crossing == 1 + t)
    let s1 := (s.setDelays mine).modVault n (fun v => { v with retune := delSet t v.retune })
    let s2 := ((mine.filter (fun x => !LaneSweep.passes x)).foldl (fun u x =>
      (u.event .retuneNarrow none 2 n none 0 [BitVec.ofNat 64 x.lane]).finding (if 528 ≤ x.lane then 4 else 3) n
        (if 528 ≤ x.lane then x.lane - 528 else x.lane) 0) (s1.failSweeps n mine))
    s2.noteTune n (1 + t)

/-- REFRESH_ISSUE: one row index of the tier's banks is refreshed; a refresh of debt 1 to 3 only while nothing waits for
the tier. A retune of the tier's channel that is due takes place in it (R25, R165, R168, R170). -/
def execRefreshIssue (vault tier : Nat) (sweeps : List LaneSweep) (s : State) : Answer :=
  let t := s.tier vault tier
  if s.selfRef || t.debt = 0 || !s.tierClosed vault tier || (decide (t.debt < 4) && s.tierWanted vault tier) then .next s
  else
    let s1 := s.setTier vault tier { t with debt := t.debt - 1, refreshing := true, rowIndex := (t.rowIndex + 1) % 3072 }
    let s2 := if t.yielding then s1.ctrAdd (nbeRefreshYields vault) 1 else s1
    .next (s2.retuneTier vault tier sweeps)

/-- REFRESH_COMPLETE: tRFC has ended; engines resume unless the debt still stands at 4, and waiting requests are served
(R168, R198). -/
def execRefreshComplete (vault tier : Nat) (s : State) : Answer :=
  let t := s.tier vault tier
  if !t.refreshing then .next s
  else
    let s1 := s.setTier vault tier { t with refreshing := false, yielding := decide (4 ≤ t.debt) }
    .next ((s1.serveFree vault).grantTokens vault)

/-! ### Self-refresh (R171) -/

/-- DRAM enters self-refresh: the tiers refresh themselves, and their debt is cleared. -/
def State.enterSelfRefresh (s : State) : State :=
  { s with
    selfRef := true
    tiers := s.tiers.filterMap (fun e =>
      let t := { e.2 with debt := 0, refreshing := false, yielding := false }
      if t = TierSt.reset then none else some (e.1, t)) }

/-- DRAM leaves self-refresh: each tier restarts at debt 0, engines may step, and requests that waited are served. -/
def State.leaveSelfRefresh (s : State) : State :=
  if !s.selfRef then s
  else
    let s1 := { s with selfRef := false }
    -- requests that waited come before those held meanwhile and before the next engine steps (R166, R167)
    (Tbl.keys s1.vaults).foldl (fun t n => t.grantTokens n) s1.serveAllFree.takeHeld

end Sys2Proof.Machine
end

