-- ==== Sys2Proof/Machine/Reset.lean ====
section
/-! DEFINITION. Defects applied to the device, and the compute-only reset (15 R488, R491 to R497; 10 R335; 14 R475). -/

namespace Sys2Proof.Machine

/-! ### Defects as they are applied (R488) -/

/-- A defective data lane, 512 to 527 being the spares, found before the channel is trained (R173 to R176): what no
spare and no half width can carry retires the vault. -/
def VaultSt.spareLane (v : VaultSt) (lane : Nat) : VaultSt :=
  let v1 := if lane < 512 then { v with failedLanes := insSet lane v.failedLanes } else v
  if v.mode = 0 then
    if v.spares < 16 then { v1 with spares := v.spares + 1 }
    else
      let sel := v1.chooseHalves
      if v1.halvesNeed sel ≤ 16 then { v1 with mode := 1, halfSel := BitVec.ofNat 8 sel, spares := v1.halvesNeed sel }
      else { v1 with mode := 3 }
  else if v.mode = 1 then
    if decide (lane < 512) && bitAt v.halfSel.toNat (lane / 64) ≠ decide (32 ≤ lane % 64) then v1
    else if v.spares < 16 then { v1 with spares := v.spares + 1 } else { v1 with mode := 3 }
  else v1
/-- A defective command lane found before training. -/
def VaultSt.spareCmd (v : VaultSt) : VaultSt := if v.cmdSpares < 2 then { v with cmdSpares := v.cmdSpares + 1 } else { v with mode := 3 }

/-- A row that fails a test is steered to one of its bank's 16 spares; a bank that needs more retires its vault (R484). -/
def VaultSt.spareRow (v : VaultSt) (bank row : Nat) : VaultSt :=
  if v.remapped.contains (bank, row) then v
  else
    let x := { v with remapped := v.remapped ++ [(bank, row)] }
    if 16 < (x.remapped.filter (fun e => e.1 == bank)).length then { x with mode := 3 } else x

/-- A mesh link is out at both its ends. -/
def State.cutLink (s : State) (island dir : Nat) (control : Bool) : State :=
  let s1 := s.setRouter island ((s.router island).failLink dir control)
  match neighbour island dir with
  | some m => s1.setRouter m ((s1.router m).failLink (opposite dir) control)
  | none => s1

/-- An entry of the defect list, or a finding of a test, is applied. -/
def State.applyDefect (s : State) (d : Defect) : State :=
  match d.kind with
  | 1 => if d.unit < 256 then (s.loseCore d.unit).modDom d.unit (fun x => { x with power := 0 }) else s
  | 2 => if d.unit < 256 then (s.loseCore d.unit).modDom d.unit (fun x => { x with power := 0 }) else s
  | 3 => if d.unit < 256 then s.modVault d.unit (fun v => v.spareLane d.sub) else s
  | 4 => if d.unit < 256 then s.modVault d.unit VaultSt.spareCmd else s
  | 5 => if d.unit < 256 then (s.modVault d.unit (fun v => { v with mode := 3 })).dropCache d.unit else s
  | 6 => if d.unit < 256 ∧ d.sub < 128 then s.modVault d.unit (fun v => { v with dark := insSet d.sub v.dark }) else s
  | 7 => if d.unit < 256 ∧ d.sub < 4 then s.cutLink d.unit d.sub false else s
  | 8 => if d.unit < 256 ∧ d.sub < 4 then s.cutLink d.unit d.sub true else s
  | 9 => if d.unit < Config.domains then s.failPhase d.unit d.sub else s
  | 10 => if d.unit < Config.domains then (if d.unit < 256 then (s.cutDomain d.unit).loseCore d.unit else s.cutDomain d.unit) else s
  | 11 => if d.unit < Config.sensors then s.setSensor d.unit { s.sensor d.unit with state := 3 } else s
  | 12 => if d.unit < 12 ∧ d.sub < 8 then s.modPort d.unit (fun x => { x with badLanes := x.badLanes ||| BitVec.ofNat 8 (2 ^ d.sub) }) else s
  | 13 =>
    if d.unit < 256 ∧ d.sub < 3072 ∧ d.sub2 < 128 then
      let t := s.modVault d.unit (fun v => v.spareRow d.sub2 d.sub)
      if (t.vault d.unit).mode = 3 then t.dropCache d.unit else t
    else s
  | _ => s

/-- Findings of a test act at once and wait to be merged (R489, R496). -/
def State.takeFindings (s : State) (l : List Defect) : State :=
  l.foldl (fun t d => (t.applyDefect d).finding d.kind d.unit d.sub d.sub2) s

/-- A regulator fails its self-test: handled as a whole-regulator failure, the other cores of the group counting as powered
while the tests run (R398, R399, R486; DEDUCED, log 71). -/
def State.regulatorUntested (s : State) (failing : List Nat) (d : Nat) : State :=
  let x := s.dom d
  let takes (p : Nat) : Bool :=
    let y := s.dom p
    y.power != 3 && y.regOk && y.bridge == 0x1FF && y.derate == 0 && !failing.contains p
      && !(coreGroup p).any (fun m => (s.dom m).bridge.toNat == p)
  if x.power = 3 ∨ !x.regOk then s
  else if d < 256 then
    match [groupSide d, groupAbove d].find? takes with
    | some p => (s.setDom d { x with regOk := false, bypass := false, bridge := BitVec.ofNat 9 p }).regulatorEvent d 2 p
    | none => s.darkDomain d
  else if s.bypassAdmits d then (s.setDom d { x with regOk := false, bypass := true }).regulatorEvent d 2 0x1FF
  else s.darkDomain d
def State.regulatorsTested (s : State) (failing : List Nat) : State := failing.foldl (fun t d => t.regulatorUntested failing d) s

/-! ### Entry (R491 to R495) -/

/-- Something holds the reset, or keeps it from leaving (R491, R497, R410). -/
def State.resetHeld (s : State) : Bool := s.glb.hold || s.glb.holdMgt || s.glb.holdSag || s.thm.trip || s.glb.collapsed

/-- A clause that has started and not completed is ended: no signal, no record, its write operands undefined; it is
posted again, as is one that has issued and not started (R493). -/
def State.endClause (s : State) (r : Nat) (c : ClauseSt) : State :=
  if !c.outstanding then s
  else
    let s1 := if c.phase = Phase.started ∨ c.phase = Phase.done then s.undefineOutputs c else s
    (s1.releaseWork r c.index).modRing r (fun R => R.modClause c.index ClauseSt.repost)
def State.endClauses (s : State) : State :=
  s.rings.foldl (fun t e => e.2.clauses.foldl (fun u c => u.endClause e.1 c) t) s

/-- Every cross-device collective is aborted on CTRL (R303, R494). -/
def State.abortColls (s : State) : State :=
  let s1 := s.colls.foldl (fun t c => c.grp.neighbours.foldl (fun u d => u.sendCtrl d 2 c 0) t) s
  { s1 with colls := [] }

/-- Host requests that wait at the vaults, or are deferred there, are held from here on (R495). -/
def State.holdAtVaults (s : State) : State :=
  let held := s.vaults.flatMap (fun e => e.2.waiting ++ e.2.deferred)
  let s1 := s.vaults.foldl (fun t e => t.modVault e.1 (fun v => { v with waiting := [], deferred := [] })) s
  { s1 with cxl := { s1.cxl with held := s1.cxl.held ++ held } }

/-- A stress test in progress is aborted: cores that have failed no corner read SKIPPED (R497). -/
def State.abortStress (s : State) : State :=
  let x := s.err.stress
  if x.state ≠ 1 then s
  else
    let t := (x.cores.filter (fun c => x.failed.any (fun f => f.2 == c))).foldl State.stressAct s
    { t with err := { t.err with stress := { t.err.stress with state := 2, left := [] } } }

/-- Waves of the device's step owners end with the reset: object 0 counts this device as arrived (R306). -/
def State.resetWaves (s : State) : State :=
  let w := s.lnk.wave0
  let s1 : State := { s with
    steps := s.steps.map (fun e => (e.1, { e.2 with owing := none, waveKind := 0, outcome := 0, stallFrom := none, wave := Wave.idle }))
    slow := s.slow.filterMap (fun e =>
      let x := { e.2 with stall := none }
      if x = SlowSt.reset then none else some (e.1, x))
    lnk := { s.lnk with wave0 := if w.released.isSome then { Wave.idle with gen := !w.gen } else w } }
  s1.stepWave0

/-- A compute-only reset begins (R493, R494). -/
def State.beginReset (s : State) : State :=
  let s1 := ({ s with glb := { s.glb with rstState := 1, rstAgain := false } }).sendIdents
  (s1.abortColls.endClauses.holdAtVaults.abortStress.resetWaves.epochReset).settleBarriers.pumpAll

/-- A compute-only reset is requested: merged with one that enters or is in reset, kept while one leaves (R491). Before
READY there is nothing to reset. -/
def State.requestReset (s : State) : State :=
  if !s.glb.ready then s
  else if s.glb.rstState = 0 then s.beginReset
  else if s.glb.rstState = 3 then { s with glb := { s.glb with rstAgain := true } }
  else s

/-- Core, fabric and Playa domains come up on VBYP, those of cores and slices that no field needs staying off (R400, R496). -/
def State.domainsOnVbyp (s : State) : State :=
  (List.range 288).foldl (fun t d =>
    if (t.dom d).power = 3 ∨ (wakes d && !t.domCovered d) then t
    else t.modDom d (fun x => { x with power := 2, bypass := true, switching := none, vset := if x.bridge = 0x1FF then 750 else x.vset })) s

/-- The reset leaves once its entry is complete and nothing holds it (R491, R496). -/
def State.tryLeave (s : State) : State :=
  if s.glb.rstState = 2 ∧ !s.resetHeld then { s.domainsOnVbyp with glb := { s.glb with rstState := 3 } } else s

/-- A hold becomes active: while the reset leaves, it acts as a request (R491). -/
def State.holdActs (s : State) : State := if s.glb.rstState = 3 then { s with glb := { s.glb with rstAgain := true } } else s

/-! ### What the reset clears (R492) -/

/-- A core without its images, queues and array state. -/
def CoreSt.cleared (c : CoreSt) : CoreSt :=
  { CoreSt.reset with mappedOut := c.mappedOut, tunes := c.tunes, trim := c.trim }

/-- A vault without near-bank work, combining entries and repairs. -/
def VaultSt.cleared (v : VaultSt) : VaultSt :=
  { v with combine := [], waiting := [], deferred := [], repair := none, jobs := [], quota := 0, nextEngine := 0, stopped := [] }

/-- Counters of R114 that a compute-only reset keeps: `GLB_EPOCH_REJECTS`. -/
def keptCounter (off : Nat) : Bool := off == 0x118

/-- The debug unlock ends, and every slot is disarmed (R475). -/
def State.lockDebug (s : State) : State :=
  let t := s.dbg.slots.foldl (fun (u : State) e => u.endForced e.2 (u.forcedCycles e.2)) s
  ({ t with dbg := { t.dbg with unlocked := false, slots := t.dbg.slots.filterMap (fun e =>
      let x := { e.2 with arm := false, armedAt := 0 }
      if x = DbgSlot.reset then none else some (e.1, x)) } } : State).noteSensors s

/-- DBG_NONCE is renewed: a free value (R475, R523, R551; log 7). -/
def State.renewNonce (s : State) : State := { s with dbg := { s.dbg with nonce := s.free } }.tookFree

/-- Core, fabric and Playa domains off; a dark one stays dark. -/
def State.coreDomainsOff (s : State) : State :=
  (List.range 288).foldl (fun t d =>
    if (t.dom d).power = 3 then t else t.modDom d (fun x => { x with power := 0, ramp := 0, throttled := [] })) s

/-- Loaded images, Playa contents, near-bank state, slots, caches, sync objects of fields, NF bits, counters, the unlock. -/
def State.clearCompute (s0 : State) : State :=
  let s : State := if s0.dbg.unlocked then s0.lockDebug.renewNonce else s0.lockDebug
  let s1 : State := { s with
    playa := Slices.reset
    ctr := s.ctr.filter (fun e => keptCounter e.1)
    cores := s.cores.filterMap (fun e => if e.2.cleared = CoreSt.reset then none else some (e.1, e.2.cleared))
    vaults := s.vaults.filterMap (fun e => if e.2.cleared = VaultSt.reset then none else some (e.1, e.2.cleared))
    engines := s.engines.filterMap (fun e => if e.2.dead then some (e.1, { EngineSt.reset with dead := true }) else none)
    caches := []
    slots := []
    reducing := []
    decodes := []
    routers := s.routers.filterMap (fun e =>
      let x := { e.2 with queue := [], reserved := [], promoted := 0, waiters := [], replays := [] }
      if x = RouterSt.reset then none else some (e.1, x))
    sync := s.sync.filter (fun e => decide (e.1 < 64))
    steps := s.steps.map (fun e => (e.1, { e.2 with nf := false, nfHeld := false }))
    fields := s.fields.map (fun e => (e.1, { e.2 with rbufs := e.2.rbufs.map (fun b => { b with pass := 0, queue := [] }) }))
    kvm := { s.kvm with appends := [], reading := [], order := [] }
    pwr := { s.pwr with wakes := [], tokens := [] } }
  s1.coreDomainsOff

/-- Page repairs in progress are completed (R494). -/
def State.finishRepairs (s : State) : State :=
  s.vaults.foldl (fun t e => match e.2.repair with
    | some key => t.repairRow key false
    | none => t) s

/-- RESET_ENTRY_DONE: bursts and page repairs are completed, DRAM is in self-refresh, and the Erg, Playa and Dune logic is held in reset
(R492, R494). -/
def execResetEntryDone (s : State) : Answer :=
  if s.glb.rstState ≠ 1 then .next s
  else
    let s1 := s.finishRepairs.enterSelfRefresh.clearCompute
    .next ({ s1 with glb := { s1.glb with rstState := 2 } }).tryLeave

/-! ### Leaving (R493, R496) -/

/-- Domains on their own regulators; a core or Playa domain that no field needs stays off (R400). -/
def State.domainsUp (s : State) : State :=
  (List.range 288).foldl (fun t d =>
    if (t.dom d).power = 3 ∨ (wakes d && !t.domCovered d) then t
    else t.modDom d (fun x => { x with power := 2, bypass := !x.regOk && x.bridge == 0x1FF, switching := none })) s

/-- The standard kernel in both halves of every core that has power (R117, R496). -/
def State.loadKernels (s : State) : State :=
  (List.range 256).foldl (fun t n =>
    if (t.dom n).power = 2 ∧ !(t.core n).mappedOut ∧ t.glb.kstoreOk then (t.noteTunes n).modCore n CoreSt.loadStandard else t) s

/-- A ring that holds a posted clause is flushed up to the producer index read now; it is then IDLE, or stays PAUSED for
a chain epoch (R493, R505). -/
def State.resetFlush (s : State) (r : Nat) : State :=
  let s1 := s.readProducer r
  let x := s1.ring r
  if !x.isOpen then s
  else if x.clauses.isEmpty && x.produced == x.fetched then s1.tryClose r
  else
    let s2 := s1.flushRing r
    let s3 := if r = 0 ∧ s2.cmd.r0State = 2 then { s2 with cmd := { s2.cmd with r0State := 1 } } else s2
    s3.tryClose r
def State.resetFlushAll (s : State) : State := (Tbl.keys s.rings).foldl State.resetFlush s

/-- Step owners in PASS or SKIP return to OPEN with STEP unchanged; what the step staged or had decided is disregarded
(R335). -/
def State.openSteps (s : State) : State :=
  let s1 := s.steps.foldl (fun t e =>
    (t.slowSets e.1).foldl (fun u i =>
      let x := u.slowSet i
      let n := e.2.step.toNat
      u.setSlow i { staged := x.staged.filter (fun k => decide (k < n)), committed := x.committed.filter (fun k => decide (k < n)),
                    applied := x.applied.filter (fun k => decide (k < n)), stall := none }) t) s
  { s1 with steps := s1.steps.map (fun e => (e.1, { e.2 with phase := .open, applied := [], forced := false })) }

/-- DRAM need not refresh itself for a sag, a loss of flow or a trip (R446). -/
def State.dramFree (s : State) : Bool := decide (s.pwr.sagStage < 5) && decide (s.thm.flowState.toNat < 2) && !s.thm.trip

/-- The reset ends: a newly activated standard kernel runs, rings flushed, owners OPEN, held requests served, IDENT and
interrupt (R493, R496, R505, R518). -/
def State.endReset (s : State) : State :=
  let k := runningCopy s.boot.fwKernel
  let s0 := { s with
    glb := { s.glb with minor := BitVec.ofNat 8 k.minor }, mgt := { s.mgt with active := (s.mgt.active.1, k.version, s.mgt.active.2.2) } }
  let s1 := s0.domainsUp.loadKernels.resetFlushAll.openSteps
  let again := s1.glb.rstAgain
  let s2 := { s1 with glb := { s1.glb with rstState := 0, rstAgain := false } }
  let s3 := (if s2.dramFree then s2.leaveSelfRefresh else s2).takeHeld.sendIdents
  let s4 := s3.epochAfterReset
  let s5 := if s4.glb.rstIrqEn then s4.raiseMsix s4.glb.rstVector.toNat else s4
  let s6 := s5.stepWave0.issueAll.pumpAll
  if again then s6.requestReset else s6

/-- RESET_LEAVE_DONE: units and regulators that failed a test on the way out are applied at once and written as findings
(R496). A trip keeps the reset from leaving (R497). -/
def execResetLeaveDone (host : HostView) (found : LeaveTests) (s : State) : Answer :=
  if s.glb.rstState ≠ 3 ∨ s.thm.trip ∨ s.glb.collapsed then .next s
  else .next (((s.seeHost host).takeFindings found.found).regulatorsTested found.regs).endReset

end Sys2Proof.Machine
end

