-- ==== Sys2Proof/Machine/Power.lean ====
section
/-! DEFINITION. The power controller: the cap and its sharing, engine tokens, sags, calibration, cracked connections,
telemetry (12 R390 to R421; 06 R202; 13 R441; 01 R25). Powers are in mW, currents in mA unless a name says otherwise. -/

namespace Sys2Proof.Machine

/-! ### The effective cap (R413) -/

/-- The least cap in W and its source: 0 device, 1 host, 2 management, 3 brake; the first of equal ones. -/
def Pwr.leastCap (p : Pwr) : Nat × Nat :=
  let all := [(1800, 0), (min 1800 p.hostCap.toNat, 1), (min 1800 p.mgtCap.toNat, 2)] ++ (if p.brake then [(p.brakeCap.toNat, 3)] else [])
  all.foldl (fun m c => if c.1 < m.1 then c else m) (1800, 0)
/-- The effective cap in W. -/
def Pwr.capEff (p : Pwr) : Nat := max 400 p.leastCap.1
def Pwr.capSource (p : Pwr) : Nat := p.leastCap.2

/-- The cap has changed from `p`: where it fell with a cross-device collective in progress, and not by the brake, the link
class keeps the larger of its allocation and its demand (R417). -/
def State.noteCap (s : State) (p : Pwr) : State :=
  if s.pwr.capEff < p.capEff ∧ s.colls ≠ [] then
    ({ s with pwr := { s.pwr with
        linkHold := true, holdColls := s.colls.map (fun (c : Coll) => (c.ring, c.index)), holdAlloc := max s.pwr.allocLink s.pwr.demLink } }).ctrAdd pwrHolds 1
  else s
def State.setHostCap (s : State) (w : Nat) : State := ({ s with pwr := { s.pwr with hostCap := BitVec.ofNat 12 w } }).noteCap s.pwr
def State.setMgtCap (s : State) (w : Nat) : State := ({ s with pwr := { s.pwr with mgtCap := BitVec.ofNat 12 w } }).noteCap s.pwr

/-- BRAKE_ASSERT: PWR_BRAKE_N changes; its fall of the cap gets no hold (R413, R417). -/
def execBrakeAssert (asserted : Bool) (s : State) : Answer :=
  .next { s with pwr := { s.pwr with brake := asserted }, pins := { s.pins with brake := asserted } }

/-- LINK_HOLD_END: the collectives of the hold are over, or 2 ms have passed (R417). -/
def execLinkHoldEnd (s : State) : Answer :=
  .next { s with pwr := { s.pwr with linkHold := false, holdColls := [], holdAlloc := 0 } }

/-! ### Sharing the cap (R414, R417) -/

/-- Classes: 0 links, 1 memory, 2 compute, in the order of PRIO. -/
def prioOrder (p : Nat) : List Nat :=
  [[0, 1, 2], [0, 2, 1], [1, 0, 2], [1, 2, 0], [2, 0, 1], [2, 1, 0]].getD p [0, 1, 2]
/-- Floors. -/
def classFloor (c : Nat) : Int := [40000, 60000, 120000].getD c 0

/-- Engines with work waiting, and the vaults that have some. -/
def State.busyEngines (s : State) (n : Nat) : Nat := ((List.range 128).filter (fun p => s.engineBusy n p)).length
def State.busyVaults (s : State) : List (Nat × Nat) :=
  (s.vaults.filter (fun e => e.2.jobs ≠ [])).filterMap (fun e =>
    let k := s.busyEngines e.1
    if k = 0 then none else some (e.1, k))

/-- `PWR_NBE_LIMIT.LIMIT` as it acts. -/
def Pwr.engineCeiling (p : Pwr) : Nat := min 32768 p.limit.toNat
/-- Kinds of activity, numbered for their weights, and the class that each belongs to: 0 links, 1 memory, 2 compute
(R392, R411). -/
def activityCode (a : Activity) : Nat :=
  match a with
  | .vaultBursts => 0
  | .refreshes => 1
  | .vectorIssues => 2
  | .playaAccesses => 3
  | .flits => 4
  | .frames port => 16 + port
  | .kSteps operandClass => 32 + operandClass
def activityClass (a : Activity) : Nat :=
  match a with
  | .frames _ => 0
  | .vaultBursts | .refreshes => 1
  | _ => 2
/-- Class of a domain; memory has none (R392). -/
def domClass (d : Nat) : Nat := if d < 288 then 2 else 0

/-- Temperature of a domain: a core's node, the hottest of a cluster's Erg or Playa nodes, of Hamada's for the rest
(DESIGN CHOICE, log 70). -/
def State.domTemp (s : State) (d : Nat) : Int :=
  let hottest (tier : Nat) (cols : List Nat) : Int := cols.foldl (fun m n => max m (s.nodeTemp tier n)) (s.nodeTemp tier (cols.headD 0))
  let cluster (c : Nat) : List Nat := (List.range 256).filter (fun n => clusterOf n == c)
  if d < 256 then s.nodeTemp 2 d else if d < 272 then hottest 2 (cluster (d - 256)) else if d < 288 then hottest 1 (cluster (d - 272))
  else hottest 0 (List.range 256)
/-- Leakage of a class's powered domains, mW. -/
def State.leakageMw (s : State) (c : Nat) : Nat :=
  sumOf ((List.range 308).map (fun d =>
    if domClass d = c ∧ ((s.dom d).power = 1 ∨ (s.dom d).power = 2) then Config.leakage d (s.dom d).vset.toNat (s.domTemp d) else 0))

/-- Weighted activity of a class in mW, `part` taking what a rail carries of each count's weight in parts per million. -/
def State.activityMw (s : State) (x : PowerInput) (c : Nat) (part : Nat → Nat) : Nat :=
  sumOf (x.counts.map (fun (e : Activity × Nat) => if activityClass e.1 = c then
    e.2 * Config.activityWeight s.calVersion (activityCode e.1) * s.pwr.weights.getD c 1000000 / 1000000 * part (activityCode e.1) / 1000000 else 0)) / 1000

/-- The estimate of an interval (R411), in mW; the memory estimate without engine steps, the VDD_DRAM current without them
in 0.1 mA, and the VIN_CORE current without compute in mA. -/
structure Estimate where
  link    : Nat
  memory  : Nat
  compute : Nat
  memBase : Nat
  vddBase : Nat
  vinBase : Nat
deriving DecidableEq, Repr

def withLoss (mw : Nat) : Nat := mw + Config.conversionLoss mw
/-- The estimate: counts by weights, leakage, conversion losses; an engine token held for a whole interval counts
21.34 mW (R411). -/
def State.estimate (s : State) (x : PowerInput) : Estimate :=
  let whole (c : Nat) : Nat := s.activityMw x c (fun _ => 1000000)
  let link := withLoss (whole 0 + s.leakageMw 0)
  let vpp := s.activityMw x 1 (fun k => Config.vppPart k % 1000001)
  { link := link, memory := whole 1 + x.tokens * 2134 / 100000, compute := withLoss (whole 2 + s.leakageMw 2), memBase := whole 1
    vddBase := (whole 1 - vpp) * 100 / 11, vinBase := link * 5 / 9 }

/-- The engines that keep VDD_DRAM within 480 A, 19.4 mA each (R411, R415). -/
def railEngines (vddBase : Nat) : Nat := (4800000 - vddBase) / 194

/-- The demands of the three classes. -/
structure Demand where
  link    : Int
  memory  : Int
  compute : Int
deriving DecidableEq, Repr

/-- Steps of 50 MHz above 1.0 GHz that mode, boost and sag stage allow (R414, R415). -/
def Pwr.topStep (p : Pwr) : Nat := if !p.fixedFreq && p.boostEn && p.sagStage == 0 then 16 else 10

def State.demand (s : State) (x : PowerInput) (e : Estimate) : Demand :=
  let busy := sumOf ((s.busyVaults).map (·.2))
  let n := min (min s.pwr.engineCeiling (railEngines e.vddBase)) busy
  { link := x.demLink, memory := e.memBase + (n * 2134 / 100 : Nat), compute := (x.stepEst.getD s.pwr.topStep 0 : Nat) }
def Demand.at (d : Demand) (c : Nat) : Int := if c = 0 then d.link else if c = 1 then d.memory else d.compute

/-- The pseudocode of R414 for a cap in W: allocations of links, memory and compute, and the budget. -/
def sharing (cap vaux prio : Nat) (d : Demand) : (Int × Int × Int) × Int :=
  let whole : Int := (cap * 1000 : Nat) - vaux - (cap * 20 : Nat)
  let base : List Int := (List.range 3).map classFloor
  let r := (prioOrder prio).foldl (fun (x : List Int × Int) c =>
    let extra := min x.2 (d.at c - classFloor c)
    (setAt x.1 c (x.1.getD c 0 + extra), x.2 - extra)) (base, whole - 220000)
  ((r.1.getD 0 0, r.1.getD 1 0, r.1.getD 2 0 + r.2), whole)

/-- During a link hold the links keep their allocation, and the reduction comes out of compute first (R417). -/
def heldSharing (cap vaux held : Nat) (d : Demand) : (Int × Int × Int) × Int :=
  let whole : Int := (cap * 1000 : Nat) - vaux - (cap * 20 : Nat)
  let memory := min d.memory (whole - held - 120000)
  (((held : Int), memory, whole - held - memory), whole)

/-! ### What an allocation becomes (R415) -/

/-- VIN_CORE current of a compute estimate, with the rest of the rail, within 864 A (R390, R416). -/
def vinFits (vinBase compute : Nat) : Bool := decide (vinBase + compute * 5 / 9 ≤ 864000)

/-- Ceiling in MHz and D (0 when not throttled) for a compute allocation, and whether the rail binds. -/
def computeAction (p : Pwr) (stepEst : List Nat) (vinBase : Nat) (alloc : Int) : (Nat × Nat) × Bool :=
  let est (k : Nat) : Nat := stepEst.getD k 0
  let fits (k : Nat) : Bool := decide ((est k : Int) ≤ alloc) && vinFits vinBase (est k)
  let room : Int := min alloc (((864000 - vinBase) * 9 / 5 : Nat) : Int)
  let share (d : Nat) : Nat := min 64 ((64 * (room - 120000)) / ((d : Int) - 120000)).toNat
  if p.fixedFreq then
    let rail := !vinFits vinBase (est 10)
    (if fits 10 then (1500, 0) else (1500, share (est 10)), rail)
  else
    let ok := (List.range (p.topStep + 1)).filter fits
    let rail := decide ((est p.topStep : Int) ≤ alloc) && !vinFits vinBase (est p.topStep)
    match ok.reverse.head? with
    | some k => ((1000 + 50 * k, 0), rail)
    | none => ((1000, share (est 0)), rail)

/-- Live engine limit for a memory allocation. -/
def liveLimit (p : Pwr) (e : Estimate) (alloc : Int) : Nat :=
  min (min p.engineCeiling (railEngines e.vddBase)) (((alloc - e.memBase) * 100) / 2134).toNat

/-- The live limit is divided among the vaults with work waiting, at most 128 each, what remains in ascending columns;
engines then take their tokens (R202). -/
def State.divideTokens (s : State) : State :=
  let busy := s.busyVaults.map (·.1)
  let live := s.pwr.live.toNat
  let each := if busy.isEmpty then 0 else live / busy.length
  let rest := if busy.isEmpty then 0 else live % busy.length
  let s1 := s.vaults.foldl (fun t e => t.modVault e.1 (fun v => { v with quota := 0 })) s
  let s2 := (busy.zipIdx).foldl (fun t e => t.modVault e.1 (fun v => { v with quota := min 128 (each + (if e.2 < rest then 1 else 0)) })) s1
  busy.foldl (fun t n => t.grantTokens n) s2

/-! ### POWER_ESTIMATE -/

/-- The highest step whose current fits, at least 1.0 GHz. -/
def stepWithin (fits : Nat → Bool) : Nat := 1000 + 50 * ((List.range 17).reverse.find? fits).getD 0
/-- The ceiling that a domain's current limit leaves, with the 12 A that a bridged pair shares (R397, R398, R406). -/
def State.capByCurrent (s : State) (x : PowerInput) (d : Nat) : Nat :=
  let ma (n k : Nat) : Nat := (((x.domMa.find? (fun (e : Nat × List Nat) => e.1 == n)).map (·.2)).getD []).getD k 0
  let pair := if d < 256 then s.bridgedTo d else none
  stepWithin (fun k => decide (ma d k ≤ s.domLimitMa d) && (match pair with
    | some m => decide (ma d k + ma m k ≤ 12000)
    | none => true))

/-- Ceilings and voltages that the controller sets: a core's voltage from its table, a bridged core's its neighbour's, a
Playa domain's the highest of its cluster's powered cores (R392, R393, R394, R397, R398, R406). -/
def State.setVoltages (s : State) (x : PowerInput) : State :=
  let s0 := ((List.range 256) ++ (List.range 16).map (272 + ·)).foldl (fun t d => t.modDom d (fun y => { y with capMhz := s.capByCurrent x d })) s
  let s1 := (List.range 256).foldl (fun t n =>
    if (t.dom n).regOk ∧ !(t.dom n).bypass ∧ ((t.dom n).power = 1 ∨ (t.dom n).power = 2) then
      match t.vfMv n (t.ownMhz n) with
      | some v => t.modDom n (fun d => { d with vset := BitVec.ofNat 11 v })
      | none => t
    else t) s0
  let s15 := (List.range 256).foldl (fun t n =>
    let b := (t.dom n).bridge.toNat
    if b < 256 then t.modDom n (fun d => { d with vset := (t.dom b).vset }) else t) s1
  let s2 := (List.range 16).foldl (fun t c =>
    let on := (List.range 256).filter (fun n => clusterOf n == c && (t.dom n).power == 2)
    if on.isEmpty || (t.dom (272 + c)).bypass then t
    else t.modDom (272 + c) (fun d => { d with vset := BitVec.ofNat 11 (on.foldl (fun m n => max m (t.dom n).vset.toNat) 0) })) s15
  (List.range 256).foldl (fun t n => t.retuneTest n) s2

/-- The limits that the coolant allows: the allocation with P_flow in place of the cap (R441). -/
def State.flowLimit (s : State) (x : PowerInput) (e : Estimate) (d : Demand) : State :=
  let r := (sharing s.thm.pFlow.toNat x.vaux s.pwr.prio.toNat d).1
  let a := computeAction s.pwr x.stepEst e.vinBase r.2.2
  { s with thm := { s.thm with flowCeil := a.1.1, flowDuty := if a.1.2 = 0 then 64 else a.1.2, flowLive := liveLimit s.pwr e r.2.1 } }

/-- POWER_ESTIMATE: the estimate, the sharing of the cap, what each class may do, the coolant's limits, the cycles held
and the division of the tokens (R411, R414, R415, R417, R440, R441, R202). -/
def execPowerEstimate (x : PowerInput) (s : State) : Answer :=
  let e := s.estimate x
  let d := s.demand x e
  let p := s.pwr
  let r := if p.linkHold then heldSharing p.capEff x.vaux p.holdAlloc d else sharing p.capEff x.vaux p.prio.toNat d
  let a := computeAction p x.stepEst e.vinBase r.1.2.2
  let live := liveLimit p e r.1.2.1
  let busy := sumOf ((s.busyVaults).map (·.2))
  let memRail := decide (railEngines e.vddBase < min p.engineCeiling busy)
  let s1 := ({ s with pwr := { p with
    estLink := e.link, estMemory := e.memory, estCompute := e.compute, estVaux := x.vaux
    allocLink := r.1.1.toNat, allocMemory := r.1.2.1.toNat, allocCompute := r.1.2.2.toNat, budget := r.2.toNat
    demLink := x.demLink, ceilMhz := a.1.1, throttle := a.1.2
    capLimited := decide (r.1.2.2 < d.compute), railLimited := a.2 || memRail } } : State).flowLimit x e d
  let s2 := { s1 with pwr := { s1.pwr with live := BitVec.ofNat 16 (min live s1.thm.flowLive) } }
  let s3 := x.held.foldl (fun t e => if e.1 < 256 then t.ctrAdd (pwrDom e.1 0x20) e.2 else t) s2
  .next ((s3.setVoltages x).divideTokens)

/-! ### Sag stages (R407 to R410) -/

/-- Threshold of a stage, mV. -/
def sagThreshold (k : Nat) : Nat := [1800, 1740, 1700, 1660, 1620, 1550].getD k 0
/-- The stage whose threshold a voltage is below. -/
def sagLevel (mv : Nat) : Nat := ((List.range 6).filter (fun k => k ≠ 0 && decide (mv < sagThreshold k))).foldl max 0

/-- The stage rises. At stage 5 a compute-only reset begins and is held. -/
def State.raiseSag (s : State) (k : Nat) : State :=
  if k ≤ s.pwr.sagStage then s
  else
    let s1 := ({ s with pwr := { s.pwr with sagStage := k } }).ctrAdd pwrSagEntries 1
    if k < 5 then s1
    else
      let s2 := { s1 with glb := { s1.glb with holdSag := true } }
      if s2.glb.rstState = 3 then s2.holdActs else s2.requestReset

/-- SAG_SAMPLE: a stage is entered once two samples in a row lie below its threshold (R407). -/
def execSagSample (mv : Nat) (s : State) : Answer :=
  let k := min (sagLevel mv) s.pwr.sagPrev
  .next ((({ s with pwr := { s.pwr with sagPrev := sagLevel mv, vinMv := mv } } : State).raiseSag k).noteSensors s)

/-- What a stage had stopped goes on, where nothing else keeps it stopped (R446). -/
def State.resumeStopped (s : State) : State :=
  let s1 := (Tbl.keys s.vaults).foldl (fun t n => t.grantTokens n) s
  s1.issueAll.pumpAll

/-- SAG_STAGE_LEAVE: VIN_CORE has stayed at or above the stage's threshold + 20 mV for 1 ms, and no DRAM rail asks for the
stage; leaving stage 5 releases its hold on the reset (R409, R410). -/
def execSagStageLeave (s : State) : Answer :=
  let k := s.pwr.sagStage
  if k = 0 ∨ s.pwr.vinMv < sagThreshold k + 20 ∨ k ≤ s.pwr.railStage ∨ s.glb.collapsed then .next s
  else
    let s1 := { s with pwr := { s.pwr with sagStage := k - 1 } }
    if k = 5 then .next (({ s1 with glb := { s1.glb with holdSag := false } }).tryLeave.noteSensors s)
    else .next (s1.resumeStopped.noteSensors s)

/-- DRAM_RAIL_LOW: VDD_DRAM below 1.04 V acts as stage 2; below 1.00 V, or VPP_DRAM below 1.70 V, as stage 5 (R410). -/
def execDramRailLow (vddMv vppMv : Nat) (s : State) : Answer :=
  let k := if vddMv < 1000 ∨ vppMv < 1700 then 5 else if vddMv < 1040 then 2 else 0
  .next ((({ s with pwr := { s.pwr with railStage := k } } : State).raiseSag k).noteSensors s)

/-! ### Calibration and cracked connections (R405, R406, R412) -/

/-- A class weight after one interval, within ±25 % of its factory value. -/
def scaleWeight (w e m : Nat) : Nat :=
  if e = 0 then w else max 750000 (min 1250000 (((w : Int) * (15 * e + m : Nat)) / (16 * e : Nat)).toNat)

/-- WEIGHT_CALIBRATION: each class's weights follow its measured energy; CAL_OK after 10 intervals within 2 % (R412). -/
def execWeightCalibration (estimated measured : List Nat) (s : State) : Answer :=
  let near (i : Nat) : Bool :=
    let e := estimated.getD i 0
    let m := measured.getD i 0
    decide (50 * (max e m - min e m) ≤ m)
  let runs := if (List.range 3).all near then s.pwr.calRuns + 1 else 0
  .next { s with pwr := { s.pwr with
    weights := (List.range 3).map (fun i => scaleWeight (s.pwr.weights.getD i 1000000) (estimated.getD i 0) (measured.getD i 0))
    calRuns := min 10 runs, calOk := s.pwr.calOk || decide (10 ≤ runs) } }

/-- A path resistance in µΩ corrected to 60 °C at 0.39 % per °C; the temperature in 1/8 °C. -/
def at60 (microohm : Nat) (temp8 : Int) : Nat := ((microohm : Int) * 80000 / (80000 + 39 * (temp8 - 480))).toNat

/-- Derating for a filtered value above its baseline: 1 for 75 %, 2 for 50 %, 3 a failed regulator. -/
def pathStep (baseline filtered : Nat) : Nat :=
  if 150 * baseline < 100 * filtered then 3 else if 130 * baseline < 100 * filtered then 2
  else if 115 * baseline < 100 * filtered then 1 else 0

/-- A domain's derating changes, in the boot store too. -/
def State.setDerate (s : State) (d k : Nat) : State :=
  let s1 := s.modDom d (fun x => { x with derate := BitVec.ofNat 2 k })
  { s1 with boot := { s1.boot with derates := Tbl.put 0 s1.boot.derates d (BitVec.ofNat 2 k) } }

/-- A step of R406 with its event. -/
def State.pathAct (s : State) (d : Nat) (temp8 : Int) (k : Nat) : State :=
  let x := s.dom d
  let s1 := s.event .crackedPath (some 8) 3 d none 0 [BitVec.ofNat 64 (domPath x), BitVec.ofInt 64 temp8]
  if k = 3 then (if x.regOk then s1.failRegulator d else s1) else s1.setDerate d k

/-- PATH_RESISTANCE_CHECK: an interval with at least 25 % of the domain's current joins the filter; the first start's
filtered value becomes the baseline; a rise over it derates the domain or fails its regulator, and a start whose first
filtered value lies within 15 % lifts a derating (R405, R406). -/
def execPathResistanceCheck (domain microohm currentMa : Nat) (temp8 : Int) (s : State) : Answer :=
  if 4 * currentMa < domMaxMa domain ∨ (s.dom domain).power = 3 then .next s
  else
    let x := s.dom domain
    let seen := x.pathSum.length
    let win := (at60 microohm temp8 :: x.pathSum).take 1000
    if win.length < 1000 then .next (s.setDom domain { x with pathSum := win })
    else
      let f := sumOf win / 1000
      let first := decide (seen < 1000)
      let base := if Tbl.find s.boot.baselines domain = none ∧ first then f else x.baseline.toNat
      let s1 := s.setDom domain { x with pathSum := win, filtered := BitVec.ofNat 16 f, baseline := BitVec.ofNat 16 base }
      let s2 := if Tbl.find s.boot.baselines domain = none ∧ first then
          { s1 with boot := { s1.boot with baselines := Tbl.setKey s1.boot.baselines domain (BitVec.ofNat 16 f) } } else s1
      let k := pathStep base f
      if x.derate.toNat < k then .next (s2.pathAct domain temp8 k).issueAll
      else if first ∧ k = 0 ∧ 85 * base ≤ 100 * f ∧ x.derate ≠ 0 then .next (s2.setDerate domain 0)
      else .next s2

/-! ### Telemetry (R418, R419) -/

/-- k of the ring. -/
def Pwr.tlmK (p : Pwr) : Nat := if 4 ≤ p.tlmLog2.toNat ∧ p.tlmLog2.toNat ≤ 12 then p.tlmLog2.toNat else 4

/-- The 1,024 bytes of record q. -/
def State.tlmRecord (s : State) (q : Nat) (x : TelemetryInput) : List Byte :=
  natLe 8 q ++ natLe 8 s.time.toNat
    ++ natLe 4 (s.pwr.capEff % 2 ^ 12 + x.sagMax % 8 * 2 ^ 12 + flag x.hold * 2 ^ 15 + x.liveMin % 2 ^ 16 * 2 ^ 16)
    ++ natLe 4 x.energy ++ natLe 8 0
    ++ (List.range 308).flatMap (fun d => natLe 2 (x.domI.getD d 0))
    ++ (List.range 8).flatMap (fun d => natLe 2 (x.vddI.getD d 0)) ++ (List.range 8).flatMap (fun d => natLe 2 (x.vppI.getD d 0))
    ++ natLe 336 0 ++ natLe 8 q

/-- TELEMETRY_RECORD: record q goes to slot (q − 1) mod 2^k (R418). -/
def execTelemetryRecord (x : TelemetryInput) (s : State) : Answer :=
  if !s.pwr.tlmEn then .next s
  else
    let q := s.pwr.tlmSeq + 1
    let s1 := s.hostWrite (s.pwr.tlmBase.toNat * 4096 + 1024 * ((q - 1) % 2 ^ s.pwr.tlmK)) (s.tlmRecord q x)
    .next { s1 with pwr := { s1.pwr with tlmSeq := q } }

/-- REGULATOR_SAMPLE: the lowest sample since its last read, and its time; the mean current of this microsecond, and those
of the last millisecond (R401, R419, R517). -/
def execRegulatorSample (domain mv ma : Nat) (s : State) : Answer :=
  let x := s.dom domain
  let low := match x.minMv with
    | some m => decide (mv < m)
    | none => true
  .next (s.setDom domain { x with meanMa := ma, window := (ma :: x.window).take 1000, minMv := if low then some mv else x.minMv, minTime := if low then s.time else x.minTime })

end Sys2Proof.Machine
end

