-- ==== Sys2Proof/Machine/Debug.lean ====
section
/-! DEFINITION. The debug unlock, its perturbation slots (14 R474 to R477; 17 R551 to R553), and the checks of a signed
object (16 R521). -/

namespace Sys2Proof.Machine

/-! ### Signed objects (R6, R521) -/

/-- The KEY that a KIND requires. -/
def keyOfKind (kind : Nat) : Nat := if kind = 1 then 1 else if kind = 2 then 2 else if kind = 3 ∨ kind = 4 then 3 else 0

/-- The longest EXPIRY: 24 h of the device time base. -/
def dayNs : Nat := 86400000000000

/-- The checks of R521 in their order; each one that fails ends the checking. Kinds 3 and 4 carry the nonce, the part's
UNIT and an expiry within 24 h; kinds 1 and 2 a zero nonce and expiry; a firmware image UNIT 0. -/
def State.objectOk (s : State) (o : SignedObject) : Bool :=
  decide (o.magic.toNat = 0x5344534F) && decide (1 ≤ o.kind) && decide (o.kind ≤ 4) && o.key == keyOfKind o.kind
    && (if o.kind = 1 then o.unit == 0 else o.unit == s.boot.unit)
    && (if 3 ≤ o.kind then o.nonce == s.dbg.nonce else o.nonce == 0)
    && (if 3 ≤ o.kind then decide (s.time.toNat ≤ o.expiry.toNat) && decide (o.expiry.toNat ≤ s.time.toNat + dayNs) else o.expiry == 0)
    && o.edOk && o.mlOk

/-- The length that an object's header gives (R521). -/
def State.objectLen (s : State) (a : Nat) : Nat := leNat (s.bankRead (a + 0x20) 4)
/-- The signed object at a DPA, by the layout of R521, with the outcome of its signature checks. -/
def State.objectAt (s : State) (a : Nat) (edOk mlOk : Bool) : SignedObject :=
  let w (off n : Nat) : Nat := leNat (s.bankRead (a + off) n)
  { magic := BitVec.ofNat 32 (w 0 4), kind := w 4 2, key := w 6 2, unit := BitVec.ofNat 64 (w 8 8), nonce := BitVec.ofNat 64 (w 0x10 8)
    expiry := BitVec.ofNat 64 (w 0x18 8), payload := s.bankRead (a + 0x40) (s.objectLen a), edOk := edOk, mlOk := mlOk }

/-! ### The unlock (R474, R475, R552) -/

/-- DEBUG_UNLOCK_WRITE: the management core begins to check the object at DPA[37:6]; ignored while it checks one. -/
def execDebugUnlockWrite (value : Word64) (s : State) : Answer :=
  if s.dbg.result = 1 then .next s
  else .next { s with dbg := { s.dbg with result := 1, unlockDpa := bits value.toNat 37 6 * 64 } }

/-- An accepted unlock object takes effect. -/
def State.unlock (s : State) (o : SignedObject) : State :=
  (({ s with dbg := { s.dbg with unlocked := true, expiry := o.expiry } } : State).noteSensors s).renewNonce

/-- UNLOCK_CHECK_DONE: the object that DBG_UNLOCK named has been read from device memory and checked; one of another kind,
or of more than 4,096 bytes, is refused (R474, R521, R552). -/
def execUnlockCheckDone (o : Signatures) (s : State) : Answer :=
  if s.dbg.result ≠ 1 then .next s
  else
    let x := s.objectAt s.dbg.unlockDpa o.edOk o.mlOk
    if decide (s.objectLen s.dbg.unlockDpa ≤ 4096) && s.objectOk x && x.kind == 3 then
      .next (({ s with dbg := { s.dbg with result := 2 } } : State).unlock x)
    else .next { s with dbg := { s.dbg with result := 3 } }

/-- The unlock ends: every slot is disarmed, the nonce is renewed (R475, R551). -/
def State.endUnlock (s : State) : State := if s.dbg.unlocked then s.lockDebug.renewNonce else s

/-- DEBUG_LOCK: a write of DBG_CTRL.LOCK (R475). -/
def execDebugLock (s : State) : Answer := .next s.endUnlock
/-- UNLOCK_EXPIRY (R475). -/
def execUnlockExpiry (s : State) : Answer := .next s.endUnlock

/-! ### Slots (R477, R553) -/

def State.slot (s : State) (i : Nat) : DbgSlot := Tbl.get DbgSlot.reset s.dbg.slots i
def State.setSlot (s : State) (i : Nat) (x : DbgSlot) : State :=
  { s with dbg := { s.dbg with slots := Tbl.put DbgSlot.reset s.dbg.slots i x } }

/-- The first word of a slot is written: ARM = 1 while locked is ignored, and an armed slot takes only its disarming. -/
def State.writeSlotCtrl (s : State) (i : Nat) (value : Word32) : State :=
  let arm := value.getLsbD 5
  let x := s.slot i
  if x.arm then (if arm then s else (s.endForced x (s.forcedCycles x)).setSlot i { x with arm := false, armedAt := 0 })
  else if arm && !s.dbg.unlocked then s
  else
    let y := { x with func := BitVec.ofNat 5 (value.toNat % 32), arm := arm }
    if arm ∧ y.func = 5 then (s.beginForced y).setSlot i { y with armedAt := s.time } else s.setSlot i y
/-- SLOT_ARM (R553). -/
def execSlotArm (i : Nat) (value : Word32) (s : State) : Answer := .next (s.writeSlotCtrl i value)

/-- Another 32-bit field group of a slot, at byte offset `off` of it; an armed slot ignores it. -/
def State.writeSlotWord (s : State) (i off : Nat) (v : Word32) : State :=
  let x := s.slot i
  if x.arm then s
  else match off with
    | 4 => s.setSlot i { x with unit := BitVec.ofNat 16 (v.toNat % 2 ^ 16), sub := BitVec.ofNat 16 (v.toNat / 2 ^ 16) }
    | 8 => s.setSlot i { x with mag := v }
    | 12 => s.setSlot i { x with count := v }
    | _ => s

/-- ADDR or MASK of a slot that is not armed. -/
def State.writeSlotWide (s : State) (i off v : Nat) : State :=
  let x := s.slot i
  if x.arm then s
  else if off = 0x10 then s.setSlot i { x with addr := BitVec.ofNat 64 v }
  else s.setSlot i { x with mask := BitVec.ofNat 64 v }

/-- SLOT_COUNT_EXPIRY: a slot whose COUNT is not 0 has run its occurrences or time, and is disarmed (R477). -/
def execSlotCountExpiry (i : Nat) (s : State) : Answer :=
  let x := s.slot i
  if x.arm && decide (x.count ≠ 0) then
    .next ((s.endForced x x.count.toNat).setSlot i { x with arm := false, count := 0, armedAt := 0 })
  else .next s

end Sys2Proof.Machine
end

