-- ==== Sys2Proof/Machine/Start.lean ====
section
/-! DEFINITION. The start, full resets, the losses of rails, and the writes of GLB_RESET_CTRL (15 R480 to R490, R498, R507;
12 R410; 16 R513; 18 R559, R562). -/

namespace Sys2Proof.Machine

/-! ### What a restart leaves -/

/-- The device once its volatile state is lost with VAUX present: the boot store, Oasis, host memory and the pins stand,
findings wait for their records (R489), a requested full test stands (R485), and a trip stays latched (R447). -/
def State.volatileLost (s : State) : State :=
  { State.reset with
    pending := s.pending, freeIdx := s.freeIdx, host := s.host, boot := s.boot, oas := { s.oas with mirror := OasisMirror.reset }
    io := s.io, pins := s.pins
    mgt := { Mgt.reset with fullTest := s.mgt.fullTest, findings := s.mgt.findings, awaiting := s.mgt.awaiting }
    pwr := { Pwr.reset with
      vaux := s.pwr.vaux, vin := s.pwr.vin, vbyp := s.pwr.vbyp, vdd := s.pwr.vdd, vpp := s.pwr.vpp, refclk := s.pwr.refclk
      duneOn := s.pwr.duneOn, vinMv := s.pwr.vinMv, railStage := s.pwr.railStage, brake := s.pwr.brake, weights := s.boot.weights }
    thm := { Thm.reset with trip := s.thm.trip }
    glb := { Glb.reset with fullTestRq := s.glb.fullTestRq, startHeld := s.glb.startHeld, collapsed := s.glb.collapsed } }

/-- The records of an orderly stop: the bond-wear checkpoint and the adapted weights (R33, R412, R498). -/
def State.orderlyStop (s : State) : State :=
  { s with boot := { s.boot with
      bondCounts := s.bond.counts, bondResidue := s.bond.residue, bondLast := s.bond.last, weights := s.pwr.weights } }

/-- A full reset: the records are written, and the device restarts from step 1 (R498). -/
def State.fullReset (s : State) : State := s.orderlyStop.volatileLost

/-! ### Writes of GLB_RESET_CTRL (R491, R498, R507) -/

/-- A write of GLB_RESET_CTRL. -/
def State.writeResetCtrl (s : State) (ctrl : Word32) : State :=
  let n := ctrl.toNat
  let hold := bitAt n 29
  let s1 := { s with glb := { s.glb with
    hold := hold, bist := bitAt n 28, rstIrqEn := bitAt n 27, rstVector := BitVec.ofNat 11 (bits n 26 16), fullTestRq := bitAt n 15 } }
  if bitAt n 30 then s1.fullReset
  else
    let s2 := if bitAt n 31 then s1.requestReset else s1
    if hold && !s.glb.hold then s2.holdActs else if !hold then s2.tryLeave else s2

/-- COMPUTE_RESET_REQUEST: a write of GLB_RESET_CTRL with COMPUTE (R491). -/
def execComputeResetRequest (ctrl : Word32) (s : State) : Answer := .next (s.writeResetCtrl ctrl)
/-- RESET_HOLD_SET: a write that sets HOLD (R491). -/
def execResetHoldSet (ctrl : Word32) (s : State) : Answer := .next (s.writeResetCtrl ctrl)
/-- RESET_HOLD_CLEAR: a write that clears HOLD (R491). -/
def execResetHoldClear (ctrl : Word32) (s : State) : Answer := .next (s.writeResetCtrl ctrl)
/-- FULL_RESET_REQUEST: a write with FULL (R498). -/
def execFullResetRequest (ctrl : Word32) (s : State) : Answer := .next (s.writeResetCtrl ctrl)

/-! ### The device's keys (R5, R519, R520) -/

/-- Bytes of the device seed. -/
def seedBytes (seed : BitVec 256) : List Byte := natLe 32 seed.toNat
/-- The identity key of an algorithm (1 Ed25519, 2 ML-DSA-65), derived with HKDF-SHA-384 from the seed (R519). -/
def identityKey (seed : BitVec 256) (alg : Nat) : List Byte := hkdf384 (seedBytes seed) (Config.keyLabel 1 alg) 32
/-- The alias key: from the seed and the digest of the active management firmware (R519). -/
def aliasKey (seed : BitVec 256) (digest : List Byte) (alg : Nat) : List Byte :=
  hkdf384 (seedBytes seed ++ digest) (Config.keyLabel 2 alg) 32
/-- The identity record counts: both of its signatures verify, and so do those of the certificate chains (R6, R520). -/
def Identity.accepted (x : Identity) : Bool := x.signed.1 && x.signed.2 && x.chained.1 && x.chained.2
/-- The reconstructed keys are those of the record (R520). -/
def Identity.matched (x : Identity) (seed : BitVec 256) : Bool :=
  x.accepted && Config.publicKey 1 (identityKey seed 1) == x.edPub && Config.publicKey 2 (identityKey seed 2) == x.mlPub
/-- The management core reads the PUF, and compares the keys with the record: on a mismatch a critical event, and
certificate slot 0 stays empty (R519, R520). -/
def State.takeIdentity (s : State) : State :=
  let seed := Config.deviceSeed s.boot.identity.helper
  let ok := s.boot.identity.matched seed
  let s1 := { s with mgt := { s.mgt with seed := some seed, slot0 := ok } }
  if ok then s1 else s1.event .identity none 0 0 none 0 []

/-! ### START (R480, R481, R485) -/

/-- No copy of an image, or of the calibration, verifies: recovery (R481). -/
def copyLost (c : Copy × Copy) : Bool := !c.1.good && !c.2.good
def Boot.broken (b : Boot) : Bool := copyLost b.fwMgt || copyLost b.fwKernel || copyLost b.calib
/-- Some secondary copy is in use. -/
def Boot.secondary (b : Boot) : Bool := !b.fwMgt.1.good || !b.fwKernel.1.good || !b.calib.1.good

/-- The domains take their path baselines and deratings from the boot store (R405, R422). -/
def State.loadPaths (s : State) : State :=
  let s1 := s.boot.baselines.foldl (fun t e => t.modDom e.1 (fun x => { x with baseline := e.2 })) s
  s.boot.derates.foldl (fun t e => t.modDom e.1 (fun x => { x with derate := e.2 })) s1

/-- The qualified budget of R32: 6,000 units of 117,964,800. -/
def bondBudget : Nat := 6000 * 117964800
/-- Bond life consumed by a counter, whole percent (R32). -/
def bondPercent (count : Nat) : Nat := 100 * count / bondBudget
/-- Bond life consumed by the device: the highest counter (R32). -/
def bondLife (counts : Tbl Nat) : Nat := counts.foldl (fun m e => max m (bondPercent e.2)) 0

/-- Step 1: the start is counted, images are chosen, removals take effect, and the defect list with its pending records
is applied (R480, R481, R485, R488 to R490). In recovery, which serves SPDM too, the keys are taken here (R481, R519). -/
def State.runStart (s : State) : State :=
  let full := s.mgt.fullTest || s.glb.fullTestRq || decide (0 < s.boot.lastNew) || decide (s.boot.startCount = 0)
  let b := { s.boot with
    startCount := s.boot.startCount + 1, removals := []
    defects := s.boot.defects.filter (fun e => !s.boot.removals.contains e.defect) }
  let s1 := ({ s with boot := b } : State).volatileLost
  let g := { s1.glb with
    startDue := false, startHeld := false, recovery := b.broken, image := b.secondary && !b.broken, fullTest := full && !b.broken
    fullTestRq := false, minor := BitVec.ofNat 8 (runningCopy b.fwKernel).minor }
  let s2 := { s1 with
    glb := g
    mgt := { s1.mgt with
      fullTest := false, active := ((runningCopy b.fwMgt).version, (runningCopy b.fwKernel).version, (runningCopy b.calib).version) }
    pwr := { s1.pwr with vaux := true }
    bond := { Bond.reset with
      counts := b.bondCounts, residue := b.bondResidue, last := b.bondLast
      warned := decide (80 ≤ bondLife b.bondCounts), critical := decide (100 ≤ bondLife b.bondCounts) } }
  let s3 := (b.defects ++ b.pending ++ s2.mgt.findings).foldl (fun t e => t.applyDefect e.defect) { s2.loadPaths with delays := b.delays }
  if b.broken then s3.takeIdentity else s3

/-- START: VAUX comes within its limits, a full reset is carried out, or the rails have returned. With TRAY_RST_N low at
VAUX rise, step 1 waits (R480, R513). -/
def execStart (s : State) : Answer :=
  if !s.glb.startDue ∨ s.glb.startHeld ∨ s.glb.collapsed then .next s
  else if !s.pwr.vaux ∧ s.pins.trayRst then
    .next { s with pwr := { s.pwr with vaux := true }, glb := { s.glb with startHeld := true } }
  else .next s.runStart

/-- TRAY_RESET_RELEASE: a start held at step 1 goes on (R513). -/
def execTrayResetRelease (s : State) : Answer :=
  let s1 := { s with pins := { s.pins with trayRst := false } }
  .next (if s.glb.startHeld then s1.runStart else s1)

/-! ### Steps 2 to 5 (R480, R482, R484, R486) -/

/-- A start is under way. -/
def State.starting (s : State) : Bool := !s.glb.startDue && !s.glb.recovery && !s.glb.ready

/-- Fabric and Hamada domains are on, on VBYP (R395); cores and Playa wake for their fields. -/
def State.domainsOnBypass (s : State) : State :=
  (List.range Config.domains).foldl (fun t d =>
    if (t.dom d).power = 3 ∨ wakes d then t else t.modDom d (fun x => { x with power := 2, bypass := true })) s

/-- Step 2 begins once the firmware of step 1 runs and the core rails are within limits. -/
def State.tryStep2 (s : State) : State :=
  if s.starting ∧ s.glb.step = 1 ∧ s.mgt.ready ∧ s.pwr.vin ∧ s.pwr.vbyp then
    ({ s with glb := { s.glb with step := 2, vectorsUp := true } }).domainsOnBypass
  else s

/-- CORE_RAILS_PRESENT: VIN_CORE and VBYP, with REFCLK_SYS before them (R482, R559); after a collapse a start is due (R410). -/
def execCoreRailsPresent (s : State) : Answer :=
  let s1 := { s with
    pwr := { s.pwr with vin := true, vbyp := true, refclk := true }
    glb := { s.glb with collapsed := false, startDue := s.glb.startDue || s.glb.collapsed } }
  .next (s1.tryStep2.noteSensors s)

/-- The load switches of the eight Dune tiers close at step 3, once their rails are there, and stay closed (R391, R482). -/
def State.closeDune (s : State) : State :=
  if s.glb.step.toNat = 3 ∧ s.pwr.vdd ∧ s.pwr.vpp then { s with pwr := { s.pwr with duneOn := 0xFF } } else s

/-- DRAM_RAILS_PRESENT (R391, R482). -/
def execDramRailsPresent (s : State) : Answer :=
  .next (({ s with pwr := { s.pwr with vdd := true, vpp := true } } : State).closeDune.noteSensors s)

/-- Domains whose regulator has passed its self-test leave VBYP (R395, R480). -/
def State.ownRegulators (s : State) : State :=
  (List.range Config.domains).foldl (fun t d => t.modDom d (fun x => { x with bypass := !x.regOk && x.bridge == 0x1FF })) s

/-- An epoch that waits for step 3 begins (R545). -/
def State.beginWaiting (s : State) : State := if s.epoch.active ∧ s.epoch.waiting then s.beginEpoch else s

/-- Lanes whose training window is too narrow, as defects: a lane of a Playa port, a data or command lane of a vault (R24,
R488). -/
def sweepDefects (xs : List LaneSweep) : List Defect :=
  (xs.filter (fun x => !LaneSweep.passes x)).map (fun x =>
    if x.crossing = 0 then { kind := 2, unit := x.column, sub := x.lane, sub2 := 0 }
    else if 528 ≤ x.lane then { kind := 4, unit := x.column, sub := x.lane - 528, sub2 := 0 }
    else { kind := 3, unit := x.column, sub := x.lane, sub2 := 0 })
/-- The vertical tuning of step 3: settings, and what failed (R23, R24). A lane that no sweep names passed and keeps the
setting of the calibration (log 57). -/
def State.train (s : State) (xs : List LaneSweep) : State :=
  (List.range 256).foldl State.noteTunes ((s.setDelays xs).takeFindings (sweepDefects xs))
/-- The standard kernel is written into both halves of every core that is not mapped out (R117). -/
def State.writeKernels (s : State) : State :=
  (List.range 256).foldl (fun t n => if (t.core n).mappedOut then t else t.modCore n CoreSt.loadStandard) s

/-- Ports begin to train at step 3 (R314, R480). -/
def State.trainPorts (s : State) : State :=
  (List.range 12).foldl (fun t p => if (t.port p).state = 0 then t.modPort p (fun x => { x with state := 1 }) else t) s

/-- START_STEP_DONE: a step's training or tests are over; what they found acts at once. Step 3 needs the DRAM rails (R480,
R482, R484, R486). -/
def execStartStepDone (found : StepTests) (s : State) : Answer :=
  if !s.starting then .next s
  else
    let put (t : State) (n : BitVec 3) : State := { t with glb := { t.glb with step := n } }
    match s.glb.step.toNat with
    | 1 => .next (({ s with mgt := { s.mgt with ready := true } }).takeIdentity.tryStep2.noteSensors s)
    | 2 => .next ((put (s.takeFindings found.found) 3).closeDune.trainPorts.beginWaiting.noteSensors s)
    | 3 =>
      if s.pwr.vdd && s.pwr.vpp then .next ((put ((s.takeFindings found.found).train found.sweeps) 4).noteSensors s)
      else .next s
    | 4 =>
      let s1 := ((s.takeFindings found.found).regulatorsTested found.regs).ownRegulators.writeKernels
      .next ((put { s1 with glb := { s1.glb with kstoreOk := true } } 5).noteSensors s)
    | _ => .next s

/-! ### The defect list (R488 to R490) -/

/-- Entries that the list does not hold are added, up to 8,192: the list, those added, those left out. -/
def mergeDefects (start : Nat) : List DefectEntry → List DefectEntry → List DefectEntry × List DefectEntry × Nat
  | list, [] => (list, [], 0)
  | list, e :: r =>
    if list.any (fun x => x.defect == e.defect) then mergeDefects start list r
    else if 8192 ≤ list.length then
      let m := mergeDefects start list r
      (m.1, m.2.1, m.2.2 + 1)
    else
      let x := { e with start := start % 65536 }
      let m := mergeDefects start (list ++ [x]) r
      (m.1, x :: m.2.1, m.2.2)

/-- The 16 bytes of an entry as two words (R488). -/
def DefectEntry.words (e : DefectEntry) : List Word64 :=
  [BitVec.ofNat 64 (e.defect.kind % 2 ^ 8 + 2 ^ 8 * (e.defect.sub2 % 2 ^ 8) + 2 ^ 16 * (e.defect.unit % 2 ^ 16)
      + 2 ^ 32 * (e.defect.sub % 2 ^ 16) + 2 ^ 48 * (e.start % 2 ^ 16)), e.time]

/-- Both links between two routers have failed (R253, R487). -/
def State.meshCut (s : State) : Bool := s.routers.any (fun e => decide (e.2.bulkFail &&& e.2.ctrlFail ≠ 0))

/-- DEVICE_READY: pending records and findings are merged, and the device is ready; compute stays disabled where the mesh,
the front end or CXL failed (R487, R489). -/
def execDeviceReady (s : State) : Answer :=
  if !s.starting ∨ s.glb.step ≠ 5 then .next s
  else
    let m := mergeDefects s.boot.startCount s.boot.defects (s.boot.pending ++ s.mgt.findings)
    let n := m.2.1.length
    let ok := !s.meshCut && (s.dom 306).power ≠ 3 && (s.dom 307).power ≠ 3
    let s1 := { s with
      boot := { s.boot with defects := m.1, pending := [], lastNew := n }
      mgt := { s.mgt with findings := [] }
      glb := { s.glb with ready := true, computeEn := ok, newDefects := BitVec.ofNat 16 n } }
    let s2 := if n = 0 then s1 else s1.event .defectList none 0 0 none 0 (BitVec.ofNat 64 n :: m.2.1.flatMap DefectEntry.words)
    .next ((if m.2.2 = 0 then s2 else s2.event .defectOverflow none 0 0 none 0 [BitVec.ofNat 64 m.2.2]).noteSensors s)

/-- PENDING_DEFECT_RECORD: the oldest run-time finding is written to the boot store (R489). -/
def execPendingDefectRecord (s : State) : Answer :=
  if !s.glb.ready then .next s
  else match s.mgt.findings with
    | [] => .next s
    | e :: r => .next { s with boot := { s.boot with pending := s.boot.pending ++ [e] }, mgt := { s.mgt with findings := r } }

/-! ### What Oasis keeps (R532, R533) -/

/-- A log entry; the log keeps the last 1,024 (R533). -/
def Oasis.note (o : Oasis) (kind : Nat) (data : List Byte) : Oasis :=
  { o with
    logs := ({ seq := BitVec.ofNat 64 o.nextSeq, time := o.micros, kind := kind, data := data } :: o.logs).take 1024
    nextSeq := o.nextSeq + 1 }
/-- The cumulative total. -/
def Oasis.total (o : Oasis) : Word64 := o.cumVin + o.cumVdd + o.cumVpp
/-- The cumulative registers go to non-volatile memory. -/
def Oasis.commit (o : Oasis) : Oasis := { o with saved := (o.cumVin, o.cumVdd, o.cumVpp), savedTime := o.micros }
/-- VAUX falls: the registers are committed and the power-fail logged; a load under way is lost, and so is the ring of
records (R528, R531, R532). -/
def Oasis.powerFail (o : Oasis) : Oasis :=
  if !o.running then o
  else
    let o1 := o.commit.note 2 (natLe 8 o.total.toNat)
    let o2 := if o.loading then ({ o1 with loading := false } : Oasis).note 6 (natLe 1 3) else o1
    { o2 with running := false, records := [], exported := none }

/-! ### Losses (R410, R513, R559, R562) -/

/-- VAUX_LOSS: the whole device is reset, and Oasis has committed its registers; the boot store, Oasis's own state, host memory and the pins' levels stand (R410). -/
def execVauxLoss (s : State) : Answer :=
  .next { State.reset with
    pending := s.pending, freeIdx := s.freeIdx, host := s.host, boot := s.boot, io := s.io
    oas := { s.oas.powerFail with loading := false, records := [], exported := none, mirror := OasisMirror.reset }
    pins := { s.pins with thermtrip := false, pwroffReq := false }
    mgt := { Mgt.reset with awaiting := s.mgt.awaiting }
    pwr := { Pwr.reset with brake := s.pwr.brake } }

/-- TRAY_RESET: TRAY_RST_N has been low for 1 ms: a full reset, whatever is under way (R513, R566). -/
def execTrayReset (s : State) : Answer := .next ({ s with pins := { s.pins with trayRst := true } }).fullReset

/-- VIN_CORE_COLLAPSE: VIN_CORE below 1.45 V. The records of an orderly stop are written; what the VIN_CORE domains held
is lost; management, Oasis, power and thermal control run on, and DRAM stays in self-refresh until the restart that the
rails' return begins (R410, R498). -/
def execVinCoreCollapse (s : State) : Answer :=
  let s1 := s.orderlyStop
  let s2 := { s1.volatileLost with
    mgt := s1.mgt, thm := s1.thm, bond := s1.bond, dram := s1.dram, selfRef := true
    pwr := { s1.pwr with vin := false, sagStage := 5, sagPrev := 5, wakes := [], tokens := [], linkHold := false, holdColls := [] } }
  .next (({ s2 with glb := { s2.glb with startDue := false, collapsed := true } } : State).noteSensors s)

/-- REFCLK_LOSS: every port goes down, and compute stops as at sag stage 4 (R559). -/
def execRefclkLoss (s : State) : Answer :=
  let s1 := { s with pwr := { s.pwr with refclk := false } }
  .next (((List.range 12).foldl (fun t p => t.portDown p) s1).event .refclk none 0 0 none 0 [])

/-- VBYP_OUT_OF_RANGE (R562). -/
def execVbypOutOfRange (s : State) : Answer :=
  let s1 := { s with pwr := { s.pwr with vbyp := false } }
  .next ((if s.pwr.vin then s1.event .vbyp none 0 0 none 0 [] else s1).noteSensors s)

end Sys2Proof.Machine
end

