-- ==== Sys2Proof/Machine/Thermal.lean ====
section
/-! DEFINITION. Thermal control and the coolant (13 R423 to R450; 01 R25, R30 to R35; 05 R169). Temperatures are in
1/8 °C unless a name says otherwise; tiers by code: B 0, S 1, C 2, D0 to D7 3 to 10, Wadi layers 11 to 14. -/

namespace Sys2Proof.Machine

def thmEvals : Nat := 0x1003000
def thmPairEvents : Nat := 0x1003008
def thmSuspects : Nat := 0x1003010
def thmEmergencies : Nat := 0x1003018
def thmCeilDown : Nat := 0x1003020

/-- A temperature as an event word. -/
def tempWord (t : Int) : Word64 := BitVec.ofInt 64 t

/-! ### Sensors (R423) -/

/-- Tier code of a sensor. -/
def sensorTier (k : Nat) : Nat :=
  if k < 512 then 2 else if k < 576 then 1 else if k < 1088 then 3 + (k - 576) / 64 else if k < 1120 then 0 else 11 + (k - 1120) / 8

/-- Columns of group g, and the group of a column. -/
def groupCols (g : Nat) : List Nat := coreGroup (32 * (g / 8) + 2 * (g % 8))
def groupOf (n : Nat) : Nat := 8 * (n / 32) + n % 16 / 2
/-- Columns of a row band. -/
def bandCols (b : Nat) : List Nat := (List.range 64).map (64 * b + ·)
/-- Columns of the 4 × 4 block of a column. -/
def blockCols (n : Nat) : List Nat :=
  (List.range 16).map (fun i => 16 * (4 * (n / 64) + i / 4) + 4 * (n % 16 / 4) + i % 4)

/-- The column a sensor sits in: a group's has even row and even col (R434). Hamada sensors run along the north, east,
south and west edge in turn, inlet and outlet ones at the ends of their band's first row (DESIGN CHOICE, log 17). -/
def sensorSeat (k : Nat) : Nat :=
  if k < 512 then k / 2
  else if k < 1088 then (groupCols (k % 64)).headD 0
  else if k < 1120 then
    let p := 2 * ((k - 1088) % 8)
    [p, 16 * p + 15, 240 + p, 16 * p].getD ((k - 1088) / 8) p
  else 64 * (k % 4) + (if (k - 1120) % 8 < 4 then 0 else 15)

/-- Columns whose nodes a sensor corrects. -/
def sensorCols (k : Nat) : List Nat :=
  if k < 512 then [k / 2] else if k < 1088 then groupCols (k % 64) else if k < 1120 then blockCols (sensorSeat k) else bandCols (k % 4)

/-- Sensors that cover a node. -/
def nodeSensors (tier col : Nat) : List Nat :=
  if tier = 0 then ((List.range 32).map (1088 + ·)).filter (fun k => (sensorCols k).contains col)
  else if tier = 1 then [512 + groupOf col]
  else if tier = 2 then [2 * col, 2 * col + 1]
  else if tier < 11 then [576 + 64 * (tier - 3) + groupOf col]
  else [1120 + 8 * (tier - 11) + col / 64, 1124 + 8 * (tier - 11) + col / 64]

/-- Sensors of a tier in a row band (R438). -/
def bandSensors (tier b : Nat) : List Nat :=
  if tier = 0 then ((List.range 32).map (1088 + ·)).filter (fun k => sensorSeat k / 64 == b)
  else if tier = 1 then (List.range 16).map (512 + 16 * b + ·)
  else if tier = 2 then (List.range 128).map (128 * b + ·)
  else (List.range 16).map (576 + 64 * (tier - 3) + 16 * b + ·)

/-- Emergency and trip thresholds of a tier (R429). -/
def emergAt (tier : Nat) : Option Int := if tier < 3 then some 840 else if tier < 11 then some 736 else none
def tripAt (tier : Nat) : Option Int := if tier = 2 then some 880 else if 3 ≤ tier ∧ tier < 11 then some 760 else none
/-- The control target of a tier. -/
def Thm.target (t : Thm) (tier : Nat) : Int :=
  8 * (if tier = 2 then min 100 t.ergTgt.toNat else if tier < 2 then 100 else min 88 t.duneTgt.toNat : Nat)

/-- A sensor in use that has converted. -/
def SensorSt.usable (x : SensorSt) : Bool := x.state == 0 && !x.recent.isEmpty
/-- A covered node none of whose sensors is in use: the model plus 5 °C stands for it (R435). -/
def State.guarded (s : State) (tier col : Nat) : Bool :=
  let l := nodeSensors tier col
  !l.isEmpty && l.all (fun k => (s.sensor k).state ≠ 0)
/-- 5 °C where a node runs on the model. -/
def State.guard (s : State) (tier col : Nat) : Int := if s.guarded tier col then 40 else 0

/-- The thermal quota of tier d of vault n. -/
def State.quotaOf (s : State) (n d : Nat) : QuotaSt := Tbl.get QuotaSt.reset s.thm.quotas (8 * n + d)
def State.setQuota (s : State) (n d : Nat) (q : QuotaSt) : State :=
  { s with thm := { s.thm with quotas := Tbl.put QuotaSt.reset s.thm.quotas (8 * n + d) q } }

/-! ### Registers (R451, R452) -/

def Thm.statusWord (t : Thm) : Nat :=
  t.flowState.toNat * 2 ^ 29 + flag t.trip * 2 ^ 28 + flag t.emerg * 2 ^ 27 + flag t.flowStale * 2 ^ 26 + flag t.inletStale * 2 ^ 25
    + flag t.cfgReject * 2 ^ 24 + t.pFlow.toNat
def sensorWord (x : SensorSt) : Nat := x.state.toNat * 2 ^ 30 + ofSigned 12 x.pred * 2 ^ 12 + ofSigned 12 x.mean
def wadiWord (x : WadiSt) : Nat := ofSigned 16 x.resid * 2 ^ 16 + x.marked.toNat * 2 ^ 12 + x.qMeas % 2 ^ 12

/-- An event of kind 9 with THM_STATUS, a sensor or cause, and a value (R473; causes by log 15). -/
def State.thermalEvent (s : State) (kind : EventKind) (cls unit : Nat) (value : Word64) : State :=
  s.event kind (some 9) cls unit none 0 [BitVec.ofNat 64 s.thm.statusWord, BitVec.ofNat 64 unit, value, s.time]

/-! ### Emergencies and trips (R432, R447) -/

/-- Settings of an emergency at a sensor's place. -/
def State.emergencySettings (s : State) (k : Nat) : State :=
  let tier := sensorTier k
  if tier = 1 ∨ tier = 2 then (sensorCols k).foldl (fun t n => t.setIsland n { t.island n with ceilMhz := 1000, duty := 16 }) s
  else if tier = 0 then (List.range 256).foldl (fun t n => t.setIsland n { t.island n with ceilMhz := 1000 }) s
  else (sensorCols k).foldl (fun (t : State) n => t.setQuota n (tier - 3) { t.quotaOf n (tier - 3) with quota := 0, cool := 0 }) s

/-- THERMAL_EMERGENCY at a sensor: settings, EMERG, event, count; once until it clears. -/
def State.emergency (s : State) (k : Nat) (temp : Int) : State :=
  if (s.sensor k).emerg then s
  else
    let s1 := (s.setSensor k { s.sensor k with emerg := true }).emergencySettings k
    (({ s1 with thm := { s1.thm with emerg := true } }).thermalEvent .thermalEmergency 4 k (tempWord temp)).ctrAdd thmEmergencies 1

/-- A trip: THERMTRIP_N latched, clocks and engines stopped as for a loss of flow, DRAM in self-refresh, the log entry
(R447). `source` is a sensor, or a node by 256 × tier + column. -/
def State.trip (s : State) (source : Nat) (isNode : Bool) (temp : Int) : State :=
  if s.thm.trip then s
  else
    let s1 := { s with thm := { s.thm with trip := true }, pins := { s.pins with thermtrip := true } }
    s1.enterSelfRefresh.thermalEvent .trip (if isNode then 0 else 4) source (tempWord temp)

/-- The comparators of a conversion: `temp` with the debug offset for the emergency, `raw` for the trip (R424, R476). -/
def State.compareTemp (s : State) (k : Nat) (temp raw : Int) : State :=
  let above (l : Option Int) (t : Int) : Bool := l.any (fun x => decide (x < t))
  let s1 := if above (emergAt (sensorTier k)) temp then s.emergency k temp else s
  if above (tripAt (sensorTier k)) raw then s1.trip k false raw else s1

/-- The offset that armed slots with function 6 put on a sensor, 1/8 °C (R476, R477). -/
def State.sensorOffset (s : State) (k : Nat) : Int :=
  s.dbg.slots.foldl (fun m e => if e.2.arm ∧ e.2.func = 6 ∧ e.2.unit.toNat = k then m + e.2.mag.toInt else m) 0

/-- SENSOR_CONVERSION: the value joins the last 25 and their mean; the comparators act on a sensor in use (R424). -/
def execSensorConversion (sensor : Nat) (temp8 : Int) (s : State) : Answer :=
  let x := s.sensor sensor
  if x.state = 3 then .next s
  else
    let t := temp8 + s.sensorOffset sensor
    let l := (t :: x.recent).take 25
    let s1 := s.setSensor sensor { x with recent := l, mean := l.foldl (· + ·) 0 / (l.length : Int) }
    .next ((if x.state = 0 then s1.compareTemp sensor t temp8 else s1).noteSensors s)

/-- The value that an emergency at a sensor's place watches: its last conversion, or its nodes under R435. -/
def State.watched (s : State) (k : Nat) : Int :=
  let x := s.sensor k
  if x.usable then x.recent.headD 0
  else (sensorCols k).foldl (fun m n => max m (s.nodeTemp (sensorTier k) n + 40)) (s.nodeTemp (sensorTier k) (sensorSeat k) + 40)

/-- EMERGENCY_CLEAR: the reading has stayed 5 °C below the emergency threshold for 1 ms (R432). -/
def execEmergencyClear (sensor : Nat) (s : State) : Answer :=
  let x := s.sensor sensor
  let low := (emergAt (sensorTier sensor)).any (fun t => decide (s.watched sensor ≤ t - 40))
  if x.emerg && low then
    let s1 := s.setSensor sensor { x with emerg := false }
    .next (({ s1 with thm := { s1.thm with emerg := s1.thm.sensors.any (fun e => e.2.emerg) } } : State).noteSensors s)
  else .next s

/-- THERMAL_TRIP: a conversion of an Erg or Dune sensor in use, or a node under R435, exceeds its trip threshold. -/
def execThermalTrip (source : Nat) (isNode : Bool) (temp8 : Int) (s : State) : Answer :=
  let tier := if isNode then source / 256 else sensorTier source
  let counts := if isNode then s.guarded tier (source % 256) else (s.sensor source).state == 0
  if counts && (tripAt tier).any (fun x => decide (x < temp8)) then
    .next ((s.trip source isNode temp8).noteSensors s)
  else .next s

/-! ### THERMAL_EVALUATION: sensors against the model (R427, R433, R434) -/

/-- A change of state of a sensor, with its event. -/
def State.suspectEvent (s : State) (k : Nat) (x : SensorSt) : State :=
  s.event .sensorSuspect (some 0xA) 4 k none 0 [BitVec.ofNat 64 (sensorWord (s.sensor k)), BitVec.ofNat 64 k, tempWord x.mean, tempWord x.pred]

/-- A sensor is compared with its predicted node: suspect after 3 evaluations more than 5 °C off, in use again after 400
within 3 °C (R434). -/
def State.judgeSensor (s : State) (k : Nat) : State :=
  let x0 := s.sensor k
  let x := { x0 with pred := s.nodeTemp (sensorTier k) (sensorSeat k) }
  let gap := (x.mean - x.pred).natAbs
  if x.recent.isEmpty ∨ 2 ≤ x.state.toNat then s.setSensor k x
  else if x.state = 0 then
    let n := if 40 < gap then x.off + 1 else 0
    if n < 3 then s.setSensor k { x with off := n }
    else ((s.setSensor k { x with state := 1, off := 0, near := 0 }).suspectEvent k x).ctrAdd thmSuspects 1
  else
    let n := if gap ≤ 24 then x.near + 1 else 0
    if n < 400 then s.setSensor k { x with near := n }
    else (s.setSensor k { x with state := 0, off := 0, near := 0 }).suspectEvent k x

/-- The pair rule of R433 for core n: an event once a pair differs by more than 3 °C, again only after 1 s within it. -/
def State.judgePair (s : State) (n : Nat) : State :=
  let a := s.sensor (2 * n)
  let b := s.sensor (2 * n + 1)
  let i := s.island n
  if !a.usable || !b.usable then s
  else if 24 < (a.mean - b.mean).natAbs then
    let s1 := s.setIsland n { i with pairOff := true, pairNear := 0 }
    if i.pairOff then s1
    else (s1.event .pairDisagree (some 0xA) 4 (2 * n) none 0 [BitVec.ofNat 64 (sensorWord a), BitVec.ofNat 64 (2 * n), tempWord a.mean, tempWord b.mean]).ctrAdd thmPairEvents 1
  else if i.pairOff then
    s.setIsland n (if 4000 ≤ i.pairNear + 1 then { i with pairOff := false, pairNear := 0 } else { i with pairNear := i.pairNear + 1 })
  else s

/-- The usable value of a sensor: of an Erg pair in use, the higher reading alone (R427, R433). -/
def State.usableValue (s : State) (k : Nat) : Option Int :=
  let x := s.sensor k
  if !x.usable then none
  else if k < 512 then
    let y := s.sensor (Nat.xor k 1)
    if y.usable && (decide (x.mean < y.mean) || (x.mean == y.mean && decide (k % 2 = 1))) then none else some x.mean
  else some x.mean

/-- Half of each usable value's difference from its predicted node goes to the nodes it covers (R427). -/
def State.correctNodes (s : State) : State :=
  let diffs := (Tbl.keys s.thm.sensors).filterMap (fun k => (s.usableValue k).map (fun v => (k, (v - (s.sensor k).pred) / 2)))
  let nodes := diffs.foldl (fun t d => (sensorCols d.1).foldl (fun u n =>
    Tbl.put 0 u (256 * sensorTier d.1 + n) (Tbl.get 0 u (256 * sensorTier d.1 + n) + d.2)) t) s.thm.nodes
  { s with thm := { s.thm with nodes := nodes } }

/-! ### Ceilings and quotas (R430, R431) -/

/-- A forecast peak as control uses it. -/
def State.peakOf (s : State) (tier col : Nat) : Int := Tbl.get 0 s.thm.peaks (256 * tier + col) + s.guard tier col
/-- The highest Hamada peak. -/
def State.hamadaPeak (s : State) : Int := (List.range 256).foldl (fun m n => max m (s.peakOf 0 n)) (s.peakOf 0 0)
/-- Whole degrees, rounded up, of a positive excess. -/
def degrees (x : Int) : Nat := ((x + 7) / 8).toNat

/-- Sensors with an emergency in force. -/
def State.emergencies (s : State) : List Nat := (s.thm.sensors.filter (fun e => e.2.emerg)).map (·.1)

/-- A quota of tier d of vault n after an evaluation; at most 8 in a marked band (R431, R438). -/
def State.newQuota (s : State) (n d : Nat) : QuotaSt :=
  let q := s.quotaOf n d
  let x := s.peakOf (3 + d) n - s.thm.target (3 + d)
  let top := if s.thm.marked.contains (3 + d, n / 64) then 8 else 16
  let r : QuotaSt :=
    if 0 < x then { q with quota := q.quota - 4 * degrees x, cool := 0 }
    else if x ≤ -24 then
      if 4 ≤ q.cool + 1 then { q with quota := min top (q.quota + 2), cool := 0 } else { q with cool := q.cool + 1 }
    else { q with cool := 0 }
  { r with quota := min top r.quota, zero := decide (min top r.quota = 0) }

/-- The quotas of a vault; a tier under an emergency keeps its setting (R432). -/
def State.setQuotas (s : State) (emerg : List Nat) (n : Nat) : State :=
  (List.range 8).foldl (fun (t : State) d =>
    if emerg.contains (576 + 64 * d + groupOf n) then
      t.setQuota n d { t.quotaOf n d with zero := decide ((t.quotaOf n d).quota = 0) }
    else t.setQuota n d (t.newQuota n d)) s

/-- The excess of an island: Erg, Playa and Hamada peaks, and tiers whose quota was already 0 at the last evaluation. -/
def State.excess (s : State) (hamada : Int) (n : Nat) : Int :=
  let own := max (max (s.peakOf 2 n - s.thm.target 2) (s.peakOf 1 n - 800)) (hamada - 800)
  (List.range 8).foldl (fun m d =>
    let x := s.peakOf (3 + d) n - s.thm.target (3 + d)
    if (s.quotaOf n d).zero ∧ 0 < x then max m x else m) own

/-- An island after an evaluation, and the ceiling steps it was taken down. -/
def State.newIsland (s : State) (hamada : Int) (n : Nat) : IslandSt × Nat :=
  let i := s.island n
  let x := s.excess hamada n
  if 0 < x then
    let f := fallSteps s.pwr.fixedFreq (max 1 (degrees x)) i.ceilMhz i.duty
    ({ i with ceilMhz := f.1, duty := f.2, cool := 0 }, (i.ceilMhz - f.1) / 50)
  else if x ≤ -24 then
    if i.cool + 1 < 4 then ({ i with cool := i.cool + 1 }, 0)
    else if i.duty < 64 then ({ i with duty := min 64 (i.duty + 8), cool := 0 }, 0)
    else if s.pwr.fixedFreq then ({ i with cool := 0 }, 0)
    else ({ i with ceilMhz := min 1800 (i.ceilMhz + 50), cool := 0 }, 0)
  else ({ i with cool := 0 }, 0)

/-- An emergency holds an island's settings. -/
def islandHeld (emerg : List Nat) (n : Nat) : Bool :=
  emerg.any (fun k => sensorTier k == 0 || (decide (sensorTier k < 3) && (sensorCols k).contains n))

/-- PEAK and SRC of `THM_ISLAND`, and the ceiling. -/
def State.setIslandLimit (s : State) (emerg : List Nat) (hamada : Int) (n : Nat) : State :=
  let r := if islandHeld emerg n then (s.island n, 0) else s.newIsland hamada n
  let use (k : Nat) : Bool := (s.sensor k).state == 0
  let src := if use (2 * n) && use (2 * n + 1) then 0 else if use (2 * n) || use (2 * n + 1) then 1 else 2
  let peak := min 255 (Tbl.get 0 s.thm.peaks (512 + n) / 8).toNat
  (s.setIsland n { r.1 with peak := BitVec.ofNat 8 peak, src := BitVec.ofNat 2 src }).ctrAdd thmCeilDown r.2

/-- Emergency and trip at the nodes that run on the model (R435, R447). -/
def State.guardNodes (s : State) : State :=
  let failed := (s.thm.sensors.filter (fun e => e.2.state ≠ 0)).map (·.1)
  failed.foldl (fun t k =>
    let tier := sensorTier k
    (sensorCols k).foldl (fun u n =>
      if !u.guarded tier n then u
      else
        let temp := u.nodeTemp tier n + 40
        let u1 := if (emergAt tier).any (fun x => decide (x < temp)) then u.emergency ((nodeSensors tier n).headD k) temp else u
        if (tripAt tier).any (fun x => decide (x < temp)) then u1.trip (256 * tier + n) true temp else u1) t) s

/-! ### Refresh rate (R169) -/

/-- Temperature of a tier of a vault: the highest of its sensor and its node. -/
def State.tierTemp (s : State) (n d : Nat) : Int :=
  let x := s.sensor (576 + 64 * d + groupOf n)
  if x.usable then max x.mean (s.nodeTemp (3 + d) n) else s.nodeTemp (3 + d) n
/-- Tiers above 85 °C refresh at the short interval. -/
def State.hotTiers (s : State) : State :=
  (List.range 2048).foldl (fun t k =>
    if 680 < t.tierTemp (k / 8) (k % 8) then t.setTier (k / 8) (k % 8) { t.tier (k / 8) (k % 8) with fast := true } else t) s
/-- REFRESH_RATE_RESTORE: the tier has stayed at or below 85 °C for 32 ms. -/
def execRefreshRateRestore (vault tier : Nat) (s : State) : Answer :=
  if s.tierTemp vault tier ≤ 680 then .next (s.setTier vault tier { s.tier vault tier with fast := false }) else .next s

/-! ### Bond wear (R30 to R35) -/

/-- Tier codes on the two sides of interface i. -/
def bondSides (i : Nat) : Nat × Nat :=
  [(0, 11), (11, 1), (1, 2), (2, 12), (12, 3), (3, 4), (4, 5), (5, 6), (6, 13), (13, 7), (7, 8), (8, 9), (9, 10), (10, 14)].getD i (0, 11)
/-- Columns of a quadrant. -/
def quadrantCols (q : Nat) : List Nat :=
  (List.range 64).map (fun i => 16 * (8 * (q / 2) + i / 8) + 8 * (q % 2) + i % 8)
/-- Temperature of an interface in a quadrant, 1/128 °C. -/
def State.bondTemp (s : State) (i q : Nat) : Int :=
  let mean (n : Nat) : Int := 8 * (s.nodeTemp (bondSides i).1 n + s.nodeTemp (bondSides i).2 n)
  (quadrantCols q).foldl (fun m n => max m (mean n)) (mean ((quadrantCols q).headD 0))

/-- Wear of a half-cycle of range r, 1/128 °C: 10 °C and more count (R32). -/
def halfCycle (r : Nat) : Nat := if r < 1280 then 0 else r * r

/-- Rainflow counting over the turning points, latest first: what is left and the wear counted (R31, ASTM E1049). -/
def rainflow : Nat → List Int → Nat → List Int × Nat
  | fuel + 1, a :: b :: c :: r, wear =>
    let y := (b - c).natAbs
    if (a - b).natAbs < y then (a :: b :: c :: r, wear)
    else if r.isEmpty then rainflow fuel [a, b] (wear + halfCycle y)
    else rainflow fuel (a :: r) (wear + 2 * halfCycle y)
  | _, l, wear => (l, wear)

/-- A turning point joins the residue; one that only continues the last move replaces it. More than 32: the oldest pair
is a half-cycle and goes (R33). -/
def pushTurn (l : List Int) (t : Int) : List Int × Nat :=
  let m := match l with
    | a :: b :: r => if (b ≤ a ∧ a ≤ t) ∨ (t ≤ a ∧ a ≤ b) then t :: b :: r else t :: l
    | [a] => if a = t then l else t :: l
    | [] => [t]
  let x := rainflow m.length m 0
  if x.1.length ≤ 32 then x
  else
    let k := x.1.length - 2
    (x.1.take k, x.2 + halfCycle ((x.1.getD k 0) - (x.1.getD (k + 1) 0)).natAbs)

/-- The 2 °C hysteresis filter: the new extreme and direction, and a turning point where the direction changes. -/
def turnFilter (p : Int × Bool) (t : Int) : (Int × Bool) × Option Int :=
  if p.2 then (if p.1 ≤ t then ((t, true), none) else if 256 ≤ p.1 - t then ((t, false), some p.1) else (p, none))
  else (if t ≤ p.1 then ((t, false), none) else if 256 ≤ t - p.1 then ((t, true), some p.1) else (p, none))

/-- Turning points of residue list `l` pushed in turn. -/
def pushTurns (l : List Int) (ts : List Int) : List Int × Nat :=
  ts.foldl (fun x t => let y := pushTurn x.1 t; (y.1, x.2 + y.2)) (l, 0)

/-- One counter's sample: key 4 × interface + quadrant. At the first sample after a start, the last temperature recorded
and this one are turning points (R34). -/
def Bond.sample (b : Bond) (key : Nat) (t : Int) : Bond :=
  let res := Tbl.get [] b.residue key
  let f := if b.fresh then ((t, decide (Tbl.get t b.last key ≤ t)), none) else turnFilter (Tbl.get (t, true) b.peak key) t
  let r := pushTurns res (if b.fresh then ((Tbl.find b.last key).toList ++ [t]) else f.2.toList)
  { b with
    counts := Tbl.put 0 b.counts key (Tbl.get 0 b.counts key + r.2)
    residue := Tbl.put [] b.residue key r.1
    last := Tbl.setKey b.last key t
    peak := Tbl.setKey b.peak key f.1 }

/-- The checkpoint is written (R33). -/
def State.bondCheckpoint (s : State) : State :=
  { s with boot := { s.boot with bondCounts := s.bond.counts, bondResidue := s.bond.residue, bondLast := s.bond.last } }

/-- BOND_WEAR_SAMPLE and BOND_WEAR_WARNING: all 56 counters; a checkpoint at each whole percent; the events of 80 % and
100 %, once each. -/
def State.bondSample (s : State) : State :=
  let b := (List.range 56).foldl (fun x k => x.sample k (s.bondTemp (k / 4) (k % 4))) s.bond
  let b1 := { b with fresh := false }
  let crossed := (List.range 56).any (fun k => bondPercent (Tbl.get 0 s.bond.counts k) ≠ bondPercent (Tbl.get 0 b1.counts k))
  let life := bondLife b1.counts
  let s1 := { s with bond := { b1 with warned := b1.warned || decide (80 ≤ life), critical := b1.critical || decide (100 ≤ life) } }
  let s2 := if crossed then s1.bondCheckpoint else s1
  let s3 := if 80 ≤ life ∧ !b1.warned then s2.event .bondWarning none 0 0 none 0 [BitVec.ofNat 64 life] else s2
  if 100 ≤ life ∧ !b1.critical then s3.event .bondCritical none 0 0 none 0 [BitVec.ofNat 64 life] else s3

/-- BOND_CHECKPOINT (R33). -/
def execBondCheckpoint (s : State) : Answer := .next s.bondCheckpoint

/-! ### The evaluation -/

/-- A node or peak table takes the part's values. -/
def takeTemps (t : Tbl Int) (l : List (Nat × Int)) : Tbl Int := l.foldl (fun u e => if e.1 < 15 * 256 then Tbl.put 0 u e.1 e.2 else u) t

/-! ### The model (R426, R436) -/

/-- The tray flow that the device uses: 60 % of nominal while stale; nominal while the tray bus is not polled. -/
def Thm.flowNow (t : Thm) : Nat :=
  if !t.trayEn then t.flowNom.toNat else if t.flowStale then 60 * t.flowNom.toNat / 100 else t.flow
/-- The inlet temperature that the device uses: 45 °C while stale. -/
def Thm.inletNow (t : Thm) : Int := if t.inletStale then 360 else t.inlet
/-- The flows of the 4 bands of the 4 layers, in 1/800 mL/min: a quarter of the layer's share, halved while suspect (R439). -/
def Thm.bandFlows (t : Thm) : List Nat :=
  (List.range 16).map (fun k =>
    let f := t.flowNow * (t.shares.getD (k / 4) 0).toNat * 2
    if (Tbl.get WadiSt.reset t.wadi k).half then f / 2 else f)
/-- The value of a node after steps of power from the present state. -/
def State.nodeAfter (s : State) (steps : List (List (Nat × Nat))) (node : Nat) : Int :=
  Config.thermalNode s.calVersion s.thm.nodes s.thm.inletNow s.thm.bandFlows steps node
/-- Every node predicted over 250 µs (R427). -/
def State.predict (s : State) (power : List (Nat × Nat)) : List (Nat × Int) :=
  (List.range 3840).map (fun k => (k, s.nodeAfter [power] k))

/-- The tier codes next to a Wadi layer (R436). -/
def adjacentTiers (layer : Nat) : List Nat :=
  [[0, 1, 2], [2, 3, 4, 5, 6], [3, 4, 5, 6, 7, 8, 9, 10], [7, 8, 9, 10]].getD layer []
/-- An evaluation joins the windows of the residual check. -/
def State.joinWindows (s : State) : State :=
  let add (k : Nat) : WadiSum :=
    let w := Tbl.get (⟨0, 0, 0, 0⟩ : WadiSum) s.thm.window k
    { count := w.count + 1, tin := w.tin + (s.sensor (1120 + 8 * (k / 4) + k % 4)).mean
      tout := w.tout + (s.sensor (1124 + 8 * (k / 4) + k % 4)).mean
      heat := w.heat + Config.layerHeat s.calVersion s.thm.nodes s.thm.bandFlows (k / 4) (k % 4) }
  { s with thm := { s.thm with window := (List.range 16).foldl (fun t k => Tbl.put ⟨0, 0, 0, 0⟩ t k (add k)) s.thm.window } }

/-! ### The forecast (R428) -/

/-- 2^(i/8) in units of 2^-32. -/
def eighthPowers : List Nat := [4294967296, 4683695047, 5107605667, 5569883475, 6074000999, 6623745058, 7223245205, 7877004751]
/-- 2^(DUR_HINT / 8) ns, whole nanoseconds; 0 without a hint (R49). -/
def hintNs (h : Nat) : Nat := if h = 0 then 0 else eighthPowers.getD (h % 8) 0 * 2 ^ (h / 8) / 2 ^ 32
/-- What a clause draws on a core and for how long: POWER_HINT × 50 mW, or the present estimate without a hint. -/
def hintSpan (present : Nat) (c : BitVec 512) : Nat × Nat :=
  (hintNs (clDurHint c), if clPowerHint c = 0 then present else 50 * clPowerHint c)

/-- Clauses whose shares are queued at a core, in issue order. -/
def State.queuedClauses (s : State) (n : Nat) : List (BitVec 512) :=
  let l := ((s.core n).qMain ++ (s.core n).qParen).filterMap (fun q => (s.ring q.1).clauseOf q.2)
  (l.mergeSort (fun a b => decide (a.order ≤ b.order))).map (·.bits)
/-- Clauses that the fields over a core have fetched and not issued; ring after ring (DESIGN CHOICE, log 61). -/
def State.fetchedClauses (s : State) (n : Nat) : List (BitVec 512) :=
  let fids := (s.fieldCovering n false).toList ++ (s.fieldCovering n true).toList
  s.rings.flatMap (fun e => if e.1 ≠ 0 && e.2.isOpen && fids.contains e.2.field
    then (e.2.clauses.filter (fun c => c.phase = Phase.posted)).map (·.bits) else [])

/-- Energy in mW ns of spans laid end to end up to a time, the present power after them. -/
def spanEnergy (present : Nat) : List (Nat × Nat) → Nat → Nat
  | [], t => t * present
  | (d, p) :: r, t => if t ≤ d then t * p else d * p + spanEnergy present r (t - d)
/-- Mean power of a core's domain in step k of 250 µs. -/
def State.corePower (s : State) (n present k : Nat) : Nat :=
  let spans := (s.queuedClauses n ++ s.fetchedClauses n).map (hintSpan present)
  (spanEnergy present spans (250000 * (k + 1)) - spanEnergy present spans (250000 * k)) / 250000
/-- Power of every domain in each of the 20 steps: the present one, but for core domains. Dune tiers follow the 308 domains. -/
def State.forecastPower (s : State) (power : List (Nat × Nat)) : List (List (Nat × Nat)) :=
  (List.range 20).map (fun k => (List.range (Config.domains + 8)).map (fun d =>
    let present := Tbl.get 0 power d
    (d, if d < 256 then s.corePower d present k else present)))
/-- The forecast peak of every node: its highest value over the 20 steps (R427, R428). -/
def State.forecast (s : State) (power : List (Nat × Nat)) : Tbl Int :=
  let steps := s.forecastPower power
  (List.range 2816).foldl (fun t node =>
    let at_ (k : Nat) : Int := s.nodeAfter (steps.take (k + 1)) node
    Tbl.put 0 t node ((List.range 20).foldl (fun m k => max m (at_ k)) (at_ 0))) []

/-- Prediction, comparison, correction and forecast, from the present power of each domain and Dune tier in mW. -/
def State.evaluateModel (s : State) (power : List (Nat × Nat)) : State :=
  let s1 := { s with thm := { s.thm with nodes := takeTemps s.thm.nodes (s.predict power), evals := s.thm.evals + 1 } }
  let s2 := (List.range Config.sensors).foldl State.judgeSensor s1
  let s3 := ((List.range 256).foldl State.judgePair s2).correctNodes.joinWindows
  { s3 with thm := { s3.thm with peaks := s3.forecast power } }

/-- Quotas, ceilings and guards. -/
def State.evaluateControl (s : State) : State :=
  let emerg := s.emergencies
  let hamada := s.hamadaPeak
  let s1 := (List.range 256).foldl (fun t n => (t.setIslandLimit emerg hamada n).setQuotas emerg n) s
  s1.guardNodes

/-- THERMAL_EVALUATION (R427 to R435, R169, R25, R31, R35). -/
def execThermalEvaluation (power : List (Nat × Nat)) (s : State) : Answer :=
  let s1 := (s.evaluateModel power).evaluateControl
  let s2 := ((List.range 256).foldl State.retuneTest s1.hotTiers).bondSample
  .next ((((s2.vaults.filter (fun e => e.2.jobs ≠ [])).foldl (fun t e => t.grantTokens e.1) s2).ctrAdd thmEvals 1).noteSensors s)

/-! ### The Wadi residual (R436 to R439) -/

/-- One layer and band of the check (R436, R437): the mean inlet and outlet temperatures in 1/8 °C, the model heat in mW,
and the calibrated resistances R_k of the adjacent tiers in mK/W, by MARKED's code (1 B, 2 S, 3 C, 4 + d for Dd). -/
structure WadiBand where
  layer  : Nat
  band   : Nat
  tin    : Int
  tout   : Int
  qModel : Int
  rk     : List (Nat × Nat)
deriving DecidableEq, Repr

/-- Q_meas in mW. -/
def Thm.qMeas (t : Thm) (layer : Nat) (rise : Int) : Int :=
  ((t.cp.toNat * t.flowNow * (t.shares.getD layer 0).toNat : Nat) : Int) * rise / 192000
/-- Whole watts, to nearest. -/
def watts (mw : Int) : Int := (mw + 500) / 1000

/-- TIER_SENSORS_FAILED: a tier is marked in a band (R438). -/
def State.markTier (s : State) (layer b tier : Nat) (qMeas qModel : Int) : State :=
  if s.thm.marked.contains (tier, b) then s
  else
    let s1 := (bandSensors tier b).foldl (fun t k => if (t.sensor k).state = 3 then t else t.setSensor k { t.sensor k with state := 2 }) s
    let s2 := { s1 with thm := { s1.thm with marked := (tier, b) :: s1.thm.marked } }
    let s3 := if tier < 3 then s2
      else (bandCols b).foldl (fun (t : State) n =>
        t.setQuota n (tier - 3) { t.quotaOf n (tier - 3) with quota := min 8 (t.quotaOf n (tier - 3)).quota }) s2
    s3.event .tierMarked (some 0xA) 4 (4 * layer + b) none 0
      [BitVec.ofNat 64 (wadiWord (Tbl.get WadiSt.reset s.thm.wadi (4 * layer + b))), BitVec.ofNat 64 (tier + 1), tempWord qMeas, tempWord qModel]

/-- `THM_WADI.MARKED` of a tier: 1 B, 2 S, 3 C, 4 + d. -/
def markedCode (tier : Nat) : BitVec 4 := BitVec.ofNat 4 (tier + 1)

/-- The tier with the largest implied excess, and that excess in µ°C; `rk` by MARKED's codes. -/
def worstTier (resid : Int) (rk : List (Nat × Nat)) : Option (Nat × Int) :=
  rk.foldl (fun m e =>
    let x := resid * (e.2 : Int)
    match m with
    | some y => if y.2 < x then some (e.1, x) else m
    | none => some (e.1, x)) none

/-- One layer and band of the check. -/
def State.wadiBand (s : State) (x : WadiBand) : State :=
  let k := 4 * x.layer + x.band
  let w := Tbl.get WadiSt.reset s.thm.wadi k
  let qm := s.thm.qMeas x.layer (x.tout - x.tin)
  let resid := qm - x.qModel
  let worst := worstTier resid x.rk
  let hot := worst.any (fun e => decide (8000000 < e.2))
  let above := if hot then w.above + 1 else 0
  let below := if 5 * qm < 4 * x.qModel then w.below + 1 else 0
  let near := if 10 * x.qModel ≤ 11 * qm then w.near + 1 else 0
  let starts := decide (10 ≤ below) && !w.half
  let marks := decide (2 ≤ above)
  let code := match worst with
    | some e => e.1
    | none => 0
  let w1 : WadiSt := { w with
    resid := watts resid, qMeas := (watts qm).toNat, above := above, below := below, near := near
    half := (w.half || starts) && !(w.half && decide (500 ≤ near))
    marked := if marks then BitVec.ofNat 4 code else w.marked }
  let s1 := { s with thm := { s.thm with wadi := Tbl.put WadiSt.reset s.thm.wadi k w1 } }
  let s2 := if starts then
      s1.event .wadiFlow none 4 k none 0 [BitVec.ofNat 64 k, tempWord qm, tempWord x.qModel] else s1
  if marks ∧ 1 ≤ code then s2.markTier x.layer x.band (code - 1) qm x.qModel else s2

/-- The check of a band is made: flow of 30 % and the band's inlet and outlet sensors in use (R436, R442). -/
def State.wadiChecked (s : State) (x : WadiBand) : Bool :=
  decide (30 * s.thm.flowNom.toNat ≤ 100 * s.thm.flowNow) && !s.thm.inletStale
    && (s.sensor (1120 + 8 * x.layer + x.band)).usable && (s.sensor (1124 + 8 * x.layer + x.band)).usable

/-- A layer and band as its window gives it. -/
def State.wadiWindow (s : State) (k : Nat) : Option WadiBand :=
  let w := Tbl.get (⟨0, 0, 0, 0⟩ : WadiSum) s.thm.window k
  if w.count = 0 then none
  else some { layer := k / 4, band := k % 4, tin := w.tin / w.count, tout := w.tout / w.count, qModel := w.heat / w.count
              rk := (adjacentTiers (k / 4)).map (fun t => (t + 1, Config.tierResistance s.calVersion (k / 4) t)) }

/-- WADI_RESIDUAL_CHECK, after every 8th evaluation: every layer and band whose check is made, and new windows begin (R436 to
R439). -/
def execWadiResidualCheck (evaluation : Nat) (s : State) : Answer :=
  if evaluation ≠ s.thm.evals ∨ evaluation % 8 ≠ 0 then .next s
  else
  let t := ((List.range 16).filterMap s.wadiWindow).foldl (fun t b => if t.wadiChecked b then t.wadiBand b else t) s
  .next { t with thm := { t.thm with window := [] } }

/-! ### Coolant flow (R425, R440 to R446) -/

/-- P_flow in W before the inlet's reduction. -/
def flowPoints (f nom : Nat) : Nat :=
  let between (a pa b pb : Nat) : Nat := pa + (pb - pa) * (100 * f - a * nom) / ((b - a) * nom)
  if 100 * nom ≤ 100 * f then 1800
  else if 75 * nom ≤ 100 * f then between 75 1500 100 1800
  else if 50 * nom ≤ 100 * f then between 50 1100 75 1500
  else if 30 * nom ≤ 100 * f then between 30 600 50 1100
  else 400
/-- P_flow (R440). -/
def Thm.flowPower (t : Thm) : Nat :=
  flowPoints t.flowNow t.flowNom.toNat - (60 * (t.inletNow - 320) / 8).toNat

/-- P_FLOW is set again; FLOW_STATE 1 and its event when it falls below 1,800 W (R441). -/
def State.setFlowPower (s : State) : State :=
  let p := s.thm.flowPower
  let fall := decide (p < 1800) && decide (s.thm.pFlow.toNat = 1800)
  let st : BitVec 2 := if 2 ≤ s.thm.flowState.toNat then s.thm.flowState else if p < 1800 then 1 else 0
  let s1 := { s with thm := { s.thm with pFlow := BitVec.ofNat 12 p, flowState := st } }
  if fall then s1.thermalEvent .flow 0 1 (BitVec.ofNat 64 p) else s1

/-- TRAY_SENSOR_POLL: readings that came take their places; a temperature in 1/8 °C, the flow as the mean of ten (R425). -/
def execTraySensorPoll (r : TrayReading) (s : State) : Answer :=
  if !s.thm.trayEn then .next s
  else
    let t := s.thm
    let flows := match r.flow with
      | some f => (f :: t.flows).take 10
      | none => t.flows
    let t1 : Thm := { t with
      flows := flows
      flow := if flows.isEmpty then t.flow else sumOf flows / flows.length
      flowStale := t.flowStale && r.flow.isNone
      inlet := match r.inlet with
        | some x => x / 16
        | none => t.inlet
      outlet := match r.outlet with
        | some x => x / 16
        | none => t.outlet
      inletStale := t.inletStale && (r.inlet.isNone || r.outlet.isNone) }
    .next (({ s with thm := t1 }).setFlowPower.noteSensors s)

/-- TRAY_READING_STALE: the flow, or the inlet or outlet, has failed for 1 s (R442). -/
def execTrayReadingStale (flow : Bool) (s : State) : Answer :=
  if !s.thm.trayEn then .next s
  else
    let s1 := if flow then { s with thm := { s.thm with flowStale := true } } else { s with thm := { s.thm with inletStale := true } }
    .next ((s1.thermalEvent .tray 0 (if flow then 2 else 3) 0).setFlowPower.noteSensors s)

/-- Loss of flow is taken: cores, engines and timers stop, DRAM enters self-refresh (R443). -/
def State.loseFlow (s : State) : State :=
  if 2 ≤ s.thm.flowState.toNat then s
  else (({ s with thm := { s.thm with flowState := 2 } }).enterSelfRefresh).thermalEvent .flow 0 4 0

/-- FLOW_LOST: FLOW_LOST_N has been asserted for 2 µs (R443). -/
def execFlowLost (s : State) : Answer :=
  .next (({ s with pins := { s.pins with flowLost := true }, thm := { s.thm with lostPin := true } }).loseFlow.noteSensors s)

/-- LOW_FLOW_TIMEOUT: F has stayed below 20 % of nominal for 1 s (R442). -/
def execLowFlowTimeout (s : State) : Answer :=
  if 5 * s.thm.flowNow < s.thm.flowNom.toNat then
    .next (({ s with thm := { s.thm with lostLow := true } }).loseFlow.noteSensors s)
  else .next s

/-- FLOW_LOSS_TIMEOUT: flow is not back at 100 ms (R443). -/
def execFlowLossTimeout (s : State) : Answer :=
  if s.thm.flowState ≠ 2 then .next s
  else
    let s1 := { s with thm := { s.thm with flowState := 3 }, pins := { s.pins with pwroffReq := true } }
    .next ((s1.thermalEvent .flow 0 5 0).noteSensors s)

/-- FLOW_RESTORED: FLOW_LOST_N deasserted for 10 ms; with F at 60 % and more, DRAM, VCs, clocks and timers resume where
nothing else stops them (R445, R446). -/
def execFlowRestored (s : State) : Answer :=
  let s1 := { s with pins := { s.pins with flowLost := false }, thm := { s.thm with lostPin := false } }
  if s.thm.flowState.toNat < 2 ∨ 5 * s.thm.flowNow < 3 * s.thm.flowNom.toNat then .next s1
  else
    let s2 := { s1 with
      thm := { s1.thm with lostLow := false, flowState := if s1.thm.pFlow.toNat < 1800 then 1 else 0 }
      pins := { s1.pins with pwroffReq := false } }
    let s3 := if s2.dramFree && decide (s2.glb.rstState = 0) && !s2.glb.collapsed then s2.leaveSelfRefresh else s2
    .next (s3.resumeStopped.noteSensors s)

end Sys2Proof.Machine
end

