-- ==== Sys2Proof/Machine/Registers.lean ====
section
/-! DEFINITION. BAR0: what every set-up register shows, and what a write of one does (17 R536 to R551; 03 R114, R115;
04 R125; 05 R150, R177; 06 R206, R207; 07 R241; 08 R272, R274; 09 R314 to R316; 10 R345, R346; 12 R420 to R422; 13 R451,
R452; 14 R478, R479; 15 R507; 16 R534; 01 R36). -/

namespace Sys2Proof.Machine

/-! ### What registers show: registers of 64 bits -/

/-- Registers of 64 bits by offset in their window; none elsewhere. -/
def State.glb64 (s : State) (o : Nat) : Option Nat :=
  match o with
  | 0x018 => some s.boot.unit.toNat
  | 0x020 => some s.time.toNat
  | 0x100 => some (s.glb.epNumber.toNat * 2 ^ 32 + flag s.glb.epScope * 2 ^ 30 + flag s.glb.epIrqEn * 2 ^ 29 + s.glb.epVector.toNat * 2 ^ 18)
  | 0x108 => some (s.glb.lastNumber.toNat * 2 ^ 32 + s.glb.epState.toNat * 2 ^ 29 + s.glb.epResult.toNat * 2 ^ 26
      + flag s.glb.epMissed * 2 ^ 25 + s.glb.epRej.toNat)
  | _ => none

/-- Open rings whose line is polled (R46). -/
def State.polledRings (s : State) : Nat := (s.rings.filter (fun e => e.2.isOpen && s.cmd.polled.any (fun w => w.line == e.2.ctx.dbLine))).length
def State.cmd64 (s : State) (o : Nat) : Option Nat :=
  match o with
  | 0x00 => some (s.staged.rctBase.toNat * 2 ^ 12)
  | 0x18 => some (s.polledRings * 2 ^ 32 + s.cmd.watch.length)
  | _ => none
def State.ntb64 (s : State) (o : Nat) : Option Nat :=
  match o with
  | 0x00 => some (s.staged.ntbBase.toNat * 2 ^ 26)
  | 0x08 => some (s.staged.chainBase.toNat * 2 ^ 20)
  | 0x10 => some (s.staged.ptBase.toNat * 2 ^ 21)
  | 0x18 => some s.staged.ptSize.toNat
  | _ => none
/-- NBE_DARK_LO and NBE_DARK_HI. -/
def State.nbe64 (s : State) (n o : Nat) : Option Nat :=
  let mask (lo : Nat) : Nat := (s.vault n).dark.foldl (fun m p => if lo ≤ p ∧ p < lo + 64 then m + 2 ^ (p - lo) else m) 0
  match o with
  | 0x50 => some (mask 0)
  | 0x58 => some (mask 64)
  | _ => none
def State.kvm64 (s : State) (o : Nat) : Option Nat :=
  match o with
  | 0x00 => some (s.staged.seqBase.toNat * 2 ^ 25 + flag s.staged.seqEn)
  | 0x08 => some (s.staged.poolBase.toNat * 2 ^ 22)
  | 0x18 => some (s.kvm.badFrame.toNat * 2 ^ 48 + s.kvm.lastChange.toNat * 2 ^ 32 + flag s.kvm.active * 2 ^ 31 + s.freePages)
  | _ => none
def State.lnk64 (s : State) (o : Nat) : Option Nat :=
  match o with
  | 0xC010 => some (s.staged.groupBase.toNat * 2 ^ 18)
  | 0xC018 => some (s.staged.lnkChainBase.toNat * 2 ^ 12)
  | _ => none
/-- UPD_PSET_BASE, and UPD_FSTATE of a field: its owner's STEP and phase. -/
def State.upd64 (s : State) (o : Nat) : Option Nat :=
  if o = 0 then some (s.staged.psetBase.toNat * 2 ^ 21 + flag s.staged.psetEn)
  else if 0x100 ≤ o ∧ o < 0x300 then
    some (match s.fieldOf ((o - 0x100) / 8) with
      | none => 0
      | some f => f.owner * 2 ^ 39 + (match s.stepOf f.owner with
          | none => 0
          | some x => flag x.chain * 2 ^ 38 + flag (x.nf || x.nfHeld) * 2 ^ 37
              + (match x.phase with
                 | .open => 0
                 | .pass => 1
                 | .skip => 2) * 2 ^ 35 + x.step.toNat))
  else none
/-- Four powers in 0.1 W. -/
def powerWord (a b c d : Nat) : Nat := a / 100 % 2 ^ 16 + b / 100 % 2 ^ 16 * 2 ^ 16 + c / 100 % 2 ^ 16 * 2 ^ 32 + d / 100 % 2 ^ 16 * 2 ^ 48
def State.pwr64 (s : State) (o : Nat) : Option Nat :=
  let p := s.pwr
  match o with
  | 0x10 => some (powerWord p.estLink p.estMemory p.estCompute (p.estLink + p.estMemory + p.estCompute + p.estVaux))
  | 0x18 => some (powerWord p.allocLink p.allocMemory p.allocCompute p.budget)
  | 0x28 => some (p.tlmBase.toNat * 2 ^ 12)
  | _ => none
def State.thm64 (s : State) (o : Nat) : Option Nat :=
  if o = 0x18 then some (s.thm.flow % 2 ^ 16 * 2 ^ 32 + ofSigned 12 s.thm.outlet * 2 ^ 16 + ofSigned 12 s.thm.inlet)
  else if 0x800 ≤ o ∧ o < 0x1000 then
    some ((List.range 8).foldl (fun m d => m + (s.quotaOf ((o - 0x800) / 8) d).quota * 2 ^ (5 * d)) 0)
  else none
/-- ERR_CHK_ADDR, and the entries of the vault tables and the summary. -/
def State.err64 (s : State) (o : Nat) : Option Nat :=
  let entry (l : List CeEntry) (k : Nat) : Option Nat :=
    some (match l[k / 2]? with
      | some e => (e.words.getD (k % 2) 0).toNat
      | none => 0)
  if o = 0x1008 then some (s.err.chkAddr.toNat * 2 ^ 6)
  else if 0x40000 ≤ o ∧ o < 0x60000 then entry (Tbl.get [] s.err.tables ((o - 0x40000) / 0x200)) ((o - 0x40000) % 0x200 / 8)
  else if 0x60000 ≤ o ∧ o < 0x64000 then entry s.err.summary ((o - 0x60000) / 8)
  else none

/-- The 28 bytes of an interval record that its CRC covers (R531). -/
def OasisRecord.head (r : OasisRecord) : List Byte :=
  natLe 8 r.second.toNat ++ natLe 4 r.eVin.toNat ++ natLe 4 r.eVdd.toNat ++ natLe 4 r.eVpp.toNat
    ++ natLe 4 (r.samples.toNat + flag r.incomplete * 2 ^ 20 + flag r.sealOpen * 2 ^ 21 + flag r.range * 2 ^ 22 + flag r.clockSet * 2 ^ 23
        + flag r.param * 2 ^ 24) ++ natLe 4 0
def OasisRecord.bytes (r : OasisRecord) : List Byte := r.head ++ natLe 4 (crc32 r.head).toNat
/-- The bytes of a log entry (R533). -/
def OasisLog.head (e : OasisLog) : List Byte :=
  natLe 8 e.seq.toNat ++ natLe 8 e.time.toNat ++ natLe 1 e.kind ++ (e.data ++ List.replicate (11 - e.data.length) 0).take 11
def OasisLog.bytes (e : OasisLog) : List Byte := e.head ++ natLe 4 (crc32 e.head).toNat
/-- The OAS_ window as bytes: a record of 32 at 0x080, the identification at 0x010, the log from 0x1_0000. -/
def State.oas64 (s : State) (o : Nat) : Option Nat :=
  let m := s.oas.mirror
  let part (l : List Byte) (k : Nat) : Option Nat := some (leNat ((l.drop k).take 8))
  if o = 0 then some (flag m.sealOpen * 2 ^ 31 + flag m.running * 2 ^ 30 + flag m.range * 2 ^ 29 + m.version.toNat + m.sealCount.toNat * 2 ^ 32)
  else if 0x10 ≤ o ∧ o < 0x40 then part m.swid (o - 0x10)
  else if o = 0x40 then some m.eVin.toNat
  else if o = 0x48 then some m.eVdd.toNat
  else if o = 0x50 then some m.eVpp.toNat
  else if o = 0x58 then some ((m.eVin + m.eVdd + m.eVpp).toNat)
  else if 0x80 ≤ o ∧ o < 0xA0 then (match m.last with
    | some r => part r.bytes (o - 0x80)
    | none => some 0)
  else if o = 0xA0 then some m.devTime.toNat
  else if 0x10000 ≤ o ∧ o < 0x18000 then (match m.log[(o - 0x10000) / 32]? with
    | some e => part e.bytes (o % 32)
    | none => some 0)
  else none

/-- The 64-bit register at an offset of BAR0 that is a multiple of 8. -/
def State.reg64 (s : State) (off : Nat) : Option Nat :=
  let o := off % 0x100000
  match off / 0x100000 with
  | 0 => s.glb64 o
  | 1 => s.cmd64 o
  | 2 => s.ntb64 o
  | 8 => s.nbe64 (o / 0x1000) (o % 0x1000)
  | 9 => s.kvm64 o
  | 12 => s.lnk64 o
  | 14 => s.upd64 o
  | 15 => s.pwr64 o
  | 16 => s.thm64 o
  | 17 => s.err64 o
  | 20 => s.oas64 o
  | 21 => if o = 8 then some s.dbg.nonce.toNat else none
  | _ => none

/-! ### What registers show: registers of 32 bits -/

def State.glb32 (s : State) (o : Nat) : Nat :=
  let g := s.glb
  match o with
  | 0x000 => g.step.toNat * 2 ^ 29 + flag g.ready * 2 ^ 28 + flag g.computeEn * 2 ^ 27 + flag g.fullTest * 2 ^ 26 + flag g.image * 2 ^ 25
      + flag g.recovery * 2 ^ 24 + g.newDefects.toNat
  | 0x004 => s.boot.startCount % 2 ^ 32
  | 0x010 => Config.jcmMajor * 2 ^ 24 + g.minor.toNat * 2 ^ 16 + s.boot.stepping.toNat * 2 ^ 8 + Config.partId
  | 0x110 => g.epTimeout.toNat
  | 0x200 => flag g.hold * 2 ^ 29 + flag g.bist * 2 ^ 28 + flag g.rstIrqEn * 2 ^ 27 + g.rstVector.toNat * 2 ^ 16 + flag g.fullTestRq * 2 ^ 15
  | 0x208 => g.rstState.toNat * 2 ^ 30 + flag g.hold * 2 ^ 29 + flag g.holdMgt * 2 ^ 28 + flag g.holdSag * 2 ^ 27
  | _ => 0

/-- CMD_RING_STATE (R547). -/
def RingSt.word (x : RingSt) : Nat :=
  x.stopAt % x.size * 2 ^ 16 * flag x.isStopped + (match x.state with
    | .closed => 0
    | .idle => 1
    | .running => 2
    | .stopped => 3
    | .paused => 4)
def State.cmd32 (s : State) (o : Nat) : Nat :=
  let c := s.cmd
  if o = 0x08 then c.r0State.toNat * 2 + flag c.adminEnable
  else if o = 0x10 then c.poll.toNat
  else if o = 0x20 then c.holdoff.toNat
  else if o = 0x28 then c.waitTimeout.toNat
  else if 0x40000 ≤ o ∧ o < 0x80000 then (s.ring ((o - 0x40000) / 4)).word
  else if 0x80000 ≤ o ∧ o < 0x88000 then
    (Tbl.get msixReset c.msixTable ((o - 0x80000) / 16)).toNat / 2 ^ (8 * (o % 16)) % 2 ^ 32
  else if 0x90000 ≤ o ∧ o < 0x90100 then
    c.pba.foldl (fun m v => if v / 32 = (o - 0x90000) / 4 then m + 2 ^ (v % 32) else m) 0
  else 0

/-- CORE_SEQ_STATE (R125). -/
def State.coreWord (s : State) (n : Nat) : Nat :=
  let c := s.core n
  let img (i : Image) : Nat := match i with
    | .loaded _ => 1
    | .invalid => 1
    | _ => 0
  let m := s.fieldCovering n false
  let p := s.fieldCovering n true
  flag m.isSome * 2 ^ 24 + flag p.isSome * 2 ^ 23 + flag c.mappedOut * 2 ^ 22 + img c.imgParen * 2 ^ 21 + img c.imgMain * 2 ^ 20
    + c.qParen.length * 2 ^ 17 + c.qMain.length * 2 ^ 14 + p.getD 0 * 2 ^ 8 + m.getD 0 * 2 ^ 2 + c.run.toNat
/-- The clause of the share at the head of a queue, where its verb runs array passes. -/
def State.arrayShare (s : State) (q : List (Nat × Nat)) : Option ClauseSt :=
  match q with
  | (r, index) :: _ => ((s.ring r).clauseOf index).bind (fun x => if arrayVerb (clVerb x.bits) && x.passes ≠ some 0 then some x else none)
  | [] => none
/-- The clause of which array k of core n has a pass in progress: on an array that the waiting main context holds, the
main share's; else that of the running context, once its work is out. A single pass runs on the array that the core's
previous one-array share left idle, or on the one that is lent (R115, R116, R121, R448). -/
def State.passOn (s : State) (n k : Nat) : Option ClauseSt :=
  let c := s.core n
  let out (o : Option ClauseSt) (one : Nat) : Option ClauseSt := o.bind (fun x =>
    if x.worked && (x.passes ≠ some 1 || one == k) then some x else none)
  if c.run = 2 ∨ c.run = 3 then
    if c.mainHeld.contains k then s.arrayShare c.qMain
    else out (s.arrayShare c.qParen) (if c.mainHeld.contains 0 then 1 else 0)
  else if c.run = 1 then out (s.arrayShare c.qMain) (1 - c.lastArray)
  else none

/-- ARR_STATE (R115). -/
def ArraySt.word (a : ArraySt) (busy : Bool) : Nat :=
  a.mode.toNat * 2 ^ 24 + a.fmtA.toNat * 2 ^ 16 + a.fmtB.toNat * 2 ^ 8 + flag a.poison * 2 ^ 4 + flag a.bank * 2 ^ 3 + flag a.accum * 2 ^ 2
    + flag a.sr * 2 + flag busy
/-- ARR_STATE of array k of core n: the clause running on it now, or the last that ran there (R115). -/
def State.arrayWord (s : State) (n k : Nat) : Nat :=
  let a := if k = 0 then (s.core n).array0 else (s.core n).array1
  match s.passOn n k with
  | some c => (a.showClause c a.poison).word true
  | none => a.word false
/-- NBE_STATE; SAG_PAUSE stands for every cause of R203 (R206). -/
def State.nbeWord (s : State) (n : Nat) : Nat :=
  let v := s.vault n
  flag ((List.range 8).any (fun d => decide ((s.quotaOf n d).quota < 16))) * 2 ^ 25
    + flag ((List.range 8).any (fun t => (s.tier n t).yielding)) * 2 ^ 24 + flag s.enginesStopped * 2 ^ 23
    + (match v.activeJob with
       | some j => 2 ^ 22 + j.field * 2 ^ 16
       | none => 0)
    + v.quota * 2 ^ 8 + s.tokensHeld n
/-- A route entry as it reads: its reserved bits are 0, though an entry written with one is not valid (R8, R297). -/
def routeShown (w : Word32) : Nat := w.toNat - bits w.toNat 30 29 * 2 ^ 29
def State.lnk32 (s : State) (o : Nat) : Nat :=
  if o < 0xC000 then
    let x := s.port (o / 0x1000)
    let k := o % 0x1000
    if k = 0 then portStatus x
    else if k = 4 then portPeer x
    else if 0x10 ≤ k ∧ k < 0x24 then
      let c := s.staged.pool (o / 0x1000) ((k - 0x10) / 4)
      c.limit.toNat * 2 ^ 12 + c.reserve.toNat
    else 0
  else if o = 0xC000 then flag s.staged.idValid * 2 ^ 31 + s.staged.deviceId.toNat
  else if o = 0xC004 then flag s.staged.syncRoot * 2 ^ 16 + s.staged.syncParent.toNat * 2 ^ 12 + s.staged.syncChildren.toNat
  else if o = 0xC008 then s.staged.hopLimit.toNat
  else if 0xC020 ≤ o ∧ o < 0xC050 then leNat ((s.lnk.cfgDigest.drop (o - 0xC020)).take 4)
  else if o = 0xC050 then s.lnk.offset.toNat * 2 ^ 16 + s.lnk.depth.toNat * 2 ^ 4 + flag s.lnk.locked
  else if 0x10000 ≤ o ∧ o < 0x14000 then routeShown (Tbl.get 0 s.staged.route ((o - 0x10000) / 4))
  else if 0x20000 ≤ o ∧ o < 0x24000 then routeShown (Tbl.get 0 s.applied.route ((o - 0x20000) / 4))
  else 0
def State.pwr32 (s : State) (o : Nat) : Nat :=
  let p := s.pwr
  if 0x10000 ≤ o then
    let x := s.dom ((o - 0x10000) / 0x40)
    if Config.domains ≤ (o - 0x10000) / 0x40 then 0 else if o % 0x40 = 0 then domState x else if o % 0x40 = 8 then domPath x else 0
  else match o with
    | 0x00 => p.mgtCap.toNat * 2 ^ 16 + p.hostCap.toNat
    | 0x04 => p.brakeCap.toNat * 2 ^ 8 + flag p.gateEn * 2 ^ 6 + flag p.boostEn * 2 ^ 5 + flag p.fixedFreq * 2 ^ 4 + p.prio.toNat
    | 0x08 => p.live.toNat * 2 ^ 16 + p.limit.toNat
    | 0x0C => p.sagStage * 2 ^ 29 + flag p.linkHold * 2 ^ 28 + flag p.brake * 2 ^ 27 + flag p.capLimited * 2 ^ 26 + flag p.railLimited * 2 ^ 25
        + flag p.calOk * 2 ^ 24 + p.capSource * 2 ^ 22 + p.capEff
    | 0x20 => p.throttle * 2 ^ 16 + p.ceilMhz
    | 0x30 => p.tlmLog2.toNat * 2 + flag p.tlmEn
    | _ => 0
def State.thm32 (s : State) (o : Nat) : Nat :=
  let t := s.thm
  let sh (i : Nat) : Nat := (t.shares.getD i 0).toNat * 2 ^ (8 * i)
  if o = 0x00 then t.flowNom.toNat * 2 ^ 16 + t.duneTgt.toNat * 2 ^ 8 + t.ergTgt.toNat
  else if o = 0x04 then t.cp.toNat
  else if o = 0x08 then sh 0 + sh 1 + sh 2 + sh 3
  else if o = 0x0C then flag t.trayEn * 2 ^ 31 + t.flowAddr.toNat * 2 ^ 16 + t.outletAddr.toNat * 2 ^ 8 + t.inletAddr.toNat
  else if o = 0x10 then t.statusWord
  else if 0x400 ≤ o ∧ o < 0x800 then
    let n := (o - 0x400) / 4
    (s.island n).peak.toNat * 2 ^ 24 + (s.island n).src.toNat * 2 ^ 22 + (s.islandLimit n).2 * 2 ^ 15 + (s.islandLimit n).1
  else if 0x2000 ≤ o ∧ o < 0x2040 then wadiWord (Tbl.get WadiSt.reset t.wadi ((o - 0x2000) / 4))
  else if 0x10000 ≤ o ∧ o < 0x11200 then sensorWord (s.sensor ((o - 0x10000) / 4))
  else 0
def State.err32 (s : State) (o : Nat) : Nat :=
  let e := s.err
  let x := e.stress
  if o = 0 then e.thresh.toNat
  else if o = 0x1000 then flag e.chkBusy * 2 ^ 8 + flag e.chkParity * 2 + flag e.chkEn
  else if o = 0x1010 then e.chkPoison.toNat
  else if 0x1040 ≤ o ∧ o < 0x1080 then (e.chkData.getD ((o - 0x1040) / 4) 0).toNat
  else if 0x1080 ≤ o ∧ o < 0x1090 then
    (List.range 4).foldl (fun m i => m + (e.chkCb.getD (o - 0x1080 + i) 0).toNat * 2 ^ (8 * i)) 0
  else if o = 0x2000 then x.corners.toNat * 2 ^ 16 + x.row.toNat * 2 ^ 12 + x.col.toNat * 2 ^ 8 + x.heightM1.toNat * 2 ^ 4 + x.widthM1.toNat
  else if o = 0x2008 then x.state.toNat * 2 ^ 30 + x.reject.toNat * 2 ^ 28 + x.corner.toNat * 2 ^ 25
  else if 0x2040 ≤ o ∧ o < 0x2080 then
    (List.range 16).foldl (fun m i => m + (Tbl.get 0 x.results ((o - 0x2040) * 4 + i)).toNat * 2 ^ (2 * i)) 0
  else 0

/-- The quadrant of interface i with the highest count. -/
def Bond.worst (b : Bond) (i : Nat) : Nat :=
  (List.range 4).foldl (fun m q => if Tbl.get 0 b.counts (4 * i + m) < Tbl.get 0 b.counts (4 * i + q) then q else m) 0
/-- Bond life of interface i in units of 0.05 % (R36). -/
def Bond.lifeUnits (b : Bond) (i : Nat) : Nat := 2000 * Tbl.get 0 b.counts (4 * i + b.worst i) / bondBudget
/-- MGT_BOND_LIFE. -/
def Bond.lifeWord (b : Bond) (i : Nat) : Nat :=
  b.worst i * 2 ^ 28 + min 0xFFF (b.lifeUnits i) * 2 ^ 16 + (Tbl.get [] b.residue (4 * i + b.worst i)).length
/-- DBG_STATUS, DBG_UNLOCK_STATUS and the slots. -/
def State.dbg32 (s : State) (o : Nat) : Nat :=
  if o = 0 then flag s.dbg.unlocked * 2 ^ 16 + s.dbg.slots.foldl (fun m e => if e.2.arm then m + 2 ^ e.1 else m) 0
  else if o = 0x18 then s.dbg.result.toNat
  else if 0x100 ≤ o ∧ o < 0x300 then
    let x := s.slot ((o - 0x100) / 0x20)
    [x.func.toNat + 32 * flag x.arm, x.unit.toNat + 2 ^ 16 * x.sub.toNat, x.mag.toNat, x.count.toNat, x.addr.toNat % 2 ^ 32,
     x.addr.toNat / 2 ^ 32, x.mask.toNat % 2 ^ 32, x.mask.toNat / 2 ^ 32].getD (o % 0x20 / 4) 0
  else 0

/-- What the registers of cores, slices, vaults, engines and routers show: while a compute-only reset holds their tiers,
their RO fields read the reset values that their tables give as numbers (R544). -/
def State.unitView (s : State) : State :=
  if s.glb.rstState = 2 then
    { s with
      cores := s.cores.map (fun e => (e.1, { e.2 with mappedOut := false }))
      vaults := s.vaults.map (fun e => (e.1, { e.2 with mode := 0 }))
      routers := s.routers.map (fun e => (e.1, { e.2 with bulkFail := 0, ctrlFail := 0 }))
      fields := [], tiers := [], applied := { s.applied with cacheEn := [] }, pwr := { s.pwr with sagStage := 0 }
      thm := { s.thm with quotas := [] } }
  else s

/-- The 32-bit register at an offset of BAR0 that is a multiple of 4; 0 where there is none (R539). -/
def State.reg32 (s : State) (off : Nat) : Nat :=
  let u := s.unitView
  let o := off % 0x100000
  let n := o / 0x1000
  let k := o % 0x1000
  match off / 0x100000 with
  | 0 => s.glb32 o
  | 1 => s.cmd32 o
  | 3 => if k = 0 then u.coreWord n else 0
  | 4 => if k = 0x20 then s.arrayWord n 0 else if k = 0x120 then s.arrayWord n 1 else 0
  | 6 => if k = 0 then flag (u.fieldCovering n true).isSome * 4 + flag (u.cacheOn n) * 2 + flag (s.staged.cacheEn.contains n) else 0
  | 7 => if k = 0 then laneStatus (u.vault n) n else 0
  | 8 => if k = 0 then u.nbeWord n else 0
  | 9 => if o = 0x10 then flag s.staged.poolEn * 2 ^ 31 + s.staged.poolFrames.toNat else 0
  | 10 => if k = 0 then (Tbl.get 24 s.staged.mainSlots n).toNat else if k = 4 then u.rtrState n else 0
  | 12 => s.lnk32 o
  | 13 => if o = 0 then s.glb.colTimeout.toNat else 0
  | 15 => s.pwr32 o
  | 16 => s.thm32 o
  | 17 => s.err32 o
  | 19 => if 0x400 ≤ o ∧ o < 0x438 then s.bond.lifeWord ((o - 0x400) / 4) else 0
  | 21 => s.dbg32 o
  | _ => 0

/-- The 32 bits that an offset of BAR0, a multiple of 4, holds: half of a counter or of a 64-bit register, or a 32-bit one. -/
def State.liveWord (s : State) (off : Nat) : Nat :=
  let base := off / 8 * 8
  let half (v : Nat) : Nat := if off % 8 = 0 then v % 2 ^ 32 else v / 2 ^ 32 % 2 ^ 32
  match s.reg64 base with
  | some v => half v
  | none => match Tbl.find s.ctr base with
    | some v => half v.toNat
    | none => s.reg32 off % 2 ^ 32

/-- A 64-bit counter or status stands at an offset that is a multiple of 8, not a pair of 32-bit registers. -/
def State.wideAt (s : State) (off : Nat) : Bool :=
  let o := off % 0x100000
  let k := o % 0x1000
  (s.reg64 off).isSome || (Tbl.find s.ctr off).isSome || (match off / 0x100000 with
    | 3 => decide (8 ≤ k)
    | 4 => decide (k % 0x100 < 0x20)
    | 5 => true
    | 7 => decide (8 ≤ k)
    | 8 => decide (8 ≤ k)
    | 10 => decide (8 ≤ k)
    | 17 => decide (0x20000 ≤ o)
    | _ => false)

/-- The value of a 32-bit read at an offset of BAR0 that is a multiple of 4: a latched high half, else what stands there
(R114, R539). -/
def State.regWord (s : State) (off : Nat) : Nat :=
  match (if off % 8 = 4 then Tbl.get none s.latchHi (off - 4) else none) with
  | some w => w.toNat
  | none => s.liveWord off

/-- COUNTER_LOW_READ: a 32-bit read of a low half latches the high half for the next read of offset + 4, which uses the
latch up; a misaligned access is counted (R114, R539, R540). -/
def execCounterLowRead (offset : Nat) (s : State) : Answer :=
  if offset % 4 ≠ 0 then .next (s.ctrAdd 0x28 1)
  else if offset % 8 ≠ 0 then .next { s with latchHi := Tbl.put none s.latchHi (offset - 4) none }
  else if s.wideAt offset then
    .next { s with latchHi := Tbl.put none s.latchHi offset (some (BitVec.ofNat 32 (s.liveWord (offset + 4)))) }
  else .next s

/-! ### Writes: 64-bit registers (R541) -/

/-- ADDR or MASK of a debug slot lies at the offset (R477). -/
def slotWide (off : Nat) : Bool := decide (0x1500100 ≤ off) && decide (off < 0x1500300) && (off % 0x20 == 0x10 || off % 0x20 == 0x18)
def slotOf (off : Nat) : Nat := (off - 0x1500100) / 0x20
/-- A write there is ignored, whole or half, because the slot is armed (R553). -/
def State.slotLocked (s : State) (off : Nat) : Bool := slotWide off && (s.slot (slotOf off)).arm

/-- A 64-bit register that can be written, and takes effect whole: its present value, as writes of its halves keep it. -/
def State.writable64 (s : State) (off : Nat) : Option Nat :=
  if off ∈ [0x100, 0x100000, 0x200000, 0x200008, 0x200010, 0x200018, 0x900000, 0x900008, 0xC0C010, 0xC0C018, 0xE00000, 0xF00028, 0x1101008] then
    s.reg64 off
  else if off = 0x1500010 then some 0
  else if slotWide off then
    some (if off % 0x20 = 0x10 then (s.slot (slotOf off)).addr.toNat else (s.slot (slotOf off)).mask.toNat)
  else none
/-- Its fields are live: they take effect with the high half. -/
def live64 (off : Nat) : Bool := [0x100, 0xF00028, 0x1101008, 0x1500010].contains off || slotWide off

/-- A 64-bit register takes a value. -/
def State.put64 (s : State) (off v : Nat) : State :=
  let sh := s.staged
  match off with
  | 0x100 => s.writeEpochCtrl (BitVec.ofNat 64 v)
  | 0x100000 => { s with staged := { sh with rctBase := BitVec.ofNat 52 (v / 2 ^ 12) } }
  | 0x200000 => { s with staged := { sh with ntbBase := BitVec.ofNat 12 (v / 2 ^ 26) } }
  | 0x200008 => { s with staged := { sh with chainBase := BitVec.ofNat 18 (v / 2 ^ 20) } }
  | 0x200010 => { s with staged := { sh with ptBase := BitVec.ofNat 17 (v / 2 ^ 21) } }
  | 0x200018 => { s with staged := { sh with ptSize := BitVec.ofNat 10 v } }
  | 0x900000 => { s with staged := { sh with seqBase := BitVec.ofNat 13 (v / 2 ^ 25), seqEn := bitAt v 0 } }
  | 0x900008 => { s with staged := { sh with poolBase := BitVec.ofNat 26 (v / 2 ^ 22) } }
  | 0xC0C010 => { s with staged := { sh with groupBase := BitVec.ofNat 20 (v / 2 ^ 18) } }
  | 0xC0C018 => { s with staged := { sh with lnkChainBase := BitVec.ofNat 26 (v / 2 ^ 12) } }
  | 0xE00000 => { s with staged := { sh with psetBase := BitVec.ofNat 17 (v / 2 ^ 21), psetEn := bitAt v 0 } }
  | 0xF00028 => { s with pwr := { s.pwr with tlmBase := BitVec.ofNat 52 (v / 2 ^ 12) } }
  | 0x1101008 => { s with err := { s.err with chkAddr := BitVec.ofNat 32 (v / 2 ^ 6) } }
  | 0x1500010 =>
    if s.dbg.result = 1 then s else { s with dbg := { s.dbg with result := 1, unlockDpa := bits v 37 6 * 64 } }
  | _ => if slotWide off then s.writeSlotWide (slotOf off) (off % 0x20) v else s

/-- A 32-bit write of half of a 64-bit register whose value is `cur`: of a live one, the low half is held until the high
half comes. -/
def State.putHalf (s : State) (base off v cur : Nat) : State :=
  if off % 8 = 0 then
    if live64 base then { s with loHold := Tbl.setKey s.loHold base (BitVec.ofNat 32 v) }
    else s.put64 base (cur / 2 ^ 32 * 2 ^ 32 + v)
  else if live64 base then
    let lo := match Tbl.find s.loHold base with
      | some w => w.toNat
      | none => cur % 2 ^ 32
    ({ s with loHold := Tbl.drop s.loHold base }).put64 base (v * 2 ^ 32 + lo)
  else s.put64 base (v * 2 ^ 32 + cur % 2 ^ 32)

/-! ### Writes: 32-bit registers -/

/-- An MSI-X entry changes; a pending vector that is no longer masked fires, but not within its hold-off (R56, R547). -/
def State.putMsix (s : State) (k : Nat) (v : Nat) : State :=
  let i := k / 16
  let old := (Tbl.get msixReset s.cmd.msixTable i).toNat
  let sh := 8 * (k % 16)
  -- only bit 0 of the vector control is no reserved bit (log 8)
  let new := old - old / 2 ^ sh % 2 ^ 32 * 2 ^ sh + (if sh = 96 then v % 2 else v) * 2 ^ sh
  let s1 := { s with cmd := { s.cmd with msixTable := Tbl.put msixReset s.cmd.msixTable i (BitVec.ofNat 128 new) } }
  if s1.cmd.pba.contains i && !s1.msixMasked i then ({ s1 with cmd := { s1.cmd with pba := delSet i s1.cmd.pba } }).raiseMsix i else s1

/-- CMD_ADMIN_CTRL.ENABLE (R548). -/
def State.putAdmin (s : State) (on : Bool) : Answer :=
  if on then execAdminEnable { cells := [], poison := [] } s else execAdminDisable { cells := [], poison := [] } s

/-- PWR_ registers (R420, R421). -/
def State.putPwr (s : State) (o v : Nat) : State :=
  match o with
  | 0x00 => s.setHostCap (v % 2 ^ 12)
  | 0x04 => { s with pwr := { s.pwr with
      brakeCap := BitVec.ofNat 12 (bits v 19 8), gateEn := bitAt v 6, boostEn := bitAt v 5, fixedFreq := bitAt v 4, prio := BitVec.ofNat 3 v } }
  | 0x08 => { s with pwr := { s.pwr with limit := BitVec.ofNat 16 v } }
  | 0x30 => { s with pwr := { s.pwr with tlmEn := bitAt v 0, tlmLog2 := BitVec.ofNat 4 (bits v 4 1) } }
  | _ => s

/-- THM_ registers; shares that do not sum to 100 are ignored (R451). -/
def State.putThm (s : State) (o v : Nat) : State :=
  let t := s.thm
  match o with
  | 0x00 => { s with thm := { t with flowNom := BitVec.ofNat 16 (v / 2 ^ 16), duneTgt := BitVec.ofNat 8 (v / 2 ^ 8), ergTgt := BitVec.ofNat 8 v } }
  | 0x04 => { s with thm := { t with cp := BitVec.ofNat 16 v } }
  | 0x08 =>
    let l := (List.range 4).map (fun i => v / 2 ^ (8 * i) % 2 ^ 8)
    if sumOf l = 100 then { s with thm := { t with shares := l.map (fun x => BitVec.ofNat 8 x), cfgReject := false } }
    else { s with thm := { t with cfgReject := true } }
  | 0x0C => { s with thm := { t with
      trayEn := bitAt v 31, flowAddr := BitVec.ofNat 7 (v / 2 ^ 16), outletAddr := BitVec.ofNat 7 (v / 2 ^ 8), inletAddr := BitVec.ofNat 7 v } }
  | _ => s

/-- ERR_ registers (R478). -/
def State.putErr (s : State) (o : Nat) (v : Word32) : Answer :=
  let e := s.err
  if o = 0 then .next { s with err := { e with thresh := BitVec.ofNat 16 v.toNat } }
  else if o = 0x1000 then (if bits v.toNat 3 2 = 2 then execRawRead v s else execRawWrite v s)
  else if o = 0x1010 then .next { s with err := { e with chkPoison := BitVec.ofNat 2 v.toNat } }
  else if 0x1040 ≤ o ∧ o < 0x1080 then .next { s with err := { e with chkData := setAt e.chkData ((o - 0x1040) / 4) v } }
  else if 0x1080 ≤ o ∧ o < 0x1090 then
    .next { s with err := { e with chkCb := (List.range 4).foldl (fun l i => setAt l (o - 0x1080 + i) (BitVec.ofNat 7 (v.toNat / 2 ^ (8 * i)))) e.chkCb } }
  else if o = 0x2000 then execStressStart v s
  else .next s

/-- LNK_ shadow registers (R315, R316). -/
def State.putLnk (s : State) (o v : Nat) : State :=
  let sh := s.staged
  if o < 0xC000 then
    let k := o % 0x1000
    if 0x10 ≤ k ∧ k < 0x24 then
      let vc := (k - 0x10) / 4
      let c : PoolCfg := { limit := BitVec.ofNat 12 (v / 2 ^ 12), reserve := BitVec.ofNat 8 v }
      { s with staged := { sh with poolCfg := Tbl.put (poolDefault vc) sh.poolCfg (5 * (o / 0x1000) + vc) c } }
    else s
  else if o = 0xC000 then { s with staged := { sh with idValid := bitAt v 31, deviceId := BitVec.ofNat 16 v } }
  else if o = 0xC004 then
    { s with staged := { sh with syncRoot := bitAt v 16, syncParent := BitVec.ofNat 4 (v / 2 ^ 12), syncChildren := BitVec.ofNat 12 v } }
  else if o = 0xC008 then { s with staged := { sh with hopLimit := BitVec.ofNat 5 v } }
  else if 0x10000 ≤ o ∧ o < 0x14000 then { s with staged := { sh with route := Tbl.put 0 sh.route ((o - 0x10000) / 4) (BitVec.ofNat 32 v) } }
  else s

/-- CMD_ registers (R547). -/
def State.putCmd (s : State) (o v : Nat) : Answer :=
  if o = 0x08 then s.putAdmin (bitAt v 0)
  else if o = 0x10 then .next { s with cmd := { s.cmd with poll := BitVec.ofNat 8 v } }
  else if o = 0x20 then .next { s with cmd := { s.cmd with holdoff := BitVec.ofNat 16 v } }
  else if o = 0x28 then execWaitTimeoutWrite (BitVec.ofNat 32 v) s
  else if 0x80000 ≤ o ∧ o < 0x88000 then .next (s.putMsix (o - 0x80000) v)
  else .next s

/-- A 32-bit register takes a value; read-only, reserved and unassigned offsets ignore it (R539). -/
def State.put32 (s : State) (off v : Nat) : Answer :=
  let o := off % 0x100000
  let n := o / 0x1000
  let k := o % 0x1000
  let w : Word32 := BitVec.ofNat 32 v
  match off / 0x100000 with
  | 0 =>
    if o = 0x110 then .next { s with glb := { s.glb with epTimeout := w } }
    else if o = 0x200 then .next (s.writeResetCtrl w) else .next s
  | 1 => s.putCmd o v
  | 6 =>
    if k ≠ 0 then .next s
    else .next { s with staged := { s.staged with cacheEn := if bitAt v 0 then insSet n s.staged.cacheEn else delSet n s.staged.cacheEn } }
  | 9 => if o = 0x10 then .next { s with staged := { s.staged with poolEn := bitAt v 31, poolFrames := BitVec.ofNat 16 v } } else .next s
  | 10 => if k = 0 then .next { s with staged := { s.staged with mainSlots := Tbl.put 24 s.staged.mainSlots n (BitVec.ofNat 6 v) } } else .next s
  | 12 => .next (s.putLnk o v)
  | 13 => if o = 0 then .next { s with glb := { s.glb with colTimeout := BitVec.ofNat 17 v } } else .next s
  | 15 => .next (s.putPwr o v)
  | 16 => .next (s.putThm o v)
  | 17 => s.putErr o w
  | 21 =>
    if o = 4 then .next (if bitAt v 0 then s.endUnlock else s)
    else if 0x100 ≤ o ∧ o < 0x300 then
      (if o % 0x20 = 0 then .next (s.writeSlotCtrl ((o - 0x100) / 0x20) w) else .next (s.writeSlotWord ((o - 0x100) / 0x20) (o % 0x20) w))
    else .next s
  | _ => .next s

/-! ### REGISTER_WRITE (R539, R541, R544) -/

/-- 32 bits at an aligned offset. -/
def State.writeWord (s : State) (off v : Nat) : Answer :=
  match s.writable64 (off / 8 * 8) with
  | some cur => .next (if s.slotLocked (off / 8 * 8) then s else s.putHalf (off / 8 * 8) off v cur)
  | none => s.put32 off v

/-- 64 bits at an aligned offset: a 64-bit register, or two of 32 bits. -/
def State.writeDword (s : State) (off v : Nat) : Answer :=
  match s.writable64 off with
  | some _ => .next (if s.slotLocked off then s else ({ s with loHold := Tbl.drop s.loHold off }).put64 off v)
  | none => match s.put32 off (v % 2 ^ 32) with
    | .next t => t.put32 (off + 4) (v / 2 ^ 32)
    | a => a

/-- REGISTER_WRITE of `size` bits: discarded and counted unless naturally aligned and of 32 or 64 bits; possible once the
host link is trained (R539, R544). -/
def execRegisterWrite (offset size : Nat) (value : Word64) (s : State) : Answer :=
  if !s.glb.vectorsUp then .next s
  else if size = 32 ∧ offset % 4 = 0 then s.writeWord offset (value.toNat % 2 ^ 32)
  else if size = 64 ∧ offset % 8 = 0 then s.writeDword offset value.toNat
  else .next (s.ctrAdd 0x28 1)

end Sys2Proof.Machine
end

