-- ==== Sys2Proof/Machine/Manage.lean ====
section
/-! DEFINITION. The management core: MCTP, PLDM, firmware update, signed commands, SPDM, its records (16 R508 to R526; 09
R291; 12 R405, R412; 15 R485, R490, R491, R500; 14 R468). -/

namespace Sys2Proof.Machine

/-- The management core answers: its firmware runs, or it is in recovery (R480, R481). -/
def State.answersMgt (s : State) : Bool := s.mgt.ready || s.glb.recovery

/-- PLDM and SPDM codes that the rules name by name (PRESUMED, the DMTF standards', log 20). -/
def errInvalidData : Nat := 0x02
def errInvalidSensor : Nat := 0x80
def errAlreadyInUpdate : Nat := 0x81
def errNotInUpdate : Nat := 0x80
def errVerifyFailed : Nat := 0x0A
def errInvalidRequest : Nat := 0x01
def errUnexpectedRequest : Nat := 0x04
def errDecrypt : Nat := 0x06

/-- MGT_ALERT_N is low (R513). -/
def State.alertLow (s : State) : Bool := !s.deliverable.isEmpty || s.glb.recovery

/-! ### MCTP (R509 to R511) -/

/-- DYNAMIC_ADDRESS_ASSIGNMENT (R509). -/
def execDynamicAddressAssignment (address : Nat) (s : State) : Answer :=
  if s.pwr.vaux then .next { s with mgt := { s.mgt with dynAddr := some address } } else .next s

/-- SET_ENDPOINT_ID: the null and the broadcast ID are refused (R509; log 20). -/
def execSetEndpointId (eid : Nat) (s : State) : Answer :=
  if !s.answersMgt then .next s
  else if eid = 0 ∨ eid = 255 then .next (s.reply (.refused errInvalidData))
  else .next (({ s with mgt := { s.mgt with eid := eid } } : State).reply .ok)

/-- A message type that the device answers (R510). -/
def knownType (message : List Byte) : Bool :=
  match message with
  | b :: _ => [0x00, 0x01, 0x05, 0x06, 0x7F].contains (b.toNat % 128)
  | [] => false

/-- An MCTP frame: the message padded to whole 32-byte units. -/
def mctpPayload (message : List Byte) : List Byte :=
  let m := message.take 4096
  m ++ List.replicate (roundUp 32 m.length - m.length) 0

/-- MCTP_BRIDGE: a message for a remote endpoint goes to its device on VC 0, to a neighbour without a valid ID with HOPS
0, or to the I3C bus; one of another type for this device is discarded and counted (R510, R511, R283). -/
def execMctpBridge (fromPort : Option Nat) (destEid : Nat) (device neighbour : Option Nat) (message : List Byte) (s : State) : Answer :=
  if !s.answersMgt then .next s
  else if destEid = 0 ∨ destEid = s.mgt.eid then
    (if knownType message then .next s else .next { s with mgt := { s.mgt with discarded := s.mgt.discarded + 1 } })
  else
    match device <|> Tbl.find s.mgt.routes destEid, neighbour with
    | some d, _ =>
      let s1 := { s with mgt := { s.mgt with routes := Tbl.setKey s.mgt.routes destEid d } }
      .next (s1.emit (s1.newFrame d 0 0 0 (mctpPayload message) []))
    | none, some p => .next (s.emitOn p { s.newFrame 0 0 0 0 (mctpPayload message) [] with hops := 0 })
    | none, none =>
      if fromPort.isSome then .next { s with io := { s.io with bridged := (destEid, message) :: s.io.bridged } } else .next s

/-! ### PLDM monitoring and control (R517) -/

/-- A free value as a reading (log 7). -/
def State.readFree (s : State) : State := (s.reply (.value (s.free.toNat : Int))).tookFree

/-- GET_SENSOR_READING: the sensors of R517; a sensor without a source reads unavailable; a rail's voltage or current that
only the input-power monitor knows is a free value. -/
def execGetSensorReading (id : Nat) (s : State) : Answer :=
  let val (v : Int) : Answer := .next (s.reply (.value v))
  let missing : Answer := .next (s.reply .unavailable)
  let oas (v : Word64) : Answer := val ((v.toNat / 3600000000 : Nat) : Int)
  let m := s.oas.mirror
  if !s.mgt.ready then .next s
  else if 0x1000 ≤ id ∧ id < 0x1000 + Config.sensors then
    (if (s.sensor (id - 0x1000)).state = 3 then missing else val (s.sensor (id - 0x1000)).mean)
  else if 0x2000 ≤ id ∧ id < 0x2000 + Config.domains then
    let x := s.dom (id - 0x2000)
    if x.power = 3 then missing
    else match x.minMv with
    | some mv => .next ((s.setDom (id - 0x2000) { x with minMv := none, readTime := x.minTime, minTime := 0 }).reply (.value (mv : Int)))
    | none => missing
  else if 0x2400 ≤ id ∧ id < 0x2400 + Config.domains then
    (if (s.dom (id - 0x2400)).power = 3 then missing else val (((s.dom (id - 0x2400)).readTime.toNat / 1000 : Nat) : Int))
  else if 0x2800 ≤ id ∧ id < 0x2800 + Config.domains then
    (if (s.dom (id - 0x2800)).power = 3 then missing else val ((let w := (s.dom (id - 0x2800)).window; sumOf w / w.length : Nat) : Int))
  else if 0x3000 ≤ id ∧ id < 0x300E then val ((s.bond.lifeUnits (id - 0x3000) : Nat) : Int)
  else if id = 0x3010 then val (((List.range 14).foldl (fun k i => max k (s.bond.lifeUnits i)) 0 : Nat) : Int)
  else if id = 0x3100 then val (s.pwr.vinMv : Int)
  else if 0x3101 ≤ id ∧ id < 0x310A then .next s.readFree
  else if 0x3200 ≤ id ∧ id < 0x3203 ∧ !s.thm.trayEn then missing
  else match id with
    | 0x3200 => val s.thm.inlet
    | 0x3201 => val s.thm.outlet
    | 0x3202 => val (s.thm.flow : Int)
    | 0x3203 => val (s.thm.pFlow.toNat : Int)
    | 0x3300 => val (((s.pwr.estLink + s.pwr.estMemory + s.pwr.estCompute + s.pwr.estVaux) / 1000 : Nat) : Int)
    | 0x3301 => val (s.pwr.capEff : Int)
    | 0x3400 => oas m.eVin
    | 0x3401 => oas m.eVdd
    | 0x3402 => oas m.eVpp
    | 0x3403 => oas (m.eVin + m.eVdd + m.eVpp)
    | 0x5000 => val (s.stateSensor 0 : Int)
    | 0x5001 => val (s.stateSensor 1 : Int)
    | 0x5002 => val (s.stateSensor 2 : Int)
    | 0x5003 => val (s.stateSensor 3 : Int)
    | 0x5004 => val (s.stateSensor 4 : Int)
    | _ => .next (s.reply (.refused errInvalidSensor))

/-- SET_NUMERIC_EFFECTER_VALUE: the management cap, 400 to 1,800 W (R517, R413). -/
def execSetNumericEffecterValue (id value : Nat) (s : State) : Answer :=
  if !s.mgt.ready then .next s
  else if id ≠ 0x8000 then .next (s.reply (.refused errInvalidSensor))
  else if value < 400 ∨ 1800 < value then .next (s.reply (.refused errInvalidData))
  else .next ((s.setMgtCap value).reply .ok)

/-- SET_STATE_EFFECTER: effecter 0x8001 asks for the full test at the next start (R485, R517). -/
def execSetStateEffecter (id value : Nat) (s : State) : Answer :=
  if !s.mgt.ready then .next s
  else if id ≠ 0x8001 then .next (s.reply (.refused errInvalidSensor))
  else .next (({ s with mgt := { s.mgt with fullTest := decide (value = 1) } } : State).reply .ok)

/-- SET_EVENT_RECEIVER (R517). -/
def execSetEventReceiver (eid : Nat) (s : State) : Answer :=
  if !s.mgt.ready then .next s else .next (({ s with mgt := { s.mgt with receiver := some eid } } : State).reply .ok)

/-- PLATFORM_EVENT_MESSAGE: the next event in sequence goes to the receiver; one of a CPER kind goes by CPER_RECORD (R517). -/
def execPlatformEventMessage (s : State) : Answer :=
  match s.mgt.receiver, s.deliverable with
  | some _, e :: r => if e.cper.isSome then .next s else .next (({ s with mgt := { s.mgt with awaiting := r } } : State).reply (.event e))
  | _, _ => .next s

/-! ### Firmware update (R518) -/

def Boot.component (b : Boot) (k : Nat) : Copy × Copy := if k = 1 then b.fwMgt else if k = 2 then b.fwKernel else b.calib
def Boot.setComponent (b : Boot) (k : Nat) (c : Copy × Copy) : Boot :=
  if k = 1 then { b with fwMgt := c } else if k = 2 then { b with fwKernel := c } else { b with calib := c }

/-- REQUEST_UPDATE: refused while one is in progress, and for another component. -/
def execRequestUpdate (component : Nat) (s : State) : Answer :=
  if !s.answersMgt then .next s
  else if s.mgt.update.isSome then .next (s.reply (.refused errAlreadyInUpdate))
  else if component < 1 ∨ 3 < component then .next (s.reply (.refused errInvalidData))
  else
    let u : Update := { component := component, received := false, verified := none, version := 0, minor := 0, image := [], kinds := [] }
    .next (({ s with mgt := { s.mgt with update := some u } } : State).reply .ok)

/-- FIRMWARE_TRANSFER: the image goes to the secondary copy, which is not valid before its check. `kinds` names the
run-time records that a calibration carries itself: 1 weights, 2 baselines, 3 raises, 4 delay lines (log 20). -/
def execFirmwareTransfer (component version minor : Nat) (image : List Byte) (kinds : List Nat) (s : State) : Answer :=
  match s.mgt.update with
  | none => .next (s.reply (.refused errNotInUpdate))
  | some u =>
    if u.component ≠ component then .next (s.reply (.refused errInvalidData))
    else
      let c := s.boot.component component
      let new : Copy := { good := false, version := version, minor := minor, image := image }
      let v : Update := { u with received := true, verified := none, version := version, minor := minor, image := image, kinds := kinds }
      .next (({ s with boot := s.boot.setComponent component (c.1, new), mgt := { s.mgt with update := some v } } : State).reply .ok)

/-- VERIFY_COMPLETE: both signatures of the image are checked: kind 1 for firmware, 2 for a calibration (R6, R518). -/
def execVerifyComplete (o : SignedObject) (s : State) : Answer :=
  match s.mgt.update with
  | none => .next (s.reply (.refused errNotInUpdate))
  | some u =>
    if !u.received then .next (s.reply (.refused errNotInUpdate))
    else
      let ok := s.objectOk o && o.kind == (if u.component = 3 then 2 else 1) && o.payload == u.image
      let c := s.boot.component u.component
      let s1 := { s with boot := s.boot.setComponent u.component (c.1, { c.2 with good := ok }), mgt := { s.mgt with update := some { u with verified := some ok } } }
      .next (s1.reply (if ok then .ok else .refused errVerifyFailed))

/-- Run-time records that a new calibration carries itself take the place of the present ones: their values are the
image's, which are free values here (R518, log 7). -/
def State.imageRecords (s : State) (kinds : List Nat) : State :=
  let f (i : Nat) : Nat := (Config.freeValue (s.freeIdx + i)).toNat
  let b := s.boot
  { s with
    freeIdx := s.freeIdx + 4194304
    boot := { b with
      delays := if kinds.contains 4 then b.delays.map (fun e => (e.1, f (600 + e.1) % 64)) else b.delays
      weights := if kinds.contains 1 then (List.range 3).map (fun i => 750000 + f i % 500001) else b.weights
      baselines := if kinds.contains 2 then (List.range Config.domains).map (fun d => (d, BitVec.ofNat 16 (f (3 + d)))) else b.baselines
      vf := if kinds.contains 3 then ((List.range 256).map (fun n => (n, (125 * (f (400 + n) % 5), 0)))).filter (fun e => e.2 ≠ (0, 0)) else b.vf } }

/-- ACTIVATE_FIRMWARE: a verified copy becomes the primary, the old primary the secondary (R518). -/
def execActivateFirmware (s : State) : Answer :=
  match s.mgt.update with
  | none => .next (s.reply (.refused errNotInUpdate))
  | some u =>
    if u.verified ≠ some true then .next (s.reply (.refused errVerifyFailed))
    else
      let c := s.boot.component u.component
      let s1 := { s with boot := s.boot.setComponent u.component (c.2, c.1), mgt := { s.mgt with update := none } }
      .next ((if u.component = 3 ∧ u.kinds ≠ [] then s1.imageRecords u.kinds else s1).reply .ok)

/-! ### Management commands 0x01 to 0x08 (R522) -/

/-- MGT_COMPUTE_RESET: 0 requests, 1 holds, 2 releases (R491; codes by log 20). -/
def execMgtComputeReset (function : Nat) (s : State) : Answer :=
  if !s.mgt.ready then .next s
  else match function with
    | 0 => .next (s.requestReset.reply .ok)
    | 1 =>
      let s1 := { s with glb := { s.glb with holdMgt := true } }
      .next ((if s.glb.holdMgt then s1 else s1.holdActs).reply .ok)
    | 2 => .next (({ s with glb := { s.glb with holdMgt := false } } : State).tryLeave.reply .ok)
    | _ => .next (s.reply (.refused errInvalidData))

/-- MGT_FULL_RESET (R498). -/
def execMgtFullReset (s : State) : Answer := if s.mgt.ready then .next s.fullReset else .next s

/-- MGT_STRESS_TEST: a test of the rectangle and corners in the command; ERR_STRESS_CTRL keeps its value (R468, R512). -/
def execMgtStressTest (ctrl : Word32) (s : State) : Answer :=
  if !s.mgt.ready then .next s
  else
    let x := s.err.stress
    let t := ({ s with err := { s.err with stress := x.write ctrl } } : State).stressBegin
    let y : Stress := { t.err.stress with corners := x.corners, row := x.row, col := x.col, heightM1 := x.heightM1, widthM1 := x.widthM1 }
    .next (({ t with err := { t.err with stress := y } } : State).reply .ok)

/-- MGT_REQUEST_EPOCH: NUMBER and SCOPE come with the command; GLB_EPOCH_CTRL keeps its value (R500, R512). -/
def execMgtRequestEpoch (ctrl : Word64) (s : State) : Answer :=
  if !s.mgt.ready then .next s
  else
    let g := s.glb
    let t := ({ s with glb := { g with epNumber := BitVec.ofNat 32 (bits ctrl.toNat 63 32), epScope := bitAt ctrl.toNat 30 } } : State).requestEpoch
    .next (({ t with glb := { t.glb with epNumber := g.epNumber, epScope := g.epScope } } : State).reply .ok)

/-- READ_EVENT_LOG: the entries from a sequence number, oldest first (R516). -/
def execReadEventLog (fromSeq : Nat) (s : State) : Answer :=
  if s.mgt.ready then .next (s.reply (.events (s.boot.events.reverse.filter (fun e => decide (fromSeq ≤ e.seq))))) else .next s

/-- READ_OASIS_RECORDS: what the export has delivered: records from a second, or log entries (R531, R533). -/
def execReadOasisRecords (fromSecond : Nat) (isLog : Bool) (s : State) : Answer :=
  let m := s.oas.mirror
  if !s.mgt.ready then .next s
  else if isLog then .next (s.reply (.logs m.log.reverse))
  else match m.last with
    | none => .next (s.reply (.records []))
    | some r => .next (s.reply (.records (s.oas.records.reverse.filter (fun e =>
        decide (fromSecond ≤ e.second.toNat) && decide (e.second.toNat ≤ r.second.toNat)))))

/-- READ_DBG_NONCE (R474). -/
def execReadDbgNonce (s : State) : Answer := if s.mgt.ready then .next (s.reply (.value (s.dbg.nonce.toNat : Int))) else .next s

/-! ### Maintenance commands (R490, R523) -/

/-- A maintenance payload: its function in byte 0, its list from byte 16 (log 19). -/
def maintFunction (o : SignedObject) : Nat := leNat (o.payload.take 1)
def maintItems (n : Nat) (o : SignedObject) : List (List Byte) := (chunksOf n o.payload.length (o.payload.drop 16)).filter (fun c => c.length == n)

/-- A maintenance object is accepted for a function. -/
def State.maintOk (s : State) (o : SignedObject) (function : Nat) : Bool := s.mgt.ready && s.objectOk o && o.kind == 4 && maintFunction o == function

/-- A maintenance command has been carried out: its record is written, and the nonce renewed. -/
def State.maintDone (s : State) (function : Nat) : State :=
  (({ s with boot := { s.boot with maintenance := function :: s.boot.maintenance } } : State).renewNonce).reply .ok

/-- A defect-list entry in the layout of R488. -/
def entryDefect (l : List Byte) : Defect :=
  { kind := leNat (l.take 1), sub2 := leNat ((l.drop 1).take 1), unit := leNat ((l.drop 2).take 2), sub := leNat ((l.drop 4).take 2) }

/-- Function 1: the named entries go at the next start. -/
def State.removeEntries (s : State) (o : SignedObject) : State :=
  { s with boot := { s.boot with removals := s.boot.removals ++ (maintItems 16 o).map entryDefect } }
/-- Function 2: the counts are cleared, and the events of R35 are armed again (DESIGN CHOICE, log 66: R35 records them once
at the first reach, R36 and R523 speak of the counts alone). -/
def State.clearWear (s : State) : State :=
  { s with bond := { s.bond with counts := [], warned := false, critical := false }, boot := { s.boot with bondCounts := [] } }
/-- Function 3: the present filtered value becomes the baseline of each listed domain (log 19). -/
def State.replaceBaselines (s : State) (o : SignedObject) : State :=
  (maintItems 2 o).foldl (fun t l =>
    let d := leNat l
    if d < Config.domains then
      let t1 := t.modDom d (fun x => { x with baseline := x.filtered })
      { t1 with boot := { t1.boot with baselines := Tbl.setKey t1.boot.baselines d (t.dom d).filtered } }
    else t) s
/-- Function 4: the factory weights. -/
def State.factoryWeights (s : State) : State :=
  { s with pwr := { s.pwr with weights := [1000000, 1000000, 1000000] }, boot := { s.boot with weights := [1000000, 1000000, 1000000] } }

/-- A maintenance command of one function, or its refusal: the object counts as absent (R6, R521). -/
def State.maintain (s : State) (o : SignedObject) (function : Nat) (f : State → State) : Answer :=
  if !s.mgt.ready then .next s
  else if s.maintOk o function then .next ((f s).maintDone function)
  else .next (s.reply (.refused errInvalidData))

/-- REMOVE_DEFECT_ENTRIES (R490). -/
def execRemoveDefectEntries (o : SignedObject) (s : State) : Answer := s.maintain o 1 (fun t => t.removeEntries o)
/-- CLEAR_BOND_WEAR (R36). -/
def execClearBondWear (o : SignedObject) (s : State) : Answer := s.maintain o 2 State.clearWear
/-- REPLACE_PATH_BASELINE (R405). -/
def execReplacePathBaseline (o : SignedObject) (s : State) : Answer := s.maintain o 3 (fun t => t.replaceBaselines o)
/-- RESTORE_FACTORY_WEIGHTS (R412). -/
def execRestoreFactoryWeights (o : SignedObject) (s : State) : Answer := s.maintain o 4 State.factoryWeights

/-- PORT_RETRAIN: a signed maintenance command returns a port on four lanes to eight; traffic stops, and the port reads
as training, until its lock is regained (R291, R314). -/
def execPortRetrain (port : Nat) (o : SignedObject) (s : State) : Answer :=
  let x := s.port port
  if !s.mgt.ready then .next s
  else if !(s.objectOk o && o.kind == 4) then .next (s.reply (.refused errInvalidData))
  else if x.half ∧ 2 ≤ x.state.toNat then
    .next ((s.setPort port { x with half := false, halfSel := false, badLanes := 0, peerBad := 0, laneMove := true }).maintDone 0)
  else .next (s.maintDone 0)

/-- SUBMIT_SIGNED_OBJECT: an unlock takes effect, a maintenance command is carried out (R474, R521, R523). -/
def execSubmitSignedObject (o : SignedObject) (s : State) : Answer :=
  if !s.mgt.ready then .next s
  else if !s.objectOk o then .next (s.reply (.refused errInvalidData))
  else if o.kind = 3 then .next ((s.unlock o).reply .ok)
  else if o.kind = 4 then
    match maintFunction o with
    | 1 => s.maintain o 1 (fun t => t.removeEntries o)
    | 2 => s.maintain o 2 State.clearWear
    | 3 => s.maintain o 3 (fun t => t.replaceBaselines o)
    | 4 => s.maintain o 4 State.factoryWeights
    | _ => .next (s.reply (.refused errInvalidData))
  else .next (s.reply (.refused errInvalidData))

/-! ### Attestation (R524 to R526) -/

/-- The list of R488 as it stands. -/
def defectImage (l : List DefectEntry) : List Byte :=
  l.flatMap (fun e => natLe 1 e.defect.kind ++ natLe 1 e.defect.sub2 ++ natLe 2 e.defect.unit ++ natLe 2 e.defect.sub ++ natLe 2 e.start ++ natLe 8 e.time.toNat)

/-- Oasis's parameters as bytes. -/
def Oasis.paramBytes (l : List Nat) : List Byte := l.flatMap (fun v => natLe 4 v)

/-- A measurement block (R526): blocks 1 to 4 depend on images that the spec does not hold (log 11); block 8 is raw, its
fields in the order of the table, a byte each (log 20). -/
def State.measurementBlock (s : State) (i : Nat) : List Byte :=
  let b := s.boot
  match i with
  | 1 => Config.measurement 1 0
  | 2 => Config.measurement 2 s.mgt.active.1
  | 3 => Config.measurement 3 s.mgt.active.2.1
  | 4 => Config.measurement 4 s.mgt.active.2.2
  | 5 => sha384 (defectImage b.defects)
  | 6 => sha384 s.oas.mirror.swid
  | 7 => sha384 (natLe 4 s.oas.mirror.sealCount.toNat ++ sha384 (Oasis.paramBytes s.oas.params))
  | 8 => natLe 1 Config.jcmMajor ++ natLe 1 s.glb.minor.toNat ++ natLe 1 (flag s.glb.image) ++ natLe 1 (flag s.glb.recovery)
      ++ natLe 1 (flag s.glb.fullTest) ++ natLe 1 (flag s.dbg.unlocked) ++ s.lnk.cfgDigest
  | _ => []

/-- The device seed in the management core; before it is read there is none, and nothing is signed. -/
def State.seedNow (s : State) : BitVec 256 := s.mgt.seed.getD 0
/-- The alias private key of an algorithm, 1 Ed25519 or 2 ML-DSA-65 (R519). -/
def State.aliasPrivate (s : State) (alg : Nat) : List Byte :=
  aliasKey s.seedNow (Config.measurement 2 s.mgt.active.1) alg
/-- A signature with an alias key (R524, R525). -/
def State.sign (s : State) (alg : Nat) (message : List Byte) : List Byte := Config.signature alg (s.aliasPrivate alg) message
/-- The alias keys' certificate, signed with both identity keys (R519). -/
def State.aliasCert (s : State) : List Byte :=
  let keys := Config.publicKey 1 (s.aliasPrivate 1) ++ Config.publicKey 2 (s.aliasPrivate 2)
  keys ++ Config.signature 1 (identityKey s.seedNow 1) keys ++ Config.signature 2 (identityKey s.seedNow 2) keys
/-- The certificate chain of an algorithm, with the alias keys' certificate (R520, R524, R525). -/
def State.certChain (s : State) (alg : Nat) : List Byte :=
  (if alg = 1 then s.boot.identity.edChain else s.boot.identity.mlChain) ++ s.aliasCert
/-- An SPDM request other than GET_PQ_SIGNATURE: no signed MEASUREMENTS directly precedes any more. -/
def State.spdm (s : State) : State := { s with mgt := { s.mgt with transcript := none } }

/-- CHALLENGE: the Ed25519 chain of slot 0, and the signature with the alias key (R524); with slot 0 empty it is refused
(R520; the code PRESUMED, log 20). -/
def execChallenge (nonce : List Byte) (s : State) : Answer :=
  if !s.answersMgt then .next s
  else if !s.mgt.slot0 then .next (s.spdm.reply (.refused errInvalidRequest))
  else .next (s.spdm.reply (.bytes (s.certChain 1 ++ s.sign 1 nonce)))

/-- GET_MEASUREMENTS: the blocks asked for, and the signature over their transcript (R524, R526). -/
def execGetMeasurements (indices : List Nat) (nonce : List Byte) (s : State) : Answer :=
  if !s.answersMgt then .next s
  else if !s.mgt.slot0 then .next (s.spdm.reply (.refused errInvalidRequest))
  else
    let blocks := indices.flatMap s.measurementBlock
    let t := nonce ++ blocks
    let s1 := { s with mgt := { s.mgt with transcript := some t } }
    .next (s1.reply (.bytes (blocks ++ s.sign 1 t)))

/-- GET_PQ_SIGNATURE: over the same transcript, directly after a signed MEASUREMENTS; else UnexpectedRequest (R525). -/
def execGetPqSignature (s : State) : Answer :=
  if !s.answersMgt then .next s
  else match s.mgt.transcript with
    | some t => .next (s.spdm.reply (.bytes (s.sign 2 t ++ s.certChain 2)))
    | none => .next (s.reply (.refused errUnexpectedRequest))

/-- KEY_EXCHANGE begins a session (R524). -/
def execKeyExchange (exchange : List Byte) (s : State) : Answer :=
  if !s.answersMgt then .next s
  else if !s.mgt.slot0 then .next (s.spdm.reply (.refused errInvalidRequest))
  else .next (({ s.spdm with mgt := { s.spdm.mgt with session := 1 } } : State).reply (.bytes (s.sign 1 exchange)))

/-- FINISH completes it: the requester's code over the handshake is right or wrong (R524). -/
def execFinish (verifyData : List Byte) (macOk : Bool) (s : State) : Answer :=
  if !s.answersMgt then .next s
  else if s.mgt.session ≠ 1 then .next (s.spdm.reply (.refused errUnexpectedRequest))
  else if macOk && !verifyData.isEmpty then .next (({ s.spdm with mgt := { s.spdm.mgt with session := 2 } } : State).reply .ok)
  else .next (({ s.spdm with mgt := { s.spdm.mgt with session := 0 } } : State).reply (.refused errDecrypt))

end Sys2Proof.Machine
end

