-- ==== Sys2Proof/Machine/Meter.lean ====
section
/-! DEFINITION. The Oasis meter and its export (16 R527 to R534). -/

namespace Sys2Proof.Machine

/-- The update gate is open: Oasis runs, its seal is open (R527, R528). -/
def Oasis.gateOpen (o : Oasis) : Bool := o.running && o.unsealed
/-- The running image's version. -/
def Oasis.version (o : Oasis) : Nat := if o.bank then o.versions.2 else o.versions.1
def State.setOasis (s : State) (o : Oasis) : State := { s with oas := o }

/-! ### The seal (R528) -/

/-- The seal is seen open: the opening is counted and logged. -/
def Oasis.openSeal (o : Oasis) : Oasis :=
  if o.unsealed then o
  else
    let o1 := { o with unsealed := true, openings := o.openings + 1, fSeal := true }
    o1.note 3 (natLe 4 o1.openings.toNat)
/-- The seal is seen closed: logged; a load not complete is discarded. -/
def Oasis.closeSeal (o : Oasis) : Oasis :=
  if !o.unsealed then o
  else
    let o1 := ({ o with unsealed := false } : Oasis).note 4 []
    if o.loading then ({ o1 with loading := false } : Oasis).note 6 (natLe 1 2) else o1

/-- SEAL_OPEN: SEAL_OPEN_N has been low for 10 ms. -/
def execSealOpen (s : State) : Answer :=
  let s1 := { s with pins := { s.pins with sealOpen := true } }
  .next (if s.oas.running then s1.setOasis s.oas.openSeal else s1)
/-- SEAL_CLOSE: SEAL_OPEN_N is high again. -/
def execSealClose (s : State) : Answer :=
  let s1 := { s with pins := { s.pins with sealOpen := false } }
  .next (if s.oas.running then s1.setOasis s.oas.closeSeal else s1)

/-- The version in the inactive bank becomes v. -/
def Oasis.putInactive (o : Oasis) (v : Nat) : Oasis := { o with versions := if o.bank then (v, o.versions.2) else (o.versions.1, v) }

/-- OASIS_IMAGE_LOAD: part of a load, or its end: accepted when both signatures verify, to run from the next restart. -/
def execOasisImageLoad (version : Nat) (complete edOk mlOk : Bool) (s : State) : Answer :=
  let o := s.oas
  if !o.gateOpen then .next s
  else if !complete then .next (s.setOasis { o with loading := true })
  else if edOk && mlOk then
    let o1 := ({ o with loading := false, loaded := some version } : Oasis).putInactive version
    .next (s.setOasis (o1.note 5 (natLe 2 version ++ (Config.oasisIdentification version).take 8)))
  else .next (s.setOasis (({ o with loading := false } : Oasis).note 6 (natLe 1 1)))

/-- OASIS_PARAMETER_CHANGE: from the next interval boundary. -/
def execOasisParameterChange (params : List Nat) (s : State) : Answer :=
  if s.oas.gateOpen then .next (s.setOasis { s.oas with newParams := some params }) else .next s
/-- OASIS_CLOCK_SET: from the next interval boundary. -/
def execOasisClockSet (micros : Nat) (s : State) : Answer :=
  if s.oas.gateOpen then .next (s.setOasis { s.oas with newClock := some micros }) else .next s

/-! ### Samples and intervals (R529, R531) -/

/-- The value of a sense channel: the voltages of VIN_CORE, VDD_DRAM and VPP_DRAM, then their currents (DESIGN CHOICE, log
72). -/
def channelValue (r : OasisReading) (k : Nat) : Nat := [r.vinMv, r.vddMv, r.vppMv, r.vinMa, r.vddMa, r.vppMa].getD k 0
/-- A sense input leaves its range, or comes back: channel and value (R533 KIND 9). -/
def Oasis.noteRange (o : Oasis) (r : OasisReading) : Oasis :=
  let outOf (c : Nat × Nat) (x : Oasis) : Oasis := ({ x with rangeNow := some c.1, fRange := true } : Oasis).note 9 (natLe 1 c.1 ++ natLe 8 c.2)
  let back (k : Nat) (x : Oasis) : Oasis := ({ x with rangeNow := none } : Oasis).note 9 (natLe 1 k ++ natLe 8 (channelValue r k))
  match r.outOfRange, o.rangeNow with
  | some c, none => outOf c o
  | some c, some k => if c.1 = k then { o with fRange := true } else outOf c (back k o)
  | none, some k => back k o
  | none, none => o

/-- OASIS_SAMPLE: 1 µs of energy on each rail, in picojoules. -/
def execOasisSample (r : OasisReading) (s : State) : Answer :=
  let o := s.oas
  if !o.running then .next s
  else
    let o1 := { o with
      accVin := o.accVin + r.vinMv * r.vinMa, accVdd := o.accVdd + r.vddMv * r.vddMa, accVpp := o.accVpp + r.vppMv * r.vppMa
      samples := o.samples + 1, micros := o.micros + 1 }
    let o2 := o1.noteRange r
    .next (s.setOasis (match r.adcFailed with
      | some c => o2.note 10 (natLe 1 c)
      | none => o2))

/-- The interval that closes: the one the last sample lies in. -/
def Oasis.interval (o : Oasis) : Nat := (o.micros.toNat - 1) / 1000000

/-- The record of the interval that closes. -/
def Oasis.record (o : Oasis) : OasisRecord :=
  { second := BitVec.ofNat 64 o.interval
    eVin := BitVec.ofNat 32 (o.accVin / 1000000), eVdd := BitVec.ofNat 32 (o.accVdd / 1000000), eVpp := BitVec.ofNat 32 (o.accVpp / 1000000)
    samples := BitVec.ofNat 20 o.samples, incomplete := o.fStart || decide (o.samples < 1000000), sealOpen := o.fSeal || o.unsealed
    range := o.fRange, clockSet := o.fClock, param := o.fParam }

/-- What waits for an interval boundary takes effect (R528). -/
def Oasis.applyChanges (o : Oasis) : Oasis :=
  let o1 := match o.newParams with
    | some p => ({ o with params := p, newParams := none, fParam := true } : Oasis).note 7 ((sha384 (Oasis.paramBytes p)).take 8)
    | none => { o with fParam := false }
  match o1.newClock with
  | some m =>
    let o2 := { o1 with micros := BitVec.ofNat 64 m, newClock := none, fClock := true }
    o2.note 8 (natLe 8 (ofSigned 64 ((m : Int) - (o1.micros.toNat : Int))))
  | none => { o1 with fClock := false }

/-- INTERVAL_CLOSE: the record is stored and sent, the cumulative registers grow, the next interval opens (R531). -/
def execIntervalClose (s : State) : Answer :=
  let o := s.oas
  if !o.running then .next s
  else
    let r := o.record
    let o1 := { o with
      cumVin := o.cumVin + r.eVin.setWidth 64, cumVdd := o.cumVdd + r.eVdd.setWidth 64, cumVpp := o.cumVpp + r.eVpp.setWidth 64
      records := (r :: o.records).take 65536, exported := some r
      accVin := 0, accVdd := 0, accVpp := 0, samples := 0, fStart := false, fSeal := o.unsealed, fRange := o.rangeNow.isSome
      micros := BitVec.ofNat 64 ((o.interval + 1) * 1000000) }
    .next (s.setOasis o1.applyChanges)

/-! ### Commits, power fail, start (R530, R532) -/

/-- OASIS_COMMIT. -/
def execOasisCommit (s : State) : Answer := if s.oas.running then .next (s.setOasis s.oas.commit) else .next s

/-- OASIS_POWER_FAIL (R532). -/
def execOasisPowerFail (s : State) : Answer := .next (s.setOasis s.oas.powerFail)

/-- OASIS_START: with VAUX, or a restart that the update gate requests: the accepted image runs, the registers are those
committed, the power-up is logged, and a change of the seal since then is seen. A requested restart commits them first
(DESIGN CHOICE, log 72) (R528, R530, R532). -/
def execOasisStart (s : State) : Answer :=
  if s.oas.running && !s.oas.gateOpen then .next s else
  let o := if s.oas.running then s.oas.commit else s.oas
  let o1 := { o with
    running := true, bank := if o.loaded.isSome then !o.bank else o.bank, loaded := none, newParams := none, newClock := none
    cumVin := o.saved.1, cumVdd := o.saved.2.1, cumVpp := o.saved.2.2, accVin := 0, accVdd := 0, accVpp := 0, samples := 0
    fSeal := o.unsealed, fRange := false, fClock := false, fParam := false, fStart := true, rangeNow := none }
  let o2 := o1.note 1 (natLe 4 o.openings.toNat)
  .next (s.setOasis (if s.pins.sealOpen then o2.openSeal else o2.closeSeal))

/-! ### The export (R531, R534) -/

/-- OASIS_RECORD_RECEIVE: the management core takes the exported record, and the mirror changes with it. -/
def execOasisRecordReceive (s : State) : Answer :=
  let o := s.oas
  match o.exported with
  | none => .next s
  | some r =>
    if !s.mgt.ready then .next s
    else
      let m : OasisMirror :=
        { sealOpen := o.unsealed, running := o.running, range := o.rangeNow.isSome, version := BitVec.ofNat 16 o.version
          sealCount := o.openings, swid := Config.oasisIdentification o.version, eVin := o.cumVin, eVdd := o.cumVdd, eVpp := o.cumVpp
          last := some r, devTime := s.time, log := o.logs }
      .next ((s.setOasis { o with exported := none, mirror := m }).noteSensors s)

end Sys2Proof.Machine
end

