-- ==== Sys2Proof/Machine/Dispatch.lean ====
section
/-! DEFINITION. One arm for each command: a call of its meaning. -/

namespace Sys2Proof.Machine

def exec (i : Instr) (s : State) : Host.Outcome State Fault Refusal :=
  match i with
  | .snoopInvalidate line reread => Sys2Proof.Machine.execSnoopInvalidate line reread s
  | .doorbellReread line read => Sys2Proof.Machine.execDoorbellReread line read s
  | .pollTimer => Sys2Proof.Machine.execPollTimer s
  | .fetchComplete ring clauses => Sys2Proof.Machine.execFetchComplete ring clauses s
  | .clauseStart ring start => Sys2Proof.Machine.execClauseStart ring start s
  | .shareFinish ring slot core act => Sys2Proof.Machine.execShareFinish ring slot core act s
  | .clauseComplete ring slot => Sys2Proof.Machine.execClauseComplete ring slot s
  | .msixHoldoffExpiry vector => Sys2Proof.Machine.execMsixHoldoffExpiry vector s
  | .waitTimeout ring => Sys2Proof.Machine.execWaitTimeout ring s
  | .matrixProduct ring slot host unstarted => Sys2Proof.Machine.execMatrixProduct ring slot host unstarted s
  | .elementWiseChain ring slot host => Sys2Proof.Machine.execElementWiseChain ring slot host s
  | .nearBankMatrixVector ring slot host => Sys2Proof.Machine.execNearBankMatrixVector ring slot host s
  | .attentionForward ring slot host => Sys2Proof.Machine.execAttentionForward ring slot host s
  | .attentionBackward ring slot host => Sys2Proof.Machine.execAttentionBackward ring slot host s
  | .decodeAttention ring slot host => Sys2Proof.Machine.execDecodeAttention ring slot host s
  | .keyValueAppend ring slot host => Sys2Proof.Machine.execKeyValueAppend ring slot host s
  | .kvEvictClose ring slot host => Sys2Proof.Machine.execKvEvictClose ring slot host s
  | .kvEvictTruncate ring slot host => Sys2Proof.Machine.execKvEvictTruncate ring slot host s
  | .deferredPageFree page => Sys2Proof.Machine.execDeferredPageFree page s
  | .copy ring slot host => Sys2Proof.Machine.execCopy ring slot host s
  | .reduce ring slot host => Sys2Proof.Machine.execReduce ring slot host s
  | .allReduce ring slot host => Sys2Proof.Machine.execAllReduce ring slot host s
  | .reduceScatter ring slot host => Sys2Proof.Machine.execReduceScatter ring slot host s
  | .allGather ring slot host => Sys2Proof.Machine.execAllGather ring slot host s
  | .broadcast ring slot host => Sys2Proof.Machine.execBroadcast ring slot host s
  | .decide ring slot host => Sys2Proof.Machine.execDecide ring slot host s
  | .apply ring slot host => Sys2Proof.Machine.execApply ring slot host s
  | .release ring slot => Sys2Proof.Machine.execRelease ring slot s
  | .waveRelease owner => Sys2Proof.Machine.execWaveRelease owner s
  | .waveTimeout ring slot => Sys2Proof.Machine.execWaveTimeout ring slot s
  | .slowApplication pset host => Sys2Proof.Machine.execSlowApplication pset host s
  | .digest ring slot host => Sys2Proof.Machine.execDigest ring slot host s
  | .audit ring slot host => Sys2Proof.Machine.execAudit ring slot host s
  | .scrub ring slot => Sys2Proof.Machine.execScrub ring slot s
  | .configure ring slot host => Sys2Proof.Machine.execConfigure ring slot host s
  | .dissolve ring slot => Sys2Proof.Machine.execDissolve ring slot s
  | .loadKernel ring slot host => Sys2Proof.Machine.execLoadKernel ring slot host s
  | .loadKernelStandard ring read => Sys2Proof.Machine.execLoadKernelStandard ring read s
  | .fence ring slot => Sys2Proof.Machine.execFence ring slot s
  | .fenceSet ring slot => Sys2Proof.Machine.execFenceSet ring slot s
  | .resume slot => Sys2Proof.Machine.execResume slot s
  | .skip slot => Sys2Proof.Machine.execSkip slot s
  | .flush slot host => Sys2Proof.Machine.execFlush slot host s
  | .close slot host => Sys2Proof.Machine.execClose slot host s
  | .adminEnable host => Sys2Proof.Machine.execAdminEnable host s
  | .adminDisable host => Sys2Proof.Machine.execAdminDisable host s
  | .waitTimeoutWrite value => Sys2Proof.Machine.execWaitTimeoutWrite value s
  | .registerWrite offset size value => Sys2Proof.Machine.execRegisterWrite offset size value s
  | .counterLowRead offset => Sys2Proof.Machine.execCounterLowRead offset s
  | .hostMemRead dpa => Sys2Proof.Machine.execHostMemRead dpa s
  | .hostMemWrite dpa bytes poison => Sys2Proof.Machine.execHostMemWrite dpa bytes poison s
  | .hostRequestPromoted vault isScrubber => Sys2Proof.Machine.execHostRequestPromoted vault isScrubber s
  | .deferredWriteRetry vault => Sys2Proof.Machine.execDeferredWriteRetry vault s
  | .heldRequestTimeout => Sys2Proof.Machine.execHeldRequestTimeout s
  | .imemUncorrectable core strike => Sys2Proof.Machine.execImemUncorrectable core strike s
  | .kernelStoreRefill => Sys2Proof.Machine.execKernelStoreRefill s
  | .parenAdmit admission => Sys2Proof.Machine.execParenAdmit admission s
  | .contextYield core cycles spill => Sys2Proof.Machine.execContextYield core cycles spill s
  | .playaRetuneDone core sweeps => Sys2Proof.Machine.execPlayaRetuneDone core sweeps s
  | .burstReturn b => Sys2Proof.Machine.execBurstReturn b s
  | .laneTest vault sub dataLanes cmdLanes => Sys2Proof.Machine.execLaneTest vault sub dataLanes cmdLanes s
  | .spareTrained vault sub data cmds => Sys2Proof.Machine.execSpareTrained vault sub data cmds s
  | .combineWindowExpiry vault burst late => Sys2Proof.Machine.execCombineWindowExpiry vault burst late s
  | .refreshDue vault tier => Sys2Proof.Machine.execRefreshDue vault tier s
  | .refreshIssue vault tier sweeps => Sys2Proof.Machine.execRefreshIssue vault tier sweeps s
  | .refreshComplete vault tier => Sys2Proof.Machine.execRefreshComplete vault tier s
  | .refreshRateRestore vault tier => Sys2Proof.Machine.execRefreshRateRestore vault tier s
  | .pageRepair vault row tier bank => Sys2Proof.Machine.execPageRepair vault row tier bank s
  | .pageRepairDone vault => Sys2Proof.Machine.execPageRepairDone vault s
  | .engineStepBoundary vault engine => Sys2Proof.Machine.execEngineStepBoundary vault engine s
  | .stagingDone vault => Sys2Proof.Machine.execStagingDone vault s
  | .mergeDone vault => Sys2Proof.Machine.execMergeDone vault s
  | .engineFault vault engine => Sys2Proof.Machine.execEngineFault vault engine s
  | .meshPacket island p => Sys2Proof.Machine.execMeshPacket island p s
  | .flitCrcFail island dir control => Sys2Proof.Machine.execFlitCrcFail island dir control s
  | .ctrlMsgPromotion island => Sys2Proof.Machine.execCtrlMsgPromotion island s
  | .barrierArrive object island gen => Sys2Proof.Machine.execBarrierArrive object island gen s
  | .flagContribute object island value => Sys2Proof.Machine.execFlagContribute object island value s
  | .timeTick island tick => Sys2Proof.Machine.execTimeTick island tick s
  | .slotReserve ring slot r => Sys2Proof.Machine.execSlotReserve ring slot r s
  | .reductionFlitArrive island unit index flit locals => Sys2Proof.Machine.execReductionFlitArrive island unit index flit locals s
  | .reduceTimeout ring slot atPort => Sys2Proof.Machine.execReduceTimeout ring slot atPort s
  | .bufferContribution field buffer => Sys2Proof.Machine.execBufferContribution field buffer s
  | .fieldFault field island => Sys2Proof.Machine.execFieldFault field island s
  | .frameReceive port f => Sys2Proof.Machine.execFrameReceive port f s
  | .replayTimer port => Sys2Proof.Machine.execReplayTimer port s
  | .laneFail port lane => Sys2Proof.Machine.execLaneFail port lane s
  | .laneRetrainDone port => Sys2Proof.Machine.execLaneRetrainDone port s
  | .portDown port => Sys2Proof.Machine.execPortDown port s
  | .ackStallTimeout port => Sys2Proof.Machine.execAckStallTimeout port s
  | .resentFrameExpiry port => Sys2Proof.Machine.execResentFrameExpiry port s
  | .poolWaitExpiry port vc => Sys2Proof.Machine.execPoolWaitExpiry port vc s
  | .identReceive port => Sys2Proof.Machine.execIdentReceive port s
  | .timeWave => Sys2Proof.Machine.execTimeWave s
  | .timeFrameReceive port t4 => Sys2Proof.Machine.execTimeFrameReceive port t4 s
  | .syncUp port => Sys2Proof.Machine.execSyncUp port s
  | .syncDown port => Sys2Proof.Machine.execSyncDown port s
  | .redUp port => Sys2Proof.Machine.execRedUp port s
  | .redDown port => Sys2Proof.Machine.execRedDown port s
  | .collectiveAbort port => Sys2Proof.Machine.execCollectiveAbort port s
  | .powerEstimate x => Sys2Proof.Machine.execPowerEstimate x s
  | .weightCalibration estimated measured => Sys2Proof.Machine.execWeightCalibration estimated measured s
  | .pathResistanceCheck domain microohm currentMa temp8 => Sys2Proof.Machine.execPathResistanceCheck domain microohm currentMa temp8 s
  | .sagSample mv => Sys2Proof.Machine.execSagSample mv s
  | .sagStageLeave => Sys2Proof.Machine.execSagStageLeave s
  | .vinCoreCollapse => Sys2Proof.Machine.execVinCoreCollapse s
  | .dramRailLow vddMv vppMv => Sys2Proof.Machine.execDramRailLow vddMv vppMv s
  | .phaseFail domain phase => Sys2Proof.Machine.execPhaseFail domain phase s
  | .regulatorFail domain => Sys2Proof.Machine.execRegulatorFail domain s
  | .bridgeComplete domain => Sys2Proof.Machine.execBridgeComplete domain s
  | .domainDark domain => Sys2Proof.Machine.execDomainDark domain s
  | .idlePowerOff core => Sys2Proof.Machine.execIdlePowerOff core s
  | .wakeRequest domain => Sys2Proof.Machine.execWakeRequest domain s
  | .wakeTokenGrant domain => Sys2Proof.Machine.execWakeTokenGrant domain s
  | .wakeWaitEnd domain expired => Sys2Proof.Machine.execWakeWaitEnd domain expired s
  | .rampStage domain => Sys2Proof.Machine.execRampStage domain s
  | .wakeComplete domain => Sys2Proof.Machine.execWakeComplete domain s
  | .droopDetect domain droop cycles => Sys2Proof.Machine.execDroopDetect domain droop cycles s
  | .droopRecover island => Sys2Proof.Machine.execDroopRecover island s
  | .linkHoldEnd => Sys2Proof.Machine.execLinkHoldEnd s
  | .brakeAssert asserted => Sys2Proof.Machine.execBrakeAssert asserted s
  | .telemetryRecord x => Sys2Proof.Machine.execTelemetryRecord x s
  | .regulatorSample domain mv ma => Sys2Proof.Machine.execRegulatorSample domain mv ma s
  | .sensorConversion sensor temp8 => Sys2Proof.Machine.execSensorConversion sensor temp8 s
  | .emergencyClear sensor => Sys2Proof.Machine.execEmergencyClear sensor s
  | .thermalEvaluation power => Sys2Proof.Machine.execThermalEvaluation power s
  | .bondCheckpoint => Sys2Proof.Machine.execBondCheckpoint s
  | .wadiResidualCheck evaluation => Sys2Proof.Machine.execWadiResidualCheck evaluation s
  | .traySensorPoll r => Sys2Proof.Machine.execTraySensorPoll r s
  | .trayReadingStale flow => Sys2Proof.Machine.execTrayReadingStale flow s
  | .lowFlowTimeout => Sys2Proof.Machine.execLowFlowTimeout s
  | .flowLost => Sys2Proof.Machine.execFlowLost s
  | .flowLossTimeout => Sys2Proof.Machine.execFlowLossTimeout s
  | .flowRestored => Sys2Proof.Machine.execFlowRestored s
  | .thermalTrip source isNode temp8 => Sys2Proof.Machine.execThermalTrip source isNode temp8 s
  | .cacheParityError t => Sys2Proof.Machine.execCacheParityError t s
  | .cperRecord => Sys2Proof.Machine.execCperRecord s
  | .rawWrite ctrl => Sys2Proof.Machine.execRawWrite ctrl s
  | .rawRead ctrl => Sys2Proof.Machine.execRawRead ctrl s
  | .stressStart ctrl => Sys2Proof.Machine.execStressStart ctrl s
  | .stressCornerDone passed skipped => Sys2Proof.Machine.execStressCornerDone passed skipped s
  | .stressResult => Sys2Proof.Machine.execStressResult s
  | .debugUnlockWrite value => Sys2Proof.Machine.execDebugUnlockWrite value s
  | .unlockCheckDone o => Sys2Proof.Machine.execUnlockCheckDone o s
  | .debugLock => Sys2Proof.Machine.execDebugLock s
  | .unlockExpiry => Sys2Proof.Machine.execUnlockExpiry s
  | .slotArm k value => Sys2Proof.Machine.execSlotArm k value s
  | .slotCountExpiry k => Sys2Proof.Machine.execSlotCountExpiry k s
  | .start => Sys2Proof.Machine.execStart s
  | .coreRailsPresent => Sys2Proof.Machine.execCoreRailsPresent s
  | .dramRailsPresent => Sys2Proof.Machine.execDramRailsPresent s
  | .startStepDone found => Sys2Proof.Machine.execStartStepDone found s
  | .deviceReady => Sys2Proof.Machine.execDeviceReady s
  | .pendingDefectRecord => Sys2Proof.Machine.execPendingDefectRecord s
  | .computeResetRequest ctrl => Sys2Proof.Machine.execComputeResetRequest ctrl s
  | .resetHoldSet ctrl => Sys2Proof.Machine.execResetHoldSet ctrl s
  | .resetHoldClear ctrl => Sys2Proof.Machine.execResetHoldClear ctrl s
  | .resetEntryDone => Sys2Proof.Machine.execResetEntryDone s
  | .resetLeaveDone host found => Sys2Proof.Machine.execResetLeaveDone host found s
  | .fullResetRequest ctrl => Sys2Proof.Machine.execFullResetRequest ctrl s
  | .epochRequest ctrl => Sys2Proof.Machine.execEpochRequest ctrl s
  | .epochDrainDone => Sys2Proof.Machine.execEpochDrainDone s
  | .epochApply => Sys2Proof.Machine.execEpochApply s
  | .epochTimeout => Sys2Proof.Machine.execEpochTimeout s
  | .epochCommit => Sys2Proof.Machine.execEpochCommit s
  | .rootWaveTimeout object => Sys2Proof.Machine.execRootWaveTimeout object s
  | .vauxLoss => Sys2Proof.Machine.execVauxLoss s
  | .trayReset => Sys2Proof.Machine.execTrayReset s
  | .setEndpointId eid => Sys2Proof.Machine.execSetEndpointId eid s
  | .mctpBridge fromPort destEid device neighbour message => Sys2Proof.Machine.execMctpBridge fromPort destEid device neighbour message s
  | .getSensorReading id => Sys2Proof.Machine.execGetSensorReading id s
  | .setNumericEffecterValue id value => Sys2Proof.Machine.execSetNumericEffecterValue id value s
  | .setStateEffecter id value => Sys2Proof.Machine.execSetStateEffecter id value s
  | .setEventReceiver eid => Sys2Proof.Machine.execSetEventReceiver eid s
  | .platformEventMessage => Sys2Proof.Machine.execPlatformEventMessage s
  | .requestUpdate component => Sys2Proof.Machine.execRequestUpdate component s
  | .firmwareTransfer component version minor image kinds => Sys2Proof.Machine.execFirmwareTransfer component version minor image kinds s
  | .verifyComplete o => Sys2Proof.Machine.execVerifyComplete o s
  | .activateFirmware => Sys2Proof.Machine.execActivateFirmware s
  | .challenge nonce => Sys2Proof.Machine.execChallenge nonce s
  | .getMeasurements indices nonce => Sys2Proof.Machine.execGetMeasurements indices nonce s
  | .getPqSignature => Sys2Proof.Machine.execGetPqSignature s
  | .keyExchange exchange => Sys2Proof.Machine.execKeyExchange exchange s
  | .finish verifyData macOk => Sys2Proof.Machine.execFinish verifyData macOk s
  | .mgtComputeReset function => Sys2Proof.Machine.execMgtComputeReset function s
  | .mgtFullReset => Sys2Proof.Machine.execMgtFullReset s
  | .mgtStressTest ctrl => Sys2Proof.Machine.execMgtStressTest ctrl s
  | .mgtRequestEpoch ctrl => Sys2Proof.Machine.execMgtRequestEpoch ctrl s
  | .submitSignedObject o => Sys2Proof.Machine.execSubmitSignedObject o s
  | .removeDefectEntries o => Sys2Proof.Machine.execRemoveDefectEntries o s
  | .clearBondWear o => Sys2Proof.Machine.execClearBondWear o s
  | .replacePathBaseline o => Sys2Proof.Machine.execReplacePathBaseline o s
  | .restoreFactoryWeights o => Sys2Proof.Machine.execRestoreFactoryWeights o s
  | .readEventLog fromSeq => Sys2Proof.Machine.execReadEventLog fromSeq s
  | .readOasisRecords fromSecond isLog => Sys2Proof.Machine.execReadOasisRecords fromSecond isLog s
  | .readDbgNonce => Sys2Proof.Machine.execReadDbgNonce s
  | .sealOpen => Sys2Proof.Machine.execSealOpen s
  | .sealClose => Sys2Proof.Machine.execSealClose s
  | .oasisImageLoad version complete edOk mlOk => Sys2Proof.Machine.execOasisImageLoad version complete edOk mlOk s
  | .oasisParameterChange params => Sys2Proof.Machine.execOasisParameterChange params s
  | .oasisClockSet micros => Sys2Proof.Machine.execOasisClockSet micros s
  | .oasisSample r => Sys2Proof.Machine.execOasisSample r s
  | .intervalClose => Sys2Proof.Machine.execIntervalClose s
  | .oasisCommit => Sys2Proof.Machine.execOasisCommit s
  | .oasisPowerFail => Sys2Proof.Machine.execOasisPowerFail s
  | .oasisStart => Sys2Proof.Machine.execOasisStart s
  | .oasisRecordReceive => Sys2Proof.Machine.execOasisRecordReceive s
  | .linkTrainingDone port ok => Sys2Proof.Machine.execLinkTrainingDone port ok s
  | .portRetrain port o => Sys2Proof.Machine.execPortRetrain port o s
  | .refclkLoss => Sys2Proof.Machine.execRefclkLoss s
  | .vbypOutOfRange => Sys2Proof.Machine.execVbypOutOfRange s
  | .trayResetRelease => Sys2Proof.Machine.execTrayResetRelease s
  | .dynamicAddressAssignment address => Sys2Proof.Machine.execDynamicAddressAssignment address s
  | .sidePortMoveDone vault trained => Sys2Proof.Machine.execSidePortMoveDone vault trained s
  | .meshLinkMoveDone island dir control => Sys2Proof.Machine.execMeshLinkMoveDone island dir control s

end Sys2Proof.Machine
end

