-- ==== Sys2Proof/Safety.lean ====
section
/-! DEFINITION. What a safe run is, and the terms in which the statements say what a command leaves alone. -/

namespace Sys2Proof.Machine

/-- The step answers a next state: neither a fault nor a refusal. -/
def State.stepsOn (s : State) : Prop := ∃ t, step s = .next t

/-- The host addresses that a command names lie in the 192 GiB of device memory (R151). -/
def hostAddressOk : Instr → Bool
  | .hostMemRead a => decide (a < Config.dramBytes)
  | .hostMemWrite a _ _ => decide (a < Config.dramBytes)
  | _ => true

/-- Every byte of host memory outside n bytes from a reads as before. -/
def hostSameOutside (s t : State) (a n : Nat) : Prop :=
  ∀ x, x < a ∨ a + n ≤ x → Cells.read t.host.cells x = Cells.read s.host.cells x
/-- Every byte of device memory outside n bytes from a reads as before. -/
def dramSameOutside (s t : State) (a n : Nat) : Prop :=
  ∀ x, x < a ∨ a + n ≤ x → Cells.read t.dram.cells x = Cells.read s.dram.cells x

/-- Every ring but r is as before. -/
def ringsSameBut (s t : State) (r : Nat) : Prop := ∀ q, q ≠ r → t.ring q = s.ring q
/-- Every core but c is as before. -/
def coresSameBut (s t : State) (c : Nat) : Prop := ∀ q, q ≠ c → t.core q = s.core q
/-- Every vault but v is as before. -/
def vaultsSameBut (s t : State) (v : Nat) : Prop := ∀ q, q ≠ v → t.vault q = s.vault q
/-- Every port but p is as before. -/
def portsSameBut (s t : State) (p : Nat) : Prop := ∀ q, q ≠ p → t.port q = s.port q
/-- Every supply domain but d is as before. -/
def domsSameBut (s t : State) (d : Nat) : Prop := ∀ q, q ≠ d → t.dom q = s.dom q
/-- Every router but n is as before. -/
def routersSameBut (s t : State) (n : Nat) : Prop := ∀ q, q ≠ n → t.router q = s.router q
/-- Every counter but the one at offset o is as before. -/
def countersSameBut (s t : State) (o : Nat) : Prop := ∀ q, q ≠ o → t.ctrGet q = s.ctrGet q

/-- What the work of a clause, its failure or its completion never touches: the queue, the clocks, latched counters, the
set-up registers, epochs, conjunction counters, sync objects and delayed steps, tiers and lanes, supply domains, the
thermal, wear and metrology state, the start and the pins. -/
def clauseFrame (s t : State) : Prop :=
  t = { s with
    freeIdx := t.freeIdx, dram := t.dram, playa := t.playa, host := t.host, ctr := t.ctr, cmd := t.cmd, rings := t.rings, tainted := t.tainted
    fields := t.fields, steps := t.steps, cores := t.cores, vaults := t.vaults, caches := t.caches, engines := t.engines
    kvm := t.kvm, decodes := t.decodes, routers := t.routers, slots := t.slots, reducing := t.reducing, ports := t.ports
    lnk := t.lnk, colls := t.colls, pwr := { s.pwr with holdColls := t.pwr.holdColls }
    err := { s.err with tables := t.err.tables, summary := t.err.summary }, dbg := t.dbg
    boot := { s.boot with events := t.boot.events }, mgt := { s.mgt with awaiting := t.mgt.awaiting }, cxl := t.cxl
    io := t.io }

/-- The clause of a ring's index has its work behind it, or has failed: it is posted again or gone. -/
def workEnded (t : State) (r index : Nat) : Prop :=
  ((t.ring r).clauseOf index).all (fun c => c.worked || decide (c.phase = .posted)) = true

/-- The three memories are in canonical form, and the bounded logs are within their bounds (R44, R516, R531, R533). -/
structure State.Inv (s : State) : Prop where
  dram    : Memory.wf s.dram.cells
  playa   : Memory.wf s.playa.cells
  host    : Memory.wf s.host.cells
  events  : s.boot.events.length ≤ 4096
  watch   : s.cmd.watch.length ≤ 4096
  records : s.oas.records.length ≤ 65536
  logs    : s.oas.logs.length ≤ 1024

end Sys2Proof.Machine
end

