-- ==== Sys2Proof/Certificates/Slice0/Obligations.lean ====
section
/-! DEFINITION. The statements about the SD2 model, from the rules of the spec. -/

open Sys2Proof Sys2Proof.Machine

/-- With command c at the front of the queue, a step is exec of c on the state whose queue is the rest; with an empty
queue the step answers a next state that differs in its time base and in a held time of the time wave alone. The queue
and its idling are the model's (log 3, log 4). -/
def Obligations.StepRunsFrontCommand : Prop :=
  (∀ (c : Instr) (rest : List Instr) (s : State), s.pending = c :: rest → step s = exec c { s with pending := rest }) ∧
  (∀ s : State, s.pending = [] →
    ∃ t : State, step s = .next t ∧ t = { s with time := t.time, lnk := { s.lnk with timeHold := t.lnk.timeHold } })

/-- No command ever ends a run except an access to an address that the device does not have: for every state and every
command, exec answers a next state when the host address that the command names lies below 192 GiB, and so does
ERR_CHK_ADDR's burst where the command writes a register or makes a raw access. -/
def Obligations.NoCommandStopsTheDevice : Prop :=
  ∀ (c : Instr) (s : State), hostAddressOk c = true → s.chkDpa < Config.dramBytes → ∃ t : State, exec c s = .next t

/-- Host accesses and raw accesses to an address at or above 192 GiB fault under the name of that address, before
anything else of them happens. -/
def Obligations.NoSuchAddressFaults : Prop :=
  (∀ (a : Nat) (s : State), Config.dramBytes ≤ a → exec (.hostMemRead a) s = .fault (.noSuchAddress a)) ∧
  (∀ (a : Nat) (bs : List Byte) (p : Bool) (s : State), Config.dramBytes ≤ a →
    exec (.hostMemWrite a bs p) s = .fault (.noSuchAddress a)) ∧
  (∀ (ctrl : Word32) (s : State), ctrl.getLsbD 0 = true → bits ctrl.toNat 3 2 = 1 → s.err.chkBusy = false →
    Config.dramBytes ≤ s.chkDpa → exec (.rawWrite ctrl) s = .fault (.noSuchAddress s.chkDpa)) ∧
  (∀ (ctrl : Word32) (s : State), ctrl.getLsbD 0 = true → bits ctrl.toNat 3 2 = 2 → s.err.chkBusy = false →
    Config.dramBytes ≤ s.chkDpa → exec (.rawRead ctrl) s = .fault (.noSuchAddress s.chkDpa))

/-- At reset the three memories are in canonical form and the bounded logs are within their bounds. -/
def Obligations.InvariantAtReset : Prop := State.Inv State.reset

/-- From every state, reached or not, in which the memories are in canonical form and the watch table, the event log,
the interval records and Oasis's log are within their bounds, a step that answers a next state leaves them so. -/
def Obligations.EveryStepKeepsInvariant : Prop :=
  ∀ s t : State, State.Inv s → step s = .next t → State.Inv t

/-- Whatever a command does, it leaves the queue of waiting commands as it finds it: from every state with command c at
the front, a step that answers a next state leaves exactly the rest of the queue. The queue is the model's (log 4). -/
def Obligations.CommandsLeaveTheQueue : Prop :=
  (∀ (c : Instr) (s t : State), exec c s = .next t → t.pending = s.pending) ∧
  (∀ (c : Instr) (rest : List Instr) (s t : State), s.pending = c :: rest → step s = .next t → t.pending = rest)

/-- Storing bytes in device memory without word errors, in a Playa slice or in host memory makes each byte of the range
read as stored and leaves every other byte as it was. -/
def Obligations.StoresReadBack : Prop :=
  (∀ (d : Dram) (a : Nat) (bs : List Byte) (p : Bool) (x : Nat), d.checks = [] →
    Cells.read (d.store a bs p).cells x
      = if a ≤ x ∧ x < a + bs.length then bs.getD (x - a) 0 else Cells.read d.cells x) ∧
  (∀ (m : Slices) (a : Nat) (bs : List Byte) (p : Bool) (x : Nat),
    Cells.read (m.store a bs p).cells x
      = if a ≤ x ∧ x < a + bs.length then bs.getD (x - a) 0 else Cells.read m.cells x) ∧
  (∀ (m : Store) (a : Nat) (bs : List Byte) (p : Bool) (x : Nat),
    Cells.read (m.store a bs p).cells x
      = if a ≤ x ∧ x < a + bs.length then bs.getD (x - a) 0 else Cells.read m.cells x)

/-- A snoop of a watched line gives up that line and no other; when its re-read returns at once, the line is read as a
re-read is. A snoop of a line that is not watched changes nothing. The poll timer starts the read of every polled line. The
read of a line given up or polled ends its read, whatever it brings: poisoned, it is counted in ERR_DOORBELL_POISON, and the
third in a row stops every ring on the line, while an earlier one changes no ring; clean, the line is Shared again with no
poisoned read, and of each open ring on the line that is not stopped the slot becomes the producer index when it passes
R47's check, and stops the ring when it does not. On a line with one such ring that passes nothing else changes. -/
def Obligations.DoorbellLines : Prop :=
  (∀ (line : Nat) (s : State), s.cmd.watch.any (fun w => w.line == line) = true →
    ∃ t : State, exec (.snoopInvalidate line none) s = .next t ∧
      t = { s with cmd := { s.cmd with watch := t.cmd.watch } } ∧
      t.cmd.watch.map (·.line) = s.cmd.watch.map (·.line) ∧
      (∀ w ∈ t.cmd.watch, w.line = line → w.shared = false) ∧
      (∀ w ∈ t.cmd.watch, w.line ≠ line → w ∈ s.cmd.watch)) ∧
  (∀ (line : Nat) (rd : LineRead) (s : State), s.cmd.watch.any (fun w => w.line == line) = true →
    ∃ t u : State, exec (.snoopInvalidate line (some rd)) s = .next t ∧ t = u.readLine line rd ∧
      exec (.snoopInvalidate line none) s = .next u ∧ line ∉ t.cmd.reading ∧
      (∀ w ∈ t.cmd.watch, w.line = line → w.shared = true)) ∧
  (∀ (line : Nat) (rd : Option LineRead) (s : State), s.cmd.watch.any (fun w => w.line == line) = false →
    exec (.snoopInvalidate line rd) s = .next s) ∧
  (∀ s : State, ∃ t : State, exec .pollTimer s = .next t ∧
      t = { s with cmd := { s.cmd with reading := t.cmd.reading } } ∧
      ∀ l, l ∈ t.cmd.reading ↔ l ∈ s.cmd.reading ∨ ∃ w ∈ s.cmd.polled, w.line = l) ∧
  (∀ (line : Nat) (rd : LineRead) (s : State),
    (line ∈ s.cmd.reading ∨ ∃ w ∈ s.cmd.watch, w.line = line ∧ w.shared = false) →
    ∃ t : State, exec (.doorbellReread line rd) s = .next t ∧ t = s.readLine line rd ∧ line ∉ t.cmd.reading ∧
      (∀ w ∈ t.cmd.watch ++ t.cmd.polled, w.line = line → w.shared = true ∧ (w.poisoned = 0 ↔ rd.poison = false)) ∧
      t.ctrGet 0x1100020 = s.ctrGet 0x1100020 + (if rd.poison then 1 else 0) ∧ countersSameBut s t 0x1100020 ∧
      (rd.poison = false → ∀ r ∈ s.ringsOnLine line, (s.ring r).isStopped = false →
        if (s.ring r).producerOk (rd.slots.getD (s.ring r).ctx.dbSlot 0).toNat
        then (t.ring r).produced = (rd.slots.getD (s.ring r).ctx.dbSlot 0).toNat
        else (t.ring r).isStopped = true)) ∧
  (∀ (line : Nat) (rd : LineRead) (w : WatchLine) (s : State), line ∈ s.cmd.reading → rd.poison = true →
    (s.cmd.watch ++ s.cmd.polled).find? (fun x => x.line == line) = some w → w.poisoned = 2 →
    ∃ t : State, exec (.doorbellReread line rd) s = .next t ∧ (∀ r ∈ s.ringsOnLine line, (t.ring r).isStopped = true)) ∧
  (∀ (line : Nat) (rd : LineRead) (s : State), line ∈ s.cmd.reading → rd.poison = true →
    (∀ w ∈ s.cmd.watch ++ s.cmd.polled, w.line = line → w.poisoned < 2) →
    ∃ t : State, exec (.doorbellReread line rd) s = .next t ∧ t = { s with cmd := t.cmd, ctr := t.ctr }) ∧
  (∀ (line r : Nat) (rd : LineRead) (s : State), line ∈ s.cmd.reading → rd.poison = false → rd.slots.length = 16 →
    s.ringsOnLine line = [r] → (s.ring r).isStopped = false →
    (s.ring r).producerOk (rd.slots.getD (s.ring r).ctx.dbSlot 0).toNat = true →
    ∃ t : State, exec (.doorbellReread line rd) s = .next t ∧ t = { s with cmd := t.cmd, host := t.host, rings := t.rings } ∧
      (t.ring r).produced = (rd.slots.getD (s.ring r).ctx.dbSlot 0).toNat ∧
      (t.ring r).clauses = (s.ring r).clauses ∧ (t.ring r).fetched = (s.ring r).fetched ∧ ringsSameBut s t r ∧
      Cells.readRange t.host.cells line 64 = wordsToBytes rd.slots ∧ hostSameOutside s t line 64)

/-- A fetch of n clauses, no more than the ring may take, appends them to the ring in order as posted clauses, moves the
fetch index by n modulo 2^32, writes the new index to FETCH_WB as a 64-bit word, and then issues what can issue; no other
ring changes before that, and no other byte of host memory. -/
def Obligations.FetchJoinsRing : Prop :=
  ∀ (r : Nat) (cs : List FetchedClause) (s : State), (s.ring r).mayFetch = true → cs ≠ [] →
    cs.length ≤ (s.ring r).fetchRoom →
    ∃ u : State, exec (.fetchComplete r cs) s = .next u.issueAll ∧ u = { s with rings := u.rings, host := u.host } ∧
      (u.ring r).clauses.map (·.bits) = (s.ring r).clauses.map (·.bits) ++ cs.map (·.bits) ∧
      (u.ring r).clauses.take (s.ring r).clauses.length = (s.ring r).clauses ∧
      (∀ c ∈ (u.ring r).clauses.drop (s.ring r).clauses.length, c.phase = .posted) ∧
      (u.ring r).fetched = ((s.ring r).fetched + cs.length) % 2 ^ 32 ∧
      (u.ring r).produced = (s.ring r).produced ∧ ringsSameBut s u r ∧
      Cells.readRange u.host.cells (s.ring r).ctx.fetchWb 8 = natLe 8 (((s.ring r).fetched + cs.length) % 2 ^ 32) ∧
      hostSameOutside s u (s.ring r).ctx.fetchWb 8

/-- An issued clause that may start, with no stage lost since its issue, becomes started, and each core of its stage, in
the order of R449, holds its share or keeps it waiting for room; a decode's shares go to the cores of its segments. One whose
loaded stage has lost a core fails instead. A share that finishes while another is still out adds its activity to the counters
of its core, as R121 and R448 place it on the arrays, leaves the core's queue and the clause's list of shares, and completes
nothing. The last share, where no other share waits anywhere, leaves its clause done. -/
def Obligations.ClausesStartAndSharesFinish : Prop :=
  (∀ (r k : Nat) (h : HostView) (c : ClauseSt) (s u : State), (s.ring r).clauseAt k = some c →
    u = (if isKvVerb (clVerb c.bits) then s.seeHost h else s) → u.mayStart r c = true →
    u.checkStages r (u.ring r).field c.bits = none →
    ∃ t : State, exec (.clauseStart r ⟨k, h⟩) s = .next t ∧
      t = { u with rings := t.rings, cores := t.cores, ctr := t.ctr, kvm := { u.kvm with order := t.kvm.order, reading := t.kvm.reading } } ∧
      ((t.ring r).clauseOf c.index).map (·.phase) = some .started ∧ ringsSameBut s t r ∧ countersSameBut s t 0x1003028 ∧
      (clVerb c.bits ≠ verbDecode → t.kvm.reading = s.kvm.reading ∧
        (∀ n ∈ u.shareOrder r c.bits,
          ((t.ring r).clauseOf c.index).any (fun x => x.shares.contains n || x.unsent.contains n) = true))) ∧
  (∀ (r k : Nat) (h : HostView) (c : ClauseSt) (f : Failure) (s u : State), (s.ring r).clauseAt k = some c →
    u = (if isKvVerb (clVerb c.bits) then s.seeHost h else s) → u.mayStart r c = true →
    u.checkStages r (u.ring r).field c.bits = some f →
    exec (.clauseStart r ⟨k, h⟩) s = .next (u.failClause r c.index f).issueAll) ∧
  (∀ (r k n other : Nat) (act : ShareActivity) (c : ClauseSt) (s : State),
    (s.ring r).clauseAt k = some c → c.phase = .started → c.worked = true → n ∈ c.shares → other ∈ c.shares → other ≠ n →
    s.runsShare n (s.ring r).ctx.paren r c.index = true → s.controlHeld n = false → s.imemSlot n (s.ring r).ctx.paren = none →
    ∃ t : State, exec (.shareFinish r k n act) s = .next t ∧
      t = { s with freeIdx := t.freeIdx, rings := t.rings, cores := t.cores, ctr := t.ctr, steps := t.steps } ∧
      ((t.ring r).clauseOf c.index).map (·.phase) = some .started ∧
      t.ctrGet (arrCtr n 0 0x00) = s.ctrGet (arrCtr n 0 0x00)
        + BitVec.ofNat 64 ((s.shareActivity n (s.ring r).ctx.paren false c act).adv.getD 0 0) ∧
      t.ctrGet (arrCtr n 1 0x18) = s.ctrGet (arrCtr n 1 0x18)
        + BitVec.ofNat 64 ((s.shareActivity n (s.ring r).ctx.paren false c act).passes.getD 1 0) ∧
      t.ctrGet (vecCtr n (s.ring r).ctx.paren 0x00) = s.ctrGet (vecCtr n (s.ring r).ctx.paren 0x00)
        + BitVec.ofNat 64 (s.shareActivity n (s.ring r).ctx.paren false c act).vecIssue) ∧
  (∀ (r k n : Nat) (act : ShareActivity) (c : ClauseSt) (s : State),
    (s.ring r).clauseAt k = some c → c.phase = .started → c.worked = true → c.shares = [n] → c.vaults = [] → c.verdict = none →
    (∀ e ∈ s.rings, ∀ x ∈ e.2.clauses, x.unsent = []) →
    s.runsShare n (s.ring r).ctx.paren r c.index = true → s.controlHeld n = false → s.imemSlot n (s.ring r).ctx.paren = none →
    ∃ t : State, exec (.shareFinish r k n act) s = .next t ∧
      t = { s with freeIdx := t.freeIdx, rings := t.rings, cores := t.cores, ctr := t.ctr, steps := t.steps } ∧
      ((t.ring r).clauseOf c.index).map (·.phase) = some .done ∧ ringsSameBut s t r ∧ coresSameBut s t n ∧
      t.ctrGet (vecCtr n (s.ring r).ctx.paren 0x10) = s.ctrGet (vecCtr n (s.ring r).ctx.paren 0x10) + BitVec.ofNat 64 c.nonFinite ∧
      t.ctrGet (vecCtr n (s.ring r).ctx.paren 0x20) = s.ctrGet (vecCtr n (s.ring r).ctx.paren 0x20) + BitVec.ofNat 64 c.saturated)

/-- In completion order, a clause that is done leaves its ring; each of its signals adds to its conjunction counter; and
unless it is QUIET its record, of status 0 with its slot, tag, DETAIL and the ring's phase, goes to the next entry of the
completion ring. Then what can issue issues. -/
def Obligations.DoneClauseCompletes : Prop :=
  (∀ (r k : Nat) (c : ClauseSt) (s : State), (s.ring r).clauseAt k = some c → c.phase = .done →
    (s.ring r).inOrder c = true → (s.ring r).closing = false → (s.ring r).flushing = false →
    ∃ u : State, exec (.clauseComplete r k) s = .next u.issueAll ∧
      (u.ring r).clauseOf c.index = none ∧
      u.conj = (s.applySignals c.bits).conj ∧
      (clQuiet c.bits = false → Cells.readRange u.host.cells
          ((s.ring r).ctx.cqBase + 16 * ((s.ring r).records % (s.ring r).size)) 16
        = recordBytes ((s.ring r).slotOf c.index) (clTag c.bits) { status := 0, operand := 7, detail := c.detail }
          ((s.ring r).records / (s.ring r).size % 2 == 0) s.time) ∧
      (clQuiet c.bits = true → (∀ x ∈ s.tainted, (x.ring, x.index) ≠ (r, c.index)) →
        u.io = (((s.commitAppends r c.index).releaseWork r c.index).drainAllDeferred.serveAllFree).io)) ∧
  (∀ (c : BitVec 512) (s : State) (j : Nat),
    Tbl.get 0 (s.applySignals c).conj j = Tbl.get 0 s.conj j
      + (if (clSignal c 0).1 = true ∧ (clSignal c 0).2.1 = j then BitVec.ofNat 64 (clSignal c 0).2.2 else 0)
      + (if (clSignal c 1).1 = true ∧ (clSignal c 1).2.1 = j then BitVec.ofNat 64 (clSignal c 1).2.2 else 0)) ∧
  (∀ (r slot tag : Nat) (f : Failure) (irq : Bool) (s : State),
    Cells.readRange (s.writeRecord r slot tag f irq).host.cells
        ((s.ring r).ctx.cqBase + 16 * ((s.ring r).records % (s.ring r).size)) 16
      = recordBytes slot tag f ((s.ring r).records / (s.ring r).size % 2 == 0) s.time ∧
    hostSameOutside s (s.writeRecord r slot tag f irq)
      ((s.ring r).ctx.cqBase + 16 * ((s.ring r).records % (s.ring r).size)) 16 ∧
    ((s.writeRecord r slot tag f irq).ring r).records = (s.ring r).records + 1)

/-- At the end of a vector's hold-off in which no event arrived, only its hold-off ends; with an event held back, a vector
whose entry is not masked fires once. The head of a ring that has waited for its conjunctions fails with WAIT_TIMEOUT,
DETAIL 1 when its first wait is met and 0 otherwise. Writing CMD_WAIT_TIMEOUT while no ring waits changes only the register. -/
def Obligations.HoldOffsAndWaitTimeouts : Prop :=
  (∀ (v : Nat) (s : State), Tbl.find s.cmd.hold v = some false →
    exec (.msixHoldoffExpiry v) s = .next { s with cmd := { s.cmd with hold := Tbl.drop s.cmd.hold v } }) ∧
  (∀ (v : Nat) (s : State), Tbl.find s.cmd.hold v = some true → s.msixMasked v = false →
    ∃ t : State, exec (.msixHoldoffExpiry v) s = .next t ∧ t.io.msix = v :: s.io.msix ∧
      t = { s with cmd := { s.cmd with hold := t.cmd.hold }, io := { s.io with msix := t.io.msix } }) ∧
  (∀ (r : Nat) (c : ClauseSt) (s : State), (s.ring r).state = .running → (s.ring r).waitFrom.isSome = true →
    s.cmd.waitTimeout ≠ 0 → s.halted = false → (s.ring r).head = some c →
    exec (.waitTimeout r) s = .next (s.failClause r c.index
      { status := 0x201, operand := 7, detail := if s.waitMet (clWait c.bits 0) then 1 else 0 })) ∧
  (∀ (v : Word32) (s : State), (∀ r ∈ Tbl.keys s.rings, (s.ring r).waitFrom = none) →
    exec (.waitTimeoutWrite v) s = .next { s with cmd := { s.cmd with waitTimeout := BitVec.ofNat 14 v.toNat } })

/-- When a clause of an open ring that is not stopped and not closing fails, its ring becomes STOPPED, also beneath a
pause, with the clause's index as its stop slot; the clause stays in the ring as posted; one record has been written;
and every other ring keeps its state and its records. -/
def Obligations.FailureStopsTheRing : Prop :=
  ∀ (r : Nat) (index : Nat) (c : ClauseSt) (f : Failure) (s : State), (s.ring r).clauseOf index = some c →
    (s.ring r).isStopped = false → (s.ring r).closing = false → (s.ring r).flushing = false →
    ((s.failClause r index f).ring r).isStopped = true ∧
    ((s.failClause r index f).ring r).stopAt = index ∧
    (((s.failClause r index f).ring r).clauseOf index).map (·.phase) = some .posted ∧
    ((s.failClause r index f).ring r).records = (s.ring r).records + 1 ∧
    (∀ q, q ≠ r → ((s.failClause r index f).ring q).state = (s.ring q).state ∧
      ((s.failClause r index f).ring q).records = (s.ring q).records)

/-- A started fence with no shares out is done. FENCE_SET also gives its counter its value. RESUME and SKIP leave their stopped target,
whose latest producer value passes R47's check, not stopped, SKIP past its stop slot; RESUME of one whose value fails the check
leaves it stopped with one more record. FLUSH of a stopped target takes its fetch index to the producer index and leaves it
no posted clause; it stays STOPPED while clauses are outstanding, and the fence is done at once where none is. CLOSE of an
open ring without outstanding clauses closes it; then what can issue issues. -/
def Obligations.FencesAndRingControl : Prop :=
  (∀ (r k : Nat) (c : ClauseSt) (s : State), s.startedFence r k 0 = some c → c.shares = [] → c.unsent = [] →
    c.vaults = [] → c.verdict = none →
    ∃ t : State, exec (.fence r k) s = .next t ∧ t = { s with rings := t.rings } ∧ ringsSameBut s t r ∧
      ((t.ring r).clauseOf c.index).map (·.phase) = some .done) ∧
  (∀ (r k : Nat) (c : ClauseSt) (s : State), s.startedFence r k 1 = some c → c.shares = [] → c.unsent = [] →
    c.vaults = [] → c.verdict = none →
    ∃ u : State, exec (.fenceSet r k) s = .next u.issueAll ∧ u = { s with rings := u.rings, conj := u.conj } ∧
      (∀ j, Tbl.get 0 u.conj j = if j = fenceTarget c.bits then BitVec.ofNat 64 (fenceValue c.bits) else Tbl.get 0 s.conj j) ∧
      ((u.ring r).clauseOf c.index).map (·.phase) = some .done) ∧
  (∀ (k : Nat) (c : ClauseSt) (s : State), s.startedFence 0 k 2 = some c → (s.ring (fenceTarget c.bits)).isStopped = true →
    (s.ring (fenceTarget c.bits)).producerOk (s.ring (fenceTarget c.bits)).seen = true →
    ∃ u : State, exec (.resume k) s = .next ((u.workDone 0 c.index (fun x => x)).issueAll) ∧ u = { s with rings := u.rings } ∧
      (u.ring (fenceTarget c.bits)).isStopped = false ∧
      (u.ring (fenceTarget c.bits)).produced = (s.ring (fenceTarget c.bits)).seen ∧
      (u.ring (fenceTarget c.bits)).clauses = (s.ring (fenceTarget c.bits)).clauses ∧
      ringsSameBut s u (fenceTarget c.bits)) ∧
  (∀ (k : Nat) (c : ClauseSt) (s : State), s.startedFence 0 k 2 = some c → (s.ring (fenceTarget c.bits)).isStopped = true →
    (s.ring (fenceTarget c.bits)).producerOk (s.ring (fenceTarget c.bits)).seen = false →
    ∃ u : State, exec (.resume k) s = .next ((u.workDone 0 c.index (fun x => x)).issueAll) ∧
      (u.ring (fenceTarget c.bits)).isStopped = true ∧
      (u.ring (fenceTarget c.bits)).records = (s.ring (fenceTarget c.bits)).records + 1 ∧ ringsSameBut s u (fenceTarget c.bits)) ∧
  (∀ (k : Nat) (c : ClauseSt) (s : State), s.startedFence 0 k 3 = some c → (s.ring (fenceTarget c.bits)).isStopped = true →
    (s.ring (fenceTarget c.bits)).producerOk (s.ring (fenceTarget c.bits)).seen = true →
    (s.ring (fenceTarget c.bits)).skipped = false →
    ∃ u : State, exec (.skip k) s = .next ((u.workDone 0 c.index (fun x => x)).issueAll) ∧ u = { s with rings := u.rings } ∧
      (u.ring (fenceTarget c.bits)).isStopped = false ∧
      (∀ x, x ∈ (u.ring (fenceTarget c.bits)).clauses ↔
        x ∈ (s.ring (fenceTarget c.bits)).clauses ∧ x.index ≠ (s.ring (fenceTarget c.bits)).stopAt) ∧
      ringsSameBut s u (fenceTarget c.bits)) ∧
  (∀ (k : Nat) (c : ClauseSt) (s : State), s.startedFence 0 k 3 = some c → (s.ring (fenceTarget c.bits)).isStopped = true →
    (s.ring (fenceTarget c.bits)).producerOk (s.ring (fenceTarget c.bits)).seen = true →
    (s.ring (fenceTarget c.bits)).skipped = true → (s.ring (fenceTarget c.bits)).seen ≠ (s.ring (fenceTarget c.bits)).fetched →
    ∃ u : State, exec (.skip k) s = .next ((u.workDone 0 c.index (fun x => x)).issueAll) ∧
      u = { s with rings := u.rings, host := u.host } ∧ (u.ring (fenceTarget c.bits)).isStopped = false ∧
      (u.ring (fenceTarget c.bits)).clauses = (s.ring (fenceTarget c.bits)).clauses ∧
      (u.ring (fenceTarget c.bits)).fetched = ((s.ring (fenceTarget c.bits)).fetched + 1) % 2 ^ 32 ∧
      hostSameOutside s u (s.ring (fenceTarget c.bits)).ctx.fetchWb 8 ∧ ringsSameBut s u (fenceTarget c.bits)) ∧
  (∀ (k : Nat) (h : HostView) (c : ClauseSt) (s : State), (s.seeHost h).startedFence 0 k 4 = some c →
    (s.ring (fenceTarget c.bits)).isStopped = true →
    ∃ u : State, exec (.flush k h) s = .next u.issueAll ∧
      (u.ring (fenceTarget c.bits)).fetched = (s.ring (fenceTarget c.bits)).produced ∧
      (∀ x ∈ (u.ring (fenceTarget c.bits)).clauses, x.phase ≠ .posted) ∧
      (∀ q, q ≠ 0 → q ≠ fenceTarget c.bits → u.ring q = s.ring q) ∧
      ((s.ring (fenceTarget c.bits)).clauses.any ClauseSt.outstanding = true → (u.ring (fenceTarget c.bits)).isStopped = true) ∧
      ((s.ring (fenceTarget c.bits)).clauses.any ClauseSt.outstanding = false →
        ((u.ring 0).clauseOf c.index).map (·.phase) = some .done)) ∧
  (∀ (k : Nat) (h : HostView) (c : ClauseSt) (s : State), (s.seeHost h).startedFence 0 k 5 = some c →
    fenceTarget c.bits ≠ 0 → (s.ring (fenceTarget c.bits)).isOpen = true → (s.ring (fenceTarget c.bits)).closing = false →
    (s.ring (fenceTarget c.bits)).isStopped = false → (s.ring (fenceTarget c.bits)).clauses.any ClauseSt.outstanding = false →
    ∃ t : State, exec (.close k h) s = .next t ∧ t.ring (fenceTarget c.bits) = RingSt.reset ∧
      ((t.ring 0).clauseOf c.index).map (·.phase) = some .done)

/-- With ring 0 CLOSED, a ring context table and a good entry 0, ADMIN_ENABLE opens ring 0: R0_STATE reads 1, and ring 0
is IDLE with its fetch index at the value of its doorbell slot. Without a table R0_STATE reads 3. ADMIN_DISABLE of an open
ring 0 with nothing outstanding closes it: R0_STATE reads 0. -/
def Obligations.RingZeroOpensAndCloses : Prop :=
  (∀ (h : HostView) (s : State), s.cmd.adminEnable = false → (s.ring 0).state = .closed → s.applied.rctBase ≠ 0 →
    (s.seeHost h).ringEntryPoison 0 = false → ringEntryBad ((s.seeHost h).ringEntry 0) = false →
    ∃ t : State, exec (.adminEnable h) s = .next t ∧ t.cmd.adminEnable = true ∧ t.cmd.r0State = 1 ∧ (t.ring 0).state = .idle ∧
      (t.ring 0).ctx = parseRing ((s.seeHost h).ringEntry 0) ∧
      (t.ring 0).fetched = leNat ((s.seeHost h).hostRead ((t.ring 0).ctx.dbLine + 4 * (t.ring 0).ctx.dbSlot) 4) ∧
      (t.ring 0).produced = (t.ring 0).fetched ∧ ringsSameBut s t 0 ∧
      t = { s with cmd := t.cmd, host := t.host, rings := t.rings }) ∧
  (∀ (h : HostView) (s : State), s.cmd.adminEnable = false → (s.ring 0).state = .closed → s.applied.rctBase = 0 →
    ∃ t : State, exec (.adminEnable h) s = .next t ∧ t.cmd.r0State = 3 ∧ t.rings = s.rings) ∧
  (∀ (h : HostView) (s : State), (s.ring 0).isOpen = true → (s.ring 0).isStopped = false →
    (s.ring 0).clauses.any ClauseSt.outstanding = false →
    ∃ t : State, exec (.adminDisable h) s = .next t ∧ t.ring 0 = RingSt.reset ∧ t.cmd.r0State = 0 ∧ t.cmd.adminEnable = false ∧
      ringsSameBut s t 0)

/-- For a started clause on standard kernels, MATRIX_PRODUCT with its output in memory, ELEMENT_WISE_CHAIN,
ATTENTION_FORWARD, ATTENTION_BACKWARD and COPY read their operands as memory holds them and the host supplies, and store
every output element that they write; afterwards the clause's work is done or it has failed, Playa is as before where no
vault cache holds a line, and nothing outside a clause's reach has changed. COPY stores exactly the elements that it loads. On a stage with a loaded
image the outputs are free. -/
def Obligations.CoreVerbsRun : Prop :=
  (∀ (r k : Nat) (h : HostView) (un : List Nat) (c : ClauseSt) (s : State), s.startedClause r k verbMatrix = some c →
    s.stageLoaded r = false → mxOutRbuf c.bits = false →
    ∃ t : State, exec (.matrixProduct r k h un) s = .next t ∧ t = (s.seeHost h).matrixProduct r c un ∧
      clauseFrame (s.seeHost h) t ∧ (s.caches = [] → t.playa = s.playa) ∧ workEnded t r c.index) ∧
  (∀ (r k : Nat) (h : HostView) (c : ClauseSt) (s : State), s.startedClause r k verbChain = some c →
    s.stageLoaded r = false →
    ∃ t : State, exec (.elementWiseChain r k h) s = .next t ∧ t = (s.seeHost h).runChain r c ∧
      clauseFrame (s.seeHost h) t ∧ (s.caches = [] → t.playa = s.playa) ∧ workEnded t r c.index) ∧
  (∀ (r k : Nat) (h : HostView) (c : ClauseSt) (s : State), s.startedClause r k verbAttnFwd = some c →
    s.stageLoaded r = false →
    ∃ t : State, exec (.attentionForward r k h) s = .next t ∧ t = (s.seeHost h).attnForward r c ∧
      clauseFrame (s.seeHost h) t ∧ (s.caches = [] → t.playa = s.playa) ∧ workEnded t r c.index) ∧
  (∀ (r k : Nat) (h : HostView) (c : ClauseSt) (s : State), s.startedClause r k verbAttnBwd = some c →
    s.stageLoaded r = false →
    ∃ t : State, exec (.attentionBackward r k h) s = .next t ∧ t = (s.seeHost h).attnBackward r c ∧
      clauseFrame (s.seeHost h) t ∧ (s.caches = [] → t.playa = s.playa) ∧ workEnded t r c.index) ∧
  (∀ (r k : Nat) (h : HostView) (c : ClauseSt) (s : State), s.startedClause r k verbCopy = some c →
    s.stageLoaded r = false → c.verdict = none →
    ∃ t : State, exec (.copy r k h) s = .next t ∧ clauseFrame (s.seeHost h) t ∧ workEnded t r c.index ∧
      t.dram = ((s.seeHost h).storeTensor (c.noun 1) (((s.seeHost h).loadTensor (c.noun 0)).map some)).dram ∧
      t.host = ((s.seeHost h).storeTensor (c.noun 1) (((s.seeHost h).loadTensor (c.noun 0)).map some)).host ∧
      (s.caches = [] → t.playa = s.playa) ∧ t.io = s.io) ∧
  (∀ (r k : Nat) (h : HostView) (c : ClauseSt) (s : State), s.startedClause r k verbCopy = some c →
    s.stageLoaded r = true →
    ∃ t : State, exec (.copy r k h) s = .next t ∧ t = (s.seeHost h).runImage r c ∧ workEnded t r c.index)

/-- A matrix product whose output is a reduction buffer puts one contribution, with its pass and its FP32 elements, at
the end of the buffer's queue and stores nothing in device or host memory. The contribution that the buffer expects is
applied: where none of its tiles is absent the buffer expects the next pass, the contribution has left the queue, pass 0
writes its elements to the slices and a later pass adds them. A contribution of a pass that is past, or out of range, fails
its clause with RBUF_PASS. -/
def Obligations.ReductionBuffersTakePassesInOrder : Prop :=
  (∀ (r k : Nat) (h : HostView) (un : List Nat) (c : ClauseSt) (f : FieldSt) (s : State),
    s.startedClause r k verbMatrix = some c → s.stageLoaded r = false → mxOutRbuf c.bits = true →
    s.fieldOf (s.ring r).field = some f → s.hasContribution (s.ring r).field (mxRbuf c.bits) r c.index = false →
    mxRbuf c.bits < f.rbufs.length →
    ∃ (t : State) (g : FieldSt) (x : Contribution), exec (.matrixProduct r k h un) s = .next t ∧
      t = { s with host := t.host, rings := t.rings, fields := t.fields } ∧
      t.host = (s.seeHost h).host ∧ t.fieldOf (s.ring r).field = some g ∧
      (g.rbuf (mxRbuf c.bits)).queue = (f.rbuf (mxRbuf c.bits)).queue ++ [x] ∧
      x.ring = r ∧ x.index = c.index ∧ x.pass = mxPass c.bits) ∧
  (∀ (fid b : Nat) (f : FieldSt) (x : Contribution) (s : State), s.fieldOf fid = some f →
    (f.rbuf b).ready = some x → x.pass = (f.rbuf b).pass → x.pass ≤ 63 →
    ((s.ring x.ring).clauseOf x.index).all (fun c => c.verdict.isNone) = true →
    ∃ (t : State) (g : FieldSt), exec (.bufferContribution fid b) s = .next t ∧
      t = { s with playa := t.playa, ctr := t.ctr, dbg := t.dbg, rings := t.rings, fields := t.fields } ∧
      t.playa = (s.applyContribution fid f b x).playa ∧ t.fieldOf fid = some g ∧
      (g.rbuf b).pass = (if x.absent = [] then x.pass + 1 else x.pass) ∧
      x ∉ (g.rbuf b).queue ∧ workEnded t x.ring x.index) ∧
  (∀ (fid b : Nat) (f : FieldSt) (x : Contribution) (s : State), s.fieldOf fid = some f →
    (f.rbuf b).ready = some x → (x.pass ≠ (f.rbuf b).pass ∨ 63 < x.pass) →
    exec (.bufferContribution fid b) s
      = .next ((s.setRbuf fid f b ((f.rbuf b).without x)).failClause x.ring x.index
          { status := 0x409, operand := 7, detail := x.pass }))

/-- With no word errors, no cached line, no perturbation slot and a side port that works, writing bytes within one flit of the device virtual space that
lies in device memory changes only the bytes it gives: each given byte reads as given, each byte left out and every byte
outside reads as before, and host memory does not change. -/
def Obligations.NounStoreStaysInItsFlit : Prop :=
  ∀ (place dva a : Nat) (ws : List WByte) (s : State), s.dram.checks = [] → s.caches = [] → s.dbg.slots = [] →
    0 < ws.length → dva % 32 + ws.length ≤ 32 → s.translate place dva = some (.dram a) →
    (s.vault (a / Config.vaultBytes)).sideDead = false →
    ∀ x, Cells.read (s.writeDva place dva ws).dram.cells x
        = (if a ≤ x ∧ x < a + ws.length then
            (match ws.getD (x - a) none with
              | some b => b.byte
              | none => Cells.read s.dram.cells x)
          else Cells.read s.dram.cells x) ∧
      (s.writeDva place dva ws).host = s.host

/-- NEAR_BANK_MATRIX_VECTOR, when its turn in the field's order has come and no vault of its weights is evacuating, queues one
job at the end of each of those vaults' queues, touches no other vault, and its clause waits for exactly those vaults. The
end of staging takes the active job, of a matrix-vector clause or of a decode whose scores are in, to its steps, or to its
merge when no engine has a step left. The end of a merge takes up the job's next batch; after the last batch the job is
finished in that vault and the clause no longer waits for it, and a clause that waited for nothing else is done or has
failed. A decode's first phase is followed by its second. -/
def Obligations.NearBankWorkProceeds : Prop :=
  (∀ (r k : Nat) (h : HostView) (c : ClauseSt) (s : State), s.startedClause r k verbNearBank = some c → s.engineTurn r c = true →
    ((s.seeHost h).mvVaults (c.noun 0) (mvPlan (c.noun 0))).any s.vaultEvacuating = false →
    (s.seeHost h).mvVaults (c.noun 0) (mvPlan (c.noun 0)) ≠ [] →
    ∃ t : State, exec (.nearBankMatrixVector r k h) s = .next t ∧
      t = { s with host := (s.seeHost h).host, rings := t.rings, vaults := t.vaults } ∧
      (∀ n ∈ (s.seeHost h).mvVaults (c.noun 0) (mvPlan (c.noun 0)),
        (t.vault n).jobs.length = (s.vault n).jobs.length + 1 ∧
        ((t.vault n).jobs.getLast?).map (fun j => (j.ring, j.index)) = some (r, c.index)) ∧
      (∀ n, n ∉ (s.seeHost h).mvVaults (c.noun 0) (mvPlan (c.noun 0)) → t.vault n = s.vault n) ∧
      ((t.ring r).clauseOf c.index).map (·.vaults) = some ((s.seeHost h).mvVaults (c.noun 0) (mvPlan (c.noun 0)))) ∧
  (∀ (v : Nat) (j : NbeJob) (w : Work) (s : State), (s.vault v).activeJob = some j → j.stage = 1 → s.workOf j = some w →
    (j.decode = true → j.pv = true → ∀ d, s.decodeOf j.ring j.index = some d → d.scoresIn j.tasks = true) →
    ∃ (t : State) (j' : NbeJob), exec (.stagingDone v) s = .next t ∧
      t = { s with dram := t.dram, playa := t.playa, host := t.host, rings := t.rings, vaults := t.vaults, engines := t.engines
                   ctr := t.ctr, dbg := t.dbg } ∧
      (t.vault v).activeJob = some j' ∧ (j'.ring, j'.index) = (j.ring, j.index) ∧ (j'.stage = 2 ∨ j'.stage = 3)) ∧
  (∀ (v b b2 : Nat) (more : List Nat) (j : NbeJob) (c : ClauseSt) (s : State), (s.vault v).activeJob = some j →
    j.stage = 3 → j.decode = false → s.jobClause j = some c → j.batches = b :: b2 :: more →
    ∃ t : State, exec (.mergeDone v) s = .next t ∧
      t = { s with dram := t.dram, playa := t.playa, host := t.host, rings := t.rings, vaults := t.vaults
                   caches := t.caches, dbg := t.dbg } ∧ ringsSameBut s t j.ring ∧
      (∀ j' ∈ (t.vault v).jobs, (j'.ring, j'.index) = (j.ring, j.index) → j'.stage = 1 ∧ j'.batches = b2 :: more)) ∧
  (∀ (v b : Nat) (j : NbeJob) (c : ClauseSt) (s : State), (s.vault v).activeJob = some j → j.stage = 3 → j.decode = false →
    s.jobClause j = some c → j.batches = [b] → delSet v c.vaults ≠ [] →
    ∃ t : State, exec (.mergeDone v) s = .next t ∧
      t = { s with dram := t.dram, playa := t.playa, host := t.host, rings := t.rings, vaults := t.vaults
                   caches := t.caches, dbg := t.dbg } ∧ ringsSameBut s t j.ring ∧
      (∀ j' ∈ (t.vault v).jobs, (j'.ring, j'.index) = (j.ring, j.index) → 4 ≤ j'.stage ∧ j'.batches = []) ∧
      ((t.ring j.ring).clauseOf j.index).map (·.vaults) = some (delSet v c.vaults)) ∧
  (∀ (v b : Nat) (j : NbeJob) (c : ClauseSt) (s : State), (s.vault v).activeJob = some j → j.stage = 3 → j.decode = false →
    s.jobClause j = some c → j.batches = [b] → delSet v c.vaults = [] → c.phase = .started → c.worked = true →
    c.shares = [] → c.unsent = [] →
    ∃ t : State, exec (.mergeDone v) s = .next t ∧
      ((t.ring j.ring).clauseOf j.index).all (fun x => decide (x.phase = .done) || decide (x.phase = .posted)) = true) ∧
  (∀ (v : Nat) (j : NbeJob) (c : ClauseSt) (d : DecodeSt) (s : State), (s.vault v).activeJob = some j → j.stage = 3 →
    s.workOf j = some (.decode c d) → j.decode = true → j.pv = false →
    ∃ t : State, exec (.mergeDone v) s = .next t ∧ t = { s with vaults := t.vaults, decodes := t.decodes } ∧
      vaultsSameBut s t v ∧
      (∀ j' ∈ (t.vault v).jobs, (j'.ring, j'.index) = (j.ring, j.index) → j'.stage = 1 ∧ j'.pv = true))

/-- With no word errors and no request waiting at the vault, an engine with a token whose work still has a step takes it, of a
matrix-vector batch or of a decode batch: its level rises by one. Of a matrix-vector batch one read step is counted at a head
or weight level, one write step at the result level. An engine whose row needs a page repair, which can start, starts it and
keeps its step. A token whose clause has ended goes back. An engine fault of an idle engine marks the engine and is reported;
a busy engine's clause fails with NBE_FAULT, and the engine is marked too. -/
def Obligations.NearBankEnginesStepAndFault : Prop :=
  (∀ (v p : Nat) (j : NbeJob) (w : Work) (s : State), (s.engine v p).token = true → (s.engine v p).orphan = false →
    s.engineBusy v p = true → s.bankRepairing v p = false → (s.vault v).activeJob = some j → s.workOf j = some w →
    (s.vault v).waiting = [] → s.dram.checks = [] →
    ∃ t : State, exec (.engineStepBoundary v p) s = .next t ∧
      t = { s with dram := t.dram, rings := t.rings, vaults := t.vaults, engines := t.engines, decodes := t.decodes
                   ctr := t.ctr, dbg := t.dbg } ∧
      (t.engine v p).level = (s.engine v p).level + 1 ∧ ringsSameBut s t j.ring) ∧
  (∀ (v p b : Nat) (bs : List Nat) (j : NbeJob) (c : ClauseSt) (s : State), (s.engine v p).token = true →
    (s.engine v p).orphan = false → s.engineBusy v p = true → s.bankRepairing v p = false → (s.vault v).activeJob = some j →
    j.decode = false → s.jobClause j = some c → j.batches = b :: bs → (s.vault v).waiting = [] → s.dram.checks = [] →
    ∃ t : State, exec (.engineStepBoundary v p) s = .next t ∧
      (if (s.engine v p).level < (mvPlan (c.noun 0)).heads + (mvPlan (c.noun 0)).tiles
       then t.ctrGet (nbeStepsRd v) = s.ctrGet (nbeStepsRd v) + 1 ∧ t.ctrGet (nbeStepsWr v) = s.ctrGet (nbeStepsWr v) ∧
         t.dram = s.dram
       else t.ctrGet (nbeStepsWr v) = s.ctrGet (nbeStepsWr v) + 1 ∧ t.ctrGet (nbeStepsRd v) = s.ctrGet (nbeStepsRd v))) ∧
  (∀ (v p key : Nat) (j : NbeJob) (w : Work) (s : State), (s.engine v p).token = true → (s.engine v p).orphan = false →
    s.engineBusy v p = true → s.bankRepairing v p = false → (s.vault v).activeJob = some j → s.workOf j = some w →
    s.spanRepair (s.stepSpan v p j w).1 (s.stepSpan v p j w).2 = some key → s.repairFree key = true →
    ∃ t : State, exec (.engineStepBoundary v p) s = .next t ∧ t = { s with vaults := t.vaults } ∧
      vaultsSameBut s t (rowVault key) ∧ (t.vault (rowVault key)).repair = some key) ∧
  (∀ (v p : Nat) (s : State), (s.engine v p).token = true → (s.engine v p).orphan = true → (s.vault v).waiting = [] →
    s.engineBusy v p = false →
    ∃ t : State, exec (.engineStepBoundary v p) s = .next t ∧
      t = { s with vaults := t.vaults, engines := t.engines, ctr := t.ctr } ∧
      (t.engine v p).token = false ∧ (t.engine v p).orphan = false) ∧
  (∀ (v p : Nat) (s : State), s.engineBusy v p = false → (s.vault v).waiting = [] →
    ∃ t : State, exec (.engineFault v p) s = .next t ∧
      t = { s with engines := t.engines, vaults := t.vaults, boot := { s.boot with events := t.boot.events }
                   mgt := { s.mgt with awaiting := t.mgt.awaiting, findings := t.mgt.findings } } ∧
      t.engine v p = { s.engine v p with dead := true, token := false, orphan := false } ∧
      t.mgt.findings.length = s.mgt.findings.length + 1 ∧ (t.boot.events.head?).map (·.kind) = some .engineFault) ∧
  (∀ (v p : Nat) (j : NbeJob) (s : State), s.engineBusy v p = true → (s.vault v).activeJob = some j →
    ∃ (u t : State), exec (.engineFault v p) s = .next t ∧ u.rings = s.rings ∧
      t = ((u.failClause j.ring j.index { status := 0x702, operand := 7, detail := 0 }).grantTokens v).serveFree v ∧
      u.engine v p = { s.engine v p with dead := true, token := false, orphan := false })

/-- An append whose sequences pass their checks, fit their capacity and find their pages reserves them for its completion,
one record a sequence: no page is taken into use yet. One that the pool cannot serve fails with KV_POOL_EMPTY at that
sequence. An evict of which no started decode reads a page ends without a page left waiting: CLOSE and TRUNCATE only give pages up.
A page whose readers have all completed is released and counted. A decode whose turn has come and whose sequences
pass their checks sends its tasks to their engines and does the cores' part. Nothing outside a clause's reach changes. -/
def Obligations.KeyValueVerbsRun : Prop :=
  (∀ (r k : Nat) (h : HostView) (c : ClauseSt) (plans : List AppendPlan) (s : State),
    s.startedClause r k verbKvAppend = some c → s.appendWaits r c.index = false → c.verdict = none →
    (s.seeHost h).checkWords c.seqs (some (kvLayer c.bits)) (some ((c.noun 1).dim 1)) = none →
    (∀ p ∈ c.seqs.zipIdx, (s.seeHost h).layerLength ((s.seeHost h).seqEntry p.1.1)
      (kvLayer c.bits - ((s.seeHost h).seqEntry p.1.1).base) + (c.noun 1).dim 2 ≤ 128 * ((s.seeHost h).seqEntry p.1.1).cap) →
    (s.seeHost h).planAppends (s.seeHost h).poolFrames (kvLayer c.bits) ((c.noun 1).dim 2)
      (c.seqs.zipIdx) (s.seeHost h).pagesTaken = .inl plans →
    ∃ t : State, exec (.keyValueAppend r k h) s = .next t ∧ clauseFrame (s.seeHost h) t ∧ workEnded t r c.index ∧
      t.kvm.used = s.kvm.used ∧ t.kvm.appends = s.kvm.appends ++ plans.map (fun p => ({
        ring := r, index := c.index, seq := p.seq, layer := p.layer, length := p.start + (c.noun 1).dim 2
        pages := p.pages } : KvAppend))) ∧
  (∀ (r k pos : Nat) (h : HostView) (c : ClauseSt) (s : State),
    s.startedClause r k verbKvAppend = some c → s.appendWaits r c.index = false →
    (s.seeHost h).checkWords c.seqs (some (kvLayer c.bits)) (some ((c.noun 1).dim 1)) = none →
    (∀ p ∈ c.seqs.zipIdx, (s.seeHost h).layerLength ((s.seeHost h).seqEntry p.1.1)
      (kvLayer c.bits - ((s.seeHost h).seqEntry p.1.1).base) + (c.noun 1).dim 2 ≤ 128 * ((s.seeHost h).seqEntry p.1.1).cap) →
    (s.seeHost h).planAppends (s.seeHost h).poolFrames (kvLayer c.bits) ((c.noun 1).dim 2)
      (c.seqs.zipIdx) (s.seeHost h).pagesTaken = .inr pos →
    exec (.keyValueAppend r k h) s
      = .next ((s.seeHost h).failClause r c.index { status := 0x10E, operand := 7, detail := pos })) ∧
  (∀ (r k : Nat) (h : HostView) (c : ClauseSt) (s : State), s.startedEvict r k 0 = some c →
    (s.seeHost h).checkWords c.seqs none none = none →
    ∃ t : State, exec (.kvEvictClose r k h) s = .next t ∧ clauseFrame (s.seeHost h) t ∧ (∀ u ∈ t.kvm.used, u ∈ s.kvm.used) ∧
      ((∀ x ∈ s.kvm.reading, x.pages = []) → workEnded t r c.index ∧ t.kvm.freeing = s.kvm.freeing)) ∧
  (∀ (r k : Nat) (h : HostView) (c : ClauseSt) (s : State), s.startedEvict r k 1 = some c →
    (s.seeHost h).checkWords c.seqs none none = none →
    ∃ t : State, exec (.kvEvictTruncate r k h) s = .next t ∧ clauseFrame (s.seeHost h) t ∧ (∀ u ∈ t.kvm.used, u ∈ s.kvm.used) ∧
      ((∀ x ∈ s.kvm.reading, x.pages = []) → workEnded t r c.index ∧ t.kvm.freeing = s.kvm.freeing)) ∧
  (∀ (page : Nat) (w : FreeWait) (s : State), s.kvm.freeing.find? (fun x => x.page == page) = some w →
    (∀ x ∈ w.readers, ∀ y ∈ s.kvm.reading, x ≠ (y.ring, y.index)) →
    ∃ t : State, exec (.deferredPageFree page) s = .next t ∧ clauseFrame s t ∧
      (∀ x ∈ t.kvm.freeing, x.page ≠ page) ∧ (∀ u ∈ t.kvm.used, u.1 ≠ page) ∧
      t.ctrGet 0x900038 = s.ctrGet 0x900038 + 1) ∧
  (∀ (r k : Nat) (h : HostView) (c : ClauseSt) (s : State), s.startedClause r k verbDecode = some c →
    s.engineTurn r c = true → checkReads ((s.seeHost h).decodeReads r c) (decLayer c.bits) ((c.noun 0).dim 1) = none →
    ∃ t : State, exec (.decodeAttention r k h) s = .next t ∧ t = (s.seeHost h).decodeAttention r c ∧
      clauseFrame (s.seeHost h) t ∧ (s.caches = [] → t.playa = s.playa) ∧ workEnded t r c.index)

/-- REDUCE, and ALL_REDUCE, REDUCE_SCATTER, ALL_GATHER and BROADCAST over a group of one member, run to their end at the
device: ALL_GATHER and BROADCAST store exactly the elements they load. Over a larger group each takes the next instance
number of its group, modulo 4. A reducing clause whose reduction buffer another clause has emptied meanwhile fails with
RBUF_EMPTY instead (R268). Nothing but the three memories, the clause's own bookkeeping and what its failure or its
group's messages write may change; the slices do not change while no line is cached. -/
def Obligations.CollectivesBegin : Prop :=
  (∀ (r k : Nat) (h : HostView) (c : ClauseSt) (s : State), s.startedClause r k verbReduce = some c →
    ∃ t : State, exec (.reduce r k h) s = .next t ∧ t = (s.seeHost h).reduceHere r c ∧
      clauseFrame (s.seeHost h) t ∧ (s.caches = [] → t.playa = s.playa) ∧ workEnded t r c.index) ∧
  (∀ (r k : Nat) (h : HostView) (c : ClauseSt) (s : State), s.startedColl r k verbAllReduce = some c →
    (parseGroup c.entry).members = 1 → s.emptySource r c = false →
    ∃ t : State, exec (.allReduce r k h) s = .next t ∧ t = (s.seeHost h).reduceHere r c ∧
      clauseFrame (s.seeHost h) t ∧ (s.caches = [] → t.playa = s.playa) ∧ workEnded t r c.index) ∧
  (∀ (r k : Nat) (h : HostView) (c : ClauseSt) (s : State), s.startedColl r k verbReduceScatter = some c →
    (parseGroup c.entry).members = 1 → s.emptySource r c = false →
    ∃ t : State, exec (.reduceScatter r k h) s = .next t ∧ t = (s.seeHost h).reduceHere r c ∧
      clauseFrame (s.seeHost h) t ∧ (s.caches = [] → t.playa = s.playa) ∧ workEnded t r c.index) ∧
  (∀ (r k : Nat) (h : HostView) (c : ClauseSt) (s : State), s.startedColl r k verbAllGather = some c →
    (parseGroup c.entry).members = 1 → c.verdict = none →
    ∃ t : State, exec (.allGather r k h) s = .next t ∧ clauseFrame (s.seeHost h) t ∧ workEnded t r c.index ∧
      t.dram = ((s.seeHost h).storeTensor (c.noun 1) (((s.seeHost h).loadTensor (c.noun 0)).map some)).dram) ∧
  (∀ (r k : Nat) (h : HostView) (c : ClauseSt) (s : State), s.startedColl r k verbBroadcast = some c →
    (parseGroup c.entry).members = 1 → c.verdict = none →
    ∃ t : State, exec (.broadcast r k h) s = .next t ∧ clauseFrame (s.seeHost h) t ∧ workEnded t r c.index ∧
      t.dram = ((s.seeHost h).storeTensor (c.noun 1) (((s.seeHost h).loadTensor (c.noun 0)).map some)).dram) ∧
  (∀ (r k : Nat) (h : HostView) (c : ClauseSt) (s : State), (parseGroup c.entry).members ≠ 1 →
    (s.startedColl r k verbAllReduce = some c → s.emptySource r c = false → ∃ t : State, exec (.allReduce r k h) s = .next t ∧
      clauseFrame (s.seeHost h) t ∧
      Tbl.get 0 t.lnk.instNext (coGroup c.bits) = (Tbl.get 0 s.lnk.instNext (coGroup c.bits) + 1) % 4) ∧
    (s.startedColl r k verbReduceScatter = some c → s.emptySource r c = false → ∃ t : State, exec (.reduceScatter r k h) s = .next t ∧
      clauseFrame (s.seeHost h) t ∧
      Tbl.get 0 t.lnk.instNext (coGroup c.bits) = (Tbl.get 0 s.lnk.instNext (coGroup c.bits) + 1) % 4) ∧
    (s.startedColl r k verbAllGather = some c → ∃ t : State, exec (.allGather r k h) s = .next t ∧
      clauseFrame (s.seeHost h) t ∧
      Tbl.get 0 t.lnk.instNext (coGroup c.bits) = (Tbl.get 0 s.lnk.instNext (coGroup c.bits) + 1) % 4) ∧
    (s.startedColl r k verbBroadcast = some c → ∃ t : State, exec (.broadcast r k h) s = .next t ∧
      clauseFrame (s.seeHost h) t ∧
      Tbl.get 0 t.lnk.instNext (coGroup c.bits) = (Tbl.get 0 s.lnk.instNext (coGroup c.bits) + 1) % 4)) ∧
  (∀ (r k : Nat) (h : HostView) (c : ClauseSt) (s : State), s.emptySource r c = true →
    (s.startedColl r k verbAllReduce = some c → exec (.allReduce r k h) s
      = .next ((s.seeHost h).failClause r c.index { status := 0x40A, operand := 7, detail := 0 })) ∧
    (s.startedColl r k verbReduceScatter = some c → exec (.reduceScatter r k h) s
      = .next ((s.seeHost h).failClause r c.index { status := 0x40A, operand := 7, detail := 0 })))

/-- A running-sum part that the group entry names, new and of a block that holds a slot, leaves the inbox and joins the
collective's parts, and the collective then goes on as far as it can. A new result part of a block not yet whole joins the
parts received and is passed on. An abort ends its collective with REDUCE_TIMEOUT, DETAIL 2; one of the group's next
instance, not started here, is kept for its start; a timeout ends a collective, or fails a clause that holds slots on the
die, with REDUCE_TIMEOUT. Collectives that go on for the rest of their group stand under indexes from 2^32 (log 29), which
no clause has. -/
def Obligations.CollectivePartsAndEnds : Prop :=
  (∀ (p : Nat) (f : Frame) (c : Coll) (s : State), s.inboxFind p (fun x => x.vc == 4 && x.kind == 0) = some f →
    s.collFor (redGroup f) (redInst f) = some c → (f.src, bits f.arg 44 29) ∈ c.grp.ins →
    c.parts.any (fun q => q.block == bits f.arg 14 0 && q.rank == bits f.arg 44 29 && q.part == bits f.arg 16 15) = false →
    bits f.arg 14 0 ∈ c.slots →
    ∃ u : State, exec (.redUp p) s = .next ((u.advanceColl (collBlocks c.elems + 1) c.ring c.index).advanceColls) ∧
      u = { s with lnk := { s.lnk with inbox := s.lnk.inbox.erase (p, f) }, ports := u.ports, colls := u.colls } ∧
      clauseFrame s ((u.advanceColl (collBlocks c.elems + 1) c.ring c.index).advanceColls) ∧
      (u.coll c.ring c.index).map (·.parts) = some (c.parts ++ [framePart f (bits f.arg 44 29)])) ∧
  (∀ (p : Nat) (f : Frame) (c : Coll) (s : State), s.inboxFind p (fun x => x.vc == 4 && x.kind == 1) = some f →
    s.collFor (redGroup f) (redInst f) = some c →
    c.downs.any (fun q => q.block == bits f.arg 14 0 && q.part == bits f.arg 16 15) = false → bits f.arg 14 0 ∉ c.done →
    assemble (c.downs ++ [framePart f 0]) (bits f.arg 14 0) 0 (packedBytes c.outFmt (blockElems c.elems (bits f.arg 14 0))
      + scaleBytes c.outFmt (blockElems c.elems (bits f.arg 14 0))) = none →
    ∃ t : State, exec (.redDown p) s = .next t ∧
      t = { s with lnk := t.lnk, ports := t.ports, colls := t.colls, ctr := t.ctr, io := t.io
                   boot := { s.boot with events := t.boot.events }, mgt := { s.mgt with awaiting := t.mgt.awaiting } } ∧
      (t.coll c.ring c.index).map (·.downs) = some (c.downs ++ [framePart f 0])) ∧
  (∀ (p : Nat) (f : Frame) (c : Coll) (s : State), s.inboxFind p (fun x => x.vc == 2 && ctrlType x == 2) = some f →
    s.collFor (ctrlGroup f) (ctrlInst f) = some c → (c.index < 2 ^ 32 ∨ s.collClause c = none) →
    ∃ t : State, exec (.collectiveAbort p) s = .next t ∧ clauseFrame s t ∧ t.coll c.ring c.index = none ∧
      t = (s.inboxTake p f).failColl c 2 { status := 0x501, operand := 7, detail := 2 } f.src) ∧
  (∀ (p : Nat) (f : Frame) (s : State), s.inboxFind p (fun x => x.vc == 2 && ctrlType x == 2) = some f →
    s.collFor (ctrlGroup f) (ctrlInst f) = none → Tbl.get 0 s.lnk.instNext (ctrlGroup f) = ctrlInst f →
    ∃ t : State, exec (.collectiveAbort p) s = .next t ∧
      t = { s with ports := t.ports, lnk := { s.lnk with inbox := s.lnk.inbox.erase (p, f),
                                                         aborted := (ctrlGroup f, ctrlInst f) :: s.lnk.aborted } }) ∧
  (∀ (r k : Nat) (port : Bool) (c : ClauseSt) (x : Coll) (s : State), (s.ring r).clauseAt k = some c → c.phase = .started →
    c.worked = false → s.halted = false → s.coll r c.index = some x → c.index < 2 ^ 32 →
    ∃ t : State, exec (.reduceTimeout r k port) s = .next t ∧ clauseFrame s t ∧ t.coll r c.index = none ∧
      t = s.failColl x 2 { status := 0x501, operand := 7, detail := if port then 1 else 0 } 65536) ∧
  (∀ (r k : Nat) (c : ClauseSt) (s : State), (s.ring r).clauseAt k = some c → c.phase = .started → c.worked = false →
    s.halted = false → s.coll r c.index = none → s.slots.any (fun x => x.ring == r && x.index == c.index) = true →
    exec (.reduceTimeout r k false) s = .next (s.failClause r c.index { status := 0x501, operand := 7, detail := 0 }))

/-- For a step owner without CHAIN scope: in phase OPEN a DECIDE without norm check arrives with the step's non-finite flag,
which it clears, and outside OPEN a RELEASE arrives with REJECT or a forced discard; either wave is released at once. The
release of a decide wave makes the phase SKIP or PASS. The release of a release wave in PASS, with no slow sets, advances
STEP by one and opens the next step, and beside the step only the sets' memory, cached noun entries and the clause may
change; a reject or a mismatch discards the step and counts it; in SKIP the step advances and is counted as skipped. A
wave timeout fails the waiting clause with REDUCE_TIMEOUT, DETAIL 3. -/
def Obligations.StepsDecideAndRelease : Prop :=
  (∀ (r k o : Nat) (h : HostView) (c : ClauseSt) (x : StepSt) (s : State), s.startedUpdate r k 0 = some c →
    s.ownerOf (s.ring r).field = some o → s.stepBusy o = false → s.stepOf o = some x → x.phase = .open →
    decNormCheck c.bits = false → x.chain = false → x.wave.own = none → x.outcome ≠ 255 →
    ∃ t : State, exec (.decide r k h) s = .next t ∧
      t = { s with host := (s.seeHost h).host, rings := (s.dataBegun r c.index).rings, steps := t.steps } ∧
      t.stepOf o = some { x with nf := false, nfHeld := false, norm := 0, normSkip := false, waveKind := 1, owing := some (r, c.index)
                                 wave := { x.wave with own := some (x.nfHeld || x.nf, x.step.toNat), released := some (x.nfHeld || x.nf, false) } } ∧
      (∀ q, q ≠ o → t.stepOf q = s.stepOf q)) ∧
  (∀ (r k o : Nat) (c : ClauseSt) (x : StepSt) (s : State), s.startedUpdate r k 2 = some c →
    s.ownerOf (s.ring r).field = some o → s.stepBusy o = false → s.applyPending o c.order = false → s.stepOf o = some x →
    x.phase ≠ .open → x.chain = false → x.wave.own = none → x.outcome ≠ 255 →
    ∃ t : State, exec (.release r k) s = .next t ∧ t = { s with rings := (s.dataBegun r c.index).rings, steps := t.steps } ∧
      t.stepOf o = some { x with waveKind := 2, owing := some (r, c.index)
                                 wave := { x.wave with own := some (reReject c.bits || x.forced, x.step.toNat)
                                                       released := some (reReject c.bits || x.forced, false) } } ∧
      (∀ q, q ≠ o → t.stepOf q = s.stepOf q)) ∧
  (∀ (o r i : Nat) (v mm : Bool) (x : StepSt) (s : State), s.stepOf o = some x → x.chain = false →
    x.wave.released = some (v, mm) → x.owing = some (r, i) → x.waveKind = 1 → x.outcome ≠ 255 →
    ((s.ring r).clauseOf i).all (fun c => c.verdict.isNone) = true →
    ∃ t : State, exec (.waveRelease o) s = .next t ∧
      t = { s with steps := t.steps, rings := t.rings, boot := { s.boot with events := t.boot.events }
                   mgt := { s.mgt with awaiting := t.mgt.awaiting } } ∧
      t.stepOf o = some { x with waveKind := 0, owing := none, phase := if v || mm then .skip else .pass
                                 wave := { Wave.idle with gen := !x.wave.gen } }) ∧
  (∀ (o r i : Nat) (x : StepSt) (s : State), s.stepOf o = some x → x.chain = false →
    x.wave.released = some (false, false) → x.owing = some (r, i) → x.waveKind = 2 → x.phase = .pass → s.slow = [] → x.stallFrom = none → x.outcome ≠ 255 →
    ((s.ring r).clauseOf i).all (fun c => c.verdict.isNone) = true →
    ∃ t : State, exec (.waveRelease o) s = .next t ∧
      t = { s with steps := t.steps, rings := t.rings, dram := t.dram, playa := t.playa, vaults := t.vaults, dbg := t.dbg
                   cmd := { s.cmd with nouns := t.cmd.nouns } } ∧ (s.caches = [] → t.playa = s.playa) ∧
      t.stepOf o = some { x with waveKind := 0, owing := none, phase := .open, step := x.step + 1, applied := []
                                 forced := false, outcome := 0, wave := { Wave.idle with gen := !x.wave.gen } }) ∧
  (∀ (o r i : Nat) (v mm : Bool) (x : StepSt) (s : State), s.stepOf o = some x → x.chain = false →
    x.wave.released = some (v, mm) → (v || mm) = true → x.owing = some (r, i) → x.waveKind = 2 → x.phase = .pass → x.outcome ≠ 255 →
    ((s.ring r).clauseOf i).all (fun c => c.verdict.isNone) = true →
    ∃ t : State, exec (.waveRelease o) s = .next t ∧
      t = { s with steps := t.steps, rings := t.rings, slow := t.slow, ctr := t.ctr
                   boot := { s.boot with events := t.boot.events }, mgt := { s.mgt with awaiting := t.mgt.awaiting } } ∧
      (mm = false → t.boot.events = s.boot.events) ∧
      t.ctrGet updDiscards = s.ctrGet updDiscards + 1 ∧ countersSameBut s t updDiscards ∧
      t.stepOf o = some { x with waveKind := 0, owing := none, phase := .open, applied := [], forced := false
                                 wave := { Wave.idle with gen := !x.wave.gen } }) ∧
  (∀ (o r i : Nat) (v mm : Bool) (x : StepSt) (s : State), s.stepOf o = some x → x.chain = false →
    x.wave.released = some (v, mm) → x.owing = some (r, i) → x.waveKind = 2 → x.phase = .skip → s.slow = [] → x.stallFrom = none → x.outcome ≠ 255 →
    ((s.ring r).clauseOf i).all (fun c => c.verdict.isNone) = true →
    ∃ t : State, exec (.waveRelease o) s = .next t ∧
      t = { s with steps := t.steps, rings := t.rings, ctr := t.ctr
                   boot := { s.boot with events := t.boot.events }, mgt := { s.mgt with awaiting := t.mgt.awaiting } } ∧
      (mm = false → t.boot.events = s.boot.events) ∧
      t.ctrGet updSkips = s.ctrGet updSkips + 1 ∧ countersSameBut s t updSkips ∧
      t.stepOf o = some { x with waveKind := 0, owing := none, phase := .open, step := x.step + 1, applied := []
                                 forced := false, outcome := 0, wave := { Wave.idle with gen := !x.wave.gen } }) ∧
  (∀ (r k o : Nat) (c : ClauseSt) (x : StepSt) (s : State), (s.ring r).clauseAt k = some c →
    s.ownerOf (s.ring r).field = some o → s.stepOf o = some x → x.owing = some (r, c.index) → x.outcome = 0 →
    (s.waveOf x).released = none → s.halted = false →
    ∃ t : State, exec (.waveTimeout r k) s = .next t ∧ clauseFrame s t ∧ t = (s.setStep o { x with owing := none }).failClause r c.index
      { status := 0x501, operand := 7, detail := 3 })

/-- In phase SKIP an APPLY does nothing and completes with DETAIL 1; in PASS the first APPLY of a set enters the set among
those applied in the step, and a second one fails with STEP_STATE; one whose gradient's buffer has been emptied meanwhile
fails with RBUF_EMPTY, and one whose gradient stage is taken waits. A slow application takes the earliest committed step of
its set, leaves it applied and waiting to be published, and lets a waiting RELEASE go on. A digest of a stream without
poison stores four words and counts once. An audit in phase OPEN runs to its end. -/
def Obligations.UpdatesApplyAndAudit : Prop :=
  (∀ (r k o : Nat) (h : HostView) (c : ClauseSt) (x : StepSt) (s : State), s.startedUpdate r k 1 = some c →
    s.ownerOf (s.ring r).field = some o → s.stepOf o = some x → x.phase = .skip →
    exec (.apply r k h) s = .next (s.workDone r c.index (fun y => { y with detail := 1 }))) ∧
  (∀ (r k o : Nat) (h : HostView) (c : ClauseSt) (x : StepSt) (s : State), s.startedUpdate r k 1 = some c →
    s.ownerOf (s.ring r).field = some o → s.stepOf o = some x → x.phase = .pass → x.outcome ≠ 255 →
    apPset c.bits ∉ x.applied → s.emptyGradient r c = false →
    s.stageBusy (apPset c.bits) (parsePset c.entry) x.step.toNat = false →
    s.setLocked r c.index (s.setNow (apPset c.bits) c.entry) (s.setNow (apPset c.bits) c.entry).applyRegions = false →
    ∃ t : State, exec (.apply r k h) s = .next t ∧ t = ((s.stageGo (apPset c.bits) r c.index).seeHost h).applySet r c o x ∧ workEnded t r c.index ∧
      (t.stepOf o).map (·.applied) = some (insSet (apPset c.bits) x.applied) ∧ t.lnk = s.lnk ∧ t.conj = s.conj) ∧
  (∀ (r k o : Nat) (h : HostView) (c : ClauseSt) (x : StepSt) (s : State), s.startedUpdate r k 1 = some c →
    s.ownerOf (s.ring r).field = some o → s.stepOf o = some x → x.phase = .pass → apPset c.bits ∈ x.applied →
    exec (.apply r k h) s = .next (s.failClause r c.index { status := 0x602, operand := 7, detail := 0 })) ∧
  (∀ (r k o : Nat) (h : HostView) (c : ClauseSt) (x : StepSt) (s : State), s.startedUpdate r k 1 = some c →
    s.ownerOf (s.ring r).field = some o → s.stepOf o = some x → x.phase = .pass → apPset c.bits ∉ x.applied →
    s.emptyGradient r c = true →
    exec (.apply r k h) s = .next (s.failClause r c.index { status := 0x40A, operand := 7, detail := 0 })) ∧
  (∀ (r k o : Nat) (h : HostView) (c : ClauseSt) (x : StepSt) (s : State), s.startedUpdate r k 1 = some c →
    s.ownerOf (s.ring r).field = some o → s.stepOf o = some x → x.phase = .pass → apPset c.bits ∉ x.applied →
    s.emptyGradient r c = false → s.stageBusy (apPset c.bits) (parsePset c.entry) x.step.toNat = true →
    ∃ t : State, exec (.apply r k h) s = .next t ∧ t = { s with slow := t.slow } ∧
      (t.slowSet (apPset c.bits)).committed = (s.slowSet (apPset c.bits)).committed) ∧
  (∀ (i j : Nat) (rest : List Nat) (h : HostView) (s : State), (s.slowSet i).committed = j :: rest →
    (s.slowSet i).applied = [] →
    s.setLocked 65536 0 (parsePset (s.psetBytes i)) (fun wn => (parsePset (s.psetBytes i)).pendingRegions wn false) = false →
    ∃ (u t : State), exec (.slowApplication i h) s = .next t ∧
      u = { s with dram := u.dram, playa := u.playa, host := u.host, vaults := u.vaults, ctr := u.ctr, slow := u.slow, dbg := u.dbg
                   boot := { s.boot with events := u.boot.events }, mgt := { s.mgt with awaiting := u.mgt.awaiting } } ∧
      u.slowSet i = { s.slowSet i with committed := rest, applied := [j] } ∧ u.steps = s.steps ∧ u.rings = s.rings ∧
      (t = u ∨ ∃ o, t = u.tryAdvance o)) ∧
  (∀ (r k : Nat) (h : HostView) (c : ClauseSt) (s : State), s.startedDigest r k 0 = some c → c.verdict = none →
    ((s.seeHost h).digestStream c).any (·.poison) = false →
    ∃ t : State, exec (.digest r k h) s = .next t ∧ clauseFrame (s.seeHost h) t ∧ workEnded t r c.index ∧
      t.dram = ((s.seeHost h).storeTensor (c.noun 1)
        ((digestWords (((s.seeHost h).digestStream c).map (·.byte))).map (fun w => some { Elem.zero with code := w }))).dram ∧
      t.ctrGet updDigests = s.ctrGet updDigests + 1 ∧ countersSameBut s t updDigests) ∧
  (∀ (r k o : Nat) (h : HostView) (c : ClauseSt) (x : StepSt) (s : State), s.startedDigest r k 1 = some c →
    s.ownerOf (s.ring r).field = some o → s.stepOf o = some x → x.phase = .open →
    ∃ t : State, exec (.audit r k h) s = .next t ∧ clauseFrame (s.seeHost h) t ∧ (s.caches = [] → t.playa = s.playa) ∧
      workEnded t r c.index)

/-- A CONFIGURE whose descriptor passes its checks and meets no stress test gives the field the descriptor's rectangle,
context, owner and quota, not faulted, and leaves every listed ring open. A DISSOLVE that passes its checks removes the
field. LOAD_KERNEL with a good image puts its code into the named half of every target core, and with STANDARD, the kernel
store being good, the standard kernel; a store that finds an uncorrectable word, or is under refill, makes the writing
wait. A SCRUB that meets no locked region reads and repairs its range and ends with
success. -/
def Obligations.FieldsKernelsAndScrub : Prop :=
  (∀ (r k : Nat) (h : HostView) (c : ClauseSt) (s : State), s.startedClause r k verbConfigure = some c →
    cfgDissolve c.bits = false → c.verdict = none →
    (s.seeHost h).stressBlocks ((s.seeHost h).nounWords (c.noun 0)) = false →
    checkDescriptor (s.seeHost h) (cfgField c.bits) (c.noun 0) = none →
    ∃ (t : State) (g : FieldSt), exec (.configure r k h) s = .next t ∧ t.fieldOf (cfgField c.bits) = some g ∧
      g.row = (parseDesc ((s.seeHost h).nounWords (c.noun 0))).row ∧
      g.col = (parseDesc ((s.seeHost h).nounWords (c.noun 0))).col ∧
      g.height = (parseDesc ((s.seeHost h).nounWords (c.noun 0))).height ∧
      g.width = (parseDesc ((s.seeHost h).nounWords (c.noun 0))).width ∧
      g.paren = (parseDesc ((s.seeHost h).nounWords (c.noun 0))).paren ∧
      g.owner = (parseDesc ((s.seeHost h).nounWords (c.noun 0))).owner ∧
      g.quota = (parseDesc ((s.seeHost h).nounWords (c.noun 0))).quota ∧ g.faulted = none ∧
      (∀ q ∈ (parseDesc ((s.seeHost h).nounWords (c.noun 0))).rings, (t.ring q).isOpen = true) ∧
      t = { s with host := t.host, cmd := t.cmd, rings := t.rings, fields := t.fields, steps := t.steps, sync := t.sync
                   cores := t.cores, doms := t.doms, boot := { s.boot with events := t.boot.events }
                   mgt := { s.mgt with awaiting := t.mgt.awaiting } } ∧
      (∀ q, q ≠ cfgField c.bits → (s.fieldOf q).all (fun f => !f.rbufs.isEmpty) = true → (t.fieldOf q).map (fun f => (f.row, f.col, f.height, f.width, f.paren, f.owner))
        = (s.fieldOf q).map (fun f => (f.row, f.col, f.height, f.width, f.paren, f.owner)))) ∧
  (∀ (r k : Nat) (c : ClauseSt) (s : State), s.startedClause r k verbConfigure = some c → cfgDissolve c.bits = true →
    c.verdict = none → checkDissolve s (cfgField c.bits) = none →
    ∃ t : State, exec (.dissolve r k) s = .next t ∧ t.fieldOf (cfgField c.bits) = none ∧
      (∀ q, q ≠ cfgField c.bits → t.fieldOf q = s.fieldOf q) ∧
      t = { s with cores := t.cores, sync := t.sync, fields := t.fields, slots := t.slots, steps := t.steps
                   doms := t.doms, rings := t.rings }) ∧
  (∀ (r k : Nat) (h : HostView) (c : ClauseSt) (f : FieldSt) (s : State), s.startedClause r k verbLoadKernel = some c →
    lkStandard c.bits = false → c.verdict = none → s.fieldOf (lkField c.bits) = some f →
    (((s.seeHost h).loadTensor (c.noun 0)).any (·.poison)) = false →
    checkImage (s.seeHost h) f c.bits
      (parseImage (((s.seeHost h).loadTensor (c.noun 0)).flatMap (fun e => natLe 4 e.code))) = none →
    ∃ t : State, exec (.loadKernel r k h) s = .next t ∧
      t = { s with host := (s.seeHost h).host, cores := t.cores, rings := t.rings } ∧
      ∀ n ∈ lkCores f c.bits, (if lkParen c.bits then (t.core n).imgParen else (t.core n).imgMain)
        = .loaded (parseImage (((s.seeHost h).loadTensor (c.noun 0)).flatMap (fun e => natLe 4 e.code))).code) ∧
  (∀ (r k : Nat) (c : ClauseSt) (f : FieldSt) (s : State), s.startedClause r k verbLoadKernel = some c →
    lkStandard c.bits = true → c.verdict = none → s.fieldOf (lkField c.bits) = some f → checkStandard s f c.bits = none →
    s.glb.kstoreOk = true →
    ∃ t : State, exec (.loadKernelStandard r ⟨k, false⟩) s = .next t ∧ t = { s with cores := t.cores, rings := t.rings } ∧
      (∀ n ∈ lkCores f c.bits, (if lkParen c.bits then (t.core n).imgParen else (t.core n).imgMain) = .standard) ∧
      (∀ n, n ∉ lkCores f c.bits → t.core n = s.core n)) ∧
  (∀ (r k : Nat) (bad : Bool) (c : ClauseSt) (f : FieldSt) (s : State), s.startedClause r k verbLoadKernel = some c →
    lkStandard c.bits = true → s.fieldOf (lkField c.bits) = some f → checkStandard s f c.bits = none →
    (bad || !s.glb.kstoreOk) = true →
    exec (.loadKernelStandard r ⟨k, bad⟩) s = .next { s with glb := { s.glb with kstoreOk := false } }) ∧
  (∀ (r k : Nat) (c : ClauseSt) (s : State), s.startedClause r k verbScrub = some c → c.verdict = none →
    s.scrubLocked (scrubLo c.bits) (scrubHi c.bits) = false →
    ∃ t : State, exec (.scrub r k) s = .next t ∧ t = s.scrub r c ∧ workEnded t r c.index ∧
      t = { s with dram := t.dram, playa := t.playa, host := t.host, ctr := t.ctr, rings := t.rings, vaults := t.vaults, dbg := t.dbg
                   err := { s.err with tables := t.err.tables, summary := t.err.summary }
                   boot := { s.boot with events := t.boot.events }, mgt := { s.mgt with awaiting := t.mgt.awaiting } } ∧
      (s.caches = [] → t.playa = s.playa) ∧ (s.dram.checks = [] → s.dram.parity = [] → t.err = s.err ∧ t.boot = s.boot))

/-- An uncorrectable instruction word fails the running share's clause with IMEM_UNCORRECTABLE and makes a loaded image
invalid; where the standard kernel is to be written again and the kernel store finds an uncorrectable word in turn, the
store is bad until its refill. A refill of the kernel store after step 5 gives the standard kernel to the empty halves of every powered core that
is in service, and to no other. A parenthetical context that is admitted runs, with its spilled banks back; a yield returns
the core to its main context, saves a bank in flight in its array's save area, and is counted, its 1 to 16 cycles for the
maximum; what the parenthetical register file holds after it is a free value (log 7). A retune whose lanes are wide enough
sets their delay lines and ends; a narrow lane ends it too, is reported and loses the core. -/
def Obligations.CoresSequence : Prop :=
  (∀ (n r i : Nat) (paren bad : Bool) (rest : List (Nat × Nat)) (s : State),
    (if paren then (s.core n).qParen else (s.core n).qMain) = (r, i) :: rest → s.coreRuns n paren = true →
    ∃ u : State, exec (.imemUncorrectable n ⟨paren, bad⟩) s
        = .next ((u.failClause r i { status := 0x302, operand := 7, detail := 0 }).issueAll) ∧
      u = { s with cores := u.cores, glb := { s.glb with kstoreOk := u.glb.kstoreOk }, boot := { s.boot with events := u.boot.events }
                   mgt := { s.mgt with awaiting := u.mgt.awaiting } } ∧ coresSameBut s u n ∧
      u.glb.kstoreOk = (s.glb.kstoreOk && !(bad && (if paren then (s.core n).imgParen else (s.core n).imgMain) == .standard)) ∧
      (∀ code, (if paren then (s.core n).imgParen else (s.core n).imgMain) = .loaded code →
        (if paren then (u.core n).imgParen else (u.core n).imgMain) = .invalid)) ∧
  (∀ s : State, 5 ≤ s.glb.step.toNat →
    ∃ t : State, exec .kernelStoreRefill s = .next t ∧ t = { s with cores := t.cores, glb := { s.glb with kstoreOk := true } } ∧
      ∀ n, t.core n = if n < 256 ∧ (s.dom n).power = 2 ∧ (s.core n).mappedOut = false then (s.core n).loadStandard
        else s.core n) ∧
  (∀ (n : Nat) (held : List Nat) (s : State), (s.core n).run.toNat < 2 → (s.core n).qParen ≠ [] → (s.core n).retuning = false →
    (s.dom n).power = 2 → s.halted = false → s.mainWaits n = true →
    ∃ t : State, exec (.parenAdmit ⟨n, held⟩) s = .next t ∧ t = { s with cores := t.cores, ctr := t.ctr } ∧ coresSameBut s t n ∧
      ((s.core n).spilled = [] → t.ctr = s.ctr) ∧
      (∀ k, k ∈ (t.core n).mainHeld ↔ k ∈ held ∧ (s.core n).qMain ≠ []) ∧
      (t.core n).run = 2 ∧ (t.core n).spilled = [] ∧ (t.core n).qParen = (s.core n).qParen ∧
      (t.core n).qMain = (s.core n).qMain) ∧
  (∀ (n cycles : Nat) (s : State), 2 ≤ (s.core n).run.toNat → (s.core n).qMain ≠ [] →
    ∃ t : State, exec (.contextYield n cycles []) s = .next t ∧ t = { s with cores := t.cores, ctr := t.ctr, freeIdx := t.freeIdx } ∧
      coresSameBut s t n ∧ t.core n = { s.core n with run := 1, mainHeld := [], vecParen := s.freeIdx } ∧
      t.ctrGet (coreYields n) = s.ctrGet (coreYields n) + 1 ∧
      (t.ctrGet (coreYieldMax n)).toNat = max (s.ctrGet (coreYieldMax n)).toNat (max 1 (min 16 cycles))) ∧
  (∀ (n cycles : Nat) (b : SpilledBank) (s : State), 2 ≤ (s.core n).run.toNat → (s.core n).qMain ≠ [] →
    ∃ t : State, exec (.contextYield n cycles [b]) s = .next t ∧ coresSameBut s t n ∧
      t = { s with cores := t.cores, ctr := t.ctr, freeIdx := t.freeIdx, playa := t.playa, dbg := t.dbg } ∧
      t.playa = (s.playaWrite n (saveArea b.array) (wordsToBytes b.words) false).playa ∧ (t.core n).run = 1 ∧
      (t.core n).spilled = insSet (if b.array = 0 then 0 else 1) (s.core n).spilled) ∧
  (∀ (n : Nat) (sweeps : List LaneSweep) (s : State), (s.core n).retuning = true →
    (sweeps.filter (fun x => x.column == n && x.crossing == 0)).all (fun x => LaneSweep.passes x) = true →
    ∃ t : State, exec (.playaRetuneDone n sweeps) s = .next t ∧ t = { s with cores := t.cores, delays := t.delays } ∧
      coresSameBut s t n ∧ (t.core n).retuning = false ∧ t.tuneDue n 0 = false ∧
      t.delays = (s.setDelays (sweeps.filter (fun x => x.column == n && x.crossing == 0))).delays) ∧
  (∀ (n : Nat) (sweeps : List LaneSweep) (s : State), (s.core n).retuning = true →
    (sweeps.filter (fun x => x.column == n && x.crossing == 0)).all (fun x => LaneSweep.passes x) = false →
    ∃ u : State, exec (.playaRetuneDone n sweeps) s = .next ((u.loseCore n).issueAll) ∧
      u = { s with cores := u.cores, delays := u.delays, boot := { s.boot with events := u.boot.events }
                   mgt := { s.mgt with awaiting := u.mgt.awaiting, findings := u.mgt.findings } } ∧
      coresSameBut s u n ∧ (u.core n).retuning = false ∧
      u.mgt.findings.length = s.mgt.findings.length
        + ((sweeps.filter (fun x => x.column == n && x.crossing == 0)).filter (fun x => !LaneSweep.passes x)).length)

/-- A page repair of a row with errors, in a vault that repairs no other and in a bank without a step, a refresh or a debt
of 7, holds its bank; when it is done, with no request waiting, the row has no word error and no parity
difference left, no other row's errors change, and the repair is counted. A parity error drops a cached sequence entry and
counts, and so do those of a cached noun, chain or translation entry and of a fetched clause, which a clause not yet issued
reads again; that of a data buffer poisons its flits. With a receiver and room in this second, a CPER record of the next event is
sent and counted; after 64 of its kind it is withheld and counted. -/
def Obligations.RepairsAndErrorRecords : Prop :=
  (∀ (v row tier bank : Nat) (s : State), row < 3072 → tier < 8 → bank < 16 →
    s.dram.rowBad (rowKey v row tier bank) = true → (s.engine v (16 * tier + bank)).token = false →
    (s.tier v tier).refreshing = false → (s.vault v).repair = none → (s.tier v tier).debt < 7 →
    exec (.pageRepair v row tier bank) s
      = .next (s.modVault v (fun x => { x with repair := some (rowKey v row tier bank) }))) ∧
  (∀ (v key : Nat) (s : State), (s.vault v).repair = some key → (s.vault v).waiting = [] →
    ∃ t : State, exec (.pageRepairDone v) s = .next t ∧
      t = { s with dram := t.dram, ctr := t.ctr, vaults := t.vaults, engines := t.engines
                   err := { s.err with tables := t.err.tables, summary := t.err.summary }
                   boot := { s.boot with events := t.boot.events }, mgt := { s.mgt with awaiting := t.mgt.awaiting } } ∧
      t.vault v = { s.vault v with repair := none, nextEngine := (t.vault v).nextEngine } ∧ vaultsSameBut s t v ∧
      t.dram.badWords key = [] ∧ Tbl.find t.dram.parity key = none ∧
      (∀ k, k ≠ key → t.dram.badWords k = s.dram.badWords k ∧ Tbl.find t.dram.parity k = Tbl.find s.dram.parity k) ∧
      t.ctrGet (errRepairs (key / 128 / 3072)) = s.ctrGet (errRepairs (key / 128 / 3072)) + 1) ∧
  (∀ (i : Nat) (s : State), ∃ t : State, exec (.cacheParityError (.sequence i)) s = .next t ∧
      t = { s with kvm := { s.kvm with cache := t.kvm.cache }, ctr := t.ctr } ∧ i ∉ t.kvm.cache ∧
      (∀ j, j ≠ i → (j ∈ t.kvm.cache ↔ j ∈ s.kvm.cache)) ∧
      t.ctrGet errCacheParity = s.ctrGet errCacheParity + 1 ∧ countersSameBut s t errCacheParity) ∧
  (∀ (flits : List Nat) (s : State), ∃ t : State, exec (.cacheParityError (.dataBuffer flits)) s = .next t ∧
      t = { s with dram := { s.dram with poison := t.dram.poison } } ∧
      ∀ f, f ∈ t.dram.poison ↔ f ∈ flits ∨ f ∈ s.dram.poison) ∧
  (∀ (i : Nat) (s : State),
    exec (.cacheParityError (.noun i)) s = .next (({ s with cmd := { s.cmd with
      nouns := s.cmd.nouns.filter (fun e => decide (e.1 ≠ i)) } } : State).ctrAdd errCacheParity 1) ∧
    exec (.cacheParityError (.chain i)) s = .next (({ s with cmd := { s.cmd with
      chains := s.cmd.chains.filter (fun e => decide (e.1 ≠ i)) } } : State).ctrAdd errCacheParity 1) ∧
    exec (.cacheParityError (.translation i)) s = .next (s.ctrAdd errCacheParity 1)) ∧
  (∀ (r k : Nat) (again : FetchedClause) (c : ClauseSt) (s : State), (s.ring r).clauseAt k = some c → c.phase = .posted →
    ∃ t : State, exec (.cacheParityError (.clause r k again)) s = .next t ∧ t = { s with rings := t.rings, ctr := t.ctr } ∧
      ringsSameBut s t r ∧ ((t.ring r).clauseOf c.index).map (·.bits) = some again.bits ∧
      t.ctrGet errCacheParity = s.ctrGet errCacheParity + 1) ∧
  (∀ (eid kind : Nat) (e : Event) (rest : List Event) (s : State), s.mgt.receiver = some eid → s.deliverable = e :: rest →
    e.cper = some kind →
    ∃ t : State, exec .cperRecord s = .next t ∧
      (t.mgt = { s.mgt with awaiting := rest, sentInSec := t.mgt.sentInSec, suppressed := t.mgt.suppressed }) ∧
      (if (Tbl.get (0, 0) s.mgt.sentInSec kind).1 = s.second ∧ 64 ≤ (Tbl.get (0, 0) s.mgt.sentInSec kind).2 then
        t = { s with mgt := t.mgt, ctr := t.ctr } ∧ t.ctrGet errCperSuppressed = s.ctrGet errCperSuppressed + 1 ∧
          Tbl.get 0 t.mgt.suppressed kind = Tbl.get 0 s.mgt.suppressed kind + 1
      else
        t = { s with mgt := t.mgt, ctr := t.ctr, io := t.io } ∧ t.ctrGet errCperSent = s.ctrGet errCperSent + 1 ∧
          t.io = { s.io with replies := .cper (s.cperOf kind { e with suppressed := Tbl.get 0 s.mgt.suppressed kind }) :: s.io.replies } ∧
          Tbl.get 0 t.mgt.suppressed kind = 0))

/-- A start over cores of no field begins with the corners asked for and the cores of the rectangle; one over a core of a
field is rejected with REJECT 1. Each corner's end takes one corner off and records who failed and who skipped. When no
corner is left the test reads done: a core that failed corner 0 is mapped out with a finding, a core that failed another
corner keeps running with a raised voltage, and every core's result is set. -/
def Obligations.StressTestsRun : Prop :=
  (∀ (v : Word32) (s : State), v.getLsbD 31 = true → s.err.stress.state ≠ 1 →
    (s.err.stress.write v).rect.any (fun c => s.fields.any (fun e => e.2.cores.contains c)) = false →
    ∃ t : State, exec (.stressStart v) s = .next t ∧ t = { s with err := { s.err with stress := t.err.stress }, playa := t.playa } ∧
      t.err.stress.state = 1 ∧ t.err.stress.reject = 0 ∧ t.err.stress.cores = (s.err.stress.write v).rect ∧
      t.err.stress.failed = [] ∧
      (∀ k, k ∈ t.err.stress.left ↔ k < 5 ∧ (BitVec.ofNat 5 (bits v.toNat 20 16)).getLsbD k = true)) ∧
  (∀ (v : Word32) (s : State), v.getLsbD 31 = true → s.err.stress.state ≠ 1 →
    (s.err.stress.write v).rect.any (fun c => s.fields.any (fun e => e.2.cores.contains c)) = true →
    exec (.stressStart v) s = .next { s with err := { s.err with stress := { s.err.stress.write v with state := 3, reject := 1 } } }) ∧
  (∀ (ps ss : List Nat) (k : Nat) (rest : List Nat) (s : State), s.err.stress.left = k :: rest →
    ∃ t : State, exec (.stressCornerDone ps ss) s = .next t ∧ t = { s with err := { s.err with stress := t.err.stress } } ∧
      t.err.stress.left = rest ∧
      (∀ e, e ∈ t.err.stress.failed ↔ e ∈ s.err.stress.failed ∨
        (e.1 = k ∧ e.2 ∈ s.err.stress.cores ∧ e.2 ∉ ps ∧ e.2 ∉ ss)) ∧
      (∀ e, e ∈ t.err.stress.skipped ↔ e ∈ s.err.stress.skipped ∨ (e.1 = k ∧ e.2 ∈ s.err.stress.cores ∧ e.2 ∈ ss))) ∧
  (∀ s : State, s.err.stress.state = 1 → s.err.stress.left = [] →
    ∃ t : State, exec .stressResult s = .next t ∧
      t = { s with err := { s.err with stress := t.err.stress }, cores := t.cores
                   boot := { s.boot with events := t.boot.events, vf := t.boot.vf }
                   mgt := { s.mgt with awaiting := t.mgt.awaiting, findings := t.mgt.findings } } ∧
      t.err.stress.state = 2 ∧
      (∀ c ∈ s.err.stress.cores, (t.core c).mappedOut = ((s.core c).mappedOut || decide ((0, c) ∈ s.err.stress.failed))) ∧
      (∀ c ∈ s.err.stress.cores, Tbl.get 0 t.err.stress.results c = BitVec.ofNat 2 (s.err.stress.result c)))

/-- A lane test that marks no lane starts its stopped sub-channel again. One failed data lane takes a free spare; without
a free spare the channel goes to half width, pausing whole, when the chosen halves need at most 16 spares; at half width a
failed lane in use without a free spare evacuates the vault, which is a finding for the defect list and ends the vault's
near-bank work. A failed command lane takes one of the two command spares. A spare whose lanes all pass takes their
delay-line settings and starts its sub-channel (which spare does so among several is log 59's choice); one that does not
pass is replaced in turn. The end of the move to the side port starts the whole vault and leaves the side port dead when it
did not train. Other vaults stay as they are. -/
def Obligations.LanesAreSpared : Prop :=
  (∀ (v sub : Nat) (s : State), sub ∈ (s.vault v).stopped → (s.vault v).moving = false → (s.vault v).waiting = [] →
    ∃ t : State, exec (.laneTest v sub [] []) s = .next t ∧ t = { s with vaults := t.vaults } ∧
      t.vault v = { s.vault v with stopped := delSet sub (s.vault v).stopped } ∧ vaultsSameBut s t v) ∧
  (∀ (v sub lane : Nat) (s : State), sub ∈ (s.vault v).stopped → (s.vault v).moving = false → (s.vault v).mode = 0 →
    (s.vault v).spares < 16 →
    ∃ t : State, exec (.laneTest v sub [lane] []) s = .next t ∧ t = { s with vaults := t.vaults } ∧
      t.vault v = { s.vault v with failedLanes := insSet (64 * sub + lane) (s.vault v).failedLanes, spares := (s.vault v).spares + 1 } ∧
      vaultsSameBut s t v) ∧
  (∀ (v sub lane : Nat) (x : VaultSt) (s : State), sub ∈ (s.vault v).stopped → (s.vault v).moving = false →
    (s.vault v).mode = 0 → 16 ≤ (s.vault v).spares →
    x = { s.vault v with failedLanes := insSet (64 * sub + lane) (s.vault v).failedLanes } → x.halvesNeed x.chooseHalves ≤ 16 →
    ∃ t : State, exec (.laneTest v sub [lane] []) s = .next t ∧ t = { s with vaults := t.vaults } ∧
      t.vault v = { x with mode := 1, halfSel := BitVec.ofNat 8 x.chooseHalves, spares := x.halvesNeed x.chooseHalves, stopped := List.range 8 } ∧
      vaultsSameBut s t v) ∧
  (∀ (v sub lane : Nat) (s : State), sub ∈ (s.vault v).stopped → (s.vault v).moving = false → (s.vault v).mode = 1 →
    16 ≤ (s.vault v).spares → bitAt (s.vault v).halfSel.toNat sub = decide (32 ≤ lane) →
    ∃ u : State, exec (.laneTest v sub [lane] []) s = .next (u.leaveEngines v) ∧ ((s.vault v).jobs = [] → u.leaveEngines v = u) ∧
      (u.vault v).mode = 2 ∧ (u.vault v).moving = true ∧ vaultsSameBut s u v ∧ (∀ e ∈ u.caches, e.1 / 4096 ≠ v) ∧
      (u.mgt.findings.getLast?).map (·.defect) = some { kind := 5, unit := v, sub := 0, sub2 := 0 } ∧
      u = { s with vaults := u.vaults, caches := u.caches, boot := { s.boot with events := u.boot.events }
                   mgt := { s.mgt with awaiting := u.mgt.awaiting, findings := u.mgt.findings } }) ∧
  (∀ (v sub lane : Nat) (s : State), sub ∈ (s.vault v).stopped → (s.vault v).moving = false → (s.vault v).cmdSpares < 2 →
    ∃ t : State, exec (.laneTest v sub [] [lane]) s = .next t ∧ t = { s with vaults := t.vaults } ∧
      t.vault v = { s.vault v with cmdSpares := (s.vault v).cmdSpares + 1 } ∧ vaultsSameBut s t v) ∧
  (∀ (v sub : Nat) (data cmds : List LaneSweep) (s : State), sub ∈ (s.vault v).stopped → (s.vault v).moving = false →
    (s.vault v).waiting = [] → ((s.vault v).stopped.length < 8 ∨ (s.vault v).mode ≠ 1) →
    (data ++ cmds).all (fun x => LaneSweep.passes x) = true →
    ∃ t : State, exec (.spareTrained v sub data cmds) s = .next t ∧ vaultsSameBut s t v ∧
      t.vault v = { s.vault v with stopped := delSet sub (s.vault v).stopped } ∧ t.delays = (s.setDelays (data ++ cmds)).delays ∧
      (t.boot.events.head?).map (·.kind) = some .vaultLane ∧
      t = { s with vaults := t.vaults, delays := t.delays, boot := { s.boot with events := t.boot.events }
                   mgt := { s.mgt with awaiting := t.mgt.awaiting } }) ∧
  (∀ (v sub : Nat) (x : LaneSweep) (s : State), sub ∈ (s.vault v).stopped → (s.vault v).moving = false →
    LaneSweep.passes x = false →
    (x.lane < 528 → (s.vault v).mode = 0 → (s.vault v).spares < 16 →
      ∃ t : State, exec (.spareTrained v sub [x] []) s = .next t ∧ t = { s with vaults := t.vaults } ∧ vaultsSameBut s t v ∧
        t.vault v = { s.vault v with failedLanes := insSet x.lane (s.vault v).failedLanes, spares := (s.vault v).spares + 1 }) ∧
    (528 ≤ x.lane → (s.vault v).cmdSpares < 2 →
      ∃ t : State, exec (.spareTrained v sub [] [x]) s = .next t ∧ t = { s with vaults := t.vaults } ∧ vaultsSameBut s t v ∧
        t.vault v = { s.vault v with cmdSpares := (s.vault v).cmdSpares + 1 })) ∧
  (∀ (v : Nat) (trained : Bool) (s : State), (s.vault v).moving = true → (s.vault v).waiting = [] →
    ∃ t : State, exec (.sidePortMoveDone v trained) s = .next t ∧ vaultsSameBut s t v ∧
      t.vault v = { s.vault v with moving := false, stopped := [], sideDead := !trained } ∧
      t = { s with vaults := t.vaults, boot := { s.boot with events := t.boot.events }, mgt := { s.mgt with awaiting := t.mgt.awaiting } })

/-- A burst that reaches the banks is counted as read or write. One whose CRC fails is repeated up to three times and
counted, after which its sub-channel stops. A good write closes its burst's combining entry. A good clean read of several
readers joins the combining table when it has room, and each reader but the opener is counted; a read that finds its data
in an open entry takes no burst, and one that finds its line in the cache only counts its hits. A read whose status asks
for it starts a page repair. The end of the window closes the entry. -/
def Obligations.BurstsReturnAndRepeat : Prop :=
  (∀ (b : Burst) (s : State), (b.isWrite = true ∨ b.requesters = [] ∧ s.readHits (burstDpa b) = false) →
    s.vaultRetired b.vault = false → s.bankHeld (burstDpa b) = false → burstHolds b = false →
    Tbl.get 0 (s.vault b.vault).repeats (b.bank / 2) < 3 →
    ∃ t : State, exec (.burstReturn b) s = .next t ∧ t = { s with vaults := t.vaults, ctr := t.ctr } ∧
      t.vault b.vault = { s.vault b.vault with
        repeats := Tbl.put 0 (s.vault b.vault).repeats (b.bank / 2) (Tbl.get 0 (s.vault b.vault).repeats (b.bank / 2) + 1) } ∧
      t.ctrGet (vltCrcRepeat b.vault) = s.ctrGet (vltCrcRepeat b.vault) + 1 ∧ vaultsSameBut s t b.vault) ∧
  (∀ (b : Burst) (s : State), (b.isWrite = true ∨ b.requesters = [] ∧ s.readHits (burstDpa b) = false) →
    s.vaultRetired b.vault = false → s.bankHeld (burstDpa b) = false → burstHolds b = false →
    3 ≤ Tbl.get 0 (s.vault b.vault).repeats (b.bank / 2) →
    ∃ t : State, exec (.burstReturn b) s = .next t ∧ t = { s with vaults := t.vaults, ctr := t.ctr } ∧
      b.bank / 2 ∈ (t.vault b.vault).stopped ∧ Tbl.get 0 (t.vault b.vault).repeats (b.bank / 2) = 0 ∧
      t.ctrGet (vltCrcRepeat b.vault) = s.ctrGet (vltCrcRepeat b.vault) ∧ vaultsSameBut s t b.vault) ∧
  (∀ (b : Burst) (s : State), b.isWrite = true → burstDpa b / Config.vaultBytes = b.vault → burstDpa b % 64 = 0 →
    s.vaultRetired b.vault = false → s.bankHeld (burstDpa b) = false → burstHolds b = true →
    ∃ t : State, exec (.burstReturn b) s = .next t ∧ t = { s with vaults := t.vaults, ctr := t.ctr } ∧
      t.ctrGet (vltWrBursts b.vault) = s.ctrGet (vltWrBursts b.vault) + 1 ∧ countersSameBut s t (vltWrBursts b.vault) ∧
      (∀ e, e ∈ (t.vault b.vault).combine ↔ e ∈ (s.vault b.vault).combine ∧ e.burst ≠ burstDpa b / 64) ∧
      vaultsSameBut s t b.vault) ∧
  (∀ (b : Burst) (first second : Nat) (s : State), b.isWrite = false → burstDpa b / Config.vaultBytes = b.vault →
    s.vaultRetired b.vault = false → s.bankHeld (burstDpa b) = false → burstHolds b = true → b.requesters = [first, second] →
    s.burstSt b = 0 → s.cacheOn b.vault = false → s.dpaPoison (burstDpa b) 64 = false →
    (s.vault b.vault).entryOf (burstDpa b / 64) = none → (s.vault b.vault).combine.length < 32 →
    ∃ t : State, exec (.burstReturn b) s = .next t ∧ t = { s with vaults := t.vaults, ctr := t.ctr } ∧
      t.ctrGet (vltRdBursts b.vault) = s.ctrGet (vltRdBursts b.vault) + 1 ∧
      t.ctrGet (vltCombined b.vault) = s.ctrGet (vltCombined b.vault) + 1 ∧
      (∃ e ∈ (t.vault b.vault).combine, e.burst = burstDpa b / 64 ∧ e.requesters = [first, second]) ∧
      vaultsSameBut s t b.vault) ∧
  (∀ (b : Burst) (e : Combine) (s : State), b.isWrite = false → burstDpa b / Config.vaultBytes = b.vault →
    s.vaultRetired b.vault = false → s.bankHeld (burstDpa b) = false → b.requesters ≠ [] → s.cacheOn b.vault = false →
    (s.vault b.vault).entryOf (burstDpa b / 64) = some e → e.returned = true →
    ∃ t : State, exec (.burstReturn b) s = .next t ∧ t = { s with vaults := t.vaults, ctr := t.ctr } ∧
      t.ctrGet (vltCombined b.vault) = s.ctrGet (vltCombined b.vault)
        + BitVec.ofNat 64 (b.requesters.filter (fun x => !e.requesters.contains x)).length ∧
      countersSameBut s t (vltCombined b.vault) ∧ vaultsSameBut s t b.vault) ∧
  (∀ (b : Burst) (s : State), b.isWrite = false → s.readHits (burstDpa b) = true → s.playa.checks = [] →
    ∃ t : State, exec (.burstReturn b) s = .next t ∧ t = { s with caches := t.caches, ctr := t.ctr } ∧
      t.ctrGet (vltCacheHit (burstDpa b / Config.vaultBytes)) = s.ctrGet (vltCacheHit (burstDpa b / Config.vaultBytes))
        + BitVec.ofNat 64 (max 1 b.requesters.length) ∧
      countersSameBut s t (vltCacheHit (burstDpa b / Config.vaultBytes))) ∧
  (∀ (b : Burst) (s : State), b.isWrite = false → b.requesters = [] → s.readHits (burstDpa b) = false →
    s.vaultRetired b.vault = false → s.bankHeld (burstDpa b) = false → burstHolds b = true → 2 ≤ s.burstSt b →
    ∃ u : State, exec (.burstReturn b) s = .next (u.startRepair (rowOfDpa (burstDpa b))) ∧
      u = { s with vaults := u.vaults, ctr := u.ctr } ∧
      u.vault b.vault = { s.vault b.vault with repeats := Tbl.drop (s.vault b.vault).repeats (b.bank / 2) } ∧
      vaultsSameBut s u b.vault ∧ u.ctrGet (vltRdBursts b.vault) = s.ctrGet (vltRdBursts b.vault) + 1 ∧
      countersSameBut s u (vltRdBursts b.vault)) ∧
  (∀ (v burst : Nat) (late : List Nat) (s : State), (s.vault v).combine.any (fun e => e.burst == burst) = true →
    ∃ t : State, exec (.combineWindowExpiry v burst late) s = .next t ∧ t = { s with vaults := t.vaults, ctr := t.ctr } ∧
      (∀ e, e ∈ (t.vault v).combine ↔ e ∈ (s.vault v).combine ∧ e.burst ≠ burst) ∧
      t.ctrGet (vltCombined v) = s.ctrGet (vltCombined v) + BitVec.ofNat 64 late.length ∧
      countersSameBut s t (vltCombined v) ∧ vaultsSameBut s t v)

/-- Outside self-refresh a due refresh raises the tier's debt by one, to at most 8, its engines yield from debt 4 on, and
the counter holds the largest debt. A refresh of a closed tier, with debt 4 or nothing waiting for it, takes one off the
debt and moves to the next row index modulo 3,072. Its completion lets the tier go on. The long interval returns when the
tier is at or below 85 degrees, and not above. In self-refresh nothing is due. A retune of the tier's channel that was due
takes place in the refresh: its lanes take their settings and the channel is no longer due. -/
def Obligations.RefreshKeepsItsDebt : Prop :=
  (∀ (v k : Nat) (s : State), s.selfRef = false →
    ∃ t : State, exec (.refreshDue v k) s = .next t ∧ t = { s with tiers := t.tiers, ctr := t.ctr } ∧
      t.tier v k = { s.tier v k with debt := min 8 ((s.tier v k).debt + 1)
                                     yielding := (s.tier v k).yielding || decide (4 ≤ min 8 ((s.tier v k).debt + 1)) } ∧
      (∀ m j, 8 * m + j ≠ 8 * v + k → t.tier m j = s.tier m j) ∧
      (t.ctrGet (vltRefDebtMax v)).toNat = max (s.ctrGet (vltRefDebtMax v)).toNat (min 8 ((s.tier v k).debt + 1)) ∧
      countersSameBut s t (vltRefDebtMax v)) ∧
  (∀ (v k : Nat) (s : State), s.selfRef = true → exec (.refreshDue v k) s = .next s) ∧
  (∀ (v k : Nat) (sweeps : List LaneSweep) (s : State), s.selfRef = false → (s.tier v k).debt ≠ 0 → s.tierClosed v k = true →
    4 ≤ (s.tier v k).debt ∨ s.tierWanted v k = false → (s.vault v).retune.contains k = false →
    ∃ t : State, exec (.refreshIssue v k sweeps) s = .next t ∧ t = { s with tiers := t.tiers, ctr := t.ctr } ∧
      (∀ m j, 8 * m + j ≠ 8 * v + k → t.tier m j = s.tier m j) ∧
      t.tier v k = { s.tier v k with debt := (s.tier v k).debt - 1, refreshing := true
                                     rowIndex := ((s.tier v k).rowIndex + 1) % 3072 } ∧
      t.ctrGet (nbeRefreshYields v) = s.ctrGet (nbeRefreshYields v) + (if (s.tier v k).yielding then 1 else 0) ∧
      countersSameBut s t (nbeRefreshYields v)) ∧
  (∀ (v k : Nat) (sweeps : List LaneSweep) (s : State), k < 8 → s.selfRef = false → (s.tier v k).debt ≠ 0 →
    s.tierClosed v k = true → 4 ≤ (s.tier v k).debt ∨ s.tierWanted v k = false → (s.vault v).retune.contains k = true →
    sweeps.all (fun x => LaneSweep.passes x) = true →
    ∃ t : State, exec (.refreshIssue v k sweeps) s = .next t ∧
      t = { s with tiers := t.tiers, ctr := t.ctr, vaults := t.vaults, cores := t.cores, delays := t.delays } ∧
      t.delays = (s.setDelays (sweeps.filter (fun x => x.column == v && x.crossing == 1 + k))).delays ∧
      t.vault v = { s.vault v with retune := delSet k (s.vault v).retune } ∧ vaultsSameBut s t v ∧
      t.tuneDue v (1 + k) = false ∧ coresSameBut s t v) ∧
  (∀ (v k : Nat) (s : State), (s.tier v k).refreshing = true → (s.vault v).waiting = [] → (s.vault v).jobs = [] →
    ∃ t : State, exec (.refreshComplete v k) s = .next t ∧ t = { s with tiers := t.tiers, vaults := t.vaults } ∧
      t.tier v k = { s.tier v k with refreshing := false, yielding := decide (4 ≤ (s.tier v k).debt) } ∧
      (∀ n, t.vault n = s.vault n)) ∧
  (∀ (v k : Nat) (s : State), s.tierTemp v k ≤ 680 →
    exec (.refreshRateRestore v k) s = .next (s.setTier v k { s.tier v k with fast := false })) ∧
  (∀ (v k : Nat) (s : State), 680 < s.tierTemp v k → exec (.refreshRateRestore v k) s = .next s)

/-- Before READY a host write is discarded and counted, and a read is answered with poison. A ready device that holds
holds nothing answers a read of a line in the cache, or of a free bank with no older request to its burst and no row to
repair, with the line's bytes and poison, and stores a write that touches no table: the bytes of its line read as written,
and no others change. A read of a held bank waits at its vault. While the host is held a request joins the queue of held
requests. -/
def Obligations.HostAccessesDeviceMemory : Prop :=
  (∀ (a : Nat) (bs : List Byte) (p : Bool) (s : State), a < Config.dramBytes → s.glb.ready = false →
    ∃ t : State, exec (.hostMemWrite a bs p) s = .next t ∧ t.io.answers = .discarded a :: s.io.answers ∧
      t.cxl.discards = s.cxl.discards + 1 ∧ t = { s with cxl := t.cxl, io := t.io }) ∧
  (∀ (a : Nat) (s : State), a < Config.dramBytes → s.glb.ready = false →
    ∃ (bs : List Byte) (t : State), exec (.hostMemRead a) s = .next t ∧
      t.io.answers = .data (a / 64 * 64) bs true :: s.io.answers ∧
      t = { s with cxl := t.cxl, io := t.io, freeIdx := t.freeIdx }) ∧
  (∀ (a : Nat) (s : State), a < Config.dramBytes → s.glb.ready = true → s.hostHeld = false → s.burstWaits a = false →
    (s.bankHeld a = false ∨ s.readHits a = true) → s.readRepairs a = false →
    ∃ t : State, exec (.hostMemRead a) s = .next t ∧
      t.io = { s.io with answers := .data (a / 64 * 64) (s.lineOf a).1 (s.lineOf a).2 :: s.io.answers } ∧
      (s.dram.checks = [] → t.err = s.err ∧ t.boot = s.boot) ∧
      t = { s with ctr := t.ctr, caches := t.caches, playa := t.playa, dbg := t.dbg, io := t.io
                   err := { s.err with tables := t.err.tables, summary := t.err.summary }
                   boot := { s.boot with events := t.boot.events }, mgt := { s.mgt with awaiting := t.mgt.awaiting } }) ∧
  (∀ (a : Nat) (s : State), a < Config.dramBytes → s.glb.ready = true → s.hostHeld = false → s.bankHeld a = true →
    s.readHits a = false →
    ∃ t : State, exec (.hostMemRead a) s = .next t ∧ t = { s with vaults := t.vaults } ∧
      (t.vault (a / Config.vaultBytes)).waiting = (s.vault (a / Config.vaultBytes)).waiting ++ [.read a false] ∧
      vaultsSameBut s t (a / Config.vaultBytes)) ∧
  (∀ (a : Nat) (bs : List Byte) (p : Bool) (s : State), a < Config.dramBytes → s.glb.ready = true → s.hostHeld = false →
    bs.length ≤ 64 - a % 64 → s.seqGuarded a bs.length = false → s.dpaLocked a = false → s.bankHeld a = false →
    s.burstWaits a = false → s.vaultRetired (a / Config.vaultBytes) = false →
    (s.vault (a / Config.vaultBytes)).sideDead = false →
    s.quotaTable a bs.length = false → s.dbg.slots = [] → s.dram.checks = [] →
    ∃ t : State, exec (.hostMemWrite a bs p) s = .next t ∧ t.io.answers = .done a :: s.io.answers ∧
      Cells.readRange t.dram.cells a bs.length = bs ∧ dramSameOutside s t a bs.length ∧ (s.caches = [] → t.playa = s.playa) ∧
      (p = true → t.bankPoison (a / 64 * 64) 32 = true ∧ t.bankPoison (a / 64 * 64 + 32) 32 = true) ∧
      vaultsSameBut s t (a / Config.vaultBytes) ∧
      t = { s with dram := t.dram, playa := t.playa, vaults := t.vaults, kvm := { s.kvm with cache := t.kvm.cache }, ctr := t.ctr
                   cmd := { s.cmd with nouns := t.cmd.nouns, chains := t.cmd.chains }
                   tainted := t.tainted, io := { s.io with answers := t.io.answers } }) ∧
  (∀ (a : Nat) (s : State), a < Config.dramBytes → s.glb.ready = true → s.hostHeld = true →
    exec (.hostMemRead a) s = .next { s with cxl := { s.cxl with held := s.cxl.held ++ [.read a false] } })

/-- A host write into a region that near-bank work locks is deferred, and after its wait it is discarded with retry-later
semantics, counted and reported. A host request that has waited at its vault moves up once and is counted. A held request
that times out is answered: a read with poison, a write with retry-later semantics. -/
def Obligations.HostRequestsWaitAndEnd : Prop :=
  (∀ (a : Nat) (bs : List Byte) (p : Bool) (s : State), a < Config.dramBytes → s.glb.ready = true → s.hostHeld = false →
    bs.length ≤ 64 - a % 64 → s.seqGuarded a bs.length = false → s.dpaLocked a = true →
    ∃ t : State, exec (.hostMemWrite a bs p) s = .next t ∧ t = { s with vaults := t.vaults, ctr := t.ctr } ∧
      (t.vault (a / Config.vaultBytes)).deferred = (s.vault (a / Config.vaultBytes)).deferred ++ [.write a bs p false] ∧
      vaultsSameBut s t (a / Config.vaultBytes)) ∧
  (∀ (v : Nat) (w : Waiting) (rest : List Waiting) (s : State), (s.vault v).deferred = w :: rest →
    ∃ t : State, exec (.deferredWriteRetry v) s = .next t ∧ (t.vault v).deferred = rest ∧ vaultsSameBut s t v ∧
      t.io.answers = .retryLater w.dpa :: s.io.answers ∧ (t.boot.events.head?).map (·.kind) = some .retryLater ∧
      t.ctrGet (nbeWrRetry v) = s.ctrGet (nbeWrRetry v) + 1 ∧ countersSameBut s t (nbeWrRetry v) ∧
      t = { s with vaults := t.vaults, ctr := t.ctr, io := { s.io with answers := t.io.answers }
                   boot := { s.boot with events := t.boot.events }, mgt := { s.mgt with awaiting := t.mgt.awaiting } }) ∧
  (∀ (v a : Nat) (rest : List Waiting) (s : State), (s.vault v).waiting = .read a false :: rest →
    ∃ t : State, exec (.hostRequestPromoted v false) s = .next t ∧ t = { s with vaults := t.vaults, ctr := t.ctr } ∧
      (t.vault v).waiting = .read a true :: rest ∧
      t.ctrGet (vltHostPromoted v) = s.ctrGet (vltHostPromoted v) + 1 ∧ countersSameBut s t (vltHostPromoted v)) ∧
  (∀ (v : Nat) (s : State), exec (.hostRequestPromoted v true) s = .next s) ∧
  (∀ (a : Nat) (p : Bool) (rest : List Waiting) (s : State), s.cxl.held = .read a p :: rest →
    ∃ (bs : List Byte) (t : State), exec .heldRequestTimeout s = .next t ∧ t.cxl.held = rest ∧
      t.io.answers = .data (a / 64 * 64) bs true :: s.io.answers ∧ t = { s with cxl := t.cxl, io := t.io, freeIdx := t.freeIdx }) ∧
  (∀ (a : Nat) (bs : List Byte) (p q : Bool) (rest : List Waiting) (s : State), s.cxl.held = .write a bs p q :: rest →
    ∃ t : State, exec .heldRequestTimeout s = .next t ∧ t.cxl.held = rest ∧
      t.io.answers = .retryLater a :: s.io.answers ∧ t = { s with cxl := t.cxl, io := t.io })

/-- An access that is not naturally aligned, or of another size than 32 or 64 bits, is discarded and counted. A read of a
counter's low half latches its high half, which the next read of it returns and uses up. A write of CMD_RCT_BASE, CMD_HOLDOFF or a power limit changes that register
alone; a low half of CMD_RCT_BASE keeps the high half. A raw write puts its sixteen words in the burst and leaves every
other byte; a raw read gives the registers the sixteen words. -/
def Obligations.RegistersTakeWrites : Prop :=
  (∀ (o n : Nat) (v : Word64) (s : State), s.glb.vectorsUp = true → ¬(n = 32 ∧ o % 4 = 0) → ¬(n = 64 ∧ o % 8 = 0) →
    ∃ t : State, exec (.registerWrite o n v) s = .next t ∧ t = { s with ctr := t.ctr } ∧
      t.ctrGet 0x28 = s.ctrGet 0x28 + 1 ∧ countersSameBut s t 0x28) ∧
  (∀ (o : Nat) (s : State), o % 8 = 0 → s.wideAt o = true →
    ∃ t : State, exec (.counterLowRead o) s = .next t ∧ t = { s with latchHi := t.latchHi } ∧
      t.regWord (o + 4) = s.liveWord (o + 4) % 2 ^ 32 ∧
      (∀ k, k ≠ o → Tbl.get none t.latchHi k = Tbl.get none s.latchHi k)) ∧
  (∀ (o : Nat) (s : State), o % 8 = 4 →
    ∃ t : State, exec (.counterLowRead o) s = .next t ∧ t = { s with latchHi := t.latchHi } ∧
      t.regWord o = s.liveWord o ∧ (∀ k, k ≠ o - 4 → Tbl.get none t.latchHi k = Tbl.get none s.latchHi k)) ∧
  (∀ (o : Nat) (s : State), o % 4 ≠ 0 → exec (.counterLowRead o) s = .next (s.ctrAdd 0x28 1)) ∧
  (∀ (v : Word64) (s : State), s.glb.vectorsUp = true →
    ∃ t : State, exec (.registerWrite 0x100000 64 v) s = .next t ∧
      t.staged = { s.staged with rctBase := BitVec.ofNat 52 (v.toNat / 2 ^ 12) } ∧ t.applied = s.applied ∧ t.cmd = s.cmd ∧
      t = { s with staged := t.staged, loHold := t.loHold }) ∧
  (∀ (v : Word64) (s : State), s.glb.vectorsUp = true →
    ∃ t : State, exec (.registerWrite 0x100000 32 v) s = .next t ∧
      t.staged = { s.staged with
        rctBase := BitVec.ofNat 52 ((s.staged.rctBase.toNat * 2 ^ 12 / 2 ^ 32 * 2 ^ 32 + v.toNat % 2 ^ 32) / 2 ^ 12) } ∧
      t = { s with staged := t.staged }) ∧
  (∀ (v : Word64) (s : State), s.glb.vectorsUp = true →
    exec (.registerWrite 0x100020 32 v) s
      = .next { s with cmd := { s.cmd with holdoff := BitVec.ofNat 16 (v.toNat % 2 ^ 32) } }) ∧
  (∀ (v : Word64) (s : State), s.glb.vectorsUp = true →
    exec (.registerWrite 0xF00008 32 v) s
      = .next { s with pwr := { s.pwr with limit := BitVec.ofNat 16 (v.toNat % 2 ^ 32) } }) ∧
  (∀ (ctrl : Word32) (s : State), ctrl.getLsbD 0 = true → bits ctrl.toNat 3 2 = 1 → s.err.chkBusy = false →
    s.chkDpa < Config.dramBytes → s.hostHeld = false → s.bankHeld s.chkDpa = false → s.burstWaits s.chkDpa = false →
    s.dpaLocked s.chkDpa = false →
    ∃ t : State, exec (.rawWrite ctrl) s = .next t ∧ t.err.chkBusy = false ∧ dramSameOutside s t s.chkDpa 64 ∧
      (∀ i, i < 16 → leNat (Cells.readRange t.dram.cells (s.chkDpa + 4 * i) 4) = (s.err.chkData.getD i 0).toNat ∧
        Tbl.get 0 t.dram.checks (s.chkDpa / 4 + i)
          = BitVec.ofNat 7 (Nat.xor (s.err.chkCb.getD i 0).toNat (wordCheck (s.err.chkData.getD i 0).toNat))) ∧
      t = { s with dram := t.dram, err := t.err }) ∧
  (∀ (ctrl : Word32) (s : State), ctrl.getLsbD 0 = true → bits ctrl.toNat 3 2 = 2 → s.err.chkBusy = false →
    s.chkDpa < Config.dramBytes → s.hostHeld = false → s.bankHeld s.chkDpa = false → s.burstWaits s.chkDpa = false →
    s.dpaLocked s.chkDpa = false →
    ∃ t : State, exec (.rawRead ctrl) s = .next t ∧ t.err.chkBusy = false ∧
      (∀ i, i < 16 → (t.err.chkData.getD i 0).toNat = leNat (Cells.readRange s.dram.cells (s.chkDpa + 4 * i) 4)) ∧
      t = { s with err := t.err })

/-- A router that is on forwards a sound packet of its buffers for another island to the neighbour of its next hop under
dimension order, where that has room and no other packet goes first, counting its flits, and delivers one for its own
island that passes the field check; one that cannot go has lost an arbitration. A packet that its source may send enters
the buffers first. One for port C, K or U of a faulted field is taken in and counted. A system packet with a reserved code
is discarded, counted and reported. A fault of a field that is not faulted marks the field with its island, takes the
field's packets out of every router's buffers and is reported; a ring of it without outstanding clauses stops (where it
stops is log 63's choice); then what can issue issues. -/
def Obligations.PacketsTravelAndFieldsFault : Prop :=
  (∀ (island d m : Nat) (p : Packet) (h : Held) (s : State), s.routerOn island = true → packetSound p = true →
    (s.router island).find p = some h → packetReserved p = false → packetKindOk p = true → packetMcast p = false →
    packetDst p ≠ island → nextDir island (packetDst p) = some d → neighbour island d = some m →
    s.dirFree island p d = true → (s.router island).goesNext island h = true → s.dbg.slots = [] →
    ∃ t : State, exec (.meshPacket island p) s = .next t ∧ t = { s with routers := t.routers, ctr := t.ctr } ∧
      t.router m = { s.router m with queue := (s.router m).queue ++ [{ packet := p, input := opposite d, lost := 0 }] } ∧
      (t.router island).queue = (s.router island).queue.erase h ∧
      (∀ n, n ≠ m → n ≠ island → t.router n = s.router n) ∧
      t.ctrGet (fabFlitsOut island) = s.ctrGet (fabFlitsOut island) + BitVec.ofNat 64 (1 + packetLen p) ∧
      countersSameBut s t (fabFlitsOut island)) ∧
  (∀ (island d : Nat) (p : Packet) (h : Held) (s : State), s.routerOn island = true → packetSound p = true →
    (s.router island).find p = some h → packetReserved p = false → packetKindOk p = true → packetMcast p = false →
    nextDir island (packetDst p) = some d → s.dirFree island p d = false →
    exec (.meshPacket island p) s = .next (s.setRouter island { s.router island with
      queue := (s.router island).queue.map (fun x => if x = h then { x with lost := x.lost + 1 } else x) })) ∧
  (∀ (island : Nat) (p : Packet) (s : State), s.routerOn island = true → packetSound p = true →
    (s.router island).find p = none → s.maySend island p = true → s.inputOpen island (4 + packetSport p) (packetVc p) = true →
    exec (.meshPacket island p) s
      = .next ((s.injectPacket island p).tryPacket island { packet := p, input := 4 + packetSport p, lost := 0 }) ∧
    s.injectPacket island p = { s with routers := (s.injectPacket island p).routers } ∧
    ((s.injectPacket island p).router island).queue
      = (s.router island).queue ++ [{ packet := p, input := 4 + packetSport p, lost := 0 }]) ∧
  (∀ (p : Packet) (h : Held) (s : State), s.routerOn (packetDst p) = true → packetSound p = true →
    (s.router (packetDst p)).find p = some h → packetReserved p = false → packetKindOk p = true → packetMcast p = false →
    s.portTakes (packetDst p) p = true → (s.router (packetDst p)).goesNext (packetDst p) h = true → s.dbg.slots = [] →
    (s.faultedDrop p = false → s.fieldOk (packetDst p) p = true → hasPort (packetDst p) (packetDport p) = true →
      ∃ t : State, exec (.meshPacket (packetDst p) p) s = .next t ∧ t = { s with routers := t.routers } ∧
        t.router (packetDst p)
          = RouterSt.answered { s.router (packetDst p) with queue := (s.router (packetDst p)).queue.erase h } p ∧
        routersSameBut s t (packetDst p)) ∧
    (s.faultedDrop p = true →
      ∃ t : State, exec (.meshPacket (packetDst p) p) s = .next t ∧ t = { s with routers := t.routers, ctr := t.ctr } ∧
        (t.router (packetDst p)).queue = (s.router (packetDst p)).queue.erase h ∧ routersSameBut s t (packetDst p) ∧
        t.ctrGet (fabFieldDrop (packetDst p)) = s.ctrGet (fabFieldDrop (packetDst p)) + 1 ∧
        countersSameBut s t (fabFieldDrop (packetDst p)))) ∧
  (∀ (island : Nat) (p : Packet) (h : Held) (s : State), s.routerOn island = true → packetSound p = true →
    (s.router island).find p = some h → packetReserved p = true → packetSys p = true →
    (s.router island).goesNext island h = true → s.dbg.slots = [] →
    ∃ t : State, exec (.meshPacket island p) s = .next t ∧
      t = { s with routers := t.routers, ctr := t.ctr, boot := { s.boot with events := t.boot.events }
                   mgt := { s.mgt with awaiting := t.mgt.awaiting } } ∧
      (t.router island).queue = (s.router island).queue.erase h ∧ routersSameBut s t island ∧
      t.ctrGet (fabFieldDrop island) = s.ctrGet (fabFieldDrop island) + 1 ∧
      (t.boot.events.head?).map (·.kind) = some .meshDevice) ∧
  (∀ (fid island : Nat) (f : FieldSt) (s : State), s.fieldOf fid = some f → f.faulted = none →
    (∀ e ∈ s.rings, e.1 = 0 ∨ e.2.isOpen = false ∨ e.2.field ≠ fid) →
    ∃ u : State, exec (.fieldFault fid island) s = .next u.issueAll ∧
      u = { s with fields := u.fields, routers := u.routers, ctr := u.ctr, boot := { s.boot with events := u.boot.events }
                   mgt := { s.mgt with awaiting := u.mgt.awaiting } } ∧
      u.fieldOf fid = some { f with faulted := some island } ∧ (∀ q, q ≠ fid → u.fieldOf q = s.fieldOf q) ∧
      (∀ n, ∀ h ∈ (u.router n).queue, packetSys h.packet = true ∨ packetField h.packet ≠ fid) ∧
      (u.boot.events.head?).map (·.kind) = some .fieldFault) ∧
  (∀ (fid island r : Nat) (f : FieldSt) (s : State), s.fieldOf fid = some f → f.faulted = none → r ≠ 0 →
    (s.ring r).isOpen = true → (s.ring r).field = fid → (s.ring r).clauses.any ClauseSt.outstanding = false →
    (∀ e ∈ s.rings, e.1 = 0 ∨ e.1 = r ∨ e.2.isOpen = false ∨ e.2.field ≠ fid) →
    ∃ u : State, exec (.fieldFault fid island) s = .next u.issueAll ∧ (u.ring r).isStopped = true ∧ ringsSameBut s u r ∧
      u = { s with fields := u.fields, routers := u.routers, ctr := u.ctr, rings := u.rings
                   boot := { s.boot with events := u.boot.events }, mgt := { s.mgt with awaiting := u.mgt.awaiting } })

/-- A flit whose check fails is replayed, up to three times, and counted. After the third replay the link is declared
failed at both of its routers, whose traffic begins to move, and the failure is reported and put on the defect list. When
the traffic has moved the link no longer moves at either end, and shares that a control link held go on. A control message's promotion is counted at its router. A
time tick sets the island's frequency error and starts the router's counts of failed replays again. -/
def Obligations.MeshLinksFailAndMove : Prop :=
  (∀ (island dir m : Nat) (control : Bool) (s : State), neighbour island dir = some m →
    (if control then (s.router island).ctrlFail.getLsbD dir else (s.router island).bulkFail.getLsbD dir) = false →
    Tbl.get 0 (s.router island).replays (linkNo dir control) < 3 →
    ∃ t : State, exec (.flitCrcFail island dir control) s = .next t ∧ t = { s with routers := t.routers, ctr := t.ctr } ∧
      t.router island = { s.router island with
        replays := Tbl.put 0 (s.router island).replays (linkNo dir control)
          (Tbl.get 0 (s.router island).replays (linkNo dir control) + 1) } ∧ routersSameBut s t island ∧
      t.ctrGet (fabReplays island) = s.ctrGet (fabReplays island) + 1 ∧ countersSameBut s t (fabReplays island)) ∧
  (∀ (island dir m : Nat) (control : Bool) (s : State), dir < 4 → neighbour island dir = some m →
    (s.router island).ctrlFail.getLsbD dir = false → (s.router island).bulkFail.getLsbD dir = false →
    3 ≤ Tbl.get 0 (s.router island).replays (linkNo dir control) →
    ∃ t : State, exec (.flitCrcFail island dir control) s = .next t ∧
      t = { s with routers := t.routers, boot := { s.boot with events := t.boot.events }
                   mgt := { s.mgt with awaiting := t.mgt.awaiting, findings := t.mgt.findings } } ∧
      t.router island = (s.router island).failLink dir control ∧
      t.router m = (s.router m).failLink (opposite dir) control ∧
      (if control then (t.router island).ctrlFail.getLsbD dir else (t.router island).bulkFail.getLsbD dir) = true ∧
      (if control then (t.router m).ctrlFail.getLsbD (opposite dir) else (t.router m).bulkFail.getLsbD (opposite dir)) = true ∧
      (t.boot.events.head?).map (·.kind) = some .meshLink ∧
      (t.mgt.findings.getLast?).map (·.defect) = some { kind := if control then 8 else 7, unit := island, sub := dir, sub2 := 0 }) ∧
  (∀ (island dir m : Nat) (control : Bool) (s : State), neighbour island dir = some m →
    linkNo dir control ∈ (s.router island).moving →
    ∃ u : State, exec (.meshLinkMoveDone island dir control) s = .next (if control then u.sendHeldShares else u) ∧
      u = { s with routers := u.routers } ∧ (u.router island).promoted = 0 ∧
      (u.router island).moving = delSet (linkNo dir control) (s.router island).moving ∧
      (u.router m).moving = delSet (linkNo (opposite dir) control) (s.router m).moving) ∧
  (∀ (island : Nat) (s : State),
    exec (.ctrlMsgPromotion island) s
      = .next (s.setRouter island { s.router island with promoted := (s.router island).promoted + 1 })) ∧
  (∀ (island cycles : Nat) (s : State),
    ∃ t : State, exec (.timeTick island ⟨cycles, none⟩) s = .next t ∧ t = { s with cores := t.cores, routers := t.routers } ∧
      t.core island = { s.core island with trim := (cycles : Int) - s.coreMhz island } ∧ coresSameBut s t island ∧
      t.router island = { s.router island with replays := [] } ∧ routersSameBut s t island)

/-- An arrival in the present generation is held against its object while another participant is missing; the last one
releases the barrier, which turns the generation and clears the arrivals; a second arrival of one island is held for the
next generation. A contribution of 1 sets a flag, or the NF bit of the step owner whose flag it is. An island that does
not take part, or is away, changes nothing, and neither does a contribution of 0, an arrival at a flag or a contribution
to a barrier. Object 0 is a flag and object 1 a barrier; the first use of another decides (log 64). -/
def Obligations.SyncObjectsGather : Prop :=
  (∀ (o n j : Nat) (s : State), s.objectKind o ≠ 2 → n ∈ s.participants o → s.islandAway n = false → n ∉ (s.syncObj o).arrived →
    j ∈ s.participants o → j ≠ n → s.islandAway j = false → j ∉ (s.syncObj o).arrived →
    exec (.barrierArrive o n (s.syncObj o).gen) s
      = .next (s.setSync o { s.syncObj o with kind := 1, arrived := insSet n (s.syncObj o).arrived })) ∧
  (∀ (o n : Nat) (s : State), s.objectKind o ≠ 2 → n ∈ s.participants o → s.islandAway n = false → n ∉ (s.syncObj o).arrived →
    (∀ j ∈ s.participants o, j = n ∨ j ∈ (s.syncObj o).arrived ∨ s.islandAway j = true) → (s.syncObj o).held = [] →
    exec (.barrierArrive o n (s.syncObj o).gen) s
      = .next (s.setSync o { s.syncObj o with kind := 1, gen := !(s.syncObj o).gen, arrived := [] })) ∧
  (∀ (o n : Nat) (g : Bool) (s : State), s.objectKind o ≠ 2 → n ∈ s.participants o → s.islandAway n = false →
    n ∈ (s.syncObj o).arrived →
    exec (.barrierArrive o n g) s
      = .next (s.setSync o { s.syncObj o with kind := 1, held := insSet n (s.syncObj o).held })) ∧
  (∀ (o n : Nat) (s : State), s.objectKind o ≠ 1 → n ∈ s.participants o → s.islandAway n = false → s.flagOwner o = none →
    exec (.flagContribute o n true) s = .next (s.setSync o { s.syncObj o with kind := 2, value := true })) ∧
  (∀ (o n k : Nat) (x : StepSt) (s : State), s.objectKind o ≠ 1 → n ∈ s.participants o → s.islandAway n = false →
    s.flagOwner o = some k → s.stepOf k = some x → exec (.flagContribute o n true) s = .next (s.setStep k { x with nf := true })) ∧
  (∀ (o n : Nat) (s : State), exec (.flagContribute o n false) s = .next s) ∧
  (∀ (o n : Nat) (g v : Bool) (s : State), n ∉ s.participants o ∨ s.islandAway n = true →
    exec (.barrierArrive o n g) s = .next s ∧ exec (.flagContribute o n v) s = .next s) ∧
  (∀ (o n : Nat) (g v : Bool) (s : State), (s.objectKind o = 2 → exec (.barrierArrive o n g) s = .next s) ∧
    (s.objectKind o = 1 → exec (.flagContribute o n v) s = .next s))

/-- A started reduction takes the next slot of its steps, in ascending island index, of its field's share at that island
when one is free, or waits there and is counted. A flit that comes into a slot of a reduction with all its slots uses one
of the credits; met by the step's contributions it forms the output flit of its index: the running sum with the
contributions added in rank order. The flit is counted, the last step's leaves at once and gives its credit back, and a
poisoned one leaves its clause to fail with POISON_CONSUMED. -/
def Obligations.ReductionSlotsFormSums : Prop :=
  (∀ (r k n step : Nat) (red : Reduction) (c : ClauseSt) (f : FieldSt) (s : State), (s.ring r).clauseAt k = some c →
    c.phase = .started → c.worked = false → reduces c.bits = true → s.fieldOf (s.ring r).field = some f →
    red.ranks.all (fun i => f.cores.contains i) = true →
    (s.reducing.find? (fun y => y.ring == r && y.index == c.index && y.red.red == red.red)).all
      (fun y => decide (y.red = red) && !y.ready) = true →
    s.nextReserve r c.index red = some (step, n) → s.slotsUsed n f.paren < s.slotShare n f.paren →
    ∃ t : State, exec (.slotReserve r k red) s = .next t ∧
      t = { s with routers := t.routers, slots := t.slots, reducing := t.reducing } ∧
      t.slots = s.slots ++ [Slot.fresh r c.index n f.paren red.red step] ∧
      (r, c.index) ∉ (t.router n).waiters ∧ routersSameBut s t n) ∧
  (∀ (r k n step : Nat) (red : Reduction) (c : ClauseSt) (f : FieldSt) (s : State), (s.ring r).clauseAt k = some c →
    c.phase = .started → c.worked = false → reduces c.bits = true → s.fieldOf (s.ring r).field = some f →
    red.ranks.all (fun i => f.cores.contains i) = true →
    (s.reducing.find? (fun y => y.ring == r && y.index == c.index && y.red.red == red.red)).all
      (fun y => decide (y.red = red) && !y.ready) = true →
    s.nextReserve r c.index red = some (step, n) → s.slotShare n f.paren ≤ s.slotsUsed n f.paren →
    (r, c.index) ∉ (s.router n).waiters →
    ∃ t : State, exec (.slotReserve r k red) s = .next t ∧ t = { s with routers := t.routers, ctr := t.ctr, reducing := t.reducing } ∧
      (t.router n).waiters = (s.router n).waiters ++ [(r, c.index)] ∧ routersSameBut s t n ∧
      t.ctrGet (fabSlotWait n) = s.ctrGet (fabSlotWait n) + 1 ∧ countersSameBut s t (fabSlotWait n)) ∧
  (∀ (n unit i : Nat) (flit : SumFlit) (x : Slot) (q : Reducing) (s : State),
    (s.slots.filter (fun y => y.island == n))[unit]? = some x →
    s.reducing.find? (fun y => y.ring == x.ring && y.index == x.index && y.red.red == x.red) = some q → q.ready = true →
    Tbl.find x.sums i = none → i = x.arrived → i < q.red.blocks.getD x.block 0 → x.credits ≠ 0 → s.slotBefore x = none →
    ∃ t : State, exec (.reductionFlitArrive n unit i flit none) s = .next t ∧
      { x with sums := Tbl.setKey x.sums i flit, credits := x.credits - 1 } ∈ t.slots ∧ t.slots.length = s.slots.length ∧
      t = { s with slots := t.slots, rings := (s.dataBegun x.ring x.index).rings }) ∧
  (∀ (n unit i : Nat) (flit sum : SumFlit) (l : List SumFlit) (x : Slot) (q : Reducing) (s : State),
    (s.slots.filter (fun y => y.island == n))[unit]? = some x →
    s.reducing.find? (fun y => y.ring == x.ring && y.index == x.index && y.red.red == x.red) = some q → q.ready = true →
    Tbl.find x.sums i = some sum → l.length = stepRanks q.red x.step →
    (x.step + 1 = (cutSteps q.red.ranks).length → x.gone + 1 < q.red.blocks.getD x.block 0) →
    ∃ (t : State) (y : Slot), exec (.reductionFlitArrive n unit i flit (some l)) s = .next t ∧ y ∈ t.slots ∧
      t.slots.length = s.slots.length ∧
      (if x.step + 1 = (cutSteps q.red.ranks).length then
        y = { x with sums := Tbl.drop x.sums i, output := y.output, gone := x.gone + 1, credits := x.credits + 1 }
      else y = { x with sums := Tbl.drop x.sums i, output := y.output } ∧ Tbl.find y.output i = some (l.foldl addFlits sum)) ∧
      t.ctrGet (fabRedFlits n) = s.ctrGet (fabRedFlits n) + 1 ∧ countersSameBut s t (fabRedFlits n) ∧
      t = { s with slots := t.slots, ctr := t.ctr, rings := if (l.foldl addFlits sum).poison then t.rings else s.rings })

/-- With no perturbation slot: a frame with an uncorrectable codeword is counted and asks for a resend, and so does one whose
FCRC fails. With its own trailer not readable, a good frame out of its order asks for a resend; one in order that is
malformed moves RX_SEQ on and is discarded and counted; one in order for another device goes out on its route's port, one
hop less, with its payload and its FCRC as they came, when that port may carry it and nothing waits before it. A RESENT
frame held too long is discarded and counted, and so is a frame of VC 2 to 4 that waited too long in its pool, with an
event. Every port then sends what it may, and collectives whose output has left go on. -/
def Obligations.FramesTravel : Prop :=
  (∀ (p : Nat) (f : Frame) (s : State), (s.port p).state ≠ 0 → s.dbg.slots = [] → badBlock f = true →
    ∃ u : State, exec (.frameReceive p f) s = .next u.pumpAll.advanceColls ∧ u = { s with ports := u.ports, ctr := u.ctr } ∧
      u.port p = { s.port p with nakDue := true, laneCorr := (u.port p).laneCorr } ∧ portsSameBut s u p ∧
      u.ctrGet (lnkFecUncorr p) = s.ctrGet (lnkFecUncorr p) + BitVec.ofNat 64 (f.fec.filter (fun c => !rsCorrects c)).length ∧
      u.ctrGet (lnkCrcFail p) = s.ctrGet (lnkCrcFail p) + 1) ∧
  (∀ (p : Nat) (f : Frame) (s : State), (s.port p).state ≠ 0 → s.dbg.slots = [] → f.fec = [] → frameCrc f ≠ f.fcrc →
    frameTrailerCrc f ≠ f.tcrc →
    ∃ u : State, exec (.frameReceive p f) s = .next u.pumpAll.advanceColls ∧ u = { s with ports := u.ports, ctr := u.ctr } ∧
      u.port p = { s.port p with nakDue := true } ∧ portsSameBut s u p ∧
      u.ctrGet (lnkCrcFail p) = s.ctrGet (lnkCrcFail p) + 1 ∧ countersSameBut s u (lnkCrcFail p)) ∧
  (∀ (p : Nat) (f : Frame) (s : State), 2 ≤ (s.port p).state.toNat → s.dbg.slots = [] → f.fec = [] → frameCrc f = f.fcrc →
    frameTrailerCrc f ≠ f.tcrc → f.vc ≠ 7 → f.seq ≠ (s.port p).rxSeq →
    ∃ u : State, exec (.frameReceive p f) s = .next u.pumpAll.advanceColls ∧ u = { s with ports := u.ports } ∧
      u.port p = { s.port p with nakDue := true } ∧ portsSameBut s u p) ∧
  (∀ (p : Nat) (f : Frame) (s : State), 2 ≤ (s.port p).state.toNat → s.dbg.slots = [] → f.fec = [] → frameCrc f = f.fcrc →
    frameTrailerCrc f ≠ f.tcrc → f.vc ≠ 7 → f.seq = (s.port p).rxSeq → (frameKindOk f && frameShapeOk f) = false →
    ∃ u : State, exec (.frameReceive p f) s = .next u.pumpAll.advanceColls ∧ u = { s with ports := u.ports, ctr := u.ctr } ∧
      (u.port p).rxSeq = ((s.port p).rxSeq + 1) % 4096 ∧ portsSameBut s u p ∧
      u.ctrGet (lnkRxFrames p) = s.ctrGet (lnkRxFrames p) + 1 ∧ u.ctrGet (lnkDiscard p) = s.ctrGet (lnkDiscard p) + 1) ∧
  (∀ (p q : Nat) (f : Frame) (s : State), (s.port p).state = 2 → s.dbg.slots = [] → f.fec = [] → frameCrc f = f.fcrc →
    frameTrailerCrc f ≠ f.tcrc → f.vc ≠ 7 → f.vc ≠ 1 → f.seq = (s.port p).rxSeq → frameKindOk f = true →
    frameShapeOk f = true → f.dst ≠ s.applied.deviceId.toNat → f.hops ≠ 0 → s.routePort f.dst = some q →
    s.mayCarry q { f with hops := f.hops - 1 } = true → (s.port q).room f = true → (s.port q).txQueue = [] →
    ∃ (u : State) (g : Frame), exec (.frameReceive p f) s = .next u.pumpAll.advanceColls ∧ u.io.frames = (q, g) :: s.io.frames ∧
      g.dst = f.dst ∧ g.src = f.src ∧ g.vc = f.vc ∧ g.kind = f.kind ∧ g.payload = f.payload ∧ g.poison = f.poison ∧
      g.fcrc = f.fcrc ∧ g.hops = f.hops - 1 ∧ g.seq = (s.port q).txSeq ∧
      u = { s with ports := u.ports, ctr := u.ctr, io := { s.io with frames := u.io.frames } }) ∧
  (∀ (p q : Nat) (e : Queued) (s : State),
    s.queuedFind (fun o x => x.frame.resent && (o == p || x.pool == p)) = some (q, e) →
    ∃ t : State, exec (.resentFrameExpiry p) s = .next t ∧ (t.port q).txQueue = (s.port q).txQueue.erase e ∧
      t.ctrGet (lnkDiscard p) = s.ctrGet (lnkDiscard p) + 1 ∧ countersSameBut s t (lnkDiscard p) ∧
      t = { s with ports := t.ports, ctr := t.ctr }) ∧
  (∀ (p q vc : Nat) (e : Queued) (s : State), 2 ≤ vc → s.queuedFind (fun _ x => x.pool == p && x.frame.vc == vc) = some (q, e) →
    ∃ u : State, exec (.poolWaitExpiry p vc) s = .next u.pumpAll ∧ (u.port q).txQueue = (s.port q).txQueue.erase e ∧
      u.ctrGet (lnkDiscard p) = s.ctrGet (lnkDiscard p) + 1 ∧ countersSameBut s u (lnkDiscard p) ∧
      (u.boot.events.head?).map (·.kind) = some .frameDiscard ∧
      u = { s with ports := u.ports, ctr := u.ctr, boot := { s.boot with events := u.boot.events }
                   mgt := { s.mgt with awaiting := u.mgt.awaiting } })

/-- The replay timer of a port that is up with frames outstanding resends them all, in order, and counts them, a NAK that is
due standing in the first trailer alone; when the oldest has
been resent four times, or ACK has stalled, the port goes down. A port that goes down, with nothing queued and not leading to the
sync parent, is down with its sequence numbers at 0, and is reported. The first failed lane of a port at full width takes the port to the other half, its traffic stopped, and a LANE
frame goes out; when the lanes are trained again traffic goes on after the resend. -/
def Obligations.PortsRetryAndFail : Prop :=
  (∀ (p : Nat) (s : State), (s.port p).state = 2 → (s.port p).unacked ≠ [] → (s.port p).laneMove = false →
    (s.port p).resends < 4 →
    ∃ t : State, exec (.replayTimer p) s = .next t ∧
      t = { s with ports := t.ports, ctr := t.ctr, io := { s.io with frames := t.io.frames } } ∧
      t.port p = { s.port p with resends := (s.port p).resends + 1, nakDue := false, told := (t.port p).told } ∧
      portsSameBut s t p ∧
      t.io.frames.length = s.io.frames.length + (s.port p).unacked.length ∧
      ((t.io.frames.take (s.port p).unacked.length).reverse.map (fun e => (e.1, e.2.seq, e.2.payload)))
        = (s.port p).unacked.map (fun f => (p, f.seq, f.payload)) ∧
      (((t.io.frames.take (s.port p).unacked.length).reverse.head?).map (fun e => e.2.nak)) = some (s.port p).nakDue ∧
      t.ctrGet (lnkReplays p) = s.ctrGet (lnkReplays p) + BitVec.ofNat 64 (s.port p).unacked.length) ∧
  (∀ (p : Nat) (s : State), 2 ≤ (s.port p).state.toNat → (s.port p).unacked ≠ [] → (s.port p).laneMove = false →
    4 ≤ (s.port p).resends →
    ∃ t : State, exec (.replayTimer p) s = .next t ∧ exec (.portDown p) s = .next t) ∧
  (∀ (p : Nat) (s : State), (s.port p).unacked ≠ [] →
    ∃ t : State, exec (.ackStallTimeout p) s = .next t ∧ exec (.portDown p) s = .next t) ∧
  (∀ (p : Nat) (s : State), (s.port p).state ≠ 0 → (s.port p).unacked = [] → (s.port p).txQueue = [] →
    s.parentPort ≠ some p →
    ∃ u : State, exec (.portDown p) s = .next u.pumpAll ∧ (u.port p).state = 0 ∧ (u.port p).txSeq = 0 ∧ (u.port p).rxSeq = 0 ∧
      (u.port p).syncOpen = false ∧ (u.boot.events.head?).map (·.kind) = some .port ∧ portsSameBut s u p ∧
      u = { s with ports := u.ports, boot := { s.boot with events := u.boot.events }
                   mgt := { s.mgt with awaiting := u.mgt.awaiting } }) ∧
  (∀ (p lane : Nat) (s : State), 2 ≤ (s.port p).state.toNat → (s.port p).badLanes = 0 → (s.port p).peerBad = 0 →
    (s.port p).half = false → lane < 8 →
    ∃ (t : State) (g : Frame), exec (.laneFail p lane) s = .next t ∧ (t.port p).badLanes = BitVec.ofNat 8 (2 ^ lane) ∧
      (t.port p).half = true ∧ (t.port p).halfSel = decide (lane < 4) ∧ (t.port p).laneMove = true ∧
      (t.port p).unacked = (s.port p).unacked ∧ portsSameBut s t p ∧
      t.io.frames = (p, g) :: s.io.frames ∧ g.vc = 7 ∧ g.kind = 3 ∧
      t = { s with ports := t.ports, io := { s.io with frames := t.io.frames } }) ∧
  (∀ (p : Nat) (s : State), (s.port p).state = 2 → (s.port p).laneMove = true →
    ∃ (u : State) (g : Frame), exec (.laneRetrainDone p) s = .next u.pumpAll ∧ (u.port p).laneMove = false ∧
      u.io.frames.head? = some (p, g) ∧ g.vc = 7 ∧ g.kind = 1 ∧
      u.io.frames.length = s.io.frames.length + (s.port p).unacked.length + 1 ∧ portsSameBut s u p ∧
      u = { s with ports := u.ports, io := { s.io with frames := u.io.frames }
                   boot := { s.boot with events := u.boot.events }, mgt := { s.mgt with awaiting := u.mgt.awaiting } })

/-- A port without bad lanes whose training succeeds comes up at full width with sequence numbers at 0 and sends IDENT. The peer's IDENT
gives the port its peer's identity and the lower minor version, and quarantines it with the cause that R308 gives, its other
frames taking other ways, or opens it. A child starts the time exchange with a TIME frame to its parent; a root's depth is
0, and its management core may set the time, which never runs backwards. The parent's answer gives
the offset: the clock is locked when it is within 1 µs. The slew of at most 50 ns a wave is the model's (log 3). -/
def Obligations.PortsTrainAndKeepTime : Prop :=
  (∀ (p : Nat) (s : State), (s.port p).state.toNat < 2 → 3 ≤ s.glb.step.toNat → s.pwr.refclk = true → (s.port p).badLanes = 0 →
    ∃ (u : State) (g : Frame), exec (.linkTrainingDone p true) s = .next u.pumpAll ∧
      u.port p = { PortSt.reset with state := 2, laneCorr := (s.port p).laneCorr, pool := (s.port p).pool, told := (u.port p).told } ∧ portsSameBut s u p ∧
      u.io.frames = (p, g) :: s.io.frames ∧ g.vc = 7 ∧ g.kind = 1 ∧ g.payload = s.identBlock ∧
      u = { s with ports := u.ports, io := { s.io with frames := u.io.frames } }) ∧
  (∀ (p : Nat) (s : State), (s.port p).state.toNat < 2 → 3 ≤ s.glb.step.toNat → s.pwr.refclk = true → (s.port p).badLanes = 0 →
    exec (.linkTrainingDone p false) s = exec (.portDown p) s) ∧
  (∀ (p : Nat) (f : Frame) (s : State), s.inboxFind p (fun x => x.vc == 7 && x.kind == 1) = some f → (s.port p).state ≠ 0 →
    ∃ u : State, exec (.identReceive p) s
        = .next (if s.quarantineCause f ≠ 0 ∧ (s.port p).state = 2 then u.shunPort p else u).pumpAll ∧
      (u.port p).state = (if s.quarantineCause f = 0 then 2 else 3) ∧
      (u.port p).qCause = BitVec.ofNat 3 (s.quarantineCause f) ∧ (u.port p).peerId = BitVec.ofNat 16 (identField f 2 2) ∧
      (u.port p).runMinor = BitVec.ofNat 8 (min (identField f 1 1) s.glb.minor.toNat) ∧
      (s.quarantineCause f ≠ 0 → (u.port p).syncOpen = false) ∧ portsSameBut s u p ∧
      u.lnk = { s.lnk with inbox := s.lnk.inbox.erase (p, f) } ∧
      u = { s with ports := u.ports, lnk := u.lnk, boot := { s.boot with events := u.boot.events }
                   mgt := { s.mgt with awaiting := u.mgt.awaiting } }) ∧
  (∀ s : State, s.parentPort = none → exec .timeWave s = .next { s with lnk := { s.lnk with depth := 0 } }) ∧
  (∀ (island cycles : Nat) (w : Word64) (s : State), s.parentPort = none →
    ∃ t : State, exec (.timeTick island ⟨cycles, some w⟩) s = .next t ∧
      t = { s with time := t.time, lnk := { s.lnk with timeHold := t.lnk.timeHold }, cores := t.cores, routers := t.routers } ∧
      t.time = (if s.time.toNat ≤ w.toNat then w else s.time) ∧
      t.lnk.timeHold = (if s.time.toNat ≤ w.toNat then none else some w)) ∧
  (∀ (p : Nat) (s : State), s.parentPort = some p → 2 ≤ (s.port p).state.toNat →
    ∃ (t : State) (g : Frame), exec .timeWave s = .next t ∧ (t.port p).timeT1 = some s.stamp ∧
      t.io.frames = (p, g) :: s.io.frames ∧ g.vc = 7 ∧ g.kind = 2 ∧ leNat (g.payload.take 8) = s.stamp % 2 ^ 64 ∧ portsSameBut s t p ∧
      t = { s with ports := t.ports, io := { s.io with frames := t.io.frames } }) ∧
  (∀ (p t1 t4 : Nat) (theta8 : Int) (f : Frame) (s : State), s.inboxFind p (fun x => x.vc == 7 && x.kind == 2) = some f →
    (s.port p).timeT1 = some t1 →
    theta8 = (((identField f 8 8 : Int) - t1) - ((t4 : Int) - identField f 0x10 8)) / 2 →
    ∃ u : State, exec (.timeFrameReceive p t4) s = .next u.pumpAll ∧ (u.port p).timeT1 = none ∧
      u.lnk.offset = offsetField (theta8 / 8) ∧ u.lnk.locked = decide (theta8.natAbs ≤ 8000) ∧
      u.lnk.depth = BitVec.ofNat 8 (identField f 0x18 8 + 1) ∧
      (0 ≤ theta8 → theta8.natAbs ≤ 8000 → u.time = s.time + BitVec.ofNat 64 (min 50 (theta8 / 8).toNat)) ∧
      (0 ≤ theta8 → 8000 < theta8.natAbs → u.time = s.time + BitVec.ofNat 64 (theta8 / 8).toNat ∧ (u.port p).syncOpen = false) ∧
      (theta8 < 0 → u.time = s.time) ∧ portsSameBut s u p ∧
      u = { s with ports := u.ports, lnk := u.lnk, time := u.time })

/-- A request while an epoch is in progress is counted and changes no epoch. Where nothing differs the status says RESULT 6.
Before start step 3 the request waits; from then on it begins: every changed row that does not join the epoch has its
reject bit, and nothing is applied yet. A drained local epoch is released at once; a device of a chain arrives with the
value of its validation. A local epoch that times out ends with RESULT 3 and applies nothing. A released local epoch gives
the applied copy exactly its rows and ends with RESULT 1, or 2 with rejects. -/
def Obligations.EpochsRun : Prop :=
  (∀ (w : Word64) (s : State), s.epoch.active = true → bitAt w.toNat 31 = true →
    ∃ t : State, exec (.epochRequest w) s = .next t ∧ t = { s with glb := t.glb, ctr := t.ctr } ∧
      t.ctrGet 0x118 = s.ctrGet 0x118 + 1 ∧ countersSameBut s t 0x118 ∧ t.glb.epState = s.glb.epState ∧
      t.glb.epNumber = BitVec.ofNat 32 (bits w.toNat 63 32)) ∧
  (∀ (w : Word64) (s : State), s.epoch.active = false → bitAt w.toNat 31 = true → bitAt w.toNat 29 = false →
    s.staged.changed s.applied = [] →
    ∃ t : State, exec (.epochRequest w) s = .next t ∧ t = { s with glb := t.glb } ∧ t.glb.epResult = 6 ∧ t.glb.epState = 0 ∧
      t.glb.lastNumber = BitVec.ofNat 32 (bits w.toNat 63 32)) ∧
  (∀ (w : Word64) (s : State), s.epoch.active = false → bitAt w.toNat 31 = true → s.staged.changed s.applied ≠ [] →
    s.glb.step.toNat < 3 →
    ∃ t : State, exec (.epochRequest w) s = .next t ∧ t = { s with glb := t.glb, epoch := t.epoch } ∧
      t.epoch = { s.epoch with active := true, waiting := true, snap := s.staged, chain := bitAt w.toNat 30
                               number := BitVec.ofNat 32 (bits w.toNat 63 32) }) ∧
  (∀ (w : Word64) (s : State), s.epoch.active = false → bitAt w.toNat 31 = true → s.staged.changed s.applied ≠ [] →
    3 ≤ s.glb.step.toNat →
    ∃ t : State, exec (.epochRequest w) s = .next t ∧
      t = { s with glb := t.glb, epoch := t.epoch, kvm := t.kvm, rings := t.rings } ∧
      t.epoch.active = true ∧ t.epoch.waiting = false ∧ t.epoch.snap = s.staged ∧ t.glb.epState = 1 ∧
      (∀ r ∈ t.epoch.rows, r ∈ s.staged.changed s.applied) ∧
      (∀ r ∈ s.staged.changed s.applied, r ∈ t.epoch.rows ∨ t.epoch.rej.getLsbD r = true)) ∧
  (∀ s : State, s.epoch.active = true → s.epoch.waiting = false → s.glb.epState = 1 → s.drained = true → s.epoch.chain = false →
    exec .epochDrainDone s
      = .next { s with glb := { s.glb with epState := 3 }, epoch := { s.epoch with decided := some true } }) ∧
  (∀ (p : Nat) (s : State), s.epoch.active = true → s.epoch.waiting = false → s.glb.epState = 1 → s.drained = true →
    s.epoch.chain = true → p ∈ s.childPorts → Tbl.find s.epoch.wave.inputs p = none →
    exec .epochDrainDone s
      = .next { s with glb := { s.glb with epState := 2 }
                       epoch := { s.epoch with wave := { s.epoch.wave with
                         own := some (decide (s.epoch.rej ≠ 0), s.epoch.number.toNat) } } }) ∧
  (∀ s : State, s.epoch.active = true → s.epoch.waiting = false → s.glb.epState = 1 → s.epoch.chain = false →
    ∃ u : State, exec .epochTimeout s = .next u.issueAll.pumpAll ∧ u.glb.epResult = 3 ∧ u.glb.epState = 0 ∧
      u.glb.lastNumber = s.epoch.number ∧ u.epoch.active = false ∧ u.applied = s.applied ∧ u.staged = s.staged ∧
      u.rings = s.resumeRings.rings) ∧
  (∀ s : State, s.epoch.active = true → s.epoch.applied = false → s.epoch.chain = false → s.epoch.decided = some true →
    4 ∉ s.epoch.rows →
    ∃ u : State, exec .epochApply s = .next u.issueAll.pumpAll ∧ u.applied = (s.withRows s.epoch.rows).applied ∧
      u.glb.epResult = (if s.epoch.rej = 0 then 1 else 2) ∧ u.glb.epState = 0 ∧ u.epoch.active = false ∧ u.staged = s.staged)

/-- With another child's arrival missing, an arrival of a child in the present generation of object 0 or 1 leaves the inbox and is
held under its port. A release from the parent gives the waiting step owner's wave its outcome, and decides a
chain epoch: it is applied where neither the value nor MISMATCH is set. A root that has waited releases object 1 with value
1, which discards the epoch. The commit wave ends the epoch: RESULT 4 where it is discarded, and otherwise 1, or 2 with
rejects. -/
def Obligations.SyncTreeGathersAndReleases : Prop :=
  (∀ (p j : Nat) (f : Frame) (s : State), s.nextSync p 0 = some f → (parseSync f.arg).object = 0 →
    (parseSync f.arg).gen = s.lnk.wave0.gen → s.lnk.wave0.released = none → j ∈ s.childPorts → j ≠ p →
    Tbl.find s.lnk.wave0.inputs j = none →
    ∃ t : State, exec (.syncUp p) s = .next t ∧ t.lnk.inbox = s.lnk.inbox.erase (p, f) ∧
      Tbl.find t.lnk.wave0.inputs p
        = some ((parseSync f.arg).value, (parseSync f.arg).step, (parseSync f.arg).mismatch) ∧
      (∀ q, q ≠ p → Tbl.find t.lnk.wave0.inputs q = Tbl.find s.lnk.wave0.inputs q) ∧
      t = { s with ports := t.ports, lnk := t.lnk } ∧
      t.lnk = { s.lnk with inbox := t.lnk.inbox, wave0 := t.lnk.wave0 } ∧
      t.lnk.wave0 = { s.lnk.wave0 with inputs := t.lnk.wave0.inputs }) ∧
  (∀ (p j : Nat) (f : Frame) (s : State), s.nextSync p 0 = some f → (parseSync f.arg).object = 1 →
    (parseSync f.arg).gen = s.epoch.wave.gen → s.epoch.wave.released = none → j ∈ s.childPorts → j ≠ p →
    Tbl.find s.epoch.wave.inputs j = none →
    ∃ t : State, exec (.syncUp p) s = .next t ∧ t.lnk = { s.lnk with inbox := s.lnk.inbox.erase (p, f) } ∧
      Tbl.find t.epoch.wave.inputs p
        = some ((parseSync f.arg).value, (parseSync f.arg).step, (parseSync f.arg).mismatch) ∧
      (∀ q, q ≠ p → Tbl.find t.epoch.wave.inputs q = Tbl.find s.epoch.wave.inputs q) ∧
      t = { s with ports := t.ports, lnk := t.lnk, epoch := { s.epoch with wave := { s.epoch.wave with inputs := t.epoch.wave.inputs } } }) ∧
  (∀ (p o : Nat) (f : Frame) (s : State), s.nextSync p 1 = some f → (parseSync f.arg).object = 0 →
    (parseSync f.arg).gen = s.lnk.wave0.gen → s.lnk.wave0.released = none → s.waveOwner = some o →
    ∃ t : State, exec (.syncDown p) s = .next t ∧
      t.lnk.wave0 = { s.lnk.wave0 with released := some ((parseSync f.arg).value, (parseSync f.arg).mismatch) } ∧
      t.steps = s.steps ∧ t.rings = s.rings ∧ t.epoch = s.epoch) ∧
  (∀ (p : Nat) (f : Frame) (s : State), s.nextSync p 1 = some f → (parseSync f.arg).object = 1 →
    (parseSync f.arg).gen = s.epoch.wave.gen → s.epoch.wave.released = none → s.chainEpoch = true → s.epoch.decided = none →
    ∃ u : State, exec (.syncDown p) s = .next u.stepWave1 ∧
      u.epoch.decided = some (!(parseSync f.arg).value && !(parseSync f.arg).mismatch) ∧ u.glb.epState = 3 ∧
      u.epoch.wave.gen = !s.epoch.wave.gen ∧ u.applied = s.applied) ∧
  (∀ s : State, s.applied.syncRoot = true → s.epoch.wave.own.isSome = true ∨ s.epoch.wave.inputs ≠ [] →
    s.epoch.wave.released = none → s.chainEpoch = true → s.epoch.decided = none →
    ∃ u : State, exec (.rootWaveTimeout 1) s = .next u.stepWave1 ∧ u.epoch.decided = some false ∧ u.glb.epState = 3 ∧
      u.epoch.wave.gen = !s.epoch.wave.gen ∧ u.applied = s.applied) ∧
  (∀ (go : Bool) (o : Bool × Bool) (s : State), s.epoch.decided = some go → s.epoch.wave.released = some o →
    s.chainEpoch = true → s.epoch.applied = true → s.inReset = false → 8 ∉ s.epoch.rows →
    ∃ u : State, exec .epochCommit s = .next u.issueAll.pumpAll.stepWave1 ∧ u.applied = s.applied ∧ u.epoch.active = false ∧
      u.glb.epState = 0 ∧ u.glb.lastNumber = s.epoch.number ∧ u.epoch.wave.gen = !s.epoch.wave.gen ∧
      u.glb.epResult = (if go then (if s.epoch.rej = 0 then 1 else 2) else 4))

/-- PWR_BRAKE_N and the end of a link hold change nothing else. The sharing of a cap gives away exactly the cap less VAUX
and 2 %. An estimate forms the classes' powers from the counts, shares the cap out where no
link hold stands, and the live engine limit is at most the register's limit, 32,768 and what the rail carries. Calibration keeps each class's weight within 25 % of the factory's where it has energy, and CAL_OK after ten
good intervals. A path resistance joins the filter; a filtered value above its baseline raises the domain's derating with an
event. -/
def Obligations.PowerIsShared : Prop :=
  (∀ (b : Bool) (s : State), exec (.brakeAssert b) s
    = .next { s with pwr := { s.pwr with brake := b }, pins := { s.pins with brake := b } }) ∧
  (∀ s : State, exec .linkHoldEnd s
    = .next { s with pwr := { s.pwr with linkHold := false, holdColls := [], holdAlloc := 0 } }) ∧
  (∀ (cap vaux prio : Nat) (d : Demand), (sharing cap vaux prio d).2 = (cap * 1000 : Nat) - (vaux : Int) - (cap * 20 : Nat) ∧
    (sharing cap vaux prio d).1.1 + (sharing cap vaux prio d).1.2.1 + (sharing cap vaux prio d).1.2.2 = (sharing cap vaux prio d).2) ∧
  (∀ (x : PowerInput) (s : State), ∃ t : State, exec (.powerEstimate x) s = .next t ∧
    t = { s with pwr := t.pwr, thm := t.thm, doms := t.doms, cores := t.cores, vaults := t.vaults, engines := t.engines, ctr := t.ctr } ∧
    (x.held = [] → t.ctr = s.ctr) ∧ t.pwr.estLink = (s.estimate x).link ∧ t.pwr.estMemory = (s.estimate x).memory ∧
    t.pwr.estCompute = (s.estimate x).compute ∧ t.pwr.estVaux = x.vaux ∧ t.pwr.demLink = x.demLink ∧
    (s.pwr.linkHold = false → ∃ r : Int × Int × Int,
      r = (sharing s.pwr.capEff x.vaux s.pwr.prio.toNat (s.demand x (s.estimate x))).1 ∧
      t.pwr.allocLink = r.1.toNat ∧ t.pwr.allocMemory = r.2.1.toNat ∧ t.pwr.allocCompute = r.2.2.toNat) ∧
    t.pwr.budget = ((s.pwr.capEff * 1000 : Nat) - (x.vaux : Int) - (s.pwr.capEff * 20 : Nat)).toNat ∧
    t.pwr.live.toNat ≤ s.pwr.limit.toNat ∧ t.pwr.live.toNat ≤ 32768 ∧ t.pwr.live.toNat ≤ railEngines (s.estimate x).vddBase) ∧
  (∀ (e m : List Nat) (s : State), ∃ t : State, exec (.weightCalibration e m) s = .next t ∧
    t = { s with pwr := { s.pwr with weights := t.pwr.weights, calRuns := t.pwr.calRuns, calOk := t.pwr.calOk } } ∧
    (∀ i, i < 3 → e.getD i 0 ≠ 0 → 750000 ≤ t.pwr.weights.getD i 0 ∧ t.pwr.weights.getD i 0 ≤ 1250000) ∧
    (t.pwr.calOk = true ↔ s.pwr.calOk = true ∨ 9 ≤ s.pwr.calRuns ∧
      ∀ i, i < 3 → 50 * (max (e.getD i 0) (m.getD i 0) - min (e.getD i 0) (m.getD i 0)) ≤ m.getD i 0)) ∧
  (∀ (d r ma : Nat) (t8 : Int) (s : State), 4 * ma < domMaxMa d ∨ (s.dom d).power = 3 →
    exec (.pathResistanceCheck d r ma t8) s = .next s) ∧
  (∀ (d r ma : Nat) (t8 : Int) (s : State), domMaxMa d ≤ 4 * ma → (s.dom d).power ≠ 3 → (s.dom d).pathSum.length < 999 →
    exec (.pathResistanceCheck d r ma t8) s
      = .next (s.setDom d { s.dom d with pathSum := at60 r t8 :: (s.dom d).pathSum })) ∧
  (∀ (d r ma f k : Nat) (t8 : Int) (s : State), domMaxMa d ≤ 4 * ma → (s.dom d).power ≠ 3 → (s.dom d).pathSum.length = 1000 →
    f = sumOf (at60 r t8 :: (s.dom d).pathSum.take 999) / 1000 → k = pathStep (s.dom d).baseline.toNat f →
    (s.dom d).derate.toNat < k → k < 3 →
    ∃ u : State, exec (.pathResistanceCheck d r ma t8) s = .next u.issueAll ∧
      u.dom d = { s.dom d with pathSum := at60 r t8 :: (s.dom d).pathSum.take 999, filtered := BitVec.ofNat 16 f
                               derate := BitVec.ofNat 2 k } ∧ domsSameBut s u d ∧
      Tbl.get 0 u.boot.derates d = BitVec.ofNat 2 k ∧ (u.boot.events.head?).map (·.kind) = some .crackedPath ∧
      u = { s with doms := u.doms, boot := { s.boot with events := u.boot.events, derates := u.boot.derates }
                   mgt := { s.mgt with awaiting := u.mgt.awaiting } })

/-- A sample, or two in a row below no higher stage's threshold, leaves the sag stage; a second sample below a threshold
enters its stage, which is counted and reported; stage 5 also sets the reset's hold and begins a compute-only reset of a
ready device. The stage falls by one after its millisecond, and what it stopped goes on. A low VDD_DRAM acts as stage 2.
A telemetry record goes to its slot of 1,024 bytes and no other host byte changes. A regulator sample keeps the lowest
voltage with its time. -/
def Obligations.SagsAndTelemetry : Prop :=
  (∀ (mv : Nat) (s : State), min (sagLevel mv) s.pwr.sagPrev ≤ s.pwr.sagStage →
    exec (.sagSample mv) s = .next { s with pwr := { s.pwr with sagPrev := sagLevel mv, vinMv := mv } }) ∧
  (∀ (mv k : Nat) (s : State), k = min (sagLevel mv) s.pwr.sagPrev → s.pwr.sagStage < k → k < 5 →
    ∃ t : State, exec (.sagSample mv) s = .next t ∧ t.pwr = { s.pwr with sagPrev := sagLevel mv, vinMv := mv, sagStage := k } ∧
      t.ctrGet pwrSagEntries = s.ctrGet pwrSagEntries + 1 ∧ countersSameBut s t pwrSagEntries ∧
      (t.boot.events.head?).map (fun e => (e.kind, e.unit)) = some (.stateSensor, 0x5002) ∧
      t = { s with pwr := t.pwr, ctr := t.ctr, boot := { s.boot with events := t.boot.events }
                   mgt := { s.mgt with awaiting := t.mgt.awaiting } }) ∧
  (∀ (mv : Nat) (s : State), min (sagLevel mv) s.pwr.sagPrev = 5 → s.pwr.sagStage < 5 → s.glb.ready = true → s.glb.rstState = 0 →
    ∃ u : State, exec (.sagSample mv) s = .next (u.beginReset.noteSensors s) ∧ u.pwr.sagStage = 5 ∧ u.glb.holdSag = true ∧
      u = { s with pwr := u.pwr, ctr := u.ctr, glb := { s.glb with holdSag := true } }) ∧
  (∀ s : State, s.pwr.sagStage ≠ 0 → s.pwr.sagStage < 5 → sagThreshold s.pwr.sagStage + 20 ≤ s.pwr.vinMv →
    s.pwr.railStage < s.pwr.sagStage → s.glb.collapsed = false →
    exec .sagStageLeave s
      = .next (({ s with pwr := { s.pwr with sagStage := s.pwr.sagStage - 1 } }).resumeStopped.noteSensors s)) ∧
  (∀ s : State, s.pwr.vinMv < sagThreshold s.pwr.sagStage + 20 ∨ s.pwr.sagStage ≤ s.pwr.railStage →
    exec .sagStageLeave s = .next s) ∧
  (∀ (vdd vpp : Nat) (s : State), 1040 ≤ vdd → 1700 ≤ vpp →
    exec (.dramRailLow vdd vpp) s = .next { s with pwr := { s.pwr with railStage := 0 } }) ∧
  (∀ (vdd vpp : Nat) (s : State), 1000 ≤ vdd → vdd < 1040 → 1700 ≤ vpp → s.pwr.sagStage < 2 →
    ∃ t : State, exec (.dramRailLow vdd vpp) s = .next t ∧ t.pwr = { s.pwr with railStage := 2, sagStage := 2 } ∧
      t.rings = s.rings ∧ t.dram = s.dram ∧ t.glb = s.glb) ∧
  (∀ (x : TelemetryInput) (s : State), s.pwr.tlmEn = true →
    ∃ t : State, exec (.telemetryRecord x) s = .next t ∧ t = { s with host := t.host, pwr := { s.pwr with tlmSeq := s.pwr.tlmSeq + 1 } } ∧
      Cells.readRange t.host.cells (s.pwr.tlmBase.toNat * 4096 + 1024 * (s.pwr.tlmSeq % 2 ^ s.pwr.tlmK)) 1024
        = s.tlmRecord (s.pwr.tlmSeq + 1) x ∧
      hostSameOutside s t (s.pwr.tlmBase.toNat * 4096 + 1024 * (s.pwr.tlmSeq % 2 ^ s.pwr.tlmK)) 1024) ∧
  (∀ (x : TelemetryInput) (s : State), s.pwr.tlmEn = false → exec (.telemetryRecord x) s = .next s) ∧
  (∀ (d mv ma : Nat) (s : State),
    ∃ t : State, exec (.regulatorSample d mv ma) s = .next t ∧ t = { s with doms := t.doms } ∧ domsSameBut s t d ∧
      (t.dom d).meanMa = ma ∧ (∀ m, (t.dom d).minMv = some m → m ≤ mv) ∧
      (∀ m, (s.dom d).minMv = some m → (t.dom d).minMv = some (min m mv) ∧
        (t.dom d).minTime = (if mv < m then s.time else (s.dom d).minTime)) ∧
      ((s.dom d).minMv = none → (t.dom d).minMv = some mv ∧ (t.dom d).minTime = s.time))

/-- A failed phase is noted, reported and put on the defect list. When its regulator fails a core moves to its group
neighbour, whose clock is stretched, and another domain to VBYP while that stands; without a supply the domain goes dark.
When the new supply is in, the domain is bridged or bypassed at 750 mV and its clock restarts; when the switch fails it is
dark. A droop of more than 40 mV stretches the clock of an island that the domain's detectors watch by 25 %, of more than
70 mV by 50 %, and its cycles are counted, which is all that a fabric domain's does; the end of the droop ends the stretch. -/
def Obligations.RegulatorsFailAndBridge : Prop :=
  (∀ (d ph : Nat) (s : State), ph ∉ (s.dom d).failed → (s.dom d).power ≠ 3 →
    ∃ t : State, exec (.phaseFail d ph) s = .next t ∧ domsSameBut s t d ∧
      t.dom d = { s.dom d with failed := insSet ph (s.dom d).failed, spare := (s.dom d).spare || s.spareFree d
                               phases := BitVec.ofNat 4 (insSet ph (s.dom d).failed).length } ∧
      (t.boot.events.head?).map (·.kind) = some .regulator ∧
      (t.mgt.findings.getLast?).map (·.defect) = some { kind := 9, unit := d, sub := ph, sub2 := 0 } ∧
      t = { s with doms := t.doms, boot := { s.boot with events := t.boot.events }
                   mgt := { s.mgt with awaiting := t.mgt.awaiting, findings := t.mgt.findings } }) ∧
  (∀ (d : Nat) (s : State), d < 256 → (s.dom d).power ≠ 3 → (s.dom d).regOk = true → s.mayBridge (groupSide d) = true →
    ∃ u : State, exec (.regulatorFail d) s = .next u.issueAll ∧ u = { s with doms := u.doms } ∧
      u.dom d = { s.dom d with regOk := false, switching := some (groupSide d) } ∧ domsSameBut s u d ∧
      4 ≤ u.clockStretch (groupSide d)) ∧
  (∀ (d : Nat) (s : State), 256 ≤ d → (s.dom d).power ≠ 3 → (s.dom d).regOk = true → s.bypassAdmits d = true →
    ∃ u : State, exec (.regulatorFail d) s = .next u.issueAll ∧ u = { s with doms := u.doms } ∧
      u.dom d = { s.dom d with regOk := false, switching := some 0x1FF } ∧ domsSameBut s u d) ∧
  (∀ (d : Nat) (s : State), 256 ≤ d → (s.dom d).power ≠ 3 → (s.dom d).regOk = true → s.bypassAdmits d = false →
    ∃ u : State, exec (.regulatorFail d) s = .next u.issueAll ∧ (u.dom d).power = 3 ∧ domsSameBut s u d ∧
      (u.boot.events.head?).map (·.kind) = some .regulator ∧
      (u.mgt.findings.getLast?).map (·.defect) = some { kind := 10, unit := d, sub := 0, sub2 := 0 }) ∧
  (∀ (d p : Nat) (s : State), (s.dom d).switching = some p → p < 256 →
    ∃ t : State, exec (.bridgeComplete d) s = .next t ∧ domsSameBut s t d ∧
      t.dom d = { s.dom d with switching := none, bridge := BitVec.ofNat 9 p, vset := (s.dom p).vset } ∧
      (t.boot.events.head?).map (fun e => (e.kind, e.unit)) = some (.regulator, d) ∧
      t = { s with doms := t.doms, boot := { s.boot with events := t.boot.events }
                   mgt := { s.mgt with awaiting := t.mgt.awaiting } }) ∧
  (∀ (d p : Nat) (s : State), (s.dom d).switching = some p → 256 ≤ p →
    ∃ t : State, exec (.bridgeComplete d) s = .next t ∧ domsSameBut s t d ∧
      t.dom d = { s.dom d with switching := none, bypass := true, vset := 750 } ∧
      (t.boot.events.head?).map (fun e => (e.kind, e.unit)) = some (.regulator, d) ∧
      t = { s with doms := t.doms, boot := { s.boot with events := t.boot.events }
                   mgt := { s.mgt with awaiting := t.mgt.awaiting } }) ∧
  (∀ (d p : Nat) (s : State), (s.dom d).switching = some p → 256 ≤ d →
    ∃ u : State, exec (.domainDark d) s = .next u.issueAll ∧ (u.dom d).power = 3 ∧ (u.dom d).switching = none ∧ domsSameBut s u d) ∧
  (∀ (d i mv n : Nat) (s : State), mv ≤ 40 → exec (.droopDetect d ⟨i, mv⟩ n) s = .next s) ∧
  (∀ (d i mv n : Nat) (s : State), 40 < mv → watches d i = true →
    ∃ t : State, exec (.droopDetect d ⟨i, mv⟩ n) s = .next t ∧ t = { s with cores := t.cores, doms := t.doms, ctr := t.ctr } ∧
      t.core i = { s.core i with stretch := if 70 < mv then 50 else max (s.core i).stretch 25 } ∧ coresSameBut s t i ∧
      t.dom d = { s.dom d with stretchAt := some s.time } ∧ domsSameBut s t d ∧
      t.ctrGet (pwrDom d (if 70 < mv then 0x18 else 0x10)) = s.ctrGet (pwrDom d (if 70 < mv then 0x18 else 0x10)) + BitVec.ofNat 64 n ∧
      countersSameBut s t (pwrDom d (if 70 < mv then 0x18 else 0x10))) ∧
  (∀ (d i mv n : Nat) (s : State), 40 < mv → watches d i = false →
    ∃ t : State, exec (.droopDetect d ⟨i, mv⟩ n) s = .next t ∧ t = { s with ctr := t.ctr } ∧
      t.ctrGet (pwrDom d (if 70 < mv then 0x18 else 0x10)) = s.ctrGet (pwrDom d (if 70 < mv then 0x18 else 0x10)) + BitVec.ofNat 64 n ∧
      countersSameBut s t (pwrDom d (if 70 < mv then 0x18 else 0x10))) ∧
  (∀ (n : Nat) (s : State), (s.core n).stretch = 0 → exec (.droopRecover n) s = .next s) ∧
  (∀ (n : Nat) (s : State), (s.core n).stretch ≠ 0 →
    ∃ t : State, exec (.droopRecover n) s = .next t ∧ t = { s with cores := t.cores, doms := t.doms } ∧
      t.core n = { s.core n with stretch := 0 } ∧ coresSameBut s t n ∧
      (∀ d, d ≠ n → d ≠ playaDomain n → t.dom d = s.dom d) ∧
      ((s.dom n).stretchAt.isSome = true → (t.dom n).stretchAt = some s.time))

/-- An idle core without a loaded image is powered off when gating is on. A request joins the queue once, after the core's
Playa domain where that is off; the oldest grantable one takes one of eight tokens and, without an active guard, starts
its ramp, and otherwise waits and is counted. When the wait ends the ramp starts, the neighbours that still guard being
pre-throttled, and each stage but the fourth takes it one further; after the fourth the
domain is on and its token returned. A woken core has the standard kernel in both halves. -/
def Obligations.DomainsSleepAndWake : Prop :=
  (∀ (n : Nat) (s : State), s.pwr.gateEn = true → (s.dom n).power = 2 → (s.core n).qMain = [] → (s.core n).qParen = [] →
    (s.core n).imgMain = .standard → (s.core n).imgParen = .standard →
    ∃ t : State, exec (.idlePowerOff n) s = .next t ∧ t = { s with doms := t.doms, cores := t.cores } ∧
      t.dom n = { s.dom n with power := 0 } ∧ domsSameBut s t n ∧
      t.core n = { s.core n with imgMain := .empty, imgParen := .empty, run := 0, spilled := [] } ∧ coresSameBut s t n) ∧
  (∀ (n : Nat) (s : State), s.pwr.gateEn = false → exec (.idlePowerOff n) s = .next s) ∧
  (∀ (d : Nat) (s : State), d < 256 → s.domCovered d = true → s.glb.ready = true → s.glb.rstState = 0 →
    (s.dom d).power = 0 → d ∉ s.pwr.wakes → d ∉ s.pwr.tokens → (s.dom (playaDomain d)).power ≠ 0 →
    exec (.wakeRequest d) s = .next { s with pwr := { s.pwr with wakes := s.pwr.wakes ++ [d] } }) ∧
  (∀ (d : Nat) (rest : List Nat) (s : State), s.pwr.tokens.length < 8 → s.pwr.wakes = d :: rest → d ∉ rest →
    s.grantable d = true → s.guards d = [] →
    ∃ t : State, exec (.wakeTokenGrant d) s = .next t ∧ t.pwr = { s.pwr with wakes := rest, tokens := s.pwr.tokens ++ [d] } ∧
      t.dom d = { s.dom d with power := 1, ramp := 1 } ∧ domsSameBut s t d ∧ t = { s with pwr := t.pwr, doms := t.doms }) ∧
  (∀ (d : Nat) (rest : List Nat) (s : State), s.pwr.tokens.length < 8 → s.pwr.wakes = d :: rest → d ∉ rest →
    s.grantable d = true → s.guards d ≠ [] →
    ∃ t : State, exec (.wakeTokenGrant d) s = .next t ∧ t.pwr = { s.pwr with wakes := rest, tokens := s.pwr.tokens ++ [d] } ∧
      t.ctrGet pwrWakeWaits = s.ctrGet pwrWakeWaits + 1 ∧ countersSameBut s t pwrWakeWaits ∧ t = { s with pwr := t.pwr, ctr := t.ctr }) ∧
  (∀ (d : Nat) (s : State), 8 ≤ s.pwr.tokens.length → exec (.wakeTokenGrant d) s = .next s) ∧
  (∀ (d : Nat) (s : State), d ∈ s.pwr.tokens → (s.dom d).ramp = 0 → (s.dom d).power = 0 → s.guards d = [] →
    exec (.wakeWaitEnd d false) s = .next (s.setDom d { s.dom d with power := 1, ramp := 1 })) ∧
  (∀ (d : Nat) (s : State), d ∈ s.pwr.tokens → (s.dom d).ramp = 0 → (s.dom d).power = 0 → s.guards d ≠ [] →
    ∃ t : State, exec (.wakeWaitEnd d true) s = .next t ∧ t = { s with doms := t.doms, ctr := t.ctr } ∧
      t.dom d = { s.dom d with power := 1, ramp := 1, throttled := s.guards d } ∧ domsSameBut s t d ∧
      t.ctrGet pwrPrethrottle = s.ctrGet pwrPrethrottle + 1 ∧ countersSameBut s t pwrPrethrottle) ∧
  (∀ (d : Nat) (s : State), (s.dom d).power = 1 → (s.dom d).ramp < 4 →
    exec (.rampStage d) s = .next (s.setDom d { s.dom d with ramp := (s.dom d).ramp + 1 })) ∧
  (∀ (d : Nat) (s : State), (s.dom d).power = 1 → 4 ≤ (s.dom d).ramp →
    ∃ t : State, exec (.rampStage d) s = .next t ∧ t.dom d = { s.dom d with power := 2, ramp := 0, throttled := [] } ∧
      t.pwr = { s.pwr with tokens := delSet d s.pwr.tokens } ∧ t.ctrGet pwrWakes = s.ctrGet pwrWakes + 1 ∧
      countersSameBut s t pwrWakes ∧ t = { s with doms := t.doms, pwr := t.pwr, ctr := t.ctr }) ∧
  (∀ (n : Nat) (s : State), n < 256 → (s.dom n).power = 2 → s.glb.kstoreOk = true → (s.core n).mappedOut = false →
    (s.core n).imgMain = .empty → (s.core n).imgParen = .empty →
    ∃ t : State, exec (.wakeComplete n) s = .next t ∧ t = { s with cores := t.cores } ∧ coresSameBut s t n ∧
      (t.core n).imgMain = .standard ∧ (t.core n).imgParen = .standard ∧ ((t.core n).tuneOf 0).1 = (s.dom n).vset.toNat ∧
      (t.core n).qMain = (s.core n).qMain ∧ (t.core n).qParen = (s.core n).qParen)

/-- A conversion within the thresholds joins the last 25 of its sensor and their mean and changes nothing else; a failed
sensor takes none. An Erg conversion above 105 °C sets its core to 1.0 GHz and D 16, and is latched, counted and reported;
it clears once the reading is 5 °C below. Above the trip threshold the device trips: THERMTRIP_N, and DRAM in self-refresh
with every debt at 0. An evaluation predicts and corrects the nodes, forms the forecast peaks
from them and the hints of the queued clauses, and is counted. A checkpoint saves the bond wear. -/
def Obligations.SensorsActAndTrip : Prop :=
  (∀ (k : Nat) (x : Int) (s : State), (s.sensor k).state = 3 → exec (.sensorConversion k x) s = .next s) ∧
  (∀ (k : Nat) (x : Int) (s : State), (s.sensor k).state = 0 → s.sensorOffset k = 0 →
    (∀ e, emergAt (sensorTier k) = some e → x ≤ e) → (∀ e, tripAt (sensorTier k) = some e → x ≤ e) →
    ∃ t : State, exec (.sensorConversion k x) s = .next t ∧ t = { s with thm := { s.thm with sensors := t.thm.sensors } } ∧
      t.sensor k = { s.sensor k with recent := (x :: (s.sensor k).recent).take 25, mean := (t.sensor k).mean } ∧
      (t.sensor k).mean = (t.sensor k).recent.foldl (· + ·) 0 / ((t.sensor k).recent.length : Int) ∧
      (∀ j, j ≠ k → t.sensor j = s.sensor j)) ∧
  (∀ (k : Nat) (x : Int) (s : State), k < 512 → (s.sensor k).state = 0 → (s.sensor k).emerg = false → s.sensorOffset k = 0 →
    840 < x → x ≤ 880 →
    ∃ t : State, exec (.sensorConversion k x) s = .next t ∧ (t.sensor k).emerg = true ∧ t.thm.emerg = true ∧
      (t.island (k / 2)).ceilMhz = 1000 ∧ (t.island (k / 2)).duty = 16 ∧ (∀ n, n ≠ k / 2 → t.island n = s.island n) ∧
      t.ctrGet thmEmergencies = s.ctrGet thmEmergencies + 1 ∧ countersSameBut s t thmEmergencies ∧
      (∃ e ∈ t.boot.events, e.kind = .thermalEmergency ∧ e.unit = k) ∧
      t = { s with thm := t.thm, ctr := t.ctr, boot := { s.boot with events := t.boot.events }
                   mgt := { s.mgt with awaiting := t.mgt.awaiting } }) ∧
  (∀ (k : Nat) (e : Int) (s : State), (s.sensor k).emerg = true → emergAt (sensorTier k) = some e → s.watched k ≤ e - 40 →
    ∃ t : State, exec (.emergencyClear k) s = .next t ∧ t.sensor k = { s.sensor k with emerg := false } ∧
      (∀ j, j ≠ k → t.sensor j = s.sensor j) ∧ (t.thm.emerg = true ↔ ∃ y ∈ t.thm.sensors, y.2.emerg = true)) ∧
  (∀ (k : Nat) (e : Int) (s : State), (s.sensor k).emerg = true → emergAt (sensorTier k) = some e → e - 40 < s.watched k →
    exec (.emergencyClear k) s = .next s) ∧
  (∀ (k : Nat) (x e : Int) (s : State), (s.sensor k).state = 0 → tripAt (sensorTier k) = some e → e < x → s.thm.trip = false →
    ∃ t : State, exec (.thermalTrip k false x) s = .next t ∧ t.thm.trip = true ∧ t.pins.thermtrip = true ∧ t.selfRef = true ∧
      (∀ n d, (t.tier n d).debt = 0 ∧ (t.tier n d).refreshing = false) ∧ (∃ v ∈ t.boot.events, v.kind = .trip) ∧
      t = { s with thm := { s.thm with trip := true }, pins := { s.pins with thermtrip := true }, selfRef := true, tiers := t.tiers
                   boot := { s.boot with events := t.boot.events }, mgt := { s.mgt with awaiting := t.mgt.awaiting } }) ∧
  (∀ (power : List (Nat × Nat)) (s : State), ∃ t : State, exec (.thermalEvaluation power) s = .next t ∧
    t = { s with thm := t.thm, tiers := t.tiers, cores := t.cores, bond := t.bond, boot := t.boot, ctr := t.ctr, vaults := t.vaults
                 engines := t.engines, selfRef := t.selfRef, pins := t.pins, mgt := { s.mgt with awaiting := t.mgt.awaiting } } ∧
    t.thm.evals = s.thm.evals + 1 ∧ t.ctrGet thmEvals = s.ctrGet thmEvals + 1 ∧
    t.thm.nodes = (s.evaluateModel power).thm.nodes ∧ t.thm.peaks = (s.evaluateModel power).forecast power) ∧
  (∀ s : State, exec .bondCheckpoint s = .next { s with boot := { s.boot with
    bondCounts := s.bond.counts, bondResidue := s.bond.residue, bondLast := s.bond.last } })

/-- A checked band of the residual check takes its Q_meas and residual in whole watts; where none is checked only
the windows begin anew. A
poll, while the tray bus is enabled, takes its readings and P_FLOW follows the flow; stale readings do too. A loss of flow
sets FLOW_STATE 2 and puts DRAM in self-refresh, and after 100 ms asks for power off. Flow restored at 60 % ends the loss,
and what it stopped goes on. -/
def Obligations.CoolantIsWatched : Prop :=
  (∀ s : State, s.thm.evals % 8 = 0 → (∀ k b, s.wadiWindow k = some b → s.wadiChecked b = false) →
    exec (.wadiResidualCheck s.thm.evals) s = .next { s with thm := { s.thm with window := [] } }) ∧
  (∀ (k : Nat) (b : WadiBand) (s : State), k < 16 → s.wadiWindow k = some b → s.wadiChecked b = true →
    (∀ j, j < 16 → j ≠ k → s.wadiWindow j = none) → s.thm.evals % 8 = 0 →
    ∃ t : State, exec (.wadiResidualCheck s.thm.evals) s = .next t ∧
      t = { s with thm := { s.thm with wadi := t.thm.wadi, sensors := t.thm.sensors, marked := t.thm.marked, quotas := t.thm.quotas, window := [] }
                   boot := { s.boot with events := t.boot.events }, mgt := { s.mgt with awaiting := t.mgt.awaiting } } ∧
      (Tbl.get WadiSt.reset t.thm.wadi k).qMeas = (watts (s.thm.qMeas b.layer (b.tout - b.tin))).toNat ∧
      (Tbl.get WadiSt.reset t.thm.wadi k).resid = watts (s.thm.qMeas b.layer (b.tout - b.tin) - b.qModel)) ∧
  (∀ (r : TrayReading) (s : State), s.thm.trayEn = false → exec (.traySensorPoll r) s = .next s) ∧
  (∀ (inlet outlet : Int) (f : Nat) (s : State), s.thm.trayEn = true →
    ∃ t : State, exec (.traySensorPoll { inlet := some inlet, outlet := some outlet, flow := some f }) s = .next t ∧
      t.thm.flows = (f :: s.thm.flows).take 10 ∧ t.thm.flow = sumOf t.thm.flows / t.thm.flows.length ∧
      t.thm.inlet = inlet / 16 ∧ t.thm.outlet = outlet / 16 ∧ t.thm.flowStale = false ∧ t.thm.inletStale = false ∧
      t.thm.pFlow = BitVec.ofNat 12 t.thm.flowPower ∧
      t = { s with thm := t.thm, boot := { s.boot with events := t.boot.events }, mgt := { s.mgt with awaiting := t.mgt.awaiting } }) ∧
  (∀ (s : State), s.thm.trayEn = true →
    ∃ t : State, exec (.trayReadingStale true) s = .next t ∧ t.thm.flowStale = true ∧ t.thm.inletStale = s.thm.inletStale ∧
      t.thm.flowNow = 60 * s.thm.flowNom.toNat / 100 ∧ t.thm.pFlow = BitVec.ofNat 12 t.thm.flowPower ∧
      (∃ e ∈ t.boot.events, e.kind = .tray)) ∧
  (∀ (s : State), s.thm.flowState.toNat < 2 →
    ∃ t : State, exec .flowLost s = .next t ∧ t.thm.flowState = 2 ∧ t.thm.lostPin = true ∧ t.pins.flowLost = true ∧
      t.selfRef = true ∧ (∃ e ∈ t.boot.events, e.kind = .flow) ∧
      t = { s with thm := t.thm, pins := t.pins, selfRef := true, tiers := t.tiers
                   boot := { s.boot with events := t.boot.events }, mgt := { s.mgt with awaiting := t.mgt.awaiting } }) ∧
  (∀ (s : State), s.thm.flowState.toNat < 2 → 5 * s.thm.flowNow < s.thm.flowNom.toNat →
    ∃ t : State, exec .lowFlowTimeout s = .next t ∧ t.thm.flowState = 2 ∧ t.thm.lostLow = true ∧ t.selfRef = true ∧
      t.pins = s.pins ∧ t.rings = s.rings) ∧
  (∀ (s : State), s.thm.flowNom.toNat ≤ 5 * s.thm.flowNow → exec .lowFlowTimeout s = .next s) ∧
  (∀ (s : State), s.thm.flowState = 2 →
    ∃ t : State, exec .flowLossTimeout s = .next t ∧ t.thm = { s.thm with flowState := 3 } ∧
      t.pins = { s.pins with pwroffReq := true } ∧
      t = { s with thm := t.thm, pins := t.pins, boot := { s.boot with events := t.boot.events }
                   mgt := { s.mgt with awaiting := t.mgt.awaiting } }) ∧
  (∀ (s : State), s.thm.flowState ≠ 2 → exec .flowLossTimeout s = .next s) ∧
  (∀ (s : State), 2 ≤ s.thm.flowState.toNat → 3 * s.thm.flowNom.toNat ≤ 5 * s.thm.flowNow → s.pwr.sagStage < 5 →
    s.thm.trip = false → s.glb.rstState = 0 → s.glb.collapsed = false →
    ∃ u : State, exec .flowRestored s = .next (u.resumeStopped.noteSensors s) ∧ u.selfRef = false ∧
      u.thm = { s.thm with lostPin := false, lostLow := false, flowState := if s.thm.pFlow.toNat < 1800 then 1 else 0 } ∧
      u.pins = { s.pins with flowLost := false, pwroffReq := false }) ∧
  (∀ (s : State), s.thm.flowState.toNat < 2 ∨ 5 * s.thm.flowNow < 3 * s.thm.flowNom.toNat →
    exec .flowRestored s = .next { s with pins := { s.pins with flowLost := false }, thm := { s.thm with lostPin := false } })

/-- A write of DBG_UNLOCK names the object and begins the check, unless one is under way. The object of device memory, where it has kind 3 and passes
every check, unlocks until its expiry; one that fails leaves the device locked with RESULT 3. The lock and the expiry end the
unlock and disarm every slot. A slot arms only while unlocked; an armed slot takes only its disarming; a slot whose count
is over is disarmed. A slot of function 5 stretches its island's clock while it is armed. -/
def Obligations.DebugUnlocksAndSlots : Prop :=
  (∀ (v : Word64) (s : State), s.dbg.result ≠ 1 → exec (.debugUnlockWrite v) s
    = .next { s with dbg := { s.dbg with result := 1, unlockDpa := bits v.toNat 37 6 * 64 } }) ∧
  (∀ (v : Word64) (s : State), s.dbg.result = 1 → exec (.debugUnlockWrite v) s = .next s) ∧
  (∀ (ed ml : Bool) (o : SignedObject) (s : State), s.dbg.result = 1 → s.objectLen s.dbg.unlockDpa ≤ 4096 →
    o = s.objectAt s.dbg.unlockDpa ed ml → s.objectOk o = true → o.kind = 3 →
    ∃ t : State, exec (.unlockCheckDone ⟨ed, ml⟩) s = .next t ∧
      t.dbg = { s.dbg with result := 2, unlocked := true, expiry := o.expiry, nonce := t.dbg.nonce } ∧
      t = { s with dbg := t.dbg, freeIdx := s.freeIdx + 1, boot := { s.boot with events := t.boot.events }
                   mgt := { s.mgt with awaiting := t.mgt.awaiting } }) ∧
  (∀ (ed ml : Bool) (o : SignedObject) (s : State), s.dbg.result = 1 → o = s.objectAt s.dbg.unlockDpa ed ml →
    s.objectOk o = false ∨ o.kind ≠ 3 ∨ 4096 < s.objectLen s.dbg.unlockDpa →
    exec (.unlockCheckDone ⟨ed, ml⟩) s = .next { s with dbg := { s.dbg with result := 3 } }) ∧
  (∀ s : State, s.dbg.unlocked = true →
    ∃ t : State, exec .debugLock s = .next t ∧ exec .unlockExpiry s = .next t ∧ t.dbg.unlocked = false ∧
      (∀ i, (t.slot i).arm = false) ∧
      t = { s with dbg := t.dbg, freeIdx := s.freeIdx + 1, boot := { s.boot with events := t.boot.events }
                   mgt := { s.mgt with awaiting := t.mgt.awaiting }, ctr := t.ctr, cores := t.cores, doms := t.doms } ∧
      ((∀ e ∈ s.dbg.slots, e.2.func ≠ 5) → t.ctr = s.ctr ∧ t.cores = s.cores ∧ t.doms = s.doms)) ∧
  (∀ s : State, s.dbg.unlocked = false → exec .debugLock s = .next s ∧ exec .unlockExpiry s = .next s) ∧
  (∀ (i : Nat) (v : Word32) (s : State), s.dbg.unlocked = true → (s.slot i).arm = false → v.getLsbD 5 = true → v.toNat % 32 ≠ 5 →
    exec (.slotArm i v) s = .next (s.setSlot i { s.slot i with func := BitVec.ofNat 5 (v.toNat % 32), arm := true })) ∧
  (∀ (i n : Nat) (v : Word32) (s : State), s.dbg.unlocked = true → (s.slot i).arm = false → v.getLsbD 5 = true → v.toNat % 32 = 5 →
    n = (s.slot i).unit.toNat → n < 256 → (s.slot i).mag = 25 ∨ (s.slot i).mag = 50 →
    ∃ t : State, exec (.slotArm i v) s = .next t ∧ t = { s with dbg := t.dbg, cores := t.cores, doms := t.doms } ∧
      t.slot i = { s.slot i with func := 5, arm := true, armedAt := s.time } ∧
      t.core n = { s.core n with stretch := max (s.core n).stretch (s.slot i).mag.toNat } ∧ coresSameBut s t n ∧
      t.dom n = { s.dom n with stretchAt := some s.time } ∧ domsSameBut s t n) ∧
  (∀ (i : Nat) (v : Word32) (s : State), (s.slot i).arm = false → v.getLsbD 5 = false →
    exec (.slotArm i v) s = .next (s.setSlot i { s.slot i with func := BitVec.ofNat 5 (v.toNat % 32) })) ∧
  (∀ (i : Nat) (v : Word32) (s : State), s.dbg.unlocked = false ∨ (s.slot i).arm = true → v.getLsbD 5 = true →
    exec (.slotArm i v) s = .next s) ∧
  (∀ (i : Nat) (v : Word32) (s : State), (s.slot i).arm = true → v.getLsbD 5 = false → (s.slot i).func ≠ 5 →
    exec (.slotArm i v) s = .next (s.setSlot i { s.slot i with arm := false, armedAt := 0 })) ∧
  (∀ (i : Nat) (s : State), (s.slot i).arm = true → (s.slot i).count ≠ 0 → (s.slot i).func ≠ 5 →
    exec (.slotCountExpiry i) s = .next (s.setSlot i { s.slot i with arm := false, count := 0, armedAt := 0 })) ∧
  (∀ (i n : Nat) (s : State), (s.slot i).arm = true → (s.slot i).count ≠ 0 → (s.slot i).func = 5 →
    n = (s.slot i).unit.toNat → n < 256 → (s.slot i).mag = 25 ∨ (s.slot i).mag = 50 →
    ∃ t : State, exec (.slotCountExpiry i) s = .next t ∧ t = { s with dbg := t.dbg, cores := t.cores, doms := t.doms, ctr := t.ctr } ∧
      t.slot i = { s.slot i with arm := false, count := 0, armedAt := 0 } ∧
      t.core n = { s.core n with stretch := 0 } ∧ coresSameBut s t n) ∧
  (∀ (i : Nat) (s : State), (s.slot i).arm = false ∨ (s.slot i).count = 0 → exec (.slotCountExpiry i) s = .next s)

/-- A start that is due counts itself and leaves step 1 with volatile state lost, in recovery when an image has no good
copy; with TRAY_RST_N low as VAUX rises it waits, and the release runs it. With firmware running and the core rails present
step 2 begins with every fabric and Hamada domain that is not dark on VBYP. The firmware's step takes
the device seed and compares the keys with the identity record. Steps 2, 3 (with the DRAM rails) and 4 lead to the next: the
ports begin to train, the lanes take their settings, the kernels are written. At the end of step 5 the device is ready with its pending records and findings in the defect list. A run-time
finding is written to the boot store in order. -/
def Obligations.StartGoesStepByStep : Prop :=
  (∀ s : State, s.glb.startDue = true → s.glb.startHeld = false → s.glb.collapsed = false →
    s.pwr.vaux = true ∨ s.pins.trayRst = false →
    ∃ t : State, exec .start s = .next t ∧ t.boot.startCount = s.boot.startCount + 1 ∧ t.glb.step = 1 ∧ t.glb.ready = false ∧
      t.glb.startDue = false ∧ t.glb.recovery = s.boot.broken ∧ t.rings = [] ∧ t.fields = [] ∧ t.dram = Dram.reset ∧
      t.playa = Slices.reset ∧ t.host = s.host ∧ t.pending = s.pending ∧ t.time = 0) ∧
  (∀ s : State, s.glb.startDue = true → s.glb.startHeld = false → s.glb.collapsed = false → s.pwr.vaux = false → s.pins.trayRst = true →
    exec .start s = .next { s with pwr := { s.pwr with vaux := true }, glb := { s.glb with startHeld := true } }) ∧
  (∀ s : State, s.glb.startDue = false → exec .start s = .next s) ∧
  (∀ s : State, s.glb.startHeld = true →
    ∃ t : State, exec .trayResetRelease s = .next t ∧ t.boot.startCount = s.boot.startCount + 1 ∧ t.glb.startHeld = false ∧
      t.pins.trayRst = false) ∧
  (∀ s : State, s.glb.startHeld = false →
    exec .trayResetRelease s = .next { s with pins := { s.pins with trayRst := false } }) ∧
  (∀ s : State, s.starting = true → s.glb.step = 1 → s.mgt.ready = true → s.glb.collapsed = false →
    ∃ t : State, exec .coreRailsPresent s = .next t ∧ t.glb = { s.glb with step := 2, vectorsUp := true } ∧
      t.pwr = { s.pwr with vin := true, vbyp := true, refclk := true } ∧
      (∀ d, d < Config.domains → wakes d = false → (s.dom d).power ≠ 3 → t.dom d = { s.dom d with power := 2, bypass := true }) ∧
      (∀ d, wakes d = true → t.dom d = s.dom d)) ∧
  (∀ (f : List Defect) (sw : List LaneSweep) (rg : List Nat) (s : State), s.starting = true → s.glb.step = 1 →
    ∃ t : State, exec (.startStepDone ⟨f, sw, rg⟩) s = .next t ∧ t.mgt.ready = true ∧
      t.mgt.seed = some (Config.deviceSeed s.boot.identity.helper) ∧
      t.mgt.slot0 = s.boot.identity.matched (Config.deviceSeed s.boot.identity.helper) ∧ t.boot.identity = s.boot.identity) ∧
  (∀ s : State, ∃ t : State, exec .dramRailsPresent s = .next t ∧
      t.pwr = { s.pwr with vdd := true, vpp := true, duneOn := if s.glb.step = 3 then 0xFF else s.pwr.duneOn } ∧
      t = { s with pwr := t.pwr, boot := { s.boot with events := t.boot.events }, mgt := { s.mgt with awaiting := t.mgt.awaiting } }) ∧
  (∀ (sw : List LaneSweep) (rg : List Nat) (s : State), s.starting = true → s.glb.step = 2 → s.epoch.active = false →
    ∃ t : State, exec (.startStepDone ⟨[], sw, rg⟩) s = .next t ∧ t.glb = { s.glb with step := 3 } ∧ t.rings = s.rings ∧
      (∀ p, p < 12 → t.port p = { s.port p with state := if (s.port p).state = 0 then 1 else (s.port p).state }) ∧
      t.pwr = { s.pwr with duneOn := if s.pwr.vdd = true ∧ s.pwr.vpp = true then 0xFF else s.pwr.duneOn }) ∧
  (∀ (sw : List LaneSweep) (rg : List Nat) (s : State), s.starting = true → s.glb.step = 3 → s.pwr.vdd = true → s.pwr.vpp = true →
    (∀ x ∈ sw, LaneSweep.passes x = true) →
    ∃ t : State, exec (.startStepDone ⟨[], sw, rg⟩) s = .next t ∧ t.glb = { s.glb with step := 4 } ∧ t.doms = s.doms ∧
      t.delays = (s.setDelays sw).delays ∧ (∀ n, n < 256 → ((t.core n).tuneOf 0).1 = (s.dom n).vset.toNat)) ∧
  (∀ (l : List Defect) (sw : List LaneSweep) (rg : List Nat) (s : State), s.starting = true → s.glb.step = 3 →
    s.pwr.vdd = false ∨ s.pwr.vpp = false → exec (.startStepDone ⟨l, sw, rg⟩) s = .next s) ∧
  (∀ (sw : List LaneSweep) (s : State), s.starting = true → s.glb.step = 4 →
    ∃ t : State, exec (.startStepDone ⟨[], sw, []⟩) s = .next t ∧ t.glb = { s.glb with step := 5, kstoreOk := true } ∧
      (∀ d, d < Config.domains → t.dom d = { s.dom d with bypass := !(s.dom d).regOk && (s.dom d).bridge == 0x1FF }) ∧
      (∀ n, n < 256 → (s.core n).mappedOut = false → t.core n = (s.core n).loadStandard)) ∧
  (∀ s : State, s.starting = true → s.glb.step = 5 →
    s.boot.defects.length + s.boot.pending.length + s.mgt.findings.length ≤ 8192 →
    ∃ t : State, exec .deviceReady s = .next t ∧ t.glb.ready = true ∧ t.mgt.findings = [] ∧ t.boot.pending = [] ∧
      t.glb.computeEn = (!s.meshCut && (s.dom 306).power != 3 && (s.dom 307).power != 3) ∧
      (∀ e ∈ s.boot.defects, e ∈ t.boot.defects) ∧
      (∀ e ∈ s.boot.pending ++ s.mgt.findings, ∃ x ∈ t.boot.defects, x.defect = e.defect)) ∧
  (∀ (e : DefectEntry) (r : List DefectEntry) (s : State), s.glb.ready = true → s.mgt.findings = e :: r →
    exec .pendingDefectRecord s
      = .next { s with boot := { s.boot with pending := s.boot.pending ++ [e] }, mgt := { s.mgt with findings := r } })

/-- A request begins a compute-only reset of a ready device; a hold set meanwhile is kept, and acts as a request while a reset
leaves; clearing the last hold lets the reset leave, its domains on VBYP. At the end of its entry Playa, caches, slots, the unlock and the
counters but GLB_EPOCH_REJECTS are cleared, DRAM refreshes itself and keeps its contents, and the reset leaves unless it is held; the end of its
leaving ends it. A full reset and TRAY_RST_N write their records and restart the device; a loss of VAUX resets it, and a
collapse of VIN_CORE keeps DRAM. A loss of REFCLK_SYS takes every port down; VBYP out of range is reported. -/
def Obligations.ResetsAndLosses : Prop :=
  (∀ (w : Word32) (s : State), bitAt w.toNat 31 = true → bitAt w.toNat 30 = false → bitAt w.toNat 29 = false →
    s.glb.ready = true → s.glb.rstState = 0 →
    ∃ u : State, exec (.computeResetRequest w) s = .next u.beginReset.tryLeave ∧ u.glb.hold = false ∧
      u = { s with glb := { s.glb with hold := false, bist := u.glb.bist, rstIrqEn := u.glb.rstIrqEn, rstVector := u.glb.rstVector
                                       fullTestRq := u.glb.fullTestRq } } ∧ u.beginReset.glb.rstState = 1) ∧
  (∀ (w : Word32) (s : State), bitAt w.toNat 31 = false → bitAt w.toNat 30 = false → bitAt w.toNat 29 = true →
    s.glb.rstState = 0 →
    ∃ t : State, exec (.resetHoldSet w) s = .next t ∧ t.glb.hold = true ∧ t.glb.rstState = 0 ∧ t = { s with glb := t.glb }) ∧
  (∀ (w : Word32) (s : State), bitAt w.toNat 31 = false → bitAt w.toNat 30 = false → bitAt w.toNat 29 = true →
    s.glb.rstState = 3 → s.glb.hold = false →
    ∃ t : State, exec (.resetHoldSet w) s = .next t ∧ t.glb.hold = true ∧ t.glb.rstAgain = true ∧ t = { s with glb := t.glb }) ∧
  (∀ (w : Word32) (s : State), bitAt w.toNat 31 = false → bitAt w.toNat 30 = false → bitAt w.toNat 29 = false →
    s.glb.rstState = 2 → s.glb.holdMgt = false → s.glb.holdSag = false → s.thm.trip = false → s.glb.collapsed = false →
    ∃ t : State, exec (.resetHoldClear w) s = .next t ∧ t.glb.hold = false ∧ t.glb.rstState = 3 ∧ t = { s with glb := t.glb, doms := t.doms }) ∧
  (∀ s : State, s.glb.rstState = 1 → (∀ e ∈ s.vaults, e.2.repair = none) →
    ∃ t : State, exec .resetEntryDone s = .next t ∧ t.glb = { s.glb with rstState := if s.resetHeld then 2 else 3 } ∧
      t.playa = Slices.reset ∧ t.selfRef = true ∧ t.caches = [] ∧ t.slots = [] ∧ t.dbg.unlocked = false ∧ t.dram = s.dram ∧
      t.rings = s.rings ∧ (∀ e ∈ t.ctr, e.1 = 0x118) ∧ t.ctrGet 0x118 = s.ctrGet 0x118 ∧
      (∀ e ∈ t.cores, e.2.qMain = [] ∧ e.2.qParen = [] ∧ e.2.imgMain = .empty ∧ e.2.imgParen = .empty)) ∧
  (∀ (h : HostView) (s : State), s.glb.rstState = 3 → s.thm.trip = false → s.glb.collapsed = false → s.glb.rstAgain = false →
    ∃ t : State, exec (.resetLeaveDone h ⟨[], []⟩) s = .next t ∧ t.glb.rstState = 0 ∧ t.glb.rstAgain = false) ∧
  (∀ (w : Word32) (s : State), bitAt w.toNat 30 = true →
    ∃ t : State, exec (.fullResetRequest w) s = .next t ∧ t.boot.bondCounts = s.bond.counts ∧ t.boot.weights = s.pwr.weights ∧
      t.glb.startDue = true ∧ t.glb.ready = false ∧ t.rings = [] ∧ t.dram = Dram.reset ∧ t.host = s.host ∧ t.pending = s.pending) ∧
  (∀ s : State, ∃ t : State, exec .trayReset s = .next t ∧ t.pins.trayRst = true ∧ t.boot.bondCounts = s.bond.counts ∧
      t.glb.startDue = true ∧ t.glb.ready = false ∧ t.rings = [] ∧ t.dram = Dram.reset ∧ t.host = s.host) ∧
  (∀ s : State, ∃ t : State, exec .vauxLoss s = .next t ∧ t.boot = s.boot ∧ t.glb = Glb.reset ∧ t.rings = [] ∧ t.ctr = [] ∧
      t.dram = Dram.reset ∧ t.pwr.vaux = false ∧ t.oas.running = false ∧ t.host = s.host ∧ t.pending = s.pending) ∧
  (∀ s : State, ∃ t : State, exec .vinCoreCollapse s = .next t ∧ t.glb.collapsed = true ∧ t.glb.ready = false ∧ t.rings = [] ∧
      t.dram = s.dram ∧ t.selfRef = true ∧ t.pwr.vin = false ∧ t.pwr.sagStage = 5 ∧ t.boot.bondCounts = s.bond.counts ∧
      t.thm = s.thm) ∧
  (∀ s : State, ∃ t : State, exec .refclkLoss s = .next t ∧ t.pwr.refclk = false ∧ (∀ p, p < 12 → (t.port p).state = 0) ∧
      (t.boot.events.head?).map (·.kind) = some .refclk) ∧
  (∀ s : State, ∃ t : State, exec .vbypOutOfRange s = .next t ∧ t.pwr = { s.pwr with vbyp := false } ∧
      (s.pwr.vin = true → ∃ e ∈ t.boot.events, e.kind = .vbyp) ∧
      t = { s with pwr := t.pwr, boot := { s.boot with events := t.boot.events }, mgt := { s.mgt with awaiting := t.mgt.awaiting } })

/-- An address or an endpoint ID that the device may take is kept; the null and the broadcast ID are refused. A message of an unknown type is
counted; one for a remote endpoint whose device is known, without a route to it, is discarded with an event, and one from a
Caravan port for another endpoint goes to the I3C bus. A sensor in use reads its mean, a failed one is
unavailable, an unknown one refused; a domain's lowest voltage is read once, and its time kept. The cap is set from 400 W to 1,800 W and
refused outside. The receiver gets the oldest event that is no CPER. -/
def Obligations.ManagementAnswers : Prop :=
  (∀ (a : Nat) (s : State), s.pwr.vaux = true →
    exec (.dynamicAddressAssignment a) s = .next { s with mgt := { s.mgt with dynAddr := some a } }) ∧
  (∀ (e : Nat) (s : State), s.answersMgt = true → e ≠ 0 → e ≠ 255 →
    exec (.setEndpointId e) s = .next (({ s with mgt := { s.mgt with eid := e } } : State).reply .ok)) ∧
  (∀ (s : State), s.answersMgt = true → (∃ c, exec (.setEndpointId 0) s = .next (s.reply (.refused c))) ∧
    ∃ c, exec (.setEndpointId 255) s = .next (s.reply (.refused c))) ∧
  (∀ (p d n : Option Nat) (m : List Byte) (s : State), s.answersMgt = true → knownType m = false →
    exec (.mctpBridge p s.mgt.eid d n m) s = .next { s with mgt := { s.mgt with discarded := s.mgt.discarded + 1 } }) ∧
  (∀ (p e : Nat) (m : List Byte) (s : State), s.answersMgt = true → e ≠ 0 → e ≠ s.mgt.eid →
    Tbl.find s.mgt.routes e = none →
    exec (.mctpBridge (some p) e none none m) s = .next { s with io := { s.io with bridged := (e, m) :: s.io.bridged } }) ∧
  (∀ (e d : Nat) (n : Option Nat) (m : List Byte) (s : State), s.answersMgt = true → e ≠ 0 → e ≠ s.mgt.eid →
    d ≠ s.applied.deviceId.toNat → s.routePort d = none →
    ∃ t : State, exec (.mctpBridge none e (some d) n m) s = .next t ∧ Tbl.find t.mgt.routes e = some d ∧
      (t.boot.events.head?).map (·.kind) = some .frameDiscard ∧ t.ports = s.ports ∧ t.io = s.io) ∧
  (∀ (k : Nat) (s : State), s.mgt.ready = true → k < Config.sensors → (s.sensor k).state ≠ 3 →
    exec (.getSensorReading (0x1000 + k)) s = .next (s.reply (.value (s.sensor k).mean))) ∧
  (∀ (k : Nat) (s : State), s.mgt.ready = true → k < Config.sensors → (s.sensor k).state = 3 →
    exec (.getSensorReading (0x1000 + k)) s = .next (s.reply .unavailable)) ∧
  (∀ (d mv : Nat) (s : State), s.mgt.ready = true → d < Config.domains → (s.dom d).power ≠ 3 → (s.dom d).minMv = some mv →
    ∃ t : State, exec (.getSensorReading (0x2000 + d)) s = .next t ∧ t.io.replies = .value (mv : Int) :: s.io.replies ∧
      t.dom d = { s.dom d with minMv := none, readTime := (s.dom d).minTime, minTime := 0 } ∧ domsSameBut s t d ∧
      t = { s with doms := t.doms, io := { s.io with replies := t.io.replies } }) ∧
  (∀ (k : Nat) (s : State), s.mgt.ready = true → 0x6000 ≤ k → ∃ c, exec (.getSensorReading k) s = .next (s.reply (.refused c))) ∧
  (∀ (w : Nat) (s : State), s.mgt.ready = true → 400 ≤ w → w ≤ 1800 → s.colls = [] →
    exec (.setNumericEffecterValue 0x8000 w) s
      = .next (({ s with pwr := { s.pwr with mgtCap := BitVec.ofNat 12 w } } : State).reply .ok)) ∧
  (∀ (w : Nat) (s : State), s.mgt.ready = true → w < 400 ∨ 1800 < w →
    ∃ c, exec (.setNumericEffecterValue 0x8000 w) s = .next (s.reply (.refused c))) ∧
  (∀ (v : Nat) (s : State), s.mgt.ready = true →
    exec (.setStateEffecter 0x8001 v) s
      = .next (({ s with mgt := { s.mgt with fullTest := decide (v = 1) } } : State).reply .ok)) ∧
  (∀ (e : Nat) (s : State), s.mgt.ready = true →
    exec (.setEventReceiver e) s = .next (({ s with mgt := { s.mgt with receiver := some e } } : State).reply .ok)) ∧
  (∀ (e : Nat) (v : Event) (r : List Event) (s : State), s.mgt.receiver = some e → s.deliverable = v :: r → v.cper = none →
    exec .platformEventMessage s = .next (({ s with mgt := { s.mgt with awaiting := r } } : State).reply (.event v)))

/-- One update is accepted at a time; its image goes to the secondary copy as a copy not valid, becomes valid when its
object verifies, and a verified copy changes places with the primary; without the update, or before the copy is verified,
each of these is refused and changes no image. Requests, holds and releases of a reset act as the register's; the stress
test and the epoch run without changing the registers of the host's own; logs, records and nonce are read as they stand. -/
def Obligations.FirmwareAndManagementCommands : Prop :=
  (∀ (k : Nat) (s : State), s.answersMgt = true → s.mgt.update = none → 1 ≤ k → k ≤ 3 →
    ∃ (u : Update) (t : State), exec (.requestUpdate k) s = .next t ∧ t.mgt.update = some u ∧ u.component = k ∧
      u.received = false ∧ u.verified = none ∧ t.io.replies = .ok :: s.io.replies ∧
      t = { s with mgt := { s.mgt with update := some u }, io := { s.io with replies := t.io.replies } }) ∧
  (∀ (k : Nat) (s : State), s.answersMgt = true → s.mgt.update.isSome = true →
    ∃ c, exec (.requestUpdate k) s = .next (s.reply (.refused c))) ∧
  (∀ (v m : Nat) (im : List Byte) (ks : List Nat) (u : Update) (s : State), s.mgt.update = some u →
    1 ≤ u.component → u.component ≤ 3 →
    ∃ t : State, exec (.firmwareTransfer u.component v m im ks) s = .next t ∧
      (t.boot.component u.component).1 = (s.boot.component u.component).1 ∧
      (t.boot.component u.component).2 = { good := false, version := v, minor := m, image := im } ∧
      t.mgt.update = some { u with received := true, verified := none, version := v, minor := m, image := im, kinds := ks } ∧
      (∀ j, 1 ≤ j → j ≤ 3 → j ≠ u.component → t.boot.component j = s.boot.component j)) ∧
  (∀ (o : SignedObject) (u : Update) (s : State), s.mgt.update = some u → u.received = true → 1 ≤ u.component → u.component ≤ 3 →
    ∃ t : State, exec (.verifyComplete o) s = .next t ∧
      (t.boot.component u.component).1 = (s.boot.component u.component).1 ∧
      (t.boot.component u.component).2.good
        = (s.objectOk o && o.kind == (if u.component = 3 then 2 else 1) && o.payload == u.image) ∧
      (t.boot.component u.component).2.image = (s.boot.component u.component).2.image ∧
      t.mgt.update = some { u with verified := some (t.boot.component u.component).2.good }) ∧
  (∀ (u : Update) (s : State), s.mgt.update = some u → u.verified = some true → 1 ≤ u.component → u.component ≤ 3 → u.kinds = [] →
    ∃ t : State, exec .activateFirmware s = .next t ∧
      t.boot.component u.component = ((s.boot.component u.component).2, (s.boot.component u.component).1) ∧
      t.mgt.update = none ∧ t.io.replies = .ok :: s.io.replies ∧ t.boot.weights = s.boot.weights) ∧
  (∀ (u : Update) (s : State), s.mgt.update = some u → u.verified ≠ some true →
    ∃ c, exec .activateFirmware s = .next (s.reply (.refused c))) ∧
  (∀ (s : State), s.mgt.ready = true → exec (.mgtComputeReset 0) s = .next (s.requestReset.reply .ok)) ∧
  (∀ (s : State), s.mgt.ready = true → s.glb.rstState ≠ 3 →
    exec (.mgtComputeReset 1) s = .next (({ s with glb := { s.glb with holdMgt := true } } : State).reply .ok)) ∧
  (∀ (s : State), s.mgt.ready = true → s.glb.rstState ≠ 2 →
    exec (.mgtComputeReset 2) s = .next (({ s with glb := { s.glb with holdMgt := false } } : State).reply .ok)) ∧
  (∀ (s : State), s.mgt.ready = true →
    ∃ t : State, exec .mgtFullReset s = .next t ∧ t.boot.bondCounts = s.bond.counts ∧ t.glb.startDue = true ∧
      t.rings = [] ∧ t.dram = Dram.reset ∧ t.pending = s.pending) ∧
  (∀ (w : Word32) (s : State), s.mgt.ready = true → s.err.stress.state ≠ 1 →
    (s.err.stress.write w).rect.any (fun c => s.fields.any (fun e => e.2.cores.contains c)) = false →
    ∃ t : State, exec (.mgtStressTest w) s = .next t ∧ t.err.stress.state = 1 ∧
      t.err.stress.cores = (s.err.stress.write w).rect ∧ t.err.stress.corners = s.err.stress.corners ∧
      t.err.stress.row = s.err.stress.row ∧ t.err.stress.col = s.err.stress.col ∧ t.io.replies = .ok :: s.io.replies) ∧
  (∀ (w : Word64) (s : State), s.mgt.ready = true → s.epoch.active = false → s.staged.changed s.applied ≠ [] →
    s.glb.step.toNat < 3 →
    ∃ t : State, exec (.mgtRequestEpoch w) s = .next t ∧ t.glb = s.glb ∧ t.epoch.active = true ∧ t.epoch.waiting = true ∧
      t.epoch.number = BitVec.ofNat 32 (bits w.toNat 63 32) ∧ t.epoch.chain = bitAt w.toNat 30 ∧
      t.io.replies = .ok :: s.io.replies) ∧
  (∀ (n : Nat) (s : State), s.mgt.ready = true →
    ∃ l, exec (.readEventLog n) s = .next (s.reply (.events l)) ∧ ∀ e, e ∈ l ↔ e ∈ s.boot.events ∧ n ≤ e.seq) ∧
  (∀ (n : Nat) (s : State), s.mgt.ready = true →
    exec (.readOasisRecords n true) s = .next (s.reply (.logs s.oas.mirror.log.reverse))) ∧
  (∀ (n : Nat) (r : OasisRecord) (s : State), s.mgt.ready = true → s.oas.mirror.last = some r →
    ∃ l, exec (.readOasisRecords n false) s = .next (s.reply (.records l)) ∧
      ∀ e, e ∈ l ↔ e ∈ s.oas.records ∧ n ≤ e.second.toNat ∧ e.second.toNat ≤ r.second.toNat) ∧
  (∀ s : State, s.mgt.ready = true → exec .readDbgNonce s = .next (s.reply (.value (s.dbg.nonce.toNat : Int))))

/-- A maintenance object that passes its checks is carried out and recorded: entries named for removal wait for the next
start, bond wear is cleared, a listed domain's baseline becomes its filtered value, the weights are the factory's, and a
port on four lanes returns to eight. One that fails is refused and changes nothing. A submitted unlock object unlocks. A
challenge is answered with the chain of slot 0 and a signature with the alias key, and refused with that slot empty; the second signature follows a signed MEASUREMENTS and is refused otherwise; a session
begins with KEY_EXCHANGE and is established by a right FINISH. Signatures and keys are free functions (log 11). -/
def Obligations.SignedCommandsAndAttestation : Prop :=
  (∀ (o : SignedObject) (p : Nat) (s : State), s.mgt.ready = true → s.objectOk o = false →
    ∃ c, exec (.removeDefectEntries o) s = .next (s.reply (.refused c)) ∧ exec (.clearBondWear o) s = .next (s.reply (.refused c)) ∧
      exec (.replacePathBaseline o) s = .next (s.reply (.refused c)) ∧ exec (.restoreFactoryWeights o) s = .next (s.reply (.refused c)) ∧
      exec (.portRetrain p o) s = .next (s.reply (.refused c)) ∧ exec (.submitSignedObject o) s = .next (s.reply (.refused c))) ∧
  (∀ (o : SignedObject) (s : State), s.maintOk o 1 = true →
    ∃ t : State, exec (.removeDefectEntries o) s = .next t ∧ exec (.submitSignedObject o) s = .next t ∧
      t.boot.removals = s.boot.removals ++ (maintItems 16 o).map entryDefect ∧ t.boot.defects = s.boot.defects ∧
      t.boot.maintenance = 1 :: s.boot.maintenance ∧ t.freeIdx = s.freeIdx + 1 ∧ t.io.replies = .ok :: s.io.replies) ∧
  (∀ (o : SignedObject) (s : State), s.maintOk o 2 = true →
    ∃ t : State, exec (.clearBondWear o) s = .next t ∧ t.bond.counts = [] ∧ t.boot.bondCounts = [] ∧
      t.bond.residue = s.bond.residue ∧ t.boot.maintenance = 2 :: s.boot.maintenance) ∧
  (∀ (o : SignedObject) (d : Nat) (s : State), s.maintOk o 3 = true → d < Config.domains → maintItems 2 o = [natLe 2 d] →
    ∃ t : State, exec (.replacePathBaseline o) s = .next t ∧ t.dom d = { s.dom d with baseline := (s.dom d).filtered } ∧
      domsSameBut s t d ∧ Tbl.find t.boot.baselines d = some (s.dom d).filtered) ∧
  (∀ (o : SignedObject) (s : State), s.maintOk o 4 = true →
    ∃ t : State, exec (.restoreFactoryWeights o) s = .next t ∧ t.pwr.weights = [1000000, 1000000, 1000000] ∧
      t.boot.weights = [1000000, 1000000, 1000000] ∧ t.dom = s.dom) ∧
  (∀ (p : Nat) (o : SignedObject) (s : State), s.mgt.ready = true → s.objectOk o = true → o.kind = 4 → (s.port p).half = true →
    2 ≤ (s.port p).state.toNat →
    ∃ t : State, exec (.portRetrain p o) s = .next t ∧
      t.port p = { s.port p with half := false, halfSel := false, badLanes := 0, peerBad := 0, laneMove := true } ∧ portsSameBut s t p) ∧
  (∀ (o : SignedObject) (s : State), s.mgt.ready = true → s.objectOk o = true → o.kind = 3 →
    ∃ t : State, exec (.submitSignedObject o) s = .next t ∧ t.dbg.unlocked = true ∧ t.dbg.expiry = o.expiry ∧
      t.dbg.slots = s.dbg.slots) ∧
  (∀ (n : List Byte) (s : State), s.answersMgt = true → s.mgt.slot0 = true →
    exec (.challenge n) s = .next (({ s with mgt := { s.mgt with transcript := none } } : State).reply
      (.bytes (s.certChain 1 ++ s.sign 1 n)))) ∧
  (∀ (n : List Byte) (s : State), s.answersMgt = true → s.mgt.slot0 = false →
    ∃ c, exec (.challenge n) s = .next (({ s with mgt := { s.mgt with transcript := none } } : State).reply (.refused c))) ∧
  (∀ (l : List Nat) (n : List Byte) (s : State), s.answersMgt = true → s.mgt.slot0 = true →
    exec (.getMeasurements l n) s
      = .next (({ s with mgt := { s.mgt with transcript := some (n ++ l.flatMap s.measurementBlock) } } : State).reply
          (.bytes (l.flatMap s.measurementBlock ++ s.sign 1 (n ++ l.flatMap s.measurementBlock))))) ∧
  (∀ (b : List Byte) (s : State), s.answersMgt = true → s.mgt.transcript = some b →
    exec .getPqSignature s
      = .next (({ s with mgt := { s.mgt with transcript := none } } : State).reply (.bytes (s.sign 2 b ++ s.certChain 2)))) ∧
  (∀ s : State, s.answersMgt = true → s.mgt.transcript = none →
    ∃ c, exec .getPqSignature s = .next (s.reply (.refused c))) ∧
  (∀ (x : List Byte) (s : State), s.answersMgt = true → s.mgt.slot0 = true →
    ∃ t : State, exec (.keyExchange x) s = .next t ∧ t.mgt = { s.mgt with transcript := none, session := 1 } ∧
      t.io.replies = .bytes (s.sign 1 x) :: s.io.replies) ∧
  (∀ (v : List Byte) (ok : Bool) (s : State), s.answersMgt = true → s.mgt.session = 1 → v ≠ [] →
    ∃ t : State, exec (.finish v ok) s = .next t ∧ t.mgt = { s.mgt with transcript := none, session := if ok then 2 else 0 })

/-- Of a running Oasis: a seal seen open counts its opening and is logged; a closed one is logged, and ends a load. A load
that verifies is kept for the next start; parameters and clock wait for the interval boundary, and need the open seal. A
sample adds its energy in each rail and a microsecond. A close stores and sends the interval's record, adds its energies to
the cumulative registers and starts the next interval at nothing. A commit saves the registers, a power fail too, with a log entry, and
the next start takes them up; a restart through the update gate
commits them first (DESIGN CHOICE, log 72). The management core's receipt of a record changes the mirror. -/
def Obligations.OasisMetersEnergy : Prop :=
  (∀ s : State, s.oas.running = true → s.oas.unsealed = false →
    ∃ t : State, exec .sealOpen s = .next t ∧ t.pins = { s.pins with sealOpen := true } ∧ t.oas.unsealed = true ∧
      t.oas.openings = s.oas.openings + 1 ∧ (t.oas.logs.head?).map (fun e => (e.kind, e.time)) = some (3, s.oas.micros) ∧
      t.oas.nextSeq = s.oas.nextSeq + 1 ∧ t = { s with pins := t.pins, oas := t.oas }) ∧
  (∀ s : State, s.oas.running = true → s.oas.unsealed = true → s.oas.loading = false →
    ∃ t : State, exec .sealClose s = .next t ∧ t.oas.unsealed = false ∧ t.oas.openings = s.oas.openings ∧
      (t.oas.logs.head?).map (·.kind) = some 4) ∧
  (∀ s : State, s.oas.running = true → s.oas.unsealed = true → s.oas.loading = true →
    ∃ t : State, exec .sealClose s = .next t ∧ t.oas.unsealed = false ∧ t.oas.loading = false ∧
      (t.oas.logs.head?).map (fun e => (e.kind, e.data)) = some (6, [2])) ∧
  (∀ (v : Nat) (s : State), s.oas.running = true → s.oas.unsealed = true →
    ∃ t : State, exec (.oasisImageLoad v true true true) s = .next t ∧ t.oas.loaded = some v ∧ t.oas.loading = false ∧
      t.oas.version = s.oas.version ∧ (t.oas.logs.head?).map (·.kind) = some 5) ∧
  (∀ (v : Nat) (c e m : Bool) (ps : List Nat) (us : Nat) (s : State), s.oas.running = false ∨ s.oas.unsealed = false →
    exec (.oasisImageLoad v c e m) s = .next s ∧ exec (.oasisParameterChange ps) s = .next s ∧ exec (.oasisClockSet us) s = .next s) ∧
  (∀ (ps : List Nat) (s : State), s.oas.running = true → s.oas.unsealed = true →
    exec (.oasisParameterChange ps) s = .next { s with oas := { s.oas with newParams := some ps } }) ∧
  (∀ (us : Nat) (s : State), s.oas.running = true → s.oas.unsealed = true →
    exec (.oasisClockSet us) s = .next { s with oas := { s.oas with newClock := some us } }) ∧
  (∀ (r : OasisReading) (s : State), s.oas.running = true → r.outOfRange = none → r.adcFailed = none → s.oas.rangeNow = none →
    exec (.oasisSample r) s = .next { s with oas := { s.oas with
      accVin := s.oas.accVin + r.vinMv * r.vinMa, accVdd := s.oas.accVdd + r.vddMv * r.vddMa
      accVpp := s.oas.accVpp + r.vppMv * r.vppMa, samples := s.oas.samples + 1, micros := s.oas.micros + 1 } }) ∧
  (∀ s : State, s.oas.running = true → s.oas.newParams = none → s.oas.newClock = none →
    ∃ t : State, exec .intervalClose s = .next t ∧ t.oas.records = (s.oas.record :: s.oas.records).take 65536 ∧
      t.oas.exported = some s.oas.record ∧ t.oas.cumVin = s.oas.cumVin + s.oas.record.eVin.setWidth 64 ∧
      t.oas.cumVdd = s.oas.cumVdd + s.oas.record.eVdd.setWidth 64 ∧ t.oas.cumVpp = s.oas.cumVpp + s.oas.record.eVpp.setWidth 64 ∧
      t.oas.accVin = 0 ∧ t.oas.accVdd = 0 ∧ t.oas.accVpp = 0 ∧ t.oas.samples = 0 ∧ t.oas.fStart = false ∧
      t.oas.logs = s.oas.logs ∧ t = { s with oas := t.oas }) ∧
  (∀ (ps : List Nat) (us : Nat) (s : State), s.oas.running = true → s.oas.newParams = some ps → s.oas.newClock = some us →
    ∃ t : State, exec .intervalClose s = .next t ∧ t.oas.params = ps ∧ t.oas.micros = BitVec.ofNat 64 us ∧ t.oas.fParam = true ∧
      t.oas.fClock = true ∧ (t.oas.logs.take 2).map (·.kind) = [8, 7] ∧ t.oas.records.head? = some s.oas.record) ∧
  (∀ s : State, s.oas.running = true → exec .oasisCommit s = .next { s with oas := { s.oas with
    saved := (s.oas.cumVin, s.oas.cumVdd, s.oas.cumVpp), savedTime := s.oas.micros } }) ∧
  (∀ s : State, s.oas.running = true → s.oas.loading = false →
    ∃ t : State, exec .oasisPowerFail s = .next t ∧ t.oas.running = false ∧ t.oas.saved = (s.oas.cumVin, s.oas.cumVdd, s.oas.cumVpp) ∧
      t.oas.records = [] ∧ (t.oas.logs.head?).map (fun e => (e.kind, e.data)) = some (2, natLe 8 s.oas.total.toNat)) ∧
  (∀ s : State, s.oas.running = false → s.pins.sealOpen = s.oas.unsealed →
    ∃ t : State, exec .oasisStart s = .next t ∧ t.oas.running = true ∧ (t.oas.cumVin, t.oas.cumVdd, t.oas.cumVpp) = s.oas.saved ∧
      t.oas.fStart = true ∧ t.oas.samples = 0 ∧ (t.oas.logs.head?).map (·.kind) = some 1 ∧
      (∀ v, s.oas.loaded = some v → t.oas.bank = !s.oas.bank) ∧ (s.oas.loaded = none → t.oas.bank = s.oas.bank)) ∧
  (∀ s : State, s.oas.running = true → s.oas.unsealed = true → s.pins.sealOpen = true →
    ∃ t : State, exec .oasisStart s = .next t ∧ t.oas.saved = (s.oas.cumVin, s.oas.cumVdd, s.oas.cumVpp) ∧
      (t.oas.cumVin, t.oas.cumVdd, t.oas.cumVpp) = t.oas.saved ∧ t.oas.fStart = true ∧ t = { s with oas := t.oas }) ∧
  (∀ s : State, s.oas.running = true → s.oas.unsealed = false → exec .oasisStart s = .next s) ∧
  (∀ (r : OasisRecord) (s : State), s.oas.exported = some r → s.mgt.ready = true →
    ∃ t : State, exec .oasisRecordReceive s = .next t ∧ t.oas.exported = none ∧ t.oas.mirror.last = some r ∧
      t.oas.mirror.eVin = s.oas.cumVin ∧ t.oas.mirror.sealOpen = s.oas.unsealed ∧ t.oas.mirror.sealCount = s.oas.openings ∧
      t.oas.mirror.log = s.oas.logs ∧ t.oas.records = s.oas.records) ∧
  (∀ s : State, s.oas.exported = none → exec .oasisRecordReceive s = .next s)

/-- At reset the device is in start step 1, not ready, every ring is closed and every port down; the registers read the
reset values that their tables give: the poll interval, the wait timeout, the epoch and collective timeouts, the
hop limit, the caps, the coolant targets, shares and flow, and the error threshold. -/
def Obligations.ResetLeavesRegisterValues : Prop :=
  State.reset.glb.step = 1 ∧ State.reset.glb.ready = false ∧ (∀ r, (State.reset.ring r).state = .closed) ∧
  (∀ p, (State.reset.port p).state = 0) ∧ State.reset.cmd.poll = 10 ∧ State.reset.cmd.holdoff = 0 ∧
  State.reset.cmd.waitTimeout = 100 ∧ State.reset.glb.epTimeout = 10000 ∧ State.reset.glb.colTimeout = 10000 ∧
  State.reset.applied.hopLimit = 16 ∧ State.reset.staged = State.reset.applied ∧
  State.reset.pwr.hostCap = 1800 ∧ State.reset.pwr.mgtCap = 1800 ∧ State.reset.pwr.brakeCap = 600 ∧
  State.reset.pwr.boostEn = true ∧ State.reset.pwr.gateEn = false ∧ State.reset.thm.flowNom = 2200 ∧
  State.reset.thm.duneTgt = 88 ∧ State.reset.thm.ergTgt = 100 ∧ State.reset.thm.cp = 4150 ∧
  State.reset.thm.shares = [20, 35, 30, 15] ∧ State.reset.err.thresh = 16 ∧ State.reset.dbg.unlocked = false ∧
  State.reset.pending = [] ∧ State.reset.ctr = [] ∧ (∀ n, (State.reset.core n).run = 0) ∧ (∀ n, (State.reset.vault n).mode = 0)

/-- The route of a frame is a valid entry's: V set, its reserved bits zero, PORT below 12 and ALT below 12 or 15, its prefix
matching; no entry that matches has a longer prefix, and none of equal length stands before it. The frame takes the
primary port when that is up, else the alternate. A frame without a port, the device's own or one to forward, is discarded and counted, with an event.
A quarantined port carries only VC 0 beside its link frames, discards and counts frames of VC 1 to 4 that arrive, is no
route's port, and is up again when an identity exchange shows no quarantining mismatch. -/
def Obligations.RoutesFollowLongestPrefix : Prop :=
  (∀ (e dst len port alt : Nat), routeMatch e dst = some (len, port, alt) →
    bitAt e 31 = true ∧ bits e 30 29 = 0 ∧ port < 12 ∧ (alt < 12 ∨ alt = 15) ∧ len = bits e 20 16 ∧ len ≤ 16 ∧
    port = bits e 24 21 ∧ alt = bits e 28 25 ∧ dst / 2 ^ (16 - len) = bits e 15 0 / 2 ^ (16 - len)) ∧
  (∀ (e dst : Nat), bitAt e 31 = true → bits e 30 29 = 0 → bits e 20 16 ≤ 16 → bits e 24 21 < 12 →
    bits e 28 25 < 12 ∨ bits e 28 25 = 15 → dst / 2 ^ (16 - bits e 20 16) = bits e 15 0 / 2 ^ (16 - bits e 20 16) →
    routeMatch e dst = some (bits e 20 16, bits e 24 21, bits e 28 25)) ∧
  (∀ (dst : Nat) (t : Tbl Word32) (m : Nat × Nat × Nat), bestRoute dst t = some m →
    ∃ (before after : Tbl Word32) (i : Nat) (w : Word32), t = before ++ (i, w) :: after ∧ routeMatch w.toNat dst = some m ∧
      (∀ e ∈ before, ∀ k, routeMatch e.2.toNat dst = some k → k.1 < m.1) ∧
      (∀ e ∈ after, ∀ k, routeMatch e.2.toNat dst = some k → k.1 ≤ m.1)) ∧
  (∀ (dst : Nat) (t : Tbl Word32), bestRoute dst t = none → ∀ e ∈ t, routeMatch e.2.toNat dst = none) ∧
  (∀ (dst len port alt : Nat) (s : State), bestRoute dst s.applied.route = some (len, port, alt) →
    s.routePort dst = (if s.portUp port then some port else if alt < 12 ∧ s.portUp alt then some alt else none)) ∧
  (∀ (f : Frame) (s : State), f.dst ≠ s.applied.deviceId.toNat → s.routePort f.dst = none →
    ∃ (t : State) (p : Nat), s.emit f = t ∧ (t.boot.events.head?).map (·.kind) = some .frameDiscard ∧
      t.ctrGet (lnkDiscard p) = s.ctrGet (lnkDiscard p) + 1 ∧ countersSameBut s t (lnkDiscard p) ∧
      t = { s with ctr := t.ctr, boot := { s.boot with events := t.boot.events }, mgt := { s.mgt with awaiting := t.mgt.awaiting } }) ∧
  (∀ (p : Nat) (f : Frame) (s : State), s.routePort f.dst = none →
    ∃ t : State, s.forwardFrame p f = t ∧ (t.boot.events.head?).map (·.kind) = some .frameDiscard ∧
      t.ctrGet (lnkDiscard p) = s.ctrGet (lnkDiscard p) + 1 ∧ countersSameBut s t (lnkDiscard p) ∧
      t = { s with ctr := t.ctr, boot := { s.boot with events := t.boot.events }
                   mgt := { s.mgt with awaiting := t.mgt.awaiting }, ports := t.ports }) ∧
  (∀ (p : Nat) (f : Frame) (s : State), (s.port p).state = 3 → s.mayCarry p f = true → f.vc = 0) ∧
  (∀ (p dst : Nat) (s : State), (s.port p).state = 3 → s.routePort dst ≠ some p) ∧
  (∀ (p : Nat) (f : Frame) (s : State), (s.port p).state = 3 → s.dbg.slots = [] → f.fec = [] → frameCrc f = f.fcrc →
    frameTrailerCrc f ≠ f.tcrc → 1 ≤ f.vc → f.vc ≤ 4 → f.seq = (s.port p).rxSeq →
    ∃ u : State, exec (.frameReceive p f) s = .next u.pumpAll.advanceColls ∧ u = { s with ports := u.ports, ctr := u.ctr } ∧
      u.ctrGet (lnkDiscard p) = s.ctrGet (lnkDiscard p) + 1) ∧
  (∀ (p : Nat) (f : Frame) (s : State), s.inboxFind p (fun x => x.vc == 7 && x.kind == 1) = some f → (s.port p).state = 3 →
    s.quarantineCause f = 0 →
    ∃ u : State, exec (.identReceive p) s = .next u.pumpAll ∧ (u.port p).state = 2)

/-- The low half of a live 64-bit register is held and changes nothing else; the high half makes the whole value take
effect; ADDR and MASK of a slot that is not armed are among them. Halves of a shadow register give the same staged value in either order. A write of ARM while locked is ignored; writes to the other
fields of an armed slot are ignored; a slot write and the end of the unlock, in either order, leave the slot disarmed. -/
def Obligations.HalvesAndArmedSlots : Prop :=
  (∀ (o : Nat) (lo hi : Word64) (s : State), o ∈ [0x100, 0xF00028, 0x1101008, 0x1500010] ∨ slotWide o = true ∧ s.slotLocked o = false → s.glb.vectorsUp = true →
    ∃ t : State, exec (.registerWrite o 32 lo) s = .next t ∧ t = { s with loHold := t.loHold } ∧
      ∃ u : State, exec (.registerWrite (o + 4) 32 hi) t = .next u ∧
        u = ({ s with loHold := u.loHold } : State).put64 o (hi.toNat % 2 ^ 32 * 2 ^ 32 + lo.toNat % 2 ^ 32)) ∧
  (∀ (o : Nat) (lo hi : Word64) (s : State),
    o ∈ [0x100000, 0x200000, 0x200008, 0x200010, 0x200018, 0x900000, 0x900008, 0xC0C010, 0xC0C018, 0xE00000] → s.glb.vectorsUp = true →
    ∃ t u t' u' : State, exec (.registerWrite o 32 lo) s = .next t ∧ exec (.registerWrite (o + 4) 32 hi) t = .next u ∧
      exec (.registerWrite (o + 4) 32 hi) s = .next t' ∧ exec (.registerWrite o 32 lo) t' = .next u' ∧
      u = u' ∧ u = { s with staged := u.staged }) ∧
  (∀ (i : Nat) (v : Word32) (s : State), s.dbg.unlocked = false → (s.slot i).arm = false → v.getLsbD 5 = true →
    exec (.slotArm i v) s = .next s) ∧
  (∀ (i o : Nat) (v : Word64) (s : State), s.glb.vectorsUp = true → i < 16 → o < 8 → 1 ≤ o → (s.slot i).arm = true →
    exec (.registerWrite (0x1500100 + 0x20 * i + 4 * o) 32 v) s = .next s) ∧
  (∀ (i : Nat) (v : Word32) (s : State), (s.slot i).arm = true → v.getLsbD 5 = true → exec (.slotArm i v) s = .next s) ∧
  (∀ (i : Nat) (v : Word32) (s : State), s.dbg.unlocked = true →
    ∃ a b c d : State, exec (.slotArm i v) s = .next a ∧ exec .debugLock a = .next b ∧ (b.slot i).arm = false ∧
      exec .debugLock s = .next c ∧ exec (.slotArm i v) c = .next d ∧ (d.slot i).arm = false)
end

