-- ==== Sys2Proof/Laws/Memory.lean ====
section
/-! SUPPORT. Laws of memory: a byte read after a write is the byte written inside the written range and the byte read
before outside it; and every operation keeps the canonical form `Memory.wf`. -/

namespace Sys2Proof.Machine

/-- Reading skips a part of the cells that does not list the address. -/
theorem Cells.read_append (l r : List Host.Cell) (x : Nat) (h : ∀ c ∈ l, c.1 ≠ x) :
    Cells.read (l ++ r) x = Cells.read r x := by
  induction l with
  | nil => rfl
  | cons c l ih =>
    obtain ⟨j, w⟩ := c
    have hj : x ≠ j := fun e => h (j, w) (by simp) e.symm
    simp only [List.cons_append, Cells.read, hj, if_false]
    exact ih (fun c hc => h c (by simp [hc]))

/-- Reading finds in a front part what it finds there alone, where the rest does not list the address. -/
theorem Cells.read_append_left (l r : List Host.Cell) (x : Nat) (h : ∀ c ∈ r, c.1 ≠ x) :
    Cells.read (l ++ r) x = Cells.read l x := by
  induction l with
  | nil =>
    have := Cells.read_append r [] x h
    simpa using this
  | cons c l ih =>
    obtain ⟨j, w⟩ := c
    simp only [List.cons_append, Cells.read, ih]

/-- Filtering by a test of the address keeps what is read at an address that passes. -/
theorem Cells.read_filter (l : List Host.Cell) (p : Nat → Bool) (x : Nat) (h : p x = true) :
    Cells.read (l.filter (fun c => p c.1)) x = Cells.read l x := by
  induction l with
  | nil => rfl
  | cons c l ih =>
    obtain ⟨j, w⟩ := c
    by_cases hj : p j = true
    · simp only [List.filter_cons, hj, if_true, Cells.read, ih]
    · have hx : x ≠ j := fun e => hj (e ▸ h)
      have hj' : p j = false := by simpa using hj
      simp [hj', Cells.read, hx, ih]

theorem Cells.listed_ge (a : Nat) (bs : List Byte) : ∀ c ∈ Cells.listed a bs, a ≤ c.1 ∧ c.1 < a + bs.length := by
  induction bs generalizing a with
  | nil => simp [Cells.listed]
  | cons b r ih =>
    intro c hc
    simp only [Cells.listed] at hc
    split at hc
    · have := ih (a + 1) c hc
      simp; omega
    · rcases List.mem_cons.mp hc with rfl | hc
      · simp
      · have := ih (a + 1) c hc
        simp; omega

theorem Cells.read_listed (a : Nat) (bs : List Byte) (x : Nat) (h : a ≤ x) :
    Cells.read (Cells.listed a bs) x = bs.getD (x - a) 0 := by
  induction bs generalizing a with
  | nil => simp [Cells.listed, Cells.read, unlistedByte]
  | cons b r ih =>
    simp only [Cells.listed]
    by_cases hx : x = a
    · subst hx
      split
      · rename_i hb
        have hn : ∀ c ∈ Cells.listed (x + 1) r, c.1 ≠ x := by
          intro c hc
          have := Cells.listed_ge (x + 1) r c hc
          omega
        have hr := Cells.read_append (Cells.listed (x + 1) r) [] x hn
        rw [List.append_nil] at hr
        rw [hr]
        simp [Cells.read, hb, unlistedByte]
      · simp [Cells.read]
    · have hlt : a + 1 ≤ x := by omega
      have e : x - a = (x - (a + 1)) + 1 := by omega
      split
      · rw [ih (a + 1) hlt, e]; simp
      · simp only [Cells.read, hx, if_false]
        rw [ih (a + 1) hlt, e]; simp

/-- One byte after a write: the byte written inside the range, the old byte outside it. -/
theorem Cells.read_write (cells : List Host.Cell) (a : Nat) (bs : List Byte) (x : Nat) :
    Cells.read (Cells.write cells a bs) x
      = if a ≤ x ∧ x < a + bs.length then bs.getD (x - a) 0 else Cells.read cells x := by
  unfold Cells.write
  by_cases h1 : x < a
  · have hr : ∀ c ∈ Cells.listed a bs ++ cells.filter (fun c => decide (a + bs.length ≤ c.1)), c.1 ≠ x := by
      intro c hc
      rcases List.mem_append.mp hc with hc | hc
      · have := Cells.listed_ge a bs c hc; omega
      · have := (List.mem_filter.mp hc).2; simp at this; omega
    rw [List.append_assoc, Cells.read_append_left _ _ _ hr,
      Cells.read_filter cells (fun j => decide (j < a)) x (by simpa using h1)]
    simp; omega
  · have hl : ∀ c ∈ cells.filter (fun c => decide (c.1 < a)), c.1 ≠ x := by
      intro c hc
      have := (List.mem_filter.mp hc).2; simp at this; omega
    rw [List.append_assoc, Cells.read_append _ _ _ hl]
    by_cases h2 : x < a + bs.length
    · have hr : ∀ c ∈ cells.filter (fun c => decide (a + bs.length ≤ c.1)), c.1 ≠ x := by
        intro c hc
        have := (List.mem_filter.mp hc).2; simp at this; omega
      rw [Cells.read_append_left _ _ _ hr, Cells.read_listed _ _ _ (by omega)]
      simp; intros; omega
    · have hl2 : ∀ c ∈ Cells.listed a bs, c.1 ≠ x := by
        intro c hc
        have := Cells.listed_ge a bs c hc; omega
      rw [Cells.read_append _ _ _ hl2,
        Cells.read_filter cells (fun j => decide (a + bs.length ≤ j)) x (by simp; omega)]
      simp [h2]

theorem Cells.read_write_out (cells : List Host.Cell) (a : Nat) (bs : List Byte) (x : Nat)
    (h : x < a ∨ a + bs.length ≤ x) : Cells.read (Cells.write cells a bs) x = Cells.read cells x := by
  rw [Cells.read_write]; simp; omega

theorem Cells.listed_wf (a : Nat) (bs : List Byte) : Memory.wf (Cells.listed a bs) := by
  induction bs generalizing a with
  | nil => exact ⟨List.Pairwise.nil, by simp [Cells.listed]⟩
  | cons b r ih =>
    simp only [Cells.listed]
    split
    · exact ih (a + 1)
    · rename_i hb
      refine ⟨List.pairwise_cons.mpr ⟨?_, (ih (a + 1)).1⟩, ?_⟩
      · intro c hc
        have := Cells.listed_ge (a + 1) r c hc
        simp only; omega
      · intro c hc
        rcases List.mem_cons.mp hc with rfl | hc
        · exact hb
        · exact (ih (a + 1)).2 c hc

/-- A write keeps the canonical form. -/
theorem Cells.write_wf (cells : List Host.Cell) (a : Nat) (bs : List Byte) (h : Memory.wf cells) :
    Memory.wf (Cells.write cells a bs) := by
  unfold Cells.write
  have hl := Cells.listed_wf a bs
  refine ⟨?_, ?_⟩
  · rw [List.pairwise_append, List.pairwise_append]
    refine ⟨⟨h.1.sublist List.filter_sublist, hl.1, ?_⟩, h.1.sublist List.filter_sublist, ?_⟩
    · intro x hx y hy
      have h1 := (List.mem_filter.mp hx).2
      have h2 := Cells.listed_ge a bs y hy
      simp at h1; omega
    · intro x hx y hy
      have h2 := (List.mem_filter.mp hy).2
      simp at h2
      rcases List.mem_append.mp hx with hx | hx
      · have h1 := (List.mem_filter.mp hx).2
        simp at h1; omega
      · have h1 := Cells.listed_ge a bs x hx
        omega
  · intro c hc
    rcases List.mem_append.mp hc with hc | hc
    · rcases List.mem_append.mp hc with hc | hc
      · exact h.2 c (List.mem_filter.mp hc).1
      · exact hl.2 c hc
    · exact h.2 c (List.mem_filter.mp hc).1

/-- The cells of a host view keep the canonical form. -/
theorem Cells.merge_wf (cells : List Host.Cell) (l : List (Nat × Byte)) (h : Memory.wf cells) :
    Memory.wf (Cells.merge cells l) := by
  induction l with
  | nil => exact h
  | cons e r ih =>
    obtain ⟨a, b⟩ := e
    exact Cells.write_wf _ a [b] ih

theorem Dram.repairRow_wf (d : Dram) (key : Nat) (h : Memory.wf d.cells) : Memory.wf (d.repairRow key).cells := by
  simp only [Dram.repairRow]
  generalize List.range 32 = l
  generalize hc : d.cells = c at h
  clear hc
  induction l generalizing c with
  | nil => exact h
  | cons b r ih => exact ih _ (Cells.write_wf _ _ _ h)

theorem Dram.beforeWrite_wf (d : Dram) (a n : Nat) (h : Memory.wf d.cells) : Memory.wf (d.beforeWrite a n).cells := by
  unfold Dram.beforeWrite
  split
  · exact h
  · refine List.foldlRecOn (motive := fun x : Dram => Memory.wf x.cells) _ _ h ?_
    intro x hx e _
    split
    · exact Cells.write_wf _ _ _ hx
    · exact hx

theorem Dram.write_wf (d : Dram) (a : Nat) (bs : List Byte) (h : Memory.wf d.cells) : Memory.wf (d.write a bs).cells :=
  Cells.write_wf _ _ _ (Dram.beforeWrite_wf d a _ h)

theorem Dram.store_wf (d : Dram) (a : Nat) (bs : List Byte) (p : Bool) (h : Memory.wf d.cells) :
    Memory.wf (d.store a bs p).cells := by
  unfold Dram.store
  cases p <;> simpa using Dram.write_wf d a bs h

theorem Dram.invert_wf (d : Dram) (dpa data check : Nat) (h : Memory.wf d.cells) :
    Memory.wf (d.invert dpa data check).cells := Cells.write_wf _ _ _ h

theorem Store.store_wf (m : Store) (a : Nat) (bs : List Byte) (p : Bool) (h : Memory.wf m.cells) :
    Memory.wf (m.store a bs p).cells := Cells.write_wf _ _ _ h

/-- Without word errors a write to device memory changes exactly the bytes it covers. -/
theorem Dram.store_read (d : Dram) (a : Nat) (bs : List Byte) (p : Bool) (x : Nat) (h : d.checks = []) :
    Cells.read (d.store a bs p).cells x
      = if a ≤ x ∧ x < a + bs.length then bs.getD (x - a) 0 else Cells.read d.cells x := by
  have hw : (d.write a bs).cells = Cells.write d.cells a bs := by
    simp [Dram.write, Dram.beforeWrite, h]
  unfold Dram.store
  cases p <;> simp [hw, Cells.read_write]

theorem Store.store_read (m : Store) (a : Nat) (bs : List Byte) (p : Bool) (x : Nat) :
    Cells.read (m.store a bs p).cells x
      = if a ≤ x ∧ x < a + bs.length then bs.getD (x - a) 0 else Cells.read m.cells x := Cells.read_write _ _ _ _

end Sys2Proof.Machine
end

