-- ==== Sys2Proof/Laws/Tables.lean ====
section
/-! SUPPORT. Laws of the tables `Tbl`, of the sets of numbers and of the rising form: what was put is read back, every
other unit keeps its value, and the rising form is kept. None of the read laws needs the rising form. -/

namespace Sys2Proof.Machine

theorem Tbl.drop_cons {α : Type} (i : Nat) (w : α) (r : Tbl α) (k : Nat) :
    Tbl.drop ((i, w) :: r) k = if i = k then Tbl.drop r k else (i, w) :: Tbl.drop r k := by
  by_cases h : i = k <;> simp [Tbl.drop, h]

theorem Tbl.get_drop {α : Type} (d : α) (t : Tbl α) (k j : Nat) :
    Tbl.get d (Tbl.drop t k) j = if j = k then d else Tbl.get d t j := by
  induction t with
  | nil => simp [Tbl.drop, Tbl.get]
  | cons e r ih =>
    obtain ⟨i, w⟩ := e
    rw [Tbl.drop_cons]
    by_cases h : i = k
    · rw [if_pos h, ih]
      by_cases hj : j = k
      · rw [if_pos hj, if_pos hj]
      · have hi : j ≠ i := fun e => hj (e.trans h)
        rw [if_neg hj, if_neg hj, Tbl.get, if_neg hi]
    · rw [if_neg h, Tbl.get, ih]
      by_cases hj : j = i
      · have hk : j ≠ k := fun e => h (hj.symm.trans e)
        rw [if_pos hj, if_neg hk, Tbl.get, if_pos hj]
      · rw [if_neg hj, Tbl.get, if_neg hj]

theorem Tbl.get_ins {α : Type} (d : α) (t : Tbl α) (k : Nat) (v : α) (j : Nat) (h : ∀ e ∈ t, e.1 ≠ k) :
    Tbl.get d (Tbl.ins k v t) j = if j = k then v else Tbl.get d t j := by
  induction t with
  | nil => simp [Tbl.ins, Tbl.get]
  | cons e r ih =>
    obtain ⟨i, w⟩ := e
    have hi : i ≠ k := h (i, w) (by simp)
    have hr := ih (fun e he => h e (by simp [he]))
    simp only [Tbl.ins]
    split
    · simp [Tbl.get]
    · simp only [Tbl.get, hr]
      by_cases hj : j = i
      · subst hj; simp [hi]
      · simp [hj]

theorem Tbl.drop_keys_ne {α : Type} (t : Tbl α) (k : Nat) : ∀ e ∈ Tbl.drop t k, e.1 ≠ k := by
  intro e he
  simpa using (List.mem_filter.mp he).2

/-- What was put is read back, and every other unit keeps its value. -/
theorem Tbl.get_put {α : Type} [DecidableEq α] (d : α) (t : Tbl α) (k : Nat) (v : α) (j : Nat) :
    Tbl.get d (Tbl.put d t k v) j = if j = k then v else Tbl.get d t j := by
  unfold Tbl.put
  split
  · rename_i h; rw [Tbl.get_drop, h]
  · rw [Tbl.get_ins _ _ _ _ _ (Tbl.drop_keys_ne t k), Tbl.get_drop]
    by_cases hj : j = k <;> simp [hj]

@[simp] theorem Tbl.get_put_self {α : Type} [DecidableEq α] (d : α) (t : Tbl α) (k : Nat) (v : α) :
    Tbl.get d (Tbl.put d t k v) k = v := by simp [Tbl.get_put]

theorem Tbl.get_put_ne {α : Type} [DecidableEq α] (d : α) (t : Tbl α) {k j : Nat} (v : α) (h : j ≠ k) :
    Tbl.get d (Tbl.put d t k v) j = Tbl.get d t j := by simp [Tbl.get_put, h]

theorem Tbl.find_drop {α : Type} (t : Tbl α) (k j : Nat) :
    Tbl.find (Tbl.drop t k) j = if j = k then none else Tbl.find t j := by
  induction t with
  | nil => simp [Tbl.drop, Tbl.find]
  | cons e r ih =>
    obtain ⟨i, w⟩ := e
    rw [Tbl.drop_cons]
    by_cases h : i = k
    · rw [if_pos h, ih]
      by_cases hj : j = k
      · rw [if_pos hj, if_pos hj]
      · have hi : j ≠ i := fun e => hj (e.trans h)
        rw [if_neg hj, if_neg hj, Tbl.find, if_neg hi]
    · rw [if_neg h, Tbl.find, ih]
      by_cases hj : j = i
      · have hk : j ≠ k := fun e => h (hj.symm.trans e)
        rw [if_pos hj, if_neg hk, Tbl.find, if_pos hj]
      · rw [if_neg hj, Tbl.find, if_neg hj]

theorem Tbl.find_ins {α : Type} (t : Tbl α) (k : Nat) (v : α) (j : Nat) (h : ∀ e ∈ t, e.1 ≠ k) :
    Tbl.find (Tbl.ins k v t) j = if j = k then some v else Tbl.find t j := by
  induction t with
  | nil => simp [Tbl.ins, Tbl.find]
  | cons e r ih =>
    obtain ⟨i, w⟩ := e
    have hi : i ≠ k := h (i, w) (by simp)
    have hr := ih (fun e he => h e (by simp [he]))
    simp only [Tbl.ins]
    split
    · simp [Tbl.find]
    · simp only [Tbl.find, hr]
      by_cases hj : j = i
      · subst hj; simp [hi]
      · simp [hj]

/-- A unit is listed after a put unless its reset value was put. -/
theorem Tbl.find_put {α : Type} [DecidableEq α] (d : α) (t : Tbl α) (k : Nat) (v : α) (j : Nat) :
    Tbl.find (Tbl.put d t k v) j = if j = k then (if v = d then none else some v) else Tbl.find t j := by
  unfold Tbl.put
  split
  · rename_i h; rw [Tbl.find_drop]
  · rw [Tbl.find_ins _ _ _ _ (Tbl.drop_keys_ne t k), Tbl.find_drop]
    by_cases hj : j = k <;> simp [hj]

/-- Rising keys. -/
abbrev Tbl.rising {α : Type} (t : Tbl α) : Prop := t.Pairwise (fun a b => a.1 < b.1)

theorem Tbl.rising_drop {α : Type} (t : Tbl α) (k : Nat) (h : Tbl.rising t) : Tbl.rising (Tbl.drop t k) :=
  h.sublist (List.filter_sublist)

theorem Tbl.mem_ins {α : Type} (t : Tbl α) (k : Nat) (v : α) (e : Nat × α) :
    e ∈ Tbl.ins k v t ↔ e = (k, v) ∨ e ∈ t := by
  induction t with
  | nil => simp [Tbl.ins]
  | cons a r ih =>
    obtain ⟨i, w⟩ := a
    simp only [Tbl.ins]
    split
    · simp
    · simp [ih]; tauto

theorem Tbl.rising_ins {α : Type} (t : Tbl α) (k : Nat) (v : α) (h : Tbl.rising t) (hk : ∀ e ∈ t, e.1 ≠ k) :
    Tbl.rising (Tbl.ins k v t) := by
  induction t with
  | nil => simp [Tbl.ins]
  | cons a r ih =>
    obtain ⟨i, w⟩ := a
    have hp := List.pairwise_cons.mp h
    simp only [Tbl.ins]
    split
    · rename_i hlt
      refine List.pairwise_cons.mpr ⟨?_, h⟩
      intro e he
      rcases List.mem_cons.mp he with rfl | he
      · exact hlt
      · exact Nat.lt_trans hlt (hp.1 e he)
    · rename_i hge
      refine List.pairwise_cons.mpr ⟨?_, ih hp.2 (fun e he => hk e (by simp [he]))⟩
      intro e he
      have hik : i ≠ k := hk (i, w) (by simp)
      rcases (Tbl.mem_ins r k v e).mp he with rfl | he
      · simp only; omega
      · exact hp.1 e he

/-- A put keeps the keys rising. -/
theorem Tbl.rising_put {α : Type} [DecidableEq α] (d : α) (t : Tbl α) (k : Nat) (v : α) (h : Tbl.rising t) :
    Tbl.rising (Tbl.put d t k v) := by
  unfold Tbl.put
  split
  · exact Tbl.rising_drop t k h
  · exact Tbl.rising_ins _ k v (Tbl.rising_drop t k h) (Tbl.drop_keys_ne t k)

@[simp] theorem mem_insSet (k j : Nat) (l : List Nat) : j ∈ insSet k l ↔ j = k ∨ j ∈ l := by
  induction l with
  | nil => simp [insSet]
  | cons a r ih =>
    simp only [insSet]
    split
    · simp
    · split
      · rename_i h; simp [h]
      · simp [ih]; tauto

@[simp] theorem mem_delSet (k j : Nat) (l : List Nat) : j ∈ delSet k l ↔ j ∈ l ∧ j ≠ k := by
  simp [delSet]

end Sys2Proof.Machine
end

