-- ==== Sys2Proof/Laws/State.lean ====
section
/-! SUPPORT. What each named update of State leaves alone, one lemma a field, and what it sets, read back through the
accessor of the unit. -/

namespace Sys2Proof.Machine


/-! ### `State.setRing` -/

@[simp] theorem State.setRing_pending (s : State) (r : Nat) (v : RingSt) : (s.setRing r v).pending = s.pending := rfl
@[simp] theorem State.setRing_time (s : State) (r : Nat) (v : RingSt) : (s.setRing r v).time = s.time := rfl
@[simp] theorem State.setRing_freeIdx (s : State) (r : Nat) (v : RingSt) : (s.setRing r v).freeIdx = s.freeIdx := rfl
@[simp] theorem State.setRing_dram (s : State) (r : Nat) (v : RingSt) : (s.setRing r v).dram = s.dram := rfl
@[simp] theorem State.setRing_playa (s : State) (r : Nat) (v : RingSt) : (s.setRing r v).playa = s.playa := rfl
@[simp] theorem State.setRing_delays (s : State) (r : Nat) (v : RingSt) : (s.setRing r v).delays = s.delays := rfl
@[simp] theorem State.setRing_host (s : State) (r : Nat) (v : RingSt) : (s.setRing r v).host = s.host := rfl
@[simp] theorem State.setRing_ctr (s : State) (r : Nat) (v : RingSt) : (s.setRing r v).ctr = s.ctr := rfl
@[simp] theorem State.setRing_latchHi (s : State) (r : Nat) (v : RingSt) : (s.setRing r v).latchHi = s.latchHi := rfl
@[simp] theorem State.setRing_loHold (s : State) (r : Nat) (v : RingSt) : (s.setRing r v).loHold = s.loHold := rfl
@[simp] theorem State.setRing_staged (s : State) (r : Nat) (v : RingSt) : (s.setRing r v).staged = s.staged := rfl
@[simp] theorem State.setRing_applied (s : State) (r : Nat) (v : RingSt) : (s.setRing r v).applied = s.applied := rfl
@[simp] theorem State.setRing_glb (s : State) (r : Nat) (v : RingSt) : (s.setRing r v).glb = s.glb := rfl
@[simp] theorem State.setRing_epoch (s : State) (r : Nat) (v : RingSt) : (s.setRing r v).epoch = s.epoch := rfl
@[simp] theorem State.setRing_cmd (s : State) (r : Nat) (v : RingSt) : (s.setRing r v).cmd = s.cmd := rfl
@[simp] theorem State.setRing_tainted (s : State) (r : Nat) (v : RingSt) : (s.setRing r v).tainted = s.tainted := rfl
@[simp] theorem State.setRing_conj (s : State) (r : Nat) (v : RingSt) : (s.setRing r v).conj = s.conj := rfl
@[simp] theorem State.setRing_fields (s : State) (r : Nat) (v : RingSt) : (s.setRing r v).fields = s.fields := rfl
@[simp] theorem State.setRing_steps (s : State) (r : Nat) (v : RingSt) : (s.setRing r v).steps = s.steps := rfl
@[simp] theorem State.setRing_sync (s : State) (r : Nat) (v : RingSt) : (s.setRing r v).sync = s.sync := rfl
@[simp] theorem State.setRing_slow (s : State) (r : Nat) (v : RingSt) : (s.setRing r v).slow = s.slow := rfl
@[simp] theorem State.setRing_cores (s : State) (r : Nat) (v : RingSt) : (s.setRing r v).cores = s.cores := rfl
@[simp] theorem State.setRing_vaults (s : State) (r : Nat) (v : RingSt) : (s.setRing r v).vaults = s.vaults := rfl
@[simp] theorem State.setRing_caches (s : State) (r : Nat) (v : RingSt) : (s.setRing r v).caches = s.caches := rfl
@[simp] theorem State.setRing_tiers (s : State) (r : Nat) (v : RingSt) : (s.setRing r v).tiers = s.tiers := rfl
@[simp] theorem State.setRing_engines (s : State) (r : Nat) (v : RingSt) : (s.setRing r v).engines = s.engines := rfl
@[simp] theorem State.setRing_selfRef (s : State) (r : Nat) (v : RingSt) : (s.setRing r v).selfRef = s.selfRef := rfl
@[simp] theorem State.setRing_kvm (s : State) (r : Nat) (v : RingSt) : (s.setRing r v).kvm = s.kvm := rfl
@[simp] theorem State.setRing_decodes (s : State) (r : Nat) (v : RingSt) : (s.setRing r v).decodes = s.decodes := rfl
@[simp] theorem State.setRing_routers (s : State) (r : Nat) (v : RingSt) : (s.setRing r v).routers = s.routers := rfl
@[simp] theorem State.setRing_slots (s : State) (r : Nat) (v : RingSt) : (s.setRing r v).slots = s.slots := rfl
@[simp] theorem State.setRing_reducing (s : State) (r : Nat) (v : RingSt) : (s.setRing r v).reducing = s.reducing := rfl
@[simp] theorem State.setRing_ports (s : State) (r : Nat) (v : RingSt) : (s.setRing r v).ports = s.ports := rfl
@[simp] theorem State.setRing_lnk (s : State) (r : Nat) (v : RingSt) : (s.setRing r v).lnk = s.lnk := rfl
@[simp] theorem State.setRing_colls (s : State) (r : Nat) (v : RingSt) : (s.setRing r v).colls = s.colls := rfl
@[simp] theorem State.setRing_pwr (s : State) (r : Nat) (v : RingSt) : (s.setRing r v).pwr = s.pwr := rfl
@[simp] theorem State.setRing_doms (s : State) (r : Nat) (v : RingSt) : (s.setRing r v).doms = s.doms := rfl
@[simp] theorem State.setRing_thm (s : State) (r : Nat) (v : RingSt) : (s.setRing r v).thm = s.thm := rfl
@[simp] theorem State.setRing_err (s : State) (r : Nat) (v : RingSt) : (s.setRing r v).err = s.err := rfl
@[simp] theorem State.setRing_dbg (s : State) (r : Nat) (v : RingSt) : (s.setRing r v).dbg = s.dbg := rfl
@[simp] theorem State.setRing_boot (s : State) (r : Nat) (v : RingSt) : (s.setRing r v).boot = s.boot := rfl
@[simp] theorem State.setRing_bond (s : State) (r : Nat) (v : RingSt) : (s.setRing r v).bond = s.bond := rfl
@[simp] theorem State.setRing_mgt (s : State) (r : Nat) (v : RingSt) : (s.setRing r v).mgt = s.mgt := rfl
@[simp] theorem State.setRing_oas (s : State) (r : Nat) (v : RingSt) : (s.setRing r v).oas = s.oas := rfl
@[simp] theorem State.setRing_cxl (s : State) (r : Nat) (v : RingSt) : (s.setRing r v).cxl = s.cxl := rfl
@[simp] theorem State.setRing_io (s : State) (r : Nat) (v : RingSt) : (s.setRing r v).io = s.io := rfl
@[simp] theorem State.setRing_pins (s : State) (r : Nat) (v : RingSt) : (s.setRing r v).pins = s.pins := rfl

/-! ### `State.setCore` -/

@[simp] theorem State.setCore_pending (s : State) (r : Nat) (v : CoreSt) : (s.setCore r v).pending = s.pending := rfl
@[simp] theorem State.setCore_time (s : State) (r : Nat) (v : CoreSt) : (s.setCore r v).time = s.time := rfl
@[simp] theorem State.setCore_freeIdx (s : State) (r : Nat) (v : CoreSt) : (s.setCore r v).freeIdx = s.freeIdx := rfl
@[simp] theorem State.setCore_dram (s : State) (r : Nat) (v : CoreSt) : (s.setCore r v).dram = s.dram := rfl
@[simp] theorem State.setCore_playa (s : State) (r : Nat) (v : CoreSt) : (s.setCore r v).playa = s.playa := rfl
@[simp] theorem State.setCore_delays (s : State) (r : Nat) (v : CoreSt) : (s.setCore r v).delays = s.delays := rfl
@[simp] theorem State.setCore_host (s : State) (r : Nat) (v : CoreSt) : (s.setCore r v).host = s.host := rfl
@[simp] theorem State.setCore_ctr (s : State) (r : Nat) (v : CoreSt) : (s.setCore r v).ctr = s.ctr := rfl
@[simp] theorem State.setCore_latchHi (s : State) (r : Nat) (v : CoreSt) : (s.setCore r v).latchHi = s.latchHi := rfl
@[simp] theorem State.setCore_loHold (s : State) (r : Nat) (v : CoreSt) : (s.setCore r v).loHold = s.loHold := rfl
@[simp] theorem State.setCore_staged (s : State) (r : Nat) (v : CoreSt) : (s.setCore r v).staged = s.staged := rfl
@[simp] theorem State.setCore_applied (s : State) (r : Nat) (v : CoreSt) : (s.setCore r v).applied = s.applied := rfl
@[simp] theorem State.setCore_glb (s : State) (r : Nat) (v : CoreSt) : (s.setCore r v).glb = s.glb := rfl
@[simp] theorem State.setCore_epoch (s : State) (r : Nat) (v : CoreSt) : (s.setCore r v).epoch = s.epoch := rfl
@[simp] theorem State.setCore_cmd (s : State) (r : Nat) (v : CoreSt) : (s.setCore r v).cmd = s.cmd := rfl
@[simp] theorem State.setCore_rings (s : State) (r : Nat) (v : CoreSt) : (s.setCore r v).rings = s.rings := rfl
@[simp] theorem State.setCore_tainted (s : State) (r : Nat) (v : CoreSt) : (s.setCore r v).tainted = s.tainted := rfl
@[simp] theorem State.setCore_conj (s : State) (r : Nat) (v : CoreSt) : (s.setCore r v).conj = s.conj := rfl
@[simp] theorem State.setCore_fields (s : State) (r : Nat) (v : CoreSt) : (s.setCore r v).fields = s.fields := rfl
@[simp] theorem State.setCore_steps (s : State) (r : Nat) (v : CoreSt) : (s.setCore r v).steps = s.steps := rfl
@[simp] theorem State.setCore_sync (s : State) (r : Nat) (v : CoreSt) : (s.setCore r v).sync = s.sync := rfl
@[simp] theorem State.setCore_slow (s : State) (r : Nat) (v : CoreSt) : (s.setCore r v).slow = s.slow := rfl
@[simp] theorem State.setCore_vaults (s : State) (r : Nat) (v : CoreSt) : (s.setCore r v).vaults = s.vaults := rfl
@[simp] theorem State.setCore_caches (s : State) (r : Nat) (v : CoreSt) : (s.setCore r v).caches = s.caches := rfl
@[simp] theorem State.setCore_tiers (s : State) (r : Nat) (v : CoreSt) : (s.setCore r v).tiers = s.tiers := rfl
@[simp] theorem State.setCore_engines (s : State) (r : Nat) (v : CoreSt) : (s.setCore r v).engines = s.engines := rfl
@[simp] theorem State.setCore_selfRef (s : State) (r : Nat) (v : CoreSt) : (s.setCore r v).selfRef = s.selfRef := rfl
@[simp] theorem State.setCore_kvm (s : State) (r : Nat) (v : CoreSt) : (s.setCore r v).kvm = s.kvm := rfl
@[simp] theorem State.setCore_decodes (s : State) (r : Nat) (v : CoreSt) : (s.setCore r v).decodes = s.decodes := rfl
@[simp] theorem State.setCore_routers (s : State) (r : Nat) (v : CoreSt) : (s.setCore r v).routers = s.routers := rfl
@[simp] theorem State.setCore_slots (s : State) (r : Nat) (v : CoreSt) : (s.setCore r v).slots = s.slots := rfl
@[simp] theorem State.setCore_reducing (s : State) (r : Nat) (v : CoreSt) : (s.setCore r v).reducing = s.reducing := rfl
@[simp] theorem State.setCore_ports (s : State) (r : Nat) (v : CoreSt) : (s.setCore r v).ports = s.ports := rfl
@[simp] theorem State.setCore_lnk (s : State) (r : Nat) (v : CoreSt) : (s.setCore r v).lnk = s.lnk := rfl
@[simp] theorem State.setCore_colls (s : State) (r : Nat) (v : CoreSt) : (s.setCore r v).colls = s.colls := rfl
@[simp] theorem State.setCore_pwr (s : State) (r : Nat) (v : CoreSt) : (s.setCore r v).pwr = s.pwr := rfl
@[simp] theorem State.setCore_doms (s : State) (r : Nat) (v : CoreSt) : (s.setCore r v).doms = s.doms := rfl
@[simp] theorem State.setCore_thm (s : State) (r : Nat) (v : CoreSt) : (s.setCore r v).thm = s.thm := rfl
@[simp] theorem State.setCore_err (s : State) (r : Nat) (v : CoreSt) : (s.setCore r v).err = s.err := rfl
@[simp] theorem State.setCore_dbg (s : State) (r : Nat) (v : CoreSt) : (s.setCore r v).dbg = s.dbg := rfl
@[simp] theorem State.setCore_boot (s : State) (r : Nat) (v : CoreSt) : (s.setCore r v).boot = s.boot := rfl
@[simp] theorem State.setCore_bond (s : State) (r : Nat) (v : CoreSt) : (s.setCore r v).bond = s.bond := rfl
@[simp] theorem State.setCore_mgt (s : State) (r : Nat) (v : CoreSt) : (s.setCore r v).mgt = s.mgt := rfl
@[simp] theorem State.setCore_oas (s : State) (r : Nat) (v : CoreSt) : (s.setCore r v).oas = s.oas := rfl
@[simp] theorem State.setCore_cxl (s : State) (r : Nat) (v : CoreSt) : (s.setCore r v).cxl = s.cxl := rfl
@[simp] theorem State.setCore_io (s : State) (r : Nat) (v : CoreSt) : (s.setCore r v).io = s.io := rfl
@[simp] theorem State.setCore_pins (s : State) (r : Nat) (v : CoreSt) : (s.setCore r v).pins = s.pins := rfl

/-! ### `State.setVault` -/

@[simp] theorem State.setVault_pending (s : State) (r : Nat) (v : VaultSt) : (s.setVault r v).pending = s.pending := rfl
@[simp] theorem State.setVault_time (s : State) (r : Nat) (v : VaultSt) : (s.setVault r v).time = s.time := rfl
@[simp] theorem State.setVault_freeIdx (s : State) (r : Nat) (v : VaultSt) : (s.setVault r v).freeIdx = s.freeIdx := rfl
@[simp] theorem State.setVault_dram (s : State) (r : Nat) (v : VaultSt) : (s.setVault r v).dram = s.dram := rfl
@[simp] theorem State.setVault_playa (s : State) (r : Nat) (v : VaultSt) : (s.setVault r v).playa = s.playa := rfl
@[simp] theorem State.setVault_delays (s : State) (r : Nat) (v : VaultSt) : (s.setVault r v).delays = s.delays := rfl
@[simp] theorem State.setVault_host (s : State) (r : Nat) (v : VaultSt) : (s.setVault r v).host = s.host := rfl
@[simp] theorem State.setVault_ctr (s : State) (r : Nat) (v : VaultSt) : (s.setVault r v).ctr = s.ctr := rfl
@[simp] theorem State.setVault_latchHi (s : State) (r : Nat) (v : VaultSt) : (s.setVault r v).latchHi = s.latchHi := rfl
@[simp] theorem State.setVault_loHold (s : State) (r : Nat) (v : VaultSt) : (s.setVault r v).loHold = s.loHold := rfl
@[simp] theorem State.setVault_staged (s : State) (r : Nat) (v : VaultSt) : (s.setVault r v).staged = s.staged := rfl
@[simp] theorem State.setVault_applied (s : State) (r : Nat) (v : VaultSt) : (s.setVault r v).applied = s.applied := rfl
@[simp] theorem State.setVault_glb (s : State) (r : Nat) (v : VaultSt) : (s.setVault r v).glb = s.glb := rfl
@[simp] theorem State.setVault_epoch (s : State) (r : Nat) (v : VaultSt) : (s.setVault r v).epoch = s.epoch := rfl
@[simp] theorem State.setVault_cmd (s : State) (r : Nat) (v : VaultSt) : (s.setVault r v).cmd = s.cmd := rfl
@[simp] theorem State.setVault_rings (s : State) (r : Nat) (v : VaultSt) : (s.setVault r v).rings = s.rings := rfl
@[simp] theorem State.setVault_tainted (s : State) (r : Nat) (v : VaultSt) : (s.setVault r v).tainted = s.tainted := rfl
@[simp] theorem State.setVault_conj (s : State) (r : Nat) (v : VaultSt) : (s.setVault r v).conj = s.conj := rfl
@[simp] theorem State.setVault_fields (s : State) (r : Nat) (v : VaultSt) : (s.setVault r v).fields = s.fields := rfl
@[simp] theorem State.setVault_steps (s : State) (r : Nat) (v : VaultSt) : (s.setVault r v).steps = s.steps := rfl
@[simp] theorem State.setVault_sync (s : State) (r : Nat) (v : VaultSt) : (s.setVault r v).sync = s.sync := rfl
@[simp] theorem State.setVault_slow (s : State) (r : Nat) (v : VaultSt) : (s.setVault r v).slow = s.slow := rfl
@[simp] theorem State.setVault_cores (s : State) (r : Nat) (v : VaultSt) : (s.setVault r v).cores = s.cores := rfl
@[simp] theorem State.setVault_caches (s : State) (r : Nat) (v : VaultSt) : (s.setVault r v).caches = s.caches := rfl
@[simp] theorem State.setVault_tiers (s : State) (r : Nat) (v : VaultSt) : (s.setVault r v).tiers = s.tiers := rfl
@[simp] theorem State.setVault_engines (s : State) (r : Nat) (v : VaultSt) : (s.setVault r v).engines = s.engines := rfl
@[simp] theorem State.setVault_selfRef (s : State) (r : Nat) (v : VaultSt) : (s.setVault r v).selfRef = s.selfRef := rfl
@[simp] theorem State.setVault_kvm (s : State) (r : Nat) (v : VaultSt) : (s.setVault r v).kvm = s.kvm := rfl
@[simp] theorem State.setVault_decodes (s : State) (r : Nat) (v : VaultSt) : (s.setVault r v).decodes = s.decodes := rfl
@[simp] theorem State.setVault_routers (s : State) (r : Nat) (v : VaultSt) : (s.setVault r v).routers = s.routers := rfl
@[simp] theorem State.setVault_slots (s : State) (r : Nat) (v : VaultSt) : (s.setVault r v).slots = s.slots := rfl
@[simp] theorem State.setVault_reducing (s : State) (r : Nat) (v : VaultSt) : (s.setVault r v).reducing = s.reducing := rfl
@[simp] theorem State.setVault_ports (s : State) (r : Nat) (v : VaultSt) : (s.setVault r v).ports = s.ports := rfl
@[simp] theorem State.setVault_lnk (s : State) (r : Nat) (v : VaultSt) : (s.setVault r v).lnk = s.lnk := rfl
@[simp] theorem State.setVault_colls (s : State) (r : Nat) (v : VaultSt) : (s.setVault r v).colls = s.colls := rfl
@[simp] theorem State.setVault_pwr (s : State) (r : Nat) (v : VaultSt) : (s.setVault r v).pwr = s.pwr := rfl
@[simp] theorem State.setVault_doms (s : State) (r : Nat) (v : VaultSt) : (s.setVault r v).doms = s.doms := rfl
@[simp] theorem State.setVault_thm (s : State) (r : Nat) (v : VaultSt) : (s.setVault r v).thm = s.thm := rfl
@[simp] theorem State.setVault_err (s : State) (r : Nat) (v : VaultSt) : (s.setVault r v).err = s.err := rfl
@[simp] theorem State.setVault_dbg (s : State) (r : Nat) (v : VaultSt) : (s.setVault r v).dbg = s.dbg := rfl
@[simp] theorem State.setVault_boot (s : State) (r : Nat) (v : VaultSt) : (s.setVault r v).boot = s.boot := rfl
@[simp] theorem State.setVault_bond (s : State) (r : Nat) (v : VaultSt) : (s.setVault r v).bond = s.bond := rfl
@[simp] theorem State.setVault_mgt (s : State) (r : Nat) (v : VaultSt) : (s.setVault r v).mgt = s.mgt := rfl
@[simp] theorem State.setVault_oas (s : State) (r : Nat) (v : VaultSt) : (s.setVault r v).oas = s.oas := rfl
@[simp] theorem State.setVault_cxl (s : State) (r : Nat) (v : VaultSt) : (s.setVault r v).cxl = s.cxl := rfl
@[simp] theorem State.setVault_io (s : State) (r : Nat) (v : VaultSt) : (s.setVault r v).io = s.io := rfl
@[simp] theorem State.setVault_pins (s : State) (r : Nat) (v : VaultSt) : (s.setVault r v).pins = s.pins := rfl

/-! ### `State.setTier` -/

@[simp] theorem State.setTier_pending (s : State) (r t : Nat) (v : TierSt) : (s.setTier r t v).pending = s.pending := rfl
@[simp] theorem State.setTier_time (s : State) (r t : Nat) (v : TierSt) : (s.setTier r t v).time = s.time := rfl
@[simp] theorem State.setTier_freeIdx (s : State) (r t : Nat) (v : TierSt) : (s.setTier r t v).freeIdx = s.freeIdx := rfl
@[simp] theorem State.setTier_dram (s : State) (r t : Nat) (v : TierSt) : (s.setTier r t v).dram = s.dram := rfl
@[simp] theorem State.setTier_playa (s : State) (r t : Nat) (v : TierSt) : (s.setTier r t v).playa = s.playa := rfl
@[simp] theorem State.setTier_delays (s : State) (r t : Nat) (v : TierSt) : (s.setTier r t v).delays = s.delays := rfl
@[simp] theorem State.setTier_host (s : State) (r t : Nat) (v : TierSt) : (s.setTier r t v).host = s.host := rfl
@[simp] theorem State.setTier_ctr (s : State) (r t : Nat) (v : TierSt) : (s.setTier r t v).ctr = s.ctr := rfl
@[simp] theorem State.setTier_latchHi (s : State) (r t : Nat) (v : TierSt) : (s.setTier r t v).latchHi = s.latchHi := rfl
@[simp] theorem State.setTier_loHold (s : State) (r t : Nat) (v : TierSt) : (s.setTier r t v).loHold = s.loHold := rfl
@[simp] theorem State.setTier_staged (s : State) (r t : Nat) (v : TierSt) : (s.setTier r t v).staged = s.staged := rfl
@[simp] theorem State.setTier_applied (s : State) (r t : Nat) (v : TierSt) : (s.setTier r t v).applied = s.applied := rfl
@[simp] theorem State.setTier_glb (s : State) (r t : Nat) (v : TierSt) : (s.setTier r t v).glb = s.glb := rfl
@[simp] theorem State.setTier_epoch (s : State) (r t : Nat) (v : TierSt) : (s.setTier r t v).epoch = s.epoch := rfl
@[simp] theorem State.setTier_cmd (s : State) (r t : Nat) (v : TierSt) : (s.setTier r t v).cmd = s.cmd := rfl
@[simp] theorem State.setTier_rings (s : State) (r t : Nat) (v : TierSt) : (s.setTier r t v).rings = s.rings := rfl
@[simp] theorem State.setTier_tainted (s : State) (r t : Nat) (v : TierSt) : (s.setTier r t v).tainted = s.tainted := rfl
@[simp] theorem State.setTier_conj (s : State) (r t : Nat) (v : TierSt) : (s.setTier r t v).conj = s.conj := rfl
@[simp] theorem State.setTier_fields (s : State) (r t : Nat) (v : TierSt) : (s.setTier r t v).fields = s.fields := rfl
@[simp] theorem State.setTier_steps (s : State) (r t : Nat) (v : TierSt) : (s.setTier r t v).steps = s.steps := rfl
@[simp] theorem State.setTier_sync (s : State) (r t : Nat) (v : TierSt) : (s.setTier r t v).sync = s.sync := rfl
@[simp] theorem State.setTier_slow (s : State) (r t : Nat) (v : TierSt) : (s.setTier r t v).slow = s.slow := rfl
@[simp] theorem State.setTier_cores (s : State) (r t : Nat) (v : TierSt) : (s.setTier r t v).cores = s.cores := rfl
@[simp] theorem State.setTier_vaults (s : State) (r t : Nat) (v : TierSt) : (s.setTier r t v).vaults = s.vaults := rfl
@[simp] theorem State.setTier_caches (s : State) (r t : Nat) (v : TierSt) : (s.setTier r t v).caches = s.caches := rfl
@[simp] theorem State.setTier_engines (s : State) (r t : Nat) (v : TierSt) : (s.setTier r t v).engines = s.engines := rfl
@[simp] theorem State.setTier_selfRef (s : State) (r t : Nat) (v : TierSt) : (s.setTier r t v).selfRef = s.selfRef := rfl
@[simp] theorem State.setTier_kvm (s : State) (r t : Nat) (v : TierSt) : (s.setTier r t v).kvm = s.kvm := rfl
@[simp] theorem State.setTier_decodes (s : State) (r t : Nat) (v : TierSt) : (s.setTier r t v).decodes = s.decodes := rfl
@[simp] theorem State.setTier_routers (s : State) (r t : Nat) (v : TierSt) : (s.setTier r t v).routers = s.routers := rfl
@[simp] theorem State.setTier_slots (s : State) (r t : Nat) (v : TierSt) : (s.setTier r t v).slots = s.slots := rfl
@[simp] theorem State.setTier_reducing (s : State) (r t : Nat) (v : TierSt) : (s.setTier r t v).reducing = s.reducing := rfl
@[simp] theorem State.setTier_ports (s : State) (r t : Nat) (v : TierSt) : (s.setTier r t v).ports = s.ports := rfl
@[simp] theorem State.setTier_lnk (s : State) (r t : Nat) (v : TierSt) : (s.setTier r t v).lnk = s.lnk := rfl
@[simp] theorem State.setTier_colls (s : State) (r t : Nat) (v : TierSt) : (s.setTier r t v).colls = s.colls := rfl
@[simp] theorem State.setTier_pwr (s : State) (r t : Nat) (v : TierSt) : (s.setTier r t v).pwr = s.pwr := rfl
@[simp] theorem State.setTier_doms (s : State) (r t : Nat) (v : TierSt) : (s.setTier r t v).doms = s.doms := rfl
@[simp] theorem State.setTier_thm (s : State) (r t : Nat) (v : TierSt) : (s.setTier r t v).thm = s.thm := rfl
@[simp] theorem State.setTier_err (s : State) (r t : Nat) (v : TierSt) : (s.setTier r t v).err = s.err := rfl
@[simp] theorem State.setTier_dbg (s : State) (r t : Nat) (v : TierSt) : (s.setTier r t v).dbg = s.dbg := rfl
@[simp] theorem State.setTier_boot (s : State) (r t : Nat) (v : TierSt) : (s.setTier r t v).boot = s.boot := rfl
@[simp] theorem State.setTier_bond (s : State) (r t : Nat) (v : TierSt) : (s.setTier r t v).bond = s.bond := rfl
@[simp] theorem State.setTier_mgt (s : State) (r t : Nat) (v : TierSt) : (s.setTier r t v).mgt = s.mgt := rfl
@[simp] theorem State.setTier_oas (s : State) (r t : Nat) (v : TierSt) : (s.setTier r t v).oas = s.oas := rfl
@[simp] theorem State.setTier_cxl (s : State) (r t : Nat) (v : TierSt) : (s.setTier r t v).cxl = s.cxl := rfl
@[simp] theorem State.setTier_io (s : State) (r t : Nat) (v : TierSt) : (s.setTier r t v).io = s.io := rfl
@[simp] theorem State.setTier_pins (s : State) (r t : Nat) (v : TierSt) : (s.setTier r t v).pins = s.pins := rfl

/-! ### `State.setEngine` -/

@[simp] theorem State.setEngine_pending (s : State) (r p : Nat) (v : EngineSt) : (s.setEngine r p v).pending = s.pending := rfl
@[simp] theorem State.setEngine_time (s : State) (r p : Nat) (v : EngineSt) : (s.setEngine r p v).time = s.time := rfl
@[simp] theorem State.setEngine_freeIdx (s : State) (r p : Nat) (v : EngineSt) : (s.setEngine r p v).freeIdx = s.freeIdx := rfl
@[simp] theorem State.setEngine_dram (s : State) (r p : Nat) (v : EngineSt) : (s.setEngine r p v).dram = s.dram := rfl
@[simp] theorem State.setEngine_playa (s : State) (r p : Nat) (v : EngineSt) : (s.setEngine r p v).playa = s.playa := rfl
@[simp] theorem State.setEngine_delays (s : State) (r p : Nat) (v : EngineSt) : (s.setEngine r p v).delays = s.delays := rfl
@[simp] theorem State.setEngine_host (s : State) (r p : Nat) (v : EngineSt) : (s.setEngine r p v).host = s.host := rfl
@[simp] theorem State.setEngine_ctr (s : State) (r p : Nat) (v : EngineSt) : (s.setEngine r p v).ctr = s.ctr := rfl
@[simp] theorem State.setEngine_latchHi (s : State) (r p : Nat) (v : EngineSt) : (s.setEngine r p v).latchHi = s.latchHi := rfl
@[simp] theorem State.setEngine_loHold (s : State) (r p : Nat) (v : EngineSt) : (s.setEngine r p v).loHold = s.loHold := rfl
@[simp] theorem State.setEngine_staged (s : State) (r p : Nat) (v : EngineSt) : (s.setEngine r p v).staged = s.staged := rfl
@[simp] theorem State.setEngine_applied (s : State) (r p : Nat) (v : EngineSt) : (s.setEngine r p v).applied = s.applied := rfl
@[simp] theorem State.setEngine_glb (s : State) (r p : Nat) (v : EngineSt) : (s.setEngine r p v).glb = s.glb := rfl
@[simp] theorem State.setEngine_epoch (s : State) (r p : Nat) (v : EngineSt) : (s.setEngine r p v).epoch = s.epoch := rfl
@[simp] theorem State.setEngine_cmd (s : State) (r p : Nat) (v : EngineSt) : (s.setEngine r p v).cmd = s.cmd := rfl
@[simp] theorem State.setEngine_rings (s : State) (r p : Nat) (v : EngineSt) : (s.setEngine r p v).rings = s.rings := rfl
@[simp] theorem State.setEngine_tainted (s : State) (r p : Nat) (v : EngineSt) : (s.setEngine r p v).tainted = s.tainted := rfl
@[simp] theorem State.setEngine_conj (s : State) (r p : Nat) (v : EngineSt) : (s.setEngine r p v).conj = s.conj := rfl
@[simp] theorem State.setEngine_fields (s : State) (r p : Nat) (v : EngineSt) : (s.setEngine r p v).fields = s.fields := rfl
@[simp] theorem State.setEngine_steps (s : State) (r p : Nat) (v : EngineSt) : (s.setEngine r p v).steps = s.steps := rfl
@[simp] theorem State.setEngine_sync (s : State) (r p : Nat) (v : EngineSt) : (s.setEngine r p v).sync = s.sync := rfl
@[simp] theorem State.setEngine_slow (s : State) (r p : Nat) (v : EngineSt) : (s.setEngine r p v).slow = s.slow := rfl
@[simp] theorem State.setEngine_cores (s : State) (r p : Nat) (v : EngineSt) : (s.setEngine r p v).cores = s.cores := rfl
@[simp] theorem State.setEngine_vaults (s : State) (r p : Nat) (v : EngineSt) : (s.setEngine r p v).vaults = s.vaults := rfl
@[simp] theorem State.setEngine_caches (s : State) (r p : Nat) (v : EngineSt) : (s.setEngine r p v).caches = s.caches := rfl
@[simp] theorem State.setEngine_tiers (s : State) (r p : Nat) (v : EngineSt) : (s.setEngine r p v).tiers = s.tiers := rfl
@[simp] theorem State.setEngine_selfRef (s : State) (r p : Nat) (v : EngineSt) : (s.setEngine r p v).selfRef = s.selfRef := rfl
@[simp] theorem State.setEngine_kvm (s : State) (r p : Nat) (v : EngineSt) : (s.setEngine r p v).kvm = s.kvm := rfl
@[simp] theorem State.setEngine_decodes (s : State) (r p : Nat) (v : EngineSt) : (s.setEngine r p v).decodes = s.decodes := rfl
@[simp] theorem State.setEngine_routers (s : State) (r p : Nat) (v : EngineSt) : (s.setEngine r p v).routers = s.routers := rfl
@[simp] theorem State.setEngine_slots (s : State) (r p : Nat) (v : EngineSt) : (s.setEngine r p v).slots = s.slots := rfl
@[simp] theorem State.setEngine_reducing (s : State) (r p : Nat) (v : EngineSt) : (s.setEngine r p v).reducing = s.reducing := rfl
@[simp] theorem State.setEngine_ports (s : State) (r p : Nat) (v : EngineSt) : (s.setEngine r p v).ports = s.ports := rfl
@[simp] theorem State.setEngine_lnk (s : State) (r p : Nat) (v : EngineSt) : (s.setEngine r p v).lnk = s.lnk := rfl
@[simp] theorem State.setEngine_colls (s : State) (r p : Nat) (v : EngineSt) : (s.setEngine r p v).colls = s.colls := rfl
@[simp] theorem State.setEngine_pwr (s : State) (r p : Nat) (v : EngineSt) : (s.setEngine r p v).pwr = s.pwr := rfl
@[simp] theorem State.setEngine_doms (s : State) (r p : Nat) (v : EngineSt) : (s.setEngine r p v).doms = s.doms := rfl
@[simp] theorem State.setEngine_thm (s : State) (r p : Nat) (v : EngineSt) : (s.setEngine r p v).thm = s.thm := rfl
@[simp] theorem State.setEngine_err (s : State) (r p : Nat) (v : EngineSt) : (s.setEngine r p v).err = s.err := rfl
@[simp] theorem State.setEngine_dbg (s : State) (r p : Nat) (v : EngineSt) : (s.setEngine r p v).dbg = s.dbg := rfl
@[simp] theorem State.setEngine_boot (s : State) (r p : Nat) (v : EngineSt) : (s.setEngine r p v).boot = s.boot := rfl
@[simp] theorem State.setEngine_bond (s : State) (r p : Nat) (v : EngineSt) : (s.setEngine r p v).bond = s.bond := rfl
@[simp] theorem State.setEngine_mgt (s : State) (r p : Nat) (v : EngineSt) : (s.setEngine r p v).mgt = s.mgt := rfl
@[simp] theorem State.setEngine_oas (s : State) (r p : Nat) (v : EngineSt) : (s.setEngine r p v).oas = s.oas := rfl
@[simp] theorem State.setEngine_cxl (s : State) (r p : Nat) (v : EngineSt) : (s.setEngine r p v).cxl = s.cxl := rfl
@[simp] theorem State.setEngine_io (s : State) (r p : Nat) (v : EngineSt) : (s.setEngine r p v).io = s.io := rfl
@[simp] theorem State.setEngine_pins (s : State) (r p : Nat) (v : EngineSt) : (s.setEngine r p v).pins = s.pins := rfl

/-! ### `State.setRouter` -/

@[simp] theorem State.setRouter_pending (s : State) (r : Nat) (v : RouterSt) : (s.setRouter r v).pending = s.pending := rfl
@[simp] theorem State.setRouter_time (s : State) (r : Nat) (v : RouterSt) : (s.setRouter r v).time = s.time := rfl
@[simp] theorem State.setRouter_freeIdx (s : State) (r : Nat) (v : RouterSt) : (s.setRouter r v).freeIdx = s.freeIdx := rfl
@[simp] theorem State.setRouter_dram (s : State) (r : Nat) (v : RouterSt) : (s.setRouter r v).dram = s.dram := rfl
@[simp] theorem State.setRouter_playa (s : State) (r : Nat) (v : RouterSt) : (s.setRouter r v).playa = s.playa := rfl
@[simp] theorem State.setRouter_delays (s : State) (r : Nat) (v : RouterSt) : (s.setRouter r v).delays = s.delays := rfl
@[simp] theorem State.setRouter_host (s : State) (r : Nat) (v : RouterSt) : (s.setRouter r v).host = s.host := rfl
@[simp] theorem State.setRouter_ctr (s : State) (r : Nat) (v : RouterSt) : (s.setRouter r v).ctr = s.ctr := rfl
@[simp] theorem State.setRouter_latchHi (s : State) (r : Nat) (v : RouterSt) : (s.setRouter r v).latchHi = s.latchHi := rfl
@[simp] theorem State.setRouter_loHold (s : State) (r : Nat) (v : RouterSt) : (s.setRouter r v).loHold = s.loHold := rfl
@[simp] theorem State.setRouter_staged (s : State) (r : Nat) (v : RouterSt) : (s.setRouter r v).staged = s.staged := rfl
@[simp] theorem State.setRouter_applied (s : State) (r : Nat) (v : RouterSt) : (s.setRouter r v).applied = s.applied := rfl
@[simp] theorem State.setRouter_glb (s : State) (r : Nat) (v : RouterSt) : (s.setRouter r v).glb = s.glb := rfl
@[simp] theorem State.setRouter_epoch (s : State) (r : Nat) (v : RouterSt) : (s.setRouter r v).epoch = s.epoch := rfl
@[simp] theorem State.setRouter_cmd (s : State) (r : Nat) (v : RouterSt) : (s.setRouter r v).cmd = s.cmd := rfl
@[simp] theorem State.setRouter_rings (s : State) (r : Nat) (v : RouterSt) : (s.setRouter r v).rings = s.rings := rfl
@[simp] theorem State.setRouter_tainted (s : State) (r : Nat) (v : RouterSt) : (s.setRouter r v).tainted = s.tainted := rfl
@[simp] theorem State.setRouter_conj (s : State) (r : Nat) (v : RouterSt) : (s.setRouter r v).conj = s.conj := rfl
@[simp] theorem State.setRouter_fields (s : State) (r : Nat) (v : RouterSt) : (s.setRouter r v).fields = s.fields := rfl
@[simp] theorem State.setRouter_steps (s : State) (r : Nat) (v : RouterSt) : (s.setRouter r v).steps = s.steps := rfl
@[simp] theorem State.setRouter_sync (s : State) (r : Nat) (v : RouterSt) : (s.setRouter r v).sync = s.sync := rfl
@[simp] theorem State.setRouter_slow (s : State) (r : Nat) (v : RouterSt) : (s.setRouter r v).slow = s.slow := rfl
@[simp] theorem State.setRouter_cores (s : State) (r : Nat) (v : RouterSt) : (s.setRouter r v).cores = s.cores := rfl
@[simp] theorem State.setRouter_vaults (s : State) (r : Nat) (v : RouterSt) : (s.setRouter r v).vaults = s.vaults := rfl
@[simp] theorem State.setRouter_caches (s : State) (r : Nat) (v : RouterSt) : (s.setRouter r v).caches = s.caches := rfl
@[simp] theorem State.setRouter_tiers (s : State) (r : Nat) (v : RouterSt) : (s.setRouter r v).tiers = s.tiers := rfl
@[simp] theorem State.setRouter_engines (s : State) (r : Nat) (v : RouterSt) : (s.setRouter r v).engines = s.engines := rfl
@[simp] theorem State.setRouter_selfRef (s : State) (r : Nat) (v : RouterSt) : (s.setRouter r v).selfRef = s.selfRef := rfl
@[simp] theorem State.setRouter_kvm (s : State) (r : Nat) (v : RouterSt) : (s.setRouter r v).kvm = s.kvm := rfl
@[simp] theorem State.setRouter_decodes (s : State) (r : Nat) (v : RouterSt) : (s.setRouter r v).decodes = s.decodes := rfl
@[simp] theorem State.setRouter_slots (s : State) (r : Nat) (v : RouterSt) : (s.setRouter r v).slots = s.slots := rfl
@[simp] theorem State.setRouter_reducing (s : State) (r : Nat) (v : RouterSt) : (s.setRouter r v).reducing = s.reducing := rfl
@[simp] theorem State.setRouter_ports (s : State) (r : Nat) (v : RouterSt) : (s.setRouter r v).ports = s.ports := rfl
@[simp] theorem State.setRouter_lnk (s : State) (r : Nat) (v : RouterSt) : (s.setRouter r v).lnk = s.lnk := rfl
@[simp] theorem State.setRouter_colls (s : State) (r : Nat) (v : RouterSt) : (s.setRouter r v).colls = s.colls := rfl
@[simp] theorem State.setRouter_pwr (s : State) (r : Nat) (v : RouterSt) : (s.setRouter r v).pwr = s.pwr := rfl
@[simp] theorem State.setRouter_doms (s : State) (r : Nat) (v : RouterSt) : (s.setRouter r v).doms = s.doms := rfl
@[simp] theorem State.setRouter_thm (s : State) (r : Nat) (v : RouterSt) : (s.setRouter r v).thm = s.thm := rfl
@[simp] theorem State.setRouter_err (s : State) (r : Nat) (v : RouterSt) : (s.setRouter r v).err = s.err := rfl
@[simp] theorem State.setRouter_dbg (s : State) (r : Nat) (v : RouterSt) : (s.setRouter r v).dbg = s.dbg := rfl
@[simp] theorem State.setRouter_boot (s : State) (r : Nat) (v : RouterSt) : (s.setRouter r v).boot = s.boot := rfl
@[simp] theorem State.setRouter_bond (s : State) (r : Nat) (v : RouterSt) : (s.setRouter r v).bond = s.bond := rfl
@[simp] theorem State.setRouter_mgt (s : State) (r : Nat) (v : RouterSt) : (s.setRouter r v).mgt = s.mgt := rfl
@[simp] theorem State.setRouter_oas (s : State) (r : Nat) (v : RouterSt) : (s.setRouter r v).oas = s.oas := rfl
@[simp] theorem State.setRouter_cxl (s : State) (r : Nat) (v : RouterSt) : (s.setRouter r v).cxl = s.cxl := rfl
@[simp] theorem State.setRouter_io (s : State) (r : Nat) (v : RouterSt) : (s.setRouter r v).io = s.io := rfl
@[simp] theorem State.setRouter_pins (s : State) (r : Nat) (v : RouterSt) : (s.setRouter r v).pins = s.pins := rfl

/-! ### `State.setPort` -/

@[simp] theorem State.setPort_pending (s : State) (r : Nat) (v : PortSt) : (s.setPort r v).pending = s.pending := rfl
@[simp] theorem State.setPort_time (s : State) (r : Nat) (v : PortSt) : (s.setPort r v).time = s.time := rfl
@[simp] theorem State.setPort_freeIdx (s : State) (r : Nat) (v : PortSt) : (s.setPort r v).freeIdx = s.freeIdx := rfl
@[simp] theorem State.setPort_dram (s : State) (r : Nat) (v : PortSt) : (s.setPort r v).dram = s.dram := rfl
@[simp] theorem State.setPort_playa (s : State) (r : Nat) (v : PortSt) : (s.setPort r v).playa = s.playa := rfl
@[simp] theorem State.setPort_delays (s : State) (r : Nat) (v : PortSt) : (s.setPort r v).delays = s.delays := rfl
@[simp] theorem State.setPort_host (s : State) (r : Nat) (v : PortSt) : (s.setPort r v).host = s.host := rfl
@[simp] theorem State.setPort_ctr (s : State) (r : Nat) (v : PortSt) : (s.setPort r v).ctr = s.ctr := rfl
@[simp] theorem State.setPort_latchHi (s : State) (r : Nat) (v : PortSt) : (s.setPort r v).latchHi = s.latchHi := rfl
@[simp] theorem State.setPort_loHold (s : State) (r : Nat) (v : PortSt) : (s.setPort r v).loHold = s.loHold := rfl
@[simp] theorem State.setPort_staged (s : State) (r : Nat) (v : PortSt) : (s.setPort r v).staged = s.staged := rfl
@[simp] theorem State.setPort_applied (s : State) (r : Nat) (v : PortSt) : (s.setPort r v).applied = s.applied := rfl
@[simp] theorem State.setPort_glb (s : State) (r : Nat) (v : PortSt) : (s.setPort r v).glb = s.glb := rfl
@[simp] theorem State.setPort_epoch (s : State) (r : Nat) (v : PortSt) : (s.setPort r v).epoch = s.epoch := rfl
@[simp] theorem State.setPort_cmd (s : State) (r : Nat) (v : PortSt) : (s.setPort r v).cmd = s.cmd := rfl
@[simp] theorem State.setPort_rings (s : State) (r : Nat) (v : PortSt) : (s.setPort r v).rings = s.rings := rfl
@[simp] theorem State.setPort_tainted (s : State) (r : Nat) (v : PortSt) : (s.setPort r v).tainted = s.tainted := rfl
@[simp] theorem State.setPort_conj (s : State) (r : Nat) (v : PortSt) : (s.setPort r v).conj = s.conj := rfl
@[simp] theorem State.setPort_fields (s : State) (r : Nat) (v : PortSt) : (s.setPort r v).fields = s.fields := rfl
@[simp] theorem State.setPort_steps (s : State) (r : Nat) (v : PortSt) : (s.setPort r v).steps = s.steps := rfl
@[simp] theorem State.setPort_sync (s : State) (r : Nat) (v : PortSt) : (s.setPort r v).sync = s.sync := rfl
@[simp] theorem State.setPort_slow (s : State) (r : Nat) (v : PortSt) : (s.setPort r v).slow = s.slow := rfl
@[simp] theorem State.setPort_cores (s : State) (r : Nat) (v : PortSt) : (s.setPort r v).cores = s.cores := rfl
@[simp] theorem State.setPort_vaults (s : State) (r : Nat) (v : PortSt) : (s.setPort r v).vaults = s.vaults := rfl
@[simp] theorem State.setPort_caches (s : State) (r : Nat) (v : PortSt) : (s.setPort r v).caches = s.caches := rfl
@[simp] theorem State.setPort_tiers (s : State) (r : Nat) (v : PortSt) : (s.setPort r v).tiers = s.tiers := rfl
@[simp] theorem State.setPort_engines (s : State) (r : Nat) (v : PortSt) : (s.setPort r v).engines = s.engines := rfl
@[simp] theorem State.setPort_selfRef (s : State) (r : Nat) (v : PortSt) : (s.setPort r v).selfRef = s.selfRef := rfl
@[simp] theorem State.setPort_kvm (s : State) (r : Nat) (v : PortSt) : (s.setPort r v).kvm = s.kvm := rfl
@[simp] theorem State.setPort_decodes (s : State) (r : Nat) (v : PortSt) : (s.setPort r v).decodes = s.decodes := rfl
@[simp] theorem State.setPort_routers (s : State) (r : Nat) (v : PortSt) : (s.setPort r v).routers = s.routers := rfl
@[simp] theorem State.setPort_slots (s : State) (r : Nat) (v : PortSt) : (s.setPort r v).slots = s.slots := rfl
@[simp] theorem State.setPort_reducing (s : State) (r : Nat) (v : PortSt) : (s.setPort r v).reducing = s.reducing := rfl
@[simp] theorem State.setPort_lnk (s : State) (r : Nat) (v : PortSt) : (s.setPort r v).lnk = s.lnk := rfl
@[simp] theorem State.setPort_colls (s : State) (r : Nat) (v : PortSt) : (s.setPort r v).colls = s.colls := rfl
@[simp] theorem State.setPort_pwr (s : State) (r : Nat) (v : PortSt) : (s.setPort r v).pwr = s.pwr := rfl
@[simp] theorem State.setPort_doms (s : State) (r : Nat) (v : PortSt) : (s.setPort r v).doms = s.doms := rfl
@[simp] theorem State.setPort_thm (s : State) (r : Nat) (v : PortSt) : (s.setPort r v).thm = s.thm := rfl
@[simp] theorem State.setPort_err (s : State) (r : Nat) (v : PortSt) : (s.setPort r v).err = s.err := rfl
@[simp] theorem State.setPort_dbg (s : State) (r : Nat) (v : PortSt) : (s.setPort r v).dbg = s.dbg := rfl
@[simp] theorem State.setPort_boot (s : State) (r : Nat) (v : PortSt) : (s.setPort r v).boot = s.boot := rfl
@[simp] theorem State.setPort_bond (s : State) (r : Nat) (v : PortSt) : (s.setPort r v).bond = s.bond := rfl
@[simp] theorem State.setPort_mgt (s : State) (r : Nat) (v : PortSt) : (s.setPort r v).mgt = s.mgt := rfl
@[simp] theorem State.setPort_oas (s : State) (r : Nat) (v : PortSt) : (s.setPort r v).oas = s.oas := rfl
@[simp] theorem State.setPort_cxl (s : State) (r : Nat) (v : PortSt) : (s.setPort r v).cxl = s.cxl := rfl
@[simp] theorem State.setPort_io (s : State) (r : Nat) (v : PortSt) : (s.setPort r v).io = s.io := rfl
@[simp] theorem State.setPort_pins (s : State) (r : Nat) (v : PortSt) : (s.setPort r v).pins = s.pins := rfl

/-! ### `State.setDom` -/

@[simp] theorem State.setDom_pending (s : State) (r : Nat) (v : DomSt) : (s.setDom r v).pending = s.pending := rfl
@[simp] theorem State.setDom_time (s : State) (r : Nat) (v : DomSt) : (s.setDom r v).time = s.time := rfl
@[simp] theorem State.setDom_freeIdx (s : State) (r : Nat) (v : DomSt) : (s.setDom r v).freeIdx = s.freeIdx := rfl
@[simp] theorem State.setDom_dram (s : State) (r : Nat) (v : DomSt) : (s.setDom r v).dram = s.dram := rfl
@[simp] theorem State.setDom_playa (s : State) (r : Nat) (v : DomSt) : (s.setDom r v).playa = s.playa := rfl
@[simp] theorem State.setDom_delays (s : State) (r : Nat) (v : DomSt) : (s.setDom r v).delays = s.delays := rfl
@[simp] theorem State.setDom_host (s : State) (r : Nat) (v : DomSt) : (s.setDom r v).host = s.host := rfl
@[simp] theorem State.setDom_ctr (s : State) (r : Nat) (v : DomSt) : (s.setDom r v).ctr = s.ctr := rfl
@[simp] theorem State.setDom_latchHi (s : State) (r : Nat) (v : DomSt) : (s.setDom r v).latchHi = s.latchHi := rfl
@[simp] theorem State.setDom_loHold (s : State) (r : Nat) (v : DomSt) : (s.setDom r v).loHold = s.loHold := rfl
@[simp] theorem State.setDom_staged (s : State) (r : Nat) (v : DomSt) : (s.setDom r v).staged = s.staged := rfl
@[simp] theorem State.setDom_applied (s : State) (r : Nat) (v : DomSt) : (s.setDom r v).applied = s.applied := rfl
@[simp] theorem State.setDom_glb (s : State) (r : Nat) (v : DomSt) : (s.setDom r v).glb = s.glb := rfl
@[simp] theorem State.setDom_epoch (s : State) (r : Nat) (v : DomSt) : (s.setDom r v).epoch = s.epoch := rfl
@[simp] theorem State.setDom_cmd (s : State) (r : Nat) (v : DomSt) : (s.setDom r v).cmd = s.cmd := rfl
@[simp] theorem State.setDom_rings (s : State) (r : Nat) (v : DomSt) : (s.setDom r v).rings = s.rings := rfl
@[simp] theorem State.setDom_tainted (s : State) (r : Nat) (v : DomSt) : (s.setDom r v).tainted = s.tainted := rfl
@[simp] theorem State.setDom_conj (s : State) (r : Nat) (v : DomSt) : (s.setDom r v).conj = s.conj := rfl
@[simp] theorem State.setDom_fields (s : State) (r : Nat) (v : DomSt) : (s.setDom r v).fields = s.fields := rfl
@[simp] theorem State.setDom_steps (s : State) (r : Nat) (v : DomSt) : (s.setDom r v).steps = s.steps := rfl
@[simp] theorem State.setDom_sync (s : State) (r : Nat) (v : DomSt) : (s.setDom r v).sync = s.sync := rfl
@[simp] theorem State.setDom_slow (s : State) (r : Nat) (v : DomSt) : (s.setDom r v).slow = s.slow := rfl
@[simp] theorem State.setDom_cores (s : State) (r : Nat) (v : DomSt) : (s.setDom r v).cores = s.cores := rfl
@[simp] theorem State.setDom_vaults (s : State) (r : Nat) (v : DomSt) : (s.setDom r v).vaults = s.vaults := rfl
@[simp] theorem State.setDom_caches (s : State) (r : Nat) (v : DomSt) : (s.setDom r v).caches = s.caches := rfl
@[simp] theorem State.setDom_tiers (s : State) (r : Nat) (v : DomSt) : (s.setDom r v).tiers = s.tiers := rfl
@[simp] theorem State.setDom_engines (s : State) (r : Nat) (v : DomSt) : (s.setDom r v).engines = s.engines := rfl
@[simp] theorem State.setDom_selfRef (s : State) (r : Nat) (v : DomSt) : (s.setDom r v).selfRef = s.selfRef := rfl
@[simp] theorem State.setDom_kvm (s : State) (r : Nat) (v : DomSt) : (s.setDom r v).kvm = s.kvm := rfl
@[simp] theorem State.setDom_decodes (s : State) (r : Nat) (v : DomSt) : (s.setDom r v).decodes = s.decodes := rfl
@[simp] theorem State.setDom_routers (s : State) (r : Nat) (v : DomSt) : (s.setDom r v).routers = s.routers := rfl
@[simp] theorem State.setDom_slots (s : State) (r : Nat) (v : DomSt) : (s.setDom r v).slots = s.slots := rfl
@[simp] theorem State.setDom_reducing (s : State) (r : Nat) (v : DomSt) : (s.setDom r v).reducing = s.reducing := rfl
@[simp] theorem State.setDom_ports (s : State) (r : Nat) (v : DomSt) : (s.setDom r v).ports = s.ports := rfl
@[simp] theorem State.setDom_lnk (s : State) (r : Nat) (v : DomSt) : (s.setDom r v).lnk = s.lnk := rfl
@[simp] theorem State.setDom_colls (s : State) (r : Nat) (v : DomSt) : (s.setDom r v).colls = s.colls := rfl
@[simp] theorem State.setDom_pwr (s : State) (r : Nat) (v : DomSt) : (s.setDom r v).pwr = s.pwr := rfl
@[simp] theorem State.setDom_thm (s : State) (r : Nat) (v : DomSt) : (s.setDom r v).thm = s.thm := rfl
@[simp] theorem State.setDom_err (s : State) (r : Nat) (v : DomSt) : (s.setDom r v).err = s.err := rfl
@[simp] theorem State.setDom_dbg (s : State) (r : Nat) (v : DomSt) : (s.setDom r v).dbg = s.dbg := rfl
@[simp] theorem State.setDom_boot (s : State) (r : Nat) (v : DomSt) : (s.setDom r v).boot = s.boot := rfl
@[simp] theorem State.setDom_bond (s : State) (r : Nat) (v : DomSt) : (s.setDom r v).bond = s.bond := rfl
@[simp] theorem State.setDom_mgt (s : State) (r : Nat) (v : DomSt) : (s.setDom r v).mgt = s.mgt := rfl
@[simp] theorem State.setDom_oas (s : State) (r : Nat) (v : DomSt) : (s.setDom r v).oas = s.oas := rfl
@[simp] theorem State.setDom_cxl (s : State) (r : Nat) (v : DomSt) : (s.setDom r v).cxl = s.cxl := rfl
@[simp] theorem State.setDom_io (s : State) (r : Nat) (v : DomSt) : (s.setDom r v).io = s.io := rfl
@[simp] theorem State.setDom_pins (s : State) (r : Nat) (v : DomSt) : (s.setDom r v).pins = s.pins := rfl

/-! ### `State.setSync` -/

@[simp] theorem State.setSync_pending (s : State) (r : Nat) (v : SyncObj) : (s.setSync r v).pending = s.pending := rfl
@[simp] theorem State.setSync_time (s : State) (r : Nat) (v : SyncObj) : (s.setSync r v).time = s.time := rfl
@[simp] theorem State.setSync_freeIdx (s : State) (r : Nat) (v : SyncObj) : (s.setSync r v).freeIdx = s.freeIdx := rfl
@[simp] theorem State.setSync_dram (s : State) (r : Nat) (v : SyncObj) : (s.setSync r v).dram = s.dram := rfl
@[simp] theorem State.setSync_playa (s : State) (r : Nat) (v : SyncObj) : (s.setSync r v).playa = s.playa := rfl
@[simp] theorem State.setSync_delays (s : State) (r : Nat) (v : SyncObj) : (s.setSync r v).delays = s.delays := rfl
@[simp] theorem State.setSync_host (s : State) (r : Nat) (v : SyncObj) : (s.setSync r v).host = s.host := rfl
@[simp] theorem State.setSync_ctr (s : State) (r : Nat) (v : SyncObj) : (s.setSync r v).ctr = s.ctr := rfl
@[simp] theorem State.setSync_latchHi (s : State) (r : Nat) (v : SyncObj) : (s.setSync r v).latchHi = s.latchHi := rfl
@[simp] theorem State.setSync_loHold (s : State) (r : Nat) (v : SyncObj) : (s.setSync r v).loHold = s.loHold := rfl
@[simp] theorem State.setSync_staged (s : State) (r : Nat) (v : SyncObj) : (s.setSync r v).staged = s.staged := rfl
@[simp] theorem State.setSync_applied (s : State) (r : Nat) (v : SyncObj) : (s.setSync r v).applied = s.applied := rfl
@[simp] theorem State.setSync_glb (s : State) (r : Nat) (v : SyncObj) : (s.setSync r v).glb = s.glb := rfl
@[simp] theorem State.setSync_epoch (s : State) (r : Nat) (v : SyncObj) : (s.setSync r v).epoch = s.epoch := rfl
@[simp] theorem State.setSync_cmd (s : State) (r : Nat) (v : SyncObj) : (s.setSync r v).cmd = s.cmd := rfl
@[simp] theorem State.setSync_rings (s : State) (r : Nat) (v : SyncObj) : (s.setSync r v).rings = s.rings := rfl
@[simp] theorem State.setSync_tainted (s : State) (r : Nat) (v : SyncObj) : (s.setSync r v).tainted = s.tainted := rfl
@[simp] theorem State.setSync_conj (s : State) (r : Nat) (v : SyncObj) : (s.setSync r v).conj = s.conj := rfl
@[simp] theorem State.setSync_fields (s : State) (r : Nat) (v : SyncObj) : (s.setSync r v).fields = s.fields := rfl
@[simp] theorem State.setSync_steps (s : State) (r : Nat) (v : SyncObj) : (s.setSync r v).steps = s.steps := rfl
@[simp] theorem State.setSync_slow (s : State) (r : Nat) (v : SyncObj) : (s.setSync r v).slow = s.slow := rfl
@[simp] theorem State.setSync_cores (s : State) (r : Nat) (v : SyncObj) : (s.setSync r v).cores = s.cores := rfl
@[simp] theorem State.setSync_vaults (s : State) (r : Nat) (v : SyncObj) : (s.setSync r v).vaults = s.vaults := rfl
@[simp] theorem State.setSync_caches (s : State) (r : Nat) (v : SyncObj) : (s.setSync r v).caches = s.caches := rfl
@[simp] theorem State.setSync_tiers (s : State) (r : Nat) (v : SyncObj) : (s.setSync r v).tiers = s.tiers := rfl
@[simp] theorem State.setSync_engines (s : State) (r : Nat) (v : SyncObj) : (s.setSync r v).engines = s.engines := rfl
@[simp] theorem State.setSync_selfRef (s : State) (r : Nat) (v : SyncObj) : (s.setSync r v).selfRef = s.selfRef := rfl
@[simp] theorem State.setSync_kvm (s : State) (r : Nat) (v : SyncObj) : (s.setSync r v).kvm = s.kvm := rfl
@[simp] theorem State.setSync_decodes (s : State) (r : Nat) (v : SyncObj) : (s.setSync r v).decodes = s.decodes := rfl
@[simp] theorem State.setSync_routers (s : State) (r : Nat) (v : SyncObj) : (s.setSync r v).routers = s.routers := rfl
@[simp] theorem State.setSync_slots (s : State) (r : Nat) (v : SyncObj) : (s.setSync r v).slots = s.slots := rfl
@[simp] theorem State.setSync_reducing (s : State) (r : Nat) (v : SyncObj) : (s.setSync r v).reducing = s.reducing := rfl
@[simp] theorem State.setSync_ports (s : State) (r : Nat) (v : SyncObj) : (s.setSync r v).ports = s.ports := rfl
@[simp] theorem State.setSync_lnk (s : State) (r : Nat) (v : SyncObj) : (s.setSync r v).lnk = s.lnk := rfl
@[simp] theorem State.setSync_colls (s : State) (r : Nat) (v : SyncObj) : (s.setSync r v).colls = s.colls := rfl
@[simp] theorem State.setSync_pwr (s : State) (r : Nat) (v : SyncObj) : (s.setSync r v).pwr = s.pwr := rfl
@[simp] theorem State.setSync_doms (s : State) (r : Nat) (v : SyncObj) : (s.setSync r v).doms = s.doms := rfl
@[simp] theorem State.setSync_thm (s : State) (r : Nat) (v : SyncObj) : (s.setSync r v).thm = s.thm := rfl
@[simp] theorem State.setSync_err (s : State) (r : Nat) (v : SyncObj) : (s.setSync r v).err = s.err := rfl
@[simp] theorem State.setSync_dbg (s : State) (r : Nat) (v : SyncObj) : (s.setSync r v).dbg = s.dbg := rfl
@[simp] theorem State.setSync_boot (s : State) (r : Nat) (v : SyncObj) : (s.setSync r v).boot = s.boot := rfl
@[simp] theorem State.setSync_bond (s : State) (r : Nat) (v : SyncObj) : (s.setSync r v).bond = s.bond := rfl
@[simp] theorem State.setSync_mgt (s : State) (r : Nat) (v : SyncObj) : (s.setSync r v).mgt = s.mgt := rfl
@[simp] theorem State.setSync_oas (s : State) (r : Nat) (v : SyncObj) : (s.setSync r v).oas = s.oas := rfl
@[simp] theorem State.setSync_cxl (s : State) (r : Nat) (v : SyncObj) : (s.setSync r v).cxl = s.cxl := rfl
@[simp] theorem State.setSync_io (s : State) (r : Nat) (v : SyncObj) : (s.setSync r v).io = s.io := rfl
@[simp] theorem State.setSync_pins (s : State) (r : Nat) (v : SyncObj) : (s.setSync r v).pins = s.pins := rfl

/-! ### `State.setSlow` -/

@[simp] theorem State.setSlow_pending (s : State) (r : Nat) (v : SlowSt) : (s.setSlow r v).pending = s.pending := rfl
@[simp] theorem State.setSlow_time (s : State) (r : Nat) (v : SlowSt) : (s.setSlow r v).time = s.time := rfl
@[simp] theorem State.setSlow_freeIdx (s : State) (r : Nat) (v : SlowSt) : (s.setSlow r v).freeIdx = s.freeIdx := rfl
@[simp] theorem State.setSlow_dram (s : State) (r : Nat) (v : SlowSt) : (s.setSlow r v).dram = s.dram := rfl
@[simp] theorem State.setSlow_playa (s : State) (r : Nat) (v : SlowSt) : (s.setSlow r v).playa = s.playa := rfl
@[simp] theorem State.setSlow_delays (s : State) (r : Nat) (v : SlowSt) : (s.setSlow r v).delays = s.delays := rfl
@[simp] theorem State.setSlow_host (s : State) (r : Nat) (v : SlowSt) : (s.setSlow r v).host = s.host := rfl
@[simp] theorem State.setSlow_ctr (s : State) (r : Nat) (v : SlowSt) : (s.setSlow r v).ctr = s.ctr := rfl
@[simp] theorem State.setSlow_latchHi (s : State) (r : Nat) (v : SlowSt) : (s.setSlow r v).latchHi = s.latchHi := rfl
@[simp] theorem State.setSlow_loHold (s : State) (r : Nat) (v : SlowSt) : (s.setSlow r v).loHold = s.loHold := rfl
@[simp] theorem State.setSlow_staged (s : State) (r : Nat) (v : SlowSt) : (s.setSlow r v).staged = s.staged := rfl
@[simp] theorem State.setSlow_applied (s : State) (r : Nat) (v : SlowSt) : (s.setSlow r v).applied = s.applied := rfl
@[simp] theorem State.setSlow_glb (s : State) (r : Nat) (v : SlowSt) : (s.setSlow r v).glb = s.glb := rfl
@[simp] theorem State.setSlow_epoch (s : State) (r : Nat) (v : SlowSt) : (s.setSlow r v).epoch = s.epoch := rfl
@[simp] theorem State.setSlow_cmd (s : State) (r : Nat) (v : SlowSt) : (s.setSlow r v).cmd = s.cmd := rfl
@[simp] theorem State.setSlow_rings (s : State) (r : Nat) (v : SlowSt) : (s.setSlow r v).rings = s.rings := rfl
@[simp] theorem State.setSlow_tainted (s : State) (r : Nat) (v : SlowSt) : (s.setSlow r v).tainted = s.tainted := rfl
@[simp] theorem State.setSlow_conj (s : State) (r : Nat) (v : SlowSt) : (s.setSlow r v).conj = s.conj := rfl
@[simp] theorem State.setSlow_fields (s : State) (r : Nat) (v : SlowSt) : (s.setSlow r v).fields = s.fields := rfl
@[simp] theorem State.setSlow_steps (s : State) (r : Nat) (v : SlowSt) : (s.setSlow r v).steps = s.steps := rfl
@[simp] theorem State.setSlow_sync (s : State) (r : Nat) (v : SlowSt) : (s.setSlow r v).sync = s.sync := rfl
@[simp] theorem State.setSlow_cores (s : State) (r : Nat) (v : SlowSt) : (s.setSlow r v).cores = s.cores := rfl
@[simp] theorem State.setSlow_vaults (s : State) (r : Nat) (v : SlowSt) : (s.setSlow r v).vaults = s.vaults := rfl
@[simp] theorem State.setSlow_caches (s : State) (r : Nat) (v : SlowSt) : (s.setSlow r v).caches = s.caches := rfl
@[simp] theorem State.setSlow_tiers (s : State) (r : Nat) (v : SlowSt) : (s.setSlow r v).tiers = s.tiers := rfl
@[simp] theorem State.setSlow_engines (s : State) (r : Nat) (v : SlowSt) : (s.setSlow r v).engines = s.engines := rfl
@[simp] theorem State.setSlow_selfRef (s : State) (r : Nat) (v : SlowSt) : (s.setSlow r v).selfRef = s.selfRef := rfl
@[simp] theorem State.setSlow_kvm (s : State) (r : Nat) (v : SlowSt) : (s.setSlow r v).kvm = s.kvm := rfl
@[simp] theorem State.setSlow_decodes (s : State) (r : Nat) (v : SlowSt) : (s.setSlow r v).decodes = s.decodes := rfl
@[simp] theorem State.setSlow_routers (s : State) (r : Nat) (v : SlowSt) : (s.setSlow r v).routers = s.routers := rfl
@[simp] theorem State.setSlow_slots (s : State) (r : Nat) (v : SlowSt) : (s.setSlow r v).slots = s.slots := rfl
@[simp] theorem State.setSlow_reducing (s : State) (r : Nat) (v : SlowSt) : (s.setSlow r v).reducing = s.reducing := rfl
@[simp] theorem State.setSlow_ports (s : State) (r : Nat) (v : SlowSt) : (s.setSlow r v).ports = s.ports := rfl
@[simp] theorem State.setSlow_lnk (s : State) (r : Nat) (v : SlowSt) : (s.setSlow r v).lnk = s.lnk := rfl
@[simp] theorem State.setSlow_colls (s : State) (r : Nat) (v : SlowSt) : (s.setSlow r v).colls = s.colls := rfl
@[simp] theorem State.setSlow_pwr (s : State) (r : Nat) (v : SlowSt) : (s.setSlow r v).pwr = s.pwr := rfl
@[simp] theorem State.setSlow_doms (s : State) (r : Nat) (v : SlowSt) : (s.setSlow r v).doms = s.doms := rfl
@[simp] theorem State.setSlow_thm (s : State) (r : Nat) (v : SlowSt) : (s.setSlow r v).thm = s.thm := rfl
@[simp] theorem State.setSlow_err (s : State) (r : Nat) (v : SlowSt) : (s.setSlow r v).err = s.err := rfl
@[simp] theorem State.setSlow_dbg (s : State) (r : Nat) (v : SlowSt) : (s.setSlow r v).dbg = s.dbg := rfl
@[simp] theorem State.setSlow_boot (s : State) (r : Nat) (v : SlowSt) : (s.setSlow r v).boot = s.boot := rfl
@[simp] theorem State.setSlow_bond (s : State) (r : Nat) (v : SlowSt) : (s.setSlow r v).bond = s.bond := rfl
@[simp] theorem State.setSlow_mgt (s : State) (r : Nat) (v : SlowSt) : (s.setSlow r v).mgt = s.mgt := rfl
@[simp] theorem State.setSlow_oas (s : State) (r : Nat) (v : SlowSt) : (s.setSlow r v).oas = s.oas := rfl
@[simp] theorem State.setSlow_cxl (s : State) (r : Nat) (v : SlowSt) : (s.setSlow r v).cxl = s.cxl := rfl
@[simp] theorem State.setSlow_io (s : State) (r : Nat) (v : SlowSt) : (s.setSlow r v).io = s.io := rfl
@[simp] theorem State.setSlow_pins (s : State) (r : Nat) (v : SlowSt) : (s.setSlow r v).pins = s.pins := rfl

/-! ### `State.setSensor` -/

@[simp] theorem State.setSensor_pending (s : State) (r : Nat) (v : SensorSt) : (s.setSensor r v).pending = s.pending := rfl
@[simp] theorem State.setSensor_time (s : State) (r : Nat) (v : SensorSt) : (s.setSensor r v).time = s.time := rfl
@[simp] theorem State.setSensor_freeIdx (s : State) (r : Nat) (v : SensorSt) : (s.setSensor r v).freeIdx = s.freeIdx := rfl
@[simp] theorem State.setSensor_dram (s : State) (r : Nat) (v : SensorSt) : (s.setSensor r v).dram = s.dram := rfl
@[simp] theorem State.setSensor_playa (s : State) (r : Nat) (v : SensorSt) : (s.setSensor r v).playa = s.playa := rfl
@[simp] theorem State.setSensor_delays (s : State) (r : Nat) (v : SensorSt) : (s.setSensor r v).delays = s.delays := rfl
@[simp] theorem State.setSensor_host (s : State) (r : Nat) (v : SensorSt) : (s.setSensor r v).host = s.host := rfl
@[simp] theorem State.setSensor_ctr (s : State) (r : Nat) (v : SensorSt) : (s.setSensor r v).ctr = s.ctr := rfl
@[simp] theorem State.setSensor_latchHi (s : State) (r : Nat) (v : SensorSt) : (s.setSensor r v).latchHi = s.latchHi := rfl
@[simp] theorem State.setSensor_loHold (s : State) (r : Nat) (v : SensorSt) : (s.setSensor r v).loHold = s.loHold := rfl
@[simp] theorem State.setSensor_staged (s : State) (r : Nat) (v : SensorSt) : (s.setSensor r v).staged = s.staged := rfl
@[simp] theorem State.setSensor_applied (s : State) (r : Nat) (v : SensorSt) : (s.setSensor r v).applied = s.applied := rfl
@[simp] theorem State.setSensor_glb (s : State) (r : Nat) (v : SensorSt) : (s.setSensor r v).glb = s.glb := rfl
@[simp] theorem State.setSensor_epoch (s : State) (r : Nat) (v : SensorSt) : (s.setSensor r v).epoch = s.epoch := rfl
@[simp] theorem State.setSensor_cmd (s : State) (r : Nat) (v : SensorSt) : (s.setSensor r v).cmd = s.cmd := rfl
@[simp] theorem State.setSensor_rings (s : State) (r : Nat) (v : SensorSt) : (s.setSensor r v).rings = s.rings := rfl
@[simp] theorem State.setSensor_tainted (s : State) (r : Nat) (v : SensorSt) : (s.setSensor r v).tainted = s.tainted := rfl
@[simp] theorem State.setSensor_conj (s : State) (r : Nat) (v : SensorSt) : (s.setSensor r v).conj = s.conj := rfl
@[simp] theorem State.setSensor_fields (s : State) (r : Nat) (v : SensorSt) : (s.setSensor r v).fields = s.fields := rfl
@[simp] theorem State.setSensor_steps (s : State) (r : Nat) (v : SensorSt) : (s.setSensor r v).steps = s.steps := rfl
@[simp] theorem State.setSensor_sync (s : State) (r : Nat) (v : SensorSt) : (s.setSensor r v).sync = s.sync := rfl
@[simp] theorem State.setSensor_slow (s : State) (r : Nat) (v : SensorSt) : (s.setSensor r v).slow = s.slow := rfl
@[simp] theorem State.setSensor_cores (s : State) (r : Nat) (v : SensorSt) : (s.setSensor r v).cores = s.cores := rfl
@[simp] theorem State.setSensor_vaults (s : State) (r : Nat) (v : SensorSt) : (s.setSensor r v).vaults = s.vaults := rfl
@[simp] theorem State.setSensor_caches (s : State) (r : Nat) (v : SensorSt) : (s.setSensor r v).caches = s.caches := rfl
@[simp] theorem State.setSensor_tiers (s : State) (r : Nat) (v : SensorSt) : (s.setSensor r v).tiers = s.tiers := rfl
@[simp] theorem State.setSensor_engines (s : State) (r : Nat) (v : SensorSt) : (s.setSensor r v).engines = s.engines := rfl
@[simp] theorem State.setSensor_selfRef (s : State) (r : Nat) (v : SensorSt) : (s.setSensor r v).selfRef = s.selfRef := rfl
@[simp] theorem State.setSensor_kvm (s : State) (r : Nat) (v : SensorSt) : (s.setSensor r v).kvm = s.kvm := rfl
@[simp] theorem State.setSensor_decodes (s : State) (r : Nat) (v : SensorSt) : (s.setSensor r v).decodes = s.decodes := rfl
@[simp] theorem State.setSensor_routers (s : State) (r : Nat) (v : SensorSt) : (s.setSensor r v).routers = s.routers := rfl
@[simp] theorem State.setSensor_slots (s : State) (r : Nat) (v : SensorSt) : (s.setSensor r v).slots = s.slots := rfl
@[simp] theorem State.setSensor_reducing (s : State) (r : Nat) (v : SensorSt) : (s.setSensor r v).reducing = s.reducing := rfl
@[simp] theorem State.setSensor_ports (s : State) (r : Nat) (v : SensorSt) : (s.setSensor r v).ports = s.ports := rfl
@[simp] theorem State.setSensor_lnk (s : State) (r : Nat) (v : SensorSt) : (s.setSensor r v).lnk = s.lnk := rfl
@[simp] theorem State.setSensor_colls (s : State) (r : Nat) (v : SensorSt) : (s.setSensor r v).colls = s.colls := rfl
@[simp] theorem State.setSensor_pwr (s : State) (r : Nat) (v : SensorSt) : (s.setSensor r v).pwr = s.pwr := rfl
@[simp] theorem State.setSensor_doms (s : State) (r : Nat) (v : SensorSt) : (s.setSensor r v).doms = s.doms := rfl
@[simp] theorem State.setSensor_err (s : State) (r : Nat) (v : SensorSt) : (s.setSensor r v).err = s.err := rfl
@[simp] theorem State.setSensor_dbg (s : State) (r : Nat) (v : SensorSt) : (s.setSensor r v).dbg = s.dbg := rfl
@[simp] theorem State.setSensor_boot (s : State) (r : Nat) (v : SensorSt) : (s.setSensor r v).boot = s.boot := rfl
@[simp] theorem State.setSensor_bond (s : State) (r : Nat) (v : SensorSt) : (s.setSensor r v).bond = s.bond := rfl
@[simp] theorem State.setSensor_mgt (s : State) (r : Nat) (v : SensorSt) : (s.setSensor r v).mgt = s.mgt := rfl
@[simp] theorem State.setSensor_oas (s : State) (r : Nat) (v : SensorSt) : (s.setSensor r v).oas = s.oas := rfl
@[simp] theorem State.setSensor_cxl (s : State) (r : Nat) (v : SensorSt) : (s.setSensor r v).cxl = s.cxl := rfl
@[simp] theorem State.setSensor_io (s : State) (r : Nat) (v : SensorSt) : (s.setSensor r v).io = s.io := rfl
@[simp] theorem State.setSensor_pins (s : State) (r : Nat) (v : SensorSt) : (s.setSensor r v).pins = s.pins := rfl

/-! ### `State.setIsland` -/

@[simp] theorem State.setIsland_pending (s : State) (r : Nat) (v : IslandSt) : (s.setIsland r v).pending = s.pending := rfl
@[simp] theorem State.setIsland_time (s : State) (r : Nat) (v : IslandSt) : (s.setIsland r v).time = s.time := rfl
@[simp] theorem State.setIsland_freeIdx (s : State) (r : Nat) (v : IslandSt) : (s.setIsland r v).freeIdx = s.freeIdx := rfl
@[simp] theorem State.setIsland_dram (s : State) (r : Nat) (v : IslandSt) : (s.setIsland r v).dram = s.dram := rfl
@[simp] theorem State.setIsland_playa (s : State) (r : Nat) (v : IslandSt) : (s.setIsland r v).playa = s.playa := rfl
@[simp] theorem State.setIsland_delays (s : State) (r : Nat) (v : IslandSt) : (s.setIsland r v).delays = s.delays := rfl
@[simp] theorem State.setIsland_host (s : State) (r : Nat) (v : IslandSt) : (s.setIsland r v).host = s.host := rfl
@[simp] theorem State.setIsland_ctr (s : State) (r : Nat) (v : IslandSt) : (s.setIsland r v).ctr = s.ctr := rfl
@[simp] theorem State.setIsland_latchHi (s : State) (r : Nat) (v : IslandSt) : (s.setIsland r v).latchHi = s.latchHi := rfl
@[simp] theorem State.setIsland_loHold (s : State) (r : Nat) (v : IslandSt) : (s.setIsland r v).loHold = s.loHold := rfl
@[simp] theorem State.setIsland_staged (s : State) (r : Nat) (v : IslandSt) : (s.setIsland r v).staged = s.staged := rfl
@[simp] theorem State.setIsland_applied (s : State) (r : Nat) (v : IslandSt) : (s.setIsland r v).applied = s.applied := rfl
@[simp] theorem State.setIsland_glb (s : State) (r : Nat) (v : IslandSt) : (s.setIsland r v).glb = s.glb := rfl
@[simp] theorem State.setIsland_epoch (s : State) (r : Nat) (v : IslandSt) : (s.setIsland r v).epoch = s.epoch := rfl
@[simp] theorem State.setIsland_cmd (s : State) (r : Nat) (v : IslandSt) : (s.setIsland r v).cmd = s.cmd := rfl
@[simp] theorem State.setIsland_rings (s : State) (r : Nat) (v : IslandSt) : (s.setIsland r v).rings = s.rings := rfl
@[simp] theorem State.setIsland_tainted (s : State) (r : Nat) (v : IslandSt) : (s.setIsland r v).tainted = s.tainted := rfl
@[simp] theorem State.setIsland_conj (s : State) (r : Nat) (v : IslandSt) : (s.setIsland r v).conj = s.conj := rfl
@[simp] theorem State.setIsland_fields (s : State) (r : Nat) (v : IslandSt) : (s.setIsland r v).fields = s.fields := rfl
@[simp] theorem State.setIsland_steps (s : State) (r : Nat) (v : IslandSt) : (s.setIsland r v).steps = s.steps := rfl
@[simp] theorem State.setIsland_sync (s : State) (r : Nat) (v : IslandSt) : (s.setIsland r v).sync = s.sync := rfl
@[simp] theorem State.setIsland_slow (s : State) (r : Nat) (v : IslandSt) : (s.setIsland r v).slow = s.slow := rfl
@[simp] theorem State.setIsland_cores (s : State) (r : Nat) (v : IslandSt) : (s.setIsland r v).cores = s.cores := rfl
@[simp] theorem State.setIsland_vaults (s : State) (r : Nat) (v : IslandSt) : (s.setIsland r v).vaults = s.vaults := rfl
@[simp] theorem State.setIsland_caches (s : State) (r : Nat) (v : IslandSt) : (s.setIsland r v).caches = s.caches := rfl
@[simp] theorem State.setIsland_tiers (s : State) (r : Nat) (v : IslandSt) : (s.setIsland r v).tiers = s.tiers := rfl
@[simp] theorem State.setIsland_engines (s : State) (r : Nat) (v : IslandSt) : (s.setIsland r v).engines = s.engines := rfl
@[simp] theorem State.setIsland_selfRef (s : State) (r : Nat) (v : IslandSt) : (s.setIsland r v).selfRef = s.selfRef := rfl
@[simp] theorem State.setIsland_kvm (s : State) (r : Nat) (v : IslandSt) : (s.setIsland r v).kvm = s.kvm := rfl
@[simp] theorem State.setIsland_decodes (s : State) (r : Nat) (v : IslandSt) : (s.setIsland r v).decodes = s.decodes := rfl
@[simp] theorem State.setIsland_routers (s : State) (r : Nat) (v : IslandSt) : (s.setIsland r v).routers = s.routers := rfl
@[simp] theorem State.setIsland_slots (s : State) (r : Nat) (v : IslandSt) : (s.setIsland r v).slots = s.slots := rfl
@[simp] theorem State.setIsland_reducing (s : State) (r : Nat) (v : IslandSt) : (s.setIsland r v).reducing = s.reducing := rfl
@[simp] theorem State.setIsland_ports (s : State) (r : Nat) (v : IslandSt) : (s.setIsland r v).ports = s.ports := rfl
@[simp] theorem State.setIsland_lnk (s : State) (r : Nat) (v : IslandSt) : (s.setIsland r v).lnk = s.lnk := rfl
@[simp] theorem State.setIsland_colls (s : State) (r : Nat) (v : IslandSt) : (s.setIsland r v).colls = s.colls := rfl
@[simp] theorem State.setIsland_pwr (s : State) (r : Nat) (v : IslandSt) : (s.setIsland r v).pwr = s.pwr := rfl
@[simp] theorem State.setIsland_doms (s : State) (r : Nat) (v : IslandSt) : (s.setIsland r v).doms = s.doms := rfl
@[simp] theorem State.setIsland_err (s : State) (r : Nat) (v : IslandSt) : (s.setIsland r v).err = s.err := rfl
@[simp] theorem State.setIsland_dbg (s : State) (r : Nat) (v : IslandSt) : (s.setIsland r v).dbg = s.dbg := rfl
@[simp] theorem State.setIsland_boot (s : State) (r : Nat) (v : IslandSt) : (s.setIsland r v).boot = s.boot := rfl
@[simp] theorem State.setIsland_bond (s : State) (r : Nat) (v : IslandSt) : (s.setIsland r v).bond = s.bond := rfl
@[simp] theorem State.setIsland_mgt (s : State) (r : Nat) (v : IslandSt) : (s.setIsland r v).mgt = s.mgt := rfl
@[simp] theorem State.setIsland_oas (s : State) (r : Nat) (v : IslandSt) : (s.setIsland r v).oas = s.oas := rfl
@[simp] theorem State.setIsland_cxl (s : State) (r : Nat) (v : IslandSt) : (s.setIsland r v).cxl = s.cxl := rfl
@[simp] theorem State.setIsland_io (s : State) (r : Nat) (v : IslandSt) : (s.setIsland r v).io = s.io := rfl
@[simp] theorem State.setIsland_pins (s : State) (r : Nat) (v : IslandSt) : (s.setIsland r v).pins = s.pins := rfl

/-! ### `State.setField` -/

@[simp] theorem State.setField_pending (s : State) (r : Nat) (v : FieldSt) : (s.setField r v).pending = s.pending := rfl
@[simp] theorem State.setField_time (s : State) (r : Nat) (v : FieldSt) : (s.setField r v).time = s.time := rfl
@[simp] theorem State.setField_freeIdx (s : State) (r : Nat) (v : FieldSt) : (s.setField r v).freeIdx = s.freeIdx := rfl
@[simp] theorem State.setField_dram (s : State) (r : Nat) (v : FieldSt) : (s.setField r v).dram = s.dram := rfl
@[simp] theorem State.setField_playa (s : State) (r : Nat) (v : FieldSt) : (s.setField r v).playa = s.playa := rfl
@[simp] theorem State.setField_delays (s : State) (r : Nat) (v : FieldSt) : (s.setField r v).delays = s.delays := rfl
@[simp] theorem State.setField_host (s : State) (r : Nat) (v : FieldSt) : (s.setField r v).host = s.host := rfl
@[simp] theorem State.setField_ctr (s : State) (r : Nat) (v : FieldSt) : (s.setField r v).ctr = s.ctr := rfl
@[simp] theorem State.setField_latchHi (s : State) (r : Nat) (v : FieldSt) : (s.setField r v).latchHi = s.latchHi := rfl
@[simp] theorem State.setField_loHold (s : State) (r : Nat) (v : FieldSt) : (s.setField r v).loHold = s.loHold := rfl
@[simp] theorem State.setField_staged (s : State) (r : Nat) (v : FieldSt) : (s.setField r v).staged = s.staged := rfl
@[simp] theorem State.setField_applied (s : State) (r : Nat) (v : FieldSt) : (s.setField r v).applied = s.applied := rfl
@[simp] theorem State.setField_glb (s : State) (r : Nat) (v : FieldSt) : (s.setField r v).glb = s.glb := rfl
@[simp] theorem State.setField_epoch (s : State) (r : Nat) (v : FieldSt) : (s.setField r v).epoch = s.epoch := rfl
@[simp] theorem State.setField_cmd (s : State) (r : Nat) (v : FieldSt) : (s.setField r v).cmd = s.cmd := rfl
@[simp] theorem State.setField_rings (s : State) (r : Nat) (v : FieldSt) : (s.setField r v).rings = s.rings := rfl
@[simp] theorem State.setField_tainted (s : State) (r : Nat) (v : FieldSt) : (s.setField r v).tainted = s.tainted := rfl
@[simp] theorem State.setField_conj (s : State) (r : Nat) (v : FieldSt) : (s.setField r v).conj = s.conj := rfl
@[simp] theorem State.setField_steps (s : State) (r : Nat) (v : FieldSt) : (s.setField r v).steps = s.steps := rfl
@[simp] theorem State.setField_sync (s : State) (r : Nat) (v : FieldSt) : (s.setField r v).sync = s.sync := rfl
@[simp] theorem State.setField_slow (s : State) (r : Nat) (v : FieldSt) : (s.setField r v).slow = s.slow := rfl
@[simp] theorem State.setField_cores (s : State) (r : Nat) (v : FieldSt) : (s.setField r v).cores = s.cores := rfl
@[simp] theorem State.setField_vaults (s : State) (r : Nat) (v : FieldSt) : (s.setField r v).vaults = s.vaults := rfl
@[simp] theorem State.setField_caches (s : State) (r : Nat) (v : FieldSt) : (s.setField r v).caches = s.caches := rfl
@[simp] theorem State.setField_tiers (s : State) (r : Nat) (v : FieldSt) : (s.setField r v).tiers = s.tiers := rfl
@[simp] theorem State.setField_engines (s : State) (r : Nat) (v : FieldSt) : (s.setField r v).engines = s.engines := rfl
@[simp] theorem State.setField_selfRef (s : State) (r : Nat) (v : FieldSt) : (s.setField r v).selfRef = s.selfRef := rfl
@[simp] theorem State.setField_kvm (s : State) (r : Nat) (v : FieldSt) : (s.setField r v).kvm = s.kvm := rfl
@[simp] theorem State.setField_decodes (s : State) (r : Nat) (v : FieldSt) : (s.setField r v).decodes = s.decodes := rfl
@[simp] theorem State.setField_routers (s : State) (r : Nat) (v : FieldSt) : (s.setField r v).routers = s.routers := rfl
@[simp] theorem State.setField_slots (s : State) (r : Nat) (v : FieldSt) : (s.setField r v).slots = s.slots := rfl
@[simp] theorem State.setField_reducing (s : State) (r : Nat) (v : FieldSt) : (s.setField r v).reducing = s.reducing := rfl
@[simp] theorem State.setField_ports (s : State) (r : Nat) (v : FieldSt) : (s.setField r v).ports = s.ports := rfl
@[simp] theorem State.setField_lnk (s : State) (r : Nat) (v : FieldSt) : (s.setField r v).lnk = s.lnk := rfl
@[simp] theorem State.setField_colls (s : State) (r : Nat) (v : FieldSt) : (s.setField r v).colls = s.colls := rfl
@[simp] theorem State.setField_pwr (s : State) (r : Nat) (v : FieldSt) : (s.setField r v).pwr = s.pwr := rfl
@[simp] theorem State.setField_doms (s : State) (r : Nat) (v : FieldSt) : (s.setField r v).doms = s.doms := rfl
@[simp] theorem State.setField_thm (s : State) (r : Nat) (v : FieldSt) : (s.setField r v).thm = s.thm := rfl
@[simp] theorem State.setField_err (s : State) (r : Nat) (v : FieldSt) : (s.setField r v).err = s.err := rfl
@[simp] theorem State.setField_dbg (s : State) (r : Nat) (v : FieldSt) : (s.setField r v).dbg = s.dbg := rfl
@[simp] theorem State.setField_boot (s : State) (r : Nat) (v : FieldSt) : (s.setField r v).boot = s.boot := rfl
@[simp] theorem State.setField_bond (s : State) (r : Nat) (v : FieldSt) : (s.setField r v).bond = s.bond := rfl
@[simp] theorem State.setField_mgt (s : State) (r : Nat) (v : FieldSt) : (s.setField r v).mgt = s.mgt := rfl
@[simp] theorem State.setField_oas (s : State) (r : Nat) (v : FieldSt) : (s.setField r v).oas = s.oas := rfl
@[simp] theorem State.setField_cxl (s : State) (r : Nat) (v : FieldSt) : (s.setField r v).cxl = s.cxl := rfl
@[simp] theorem State.setField_io (s : State) (r : Nat) (v : FieldSt) : (s.setField r v).io = s.io := rfl
@[simp] theorem State.setField_pins (s : State) (r : Nat) (v : FieldSt) : (s.setField r v).pins = s.pins := rfl

/-! ### `State.setStep` -/

@[simp] theorem State.setStep_pending (s : State) (r : Nat) (v : StepSt) : (s.setStep r v).pending = s.pending := rfl
@[simp] theorem State.setStep_time (s : State) (r : Nat) (v : StepSt) : (s.setStep r v).time = s.time := rfl
@[simp] theorem State.setStep_freeIdx (s : State) (r : Nat) (v : StepSt) : (s.setStep r v).freeIdx = s.freeIdx := rfl
@[simp] theorem State.setStep_dram (s : State) (r : Nat) (v : StepSt) : (s.setStep r v).dram = s.dram := rfl
@[simp] theorem State.setStep_playa (s : State) (r : Nat) (v : StepSt) : (s.setStep r v).playa = s.playa := rfl
@[simp] theorem State.setStep_delays (s : State) (r : Nat) (v : StepSt) : (s.setStep r v).delays = s.delays := rfl
@[simp] theorem State.setStep_host (s : State) (r : Nat) (v : StepSt) : (s.setStep r v).host = s.host := rfl
@[simp] theorem State.setStep_ctr (s : State) (r : Nat) (v : StepSt) : (s.setStep r v).ctr = s.ctr := rfl
@[simp] theorem State.setStep_latchHi (s : State) (r : Nat) (v : StepSt) : (s.setStep r v).latchHi = s.latchHi := rfl
@[simp] theorem State.setStep_loHold (s : State) (r : Nat) (v : StepSt) : (s.setStep r v).loHold = s.loHold := rfl
@[simp] theorem State.setStep_staged (s : State) (r : Nat) (v : StepSt) : (s.setStep r v).staged = s.staged := rfl
@[simp] theorem State.setStep_applied (s : State) (r : Nat) (v : StepSt) : (s.setStep r v).applied = s.applied := rfl
@[simp] theorem State.setStep_glb (s : State) (r : Nat) (v : StepSt) : (s.setStep r v).glb = s.glb := rfl
@[simp] theorem State.setStep_epoch (s : State) (r : Nat) (v : StepSt) : (s.setStep r v).epoch = s.epoch := rfl
@[simp] theorem State.setStep_cmd (s : State) (r : Nat) (v : StepSt) : (s.setStep r v).cmd = s.cmd := rfl
@[simp] theorem State.setStep_rings (s : State) (r : Nat) (v : StepSt) : (s.setStep r v).rings = s.rings := rfl
@[simp] theorem State.setStep_tainted (s : State) (r : Nat) (v : StepSt) : (s.setStep r v).tainted = s.tainted := rfl
@[simp] theorem State.setStep_conj (s : State) (r : Nat) (v : StepSt) : (s.setStep r v).conj = s.conj := rfl
@[simp] theorem State.setStep_fields (s : State) (r : Nat) (v : StepSt) : (s.setStep r v).fields = s.fields := rfl
@[simp] theorem State.setStep_sync (s : State) (r : Nat) (v : StepSt) : (s.setStep r v).sync = s.sync := rfl
@[simp] theorem State.setStep_slow (s : State) (r : Nat) (v : StepSt) : (s.setStep r v).slow = s.slow := rfl
@[simp] theorem State.setStep_cores (s : State) (r : Nat) (v : StepSt) : (s.setStep r v).cores = s.cores := rfl
@[simp] theorem State.setStep_vaults (s : State) (r : Nat) (v : StepSt) : (s.setStep r v).vaults = s.vaults := rfl
@[simp] theorem State.setStep_caches (s : State) (r : Nat) (v : StepSt) : (s.setStep r v).caches = s.caches := rfl
@[simp] theorem State.setStep_tiers (s : State) (r : Nat) (v : StepSt) : (s.setStep r v).tiers = s.tiers := rfl
@[simp] theorem State.setStep_engines (s : State) (r : Nat) (v : StepSt) : (s.setStep r v).engines = s.engines := rfl
@[simp] theorem State.setStep_selfRef (s : State) (r : Nat) (v : StepSt) : (s.setStep r v).selfRef = s.selfRef := rfl
@[simp] theorem State.setStep_kvm (s : State) (r : Nat) (v : StepSt) : (s.setStep r v).kvm = s.kvm := rfl
@[simp] theorem State.setStep_decodes (s : State) (r : Nat) (v : StepSt) : (s.setStep r v).decodes = s.decodes := rfl
@[simp] theorem State.setStep_routers (s : State) (r : Nat) (v : StepSt) : (s.setStep r v).routers = s.routers := rfl
@[simp] theorem State.setStep_slots (s : State) (r : Nat) (v : StepSt) : (s.setStep r v).slots = s.slots := rfl
@[simp] theorem State.setStep_reducing (s : State) (r : Nat) (v : StepSt) : (s.setStep r v).reducing = s.reducing := rfl
@[simp] theorem State.setStep_ports (s : State) (r : Nat) (v : StepSt) : (s.setStep r v).ports = s.ports := rfl
@[simp] theorem State.setStep_lnk (s : State) (r : Nat) (v : StepSt) : (s.setStep r v).lnk = s.lnk := rfl
@[simp] theorem State.setStep_colls (s : State) (r : Nat) (v : StepSt) : (s.setStep r v).colls = s.colls := rfl
@[simp] theorem State.setStep_pwr (s : State) (r : Nat) (v : StepSt) : (s.setStep r v).pwr = s.pwr := rfl
@[simp] theorem State.setStep_doms (s : State) (r : Nat) (v : StepSt) : (s.setStep r v).doms = s.doms := rfl
@[simp] theorem State.setStep_thm (s : State) (r : Nat) (v : StepSt) : (s.setStep r v).thm = s.thm := rfl
@[simp] theorem State.setStep_err (s : State) (r : Nat) (v : StepSt) : (s.setStep r v).err = s.err := rfl
@[simp] theorem State.setStep_dbg (s : State) (r : Nat) (v : StepSt) : (s.setStep r v).dbg = s.dbg := rfl
@[simp] theorem State.setStep_boot (s : State) (r : Nat) (v : StepSt) : (s.setStep r v).boot = s.boot := rfl
@[simp] theorem State.setStep_bond (s : State) (r : Nat) (v : StepSt) : (s.setStep r v).bond = s.bond := rfl
@[simp] theorem State.setStep_mgt (s : State) (r : Nat) (v : StepSt) : (s.setStep r v).mgt = s.mgt := rfl
@[simp] theorem State.setStep_oas (s : State) (r : Nat) (v : StepSt) : (s.setStep r v).oas = s.oas := rfl
@[simp] theorem State.setStep_cxl (s : State) (r : Nat) (v : StepSt) : (s.setStep r v).cxl = s.cxl := rfl
@[simp] theorem State.setStep_io (s : State) (r : Nat) (v : StepSt) : (s.setStep r v).io = s.io := rfl
@[simp] theorem State.setStep_pins (s : State) (r : Nat) (v : StepSt) : (s.setStep r v).pins = s.pins := rfl

/-! ### `State.modRing` -/

@[simp] theorem State.modRing_pending (s : State) (r : Nat) (f : RingSt → RingSt) : (s.modRing r f).pending = s.pending := rfl
@[simp] theorem State.modRing_time (s : State) (r : Nat) (f : RingSt → RingSt) : (s.modRing r f).time = s.time := rfl
@[simp] theorem State.modRing_freeIdx (s : State) (r : Nat) (f : RingSt → RingSt) : (s.modRing r f).freeIdx = s.freeIdx := rfl
@[simp] theorem State.modRing_dram (s : State) (r : Nat) (f : RingSt → RingSt) : (s.modRing r f).dram = s.dram := rfl
@[simp] theorem State.modRing_playa (s : State) (r : Nat) (f : RingSt → RingSt) : (s.modRing r f).playa = s.playa := rfl
@[simp] theorem State.modRing_delays (s : State) (r : Nat) (f : RingSt → RingSt) : (s.modRing r f).delays = s.delays := rfl
@[simp] theorem State.modRing_host (s : State) (r : Nat) (f : RingSt → RingSt) : (s.modRing r f).host = s.host := rfl
@[simp] theorem State.modRing_ctr (s : State) (r : Nat) (f : RingSt → RingSt) : (s.modRing r f).ctr = s.ctr := rfl
@[simp] theorem State.modRing_latchHi (s : State) (r : Nat) (f : RingSt → RingSt) : (s.modRing r f).latchHi = s.latchHi := rfl
@[simp] theorem State.modRing_loHold (s : State) (r : Nat) (f : RingSt → RingSt) : (s.modRing r f).loHold = s.loHold := rfl
@[simp] theorem State.modRing_staged (s : State) (r : Nat) (f : RingSt → RingSt) : (s.modRing r f).staged = s.staged := rfl
@[simp] theorem State.modRing_applied (s : State) (r : Nat) (f : RingSt → RingSt) : (s.modRing r f).applied = s.applied := rfl
@[simp] theorem State.modRing_glb (s : State) (r : Nat) (f : RingSt → RingSt) : (s.modRing r f).glb = s.glb := rfl
@[simp] theorem State.modRing_epoch (s : State) (r : Nat) (f : RingSt → RingSt) : (s.modRing r f).epoch = s.epoch := rfl
@[simp] theorem State.modRing_cmd (s : State) (r : Nat) (f : RingSt → RingSt) : (s.modRing r f).cmd = s.cmd := rfl
@[simp] theorem State.modRing_tainted (s : State) (r : Nat) (f : RingSt → RingSt) : (s.modRing r f).tainted = s.tainted := rfl
@[simp] theorem State.modRing_conj (s : State) (r : Nat) (f : RingSt → RingSt) : (s.modRing r f).conj = s.conj := rfl
@[simp] theorem State.modRing_fields (s : State) (r : Nat) (f : RingSt → RingSt) : (s.modRing r f).fields = s.fields := rfl
@[simp] theorem State.modRing_steps (s : State) (r : Nat) (f : RingSt → RingSt) : (s.modRing r f).steps = s.steps := rfl
@[simp] theorem State.modRing_sync (s : State) (r : Nat) (f : RingSt → RingSt) : (s.modRing r f).sync = s.sync := rfl
@[simp] theorem State.modRing_slow (s : State) (r : Nat) (f : RingSt → RingSt) : (s.modRing r f).slow = s.slow := rfl
@[simp] theorem State.modRing_cores (s : State) (r : Nat) (f : RingSt → RingSt) : (s.modRing r f).cores = s.cores := rfl
@[simp] theorem State.modRing_vaults (s : State) (r : Nat) (f : RingSt → RingSt) : (s.modRing r f).vaults = s.vaults := rfl
@[simp] theorem State.modRing_caches (s : State) (r : Nat) (f : RingSt → RingSt) : (s.modRing r f).caches = s.caches := rfl
@[simp] theorem State.modRing_tiers (s : State) (r : Nat) (f : RingSt → RingSt) : (s.modRing r f).tiers = s.tiers := rfl
@[simp] theorem State.modRing_engines (s : State) (r : Nat) (f : RingSt → RingSt) : (s.modRing r f).engines = s.engines := rfl
@[simp] theorem State.modRing_selfRef (s : State) (r : Nat) (f : RingSt → RingSt) : (s.modRing r f).selfRef = s.selfRef := rfl
@[simp] theorem State.modRing_kvm (s : State) (r : Nat) (f : RingSt → RingSt) : (s.modRing r f).kvm = s.kvm := rfl
@[simp] theorem State.modRing_decodes (s : State) (r : Nat) (f : RingSt → RingSt) : (s.modRing r f).decodes = s.decodes := rfl
@[simp] theorem State.modRing_routers (s : State) (r : Nat) (f : RingSt → RingSt) : (s.modRing r f).routers = s.routers := rfl
@[simp] theorem State.modRing_slots (s : State) (r : Nat) (f : RingSt → RingSt) : (s.modRing r f).slots = s.slots := rfl
@[simp] theorem State.modRing_reducing (s : State) (r : Nat) (f : RingSt → RingSt) : (s.modRing r f).reducing = s.reducing := rfl
@[simp] theorem State.modRing_ports (s : State) (r : Nat) (f : RingSt → RingSt) : (s.modRing r f).ports = s.ports := rfl
@[simp] theorem State.modRing_lnk (s : State) (r : Nat) (f : RingSt → RingSt) : (s.modRing r f).lnk = s.lnk := rfl
@[simp] theorem State.modRing_colls (s : State) (r : Nat) (f : RingSt → RingSt) : (s.modRing r f).colls = s.colls := rfl
@[simp] theorem State.modRing_pwr (s : State) (r : Nat) (f : RingSt → RingSt) : (s.modRing r f).pwr = s.pwr := rfl
@[simp] theorem State.modRing_doms (s : State) (r : Nat) (f : RingSt → RingSt) : (s.modRing r f).doms = s.doms := rfl
@[simp] theorem State.modRing_thm (s : State) (r : Nat) (f : RingSt → RingSt) : (s.modRing r f).thm = s.thm := rfl
@[simp] theorem State.modRing_err (s : State) (r : Nat) (f : RingSt → RingSt) : (s.modRing r f).err = s.err := rfl
@[simp] theorem State.modRing_dbg (s : State) (r : Nat) (f : RingSt → RingSt) : (s.modRing r f).dbg = s.dbg := rfl
@[simp] theorem State.modRing_boot (s : State) (r : Nat) (f : RingSt → RingSt) : (s.modRing r f).boot = s.boot := rfl
@[simp] theorem State.modRing_bond (s : State) (r : Nat) (f : RingSt → RingSt) : (s.modRing r f).bond = s.bond := rfl
@[simp] theorem State.modRing_mgt (s : State) (r : Nat) (f : RingSt → RingSt) : (s.modRing r f).mgt = s.mgt := rfl
@[simp] theorem State.modRing_oas (s : State) (r : Nat) (f : RingSt → RingSt) : (s.modRing r f).oas = s.oas := rfl
@[simp] theorem State.modRing_cxl (s : State) (r : Nat) (f : RingSt → RingSt) : (s.modRing r f).cxl = s.cxl := rfl
@[simp] theorem State.modRing_io (s : State) (r : Nat) (f : RingSt → RingSt) : (s.modRing r f).io = s.io := rfl
@[simp] theorem State.modRing_pins (s : State) (r : Nat) (f : RingSt → RingSt) : (s.modRing r f).pins = s.pins := rfl

/-! ### `State.modCore` -/

@[simp] theorem State.modCore_pending (s : State) (r : Nat) (f : CoreSt → CoreSt) : (s.modCore r f).pending = s.pending := rfl
@[simp] theorem State.modCore_time (s : State) (r : Nat) (f : CoreSt → CoreSt) : (s.modCore r f).time = s.time := rfl
@[simp] theorem State.modCore_freeIdx (s : State) (r : Nat) (f : CoreSt → CoreSt) : (s.modCore r f).freeIdx = s.freeIdx := rfl
@[simp] theorem State.modCore_dram (s : State) (r : Nat) (f : CoreSt → CoreSt) : (s.modCore r f).dram = s.dram := rfl
@[simp] theorem State.modCore_playa (s : State) (r : Nat) (f : CoreSt → CoreSt) : (s.modCore r f).playa = s.playa := rfl
@[simp] theorem State.modCore_delays (s : State) (r : Nat) (f : CoreSt → CoreSt) : (s.modCore r f).delays = s.delays := rfl
@[simp] theorem State.modCore_host (s : State) (r : Nat) (f : CoreSt → CoreSt) : (s.modCore r f).host = s.host := rfl
@[simp] theorem State.modCore_ctr (s : State) (r : Nat) (f : CoreSt → CoreSt) : (s.modCore r f).ctr = s.ctr := rfl
@[simp] theorem State.modCore_latchHi (s : State) (r : Nat) (f : CoreSt → CoreSt) : (s.modCore r f).latchHi = s.latchHi := rfl
@[simp] theorem State.modCore_loHold (s : State) (r : Nat) (f : CoreSt → CoreSt) : (s.modCore r f).loHold = s.loHold := rfl
@[simp] theorem State.modCore_staged (s : State) (r : Nat) (f : CoreSt → CoreSt) : (s.modCore r f).staged = s.staged := rfl
@[simp] theorem State.modCore_applied (s : State) (r : Nat) (f : CoreSt → CoreSt) : (s.modCore r f).applied = s.applied := rfl
@[simp] theorem State.modCore_glb (s : State) (r : Nat) (f : CoreSt → CoreSt) : (s.modCore r f).glb = s.glb := rfl
@[simp] theorem State.modCore_epoch (s : State) (r : Nat) (f : CoreSt → CoreSt) : (s.modCore r f).epoch = s.epoch := rfl
@[simp] theorem State.modCore_cmd (s : State) (r : Nat) (f : CoreSt → CoreSt) : (s.modCore r f).cmd = s.cmd := rfl
@[simp] theorem State.modCore_rings (s : State) (r : Nat) (f : CoreSt → CoreSt) : (s.modCore r f).rings = s.rings := rfl
@[simp] theorem State.modCore_tainted (s : State) (r : Nat) (f : CoreSt → CoreSt) : (s.modCore r f).tainted = s.tainted := rfl
@[simp] theorem State.modCore_conj (s : State) (r : Nat) (f : CoreSt → CoreSt) : (s.modCore r f).conj = s.conj := rfl
@[simp] theorem State.modCore_fields (s : State) (r : Nat) (f : CoreSt → CoreSt) : (s.modCore r f).fields = s.fields := rfl
@[simp] theorem State.modCore_steps (s : State) (r : Nat) (f : CoreSt → CoreSt) : (s.modCore r f).steps = s.steps := rfl
@[simp] theorem State.modCore_sync (s : State) (r : Nat) (f : CoreSt → CoreSt) : (s.modCore r f).sync = s.sync := rfl
@[simp] theorem State.modCore_slow (s : State) (r : Nat) (f : CoreSt → CoreSt) : (s.modCore r f).slow = s.slow := rfl
@[simp] theorem State.modCore_vaults (s : State) (r : Nat) (f : CoreSt → CoreSt) : (s.modCore r f).vaults = s.vaults := rfl
@[simp] theorem State.modCore_caches (s : State) (r : Nat) (f : CoreSt → CoreSt) : (s.modCore r f).caches = s.caches := rfl
@[simp] theorem State.modCore_tiers (s : State) (r : Nat) (f : CoreSt → CoreSt) : (s.modCore r f).tiers = s.tiers := rfl
@[simp] theorem State.modCore_engines (s : State) (r : Nat) (f : CoreSt → CoreSt) : (s.modCore r f).engines = s.engines := rfl
@[simp] theorem State.modCore_selfRef (s : State) (r : Nat) (f : CoreSt → CoreSt) : (s.modCore r f).selfRef = s.selfRef := rfl
@[simp] theorem State.modCore_kvm (s : State) (r : Nat) (f : CoreSt → CoreSt) : (s.modCore r f).kvm = s.kvm := rfl
@[simp] theorem State.modCore_decodes (s : State) (r : Nat) (f : CoreSt → CoreSt) : (s.modCore r f).decodes = s.decodes := rfl
@[simp] theorem State.modCore_routers (s : State) (r : Nat) (f : CoreSt → CoreSt) : (s.modCore r f).routers = s.routers := rfl
@[simp] theorem State.modCore_slots (s : State) (r : Nat) (f : CoreSt → CoreSt) : (s.modCore r f).slots = s.slots := rfl
@[simp] theorem State.modCore_reducing (s : State) (r : Nat) (f : CoreSt → CoreSt) : (s.modCore r f).reducing = s.reducing := rfl
@[simp] theorem State.modCore_ports (s : State) (r : Nat) (f : CoreSt → CoreSt) : (s.modCore r f).ports = s.ports := rfl
@[simp] theorem State.modCore_lnk (s : State) (r : Nat) (f : CoreSt → CoreSt) : (s.modCore r f).lnk = s.lnk := rfl
@[simp] theorem State.modCore_colls (s : State) (r : Nat) (f : CoreSt → CoreSt) : (s.modCore r f).colls = s.colls := rfl
@[simp] theorem State.modCore_pwr (s : State) (r : Nat) (f : CoreSt → CoreSt) : (s.modCore r f).pwr = s.pwr := rfl
@[simp] theorem State.modCore_doms (s : State) (r : Nat) (f : CoreSt → CoreSt) : (s.modCore r f).doms = s.doms := rfl
@[simp] theorem State.modCore_thm (s : State) (r : Nat) (f : CoreSt → CoreSt) : (s.modCore r f).thm = s.thm := rfl
@[simp] theorem State.modCore_err (s : State) (r : Nat) (f : CoreSt → CoreSt) : (s.modCore r f).err = s.err := rfl
@[simp] theorem State.modCore_dbg (s : State) (r : Nat) (f : CoreSt → CoreSt) : (s.modCore r f).dbg = s.dbg := rfl
@[simp] theorem State.modCore_boot (s : State) (r : Nat) (f : CoreSt → CoreSt) : (s.modCore r f).boot = s.boot := rfl
@[simp] theorem State.modCore_bond (s : State) (r : Nat) (f : CoreSt → CoreSt) : (s.modCore r f).bond = s.bond := rfl
@[simp] theorem State.modCore_mgt (s : State) (r : Nat) (f : CoreSt → CoreSt) : (s.modCore r f).mgt = s.mgt := rfl
@[simp] theorem State.modCore_oas (s : State) (r : Nat) (f : CoreSt → CoreSt) : (s.modCore r f).oas = s.oas := rfl
@[simp] theorem State.modCore_cxl (s : State) (r : Nat) (f : CoreSt → CoreSt) : (s.modCore r f).cxl = s.cxl := rfl
@[simp] theorem State.modCore_io (s : State) (r : Nat) (f : CoreSt → CoreSt) : (s.modCore r f).io = s.io := rfl
@[simp] theorem State.modCore_pins (s : State) (r : Nat) (f : CoreSt → CoreSt) : (s.modCore r f).pins = s.pins := rfl

/-! ### `State.modVault` -/

@[simp] theorem State.modVault_pending (s : State) (r : Nat) (f : VaultSt → VaultSt) : (s.modVault r f).pending = s.pending := rfl
@[simp] theorem State.modVault_time (s : State) (r : Nat) (f : VaultSt → VaultSt) : (s.modVault r f).time = s.time := rfl
@[simp] theorem State.modVault_freeIdx (s : State) (r : Nat) (f : VaultSt → VaultSt) : (s.modVault r f).freeIdx = s.freeIdx := rfl
@[simp] theorem State.modVault_dram (s : State) (r : Nat) (f : VaultSt → VaultSt) : (s.modVault r f).dram = s.dram := rfl
@[simp] theorem State.modVault_playa (s : State) (r : Nat) (f : VaultSt → VaultSt) : (s.modVault r f).playa = s.playa := rfl
@[simp] theorem State.modVault_delays (s : State) (r : Nat) (f : VaultSt → VaultSt) : (s.modVault r f).delays = s.delays := rfl
@[simp] theorem State.modVault_host (s : State) (r : Nat) (f : VaultSt → VaultSt) : (s.modVault r f).host = s.host := rfl
@[simp] theorem State.modVault_ctr (s : State) (r : Nat) (f : VaultSt → VaultSt) : (s.modVault r f).ctr = s.ctr := rfl
@[simp] theorem State.modVault_latchHi (s : State) (r : Nat) (f : VaultSt → VaultSt) : (s.modVault r f).latchHi = s.latchHi := rfl
@[simp] theorem State.modVault_loHold (s : State) (r : Nat) (f : VaultSt → VaultSt) : (s.modVault r f).loHold = s.loHold := rfl
@[simp] theorem State.modVault_staged (s : State) (r : Nat) (f : VaultSt → VaultSt) : (s.modVault r f).staged = s.staged := rfl
@[simp] theorem State.modVault_applied (s : State) (r : Nat) (f : VaultSt → VaultSt) : (s.modVault r f).applied = s.applied := rfl
@[simp] theorem State.modVault_glb (s : State) (r : Nat) (f : VaultSt → VaultSt) : (s.modVault r f).glb = s.glb := rfl
@[simp] theorem State.modVault_epoch (s : State) (r : Nat) (f : VaultSt → VaultSt) : (s.modVault r f).epoch = s.epoch := rfl
@[simp] theorem State.modVault_cmd (s : State) (r : Nat) (f : VaultSt → VaultSt) : (s.modVault r f).cmd = s.cmd := rfl
@[simp] theorem State.modVault_rings (s : State) (r : Nat) (f : VaultSt → VaultSt) : (s.modVault r f).rings = s.rings := rfl
@[simp] theorem State.modVault_tainted (s : State) (r : Nat) (f : VaultSt → VaultSt) : (s.modVault r f).tainted = s.tainted := rfl
@[simp] theorem State.modVault_conj (s : State) (r : Nat) (f : VaultSt → VaultSt) : (s.modVault r f).conj = s.conj := rfl
@[simp] theorem State.modVault_fields (s : State) (r : Nat) (f : VaultSt → VaultSt) : (s.modVault r f).fields = s.fields := rfl
@[simp] theorem State.modVault_steps (s : State) (r : Nat) (f : VaultSt → VaultSt) : (s.modVault r f).steps = s.steps := rfl
@[simp] theorem State.modVault_sync (s : State) (r : Nat) (f : VaultSt → VaultSt) : (s.modVault r f).sync = s.sync := rfl
@[simp] theorem State.modVault_slow (s : State) (r : Nat) (f : VaultSt → VaultSt) : (s.modVault r f).slow = s.slow := rfl
@[simp] theorem State.modVault_cores (s : State) (r : Nat) (f : VaultSt → VaultSt) : (s.modVault r f).cores = s.cores := rfl
@[simp] theorem State.modVault_caches (s : State) (r : Nat) (f : VaultSt → VaultSt) : (s.modVault r f).caches = s.caches := rfl
@[simp] theorem State.modVault_tiers (s : State) (r : Nat) (f : VaultSt → VaultSt) : (s.modVault r f).tiers = s.tiers := rfl
@[simp] theorem State.modVault_engines (s : State) (r : Nat) (f : VaultSt → VaultSt) : (s.modVault r f).engines = s.engines := rfl
@[simp] theorem State.modVault_selfRef (s : State) (r : Nat) (f : VaultSt → VaultSt) : (s.modVault r f).selfRef = s.selfRef := rfl
@[simp] theorem State.modVault_kvm (s : State) (r : Nat) (f : VaultSt → VaultSt) : (s.modVault r f).kvm = s.kvm := rfl
@[simp] theorem State.modVault_decodes (s : State) (r : Nat) (f : VaultSt → VaultSt) : (s.modVault r f).decodes = s.decodes := rfl
@[simp] theorem State.modVault_routers (s : State) (r : Nat) (f : VaultSt → VaultSt) : (s.modVault r f).routers = s.routers := rfl
@[simp] theorem State.modVault_slots (s : State) (r : Nat) (f : VaultSt → VaultSt) : (s.modVault r f).slots = s.slots := rfl
@[simp] theorem State.modVault_reducing (s : State) (r : Nat) (f : VaultSt → VaultSt) : (s.modVault r f).reducing = s.reducing := rfl
@[simp] theorem State.modVault_ports (s : State) (r : Nat) (f : VaultSt → VaultSt) : (s.modVault r f).ports = s.ports := rfl
@[simp] theorem State.modVault_lnk (s : State) (r : Nat) (f : VaultSt → VaultSt) : (s.modVault r f).lnk = s.lnk := rfl
@[simp] theorem State.modVault_colls (s : State) (r : Nat) (f : VaultSt → VaultSt) : (s.modVault r f).colls = s.colls := rfl
@[simp] theorem State.modVault_pwr (s : State) (r : Nat) (f : VaultSt → VaultSt) : (s.modVault r f).pwr = s.pwr := rfl
@[simp] theorem State.modVault_doms (s : State) (r : Nat) (f : VaultSt → VaultSt) : (s.modVault r f).doms = s.doms := rfl
@[simp] theorem State.modVault_thm (s : State) (r : Nat) (f : VaultSt → VaultSt) : (s.modVault r f).thm = s.thm := rfl
@[simp] theorem State.modVault_err (s : State) (r : Nat) (f : VaultSt → VaultSt) : (s.modVault r f).err = s.err := rfl
@[simp] theorem State.modVault_dbg (s : State) (r : Nat) (f : VaultSt → VaultSt) : (s.modVault r f).dbg = s.dbg := rfl
@[simp] theorem State.modVault_boot (s : State) (r : Nat) (f : VaultSt → VaultSt) : (s.modVault r f).boot = s.boot := rfl
@[simp] theorem State.modVault_bond (s : State) (r : Nat) (f : VaultSt → VaultSt) : (s.modVault r f).bond = s.bond := rfl
@[simp] theorem State.modVault_mgt (s : State) (r : Nat) (f : VaultSt → VaultSt) : (s.modVault r f).mgt = s.mgt := rfl
@[simp] theorem State.modVault_oas (s : State) (r : Nat) (f : VaultSt → VaultSt) : (s.modVault r f).oas = s.oas := rfl
@[simp] theorem State.modVault_cxl (s : State) (r : Nat) (f : VaultSt → VaultSt) : (s.modVault r f).cxl = s.cxl := rfl
@[simp] theorem State.modVault_io (s : State) (r : Nat) (f : VaultSt → VaultSt) : (s.modVault r f).io = s.io := rfl
@[simp] theorem State.modVault_pins (s : State) (r : Nat) (f : VaultSt → VaultSt) : (s.modVault r f).pins = s.pins := rfl

/-! ### `State.modPort` -/

@[simp] theorem State.modPort_pending (s : State) (r : Nat) (f : PortSt → PortSt) : (s.modPort r f).pending = s.pending := rfl
@[simp] theorem State.modPort_time (s : State) (r : Nat) (f : PortSt → PortSt) : (s.modPort r f).time = s.time := rfl
@[simp] theorem State.modPort_freeIdx (s : State) (r : Nat) (f : PortSt → PortSt) : (s.modPort r f).freeIdx = s.freeIdx := rfl
@[simp] theorem State.modPort_dram (s : State) (r : Nat) (f : PortSt → PortSt) : (s.modPort r f).dram = s.dram := rfl
@[simp] theorem State.modPort_playa (s : State) (r : Nat) (f : PortSt → PortSt) : (s.modPort r f).playa = s.playa := rfl
@[simp] theorem State.modPort_delays (s : State) (r : Nat) (f : PortSt → PortSt) : (s.modPort r f).delays = s.delays := rfl
@[simp] theorem State.modPort_host (s : State) (r : Nat) (f : PortSt → PortSt) : (s.modPort r f).host = s.host := rfl
@[simp] theorem State.modPort_ctr (s : State) (r : Nat) (f : PortSt → PortSt) : (s.modPort r f).ctr = s.ctr := rfl
@[simp] theorem State.modPort_latchHi (s : State) (r : Nat) (f : PortSt → PortSt) : (s.modPort r f).latchHi = s.latchHi := rfl
@[simp] theorem State.modPort_loHold (s : State) (r : Nat) (f : PortSt → PortSt) : (s.modPort r f).loHold = s.loHold := rfl
@[simp] theorem State.modPort_staged (s : State) (r : Nat) (f : PortSt → PortSt) : (s.modPort r f).staged = s.staged := rfl
@[simp] theorem State.modPort_applied (s : State) (r : Nat) (f : PortSt → PortSt) : (s.modPort r f).applied = s.applied := rfl
@[simp] theorem State.modPort_glb (s : State) (r : Nat) (f : PortSt → PortSt) : (s.modPort r f).glb = s.glb := rfl
@[simp] theorem State.modPort_epoch (s : State) (r : Nat) (f : PortSt → PortSt) : (s.modPort r f).epoch = s.epoch := rfl
@[simp] theorem State.modPort_cmd (s : State) (r : Nat) (f : PortSt → PortSt) : (s.modPort r f).cmd = s.cmd := rfl
@[simp] theorem State.modPort_rings (s : State) (r : Nat) (f : PortSt → PortSt) : (s.modPort r f).rings = s.rings := rfl
@[simp] theorem State.modPort_tainted (s : State) (r : Nat) (f : PortSt → PortSt) : (s.modPort r f).tainted = s.tainted := rfl
@[simp] theorem State.modPort_conj (s : State) (r : Nat) (f : PortSt → PortSt) : (s.modPort r f).conj = s.conj := rfl
@[simp] theorem State.modPort_fields (s : State) (r : Nat) (f : PortSt → PortSt) : (s.modPort r f).fields = s.fields := rfl
@[simp] theorem State.modPort_steps (s : State) (r : Nat) (f : PortSt → PortSt) : (s.modPort r f).steps = s.steps := rfl
@[simp] theorem State.modPort_sync (s : State) (r : Nat) (f : PortSt → PortSt) : (s.modPort r f).sync = s.sync := rfl
@[simp] theorem State.modPort_slow (s : State) (r : Nat) (f : PortSt → PortSt) : (s.modPort r f).slow = s.slow := rfl
@[simp] theorem State.modPort_cores (s : State) (r : Nat) (f : PortSt → PortSt) : (s.modPort r f).cores = s.cores := rfl
@[simp] theorem State.modPort_vaults (s : State) (r : Nat) (f : PortSt → PortSt) : (s.modPort r f).vaults = s.vaults := rfl
@[simp] theorem State.modPort_caches (s : State) (r : Nat) (f : PortSt → PortSt) : (s.modPort r f).caches = s.caches := rfl
@[simp] theorem State.modPort_tiers (s : State) (r : Nat) (f : PortSt → PortSt) : (s.modPort r f).tiers = s.tiers := rfl
@[simp] theorem State.modPort_engines (s : State) (r : Nat) (f : PortSt → PortSt) : (s.modPort r f).engines = s.engines := rfl
@[simp] theorem State.modPort_selfRef (s : State) (r : Nat) (f : PortSt → PortSt) : (s.modPort r f).selfRef = s.selfRef := rfl
@[simp] theorem State.modPort_kvm (s : State) (r : Nat) (f : PortSt → PortSt) : (s.modPort r f).kvm = s.kvm := rfl
@[simp] theorem State.modPort_decodes (s : State) (r : Nat) (f : PortSt → PortSt) : (s.modPort r f).decodes = s.decodes := rfl
@[simp] theorem State.modPort_routers (s : State) (r : Nat) (f : PortSt → PortSt) : (s.modPort r f).routers = s.routers := rfl
@[simp] theorem State.modPort_slots (s : State) (r : Nat) (f : PortSt → PortSt) : (s.modPort r f).slots = s.slots := rfl
@[simp] theorem State.modPort_reducing (s : State) (r : Nat) (f : PortSt → PortSt) : (s.modPort r f).reducing = s.reducing := rfl
@[simp] theorem State.modPort_lnk (s : State) (r : Nat) (f : PortSt → PortSt) : (s.modPort r f).lnk = s.lnk := rfl
@[simp] theorem State.modPort_colls (s : State) (r : Nat) (f : PortSt → PortSt) : (s.modPort r f).colls = s.colls := rfl
@[simp] theorem State.modPort_pwr (s : State) (r : Nat) (f : PortSt → PortSt) : (s.modPort r f).pwr = s.pwr := rfl
@[simp] theorem State.modPort_doms (s : State) (r : Nat) (f : PortSt → PortSt) : (s.modPort r f).doms = s.doms := rfl
@[simp] theorem State.modPort_thm (s : State) (r : Nat) (f : PortSt → PortSt) : (s.modPort r f).thm = s.thm := rfl
@[simp] theorem State.modPort_err (s : State) (r : Nat) (f : PortSt → PortSt) : (s.modPort r f).err = s.err := rfl
@[simp] theorem State.modPort_dbg (s : State) (r : Nat) (f : PortSt → PortSt) : (s.modPort r f).dbg = s.dbg := rfl
@[simp] theorem State.modPort_boot (s : State) (r : Nat) (f : PortSt → PortSt) : (s.modPort r f).boot = s.boot := rfl
@[simp] theorem State.modPort_bond (s : State) (r : Nat) (f : PortSt → PortSt) : (s.modPort r f).bond = s.bond := rfl
@[simp] theorem State.modPort_mgt (s : State) (r : Nat) (f : PortSt → PortSt) : (s.modPort r f).mgt = s.mgt := rfl
@[simp] theorem State.modPort_oas (s : State) (r : Nat) (f : PortSt → PortSt) : (s.modPort r f).oas = s.oas := rfl
@[simp] theorem State.modPort_cxl (s : State) (r : Nat) (f : PortSt → PortSt) : (s.modPort r f).cxl = s.cxl := rfl
@[simp] theorem State.modPort_io (s : State) (r : Nat) (f : PortSt → PortSt) : (s.modPort r f).io = s.io := rfl
@[simp] theorem State.modPort_pins (s : State) (r : Nat) (f : PortSt → PortSt) : (s.modPort r f).pins = s.pins := rfl

/-! ### `State.modDom` -/

@[simp] theorem State.modDom_pending (s : State) (r : Nat) (f : DomSt → DomSt) : (s.modDom r f).pending = s.pending := rfl
@[simp] theorem State.modDom_time (s : State) (r : Nat) (f : DomSt → DomSt) : (s.modDom r f).time = s.time := rfl
@[simp] theorem State.modDom_freeIdx (s : State) (r : Nat) (f : DomSt → DomSt) : (s.modDom r f).freeIdx = s.freeIdx := rfl
@[simp] theorem State.modDom_dram (s : State) (r : Nat) (f : DomSt → DomSt) : (s.modDom r f).dram = s.dram := rfl
@[simp] theorem State.modDom_playa (s : State) (r : Nat) (f : DomSt → DomSt) : (s.modDom r f).playa = s.playa := rfl
@[simp] theorem State.modDom_delays (s : State) (r : Nat) (f : DomSt → DomSt) : (s.modDom r f).delays = s.delays := rfl
@[simp] theorem State.modDom_host (s : State) (r : Nat) (f : DomSt → DomSt) : (s.modDom r f).host = s.host := rfl
@[simp] theorem State.modDom_ctr (s : State) (r : Nat) (f : DomSt → DomSt) : (s.modDom r f).ctr = s.ctr := rfl
@[simp] theorem State.modDom_latchHi (s : State) (r : Nat) (f : DomSt → DomSt) : (s.modDom r f).latchHi = s.latchHi := rfl
@[simp] theorem State.modDom_loHold (s : State) (r : Nat) (f : DomSt → DomSt) : (s.modDom r f).loHold = s.loHold := rfl
@[simp] theorem State.modDom_staged (s : State) (r : Nat) (f : DomSt → DomSt) : (s.modDom r f).staged = s.staged := rfl
@[simp] theorem State.modDom_applied (s : State) (r : Nat) (f : DomSt → DomSt) : (s.modDom r f).applied = s.applied := rfl
@[simp] theorem State.modDom_glb (s : State) (r : Nat) (f : DomSt → DomSt) : (s.modDom r f).glb = s.glb := rfl
@[simp] theorem State.modDom_epoch (s : State) (r : Nat) (f : DomSt → DomSt) : (s.modDom r f).epoch = s.epoch := rfl
@[simp] theorem State.modDom_cmd (s : State) (r : Nat) (f : DomSt → DomSt) : (s.modDom r f).cmd = s.cmd := rfl
@[simp] theorem State.modDom_rings (s : State) (r : Nat) (f : DomSt → DomSt) : (s.modDom r f).rings = s.rings := rfl
@[simp] theorem State.modDom_tainted (s : State) (r : Nat) (f : DomSt → DomSt) : (s.modDom r f).tainted = s.tainted := rfl
@[simp] theorem State.modDom_conj (s : State) (r : Nat) (f : DomSt → DomSt) : (s.modDom r f).conj = s.conj := rfl
@[simp] theorem State.modDom_fields (s : State) (r : Nat) (f : DomSt → DomSt) : (s.modDom r f).fields = s.fields := rfl
@[simp] theorem State.modDom_steps (s : State) (r : Nat) (f : DomSt → DomSt) : (s.modDom r f).steps = s.steps := rfl
@[simp] theorem State.modDom_sync (s : State) (r : Nat) (f : DomSt → DomSt) : (s.modDom r f).sync = s.sync := rfl
@[simp] theorem State.modDom_slow (s : State) (r : Nat) (f : DomSt → DomSt) : (s.modDom r f).slow = s.slow := rfl
@[simp] theorem State.modDom_cores (s : State) (r : Nat) (f : DomSt → DomSt) : (s.modDom r f).cores = s.cores := rfl
@[simp] theorem State.modDom_vaults (s : State) (r : Nat) (f : DomSt → DomSt) : (s.modDom r f).vaults = s.vaults := rfl
@[simp] theorem State.modDom_caches (s : State) (r : Nat) (f : DomSt → DomSt) : (s.modDom r f).caches = s.caches := rfl
@[simp] theorem State.modDom_tiers (s : State) (r : Nat) (f : DomSt → DomSt) : (s.modDom r f).tiers = s.tiers := rfl
@[simp] theorem State.modDom_engines (s : State) (r : Nat) (f : DomSt → DomSt) : (s.modDom r f).engines = s.engines := rfl
@[simp] theorem State.modDom_selfRef (s : State) (r : Nat) (f : DomSt → DomSt) : (s.modDom r f).selfRef = s.selfRef := rfl
@[simp] theorem State.modDom_kvm (s : State) (r : Nat) (f : DomSt → DomSt) : (s.modDom r f).kvm = s.kvm := rfl
@[simp] theorem State.modDom_decodes (s : State) (r : Nat) (f : DomSt → DomSt) : (s.modDom r f).decodes = s.decodes := rfl
@[simp] theorem State.modDom_routers (s : State) (r : Nat) (f : DomSt → DomSt) : (s.modDom r f).routers = s.routers := rfl
@[simp] theorem State.modDom_slots (s : State) (r : Nat) (f : DomSt → DomSt) : (s.modDom r f).slots = s.slots := rfl
@[simp] theorem State.modDom_reducing (s : State) (r : Nat) (f : DomSt → DomSt) : (s.modDom r f).reducing = s.reducing := rfl
@[simp] theorem State.modDom_ports (s : State) (r : Nat) (f : DomSt → DomSt) : (s.modDom r f).ports = s.ports := rfl
@[simp] theorem State.modDom_lnk (s : State) (r : Nat) (f : DomSt → DomSt) : (s.modDom r f).lnk = s.lnk := rfl
@[simp] theorem State.modDom_colls (s : State) (r : Nat) (f : DomSt → DomSt) : (s.modDom r f).colls = s.colls := rfl
@[simp] theorem State.modDom_pwr (s : State) (r : Nat) (f : DomSt → DomSt) : (s.modDom r f).pwr = s.pwr := rfl
@[simp] theorem State.modDom_thm (s : State) (r : Nat) (f : DomSt → DomSt) : (s.modDom r f).thm = s.thm := rfl
@[simp] theorem State.modDom_err (s : State) (r : Nat) (f : DomSt → DomSt) : (s.modDom r f).err = s.err := rfl
@[simp] theorem State.modDom_dbg (s : State) (r : Nat) (f : DomSt → DomSt) : (s.modDom r f).dbg = s.dbg := rfl
@[simp] theorem State.modDom_boot (s : State) (r : Nat) (f : DomSt → DomSt) : (s.modDom r f).boot = s.boot := rfl
@[simp] theorem State.modDom_bond (s : State) (r : Nat) (f : DomSt → DomSt) : (s.modDom r f).bond = s.bond := rfl
@[simp] theorem State.modDom_mgt (s : State) (r : Nat) (f : DomSt → DomSt) : (s.modDom r f).mgt = s.mgt := rfl
@[simp] theorem State.modDom_oas (s : State) (r : Nat) (f : DomSt → DomSt) : (s.modDom r f).oas = s.oas := rfl
@[simp] theorem State.modDom_cxl (s : State) (r : Nat) (f : DomSt → DomSt) : (s.modDom r f).cxl = s.cxl := rfl
@[simp] theorem State.modDom_io (s : State) (r : Nat) (f : DomSt → DomSt) : (s.modDom r f).io = s.io := rfl
@[simp] theorem State.modDom_pins (s : State) (r : Nat) (f : DomSt → DomSt) : (s.modDom r f).pins = s.pins := rfl

/-! ### `State.ctrPut` -/

@[simp] theorem State.ctrPut_pending (s : State) (o : Nat) (v : Word64) : (s.ctrPut o v).pending = s.pending := rfl
@[simp] theorem State.ctrPut_time (s : State) (o : Nat) (v : Word64) : (s.ctrPut o v).time = s.time := rfl
@[simp] theorem State.ctrPut_freeIdx (s : State) (o : Nat) (v : Word64) : (s.ctrPut o v).freeIdx = s.freeIdx := rfl
@[simp] theorem State.ctrPut_dram (s : State) (o : Nat) (v : Word64) : (s.ctrPut o v).dram = s.dram := rfl
@[simp] theorem State.ctrPut_playa (s : State) (o : Nat) (v : Word64) : (s.ctrPut o v).playa = s.playa := rfl
@[simp] theorem State.ctrPut_delays (s : State) (o : Nat) (v : Word64) : (s.ctrPut o v).delays = s.delays := rfl
@[simp] theorem State.ctrPut_host (s : State) (o : Nat) (v : Word64) : (s.ctrPut o v).host = s.host := rfl
@[simp] theorem State.ctrPut_latchHi (s : State) (o : Nat) (v : Word64) : (s.ctrPut o v).latchHi = s.latchHi := rfl
@[simp] theorem State.ctrPut_loHold (s : State) (o : Nat) (v : Word64) : (s.ctrPut o v).loHold = s.loHold := rfl
@[simp] theorem State.ctrPut_staged (s : State) (o : Nat) (v : Word64) : (s.ctrPut o v).staged = s.staged := rfl
@[simp] theorem State.ctrPut_applied (s : State) (o : Nat) (v : Word64) : (s.ctrPut o v).applied = s.applied := rfl
@[simp] theorem State.ctrPut_glb (s : State) (o : Nat) (v : Word64) : (s.ctrPut o v).glb = s.glb := rfl
@[simp] theorem State.ctrPut_epoch (s : State) (o : Nat) (v : Word64) : (s.ctrPut o v).epoch = s.epoch := rfl
@[simp] theorem State.ctrPut_cmd (s : State) (o : Nat) (v : Word64) : (s.ctrPut o v).cmd = s.cmd := rfl
@[simp] theorem State.ctrPut_rings (s : State) (o : Nat) (v : Word64) : (s.ctrPut o v).rings = s.rings := rfl
@[simp] theorem State.ctrPut_tainted (s : State) (o : Nat) (v : Word64) : (s.ctrPut o v).tainted = s.tainted := rfl
@[simp] theorem State.ctrPut_conj (s : State) (o : Nat) (v : Word64) : (s.ctrPut o v).conj = s.conj := rfl
@[simp] theorem State.ctrPut_fields (s : State) (o : Nat) (v : Word64) : (s.ctrPut o v).fields = s.fields := rfl
@[simp] theorem State.ctrPut_steps (s : State) (o : Nat) (v : Word64) : (s.ctrPut o v).steps = s.steps := rfl
@[simp] theorem State.ctrPut_sync (s : State) (o : Nat) (v : Word64) : (s.ctrPut o v).sync = s.sync := rfl
@[simp] theorem State.ctrPut_slow (s : State) (o : Nat) (v : Word64) : (s.ctrPut o v).slow = s.slow := rfl
@[simp] theorem State.ctrPut_cores (s : State) (o : Nat) (v : Word64) : (s.ctrPut o v).cores = s.cores := rfl
@[simp] theorem State.ctrPut_vaults (s : State) (o : Nat) (v : Word64) : (s.ctrPut o v).vaults = s.vaults := rfl
@[simp] theorem State.ctrPut_caches (s : State) (o : Nat) (v : Word64) : (s.ctrPut o v).caches = s.caches := rfl
@[simp] theorem State.ctrPut_tiers (s : State) (o : Nat) (v : Word64) : (s.ctrPut o v).tiers = s.tiers := rfl
@[simp] theorem State.ctrPut_engines (s : State) (o : Nat) (v : Word64) : (s.ctrPut o v).engines = s.engines := rfl
@[simp] theorem State.ctrPut_selfRef (s : State) (o : Nat) (v : Word64) : (s.ctrPut o v).selfRef = s.selfRef := rfl
@[simp] theorem State.ctrPut_kvm (s : State) (o : Nat) (v : Word64) : (s.ctrPut o v).kvm = s.kvm := rfl
@[simp] theorem State.ctrPut_decodes (s : State) (o : Nat) (v : Word64) : (s.ctrPut o v).decodes = s.decodes := rfl
@[simp] theorem State.ctrPut_routers (s : State) (o : Nat) (v : Word64) : (s.ctrPut o v).routers = s.routers := rfl
@[simp] theorem State.ctrPut_slots (s : State) (o : Nat) (v : Word64) : (s.ctrPut o v).slots = s.slots := rfl
@[simp] theorem State.ctrPut_reducing (s : State) (o : Nat) (v : Word64) : (s.ctrPut o v).reducing = s.reducing := rfl
@[simp] theorem State.ctrPut_ports (s : State) (o : Nat) (v : Word64) : (s.ctrPut o v).ports = s.ports := rfl
@[simp] theorem State.ctrPut_lnk (s : State) (o : Nat) (v : Word64) : (s.ctrPut o v).lnk = s.lnk := rfl
@[simp] theorem State.ctrPut_colls (s : State) (o : Nat) (v : Word64) : (s.ctrPut o v).colls = s.colls := rfl
@[simp] theorem State.ctrPut_pwr (s : State) (o : Nat) (v : Word64) : (s.ctrPut o v).pwr = s.pwr := rfl
@[simp] theorem State.ctrPut_doms (s : State) (o : Nat) (v : Word64) : (s.ctrPut o v).doms = s.doms := rfl
@[simp] theorem State.ctrPut_thm (s : State) (o : Nat) (v : Word64) : (s.ctrPut o v).thm = s.thm := rfl
@[simp] theorem State.ctrPut_err (s : State) (o : Nat) (v : Word64) : (s.ctrPut o v).err = s.err := rfl
@[simp] theorem State.ctrPut_dbg (s : State) (o : Nat) (v : Word64) : (s.ctrPut o v).dbg = s.dbg := rfl
@[simp] theorem State.ctrPut_boot (s : State) (o : Nat) (v : Word64) : (s.ctrPut o v).boot = s.boot := rfl
@[simp] theorem State.ctrPut_bond (s : State) (o : Nat) (v : Word64) : (s.ctrPut o v).bond = s.bond := rfl
@[simp] theorem State.ctrPut_mgt (s : State) (o : Nat) (v : Word64) : (s.ctrPut o v).mgt = s.mgt := rfl
@[simp] theorem State.ctrPut_oas (s : State) (o : Nat) (v : Word64) : (s.ctrPut o v).oas = s.oas := rfl
@[simp] theorem State.ctrPut_cxl (s : State) (o : Nat) (v : Word64) : (s.ctrPut o v).cxl = s.cxl := rfl
@[simp] theorem State.ctrPut_io (s : State) (o : Nat) (v : Word64) : (s.ctrPut o v).io = s.io := rfl
@[simp] theorem State.ctrPut_pins (s : State) (o : Nat) (v : Word64) : (s.ctrPut o v).pins = s.pins := rfl

/-! ### `State.ctrAdd` -/

@[simp] theorem State.ctrAdd_pending (s : State) (o n : Nat) : (s.ctrAdd o n).pending = s.pending := rfl
@[simp] theorem State.ctrAdd_time (s : State) (o n : Nat) : (s.ctrAdd o n).time = s.time := rfl
@[simp] theorem State.ctrAdd_freeIdx (s : State) (o n : Nat) : (s.ctrAdd o n).freeIdx = s.freeIdx := rfl
@[simp] theorem State.ctrAdd_dram (s : State) (o n : Nat) : (s.ctrAdd o n).dram = s.dram := rfl
@[simp] theorem State.ctrAdd_playa (s : State) (o n : Nat) : (s.ctrAdd o n).playa = s.playa := rfl
@[simp] theorem State.ctrAdd_delays (s : State) (o n : Nat) : (s.ctrAdd o n).delays = s.delays := rfl
@[simp] theorem State.ctrAdd_host (s : State) (o n : Nat) : (s.ctrAdd o n).host = s.host := rfl
@[simp] theorem State.ctrAdd_latchHi (s : State) (o n : Nat) : (s.ctrAdd o n).latchHi = s.latchHi := rfl
@[simp] theorem State.ctrAdd_loHold (s : State) (o n : Nat) : (s.ctrAdd o n).loHold = s.loHold := rfl
@[simp] theorem State.ctrAdd_staged (s : State) (o n : Nat) : (s.ctrAdd o n).staged = s.staged := rfl
@[simp] theorem State.ctrAdd_applied (s : State) (o n : Nat) : (s.ctrAdd o n).applied = s.applied := rfl
@[simp] theorem State.ctrAdd_glb (s : State) (o n : Nat) : (s.ctrAdd o n).glb = s.glb := rfl
@[simp] theorem State.ctrAdd_epoch (s : State) (o n : Nat) : (s.ctrAdd o n).epoch = s.epoch := rfl
@[simp] theorem State.ctrAdd_cmd (s : State) (o n : Nat) : (s.ctrAdd o n).cmd = s.cmd := rfl
@[simp] theorem State.ctrAdd_rings (s : State) (o n : Nat) : (s.ctrAdd o n).rings = s.rings := rfl
@[simp] theorem State.ctrAdd_tainted (s : State) (o n : Nat) : (s.ctrAdd o n).tainted = s.tainted := rfl
@[simp] theorem State.ctrAdd_conj (s : State) (o n : Nat) : (s.ctrAdd o n).conj = s.conj := rfl
@[simp] theorem State.ctrAdd_fields (s : State) (o n : Nat) : (s.ctrAdd o n).fields = s.fields := rfl
@[simp] theorem State.ctrAdd_steps (s : State) (o n : Nat) : (s.ctrAdd o n).steps = s.steps := rfl
@[simp] theorem State.ctrAdd_sync (s : State) (o n : Nat) : (s.ctrAdd o n).sync = s.sync := rfl
@[simp] theorem State.ctrAdd_slow (s : State) (o n : Nat) : (s.ctrAdd o n).slow = s.slow := rfl
@[simp] theorem State.ctrAdd_cores (s : State) (o n : Nat) : (s.ctrAdd o n).cores = s.cores := rfl
@[simp] theorem State.ctrAdd_vaults (s : State) (o n : Nat) : (s.ctrAdd o n).vaults = s.vaults := rfl
@[simp] theorem State.ctrAdd_caches (s : State) (o n : Nat) : (s.ctrAdd o n).caches = s.caches := rfl
@[simp] theorem State.ctrAdd_tiers (s : State) (o n : Nat) : (s.ctrAdd o n).tiers = s.tiers := rfl
@[simp] theorem State.ctrAdd_engines (s : State) (o n : Nat) : (s.ctrAdd o n).engines = s.engines := rfl
@[simp] theorem State.ctrAdd_selfRef (s : State) (o n : Nat) : (s.ctrAdd o n).selfRef = s.selfRef := rfl
@[simp] theorem State.ctrAdd_kvm (s : State) (o n : Nat) : (s.ctrAdd o n).kvm = s.kvm := rfl
@[simp] theorem State.ctrAdd_decodes (s : State) (o n : Nat) : (s.ctrAdd o n).decodes = s.decodes := rfl
@[simp] theorem State.ctrAdd_routers (s : State) (o n : Nat) : (s.ctrAdd o n).routers = s.routers := rfl
@[simp] theorem State.ctrAdd_slots (s : State) (o n : Nat) : (s.ctrAdd o n).slots = s.slots := rfl
@[simp] theorem State.ctrAdd_reducing (s : State) (o n : Nat) : (s.ctrAdd o n).reducing = s.reducing := rfl
@[simp] theorem State.ctrAdd_ports (s : State) (o n : Nat) : (s.ctrAdd o n).ports = s.ports := rfl
@[simp] theorem State.ctrAdd_lnk (s : State) (o n : Nat) : (s.ctrAdd o n).lnk = s.lnk := rfl
@[simp] theorem State.ctrAdd_colls (s : State) (o n : Nat) : (s.ctrAdd o n).colls = s.colls := rfl
@[simp] theorem State.ctrAdd_pwr (s : State) (o n : Nat) : (s.ctrAdd o n).pwr = s.pwr := rfl
@[simp] theorem State.ctrAdd_doms (s : State) (o n : Nat) : (s.ctrAdd o n).doms = s.doms := rfl
@[simp] theorem State.ctrAdd_thm (s : State) (o n : Nat) : (s.ctrAdd o n).thm = s.thm := rfl
@[simp] theorem State.ctrAdd_err (s : State) (o n : Nat) : (s.ctrAdd o n).err = s.err := rfl
@[simp] theorem State.ctrAdd_dbg (s : State) (o n : Nat) : (s.ctrAdd o n).dbg = s.dbg := rfl
@[simp] theorem State.ctrAdd_boot (s : State) (o n : Nat) : (s.ctrAdd o n).boot = s.boot := rfl
@[simp] theorem State.ctrAdd_bond (s : State) (o n : Nat) : (s.ctrAdd o n).bond = s.bond := rfl
@[simp] theorem State.ctrAdd_mgt (s : State) (o n : Nat) : (s.ctrAdd o n).mgt = s.mgt := rfl
@[simp] theorem State.ctrAdd_oas (s : State) (o n : Nat) : (s.ctrAdd o n).oas = s.oas := rfl
@[simp] theorem State.ctrAdd_cxl (s : State) (o n : Nat) : (s.ctrAdd o n).cxl = s.cxl := rfl
@[simp] theorem State.ctrAdd_io (s : State) (o n : Nat) : (s.ctrAdd o n).io = s.io := rfl
@[simp] theorem State.ctrAdd_pins (s : State) (o n : Nat) : (s.ctrAdd o n).pins = s.pins := rfl

/-! ### `State.tookFree` -/

@[simp] theorem State.tookFree_pending (s : State) : (s.tookFree).pending = s.pending := rfl
@[simp] theorem State.tookFree_time (s : State) : (s.tookFree).time = s.time := rfl
@[simp] theorem State.tookFree_dram (s : State) : (s.tookFree).dram = s.dram := rfl
@[simp] theorem State.tookFree_playa (s : State) : (s.tookFree).playa = s.playa := rfl
@[simp] theorem State.tookFree_delays (s : State) : (s.tookFree).delays = s.delays := rfl
@[simp] theorem State.tookFree_host (s : State) : (s.tookFree).host = s.host := rfl
@[simp] theorem State.tookFree_ctr (s : State) : (s.tookFree).ctr = s.ctr := rfl
@[simp] theorem State.tookFree_latchHi (s : State) : (s.tookFree).latchHi = s.latchHi := rfl
@[simp] theorem State.tookFree_loHold (s : State) : (s.tookFree).loHold = s.loHold := rfl
@[simp] theorem State.tookFree_staged (s : State) : (s.tookFree).staged = s.staged := rfl
@[simp] theorem State.tookFree_applied (s : State) : (s.tookFree).applied = s.applied := rfl
@[simp] theorem State.tookFree_glb (s : State) : (s.tookFree).glb = s.glb := rfl
@[simp] theorem State.tookFree_epoch (s : State) : (s.tookFree).epoch = s.epoch := rfl
@[simp] theorem State.tookFree_cmd (s : State) : (s.tookFree).cmd = s.cmd := rfl
@[simp] theorem State.tookFree_rings (s : State) : (s.tookFree).rings = s.rings := rfl
@[simp] theorem State.tookFree_tainted (s : State) : (s.tookFree).tainted = s.tainted := rfl
@[simp] theorem State.tookFree_conj (s : State) : (s.tookFree).conj = s.conj := rfl
@[simp] theorem State.tookFree_fields (s : State) : (s.tookFree).fields = s.fields := rfl
@[simp] theorem State.tookFree_steps (s : State) : (s.tookFree).steps = s.steps := rfl
@[simp] theorem State.tookFree_sync (s : State) : (s.tookFree).sync = s.sync := rfl
@[simp] theorem State.tookFree_slow (s : State) : (s.tookFree).slow = s.slow := rfl
@[simp] theorem State.tookFree_cores (s : State) : (s.tookFree).cores = s.cores := rfl
@[simp] theorem State.tookFree_vaults (s : State) : (s.tookFree).vaults = s.vaults := rfl
@[simp] theorem State.tookFree_caches (s : State) : (s.tookFree).caches = s.caches := rfl
@[simp] theorem State.tookFree_tiers (s : State) : (s.tookFree).tiers = s.tiers := rfl
@[simp] theorem State.tookFree_engines (s : State) : (s.tookFree).engines = s.engines := rfl
@[simp] theorem State.tookFree_selfRef (s : State) : (s.tookFree).selfRef = s.selfRef := rfl
@[simp] theorem State.tookFree_kvm (s : State) : (s.tookFree).kvm = s.kvm := rfl
@[simp] theorem State.tookFree_decodes (s : State) : (s.tookFree).decodes = s.decodes := rfl
@[simp] theorem State.tookFree_routers (s : State) : (s.tookFree).routers = s.routers := rfl
@[simp] theorem State.tookFree_slots (s : State) : (s.tookFree).slots = s.slots := rfl
@[simp] theorem State.tookFree_reducing (s : State) : (s.tookFree).reducing = s.reducing := rfl
@[simp] theorem State.tookFree_ports (s : State) : (s.tookFree).ports = s.ports := rfl
@[simp] theorem State.tookFree_lnk (s : State) : (s.tookFree).lnk = s.lnk := rfl
@[simp] theorem State.tookFree_colls (s : State) : (s.tookFree).colls = s.colls := rfl
@[simp] theorem State.tookFree_pwr (s : State) : (s.tookFree).pwr = s.pwr := rfl
@[simp] theorem State.tookFree_doms (s : State) : (s.tookFree).doms = s.doms := rfl
@[simp] theorem State.tookFree_thm (s : State) : (s.tookFree).thm = s.thm := rfl
@[simp] theorem State.tookFree_err (s : State) : (s.tookFree).err = s.err := rfl
@[simp] theorem State.tookFree_dbg (s : State) : (s.tookFree).dbg = s.dbg := rfl
@[simp] theorem State.tookFree_boot (s : State) : (s.tookFree).boot = s.boot := rfl
@[simp] theorem State.tookFree_bond (s : State) : (s.tookFree).bond = s.bond := rfl
@[simp] theorem State.tookFree_mgt (s : State) : (s.tookFree).mgt = s.mgt := rfl
@[simp] theorem State.tookFree_oas (s : State) : (s.tookFree).oas = s.oas := rfl
@[simp] theorem State.tookFree_cxl (s : State) : (s.tookFree).cxl = s.cxl := rfl
@[simp] theorem State.tookFree_io (s : State) : (s.tookFree).io = s.io := rfl
@[simp] theorem State.tookFree_pins (s : State) : (s.tookFree).pins = s.pins := rfl

/-! ### `State.raise` -/

@[simp] theorem State.raise_pending (s : State) (e : Event) : (s.raise e).pending = s.pending := rfl
@[simp] theorem State.raise_time (s : State) (e : Event) : (s.raise e).time = s.time := rfl
@[simp] theorem State.raise_freeIdx (s : State) (e : Event) : (s.raise e).freeIdx = s.freeIdx := rfl
@[simp] theorem State.raise_dram (s : State) (e : Event) : (s.raise e).dram = s.dram := rfl
@[simp] theorem State.raise_playa (s : State) (e : Event) : (s.raise e).playa = s.playa := rfl
@[simp] theorem State.raise_delays (s : State) (e : Event) : (s.raise e).delays = s.delays := rfl
@[simp] theorem State.raise_host (s : State) (e : Event) : (s.raise e).host = s.host := rfl
@[simp] theorem State.raise_ctr (s : State) (e : Event) : (s.raise e).ctr = s.ctr := rfl
@[simp] theorem State.raise_latchHi (s : State) (e : Event) : (s.raise e).latchHi = s.latchHi := rfl
@[simp] theorem State.raise_loHold (s : State) (e : Event) : (s.raise e).loHold = s.loHold := rfl
@[simp] theorem State.raise_staged (s : State) (e : Event) : (s.raise e).staged = s.staged := rfl
@[simp] theorem State.raise_applied (s : State) (e : Event) : (s.raise e).applied = s.applied := rfl
@[simp] theorem State.raise_glb (s : State) (e : Event) : (s.raise e).glb = s.glb := rfl
@[simp] theorem State.raise_epoch (s : State) (e : Event) : (s.raise e).epoch = s.epoch := rfl
@[simp] theorem State.raise_cmd (s : State) (e : Event) : (s.raise e).cmd = s.cmd := rfl
@[simp] theorem State.raise_rings (s : State) (e : Event) : (s.raise e).rings = s.rings := rfl
@[simp] theorem State.raise_tainted (s : State) (e : Event) : (s.raise e).tainted = s.tainted := rfl
@[simp] theorem State.raise_conj (s : State) (e : Event) : (s.raise e).conj = s.conj := rfl
@[simp] theorem State.raise_fields (s : State) (e : Event) : (s.raise e).fields = s.fields := rfl
@[simp] theorem State.raise_steps (s : State) (e : Event) : (s.raise e).steps = s.steps := rfl
@[simp] theorem State.raise_sync (s : State) (e : Event) : (s.raise e).sync = s.sync := rfl
@[simp] theorem State.raise_slow (s : State) (e : Event) : (s.raise e).slow = s.slow := rfl
@[simp] theorem State.raise_cores (s : State) (e : Event) : (s.raise e).cores = s.cores := rfl
@[simp] theorem State.raise_vaults (s : State) (e : Event) : (s.raise e).vaults = s.vaults := rfl
@[simp] theorem State.raise_caches (s : State) (e : Event) : (s.raise e).caches = s.caches := rfl
@[simp] theorem State.raise_tiers (s : State) (e : Event) : (s.raise e).tiers = s.tiers := rfl
@[simp] theorem State.raise_engines (s : State) (e : Event) : (s.raise e).engines = s.engines := rfl
@[simp] theorem State.raise_selfRef (s : State) (e : Event) : (s.raise e).selfRef = s.selfRef := rfl
@[simp] theorem State.raise_kvm (s : State) (e : Event) : (s.raise e).kvm = s.kvm := rfl
@[simp] theorem State.raise_decodes (s : State) (e : Event) : (s.raise e).decodes = s.decodes := rfl
@[simp] theorem State.raise_routers (s : State) (e : Event) : (s.raise e).routers = s.routers := rfl
@[simp] theorem State.raise_slots (s : State) (e : Event) : (s.raise e).slots = s.slots := rfl
@[simp] theorem State.raise_reducing (s : State) (e : Event) : (s.raise e).reducing = s.reducing := rfl
@[simp] theorem State.raise_ports (s : State) (e : Event) : (s.raise e).ports = s.ports := rfl
@[simp] theorem State.raise_lnk (s : State) (e : Event) : (s.raise e).lnk = s.lnk := rfl
@[simp] theorem State.raise_colls (s : State) (e : Event) : (s.raise e).colls = s.colls := rfl
@[simp] theorem State.raise_pwr (s : State) (e : Event) : (s.raise e).pwr = s.pwr := rfl
@[simp] theorem State.raise_doms (s : State) (e : Event) : (s.raise e).doms = s.doms := rfl
@[simp] theorem State.raise_thm (s : State) (e : Event) : (s.raise e).thm = s.thm := rfl
@[simp] theorem State.raise_err (s : State) (e : Event) : (s.raise e).err = s.err := rfl
@[simp] theorem State.raise_dbg (s : State) (e : Event) : (s.raise e).dbg = s.dbg := rfl
@[simp] theorem State.raise_bond (s : State) (e : Event) : (s.raise e).bond = s.bond := rfl
@[simp] theorem State.raise_oas (s : State) (e : Event) : (s.raise e).oas = s.oas := rfl
@[simp] theorem State.raise_cxl (s : State) (e : Event) : (s.raise e).cxl = s.cxl := rfl
@[simp] theorem State.raise_io (s : State) (e : Event) : (s.raise e).io = s.io := rfl
@[simp] theorem State.raise_pins (s : State) (e : Event) : (s.raise e).pins = s.pins := rfl

/-! ### `State.event` -/

@[simp] theorem State.event_pending (s : State) (k : EventKind) (c : Option Nat) (u n : Nat) (f : Option Nat) (x : Nat) (l : List Word64) : (s.event k c u n f x l).pending = s.pending := rfl
@[simp] theorem State.event_time (s : State) (k : EventKind) (c : Option Nat) (u n : Nat) (f : Option Nat) (x : Nat) (l : List Word64) : (s.event k c u n f x l).time = s.time := rfl
@[simp] theorem State.event_freeIdx (s : State) (k : EventKind) (c : Option Nat) (u n : Nat) (f : Option Nat) (x : Nat) (l : List Word64) : (s.event k c u n f x l).freeIdx = s.freeIdx := rfl
@[simp] theorem State.event_dram (s : State) (k : EventKind) (c : Option Nat) (u n : Nat) (f : Option Nat) (x : Nat) (l : List Word64) : (s.event k c u n f x l).dram = s.dram := rfl
@[simp] theorem State.event_playa (s : State) (k : EventKind) (c : Option Nat) (u n : Nat) (f : Option Nat) (x : Nat) (l : List Word64) : (s.event k c u n f x l).playa = s.playa := rfl
@[simp] theorem State.event_delays (s : State) (k : EventKind) (c : Option Nat) (u n : Nat) (f : Option Nat) (x : Nat) (l : List Word64) : (s.event k c u n f x l).delays = s.delays := rfl
@[simp] theorem State.event_host (s : State) (k : EventKind) (c : Option Nat) (u n : Nat) (f : Option Nat) (x : Nat) (l : List Word64) : (s.event k c u n f x l).host = s.host := rfl
@[simp] theorem State.event_ctr (s : State) (k : EventKind) (c : Option Nat) (u n : Nat) (f : Option Nat) (x : Nat) (l : List Word64) : (s.event k c u n f x l).ctr = s.ctr := rfl
@[simp] theorem State.event_latchHi (s : State) (k : EventKind) (c : Option Nat) (u n : Nat) (f : Option Nat) (x : Nat) (l : List Word64) : (s.event k c u n f x l).latchHi = s.latchHi := rfl
@[simp] theorem State.event_loHold (s : State) (k : EventKind) (c : Option Nat) (u n : Nat) (f : Option Nat) (x : Nat) (l : List Word64) : (s.event k c u n f x l).loHold = s.loHold := rfl
@[simp] theorem State.event_staged (s : State) (k : EventKind) (c : Option Nat) (u n : Nat) (f : Option Nat) (x : Nat) (l : List Word64) : (s.event k c u n f x l).staged = s.staged := rfl
@[simp] theorem State.event_applied (s : State) (k : EventKind) (c : Option Nat) (u n : Nat) (f : Option Nat) (x : Nat) (l : List Word64) : (s.event k c u n f x l).applied = s.applied := rfl
@[simp] theorem State.event_glb (s : State) (k : EventKind) (c : Option Nat) (u n : Nat) (f : Option Nat) (x : Nat) (l : List Word64) : (s.event k c u n f x l).glb = s.glb := rfl
@[simp] theorem State.event_epoch (s : State) (k : EventKind) (c : Option Nat) (u n : Nat) (f : Option Nat) (x : Nat) (l : List Word64) : (s.event k c u n f x l).epoch = s.epoch := rfl
@[simp] theorem State.event_cmd (s : State) (k : EventKind) (c : Option Nat) (u n : Nat) (f : Option Nat) (x : Nat) (l : List Word64) : (s.event k c u n f x l).cmd = s.cmd := rfl
@[simp] theorem State.event_rings (s : State) (k : EventKind) (c : Option Nat) (u n : Nat) (f : Option Nat) (x : Nat) (l : List Word64) : (s.event k c u n f x l).rings = s.rings := rfl
@[simp] theorem State.event_tainted (s : State) (k : EventKind) (c : Option Nat) (u n : Nat) (f : Option Nat) (x : Nat) (l : List Word64) : (s.event k c u n f x l).tainted = s.tainted := rfl
@[simp] theorem State.event_conj (s : State) (k : EventKind) (c : Option Nat) (u n : Nat) (f : Option Nat) (x : Nat) (l : List Word64) : (s.event k c u n f x l).conj = s.conj := rfl
@[simp] theorem State.event_fields (s : State) (k : EventKind) (c : Option Nat) (u n : Nat) (f : Option Nat) (x : Nat) (l : List Word64) : (s.event k c u n f x l).fields = s.fields := rfl
@[simp] theorem State.event_steps (s : State) (k : EventKind) (c : Option Nat) (u n : Nat) (f : Option Nat) (x : Nat) (l : List Word64) : (s.event k c u n f x l).steps = s.steps := rfl
@[simp] theorem State.event_sync (s : State) (k : EventKind) (c : Option Nat) (u n : Nat) (f : Option Nat) (x : Nat) (l : List Word64) : (s.event k c u n f x l).sync = s.sync := rfl
@[simp] theorem State.event_slow (s : State) (k : EventKind) (c : Option Nat) (u n : Nat) (f : Option Nat) (x : Nat) (l : List Word64) : (s.event k c u n f x l).slow = s.slow := rfl
@[simp] theorem State.event_cores (s : State) (k : EventKind) (c : Option Nat) (u n : Nat) (f : Option Nat) (x : Nat) (l : List Word64) : (s.event k c u n f x l).cores = s.cores := rfl
@[simp] theorem State.event_vaults (s : State) (k : EventKind) (c : Option Nat) (u n : Nat) (f : Option Nat) (x : Nat) (l : List Word64) : (s.event k c u n f x l).vaults = s.vaults := rfl
@[simp] theorem State.event_caches (s : State) (k : EventKind) (c : Option Nat) (u n : Nat) (f : Option Nat) (x : Nat) (l : List Word64) : (s.event k c u n f x l).caches = s.caches := rfl
@[simp] theorem State.event_tiers (s : State) (k : EventKind) (c : Option Nat) (u n : Nat) (f : Option Nat) (x : Nat) (l : List Word64) : (s.event k c u n f x l).tiers = s.tiers := rfl
@[simp] theorem State.event_engines (s : State) (k : EventKind) (c : Option Nat) (u n : Nat) (f : Option Nat) (x : Nat) (l : List Word64) : (s.event k c u n f x l).engines = s.engines := rfl
@[simp] theorem State.event_selfRef (s : State) (k : EventKind) (c : Option Nat) (u n : Nat) (f : Option Nat) (x : Nat) (l : List Word64) : (s.event k c u n f x l).selfRef = s.selfRef := rfl
@[simp] theorem State.event_kvm (s : State) (k : EventKind) (c : Option Nat) (u n : Nat) (f : Option Nat) (x : Nat) (l : List Word64) : (s.event k c u n f x l).kvm = s.kvm := rfl
@[simp] theorem State.event_decodes (s : State) (k : EventKind) (c : Option Nat) (u n : Nat) (f : Option Nat) (x : Nat) (l : List Word64) : (s.event k c u n f x l).decodes = s.decodes := rfl
@[simp] theorem State.event_routers (s : State) (k : EventKind) (c : Option Nat) (u n : Nat) (f : Option Nat) (x : Nat) (l : List Word64) : (s.event k c u n f x l).routers = s.routers := rfl
@[simp] theorem State.event_slots (s : State) (k : EventKind) (c : Option Nat) (u n : Nat) (f : Option Nat) (x : Nat) (l : List Word64) : (s.event k c u n f x l).slots = s.slots := rfl
@[simp] theorem State.event_reducing (s : State) (k : EventKind) (c : Option Nat) (u n : Nat) (f : Option Nat) (x : Nat) (l : List Word64) : (s.event k c u n f x l).reducing = s.reducing := rfl
@[simp] theorem State.event_ports (s : State) (k : EventKind) (c : Option Nat) (u n : Nat) (f : Option Nat) (x : Nat) (l : List Word64) : (s.event k c u n f x l).ports = s.ports := rfl
@[simp] theorem State.event_lnk (s : State) (k : EventKind) (c : Option Nat) (u n : Nat) (f : Option Nat) (x : Nat) (l : List Word64) : (s.event k c u n f x l).lnk = s.lnk := rfl
@[simp] theorem State.event_colls (s : State) (k : EventKind) (c : Option Nat) (u n : Nat) (f : Option Nat) (x : Nat) (l : List Word64) : (s.event k c u n f x l).colls = s.colls := rfl
@[simp] theorem State.event_pwr (s : State) (k : EventKind) (c : Option Nat) (u n : Nat) (f : Option Nat) (x : Nat) (l : List Word64) : (s.event k c u n f x l).pwr = s.pwr := rfl
@[simp] theorem State.event_doms (s : State) (k : EventKind) (c : Option Nat) (u n : Nat) (f : Option Nat) (x : Nat) (l : List Word64) : (s.event k c u n f x l).doms = s.doms := rfl
@[simp] theorem State.event_thm (s : State) (k : EventKind) (c : Option Nat) (u n : Nat) (f : Option Nat) (x : Nat) (l : List Word64) : (s.event k c u n f x l).thm = s.thm := rfl
@[simp] theorem State.event_err (s : State) (k : EventKind) (c : Option Nat) (u n : Nat) (f : Option Nat) (x : Nat) (l : List Word64) : (s.event k c u n f x l).err = s.err := rfl
@[simp] theorem State.event_dbg (s : State) (k : EventKind) (c : Option Nat) (u n : Nat) (f : Option Nat) (x : Nat) (l : List Word64) : (s.event k c u n f x l).dbg = s.dbg := rfl
@[simp] theorem State.event_bond (s : State) (k : EventKind) (c : Option Nat) (u n : Nat) (f : Option Nat) (x : Nat) (l : List Word64) : (s.event k c u n f x l).bond = s.bond := rfl
@[simp] theorem State.event_oas (s : State) (k : EventKind) (c : Option Nat) (u n : Nat) (f : Option Nat) (x : Nat) (l : List Word64) : (s.event k c u n f x l).oas = s.oas := rfl
@[simp] theorem State.event_cxl (s : State) (k : EventKind) (c : Option Nat) (u n : Nat) (f : Option Nat) (x : Nat) (l : List Word64) : (s.event k c u n f x l).cxl = s.cxl := rfl
@[simp] theorem State.event_io (s : State) (k : EventKind) (c : Option Nat) (u n : Nat) (f : Option Nat) (x : Nat) (l : List Word64) : (s.event k c u n f x l).io = s.io := rfl
@[simp] theorem State.event_pins (s : State) (k : EventKind) (c : Option Nat) (u n : Nat) (f : Option Nat) (x : Nat) (l : List Word64) : (s.event k c u n f x l).pins = s.pins := rfl

/-! ### `State.answer` -/

@[simp] theorem State.answer_pending (s : State) (a : HostAnswer) : (s.answer a).pending = s.pending := rfl
@[simp] theorem State.answer_time (s : State) (a : HostAnswer) : (s.answer a).time = s.time := rfl
@[simp] theorem State.answer_freeIdx (s : State) (a : HostAnswer) : (s.answer a).freeIdx = s.freeIdx := rfl
@[simp] theorem State.answer_dram (s : State) (a : HostAnswer) : (s.answer a).dram = s.dram := rfl
@[simp] theorem State.answer_playa (s : State) (a : HostAnswer) : (s.answer a).playa = s.playa := rfl
@[simp] theorem State.answer_delays (s : State) (a : HostAnswer) : (s.answer a).delays = s.delays := rfl
@[simp] theorem State.answer_host (s : State) (a : HostAnswer) : (s.answer a).host = s.host := rfl
@[simp] theorem State.answer_ctr (s : State) (a : HostAnswer) : (s.answer a).ctr = s.ctr := rfl
@[simp] theorem State.answer_latchHi (s : State) (a : HostAnswer) : (s.answer a).latchHi = s.latchHi := rfl
@[simp] theorem State.answer_loHold (s : State) (a : HostAnswer) : (s.answer a).loHold = s.loHold := rfl
@[simp] theorem State.answer_staged (s : State) (a : HostAnswer) : (s.answer a).staged = s.staged := rfl
@[simp] theorem State.answer_applied (s : State) (a : HostAnswer) : (s.answer a).applied = s.applied := rfl
@[simp] theorem State.answer_glb (s : State) (a : HostAnswer) : (s.answer a).glb = s.glb := rfl
@[simp] theorem State.answer_epoch (s : State) (a : HostAnswer) : (s.answer a).epoch = s.epoch := rfl
@[simp] theorem State.answer_cmd (s : State) (a : HostAnswer) : (s.answer a).cmd = s.cmd := rfl
@[simp] theorem State.answer_rings (s : State) (a : HostAnswer) : (s.answer a).rings = s.rings := rfl
@[simp] theorem State.answer_tainted (s : State) (a : HostAnswer) : (s.answer a).tainted = s.tainted := rfl
@[simp] theorem State.answer_conj (s : State) (a : HostAnswer) : (s.answer a).conj = s.conj := rfl
@[simp] theorem State.answer_fields (s : State) (a : HostAnswer) : (s.answer a).fields = s.fields := rfl
@[simp] theorem State.answer_steps (s : State) (a : HostAnswer) : (s.answer a).steps = s.steps := rfl
@[simp] theorem State.answer_sync (s : State) (a : HostAnswer) : (s.answer a).sync = s.sync := rfl
@[simp] theorem State.answer_slow (s : State) (a : HostAnswer) : (s.answer a).slow = s.slow := rfl
@[simp] theorem State.answer_cores (s : State) (a : HostAnswer) : (s.answer a).cores = s.cores := rfl
@[simp] theorem State.answer_vaults (s : State) (a : HostAnswer) : (s.answer a).vaults = s.vaults := rfl
@[simp] theorem State.answer_caches (s : State) (a : HostAnswer) : (s.answer a).caches = s.caches := rfl
@[simp] theorem State.answer_tiers (s : State) (a : HostAnswer) : (s.answer a).tiers = s.tiers := rfl
@[simp] theorem State.answer_engines (s : State) (a : HostAnswer) : (s.answer a).engines = s.engines := rfl
@[simp] theorem State.answer_selfRef (s : State) (a : HostAnswer) : (s.answer a).selfRef = s.selfRef := rfl
@[simp] theorem State.answer_kvm (s : State) (a : HostAnswer) : (s.answer a).kvm = s.kvm := rfl
@[simp] theorem State.answer_decodes (s : State) (a : HostAnswer) : (s.answer a).decodes = s.decodes := rfl
@[simp] theorem State.answer_routers (s : State) (a : HostAnswer) : (s.answer a).routers = s.routers := rfl
@[simp] theorem State.answer_slots (s : State) (a : HostAnswer) : (s.answer a).slots = s.slots := rfl
@[simp] theorem State.answer_reducing (s : State) (a : HostAnswer) : (s.answer a).reducing = s.reducing := rfl
@[simp] theorem State.answer_ports (s : State) (a : HostAnswer) : (s.answer a).ports = s.ports := rfl
@[simp] theorem State.answer_lnk (s : State) (a : HostAnswer) : (s.answer a).lnk = s.lnk := rfl
@[simp] theorem State.answer_colls (s : State) (a : HostAnswer) : (s.answer a).colls = s.colls := rfl
@[simp] theorem State.answer_pwr (s : State) (a : HostAnswer) : (s.answer a).pwr = s.pwr := rfl
@[simp] theorem State.answer_doms (s : State) (a : HostAnswer) : (s.answer a).doms = s.doms := rfl
@[simp] theorem State.answer_thm (s : State) (a : HostAnswer) : (s.answer a).thm = s.thm := rfl
@[simp] theorem State.answer_err (s : State) (a : HostAnswer) : (s.answer a).err = s.err := rfl
@[simp] theorem State.answer_dbg (s : State) (a : HostAnswer) : (s.answer a).dbg = s.dbg := rfl
@[simp] theorem State.answer_boot (s : State) (a : HostAnswer) : (s.answer a).boot = s.boot := rfl
@[simp] theorem State.answer_bond (s : State) (a : HostAnswer) : (s.answer a).bond = s.bond := rfl
@[simp] theorem State.answer_mgt (s : State) (a : HostAnswer) : (s.answer a).mgt = s.mgt := rfl
@[simp] theorem State.answer_oas (s : State) (a : HostAnswer) : (s.answer a).oas = s.oas := rfl
@[simp] theorem State.answer_cxl (s : State) (a : HostAnswer) : (s.answer a).cxl = s.cxl := rfl
@[simp] theorem State.answer_pins (s : State) (a : HostAnswer) : (s.answer a).pins = s.pins := rfl

/-! ### `State.reply` -/

@[simp] theorem State.reply_pending (s : State) (a : MgtReply) : (s.reply a).pending = s.pending := rfl
@[simp] theorem State.reply_time (s : State) (a : MgtReply) : (s.reply a).time = s.time := rfl
@[simp] theorem State.reply_freeIdx (s : State) (a : MgtReply) : (s.reply a).freeIdx = s.freeIdx := rfl
@[simp] theorem State.reply_dram (s : State) (a : MgtReply) : (s.reply a).dram = s.dram := rfl
@[simp] theorem State.reply_playa (s : State) (a : MgtReply) : (s.reply a).playa = s.playa := rfl
@[simp] theorem State.reply_delays (s : State) (a : MgtReply) : (s.reply a).delays = s.delays := rfl
@[simp] theorem State.reply_host (s : State) (a : MgtReply) : (s.reply a).host = s.host := rfl
@[simp] theorem State.reply_ctr (s : State) (a : MgtReply) : (s.reply a).ctr = s.ctr := rfl
@[simp] theorem State.reply_latchHi (s : State) (a : MgtReply) : (s.reply a).latchHi = s.latchHi := rfl
@[simp] theorem State.reply_loHold (s : State) (a : MgtReply) : (s.reply a).loHold = s.loHold := rfl
@[simp] theorem State.reply_staged (s : State) (a : MgtReply) : (s.reply a).staged = s.staged := rfl
@[simp] theorem State.reply_applied (s : State) (a : MgtReply) : (s.reply a).applied = s.applied := rfl
@[simp] theorem State.reply_glb (s : State) (a : MgtReply) : (s.reply a).glb = s.glb := rfl
@[simp] theorem State.reply_epoch (s : State) (a : MgtReply) : (s.reply a).epoch = s.epoch := rfl
@[simp] theorem State.reply_cmd (s : State) (a : MgtReply) : (s.reply a).cmd = s.cmd := rfl
@[simp] theorem State.reply_rings (s : State) (a : MgtReply) : (s.reply a).rings = s.rings := rfl
@[simp] theorem State.reply_tainted (s : State) (a : MgtReply) : (s.reply a).tainted = s.tainted := rfl
@[simp] theorem State.reply_conj (s : State) (a : MgtReply) : (s.reply a).conj = s.conj := rfl
@[simp] theorem State.reply_fields (s : State) (a : MgtReply) : (s.reply a).fields = s.fields := rfl
@[simp] theorem State.reply_steps (s : State) (a : MgtReply) : (s.reply a).steps = s.steps := rfl
@[simp] theorem State.reply_sync (s : State) (a : MgtReply) : (s.reply a).sync = s.sync := rfl
@[simp] theorem State.reply_slow (s : State) (a : MgtReply) : (s.reply a).slow = s.slow := rfl
@[simp] theorem State.reply_cores (s : State) (a : MgtReply) : (s.reply a).cores = s.cores := rfl
@[simp] theorem State.reply_vaults (s : State) (a : MgtReply) : (s.reply a).vaults = s.vaults := rfl
@[simp] theorem State.reply_caches (s : State) (a : MgtReply) : (s.reply a).caches = s.caches := rfl
@[simp] theorem State.reply_tiers (s : State) (a : MgtReply) : (s.reply a).tiers = s.tiers := rfl
@[simp] theorem State.reply_engines (s : State) (a : MgtReply) : (s.reply a).engines = s.engines := rfl
@[simp] theorem State.reply_selfRef (s : State) (a : MgtReply) : (s.reply a).selfRef = s.selfRef := rfl
@[simp] theorem State.reply_kvm (s : State) (a : MgtReply) : (s.reply a).kvm = s.kvm := rfl
@[simp] theorem State.reply_decodes (s : State) (a : MgtReply) : (s.reply a).decodes = s.decodes := rfl
@[simp] theorem State.reply_routers (s : State) (a : MgtReply) : (s.reply a).routers = s.routers := rfl
@[simp] theorem State.reply_slots (s : State) (a : MgtReply) : (s.reply a).slots = s.slots := rfl
@[simp] theorem State.reply_reducing (s : State) (a : MgtReply) : (s.reply a).reducing = s.reducing := rfl
@[simp] theorem State.reply_ports (s : State) (a : MgtReply) : (s.reply a).ports = s.ports := rfl
@[simp] theorem State.reply_lnk (s : State) (a : MgtReply) : (s.reply a).lnk = s.lnk := rfl
@[simp] theorem State.reply_colls (s : State) (a : MgtReply) : (s.reply a).colls = s.colls := rfl
@[simp] theorem State.reply_pwr (s : State) (a : MgtReply) : (s.reply a).pwr = s.pwr := rfl
@[simp] theorem State.reply_doms (s : State) (a : MgtReply) : (s.reply a).doms = s.doms := rfl
@[simp] theorem State.reply_thm (s : State) (a : MgtReply) : (s.reply a).thm = s.thm := rfl
@[simp] theorem State.reply_err (s : State) (a : MgtReply) : (s.reply a).err = s.err := rfl
@[simp] theorem State.reply_dbg (s : State) (a : MgtReply) : (s.reply a).dbg = s.dbg := rfl
@[simp] theorem State.reply_boot (s : State) (a : MgtReply) : (s.reply a).boot = s.boot := rfl
@[simp] theorem State.reply_bond (s : State) (a : MgtReply) : (s.reply a).bond = s.bond := rfl
@[simp] theorem State.reply_mgt (s : State) (a : MgtReply) : (s.reply a).mgt = s.mgt := rfl
@[simp] theorem State.reply_oas (s : State) (a : MgtReply) : (s.reply a).oas = s.oas := rfl
@[simp] theorem State.reply_cxl (s : State) (a : MgtReply) : (s.reply a).cxl = s.cxl := rfl
@[simp] theorem State.reply_pins (s : State) (a : MgtReply) : (s.reply a).pins = s.pins := rfl

/-! ### `State.hostWrite` -/

@[simp] theorem State.hostWrite_pending (s : State) (a : Nat) (bs : List Byte) : (s.hostWrite a bs).pending = s.pending := rfl
@[simp] theorem State.hostWrite_time (s : State) (a : Nat) (bs : List Byte) : (s.hostWrite a bs).time = s.time := rfl
@[simp] theorem State.hostWrite_freeIdx (s : State) (a : Nat) (bs : List Byte) : (s.hostWrite a bs).freeIdx = s.freeIdx := rfl
@[simp] theorem State.hostWrite_dram (s : State) (a : Nat) (bs : List Byte) : (s.hostWrite a bs).dram = s.dram := rfl
@[simp] theorem State.hostWrite_playa (s : State) (a : Nat) (bs : List Byte) : (s.hostWrite a bs).playa = s.playa := rfl
@[simp] theorem State.hostWrite_delays (s : State) (a : Nat) (bs : List Byte) : (s.hostWrite a bs).delays = s.delays := rfl
@[simp] theorem State.hostWrite_ctr (s : State) (a : Nat) (bs : List Byte) : (s.hostWrite a bs).ctr = s.ctr := rfl
@[simp] theorem State.hostWrite_latchHi (s : State) (a : Nat) (bs : List Byte) : (s.hostWrite a bs).latchHi = s.latchHi := rfl
@[simp] theorem State.hostWrite_loHold (s : State) (a : Nat) (bs : List Byte) : (s.hostWrite a bs).loHold = s.loHold := rfl
@[simp] theorem State.hostWrite_staged (s : State) (a : Nat) (bs : List Byte) : (s.hostWrite a bs).staged = s.staged := rfl
@[simp] theorem State.hostWrite_applied (s : State) (a : Nat) (bs : List Byte) : (s.hostWrite a bs).applied = s.applied := rfl
@[simp] theorem State.hostWrite_glb (s : State) (a : Nat) (bs : List Byte) : (s.hostWrite a bs).glb = s.glb := rfl
@[simp] theorem State.hostWrite_epoch (s : State) (a : Nat) (bs : List Byte) : (s.hostWrite a bs).epoch = s.epoch := rfl
@[simp] theorem State.hostWrite_cmd (s : State) (a : Nat) (bs : List Byte) : (s.hostWrite a bs).cmd = s.cmd := rfl
@[simp] theorem State.hostWrite_rings (s : State) (a : Nat) (bs : List Byte) : (s.hostWrite a bs).rings = s.rings := rfl
@[simp] theorem State.hostWrite_tainted (s : State) (a : Nat) (bs : List Byte) : (s.hostWrite a bs).tainted = s.tainted := rfl
@[simp] theorem State.hostWrite_conj (s : State) (a : Nat) (bs : List Byte) : (s.hostWrite a bs).conj = s.conj := rfl
@[simp] theorem State.hostWrite_fields (s : State) (a : Nat) (bs : List Byte) : (s.hostWrite a bs).fields = s.fields := rfl
@[simp] theorem State.hostWrite_steps (s : State) (a : Nat) (bs : List Byte) : (s.hostWrite a bs).steps = s.steps := rfl
@[simp] theorem State.hostWrite_sync (s : State) (a : Nat) (bs : List Byte) : (s.hostWrite a bs).sync = s.sync := rfl
@[simp] theorem State.hostWrite_slow (s : State) (a : Nat) (bs : List Byte) : (s.hostWrite a bs).slow = s.slow := rfl
@[simp] theorem State.hostWrite_cores (s : State) (a : Nat) (bs : List Byte) : (s.hostWrite a bs).cores = s.cores := rfl
@[simp] theorem State.hostWrite_vaults (s : State) (a : Nat) (bs : List Byte) : (s.hostWrite a bs).vaults = s.vaults := rfl
@[simp] theorem State.hostWrite_caches (s : State) (a : Nat) (bs : List Byte) : (s.hostWrite a bs).caches = s.caches := rfl
@[simp] theorem State.hostWrite_tiers (s : State) (a : Nat) (bs : List Byte) : (s.hostWrite a bs).tiers = s.tiers := rfl
@[simp] theorem State.hostWrite_engines (s : State) (a : Nat) (bs : List Byte) : (s.hostWrite a bs).engines = s.engines := rfl
@[simp] theorem State.hostWrite_selfRef (s : State) (a : Nat) (bs : List Byte) : (s.hostWrite a bs).selfRef = s.selfRef := rfl
@[simp] theorem State.hostWrite_kvm (s : State) (a : Nat) (bs : List Byte) : (s.hostWrite a bs).kvm = s.kvm := rfl
@[simp] theorem State.hostWrite_decodes (s : State) (a : Nat) (bs : List Byte) : (s.hostWrite a bs).decodes = s.decodes := rfl
@[simp] theorem State.hostWrite_routers (s : State) (a : Nat) (bs : List Byte) : (s.hostWrite a bs).routers = s.routers := rfl
@[simp] theorem State.hostWrite_slots (s : State) (a : Nat) (bs : List Byte) : (s.hostWrite a bs).slots = s.slots := rfl
@[simp] theorem State.hostWrite_reducing (s : State) (a : Nat) (bs : List Byte) : (s.hostWrite a bs).reducing = s.reducing := rfl
@[simp] theorem State.hostWrite_ports (s : State) (a : Nat) (bs : List Byte) : (s.hostWrite a bs).ports = s.ports := rfl
@[simp] theorem State.hostWrite_lnk (s : State) (a : Nat) (bs : List Byte) : (s.hostWrite a bs).lnk = s.lnk := rfl
@[simp] theorem State.hostWrite_colls (s : State) (a : Nat) (bs : List Byte) : (s.hostWrite a bs).colls = s.colls := rfl
@[simp] theorem State.hostWrite_pwr (s : State) (a : Nat) (bs : List Byte) : (s.hostWrite a bs).pwr = s.pwr := rfl
@[simp] theorem State.hostWrite_doms (s : State) (a : Nat) (bs : List Byte) : (s.hostWrite a bs).doms = s.doms := rfl
@[simp] theorem State.hostWrite_thm (s : State) (a : Nat) (bs : List Byte) : (s.hostWrite a bs).thm = s.thm := rfl
@[simp] theorem State.hostWrite_err (s : State) (a : Nat) (bs : List Byte) : (s.hostWrite a bs).err = s.err := rfl
@[simp] theorem State.hostWrite_dbg (s : State) (a : Nat) (bs : List Byte) : (s.hostWrite a bs).dbg = s.dbg := rfl
@[simp] theorem State.hostWrite_boot (s : State) (a : Nat) (bs : List Byte) : (s.hostWrite a bs).boot = s.boot := rfl
@[simp] theorem State.hostWrite_bond (s : State) (a : Nat) (bs : List Byte) : (s.hostWrite a bs).bond = s.bond := rfl
@[simp] theorem State.hostWrite_mgt (s : State) (a : Nat) (bs : List Byte) : (s.hostWrite a bs).mgt = s.mgt := rfl
@[simp] theorem State.hostWrite_oas (s : State) (a : Nat) (bs : List Byte) : (s.hostWrite a bs).oas = s.oas := rfl
@[simp] theorem State.hostWrite_cxl (s : State) (a : Nat) (bs : List Byte) : (s.hostWrite a bs).cxl = s.cxl := rfl
@[simp] theorem State.hostWrite_io (s : State) (a : Nat) (bs : List Byte) : (s.hostWrite a bs).io = s.io := rfl
@[simp] theorem State.hostWrite_pins (s : State) (a : Nat) (bs : List Byte) : (s.hostWrite a bs).pins = s.pins := rfl

/-! ### `State.seeHost` -/

@[simp] theorem State.seeHost_pending (s : State) (v : HostView) : (s.seeHost v).pending = s.pending := rfl
@[simp] theorem State.seeHost_time (s : State) (v : HostView) : (s.seeHost v).time = s.time := rfl
@[simp] theorem State.seeHost_freeIdx (s : State) (v : HostView) : (s.seeHost v).freeIdx = s.freeIdx := rfl
@[simp] theorem State.seeHost_dram (s : State) (v : HostView) : (s.seeHost v).dram = s.dram := rfl
@[simp] theorem State.seeHost_playa (s : State) (v : HostView) : (s.seeHost v).playa = s.playa := rfl
@[simp] theorem State.seeHost_delays (s : State) (v : HostView) : (s.seeHost v).delays = s.delays := rfl
@[simp] theorem State.seeHost_ctr (s : State) (v : HostView) : (s.seeHost v).ctr = s.ctr := rfl
@[simp] theorem State.seeHost_latchHi (s : State) (v : HostView) : (s.seeHost v).latchHi = s.latchHi := rfl
@[simp] theorem State.seeHost_loHold (s : State) (v : HostView) : (s.seeHost v).loHold = s.loHold := rfl
@[simp] theorem State.seeHost_staged (s : State) (v : HostView) : (s.seeHost v).staged = s.staged := rfl
@[simp] theorem State.seeHost_applied (s : State) (v : HostView) : (s.seeHost v).applied = s.applied := rfl
@[simp] theorem State.seeHost_glb (s : State) (v : HostView) : (s.seeHost v).glb = s.glb := rfl
@[simp] theorem State.seeHost_epoch (s : State) (v : HostView) : (s.seeHost v).epoch = s.epoch := rfl
@[simp] theorem State.seeHost_cmd (s : State) (v : HostView) : (s.seeHost v).cmd = s.cmd := rfl
@[simp] theorem State.seeHost_rings (s : State) (v : HostView) : (s.seeHost v).rings = s.rings := rfl
@[simp] theorem State.seeHost_tainted (s : State) (v : HostView) : (s.seeHost v).tainted = s.tainted := rfl
@[simp] theorem State.seeHost_conj (s : State) (v : HostView) : (s.seeHost v).conj = s.conj := rfl
@[simp] theorem State.seeHost_fields (s : State) (v : HostView) : (s.seeHost v).fields = s.fields := rfl
@[simp] theorem State.seeHost_steps (s : State) (v : HostView) : (s.seeHost v).steps = s.steps := rfl
@[simp] theorem State.seeHost_sync (s : State) (v : HostView) : (s.seeHost v).sync = s.sync := rfl
@[simp] theorem State.seeHost_slow (s : State) (v : HostView) : (s.seeHost v).slow = s.slow := rfl
@[simp] theorem State.seeHost_cores (s : State) (v : HostView) : (s.seeHost v).cores = s.cores := rfl
@[simp] theorem State.seeHost_vaults (s : State) (v : HostView) : (s.seeHost v).vaults = s.vaults := rfl
@[simp] theorem State.seeHost_caches (s : State) (v : HostView) : (s.seeHost v).caches = s.caches := rfl
@[simp] theorem State.seeHost_tiers (s : State) (v : HostView) : (s.seeHost v).tiers = s.tiers := rfl
@[simp] theorem State.seeHost_engines (s : State) (v : HostView) : (s.seeHost v).engines = s.engines := rfl
@[simp] theorem State.seeHost_selfRef (s : State) (v : HostView) : (s.seeHost v).selfRef = s.selfRef := rfl
@[simp] theorem State.seeHost_kvm (s : State) (v : HostView) : (s.seeHost v).kvm = s.kvm := rfl
@[simp] theorem State.seeHost_decodes (s : State) (v : HostView) : (s.seeHost v).decodes = s.decodes := rfl
@[simp] theorem State.seeHost_routers (s : State) (v : HostView) : (s.seeHost v).routers = s.routers := rfl
@[simp] theorem State.seeHost_slots (s : State) (v : HostView) : (s.seeHost v).slots = s.slots := rfl
@[simp] theorem State.seeHost_reducing (s : State) (v : HostView) : (s.seeHost v).reducing = s.reducing := rfl
@[simp] theorem State.seeHost_ports (s : State) (v : HostView) : (s.seeHost v).ports = s.ports := rfl
@[simp] theorem State.seeHost_lnk (s : State) (v : HostView) : (s.seeHost v).lnk = s.lnk := rfl
@[simp] theorem State.seeHost_colls (s : State) (v : HostView) : (s.seeHost v).colls = s.colls := rfl
@[simp] theorem State.seeHost_pwr (s : State) (v : HostView) : (s.seeHost v).pwr = s.pwr := rfl
@[simp] theorem State.seeHost_doms (s : State) (v : HostView) : (s.seeHost v).doms = s.doms := rfl
@[simp] theorem State.seeHost_thm (s : State) (v : HostView) : (s.seeHost v).thm = s.thm := rfl
@[simp] theorem State.seeHost_err (s : State) (v : HostView) : (s.seeHost v).err = s.err := rfl
@[simp] theorem State.seeHost_dbg (s : State) (v : HostView) : (s.seeHost v).dbg = s.dbg := rfl
@[simp] theorem State.seeHost_boot (s : State) (v : HostView) : (s.seeHost v).boot = s.boot := rfl
@[simp] theorem State.seeHost_bond (s : State) (v : HostView) : (s.seeHost v).bond = s.bond := rfl
@[simp] theorem State.seeHost_mgt (s : State) (v : HostView) : (s.seeHost v).mgt = s.mgt := rfl
@[simp] theorem State.seeHost_oas (s : State) (v : HostView) : (s.seeHost v).oas = s.oas := rfl
@[simp] theorem State.seeHost_cxl (s : State) (v : HostView) : (s.seeHost v).cxl = s.cxl := rfl
@[simp] theorem State.seeHost_io (s : State) (v : HostView) : (s.seeHost v).io = s.io := rfl
@[simp] theorem State.seeHost_pins (s : State) (v : HostView) : (s.seeHost v).pins = s.pins := rfl

/-! ### `State.playaTaint` -/

@[simp] theorem State.playaTaint_pending (s : State) (c o n : Nat) : (s.playaTaint c o n).pending = s.pending := rfl
@[simp] theorem State.playaTaint_time (s : State) (c o n : Nat) : (s.playaTaint c o n).time = s.time := rfl
@[simp] theorem State.playaTaint_freeIdx (s : State) (c o n : Nat) : (s.playaTaint c o n).freeIdx = s.freeIdx := rfl
@[simp] theorem State.playaTaint_dram (s : State) (c o n : Nat) : (s.playaTaint c o n).dram = s.dram := rfl
@[simp] theorem State.playaTaint_delays (s : State) (c o n : Nat) : (s.playaTaint c o n).delays = s.delays := rfl
@[simp] theorem State.playaTaint_host (s : State) (c o n : Nat) : (s.playaTaint c o n).host = s.host := rfl
@[simp] theorem State.playaTaint_ctr (s : State) (c o n : Nat) : (s.playaTaint c o n).ctr = s.ctr := rfl
@[simp] theorem State.playaTaint_latchHi (s : State) (c o n : Nat) : (s.playaTaint c o n).latchHi = s.latchHi := rfl
@[simp] theorem State.playaTaint_loHold (s : State) (c o n : Nat) : (s.playaTaint c o n).loHold = s.loHold := rfl
@[simp] theorem State.playaTaint_staged (s : State) (c o n : Nat) : (s.playaTaint c o n).staged = s.staged := rfl
@[simp] theorem State.playaTaint_applied (s : State) (c o n : Nat) : (s.playaTaint c o n).applied = s.applied := rfl
@[simp] theorem State.playaTaint_glb (s : State) (c o n : Nat) : (s.playaTaint c o n).glb = s.glb := rfl
@[simp] theorem State.playaTaint_epoch (s : State) (c o n : Nat) : (s.playaTaint c o n).epoch = s.epoch := rfl
@[simp] theorem State.playaTaint_cmd (s : State) (c o n : Nat) : (s.playaTaint c o n).cmd = s.cmd := rfl
@[simp] theorem State.playaTaint_rings (s : State) (c o n : Nat) : (s.playaTaint c o n).rings = s.rings := rfl
@[simp] theorem State.playaTaint_tainted (s : State) (c o n : Nat) : (s.playaTaint c o n).tainted = s.tainted := rfl
@[simp] theorem State.playaTaint_conj (s : State) (c o n : Nat) : (s.playaTaint c o n).conj = s.conj := rfl
@[simp] theorem State.playaTaint_fields (s : State) (c o n : Nat) : (s.playaTaint c o n).fields = s.fields := rfl
@[simp] theorem State.playaTaint_steps (s : State) (c o n : Nat) : (s.playaTaint c o n).steps = s.steps := rfl
@[simp] theorem State.playaTaint_sync (s : State) (c o n : Nat) : (s.playaTaint c o n).sync = s.sync := rfl
@[simp] theorem State.playaTaint_slow (s : State) (c o n : Nat) : (s.playaTaint c o n).slow = s.slow := rfl
@[simp] theorem State.playaTaint_cores (s : State) (c o n : Nat) : (s.playaTaint c o n).cores = s.cores := rfl
@[simp] theorem State.playaTaint_vaults (s : State) (c o n : Nat) : (s.playaTaint c o n).vaults = s.vaults := rfl
@[simp] theorem State.playaTaint_caches (s : State) (c o n : Nat) : (s.playaTaint c o n).caches = s.caches := rfl
@[simp] theorem State.playaTaint_tiers (s : State) (c o n : Nat) : (s.playaTaint c o n).tiers = s.tiers := rfl
@[simp] theorem State.playaTaint_engines (s : State) (c o n : Nat) : (s.playaTaint c o n).engines = s.engines := rfl
@[simp] theorem State.playaTaint_selfRef (s : State) (c o n : Nat) : (s.playaTaint c o n).selfRef = s.selfRef := rfl
@[simp] theorem State.playaTaint_kvm (s : State) (c o n : Nat) : (s.playaTaint c o n).kvm = s.kvm := rfl
@[simp] theorem State.playaTaint_decodes (s : State) (c o n : Nat) : (s.playaTaint c o n).decodes = s.decodes := rfl
@[simp] theorem State.playaTaint_routers (s : State) (c o n : Nat) : (s.playaTaint c o n).routers = s.routers := rfl
@[simp] theorem State.playaTaint_slots (s : State) (c o n : Nat) : (s.playaTaint c o n).slots = s.slots := rfl
@[simp] theorem State.playaTaint_reducing (s : State) (c o n : Nat) : (s.playaTaint c o n).reducing = s.reducing := rfl
@[simp] theorem State.playaTaint_ports (s : State) (c o n : Nat) : (s.playaTaint c o n).ports = s.ports := rfl
@[simp] theorem State.playaTaint_lnk (s : State) (c o n : Nat) : (s.playaTaint c o n).lnk = s.lnk := rfl
@[simp] theorem State.playaTaint_colls (s : State) (c o n : Nat) : (s.playaTaint c o n).colls = s.colls := rfl
@[simp] theorem State.playaTaint_pwr (s : State) (c o n : Nat) : (s.playaTaint c o n).pwr = s.pwr := rfl
@[simp] theorem State.playaTaint_doms (s : State) (c o n : Nat) : (s.playaTaint c o n).doms = s.doms := rfl
@[simp] theorem State.playaTaint_thm (s : State) (c o n : Nat) : (s.playaTaint c o n).thm = s.thm := rfl
@[simp] theorem State.playaTaint_err (s : State) (c o n : Nat) : (s.playaTaint c o n).err = s.err := rfl
@[simp] theorem State.playaTaint_dbg (s : State) (c o n : Nat) : (s.playaTaint c o n).dbg = s.dbg := rfl
@[simp] theorem State.playaTaint_boot (s : State) (c o n : Nat) : (s.playaTaint c o n).boot = s.boot := rfl
@[simp] theorem State.playaTaint_bond (s : State) (c o n : Nat) : (s.playaTaint c o n).bond = s.bond := rfl
@[simp] theorem State.playaTaint_mgt (s : State) (c o n : Nat) : (s.playaTaint c o n).mgt = s.mgt := rfl
@[simp] theorem State.playaTaint_oas (s : State) (c o n : Nat) : (s.playaTaint c o n).oas = s.oas := rfl
@[simp] theorem State.playaTaint_cxl (s : State) (c o n : Nat) : (s.playaTaint c o n).cxl = s.cxl := rfl
@[simp] theorem State.playaTaint_io (s : State) (c o n : Nat) : (s.playaTaint c o n).io = s.io := rfl
@[simp] theorem State.playaTaint_pins (s : State) (c o n : Nat) : (s.playaTaint c o n).pins = s.pins := rfl

/-! ### `State.finding` -/

@[simp] theorem State.finding_pending (s : State) (k u a b : Nat) : (s.finding k u a b).pending = s.pending := rfl
@[simp] theorem State.finding_time (s : State) (k u a b : Nat) : (s.finding k u a b).time = s.time := rfl
@[simp] theorem State.finding_freeIdx (s : State) (k u a b : Nat) : (s.finding k u a b).freeIdx = s.freeIdx := rfl
@[simp] theorem State.finding_dram (s : State) (k u a b : Nat) : (s.finding k u a b).dram = s.dram := rfl
@[simp] theorem State.finding_playa (s : State) (k u a b : Nat) : (s.finding k u a b).playa = s.playa := rfl
@[simp] theorem State.finding_delays (s : State) (k u a b : Nat) : (s.finding k u a b).delays = s.delays := rfl
@[simp] theorem State.finding_host (s : State) (k u a b : Nat) : (s.finding k u a b).host = s.host := rfl
@[simp] theorem State.finding_ctr (s : State) (k u a b : Nat) : (s.finding k u a b).ctr = s.ctr := rfl
@[simp] theorem State.finding_latchHi (s : State) (k u a b : Nat) : (s.finding k u a b).latchHi = s.latchHi := rfl
@[simp] theorem State.finding_loHold (s : State) (k u a b : Nat) : (s.finding k u a b).loHold = s.loHold := rfl
@[simp] theorem State.finding_staged (s : State) (k u a b : Nat) : (s.finding k u a b).staged = s.staged := rfl
@[simp] theorem State.finding_applied (s : State) (k u a b : Nat) : (s.finding k u a b).applied = s.applied := rfl
@[simp] theorem State.finding_glb (s : State) (k u a b : Nat) : (s.finding k u a b).glb = s.glb := rfl
@[simp] theorem State.finding_epoch (s : State) (k u a b : Nat) : (s.finding k u a b).epoch = s.epoch := rfl
@[simp] theorem State.finding_cmd (s : State) (k u a b : Nat) : (s.finding k u a b).cmd = s.cmd := rfl
@[simp] theorem State.finding_rings (s : State) (k u a b : Nat) : (s.finding k u a b).rings = s.rings := rfl
@[simp] theorem State.finding_tainted (s : State) (k u a b : Nat) : (s.finding k u a b).tainted = s.tainted := rfl
@[simp] theorem State.finding_conj (s : State) (k u a b : Nat) : (s.finding k u a b).conj = s.conj := rfl
@[simp] theorem State.finding_fields (s : State) (k u a b : Nat) : (s.finding k u a b).fields = s.fields := rfl
@[simp] theorem State.finding_steps (s : State) (k u a b : Nat) : (s.finding k u a b).steps = s.steps := rfl
@[simp] theorem State.finding_sync (s : State) (k u a b : Nat) : (s.finding k u a b).sync = s.sync := rfl
@[simp] theorem State.finding_slow (s : State) (k u a b : Nat) : (s.finding k u a b).slow = s.slow := rfl
@[simp] theorem State.finding_cores (s : State) (k u a b : Nat) : (s.finding k u a b).cores = s.cores := rfl
@[simp] theorem State.finding_vaults (s : State) (k u a b : Nat) : (s.finding k u a b).vaults = s.vaults := rfl
@[simp] theorem State.finding_caches (s : State) (k u a b : Nat) : (s.finding k u a b).caches = s.caches := rfl
@[simp] theorem State.finding_tiers (s : State) (k u a b : Nat) : (s.finding k u a b).tiers = s.tiers := rfl
@[simp] theorem State.finding_engines (s : State) (k u a b : Nat) : (s.finding k u a b).engines = s.engines := rfl
@[simp] theorem State.finding_selfRef (s : State) (k u a b : Nat) : (s.finding k u a b).selfRef = s.selfRef := rfl
@[simp] theorem State.finding_kvm (s : State) (k u a b : Nat) : (s.finding k u a b).kvm = s.kvm := rfl
@[simp] theorem State.finding_decodes (s : State) (k u a b : Nat) : (s.finding k u a b).decodes = s.decodes := rfl
@[simp] theorem State.finding_routers (s : State) (k u a b : Nat) : (s.finding k u a b).routers = s.routers := rfl
@[simp] theorem State.finding_slots (s : State) (k u a b : Nat) : (s.finding k u a b).slots = s.slots := rfl
@[simp] theorem State.finding_reducing (s : State) (k u a b : Nat) : (s.finding k u a b).reducing = s.reducing := rfl
@[simp] theorem State.finding_ports (s : State) (k u a b : Nat) : (s.finding k u a b).ports = s.ports := rfl
@[simp] theorem State.finding_lnk (s : State) (k u a b : Nat) : (s.finding k u a b).lnk = s.lnk := rfl
@[simp] theorem State.finding_colls (s : State) (k u a b : Nat) : (s.finding k u a b).colls = s.colls := rfl
@[simp] theorem State.finding_pwr (s : State) (k u a b : Nat) : (s.finding k u a b).pwr = s.pwr := rfl
@[simp] theorem State.finding_doms (s : State) (k u a b : Nat) : (s.finding k u a b).doms = s.doms := rfl
@[simp] theorem State.finding_thm (s : State) (k u a b : Nat) : (s.finding k u a b).thm = s.thm := rfl
@[simp] theorem State.finding_err (s : State) (k u a b : Nat) : (s.finding k u a b).err = s.err := rfl
@[simp] theorem State.finding_dbg (s : State) (k u a b : Nat) : (s.finding k u a b).dbg = s.dbg := rfl
@[simp] theorem State.finding_boot (s : State) (k u a b : Nat) : (s.finding k u a b).boot = s.boot := rfl
@[simp] theorem State.finding_bond (s : State) (k u a b : Nat) : (s.finding k u a b).bond = s.bond := rfl
@[simp] theorem State.finding_oas (s : State) (k u a b : Nat) : (s.finding k u a b).oas = s.oas := rfl
@[simp] theorem State.finding_cxl (s : State) (k u a b : Nat) : (s.finding k u a b).cxl = s.cxl := rfl
@[simp] theorem State.finding_io (s : State) (k u a b : Nat) : (s.finding k u a b).io = s.io := rfl
@[simp] theorem State.finding_pins (s : State) (k u a b : Nat) : (s.finding k u a b).pins = s.pins := rfl

/-! ### Units read back -/

theorem State.ring_setRing (s : State) (r q : Nat) (v : RingSt) :
    (s.setRing r v).ring q = if q = r then v else s.ring q := Tbl.get_put _ _ _ _ _
@[simp] theorem State.ring_setRing_self (s : State) (r : Nat) (v) : (s.setRing r v).ring r = v := Tbl.get_put_self _ _ _ _
theorem State.core_setCore (s : State) (r q : Nat) (v : CoreSt) :
    (s.setCore r v).core q = if q = r then v else s.core q := Tbl.get_put _ _ _ _ _
@[simp] theorem State.core_setCore_self (s : State) (r : Nat) (v) : (s.setCore r v).core r = v := Tbl.get_put_self _ _ _ _
theorem State.vault_setVault (s : State) (r q : Nat) (v : VaultSt) :
    (s.setVault r v).vault q = if q = r then v else s.vault q := Tbl.get_put _ _ _ _ _
@[simp] theorem State.vault_setVault_self (s : State) (r : Nat) (v) : (s.setVault r v).vault r = v := Tbl.get_put_self _ _ _ _
theorem State.router_setRouter (s : State) (r q : Nat) (v : RouterSt) :
    (s.setRouter r v).router q = if q = r then v else s.router q := Tbl.get_put _ _ _ _ _
@[simp] theorem State.router_setRouter_self (s : State) (r : Nat) (v) : (s.setRouter r v).router r = v := Tbl.get_put_self _ _ _ _
theorem State.port_setPort (s : State) (r q : Nat) (v : PortSt) :
    (s.setPort r v).port q = if q = r then v else s.port q := Tbl.get_put _ _ _ _ _
@[simp] theorem State.port_setPort_self (s : State) (r : Nat) (v) : (s.setPort r v).port r = v := Tbl.get_put_self _ _ _ _
theorem State.dom_setDom (s : State) (r q : Nat) (v : DomSt) :
    (s.setDom r v).dom q = if q = r then v else s.dom q := Tbl.get_put _ _ _ _ _
@[simp] theorem State.dom_setDom_self (s : State) (r : Nat) (v) : (s.setDom r v).dom r = v := Tbl.get_put_self _ _ _ _
theorem State.syncObj_setSync (s : State) (r q : Nat) (v : SyncObj) :
    (s.setSync r v).syncObj q = if q = r then v else s.syncObj q := Tbl.get_put _ _ _ _ _
@[simp] theorem State.syncObj_setSync_self (s : State) (r : Nat) (v) : (s.setSync r v).syncObj r = v := Tbl.get_put_self _ _ _ _
theorem State.slowSet_setSlow (s : State) (r q : Nat) (v : SlowSt) :
    (s.setSlow r v).slowSet q = if q = r then v else s.slowSet q := Tbl.get_put _ _ _ _ _
@[simp] theorem State.slowSet_setSlow_self (s : State) (r : Nat) (v) : (s.setSlow r v).slowSet r = v := Tbl.get_put_self _ _ _ _
theorem State.sensor_setSensor (s : State) (r q : Nat) (v : SensorSt) :
    (s.setSensor r v).sensor q = if q = r then v else s.sensor q := Tbl.get_put _ _ _ _ _
@[simp] theorem State.sensor_setSensor_self (s : State) (r : Nat) (v) : (s.setSensor r v).sensor r = v := Tbl.get_put_self _ _ _ _
theorem State.island_setIsland (s : State) (r q : Nat) (v : IslandSt) :
    (s.setIsland r v).island q = if q = r then v else s.island q := Tbl.get_put _ _ _ _ _
@[simp] theorem State.island_setIsland_self (s : State) (r : Nat) (v) : (s.setIsland r v).island r = v := Tbl.get_put_self _ _ _ _
@[simp] theorem State.tier_setTier_self (s : State) (r t : Nat) (v : TierSt) : (s.setTier r t v).tier r t = v := Tbl.get_put_self _ _ _ _
@[simp] theorem State.engine_setEngine_self (s : State) (r t : Nat) (v : EngineSt) : (s.setEngine r t v).engine r t = v := Tbl.get_put_self _ _ _ _
theorem State.ring_modRing (s : State) (r q : Nat) (f : RingSt → RingSt) :
    (s.modRing r f).ring q = if q = r then f (s.ring r) else s.ring q := Tbl.get_put _ _ _ _ _
@[simp] theorem State.ring_modRing_self (s : State) (r : Nat) (f : RingSt → RingSt) : (s.modRing r f).ring r = f (s.ring r) := Tbl.get_put_self _ _ _ _
theorem State.core_modCore (s : State) (r q : Nat) (f : CoreSt → CoreSt) :
    (s.modCore r f).core q = if q = r then f (s.core r) else s.core q := Tbl.get_put _ _ _ _ _
@[simp] theorem State.core_modCore_self (s : State) (r : Nat) (f : CoreSt → CoreSt) : (s.modCore r f).core r = f (s.core r) := Tbl.get_put_self _ _ _ _
theorem State.vault_modVault (s : State) (r q : Nat) (f : VaultSt → VaultSt) :
    (s.modVault r f).vault q = if q = r then f (s.vault r) else s.vault q := Tbl.get_put _ _ _ _ _
@[simp] theorem State.vault_modVault_self (s : State) (r : Nat) (f : VaultSt → VaultSt) : (s.modVault r f).vault r = f (s.vault r) := Tbl.get_put_self _ _ _ _
theorem State.port_modPort (s : State) (r q : Nat) (f : PortSt → PortSt) :
    (s.modPort r f).port q = if q = r then f (s.port r) else s.port q := Tbl.get_put _ _ _ _ _
@[simp] theorem State.port_modPort_self (s : State) (r : Nat) (f : PortSt → PortSt) : (s.modPort r f).port r = f (s.port r) := Tbl.get_put_self _ _ _ _
theorem State.dom_modDom (s : State) (r q : Nat) (f : DomSt → DomSt) :
    (s.modDom r f).dom q = if q = r then f (s.dom r) else s.dom q := Tbl.get_put _ _ _ _ _
@[simp] theorem State.dom_modDom_self (s : State) (r : Nat) (f : DomSt → DomSt) : (s.modDom r f).dom r = f (s.dom r) := Tbl.get_put_self _ _ _ _
theorem State.ctrGet_ctrPut (s : State) (o q : Nat) (v : Word64) :
    (s.ctrPut o v).ctrGet q = if q = o then v else s.ctrGet q := Tbl.get_put _ _ _ _ _
theorem State.ctrGet_ctrAdd (s : State) (o q n : Nat) :
    (s.ctrAdd o n).ctrGet q = if q = o then s.ctrGet o + BitVec.ofNat 64 n else s.ctrGet q := Tbl.get_put _ _ _ _ _

end Sys2Proof.Machine
end

