-- ==== Sys2Proof/WellFormed.lean ====
section
/-! DEFINITION. Which commands are well formed: every operand that names a unit lies in the range the spec gives that
kind of unit. A value the spec itself judges (a register value, a message) is not judged here. -/

namespace Sys2Proof

/-- Core, slice, vault, column, island (R7, R9). -/
def okColumn (n : Nat) : Bool := n < Config.columns
/-- One of the 65,536 rings (R38). -/
def okRing (r : Nat) : Bool := r < 65536
/-- A slot of the largest ring (R39: 2^16 entries). -/
def okSlot (k : Nat) : Bool := k < 65536
/-- A clause named by its ring and slot. -/
def okClause (r k : Nat) : Bool := okRing r && okSlot k
/-- One of the 8 Dune tiers (R8). -/
def okTier (t : Nat) : Bool := t < 8
/-- One of the 128 engines of a vault (R179). -/
def okEngine (p : Nat) : Bool := p < 128
/-- One of the 12 Caravan ports (R275). -/
def okPort (p : Nat) : Bool := p < 12
/-- One of the 308 supply domains (R392). -/
def okDomain (d : Nat) : Bool := d < Config.domains
/-- One of the 1,152 sensors (R423). -/
def okSensor (k : Nat) : Bool := k < Config.sensors
/-- One of the 4,096 sync objects (R255). -/
def okObject (o : Nat) : Bool := o < 4096
/-- One of the 64 fields, 0 being ring 0's (R72). -/
def okField (f : Nat) : Bool := f < 64
/-- One of the 8 sub-channels of a vault (R161). -/
def okSub (s : Nat) : Bool := s < 8
/-- One of the four directions of a mesh link (R243). -/
def okDir (d : Nat) : Bool := d < 4
/-- A device physical address in use (R151). -/
def okDpa (a : Nat) : Bool := a < Config.dramBytes
/-- One of the 2,048 MSI-X vectors (R547). -/
def okVector (v : Nat) : Bool := v < 2048
/-- A DRAM row, bank and tier (R152). -/
def okRow (r : Nat) : Bool := r < 3072
/-- One of the 16 banks of a tier (R152). -/
def okBank (b : Nat) : Bool := b < 16

/-- A sweep of a lane of a crossing (R16, R23): its windows lie in one unit interval, taken round. -/
def okSweep (x : LaneSweep) : Bool :=
  okColumn x.column && Decidable.decide (x.crossing < 9)
    && Decidable.decide (x.lane < if x.crossing = 0 then 1056 else 554)
    && x.windows.all (fun w => Decidable.decide (w.1 < 64) && Decidable.decide (w.2 ≤ 64))

/-- A packet has the payload flits that LEN says, and a mask flit only with MCAST = 1 (R245). -/
def okPacket (p : Packet) : Bool :=
  p.payload.length == p.head.data.toNat / 2 ^ 37 % 2 ^ 10
    && (p.head.data.getLsbD 36 || p.mask == { data := 0, poison := false, crc := 0 })

/-- A reduction has up to 256 ranks, at islands, and blocks of up to 4,096 elements, eight to a flit (R245, R259). -/
def okReduction (r : Reduction) : Bool :=
  Decidable.decide (r.red < 4096) && !r.ranks.isEmpty && Decidable.decide (r.ranks.length ≤ 256) && r.ranks.all okColumn
    && !r.blocks.isEmpty && r.blocks.all (fun n => Decidable.decide (0 < n) && Decidable.decide (n ≤ 512))

/-- A command is well formed. -/
def Instr.wf : Instr → Bool
  | .snoopInvalidate _ _ => true
  | .doorbellReread _ r => r.slots.length == 16
  | .pollTimer => true
  | .fetchComplete r cs => okRing r && Decidable.decide (cs.length ≤ 16)
  | .clauseStart r x => okClause r x.slot
  | .shareFinish r k c a => okClause r k && okColumn c && a.adv.length == 2 && a.holdFeed.length == 2
      && a.holdDrain.length == 2 && a.passes.length == 2 && a.poisoned.length == 2
  | .clauseComplete r k => okClause r k
  | .msixHoldoffExpiry v => okVector v
  | .waitTimeout r => okRing r
  | .matrixProduct r k _ _ => okClause r k
  | .elementWiseChain r k _ => okClause r k
  | .nearBankMatrixVector r k _ => okClause r k
  | .attentionForward r k _ => okClause r k
  | .attentionBackward r k _ => okClause r k
  | .decodeAttention r k _ => okClause r k
  | .keyValueAppend r k _ => okClause r k
  | .kvEvictClose r k _ => okClause r k
  | .kvEvictTruncate r k _ => okClause r k
  | .deferredPageFree _ => true
  | .copy r k _ => okClause r k
  | .reduce r k _ => okClause r k
  | .allReduce r k _ => okClause r k
  | .reduceScatter r k _ => okClause r k
  | .allGather r k _ => okClause r k
  | .broadcast r k _ => okClause r k
  | .decide r k _ => okClause r k
  | .apply r k _ => okClause r k
  | .release r k => okClause r k
  | .waveRelease _ => true
  | .waveTimeout r k => okClause r k
  | .slowApplication _ _ => true
  | .digest r k _ => okClause r k
  | .audit r k _ => okClause r k
  | .scrub r k => okClause r k
  | .configure r k _ => okClause r k
  | .dissolve r k => okClause r k
  | .loadKernel r k _ => okClause r k
  | .loadKernelStandard r x => okClause r x.slot
  | .fence r k => okClause r k
  | .fenceSet r k => okClause r k
  | .resume k => okSlot k
  | .skip k => okSlot k
  | .flush k _ => okSlot k
  | .close k _ => okSlot k
  | .adminEnable _ => true
  | .adminDisable _ => true
  | .waitTimeoutWrite _ => true
  | .registerWrite o _ _ => Decidable.decide (o < 0x4000000)
  | .counterLowRead o => Decidable.decide (o < 0x4000000)
  | .hostMemRead _ => true
  | .hostMemWrite _ bs _ => bs.length == 64
  | .hostRequestPromoted v _ => okColumn v
  | .deferredWriteRetry v => okColumn v
  | .heldRequestTimeout => true
  | .imemUncorrectable c _ => okColumn c
  | .kernelStoreRefill => true
  | .parenAdmit a => okColumn a.core && a.held.all (· < 2)
  | .contextYield c _ sp => okColumn c && sp.all (fun b => Decidable.decide (b.array < 2) && b.words.length == 4096)
  | .playaRetuneDone c ss => okColumn c && ss.all okSweep
  | .burstReturn b => okColumn b.vault && okTier b.tier && okBank b.bank && okRow b.row
      && Decidable.decide (b.burst < 32) && b.requesters.all okColumn
  | .laneTest v s ls cs => okColumn v && okSub s && ls.all (· < 64) && cs.all (· < 3)
  | .spareTrained v s ds cs => okColumn v && okSub s && (ds ++ cs).all okSweep
  | .combineWindowExpiry v _ ls => okColumn v && ls.all okColumn
  | .refreshDue v t => okColumn v && okTier t
  | .refreshIssue v t ss => okColumn v && okTier t && ss.all okSweep
  | .refreshComplete v t => okColumn v && okTier t
  | .refreshRateRestore v t => okColumn v && okTier t
  | .pageRepair v r t b => okColumn v && okRow r && okTier t && okBank b
  | .pageRepairDone v => okColumn v
  | .engineStepBoundary v p => okColumn v && okEngine p
  | .stagingDone v => okColumn v
  | .mergeDone v => okColumn v
  | .engineFault v p => okColumn v && okEngine p
  | .meshPacket n p => okColumn n && okPacket p
  | .flitCrcFail n d _ => okColumn n && okDir d
  | .ctrlMsgPromotion n => okColumn n
  | .barrierArrive o n _ => okObject o && okColumn n
  | .flagContribute o n _ => okObject o && okColumn n
  | .timeTick n _ => okColumn n
  | .slotReserve r k x => okClause r k && okReduction x
  | .reductionFlitArrive n _ _ _ _ => okColumn n
  | .reduceTimeout r k _ => okClause r k
  | .bufferContribution f b => okField f && Decidable.decide (b < 16)
  | .fieldFault f n => okField f && okColumn n
  | .frameReceive p f => okPort p && f.fec.all (fun c => c.all (fun i => Decidable.decide (i < 544)))
  | .replayTimer p => okPort p
  | .laneFail p l => okPort p && Decidable.decide (l < 8)
  | .laneRetrainDone p => okPort p
  | .portDown p => okPort p
  | .ackStallTimeout p => okPort p
  | .resentFrameExpiry p => okPort p
  | .poolWaitExpiry p v => okPort p && Decidable.decide (v < 5)
  | .identReceive p => okPort p
  | .timeWave => true
  | .timeFrameReceive p _ => okPort p
  | .syncUp p => okPort p
  | .syncDown p => okPort p
  | .redUp p => okPort p
  | .redDown p => okPort p
  | .collectiveAbort p => okPort p
  | .powerEstimate x => x.stepEst.length == 17
  | .weightCalibration e m => e.length == 3 && m.length == 3
  | .pathResistanceCheck d _ _ _ => okDomain d
  | .sagSample _ => true
  | .sagStageLeave => true
  | .vinCoreCollapse => true
  | .dramRailLow _ _ => true
  | .phaseFail d p => okDomain d && Decidable.decide (p < 12)
  | .regulatorFail d => okDomain d
  | .bridgeComplete d => okDomain d
  | .domainDark d => okDomain d
  | .idlePowerOff c => okColumn c
  | .wakeRequest d => okDomain d
  | .wakeTokenGrant d => okDomain d
  | .wakeWaitEnd d _ => okDomain d
  | .rampStage d => okDomain d
  | .wakeComplete d => okDomain d
  | .droopDetect d x _ => okDomain d && okColumn x.island
  | .droopRecover n => okColumn n
  | .linkHoldEnd => true
  | .brakeAssert _ => true
  | .telemetryRecord _ => true
  | .regulatorSample d _ _ => okDomain d
  | .sensorConversion k _ => okSensor k
  | .emergencyClear k => okSensor k
  | .thermalEvaluation _ => true
  | .bondCheckpoint => true
  | .wadiResidualCheck _ => true
  | .traySensorPoll _ => true
  | .trayReadingStale _ => true
  | .lowFlowTimeout => true
  | .flowLost => true
  | .flowLossTimeout => true
  | .flowRestored => true
  | .thermalTrip _ _ _ => true
  | .cacheParityError _ => true
  | .cperRecord => true
  | .rawWrite _ => true
  | .rawRead _ => true
  | .stressStart _ => true
  | .stressCornerDone ps ss => ps.all okColumn && ss.all okColumn
  | .stressResult => true
  | .debugUnlockWrite _ => true
  | .unlockCheckDone _ => true
  | .debugLock => true
  | .unlockExpiry => true
  | .slotArm i _ => Decidable.decide (i < 16)
  | .slotCountExpiry i => Decidable.decide (i < 16)
  | .start => true
  | .coreRailsPresent => true
  | .dramRailsPresent => true
  | .startStepDone x => x.sweeps.all okSweep && x.regs.all okDomain
  | .deviceReady => true
  | .pendingDefectRecord => true
  | .computeResetRequest _ => true
  | .resetHoldSet _ => true
  | .resetHoldClear _ => true
  | .resetEntryDone => true
  | .resetLeaveDone _ x => x.regs.all okDomain
  | .fullResetRequest _ => true
  | .epochRequest _ => true
  | .epochDrainDone => true
  | .epochApply => true
  | .epochTimeout => true
  | .epochCommit => true
  | .rootWaveTimeout o => okObject o
  | .vauxLoss => true
  | .trayReset => true
  | .setEndpointId e => Decidable.decide (e < 256)
  | .mctpBridge p e d n _ => p.all okPort && n.all okPort && Decidable.decide (e < 256) && d.all (fun x => Decidable.decide (x < 65536))
  | .getSensorReading _ => true
  | .setNumericEffecterValue _ _ => true
  | .setStateEffecter _ _ => true
  | .setEventReceiver e => Decidable.decide (e < 256)
  | .platformEventMessage => true
  | .requestUpdate _ => true
  | .firmwareTransfer _ _ _ _ _ => true
  | .verifyComplete _ => true
  | .activateFirmware => true
  | .challenge n => n.length == 32
  | .getMeasurements _ n => n.length == 32
  | .getPqSignature => true
  | .keyExchange _ => true
  | .finish _ _ => true
  | .mgtComputeReset _ => true
  | .mgtFullReset => true
  | .mgtStressTest _ => true
  | .mgtRequestEpoch _ => true
  | .submitSignedObject _ => true
  | .removeDefectEntries _ => true
  | .clearBondWear _ => true
  | .replacePathBaseline _ => true
  | .restoreFactoryWeights _ => true
  | .readEventLog _ => true
  | .readOasisRecords _ _ => true
  | .readDbgNonce => true
  | .sealOpen => true
  | .sealClose => true
  | .oasisImageLoad _ _ _ _ => true
  | .oasisParameterChange _ => true
  | .oasisClockSet _ => true
  | .oasisSample _ => true
  | .intervalClose => true
  | .oasisCommit => true
  | .oasisPowerFail => true
  | .oasisStart => true
  | .oasisRecordReceive => true
  | .linkTrainingDone p _ => okPort p
  | .portRetrain p _ => okPort p
  | .refclkLoss => true
  | .vbypOutOfRange => true
  | .trayResetRelease => true
  | .dynamicAddressAssignment a => Decidable.decide (a < 128)
  | .sidePortMoveDone v _ => okColumn v
  | .meshLinkMoveDone n d _ => okColumn n && okDir d

end Sys2Proof
end

