-- ==== Sys2Proof/Tests/Slice0.lean ====
section
/-! SUPPORT. The model's own tests: small states built by helpers; a witness for the hypotheses of each statement, clause
by clause; ill-formed commands; and single steps whose results the spec's tables and worked examples give. -/

set_option Elab.async false
set_option linter.unusedVariables false

namespace Sys2Proof.Tests

open Sys2Proof Sys2Proof.Machine

/-! ### Helpers -/

/-- A started clause of zeros at producer count 0. -/
def clause0 : ClauseSt :=
  { index := 0, bits := 0, poison := false, phase := .started, sentence := 0, nouns := [], entry := 0, shares := [],
    unsent := [], worked := false, verdict := none, nonFinite := 0, saturated := 0, detail := 0, target := none,
    passes := none, begun := false, vaults := [], merged := [], seqs := [], order := 0, cores := [], startedAt := 0 }
/-- A clause of a verb, with MOD. -/
def clauseOf (verb md : Nat) : ClauseSt := { clause0 with bits := BitVec.ofNat 512 (verb + md * 2 ^ 192) }
/-- A running ring of 64 entries that holds clauses. -/
def ringOf (cs : List ClauseSt) : RingSt := { RingSt.reset with state := .running, before := .running, clauses := cs, fetched := 1, produced := 1, field := 1 }
/-- Ring r alone is open, with these clauses. -/
def withRing (r : Nat) (cs : List ClauseSt) : State := { State.reset with rings := [(r, ringOf cs)] }
/-- Ring r with one clause. -/
def withClause (r : Nat) (c : ClauseSt) : State := withRing r [c]
/-- A field of one core, core 0, that its owner alone steps. -/
def field0 : FieldSt :=
  { row := 0, col := 0, height := 1, width := 1, paren := false, owner := 1, quota := 16, syncBase := 0, syncCount := 0,
    stepFlag := 255, rbufs := List.replicate 16 { offset := 0, size := 1, pass := 0, queue := [] }, faulted := none,
    degraded := false, overQuota := false }
/-- One line of doorbells, all equal. -/
def lineOf (v : Word32) (p : Bool) : LineRead := { slots := List.replicate 16 v, poison := p }
def noHost : HostView := { cells := [], poison := [] }
/-- A share that did nothing. -/
def act0 : ShareActivity :=
  { adv := [0, 0], holdFeed := [0, 0], holdDrain := [0, 0], passes := [0, 0], vecIssue := 0, poisoned := [false, false], imemCe := 0,
    admitted := 0, nonFinite := 0, saturated := 0 }
/-- Ring 3 holds clauses, of field 1, with core 0's cluster awake and its core as given. -/
def shareState (c : CoreSt) (cs : List ClauseSt) : State :=
  { withRing 3 cs with
    fields := [(1, field0)], cores := [(0, c)], doms := [(0, { DomSt.reset with power := 2 }), (272, { DomSt.reset with power := 2 })] }

/-- A translation region of two units that maps DVA page 0 to host physical address 0. -/
def mapped : State :=
  { State.reset with
    applied := { Shadow.reset with ptSize := 2, seqEn := true, seqBase := 1, poolEn := true, poolFrames := 2 }
    dram := { Dram.reset with cells := [(0, 1), (2, 0x20), (0x200000, 9)] } }
/-- Four words of host memory at DVA 0. -/
def noun4 (n : Nat) : Noun :=
  { Noun.unused with place := 4, format := 12, rank := 1, valid := true, dims := [n, 1, 1, 1, 1, 1], length := 4 * n }
/-- Sequence 1 is open, of one layer and head, with room for one page, its directory in device memory;
host memory names it at DVA 0. -/
def kvState (cs : List ClauseSt) : State :=
  { mapped with
    dram := { Dram.reset with cells := [(0, 1), (2, 0x20), (0x200000, 9), (0x200008, 1), (0x20000B, 0x40), (0x2000023, 1), (0x2000024, 1), (0x200002A, 0x20), (0x2000031, 1), (0x2000032, 1)] }
    host := { Store.reset with cells := [(0, 1)] }, rings := [(3, ringOf cs)] }
/-- A bank-aligned weight noun of one work item, and the same with two engines. -/
def weights1 : Noun := { noun4 0 with place := 3, layout := 2, format := 3, rank := 2, dims := [128, 16, 1, 1, 1, 1], length := 2 ^ 21 }
def nbClause : ClauseSt := { clauseOf 3 0 with nouns := [(0, weights1)], worked := false, vaults := [0] }
def nbJob (stage : Nat) (batches : List Nat) : NbeJob :=
  { ring := 3, index := 0, field := 1, decode := false, batches := batches, tasks := [], pv := false, stage := stage, xs := List.replicate 128 1, xPoison := [], locked := [] }
/-- Vault 0 serves a near-bank clause; its engine 0 holds a token at a level. -/
def nbState (j : NbeJob) (c : ClauseSt) (lv : Nat) : State :=
  { withClause 3 c with
    vaults := [(0, { VaultSt.reset with jobs := [j] })], fields := [(1, field0)]
    engines := [(0, { EngineSt.reset with token := true, level := lv })] }
/-- A group of two members: this device is the root, and device 5 of rank 1 is its only input. -/
def group2 : Nat := 2 ^ 12 + 2 ^ 16 + 5 * 2 ^ 128 + 2 ^ 144
def coll2 : Coll :=
  { ring := 3, index := 0, verb := 0x31, group := 0, member := 0, elems := 4, outFmt := 0, bits := 0, entry := group2
    words := [0, 0, 0, 0], bad := [], seed := [], nextBlock := 1, slots := [0], leaving := [], credits := [], parts := [], downs := []
    done := [], gathered := [], tainted := false }
def frame0 : Frame :=
  { dst := 0, src := 5, vc := 4, kind := 0, resent := false, seq := 0, hops := 1, arg := 2 ^ 29, payload := List.replicate 16 0
    poison := [], fcrc := 0, ack := 0, ackV := false, nak := false, cred := [], tcrc := 0, fec := [] }
def collState (f : Frame) : State :=
  { withClause 3 (clauseOf 0x31 0) with colls := [coll2], lnk := { Lnk.reset with inbox := [(2, f)] } }
/-- Field 1 owns a step. -/
def stepState (c : ClauseSt) (x : StepSt) : State := { withClause 3 c with fields := [(1, field0)], steps := [(1, x)] }
def started2 (kind : Nat) (ph : StepPhase) (rel : Option (Bool × Bool)) : StepSt :=
  { StepSt.fresh with phase := ph, flag := 255, waveKind := kind, owing := some (3, 0), wave := { Wave.idle with own := some (false, 0), released := rel } }
/-- A descriptor of field 1 at DVA 0: its own step owner, one sync object. -/
def descHost : Store := { Store.reset with cells := [(2, 2), (8, 64), (9, 16), (12, 64)] }
/-- A toolchain image of one instruction at DVA 0. -/
def imageHost : Store :=
  { Store.reset with cells := [(0, 0x4D), (1, 0x49), (2, 0x4B), (3, 0x4A), (4, BitVec.ofNat 8 Config.jcmMajor), (8, 4),
      (12, 0x79), (13, 0xB8), (14, 0xF8), (15, 0x99), (64, 1)] }
/-- A decode of one task, in vault 0. -/
def decClause : ClauseSt :=
  { clauseOf 0x12 0 with nouns := [(0, { noun4 0 with dims := [128, 1, 1, 1, 1, 1] }), (1, noun4 1)], seqs := [(1, 0)], vaults := [0] }
def dec0 : DecodeSt :=
  { ring := 3, index := 0, tasks := [{ seq := 0, head := 0, block := 0, page := 128, count := 1, path := 0 }], scores := []
    partials := [], bad := [] }
def decJob (stage : Nat) (pv : Bool) : NbeJob := { nbJob stage [] with decode := true, tasks := [0], pv := pv }
def decState (j : NbeJob) : State := { nbState j decClause 0 with decodes := [dec0] }

/-- Core 0 runs shares in both contexts. -/
def core0 : CoreSt := { CoreSt.reset with imgMain := .standard, imgParen := .standard, run := 2, qMain := [(3, 0)], qParen := [(4, 0)] }
def coreState (c : CoreSt) : State :=
  { withClause 3 (clauseOf 1 0) with cores := [(0, c)], doms := [(0, { DomSt.reset with power := 2 }), (272, { DomSt.reset with power := 2 })] }
def vaultState (n : Nat) (v : VaultSt) : State := { State.reset with vaults := [(n, v)] }
def event0 (k : EventKind) (c : Option Nat) : Event :=
  { seq := 0, time := 0, kind := k, cper := c, unitClass := 0, unit := 0, field := none, step := 0, status := 0, debug := false
    suppressed := 0, data := [], memory := none }
/-- A ready device, its vectors up. -/
def readyState : State := { State.reset with glb := { Glb.reset with ready := true, vectorsUp := true, step := 6 } }
def burst0 : Burst :=
  { vault := 255, tier := 0, bank := 0, row := 0, burst := 0, isWrite := false, err := 0, stErr := 0, requesters := [0, 3], source := .scrubber }

/-- A packet of a header and clean payload flits of zeros. -/
def packetOf (head : Nat) (n : Nat) : Packet :=
  let f (d : BitVec 256) : Flit := { data := d, poison := false, crc := flitCrc d }
  { head := f (BitVec.ofNat 256 head), mask := f 0, payload := List.replicate n (f 0) }
/-- One flit of field 1 for router 5, from core port 0 of router 0. -/
def packet0 : Packet := packetOf (5 + 2 ^ 28 + 2 ^ 37) 1
/-- A frame whose FCRC holds and whose trailer's CRC does not. -/
def sealed (f : Frame) : Frame := { f with fcrc := frameCrc f, tcrc := frameTrailerCrc f + 1 }
def portState (p : Nat) (x : PortSt) : State := { State.reset with ports := [(p, x)] }
def upPort : PortSt := { PortSt.reset with state := 2 }
/-- A device of a chain: device 1, port 2 up to its parent, port 3 to a child, route to device 5 by port 4. -/
def chainDevice : State :=
  { State.reset with
    ports := [(2, upPort), (3, { upPort with syncOpen := true }), (4, upPort)]
    applied := { Shadow.reset with idValid := true, deviceId := 1, syncParent := 2, syncChildren := 8, route := [(0, 0x80000000 + 15 * 2 ^ 25 + 4 * 2 ^ 21 + 16 * 2 ^ 16 + 5)] } }
def syncFrame (kind arg : Nat) : Frame := { frame0 with vc := 1, kind := kind, arg := arg, payload := [] }
def epochState (st : BitVec 3) : State :=
  { chainDevice with
    staged := { chainDevice.applied with rctBase := 7 }, glb := { Glb.reset with step := 6, epState := st }
    epoch := { State.reset.epoch with active := true, snap := { chainDevice.applied with rctBase := 7 }, rows := [0] } }
def held0 (p : Packet) : Held := { packet := p, input := 4, lost := 0 }
/-- Field 1 is at core 5; every cluster fabric is on; router n holds packets. -/
def meshState (n : Nat) (q : List Held) : State :=
  { State.reset with
    fields := [(1, { field0 with col := 5 })], doms := (List.range 16).map (fun i => (256 + i, { DomSt.reset with power := 2 }))
    routers := [(n, { RouterSt.reset with queue := q })] }
/-- A reduction of two ranks at island 0 and one at island 1, seeded, of one block of two flits. -/
def red0 : Reduction := { red := 5, ranks := [0, 0, 1], seed := true, blocks := [2] }
def sum0 : SumFlit := { words := List.replicate 8 0, poison := false }
def slotState (l : List Slot) (q : List Reducing) : State :=
  { withClause 3 (clauseOf 0x30 0) with fields := [(1, { field0 with width := 2 })], slots := l, reducing := q }

def domState (l : Tbl DomSt) : State := { State.reset with doms := l }
def domOn : DomSt := { DomSt.reset with power := 2, bypass := false, vset := 800 }
def sensorState (k : Nat) (x : SensorSt) : State := { State.reset with thm := { Thm.reset with sensors := [(k, x)] } }
def glbState (g : Glb) : State := { State.reset with glb := g }
/-- A signed object of a kind, its checks passed, for a part of unit 0 with nonce 0. -/
def object (kind : Nat) (payload : List Byte) : SignedObject :=
  { magic := 0x5344534F, kind := kind, key := 3, unit := 0, nonce := 0, expiry := 86400000000000, payload := payload, edOk := true, mlOk := true }
def mgtState (m : Mgt) : State := { State.reset with mgt := { m with ready := true } }
def update0 : Update := { component := 3, received := true, verified := some true, version := 1, minor := 0, image := [], kinds := [] }
def oasisState (o : Oasis) : State := { State.reset with oas := { o with running := true } }
def record0 : OasisRecord :=
  { second := 1, eVin := 0, eVdd := 0, eVpp := 0, samples := 0, incomplete := false, sealOpen := false, range := false
    clockSet := false, param := false }
/-- An unlock object of 4,096 payload bytes at DPA 64, its check under way. -/
def unlockState : State :=
  { State.reset with
    dbg := { State.reset.dbg with result := 1, unlockDpa := 64 }
    dram := { Dram.reset with cells := [(64, 0x4F), (65, 0x53), (66, 0x44), (67, 0x53), (68, 3), (70, 3), (97, 0x10)] } }
/-- The last band's window holds one evaluation at 40 °C; all of its sensors read. -/
def wadiState : State :=
  { State.reset with thm := { Thm.reset with
      sensors := [(1147, { SensorSt.reset with recent := [320] }), (1151, { SensorSt.reset with recent := [320] })], window := [(15, ⟨2, 640, 640, 0⟩)] } }
def wadiBand : WadiBand :=
  { layer := 3, band := 3, tin := 320, tout := 320, qModel := 0,
    rk := (adjacentTiers 3).map (fun t => (t + 1, Config.tierResistance wadiState.calVersion 3 t)) }
/-- One failed crossing of a data lane. -/
def badSweep : LaneSweep := { column := 0, crossing := 0, lane := 7, windows := [(0, 23)] }

/-! ### Witnesses of hypotheses -/

theorem wit_StepRunsFrontCommand_1 : ∃ (c : Instr) (rest : List Instr) (s : State),
    s.pending = c :: rest :=
  ⟨.pollTimer, [.pollTimer], { State.reset with pending := [.pollTimer, .pollTimer] }, by decide +kernel⟩

theorem wit_StepRunsFrontCommand_2 : ∃ (s : State),
    s.pending = [] :=
  ⟨State.reset, by decide +kernel⟩

theorem wit_NoCommandStopsTheDevice_1 : ∃ (c : Instr) (s : State),
    hostAddressOk c = true ∧
    s.chkDpa < Config.dramBytes :=
  ⟨.hostMemRead (Config.dramBytes - 1), State.reset, by decide +kernel⟩

theorem wit_NoSuchAddressFaults_1 : ∃ (a : Nat) (s : State),
    Config.dramBytes ≤ a :=
  ⟨Config.dramBytes, State.reset, by decide +kernel⟩

theorem wit_NoSuchAddressFaults_2 : ∃ (a : Nat) (bs : List Byte) (p : Bool) (s : State),
    Config.dramBytes ≤ a :=
  ⟨Config.dramBytes, [1], false, State.reset, by decide +kernel⟩

theorem wit_NoSuchAddressFaults_3 : ∃ (ctrl : Word32) (s : State),
    ctrl.getLsbD 0 = true ∧
    bits ctrl.toNat 3 2 = 1 ∧
    s.err.chkBusy = false ∧
    Config.dramBytes ≤ s.chkDpa :=
  ⟨5, { State.reset with err := { Err.reset with chkAddr := BitVec.ofNat 32 (Config.dramBytes / 64) } }, by decide +kernel⟩

theorem wit_NoSuchAddressFaults_4 : ∃ (ctrl : Word32) (s : State),
    ctrl.getLsbD 0 = true ∧
    bits ctrl.toNat 3 2 = 2 ∧
    s.err.chkBusy = false ∧
    Config.dramBytes ≤ s.chkDpa :=
  ⟨9, { State.reset with err := { Err.reset with chkAddr := BitVec.ofNat 32 (Config.dramBytes / 64) } }, by decide +kernel⟩

theorem wit_EveryStepKeepsInvariant_1 : ∃ (s : State) (t : State),
    State.Inv s ∧
    step s = .next t :=
  ⟨State.reset, { State.reset with time := State.reset.time + 1 }, ⟨⟨by decide, by decide, by decide, by decide, by decide, by decide, by decide⟩, rfl⟩⟩

theorem wit_CommandsLeaveTheQueue_1 : ∃ (c : Instr) (s : State) (t : State),
    exec c s = .next t :=
  ⟨.pollTimer, { State.reset with pending := [.pollTimer] }, { State.reset with pending := [.pollTimer] }, rfl⟩

theorem wit_CommandsLeaveTheQueue_2 : ∃ (c : Instr) (rest : List Instr) (s : State) (t : State),
    s.pending = c :: rest ∧
    step s = .next t :=
  ⟨.pollTimer, [.pollTimer], { State.reset with pending := [.pollTimer, .pollTimer] }, { State.reset with pending := [.pollTimer] }, ⟨rfl, rfl⟩⟩

theorem wit_StoresReadBack_1 : ∃ (d : Dram) (a : Nat) (bs : List Byte) (p : Bool) (x : Nat),
    d.checks = [] :=
  ⟨Dram.reset, Config.dramBytes - 1, [7], true, 0, by decide +kernel⟩

theorem wit_DoorbellLines_1 : ∃ (line : Nat) (s : State),
    s.cmd.watch.any (fun w => w.line == line) = true :=
  ⟨0x40, { State.reset with cmd := { Cmd.reset with watch := [{ line := 0x40, shared := true, poisoned := 0 }, { line := 0x80, shared := true, poisoned := 1 }] } }, by decide +kernel⟩

theorem wit_DoorbellLines_2 : ∃ (line : Nat) (rd : LineRead) (s : State),
    s.cmd.watch.any (fun w => w.line == line) = true :=
  ⟨0, lineOf 5 false, { withRing 3 [] with cmd := { Cmd.reset with watch := [{ line := 0, shared := true, poisoned := 1 }] } }, by decide +kernel⟩

theorem wit_DoorbellLines_3 : ∃ (line : Nat) (rd : Option LineRead) (s : State),
    s.cmd.watch.any (fun w => w.line == line) = false :=
  ⟨0x40, none, { State.reset with cmd := { Cmd.reset with watch := [{ line := 0x80, shared := true, poisoned := 1 }] } }, by decide +kernel⟩

theorem wit_DoorbellLines_5 : ∃ (line : Nat) (rd : LineRead) (s : State),
    (line ∈ s.cmd.reading ∨ ∃ w ∈ s.cmd.watch, w.line = line ∧ w.shared = false) :=
  ⟨0, lineOf 66 false, { withRing 3 [] with cmd := { Cmd.reset with reading := [0], watch := [{ line := 0, shared := false, poisoned := 1 }] } }, by decide +kernel⟩

theorem wit_DoorbellLines_5b : ∃ (line : Nat) (rd : LineRead) (s : State),
    (line ∈ s.cmd.reading ∨ ∃ w ∈ s.cmd.watch, w.line = line ∧ w.shared = false) :=
  ⟨0x40, lineOf 0 true, { State.reset with cmd := { Cmd.reset with watch := [{ line := 0x40, shared := false, poisoned := 1 }] } }, by decide +kernel⟩

theorem wit_DoorbellLines_6 : ∃ (line : Nat) (rd : LineRead) (w : WatchLine) (s : State),
    line ∈ s.cmd.reading ∧
    rd.poison = true ∧
    (s.cmd.watch ++ s.cmd.polled).find? (fun x => x.line == line) = some w ∧
    w.poisoned = 2 :=
  ⟨0, lineOf 0 true, { line := 0, shared := false, poisoned := 2 }, { withRing 3 [] with cmd := { Cmd.reset with reading := [0], watch := [{ line := 0, shared := false, poisoned := 2 }] } }, by decide +kernel⟩

theorem wit_DoorbellLines_7 : ∃ (line : Nat) (rd : LineRead) (s : State),
    line ∈ s.cmd.reading ∧
    rd.poison = true ∧
    (∀ w ∈ s.cmd.watch ++ s.cmd.polled, w.line = line → w.poisoned < 2) :=
  ⟨0x40, lineOf 0 true, { State.reset with cmd := { Cmd.reset with reading := [0x40], watch := [{ line := 0x40, shared := false, poisoned := 1 }] } }, by decide +kernel⟩

theorem wit_DoorbellLines_8 : ∃ (line : Nat) (r : Nat) (rd : LineRead) (s : State),
    line ∈ s.cmd.reading ∧
    rd.poison = false ∧
    rd.slots.length = 16 ∧
    s.ringsOnLine line = [r] ∧
    (s.ring r).isStopped = false ∧
    (s.ring r).producerOk (rd.slots.getD (s.ring r).ctx.dbSlot 0).toNat = true :=
  ⟨0, 3, lineOf 64 false, { withRing 3 [] with cmd := { Cmd.reset with reading := [0] }, rings := [(3, { ringOf [] with fetched := 0, produced := 0 })] }, by decide +kernel⟩

theorem wit_FetchJoinsRing_1 : ∃ (r : Nat) (cs : List FetchedClause) (s : State),
    (s.ring r).mayFetch = true ∧
    cs ≠ [] ∧
    cs.length ≤ (s.ring r).fetchRoom :=
  ⟨3, [{ bits := 5, poison := false }], { State.reset with rings := [(3, { ringOf [] with fetched := 4294967295, produced := 0 })] }, by decide +kernel⟩

theorem wit_ClausesStartAndSharesFinish_1 : ∃ (r : Nat) (k : Nat) (h : HostView) (c : ClauseSt) (s : State) (u : State),
    (s.ring r).clauseAt k = some c ∧
    u = (if isKvVerb (clVerb c.bits) then s.seeHost h else s) ∧
    u.mayStart r c = true ∧
    u.checkStages r (u.ring r).field c.bits = none :=
  ⟨3, 0, noHost, { clauseOf 1 0 with phase := .issued }, shareState CoreSt.reset [{ clauseOf 1 0 with phase := .issued }], shareState CoreSt.reset [{ clauseOf 1 0 with phase := .issued }], ⟨by decide +kernel, (if_neg (by decide +kernel)).symm, by decide +kernel, by decide +kernel⟩⟩

theorem wit_ClausesStartAndSharesFinish_2 : ∃ (r : Nat) (k : Nat) (h : HostView) (c : ClauseSt) (f : Failure) (s : State) (u : State),
    (s.ring r).clauseAt k = some c ∧
    u = (if isKvVerb (clVerb c.bits) then s.seeHost h else s) ∧
    u.mayStart r c = true ∧
    u.checkStages r (u.ring r).field c.bits = some f :=
  ⟨3, 0, noHost, { clauseOf 1 0 with phase := .issued }, failNone stFieldDegraded 0, shareState { CoreSt.reset with mappedOut := true, imgMain := .loaded [] } [{ clauseOf 1 0 with phase := .issued }], shareState { CoreSt.reset with mappedOut := true, imgMain := .loaded [] } [{ clauseOf 1 0 with phase := .issued }], ⟨by decide +kernel, (if_neg (by decide +kernel)).symm, by decide +kernel, by decide +kernel⟩⟩

theorem wit_ClausesStartAndSharesFinish_3 : ∃ (r : Nat) (k : Nat) (n : Nat) (other : Nat) (act : ShareActivity) (c : ClauseSt) (s : State),
    (s.ring r).clauseAt k = some c ∧
    c.phase = .started ∧
    c.worked = true ∧
    n ∈ c.shares ∧
    other ∈ c.shares ∧
    other ≠ n ∧
    s.runsShare n (s.ring r).ctx.paren r c.index = true ∧
    s.controlHeld n = false ∧
    s.imemSlot n (s.ring r).ctx.paren = none :=
  ⟨3, 0, 0, 1, { act0 with adv := [5, 6], passes := [1, 2], vecIssue := 4 }, { clauseOf 1 0 with worked := true, shares := [0, 1] }, shareState { CoreSt.reset with imgMain := .standard, run := 1, qMain := [(3, 0)] } [{ clauseOf 1 0 with worked := true, shares := [0, 1] }], by decide +kernel⟩

theorem wit_ClausesStartAndSharesFinish_4 : ∃ (r : Nat) (k : Nat) (n : Nat) (act : ShareActivity) (c : ClauseSt) (s : State),
    (s.ring r).clauseAt k = some c ∧
    c.phase = .started ∧
    c.worked = true ∧
    c.shares = [n] ∧
    c.vaults = [] ∧
    c.verdict = none ∧
    (∀ e ∈ s.rings, ∀ x ∈ e.2.clauses, x.unsent = []) ∧
    s.runsShare n (s.ring r).ctx.paren r c.index = true ∧
    s.controlHeld n = false ∧
    s.imemSlot n (s.ring r).ctx.paren = none :=
  ⟨3, 0, 0, { act0 with adv := [5, 6], passes := [1, 2], vecIssue := 4 }, { clauseOf 1 0 with worked := true, shares := [0], nonFinite := 2, saturated := 3 }, shareState { CoreSt.reset with imgMain := .standard, run := 1, qMain := [(3, 0)] } [{ clauseOf 1 0 with worked := true, shares := [0], nonFinite := 2, saturated := 3 }], by decide +kernel⟩

theorem wit_DoneClauseCompletes_1 : ∃ (r : Nat) (k : Nat) (c : ClauseSt) (s : State),
    (s.ring r).clauseAt k = some c ∧
    c.phase = .done ∧
    (s.ring r).inOrder c = true ∧
    (s.ring r).closing = false ∧
    (s.ring r).flushing = false :=
  ⟨3, 0, { clauseOf 0x70 0 with phase := .done }, withClause 3 { clauseOf 0x70 0 with phase := .done }, by decide +kernel⟩

theorem wit_DoneClauseCompletes_1b : ∃ (r : Nat) (k : Nat) (c : ClauseSt) (s : State),
    (s.ring r).clauseAt k = some c ∧
    c.phase = .done ∧
    (s.ring r).inOrder c = true ∧
    (s.ring r).closing = false ∧
    (s.ring r).flushing = false :=
  ⟨3, 0, { clauseOf 0x470 0 with phase := .done }, withClause 3 { clauseOf 0x470 0 with phase := .done }, by decide +kernel⟩

theorem wit_HoldOffsAndWaitTimeouts_1 : ∃ (v : Nat) (s : State),
    Tbl.find s.cmd.hold v = some false :=
  ⟨2047, { State.reset with cmd := { Cmd.reset with hold := [(2047, false)] } }, by decide +kernel⟩

theorem wit_HoldOffsAndWaitTimeouts_2 : ∃ (v : Nat) (s : State),
    Tbl.find s.cmd.hold v = some true ∧
    s.msixMasked v = false :=
  ⟨0, { State.reset with cmd := { Cmd.reset with hold := [(0, true)], msixTable := [(0, 0)] } }, by decide +kernel⟩

theorem wit_HoldOffsAndWaitTimeouts_3 : ∃ (r : Nat) (c : ClauseSt) (s : State),
    (s.ring r).state = .running ∧
    (s.ring r).waitFrom.isSome = true ∧
    s.cmd.waitTimeout ≠ 0 ∧
    s.halted = false ∧
    (s.ring r).head = some c :=
  ⟨3, { clause0 with phase := .posted }, { State.reset with rings := [(3, { ringOf [{ clause0 with phase := .posted }] with waitFrom := some 0 })] }, by decide +kernel⟩

theorem wit_HoldOffsAndWaitTimeouts_4 : ∃ (v : Word32) (s : State),
    (∀ r ∈ Tbl.keys s.rings, (s.ring r).waitFrom = none) :=
  ⟨0xFFFF, withRing 3 [], by decide +kernel⟩

theorem wit_FailureStopsTheRing_1 : ∃ (r : Nat) (index : Nat) (c : ClauseSt) (f : Failure) (s : State),
    (s.ring r).clauseOf index = some c ∧
    (s.ring r).isStopped = false ∧
    (s.ring r).closing = false ∧
    (s.ring r).flushing = false :=
  ⟨3, 0, clause0, { status := 0x201, operand := 7, detail := 0 }, withClause 3 clause0, by decide +kernel⟩

theorem wit_FencesAndRingControl_1 : ∃ (r : Nat) (k : Nat) (c : ClauseSt) (s : State),
    s.startedFence r k 0 = some c ∧
    c.shares = [] ∧
    c.unsent = [] ∧
    c.vaults = [] ∧
    c.verdict = none :=
  ⟨3, 0, clauseOf 0x70 0, withClause 3 (clauseOf 0x70 0), by decide +kernel⟩

theorem wit_FencesAndRingControl_2 : ∃ (r : Nat) (k : Nat) (c : ClauseSt) (s : State),
    s.startedFence r k 1 = some c ∧
    c.shares = [] ∧
    c.unsent = [] ∧
    c.vaults = [] ∧
    c.verdict = none :=
  ⟨3, 0, clauseOf 0x70 (1 + 5 * 16 + 9 * 2 ^ 64), withClause 3 (clauseOf 0x70 (1 + 5 * 16 + 9 * 2 ^ 64)), by decide +kernel⟩

theorem wit_FencesAndRingControl_3 : ∃ (k : Nat) (c : ClauseSt) (s : State),
    s.startedFence 0 k 2 = some c ∧
    (s.ring (fenceTarget c.bits)).isStopped = true ∧
    (s.ring (fenceTarget c.bits)).producerOk (s.ring (fenceTarget c.bits)).seen = true :=
  ⟨0, clauseOf 0x70 (2 + 5 * 16), { State.reset with rings := [(0, ringOf [clauseOf 0x70 (2 + 5 * 16)]), (5, { ringOf [{ clause0 with phase := .posted }] with state := .stopped, seen := 65 })] }, by decide +kernel⟩

theorem wit_FencesAndRingControl_4 : ∃ (k : Nat) (c : ClauseSt) (s : State),
    s.startedFence 0 k 2 = some c ∧
    (s.ring (fenceTarget c.bits)).isStopped = true ∧
    (s.ring (fenceTarget c.bits)).producerOk (s.ring (fenceTarget c.bits)).seen = false :=
  ⟨0, clauseOf 0x70 (2 + 5 * 16), { State.reset with rings := [(0, ringOf [clauseOf 0x70 (2 + 5 * 16)]), (5, { ringOf [{ clause0 with phase := .posted }] with state := .stopped, seen := 66 })] }, by decide +kernel⟩

theorem wit_FencesAndRingControl_5 : ∃ (k : Nat) (c : ClauseSt) (s : State),
    s.startedFence 0 k 3 = some c ∧
    (s.ring (fenceTarget c.bits)).isStopped = true ∧
    (s.ring (fenceTarget c.bits)).producerOk (s.ring (fenceTarget c.bits)).seen = true ∧
    (s.ring (fenceTarget c.bits)).skipped = false :=
  ⟨0, clauseOf 0x70 (3 + 5 * 16), { State.reset with rings := [(0, ringOf [clauseOf 0x70 (3 + 5 * 16)]), (5, { ringOf [{ clause0 with phase := .posted }] with state := .stopped, seen := 1 })] }, by decide +kernel⟩

theorem wit_FencesAndRingControl_6 : ∃ (k : Nat) (c : ClauseSt) (s : State),
    s.startedFence 0 k 3 = some c ∧
    (s.ring (fenceTarget c.bits)).isStopped = true ∧
    (s.ring (fenceTarget c.bits)).producerOk (s.ring (fenceTarget c.bits)).seen = true ∧
    (s.ring (fenceTarget c.bits)).skipped = true ∧
    (s.ring (fenceTarget c.bits)).seen ≠ (s.ring (fenceTarget c.bits)).fetched :=
  ⟨0, clauseOf 0x70 (3 + 5 * 16), { State.reset with rings := [(0, ringOf [clauseOf 0x70 (3 + 5 * 16)]), (5, { ringOf [] with state := .stopped, skipped := true, seen := 2 })] }, by decide +kernel⟩

theorem wit_FencesAndRingControl_7 : ∃ (k : Nat) (h : HostView) (c : ClauseSt) (s : State),
    (s.seeHost h).startedFence 0 k 4 = some c ∧
    (s.ring (fenceTarget c.bits)).isStopped = true :=
  ⟨0, noHost, clauseOf 0x70 (4 + 5 * 16), { State.reset with rings := [(0, ringOf [clauseOf 0x70 (4 + 5 * 16)]), (5, { ringOf [{ clause0 with phase := .posted }] with state := .stopped, seen := 1 })] }, by decide +kernel⟩

theorem wit_FencesAndRingControl_8 : ∃ (k : Nat) (h : HostView) (c : ClauseSt) (s : State),
    (s.seeHost h).startedFence 0 k 5 = some c ∧
    fenceTarget c.bits ≠ 0 ∧
    (s.ring (fenceTarget c.bits)).isOpen = true ∧
    (s.ring (fenceTarget c.bits)).closing = false ∧
    (s.ring (fenceTarget c.bits)).isStopped = false ∧
    (s.ring (fenceTarget c.bits)).clauses.any ClauseSt.outstanding = false :=
  ⟨0, noHost, clauseOf 0x70 (5 + 5 * 16), { State.reset with rings := [(0, ringOf [clauseOf 0x70 (5 + 5 * 16)]), (5, { ringOf [] with state := .idle })] }, by decide +kernel⟩

theorem wit_RingZeroOpensAndCloses_1 : ∃ (h : HostView) (s : State),
    s.cmd.adminEnable = false ∧
    (s.ring 0).state = .closed ∧
    s.applied.rctBase ≠ 0 ∧
    (s.seeHost h).ringEntryPoison 0 = false ∧
    ringEntryBad ((s.seeHost h).ringEntry 0) = false :=
  ⟨noHost, { State.reset with applied := { Shadow.reset with rctBase := 1 } }, by decide +kernel⟩

theorem wit_RingZeroOpensAndCloses_2 : ∃ (h : HostView) (s : State),
    s.cmd.adminEnable = false ∧
    (s.ring 0).state = .closed ∧
    s.applied.rctBase = 0 :=
  ⟨noHost, State.reset, by decide +kernel⟩

theorem wit_RingZeroOpensAndCloses_3 : ∃ (h : HostView) (s : State),
    (s.ring 0).isOpen = true ∧
    (s.ring 0).isStopped = false ∧
    (s.ring 0).clauses.any ClauseSt.outstanding = false :=
  ⟨noHost, { State.reset with rings := [(0, { ringOf [] with state := .idle })], cmd := { Cmd.reset with adminEnable := true, r0State := 1 } }, by decide +kernel⟩

theorem wit_CoreVerbsRun_1 : ∃ (r : Nat) (k : Nat) (h : HostView) (un : List Nat) (c : ClauseSt) (s : State),
    s.startedClause r k verbMatrix = some c ∧
    s.stageLoaded r = false ∧
    mxOutRbuf c.bits = false :=
  ⟨3, 0, noHost, [], clauseOf 1 0, withClause 3 (clauseOf 1 0), by decide +kernel⟩

theorem wit_CoreVerbsRun_2 : ∃ (r : Nat) (k : Nat) (h : HostView) (c : ClauseSt) (s : State),
    s.startedClause r k verbChain = some c ∧
    s.stageLoaded r = false :=
  ⟨3, 0, noHost, clauseOf 2 0, withClause 3 (clauseOf 2 0), by decide +kernel⟩

theorem wit_CoreVerbsRun_3 : ∃ (r : Nat) (k : Nat) (h : HostView) (c : ClauseSt) (s : State),
    s.startedClause r k verbAttnFwd = some c ∧
    s.stageLoaded r = false :=
  ⟨3, 0, noHost, clauseOf 0x10 0, withClause 3 (clauseOf 0x10 0), by decide +kernel⟩

theorem wit_CoreVerbsRun_4 : ∃ (r : Nat) (k : Nat) (h : HostView) (c : ClauseSt) (s : State),
    s.startedClause r k verbAttnBwd = some c ∧
    s.stageLoaded r = false :=
  ⟨3, 0, noHost, clauseOf 0x11 0, withClause 3 (clauseOf 0x11 0), by decide +kernel⟩

theorem wit_CoreVerbsRun_5 : ∃ (r : Nat) (k : Nat) (h : HostView) (c : ClauseSt) (s : State),
    s.startedClause r k verbCopy = some c ∧
    s.stageLoaded r = false ∧
    c.verdict = none :=
  ⟨3, 0, noHost, clauseOf 0x20 0, withClause 3 (clauseOf 0x20 0), by decide +kernel⟩

theorem wit_CoreVerbsRun_6 : ∃ (r : Nat) (k : Nat) (h : HostView) (c : ClauseSt) (s : State),
    s.startedClause r k verbCopy = some c ∧
    s.stageLoaded r = true :=
  ⟨3, 0, noHost, clauseOf 0x20 0, { withClause 3 (clauseOf 0x20 0) with fields := [(1, field0)], cores := [(0, { CoreSt.reset with imgMain := .loaded [] })] }, by decide +kernel⟩

theorem wit_ReductionBuffersTakePassesInOrder_1 : ∃ (r : Nat) (k : Nat) (h : HostView) (un : List Nat) (c : ClauseSt) (f : FieldSt) (s : State),
    s.startedClause r k verbMatrix = some c ∧
    s.stageLoaded r = false ∧
    mxOutRbuf c.bits = true ∧
    s.fieldOf (s.ring r).field = some f ∧
    s.hasContribution (s.ring r).field (mxRbuf c.bits) r c.index = false ∧
    mxRbuf c.bits < f.rbufs.length :=
  ⟨3, 0, noHost, [], clauseOf 1 (2 ^ 49 + 15 * 2 ^ 50), field0, { withClause 3 (clauseOf 1 (2 ^ 49 + 15 * 2 ^ 50)) with fields := [(1, field0)] }, by decide +kernel⟩

theorem wit_ReductionBuffersTakePassesInOrder_2 : ∃ (fid : Nat) (b : Nat) (f : FieldSt) (x : Contribution) (s : State),
    s.fieldOf fid = some f ∧
    (f.rbuf b).ready = some x ∧
    x.pass = (f.rbuf b).pass ∧
    x.pass ≤ 63 ∧
    ((s.ring x.ring).clauseOf x.index).all (fun c => c.verdict.isNone) = true :=
  ⟨1, 0, { field0 with rbufs := [{ offset := 0, size := 1, pass := 63, queue := [{ ring := 3, index := 0, pass := 63, words := [1], poison := [], absent := [] }] }] }, { ring := 3, index := 0, pass := 63, words := [1], poison := [], absent := [] }, { withClause 3 { clauseOf 1 0 with worked := true } with fields := [(1, { field0 with rbufs := [{ offset := 0, size := 1, pass := 63, queue := [{ ring := 3, index := 0, pass := 63, words := [1], poison := [], absent := [] }] }] })] }, by decide +kernel⟩

theorem wit_ReductionBuffersTakePassesInOrder_3 : ∃ (fid : Nat) (b : Nat) (f : FieldSt) (x : Contribution) (s : State),
    s.fieldOf fid = some f ∧
    (f.rbuf b).ready = some x ∧
    (x.pass ≠ (f.rbuf b).pass ∨ 63 < x.pass) :=
  ⟨1, 0, { field0 with rbufs := [{ offset := 0, size := 1, pass := 2, queue := [{ ring := 3, index := 0, pass := 1, words := [1], poison := [], absent := [] }] }] }, { ring := 3, index := 0, pass := 1, words := [1], poison := [], absent := [] }, { withClause 3 (clauseOf 1 0) with fields := [(1, { field0 with rbufs := [{ offset := 0, size := 1, pass := 2, queue := [{ ring := 3, index := 0, pass := 1, words := [1], poison := [], absent := [] }] }] })] }, by decide +kernel⟩

theorem wit_NounStoreStaysInItsFlit_1 : ∃ (place : Nat) (dva : Nat) (a : Nat) (ws : List WByte) (s : State),
    s.dram.checks = [] ∧
    s.caches = [] ∧
    s.dbg.slots = [] ∧
    0 < ws.length ∧
    dva % 32 + ws.length ≤ 32 ∧
    s.translate place dva = some (.dram a) ∧
    (s.vault (a / Config.vaultBytes)).sideDead = false :=
  ⟨1, 31, 31, [none], { mapped with dram := { Dram.reset with cells := [(0, 1), (2, 0x20), (0x200000, 3)] } }, by decide +kernel⟩

theorem wit_NearBankWorkProceeds_1 : ∃ (r : Nat) (k : Nat) (h : HostView) (c : ClauseSt) (s : State),
    s.startedClause r k verbNearBank = some c ∧
    s.engineTurn r c = true ∧
    ((s.seeHost h).mvVaults (c.noun 0) (mvPlan (c.noun 0))).any s.vaultEvacuating = false ∧
    (s.seeHost h).mvVaults (c.noun 0) (mvPlan (c.noun 0)) ≠ [] :=
  ⟨3, 0, noHost, { nbClause with vaults := [] }, { withClause 3 { nbClause with vaults := [] } with fields := [(1, field0)] }, by decide +kernel⟩

theorem wit_NearBankWorkProceeds_2 : ∃ (v : Nat) (j : NbeJob) (w : Work) (s : State),
    (s.vault v).activeJob = some j ∧
    j.stage = 1 ∧
    s.workOf j = some w ∧
    (j.decode = true → j.pv = true → ∀ d, s.decodeOf j.ring j.index = some d → d.scoresIn j.tasks = true) :=
  ⟨0, nbJob 1 [0], Work.mv nbClause 0, nbState (nbJob 1 [0]) nbClause 0, by decide +kernel⟩

theorem wit_NearBankWorkProceeds_2b : ∃ (v : Nat) (j : NbeJob) (w : Work) (s : State),
    (s.vault v).activeJob = some j ∧
    j.stage = 1 ∧
    s.workOf j = some w ∧
    (j.decode = true → j.pv = true → ∀ d, s.decodeOf j.ring j.index = some d → d.scoresIn j.tasks = true) :=
  ⟨0, decJob 1 false, Work.decode decClause dec0, decState (decJob 1 false), by decide +kernel⟩

theorem wit_NearBankWorkProceeds_2c : ∃ (v : Nat) (j : NbeJob) (w : Work) (s : State),
    (s.vault v).activeJob = some j ∧
    j.stage = 1 ∧
    s.workOf j = some w ∧
    (j.decode = true → j.pv = true → ∀ d, s.decodeOf j.ring j.index = some d → d.scoresIn j.tasks = true) :=
  ⟨0, decJob 1 true, Work.decode decClause { dec0 with scores := [(0, [0])] }, { decState (decJob 1 true) with decodes := [{ dec0 with scores := [(0, [0])] }] }, by decide +kernel⟩

theorem wit_NearBankWorkProceeds_3 : ∃ (v : Nat) (b : Nat) (b2 : Nat) (more : List Nat) (j : NbeJob) (c : ClauseSt) (s : State),
    (s.vault v).activeJob = some j ∧
    j.stage = 3 ∧
    j.decode = false ∧
    s.jobClause j = some c ∧
    j.batches = b :: b2 :: more :=
  ⟨0, 0, 1, [], nbJob 3 [0, 1], nbClause, nbState (nbJob 3 [0, 1]) nbClause 0, by decide +kernel⟩

theorem wit_NearBankWorkProceeds_4 : ∃ (v : Nat) (b : Nat) (j : NbeJob) (c : ClauseSt) (s : State),
    (s.vault v).activeJob = some j ∧
    j.stage = 3 ∧
    j.decode = false ∧
    s.jobClause j = some c ∧
    j.batches = [b] ∧
    delSet v c.vaults ≠ [] :=
  ⟨0, 0, nbJob 3 [0], { nbClause with vaults := [0, 255] }, nbState (nbJob 3 [0]) { nbClause with vaults := [0, 255] } 0, by decide +kernel⟩

theorem wit_NearBankWorkProceeds_5 : ∃ (v : Nat) (b : Nat) (j : NbeJob) (c : ClauseSt) (s : State),
    (s.vault v).activeJob = some j ∧
    j.stage = 3 ∧
    j.decode = false ∧
    s.jobClause j = some c ∧
    j.batches = [b] ∧
    delSet v c.vaults = [] ∧
    c.phase = .started ∧
    c.worked = true ∧
    c.shares = [] ∧
    c.unsent = [] :=
  ⟨0, 0, nbJob 3 [0], { nbClause with worked := true }, nbState (nbJob 3 [0]) { nbClause with worked := true } 0, by decide +kernel⟩

theorem wit_NearBankWorkProceeds_6 : ∃ (v : Nat) (j : NbeJob) (c : ClauseSt) (d : DecodeSt) (s : State),
    (s.vault v).activeJob = some j ∧
    j.stage = 3 ∧
    s.workOf j = some (.decode c d) ∧
    j.decode = true ∧
    j.pv = false :=
  ⟨0, decJob 3 false, decClause, dec0, decState (decJob 3 false), by decide +kernel⟩

theorem wit_NearBankEnginesStepAndFault_1 : ∃ (v : Nat) (p : Nat) (j : NbeJob) (w : Work) (s : State),
    (s.engine v p).token = true ∧
    (s.engine v p).orphan = false ∧
    s.engineBusy v p = true ∧
    s.bankRepairing v p = false ∧
    (s.vault v).activeJob = some j ∧
    s.workOf j = some w ∧
    (s.vault v).waiting = [] ∧
    s.dram.checks = [] :=
  ⟨0, 0, nbJob 2 [0], Work.mv nbClause 0, nbState (nbJob 2 [0]) nbClause 1, by decide +kernel⟩

theorem wit_NearBankEnginesStepAndFault_1b : ∃ (v : Nat) (p : Nat) (j : NbeJob) (w : Work) (s : State),
    (s.engine v p).token = true ∧
    (s.engine v p).orphan = false ∧
    s.engineBusy v p = true ∧
    s.bankRepairing v p = false ∧
    (s.vault v).activeJob = some j ∧
    s.workOf j = some w ∧
    (s.vault v).waiting = [] ∧
    s.dram.checks = [] :=
  ⟨0, 0, decJob 2 false, Work.decode decClause dec0, decState (decJob 2 false), by decide +kernel⟩

theorem wit_NearBankEnginesStepAndFault_2 : ∃ (v : Nat) (p : Nat) (b : Nat) (bs : List Nat) (j : NbeJob) (c : ClauseSt) (s : State),
    (s.engine v p).token = true ∧
    (s.engine v p).orphan = false ∧
    s.engineBusy v p = true ∧
    s.bankRepairing v p = false ∧
    (s.vault v).activeJob = some j ∧
    j.decode = false ∧
    s.jobClause j = some c ∧
    j.batches = b :: bs ∧
    (s.vault v).waiting = [] ∧
    s.dram.checks = [] :=
  ⟨0, 0, 0, [], nbJob 2 [0], nbClause, nbState (nbJob 2 [0]) nbClause 2, by decide +kernel⟩

theorem wit_NearBankEnginesStepAndFault_3 : ∃ (v : Nat) (p : Nat) (key : Nat) (j : NbeJob) (w : Work) (s : State),
    (s.engine v p).token = true ∧
    (s.engine v p).orphan = false ∧
    s.engineBusy v p = true ∧
    s.bankRepairing v p = false ∧
    (s.vault v).activeJob = some j ∧
    s.workOf j = some w ∧
    s.spanRepair (s.stepSpan v p j w).1 (s.stepSpan v p j w).2 = some key ∧
    s.repairFree key = true :=
  ⟨0, 0, 128, nbJob 2 [0], Work.mv nbClause 0, { nbState (nbJob 2 [0]) nbClause 1 with applied := mapped.applied, dram := { Dram.reset with cells := [(0, 1), (2, 0x20), (0x200000, 7)], checks := [(65536, 3)] } }, by decide +kernel⟩

theorem wit_NearBankEnginesStepAndFault_4 : ∃ (v : Nat) (p : Nat) (s : State),
    (s.engine v p).token = true ∧
    (s.engine v p).orphan = true ∧
    (s.vault v).waiting = [] ∧
    s.engineBusy v p = false :=
  ⟨0, 0, { State.reset with engines := [(0, { EngineSt.reset with token := true, orphan := true })] }, by decide +kernel⟩

theorem wit_NearBankEnginesStepAndFault_5 : ∃ (v : Nat) (p : Nat) (s : State),
    s.engineBusy v p = false ∧
    (s.vault v).waiting = [] :=
  ⟨255, 127, State.reset, by decide +kernel⟩

theorem wit_NearBankEnginesStepAndFault_6 : ∃ (v : Nat) (p : Nat) (j : NbeJob) (s : State),
    s.engineBusy v p = true ∧
    (s.vault v).activeJob = some j :=
  ⟨0, 0, nbJob 2 [0], nbState (nbJob 2 [0]) nbClause 1, by decide +kernel⟩

theorem wit_KeyValueVerbsRun_1 : ∃ (r : Nat) (k : Nat) (h : HostView) (c : ClauseSt) (plans : List AppendPlan) (s : State),
    s.startedClause r k verbKvAppend = some c ∧
    s.appendWaits r c.index = false ∧
    c.verdict = none ∧
    (s.seeHost h).checkWords c.seqs (some (kvLayer c.bits)) (some ((c.noun 1).dim 1)) = none ∧
    (∀ p ∈ c.seqs.zipIdx, (s.seeHost h).layerLength ((s.seeHost h).seqEntry p.1.1) (kvLayer c.bits - ((s.seeHost h).seqEntry p.1.1).base) + (c.noun 1).dim 2 ≤ 128 * ((s.seeHost h).seqEntry p.1.1).cap) ∧
    (s.seeHost h).planAppends (s.seeHost h).poolFrames (kvLayer c.bits) ((c.noun 1).dim 2) (c.seqs.zipIdx) (s.seeHost h).pagesTaken = .inl plans :=
  ⟨3, 0, noHost, { clauseOf 0x18 0 with seqs := [(1, 0)], nouns := [(0, noun4 1), (1, { noun4 0 with dims := [128, 1, 1, 1, 2, 1] })] }, [{ seq := 1, layer := 0, start := 0, pages := [(0, 0, 128)] }], kvState [{ clauseOf 0x18 0 with seqs := [(1, 0)], nouns := [(0, noun4 1), (1, { noun4 0 with dims := [128, 1, 1, 1, 2, 1] })] }], by decide +kernel⟩

theorem wit_KeyValueVerbsRun_2 : ∃ (r : Nat) (k : Nat) (pos : Nat) (h : HostView) (c : ClauseSt) (s : State),
    s.startedClause r k verbKvAppend = some c ∧
    s.appendWaits r c.index = false ∧
    (s.seeHost h).checkWords c.seqs (some (kvLayer c.bits)) (some ((c.noun 1).dim 1)) = none ∧
    (∀ p ∈ c.seqs.zipIdx, (s.seeHost h).layerLength ((s.seeHost h).seqEntry p.1.1) (kvLayer c.bits - ((s.seeHost h).seqEntry p.1.1).base) + (c.noun 1).dim 2 ≤ 128 * ((s.seeHost h).seqEntry p.1.1).cap) ∧
    (s.seeHost h).planAppends (s.seeHost h).poolFrames (kvLayer c.bits) ((c.noun 1).dim 2) (c.seqs.zipIdx) (s.seeHost h).pagesTaken = .inr pos :=
  ⟨3, 0, 0, noHost, { clauseOf 0x18 0 with seqs := [(1, 0)], nouns := [(0, noun4 1), (1, { noun4 0 with dims := [128, 1, 1, 1, 2, 1] })] }, { kvState [{ clauseOf 0x18 0 with seqs := [(1, 0)], nouns := [(0, noun4 1), (1, { noun4 0 with dims := [128, 1, 1, 1, 2, 1] })] }] with applied := { mapped.applied with poolFrames := 1 } }, by decide +kernel⟩

theorem wit_KeyValueVerbsRun_3 : ∃ (r : Nat) (k : Nat) (h : HostView) (c : ClauseSt) (s : State),
    s.startedEvict r k 0 = some c ∧
    (s.seeHost h).checkWords c.seqs none none = none :=
  ⟨3, 0, noHost, { clauseOf 0x19 0 with seqs := [(1, 0)], nouns := [(0, noun4 1)] }, { kvState [{ clauseOf 0x19 0 with seqs := [(1, 0)], nouns := [(0, noun4 1)] }] with kvm := { Kvm.reset with used := [(128, 1), (129, 2)] } }, by decide +kernel⟩

theorem wit_KeyValueVerbsRun_4 : ∃ (r : Nat) (k : Nat) (h : HostView) (c : ClauseSt) (s : State),
    s.startedEvict r k 1 = some c ∧
    (s.seeHost h).checkWords c.seqs none none = none :=
  ⟨3, 0, noHost, { clauseOf 0x19 1 with seqs := [(1, 0)], nouns := [(0, noun4 1)] }, { kvState [{ clauseOf 0x19 1 with seqs := [(1, 0)], nouns := [(0, noun4 1)] }] with kvm := { Kvm.reset with used := [(128, 1)] } }, by decide +kernel⟩

theorem wit_KeyValueVerbsRun_5 : ∃ (page : Nat) (w : FreeWait) (s : State),
    s.kvm.freeing.find? (fun x => x.page == page) = some w ∧
    (∀ x ∈ w.readers, ∀ y ∈ s.kvm.reading, x ≠ (y.ring, y.index)) :=
  ⟨128, { page := 128, ring := 3, index := 0, readers := [(4, 0)] }, { kvState [clauseOf 0x19 0] with kvm := { Kvm.reset with used := [(128, 1)], freeing := [{ page := 128, ring := 3, index := 0, readers := [(4, 0)] }] } }, by decide +kernel⟩

theorem wit_KeyValueVerbsRun_6 : ∃ (r : Nat) (k : Nat) (h : HostView) (c : ClauseSt) (s : State),
    s.startedClause r k verbDecode = some c ∧
    s.engineTurn r c = true ∧
    checkReads ((s.seeHost h).decodeReads r c) (decLayer c.bits) ((c.noun 0).dim 1) = none :=
  ⟨3, 0, noHost, { decClause with vaults := [] }, { kvState [{ decClause with vaults := [] }] with kvm := { Kvm.reset with reading := [{ ring := 3, index := 0, seq := 1, gen := 0, raw := 2 ^ 24 + 2 ^ 32 + 2 ^ 88 + 2 ^ 136 + 2 ^ 144, poison := false, length := 1, pages := [128] }] } }, by decide +kernel⟩

theorem wit_CollectivesBegin_1 : ∃ (r : Nat) (k : Nat) (h : HostView) (c : ClauseSt) (s : State),
    s.startedClause r k verbReduce = some c :=
  ⟨3, 0, noHost, clauseOf 0x30 0, withClause 3 (clauseOf 0x30 0), by decide +kernel⟩

theorem wit_CollectivesBegin_2 : ∃ (r : Nat) (k : Nat) (h : HostView) (c : ClauseSt) (s : State),
    s.startedColl r k verbAllReduce = some c ∧
    (parseGroup c.entry).members = 1 ∧
    s.emptySource r c = false :=
  ⟨3, 0, noHost, clauseOf 0x31 0, withClause 3 (clauseOf 0x31 0), by decide +kernel⟩

theorem wit_CollectivesBegin_3 : ∃ (r : Nat) (k : Nat) (h : HostView) (c : ClauseSt) (s : State),
    s.startedColl r k verbReduceScatter = some c ∧
    (parseGroup c.entry).members = 1 ∧
    s.emptySource r c = false :=
  ⟨3, 0, noHost, clauseOf 0x32 0, withClause 3 (clauseOf 0x32 0), by decide +kernel⟩

theorem wit_CollectivesBegin_4 : ∃ (r : Nat) (k : Nat) (h : HostView) (c : ClauseSt) (s : State),
    s.startedColl r k verbAllGather = some c ∧
    (parseGroup c.entry).members = 1 ∧
    c.verdict = none :=
  ⟨3, 0, noHost, clauseOf 0x33 0, withClause 3 (clauseOf 0x33 0), by decide +kernel⟩

theorem wit_CollectivesBegin_5 : ∃ (r : Nat) (k : Nat) (h : HostView) (c : ClauseSt) (s : State),
    s.startedColl r k verbBroadcast = some c ∧
    (parseGroup c.entry).members = 1 ∧
    c.verdict = none :=
  ⟨3, 0, noHost, clauseOf 0x34 0, withClause 3 (clauseOf 0x34 0), by decide +kernel⟩

theorem wit_CollectivesBegin_6 : ∃ (r : Nat) (k : Nat) (h : HostView) (c : ClauseSt) (s : State),
    (parseGroup c.entry).members ≠ 1 :=
  ⟨3, 0, noHost, { clauseOf 0x31 0 with entry := group2 }, withClause 3 { clauseOf 0x31 0 with entry := group2 }, by decide +kernel⟩

theorem wit_CollectivesBegin_7 : ∃ (r : Nat) (k : Nat) (h : HostView) (c : ClauseSt) (s : State),
    s.emptySource r c = true :=
  ⟨3, 0, noHost, clauseOf 0x31 (2 ^ 40), { withClause 3 (clauseOf 0x31 (2 ^ 40)) with fields := [(1, field0)] }, by decide +kernel⟩

theorem wit_CollectivesBegin_7b : ∃ (r : Nat) (k : Nat) (h : HostView) (c : ClauseSt) (s : State),
    s.emptySource r c = true :=
  ⟨3, 0, noHost, clauseOf 0x32 (2 ^ 40), { withClause 3 (clauseOf 0x32 (2 ^ 40)) with fields := [(1, field0)] }, by decide +kernel⟩

theorem wit_CollectivePartsAndEnds_1 : ∃ (p : Nat) (f : Frame) (c : Coll) (s : State),
    s.inboxFind p (fun x => x.vc == 4 && x.kind == 0) = some f ∧
    s.collFor (redGroup f) (redInst f) = some c ∧
    (f.src, bits f.arg 44 29) ∈ c.grp.ins ∧
    c.parts.any (fun q => q.block == bits f.arg 14 0 && q.rank == bits f.arg 44 29 && q.part == bits f.arg 16 15) = false ∧
    bits f.arg 14 0 ∈ c.slots :=
  ⟨2, frame0, coll2, collState frame0, by decide +kernel⟩

theorem wit_CollectivePartsAndEnds_2 : ∃ (p : Nat) (f : Frame) (c : Coll) (s : State),
    s.inboxFind p (fun x => x.vc == 4 && x.kind == 1) = some f ∧
    s.collFor (redGroup f) (redInst f) = some c ∧
    c.downs.any (fun q => q.block == bits f.arg 14 0 && q.part == bits f.arg 16 15) = false ∧
    bits f.arg 14 0 ∉ c.done ∧
    assemble (c.downs ++ [framePart f 0]) (bits f.arg 14 0) 0 (packedBytes c.outFmt (blockElems c.elems (bits f.arg 14 0)) + scaleBytes c.outFmt (blockElems c.elems (bits f.arg 14 0))) = none :=
  ⟨2, { frame0 with kind := 1 }, { coll2 with elems := 2000 }, { collState { frame0 with kind := 1 } with colls := [{ coll2 with elems := 2000 }] }, by decide +kernel⟩

theorem wit_CollectivePartsAndEnds_3 : ∃ (p : Nat) (f : Frame) (c : Coll) (s : State),
    s.inboxFind p (fun x => x.vc == 2 && ctrlType x == 2) = some f ∧
    s.collFor (ctrlGroup f) (ctrlInst f) = some c ∧
    (c.index < 2 ^ 32 ∨ s.collClause c = none) :=
  ⟨2, { frame0 with vc := 2, payload := [2, 0x31, 0, 0], arg := 0 }, coll2, collState { frame0 with vc := 2, payload := [2, 0x31, 0, 0], arg := 0 }, by decide +kernel⟩

theorem wit_CollectivePartsAndEnds_4 : ∃ (p : Nat) (f : Frame) (s : State),
    s.inboxFind p (fun x => x.vc == 2 && ctrlType x == 2) = some f ∧
    s.collFor (ctrlGroup f) (ctrlInst f) = none ∧
    Tbl.get 0 s.lnk.instNext (ctrlGroup f) = ctrlInst f :=
  ⟨2, { frame0 with vc := 2, payload := [2, 0x31, 0, 0], arg := 0 }, { collState { frame0 with vc := 2, payload := [2, 0x31, 0, 0], arg := 0 } with colls := [] }, by decide +kernel⟩

theorem wit_CollectivePartsAndEnds_5 : ∃ (r : Nat) (k : Nat) (port : Bool) (c : ClauseSt) (x : Coll) (s : State),
    (s.ring r).clauseAt k = some c ∧
    c.phase = .started ∧
    c.worked = false ∧
    s.halted = false ∧
    s.coll r c.index = some x ∧
    c.index < 2 ^ 32 :=
  ⟨3, 0, true, clauseOf 0x31 0, coll2, collState frame0, by decide +kernel⟩

theorem wit_CollectivePartsAndEnds_6 : ∃ (r : Nat) (k : Nat) (c : ClauseSt) (s : State),
    (s.ring r).clauseAt k = some c ∧
    c.phase = .started ∧
    c.worked = false ∧
    s.halted = false ∧
    s.coll r c.index = none ∧
    s.slots.any (fun x => x.ring == r && x.index == c.index) = true :=
  ⟨3, 0, clauseOf 0x30 0, { withClause 3 (clauseOf 0x30 0) with slots := [Slot.fresh 3 0 255 false 5 0] }, by decide +kernel⟩

theorem wit_StepsDecideAndRelease_1 : ∃ (r : Nat) (k : Nat) (o : Nat) (h : HostView) (c : ClauseSt) (x : StepSt) (s : State),
    s.startedUpdate r k 0 = some c ∧
    s.ownerOf (s.ring r).field = some o ∧
    s.stepBusy o = false ∧
    s.stepOf o = some x ∧
    x.phase = .open ∧
    decNormCheck c.bits = false ∧
    x.chain = false ∧
    x.wave.own = none ∧
    x.outcome ≠ 255 :=
  ⟨3, 0, 1, noHost, clauseOf 0x40 0, { StepSt.fresh with flag := 255 }, stepState (clauseOf 0x40 0) { StepSt.fresh with flag := 255 }, by decide +kernel⟩

theorem wit_StepsDecideAndRelease_2 : ∃ (r : Nat) (k : Nat) (o : Nat) (c : ClauseSt) (x : StepSt) (s : State),
    s.startedUpdate r k 2 = some c ∧
    s.ownerOf (s.ring r).field = some o ∧
    s.stepBusy o = false ∧
    s.applyPending o c.order = false ∧
    s.stepOf o = some x ∧
    x.phase ≠ .open ∧
    x.chain = false ∧
    x.wave.own = none ∧
    x.outcome ≠ 255 :=
  ⟨3, 0, 1, clauseOf 0x40 2, { StepSt.fresh with flag := 255, phase := .skip }, stepState (clauseOf 0x40 2) { StepSt.fresh with flag := 255, phase := .skip }, by decide +kernel⟩

theorem wit_StepsDecideAndRelease_3 : ∃ (o : Nat) (r : Nat) (i : Nat) (v : Bool) (mm : Bool) (x : StepSt) (s : State),
    s.stepOf o = some x ∧
    x.chain = false ∧
    x.wave.released = some (v, mm) ∧
    x.owing = some (r, i) ∧
    x.waveKind = 1 ∧
    x.outcome ≠ 255 ∧
    ((s.ring r).clauseOf i).all (fun c => c.verdict.isNone) = true :=
  ⟨1, 3, 0, true, true, started2 1 .open (some (true, true)), stepState (clauseOf 0x40 0) (started2 1 .open (some (true, true))), by decide +kernel⟩

theorem wit_StepsDecideAndRelease_4 : ∃ (o : Nat) (r : Nat) (i : Nat) (x : StepSt) (s : State),
    s.stepOf o = some x ∧
    x.chain = false ∧
    x.wave.released = some (false, false) ∧
    x.owing = some (r, i) ∧
    x.waveKind = 2 ∧
    x.phase = .pass ∧
    s.slow = [] ∧
    x.stallFrom = none ∧
    x.outcome ≠ 255 ∧
    ((s.ring r).clauseOf i).all (fun c => c.verdict.isNone) = true :=
  ⟨1, 3, 0, started2 2 .pass (some (false, false)), stepState (clauseOf 0x40 2) (started2 2 .pass (some (false, false))), by decide +kernel⟩

theorem wit_StepsDecideAndRelease_5 : ∃ (o : Nat) (r : Nat) (i : Nat) (v : Bool) (mm : Bool) (x : StepSt) (s : State),
    s.stepOf o = some x ∧
    x.chain = false ∧
    x.wave.released = some (v, mm) ∧
    (v || mm) = true ∧
    x.owing = some (r, i) ∧
    x.waveKind = 2 ∧
    x.phase = .pass ∧
    x.outcome ≠ 255 ∧
    ((s.ring r).clauseOf i).all (fun c => c.verdict.isNone) = true :=
  ⟨1, 3, 0, true, false, started2 2 .pass (some (true, false)), stepState (clauseOf 0x40 2) (started2 2 .pass (some (true, false))), by decide +kernel⟩

theorem wit_StepsDecideAndRelease_5b : ∃ (o : Nat) (r : Nat) (i : Nat) (v : Bool) (mm : Bool) (x : StepSt) (s : State),
    s.stepOf o = some x ∧
    x.chain = false ∧
    x.wave.released = some (v, mm) ∧
    (v || mm) = true ∧
    x.owing = some (r, i) ∧
    x.waveKind = 2 ∧
    x.phase = .pass ∧
    x.outcome ≠ 255 ∧
    ((s.ring r).clauseOf i).all (fun c => c.verdict.isNone) = true :=
  ⟨1, 3, 0, false, true, started2 2 .pass (some (false, true)), stepState (clauseOf 0x40 2) (started2 2 .pass (some (false, true))), by decide +kernel⟩

theorem wit_StepsDecideAndRelease_6 : ∃ (o : Nat) (r : Nat) (i : Nat) (v : Bool) (mm : Bool) (x : StepSt) (s : State),
    s.stepOf o = some x ∧
    x.chain = false ∧
    x.wave.released = some (v, mm) ∧
    x.owing = some (r, i) ∧
    x.waveKind = 2 ∧
    x.phase = .skip ∧
    s.slow = [] ∧
    x.stallFrom = none ∧
    x.outcome ≠ 255 ∧
    ((s.ring r).clauseOf i).all (fun c => c.verdict.isNone) = true :=
  ⟨1, 3, 0, false, false, started2 2 .skip (some (false, false)), stepState (clauseOf 0x40 2) (started2 2 .skip (some (false, false))), by decide +kernel⟩

theorem wit_StepsDecideAndRelease_7 : ∃ (r : Nat) (k : Nat) (o : Nat) (c : ClauseSt) (x : StepSt) (s : State),
    (s.ring r).clauseAt k = some c ∧
    s.ownerOf (s.ring r).field = some o ∧
    s.stepOf o = some x ∧
    x.owing = some (r, c.index) ∧
    x.outcome = 0 ∧
    (s.waveOf x).released = none ∧
    s.halted = false :=
  ⟨3, 0, 1, clauseOf 0x40 0, started2 1 .open none, stepState (clauseOf 0x40 0) (started2 1 .open none), by decide +kernel⟩

theorem wit_UpdatesApplyAndAudit_1 : ∃ (r : Nat) (k : Nat) (o : Nat) (h : HostView) (c : ClauseSt) (x : StepSt) (s : State),
    s.startedUpdate r k 1 = some c ∧
    s.ownerOf (s.ring r).field = some o ∧
    s.stepOf o = some x ∧
    x.phase = .skip :=
  ⟨3, 0, 1, noHost, clauseOf 0x40 1, { StepSt.fresh with flag := 255, phase := .skip }, stepState (clauseOf 0x40 1) { StepSt.fresh with flag := 255, phase := .skip }, by decide +kernel⟩

theorem wit_UpdatesApplyAndAudit_2 : ∃ (r : Nat) (k : Nat) (o : Nat) (h : HostView) (c : ClauseSt) (x : StepSt) (s : State),
    s.startedUpdate r k 1 = some c ∧
    s.ownerOf (s.ring r).field = some o ∧
    s.stepOf o = some x ∧
    x.phase = .pass ∧
    x.outcome ≠ 255 ∧
    apPset c.bits ∉ x.applied ∧
    s.emptyGradient r c = false ∧
    s.stageBusy (apPset c.bits) (parsePset c.entry) x.step.toNat = false ∧
    s.setLocked r c.index (s.setNow (apPset c.bits) c.entry) (s.setNow (apPset c.bits) c.entry).applyRegions = false :=
  ⟨3, 0, 1, noHost, clauseOf 0x40 1, { StepSt.fresh with flag := 255, phase := .pass }, stepState (clauseOf 0x40 1) { StepSt.fresh with flag := 255, phase := .pass }, by decide +kernel⟩

theorem wit_UpdatesApplyAndAudit_3 : ∃ (r : Nat) (k : Nat) (o : Nat) (h : HostView) (c : ClauseSt) (x : StepSt) (s : State),
    s.startedUpdate r k 1 = some c ∧
    s.ownerOf (s.ring r).field = some o ∧
    s.stepOf o = some x ∧
    x.phase = .pass ∧
    apPset c.bits ∈ x.applied :=
  ⟨3, 0, 1, noHost, clauseOf 0x40 (1 + 16383 * 16), { StepSt.fresh with flag := 255, phase := .pass, applied := [16383] }, stepState (clauseOf 0x40 (1 + 16383 * 16)) { StepSt.fresh with flag := 255, phase := .pass, applied := [16383] }, by decide +kernel⟩

theorem wit_UpdatesApplyAndAudit_4 : ∃ (r : Nat) (k : Nat) (o : Nat) (h : HostView) (c : ClauseSt) (x : StepSt) (s : State),
    s.startedUpdate r k 1 = some c ∧
    s.ownerOf (s.ring r).field = some o ∧
    s.stepOf o = some x ∧
    x.phase = .pass ∧
    apPset c.bits ∉ x.applied ∧
    s.emptyGradient r c = true :=
  ⟨3, 0, 1, noHost, clauseOf 0x40 (1 + 2 ^ 19), { StepSt.fresh with flag := 255, phase := .pass }, stepState (clauseOf 0x40 (1 + 2 ^ 19)) { StepSt.fresh with flag := 255, phase := .pass }, by decide +kernel⟩

theorem wit_UpdatesApplyAndAudit_5 : ∃ (r : Nat) (k : Nat) (o : Nat) (h : HostView) (c : ClauseSt) (x : StepSt) (s : State),
    s.startedUpdate r k 1 = some c ∧
    s.ownerOf (s.ring r).field = some o ∧
    s.stepOf o = some x ∧
    x.phase = .pass ∧
    apPset c.bits ∉ x.applied ∧
    s.emptyGradient r c = false ∧
    s.stageBusy (apPset c.bits) (parsePset c.entry) x.step.toNat = true :=
  ⟨3, 0, 1, noHost, { clauseOf 0x40 1 with entry := 4 }, { StepSt.fresh with flag := 255, phase := .pass, step := 9 }, { stepState { clauseOf 0x40 1 with entry := 4 } { StepSt.fresh with flag := 255, phase := .pass, step := 9 } with slow := [(0, { SlowSt.reset with committed := [3] })] }, by decide +kernel⟩

theorem wit_UpdatesApplyAndAudit_6 : ∃ (i : Nat) (j : Nat) (rest : List Nat) (h : HostView) (s : State),
    (s.slowSet i).committed = j :: rest ∧
    (s.slowSet i).applied = [] ∧
    s.setLocked 65536 0 (parsePset (s.psetBytes i)) (fun wn => (parsePset (s.psetBytes i)).pendingRegions wn false) = false :=
  ⟨7, 3, [4], noHost, { State.reset with slow := [(7, { SlowSt.reset with committed := [3, 4] })] }, by decide +kernel⟩

theorem wit_UpdatesApplyAndAudit_7 : ∃ (r : Nat) (k : Nat) (h : HostView) (c : ClauseSt) (s : State),
    s.startedDigest r k 0 = some c ∧
    c.verdict = none ∧
    ((s.seeHost h).digestStream c).any (·.poison) = false :=
  ⟨3, 0, noHost, { clauseOf 0x41 0 with nouns := [(0, noun4 1), (1, noun4 8)] }, { mapped with rings := [(3, ringOf [{ clauseOf 0x41 0 with nouns := [(0, noun4 1), (1, noun4 8)] }])] }, by decide +kernel⟩

theorem wit_UpdatesApplyAndAudit_8 : ∃ (r : Nat) (k : Nat) (o : Nat) (h : HostView) (c : ClauseSt) (x : StepSt) (s : State),
    s.startedDigest r k 1 = some c ∧
    s.ownerOf (s.ring r).field = some o ∧
    s.stepOf o = some x ∧
    x.phase = .open :=
  ⟨3, 0, 1, noHost, clauseOf 0x41 1, { StepSt.fresh with flag := 255 }, stepState (clauseOf 0x41 1) { StepSt.fresh with flag := 255 }, by decide +kernel⟩

theorem wit_FieldsKernelsAndScrub_1 : ∃ (r : Nat) (k : Nat) (h : HostView) (c : ClauseSt) (s : State),
    s.startedClause r k verbConfigure = some c ∧
    cfgDissolve c.bits = false ∧
    c.verdict = none ∧
    (s.seeHost h).stressBlocks ((s.seeHost h).nounWords (c.noun 0)) = false ∧
    checkDescriptor (s.seeHost h) (cfgField c.bits) (c.noun 0) = none :=
  ⟨0, 0, noHost, { clauseOf 0x60 1 with nouns := [(0, noun4 64)] }, { mapped with host := descHost, rings := [(0, ringOf [{ clauseOf 0x60 1 with nouns := [(0, noun4 64)] }])] }, by decide +kernel⟩

theorem wit_FieldsKernelsAndScrub_2 : ∃ (r : Nat) (k : Nat) (c : ClauseSt) (s : State),
    s.startedClause r k verbConfigure = some c ∧
    cfgDissolve c.bits = true ∧
    c.verdict = none ∧
    checkDissolve s (cfgField c.bits) = none :=
  ⟨0, 0, clauseOf 0x60 (1 + 64), { withRing 0 [clauseOf 0x60 (1 + 64)] with fields := [(1, field0)], steps := [(1, { StepSt.fresh with flag := 255 })] }, by decide +kernel⟩

theorem wit_FieldsKernelsAndScrub_3 : ∃ (r : Nat) (k : Nat) (h : HostView) (c : ClauseSt) (f : FieldSt) (s : State),
    s.startedClause r k verbLoadKernel = some c ∧
    lkStandard c.bits = false ∧
    c.verdict = none ∧
    s.fieldOf (lkField c.bits) = some f ∧
    (((s.seeHost h).loadTensor (c.noun 0)).any (·.poison)) = false ∧
    checkImage (s.seeHost h) f c.bits (parseImage (((s.seeHost h).loadTensor (c.noun 0)).flatMap (fun e => natLe 4 e.code))) = none :=
  ⟨0, 0, noHost, { clauseOf 0x61 1 with nouns := [(0, noun4 17)] }, field0, { mapped with host := imageHost, fields := [(1, field0)], rings := [(0, ringOf [{ clauseOf 0x61 1 with nouns := [(0, noun4 17)] }])] }, by decide +kernel⟩

theorem wit_FieldsKernelsAndScrub_4 : ∃ (r : Nat) (k : Nat) (c : ClauseSt) (f : FieldSt) (s : State),
    s.startedClause r k verbLoadKernel = some c ∧
    lkStandard c.bits = true ∧
    c.verdict = none ∧
    s.fieldOf (lkField c.bits) = some f ∧
    checkStandard s f c.bits = none ∧
    s.glb.kstoreOk = true :=
  ⟨0, 0, clauseOf 0x61 (1 + 128), field0, { withRing 0 [clauseOf 0x61 (1 + 128)] with fields := [(1, field0)], glb := { Glb.reset with kstoreOk := true } }, by decide +kernel⟩

theorem wit_FieldsKernelsAndScrub_5 : ∃ (r : Nat) (k : Nat) (bad : Bool) (c : ClauseSt) (f : FieldSt) (s : State),
    s.startedClause r k verbLoadKernel = some c ∧
    lkStandard c.bits = true ∧
    s.fieldOf (lkField c.bits) = some f ∧
    checkStandard s f c.bits = none ∧
    (bad || !s.glb.kstoreOk) = true :=
  ⟨0, 0, true, clauseOf 0x61 (1 + 128), field0, { withRing 0 [clauseOf 0x61 (1 + 128)] with fields := [(1, field0)], glb := { Glb.reset with kstoreOk := true } }, by decide +kernel⟩

theorem wit_FieldsKernelsAndScrub_5b : ∃ (r : Nat) (k : Nat) (bad : Bool) (c : ClauseSt) (f : FieldSt) (s : State),
    s.startedClause r k verbLoadKernel = some c ∧
    lkStandard c.bits = true ∧
    s.fieldOf (lkField c.bits) = some f ∧
    checkStandard s f c.bits = none ∧
    (bad || !s.glb.kstoreOk) = true :=
  ⟨0, 0, false, clauseOf 0x61 (1 + 128), field0, { withRing 0 [clauseOf 0x61 (1 + 128)] with fields := [(1, field0)] }, by decide +kernel⟩

theorem wit_FieldsKernelsAndScrub_6 : ∃ (r : Nat) (k : Nat) (c : ClauseSt) (s : State),
    s.startedClause r k verbScrub = some c ∧
    c.verdict = none ∧
    s.scrubLocked (scrubLo c.bits) (scrubHi c.bits) = false :=
  ⟨0, 0, clauseOf 0x50 0, withRing 0 [clauseOf 0x50 0], by decide +kernel⟩

theorem wit_CoresSequence_1 : ∃ (n : Nat) (r : Nat) (i : Nat) (paren : Bool) (bad : Bool) (rest : List (Nat × Nat)) (s : State),
    (if paren then (s.core n).qParen else (s.core n).qMain) = (r, i) :: rest ∧
    s.coreRuns n paren = true :=
  ⟨0, 3, 0, false, true, [], coreState { core0 with run := 1 }, by decide +kernel⟩

theorem wit_CoresSequence_1b : ∃ (n : Nat) (r : Nat) (i : Nat) (paren : Bool) (bad : Bool) (rest : List (Nat × Nat)) (s : State),
    (if paren then (s.core n).qParen else (s.core n).qMain) = (r, i) :: rest ∧
    s.coreRuns n paren = true :=
  ⟨0, 4, 0, true, false, [], coreState { core0 with imgParen := .loaded [1] }, by decide +kernel⟩

theorem wit_CoresSequence_2 : ∃ (s : State),
    5 ≤ s.glb.step.toNat :=
  ⟨{ State.reset with glb := { Glb.reset with step := 5 } }, by decide +kernel⟩

theorem wit_CoresSequence_3 : ∃ (n : Nat) (held : List Nat) (s : State),
    (s.core n).run.toNat < 2 ∧
    (s.core n).qParen ≠ [] ∧
    (s.core n).retuning = false ∧
    (s.dom n).power = 2 ∧
    s.halted = false ∧
    s.mainWaits n = true :=
  ⟨0, [0], coreState { core0 with run := 1 }, by decide +kernel⟩

theorem wit_CoresSequence_4 : ∃ (n : Nat) (cycles : Nat) (s : State),
    2 ≤ (s.core n).run.toNat ∧
    (s.core n).qMain ≠ [] :=
  ⟨0, 16, coreState core0, by decide +kernel⟩

theorem wit_CoresSequence_5 : ∃ (n : Nat) (cycles : Nat) (b : SpilledBank) (s : State),
    2 ≤ (s.core n).run.toNat ∧
    (s.core n).qMain ≠ [] :=
  ⟨0, 16, { array := 1, words := [1] }, coreState core0, by decide +kernel⟩

theorem wit_CoresSequence_6 : ∃ (n : Nat) (sweeps : List LaneSweep) (s : State),
    (s.core n).retuning = true ∧
    (sweeps.filter (fun x => x.column == n && x.crossing == 0)).all (fun x => LaneSweep.passes x) = true :=
  ⟨0, [{ column := 0, crossing := 0, lane := 1055, windows := [(50, 24)] }], coreState { core0 with retuning := true, qMain := [], qParen := [], run := 0 }, by decide +kernel⟩

theorem wit_CoresSequence_7 : ∃ (n : Nat) (sweeps : List LaneSweep) (s : State),
    (s.core n).retuning = true ∧
    (sweeps.filter (fun x => x.column == n && x.crossing == 0)).all (fun x => LaneSweep.passes x) = false :=
  ⟨0, [{ column := 0, crossing := 0, lane := 7, windows := [(0, 23), (30, 23)] }], coreState { core0 with retuning := true, qMain := [], qParen := [], run := 0 }, by decide +kernel⟩

theorem wit_RepairsAndErrorRecords_1 : ∃ (v : Nat) (row : Nat) (tier : Nat) (bank : Nat) (s : State),
    row < 3072 ∧
    tier < 8 ∧
    bank < 16 ∧
    s.dram.rowBad (rowKey v row tier bank) = true ∧
    (s.engine v (16 * tier + bank)).token = false ∧
    (s.tier v tier).refreshing = false ∧
    (s.vault v).repair = none ∧
    (s.tier v tier).debt < 7 :=
  ⟨255, 3071, 7, 15, { State.reset with dram := { Dram.reset with checks := [(rowByteDpa 255 3071 7 15 0 / 4, 3)] }, tiers := [(8 * 255 + 7, { TierSt.reset with debt := 6 })] }, by decide +kernel⟩

theorem wit_RepairsAndErrorRecords_2 : ∃ (v : Nat) (key : Nat) (s : State),
    (s.vault v).repair = some key ∧
    (s.vault v).waiting = [] :=
  ⟨0, 0, vaultState 0 { VaultSt.reset with repair := some 0 }, by decide +kernel⟩

theorem wit_RepairsAndErrorRecords_6 : ∃ (r : Nat) (k : Nat) (again : FetchedClause) (c : ClauseSt) (s : State),
    (s.ring r).clauseAt k = some c ∧
    c.phase = .posted :=
  ⟨3, 0, { bits := 7, poison := false }, { clause0 with phase := .posted }, withClause 3 { clause0 with phase := .posted }, by decide +kernel⟩

theorem wit_RepairsAndErrorRecords_7 : ∃ (eid : Nat) (kind : Nat) (e : Event) (rest : List Event) (s : State),
    s.mgt.receiver = some eid ∧
    s.deliverable = e :: rest ∧
    e.cper = some kind :=
  ⟨9, 1, event0 .fieldFault (some 1), [event0 .trip none], { State.reset with mgt := { Mgt.reset with receiver := some 9, awaiting := [event0 .fieldFault (some 1), event0 .trip none] }, boot := { State.reset.boot with events := [event0 .trip none, event0 .fieldFault (some 1)] } }, by decide +kernel⟩

theorem wit_StressTestsRun_1 : ∃ (v : Word32) (s : State),
    v.getLsbD 31 = true ∧
    s.err.stress.state ≠ 1 ∧
    (s.err.stress.write v).rect.any (fun c => s.fields.any (fun e => e.2.cores.contains c)) = false :=
  ⟨0x8000001F, { State.reset with fields := [(1, { field0 with row := 15 })] }, by decide +kernel⟩

theorem wit_StressTestsRun_2 : ∃ (v : Word32) (s : State),
    v.getLsbD 31 = true ∧
    s.err.stress.state ≠ 1 ∧
    (s.err.stress.write v).rect.any (fun c => s.fields.any (fun e => e.2.cores.contains c)) = true :=
  ⟨0x8000001F, { State.reset with fields := [(1, field0)] }, by decide +kernel⟩

theorem wit_StressTestsRun_3 : ∃ (ps : List Nat) (ss : List Nat) (k : Nat) (rest : List Nat) (s : State),
    s.err.stress.left = k :: rest :=
  ⟨[5], [], 4, [], { State.reset with err := { Err.reset with stress := { Stress.reset with state := 1, left := [4], cores := [5] } } }, by decide +kernel⟩

theorem wit_StressTestsRun_4 : ∃ (s : State),
    s.err.stress.state = 1 ∧
    s.err.stress.left = [] :=
  ⟨{ State.reset with err := { Err.reset with stress := { Stress.reset with state := 1, cores := [5], failed := [(4, 5)] } } }, by decide +kernel⟩

theorem wit_LanesAreSpared_1 : ∃ (v : Nat) (sub : Nat) (s : State),
    sub ∈ (s.vault v).stopped ∧
    (s.vault v).moving = false ∧
    (s.vault v).waiting = [] :=
  ⟨255, 7, vaultState 255 { VaultSt.reset with stopped := [7] }, by decide +kernel⟩

theorem wit_LanesAreSpared_2 : ∃ (v : Nat) (sub : Nat) (lane : Nat) (s : State),
    sub ∈ (s.vault v).stopped ∧
    (s.vault v).moving = false ∧
    (s.vault v).mode = 0 ∧
    (s.vault v).spares < 16 :=
  ⟨255, 7, 63, vaultState 255 { VaultSt.reset with stopped := [7], spares := 15 }, by decide +kernel⟩

theorem wit_LanesAreSpared_3 : ∃ (v : Nat) (sub : Nat) (lane : Nat) (x : VaultSt) (s : State),
    sub ∈ (s.vault v).stopped ∧
    (s.vault v).moving = false ∧
    (s.vault v).mode = 0 ∧
    16 ≤ (s.vault v).spares ∧
    x = { s.vault v with failedLanes := insSet (64 * sub + lane) (s.vault v).failedLanes } ∧
    x.halvesNeed x.chooseHalves ≤ 16 :=
  ⟨0, 0, 63, { VaultSt.reset with stopped := [0], spares := 16, failedLanes := [63] }, vaultState 0 { VaultSt.reset with stopped := [0], spares := 16 }, by decide +kernel⟩

theorem wit_LanesAreSpared_4 : ∃ (v : Nat) (sub : Nat) (lane : Nat) (s : State),
    sub ∈ (s.vault v).stopped ∧
    (s.vault v).moving = false ∧
    (s.vault v).mode = 1 ∧
    16 ≤ (s.vault v).spares ∧
    bitAt (s.vault v).halfSel.toNat sub = decide (32 ≤ lane) :=
  ⟨0, 0, 32, vaultState 0 { VaultSt.reset with stopped := [0], spares := 16, mode := 1, halfSel := 1 }, by decide +kernel⟩

theorem wit_LanesAreSpared_5 : ∃ (v : Nat) (sub : Nat) (lane : Nat) (s : State),
    sub ∈ (s.vault v).stopped ∧
    (s.vault v).moving = false ∧
    (s.vault v).cmdSpares < 2 :=
  ⟨0, 0, 1, vaultState 0 { VaultSt.reset with stopped := [0], cmdSpares := 1 }, by decide +kernel⟩

theorem wit_LanesAreSpared_6 : ∃ (v : Nat) (sub : Nat) (data : List LaneSweep) (cmds : List LaneSweep) (s : State),
    sub ∈ (s.vault v).stopped ∧
    (s.vault v).moving = false ∧
    (s.vault v).waiting = [] ∧
    ((s.vault v).stopped.length < 8 ∨ (s.vault v).mode ≠ 1) ∧
    (data ++ cmds).all (fun x => LaneSweep.passes x) = true :=
  ⟨255, 7, [{ column := 255, crossing := 1, lane := 512, windows := [(60, 24)] }], [], vaultState 255 { VaultSt.reset with stopped := [7] }, by decide +kernel⟩

theorem wit_LanesAreSpared_7 : ∃ (v : Nat) (sub : Nat) (x : LaneSweep) (s : State),
    sub ∈ (s.vault v).stopped ∧
    (s.vault v).moving = false ∧
    LaneSweep.passes x = false :=
  ⟨255, 7, { column := 255, crossing := 1, lane := 527, windows := [] }, vaultState 255 { VaultSt.reset with stopped := [7], spares := 15 }, by decide +kernel⟩

theorem wit_LanesAreSpared_7b : ∃ (v : Nat) (sub : Nat) (x : LaneSweep) (s : State),
    sub ∈ (s.vault v).stopped ∧
    (s.vault v).moving = false ∧
    LaneSweep.passes x = false :=
  ⟨255, 7, { column := 255, crossing := 1, lane := 528, windows := [(3, 23)] }, vaultState 255 { VaultSt.reset with stopped := [7], cmdSpares := 1 }, by decide +kernel⟩

theorem wit_LanesAreSpared_8 : ∃ (v : Nat) (trained : Bool) (s : State),
    (s.vault v).moving = true ∧
    (s.vault v).waiting = [] :=
  ⟨0, false, vaultState 0 { VaultSt.reset with stopped := [0, 1], moving := true, mode := 2 }, by decide +kernel⟩

theorem wit_BurstsReturnAndRepeat_1 : ∃ (b : Burst) (s : State),
    (b.isWrite = true ∨ b.requesters = [] ∧ s.readHits (burstDpa b) = false) ∧
    s.vaultRetired b.vault = false ∧
    s.bankHeld (burstDpa b) = false ∧
    burstHolds b = false ∧
    Tbl.get 0 (s.vault b.vault).repeats (b.bank / 2) < 3 :=
  ⟨{ burst0 with isWrite := true, err := 1 }, vaultState 255 { VaultSt.reset with repeats := [(0, 2)] }, by decide +kernel⟩

theorem wit_BurstsReturnAndRepeat_1b : ∃ (b : Burst) (s : State),
    (b.isWrite = true ∨ b.requesters = [] ∧ s.readHits (burstDpa b) = false) ∧
    s.vaultRetired b.vault = false ∧
    s.bankHeld (burstDpa b) = false ∧
    burstHolds b = false ∧
    Tbl.get 0 (s.vault b.vault).repeats (b.bank / 2) < 3 :=
  ⟨{ burst0 with bank := 15, requesters := [], err := 2 ^ 511 }, vaultState 255 { VaultSt.reset with repeats := [(7, 2)] }, by decide +kernel⟩

theorem wit_BurstsReturnAndRepeat_2 : ∃ (b : Burst) (s : State),
    (b.isWrite = true ∨ b.requesters = [] ∧ s.readHits (burstDpa b) = false) ∧
    s.vaultRetired b.vault = false ∧
    s.bankHeld (burstDpa b) = false ∧
    burstHolds b = false ∧
    3 ≤ Tbl.get 0 (s.vault b.vault).repeats (b.bank / 2) :=
  ⟨{ burst0 with isWrite := true, stErr := 1 }, vaultState 255 { VaultSt.reset with repeats := [(0, 3)] }, by decide +kernel⟩

theorem wit_BurstsReturnAndRepeat_3 : ∃ (b : Burst) (s : State),
    b.isWrite = true ∧
    burstDpa b / Config.vaultBytes = b.vault ∧
    burstDpa b % 64 = 0 ∧
    s.vaultRetired b.vault = false ∧
    s.bankHeld (burstDpa b) = false ∧
    burstHolds b = true :=
  ⟨{ burst0 with isWrite := true }, vaultState 255 { VaultSt.reset with repeats := [(0, 3)], combine := [{ burst := burstDpa burst0 / 64, requesters := [1], returned := true }] }, by decide +kernel⟩

theorem wit_BurstsReturnAndRepeat_4 : ∃ (b : Burst) (first : Nat) (second : Nat) (s : State),
    b.isWrite = false ∧
    burstDpa b / Config.vaultBytes = b.vault ∧
    s.vaultRetired b.vault = false ∧
    s.bankHeld (burstDpa b) = false ∧
    burstHolds b = true ∧
    b.requesters = [first, second] ∧
    s.burstSt b = 0 ∧
    s.cacheOn b.vault = false ∧
    s.dpaPoison (burstDpa b) 64 = false ∧
    (s.vault b.vault).entryOf (burstDpa b / 64) = none ∧
    (s.vault b.vault).combine.length < 32 :=
  ⟨burst0, 0, 3, vaultState 255 { VaultSt.reset with combine := [{ burst := 77, requesters := [1], returned := true }] }, by decide +kernel⟩

theorem wit_BurstsReturnAndRepeat_5 : ∃ (b : Burst) (e : Combine) (s : State),
    b.isWrite = false ∧
    burstDpa b / Config.vaultBytes = b.vault ∧
    s.vaultRetired b.vault = false ∧
    s.bankHeld (burstDpa b) = false ∧
    b.requesters ≠ [] ∧
    s.cacheOn b.vault = false ∧
    (s.vault b.vault).entryOf (burstDpa b / 64) = some e ∧
    e.returned = true :=
  ⟨burst0, { burst := burstDpa burst0 / 64, requesters := [0], returned := true }, vaultState 255 { VaultSt.reset with combine := [{ burst := burstDpa burst0 / 64, requesters := [0], returned := true }] }, by decide +kernel⟩

theorem wit_BurstsReturnAndRepeat_6 : ∃ (b : Burst) (s : State),
    b.isWrite = false ∧
    s.readHits (burstDpa b) = true ∧
    s.playa.checks = [] :=
  ⟨burst0, { State.reset with applied := { Shadow.reset with cacheEn := [255] }, caches := [(4096 * 255, { CacheSet.empty with ways := some (burstDpa burst0 / 64) :: List.replicate 7 none })] }, by decide +kernel⟩

theorem wit_BurstsReturnAndRepeat_7 : ∃ (b : Burst) (s : State),
    b.isWrite = false ∧
    b.requesters = [] ∧
    s.readHits (burstDpa b) = false ∧
    s.vaultRetired b.vault = false ∧
    s.bankHeld (burstDpa b) = false ∧
    burstHolds b = true ∧
    2 ≤ s.burstSt b :=
  ⟨{ burst0 with requesters := [], stErr := 0x80 }, vaultState 255 { VaultSt.reset with repeats := [(0, 3)] }, by decide +kernel⟩

theorem wit_BurstsReturnAndRepeat_8 : ∃ (v : Nat) (burst : Nat) (late : List Nat) (s : State),
    (s.vault v).combine.any (fun e => e.burst == burst) = true :=
  ⟨255, 77, [2], vaultState 255 { VaultSt.reset with combine := [{ burst := 77, requesters := [1], returned := true }] }, by decide +kernel⟩

theorem wit_RefreshKeepsItsDebt_1 : ∃ (v : Nat) (k : Nat) (s : State),
    s.selfRef = false :=
  ⟨255, 7, { State.reset with tiers := [(2047, { TierSt.reset with debt := 8 })] }, by decide +kernel⟩

theorem wit_RefreshKeepsItsDebt_2 : ∃ (v : Nat) (k : Nat) (s : State),
    s.selfRef = true :=
  ⟨255, 7, { State.reset with selfRef := true }, by decide +kernel⟩

theorem wit_RefreshKeepsItsDebt_3 : ∃ (v : Nat) (k : Nat) (sweeps : List LaneSweep) (s : State),
    s.selfRef = false ∧
    (s.tier v k).debt ≠ 0 ∧
    s.tierClosed v k = true ∧
    (4 ≤ (s.tier v k).debt ∨ s.tierWanted v k = false) ∧
    (s.vault v).retune.contains k = false :=
  ⟨255, 7, [], { State.reset with tiers := [(2047, { TierSt.reset with debt := 4 })] }, by decide +kernel⟩

theorem wit_RefreshKeepsItsDebt_4 : ∃ (v : Nat) (k : Nat) (sweeps : List LaneSweep) (s : State),
    k < 8 ∧
    s.selfRef = false ∧
    (s.tier v k).debt ≠ 0 ∧
    s.tierClosed v k = true ∧
    (4 ≤ (s.tier v k).debt ∨ s.tierWanted v k = false) ∧
    (s.vault v).retune.contains k = true ∧
    sweeps.all (fun x => LaneSweep.passes x) = true :=
  ⟨255, 7, [{ column := 255, crossing := 8, lane := 3, windows := [(0, 64)] }], { vaultState 255 { VaultSt.reset with retune := [7] } with tiers := [(2047, { TierSt.reset with debt := 4 })] }, by decide +kernel⟩

theorem wit_RefreshKeepsItsDebt_5 : ∃ (v : Nat) (k : Nat) (s : State),
    (s.tier v k).refreshing = true ∧
    (s.vault v).waiting = [] ∧
    (s.vault v).jobs = [] :=
  ⟨255, 7, { State.reset with tiers := [(2047, { TierSt.reset with debt := 3, refreshing := true })] }, by decide +kernel⟩

theorem wit_RefreshKeepsItsDebt_6 : ∃ (v : Nat) (k : Nat) (s : State),
    s.tierTemp v k ≤ 680 :=
  ⟨255, 7, { State.reset with thm := { Thm.reset with nodes := [(256 * 10 + 255, 680)], peaks := [(256 * 10 + 255, 680)] }, tiers := [(2047, { TierSt.reset with fast := true })] }, by decide +kernel⟩

theorem wit_RefreshKeepsItsDebt_7 : ∃ (v : Nat) (k : Nat) (s : State),
    680 < s.tierTemp v k :=
  ⟨255, 7, { State.reset with thm := { Thm.reset with nodes := [(256 * 10 + 255, 681)], peaks := [(256 * 10 + 255, 681)] }, tiers := [(2047, { TierSt.reset with fast := true })] }, by decide +kernel⟩

theorem wit_HostAccessesDeviceMemory_1 : ∃ (a : Nat) (bs : List Byte) (p : Bool) (s : State),
    a < Config.dramBytes ∧
    s.glb.ready = false :=
  ⟨Config.dramBytes - 1, [1], true, State.reset, by decide +kernel⟩

theorem wit_HostAccessesDeviceMemory_2 : ∃ (a : Nat) (s : State),
    a < Config.dramBytes ∧
    s.glb.ready = false :=
  ⟨Config.dramBytes - 1, State.reset, by decide +kernel⟩

theorem wit_HostAccessesDeviceMemory_3 : ∃ (a : Nat) (s : State),
    a < Config.dramBytes ∧
    s.glb.ready = true ∧
    s.hostHeld = false ∧
    s.burstWaits a = false ∧
    (s.bankHeld a = false ∨ s.readHits a = true) ∧
    s.readRepairs a = false :=
  ⟨Config.dramBytes - 1, readyState, by decide +kernel⟩

theorem wit_HostAccessesDeviceMemory_4 : ∃ (a : Nat) (s : State),
    a < Config.dramBytes ∧
    s.glb.ready = true ∧
    s.hostHeld = false ∧
    s.bankHeld a = true ∧
    s.readHits a = false :=
  ⟨0, { readyState with engines := [(0, { EngineSt.reset with token := true })] }, by decide +kernel⟩

theorem wit_HostAccessesDeviceMemory_5 : ∃ (a : Nat) (bs : List Byte) (p : Bool) (s : State),
    a < Config.dramBytes ∧
    s.glb.ready = true ∧
    s.hostHeld = false ∧
    bs.length ≤ 64 - a % 64 ∧
    s.seqGuarded a bs.length = false ∧
    s.dpaLocked a = false ∧
    s.bankHeld a = false ∧
    s.burstWaits a = false ∧
    s.vaultRetired (a / Config.vaultBytes) = false ∧
    (s.vault (a / Config.vaultBytes)).sideDead = false ∧
    s.quotaTable a bs.length = false ∧
    s.dbg.slots = [] ∧
    s.dram.checks = [] :=
  ⟨Config.dramBytes - 1, [255], true, readyState, by decide +kernel⟩

theorem wit_HostAccessesDeviceMemory_6 : ∃ (a : Nat) (s : State),
    a < Config.dramBytes ∧
    s.glb.ready = true ∧
    s.hostHeld = true :=
  ⟨Config.dramBytes - 1, { readyState with glb := { readyState.glb with rstState := 1 } }, by decide +kernel⟩

theorem wit_HostRequestsWaitAndEnd_1 : ∃ (a : Nat) (bs : List Byte) (p : Bool) (s : State),
    a < Config.dramBytes ∧
    s.glb.ready = true ∧
    s.hostHeld = false ∧
    bs.length ≤ 64 - a % 64 ∧
    s.seqGuarded a bs.length = false ∧
    s.dpaLocked a = true :=
  ⟨0, [1], false, { readyState with vaults := [(0, { VaultSt.reset with jobs := [{ nbJob 2 [0] with locked := [{ row := 0, lo := 0, hi := 1 }] }] })] }, by decide +kernel⟩

theorem wit_HostRequestsWaitAndEnd_2 : ∃ (v : Nat) (w : Waiting) (rest : List Waiting) (s : State),
    (s.vault v).deferred = w :: rest :=
  ⟨0, .write 0 [1] false false, [.read 5 false], vaultState 0 { VaultSt.reset with deferred := [.write 0 [1] false false, .read 5 false] }, by decide +kernel⟩

theorem wit_HostRequestsWaitAndEnd_3 : ∃ (v : Nat) (a : Nat) (rest : List Waiting) (s : State),
    (s.vault v).waiting = .read a false :: rest :=
  ⟨0, 64, [], vaultState 0 { VaultSt.reset with waiting := [.read 64 false] }, by decide +kernel⟩

theorem wit_HostRequestsWaitAndEnd_5 : ∃ (a : Nat) (p : Bool) (rest : List Waiting) (s : State),
    s.cxl.held = .read a p :: rest :=
  ⟨64, true, [.read 0 false], { State.reset with cxl := { State.reset.cxl with held := [.read 64 true, .read 0 false] } }, by decide +kernel⟩

theorem wit_HostRequestsWaitAndEnd_6 : ∃ (a : Nat) (bs : List Byte) (p : Bool) (q : Bool) (rest : List Waiting) (s : State),
    s.cxl.held = .write a bs p q :: rest :=
  ⟨64, [1], false, false, [], { State.reset with cxl := { State.reset.cxl with held := [.write 64 [1] false false] } }, by decide +kernel⟩

theorem wit_RegistersTakeWrites_1 : ∃ (o : Nat) (n : Nat) (v : Word64) (s : State),
    s.glb.vectorsUp = true ∧
    ¬(n = 32 ∧ o % 4 = 0) ∧
    ¬(n = 64 ∧ o % 8 = 0) :=
  ⟨2, 32, 5, readyState, by decide +kernel⟩

theorem wit_RegistersTakeWrites_2 : ∃ (o : Nat) (s : State),
    o % 8 = 0 ∧
    s.wideAt o = true :=
  ⟨0x473108, { State.reset with ctr := [(0x473108, 0x100000002)] }, by decide +kernel⟩

theorem wit_RegistersTakeWrites_3 : ∃ (o : Nat) (s : State),
    o % 8 = 4 :=
  ⟨0x47310C, { State.reset with ctr := [(0x473108, 0x100000002)] }, by decide +kernel⟩

theorem wit_RegistersTakeWrites_4 : ∃ (o : Nat) (s : State),
    o % 4 ≠ 0 :=
  ⟨0x47310A, State.reset, by decide +kernel⟩

theorem wit_RegistersTakeWrites_5 : ∃ (v : Word64) (s : State),
    s.glb.vectorsUp = true :=
  ⟨0xFFFFFFFFFFFFFFFF, readyState, by decide +kernel⟩

theorem wit_RegistersTakeWrites_6 : ∃ (v : Word64) (s : State),
    s.glb.vectorsUp = true :=
  ⟨0xFFFFFFFF, readyState, by decide +kernel⟩

theorem wit_RegistersTakeWrites_7 : ∃ (v : Word64) (s : State),
    s.glb.vectorsUp = true :=
  ⟨0xFFFFFFFF, readyState, by decide +kernel⟩

theorem wit_RegistersTakeWrites_8 : ∃ (v : Word64) (s : State),
    s.glb.vectorsUp = true :=
  ⟨0xFFFFFFFF, readyState, by decide +kernel⟩

theorem wit_RegistersTakeWrites_9 : ∃ (ctrl : Word32) (s : State),
    ctrl.getLsbD 0 = true ∧
    bits ctrl.toNat 3 2 = 1 ∧
    s.err.chkBusy = false ∧
    s.chkDpa < Config.dramBytes ∧
    s.hostHeld = false ∧
    s.bankHeld s.chkDpa = false ∧
    s.burstWaits s.chkDpa = false ∧
    s.dpaLocked s.chkDpa = false :=
  ⟨5, { readyState with err := { Err.reset with chkAddr := BitVec.ofNat 32 (Config.dramBytes / 64 - 1) } }, by decide +kernel⟩

theorem wit_RegistersTakeWrites_10 : ∃ (ctrl : Word32) (s : State),
    ctrl.getLsbD 0 = true ∧
    bits ctrl.toNat 3 2 = 2 ∧
    s.err.chkBusy = false ∧
    s.chkDpa < Config.dramBytes ∧
    s.hostHeld = false ∧
    s.bankHeld s.chkDpa = false ∧
    s.burstWaits s.chkDpa = false ∧
    s.dpaLocked s.chkDpa = false :=
  ⟨9, { readyState with err := { Err.reset with chkAddr := BitVec.ofNat 32 (Config.dramBytes / 64 - 1) } }, by decide +kernel⟩

theorem wit_PacketsTravelAndFieldsFault_1 : ∃ (island : Nat) (d : Nat) (m : Nat) (p : Packet) (h : Held) (s : State),
    s.routerOn island = true ∧
    packetSound p = true ∧
    (s.router island).find p = some h ∧
    packetReserved p = false ∧
    packetKindOk p = true ∧
    packetMcast p = false ∧
    packetDst p ≠ island ∧
    nextDir island (packetDst p) = some d ∧
    neighbour island d = some m ∧
    s.dirFree island p d = true ∧
    (s.router island).goesNext island h = true ∧
    s.dbg.slots = [] :=
  ⟨0, 1, 1, packet0, held0 packet0, meshState 0 [held0 packet0], by decide +kernel⟩

theorem wit_PacketsTravelAndFieldsFault_2 : ∃ (island : Nat) (d : Nat) (p : Packet) (h : Held) (s : State),
    s.routerOn island = true ∧
    packetSound p = true ∧
    (s.router island).find p = some h ∧
    packetReserved p = false ∧
    packetKindOk p = true ∧
    packetMcast p = false ∧
    nextDir island (packetDst p) = some d ∧
    s.dirFree island p d = false :=
  ⟨0, 1, packet0, held0 packet0, { meshState 0 [held0 packet0] with routers := [(0, { RouterSt.reset with queue := [held0 packet0], moving := [1] })] }, by decide +kernel⟩

theorem wit_PacketsTravelAndFieldsFault_3 : ∃ (island : Nat) (p : Packet) (s : State),
    s.routerOn island = true ∧
    packetSound p = true ∧
    (s.router island).find p = none ∧
    s.maySend island p = true ∧
    s.inputOpen island (4 + packetSport p) (packetVc p) = true :=
  ⟨0, packet0, meshState 5 [], by decide +kernel⟩

theorem wit_PacketsTravelAndFieldsFault_4 : ∃ (p : Packet) (h : Held) (s : State),
    s.routerOn (packetDst p) = true ∧
    packetSound p = true ∧
    (s.router (packetDst p)).find p = some h ∧
    packetReserved p = false ∧
    packetKindOk p = true ∧
    packetMcast p = false ∧
    s.portTakes (packetDst p) p = true ∧
    (s.router (packetDst p)).goesNext (packetDst p) h = true ∧
    s.dbg.slots = [] :=
  ⟨packet0, held0 packet0, meshState 5 [held0 packet0], by decide +kernel⟩

theorem wit_PacketsTravelAndFieldsFault_4b : ∃ (p : Packet) (h : Held) (s : State),
    s.routerOn (packetDst p) = true ∧
    packetSound p = true ∧
    (s.router (packetDst p)).find p = some h ∧
    packetReserved p = false ∧
    packetKindOk p = true ∧
    packetMcast p = false ∧
    s.portTakes (packetDst p) p = true ∧
    (s.router (packetDst p)).goesNext (packetDst p) h = true ∧
    s.dbg.slots = [] :=
  ⟨packetOf (5 + 2 ^ 9 + 2 ^ 28 + 2 ^ 37) 1, held0 (packetOf (5 + 2 ^ 9 + 2 ^ 28 + 2 ^ 37) 1), meshState 5 [held0 (packetOf (5 + 2 ^ 9 + 2 ^ 28 + 2 ^ 37) 1)], by decide +kernel⟩

theorem wit_PacketsTravelAndFieldsFault_5 : ∃ (island : Nat) (p : Packet) (h : Held) (s : State),
    s.routerOn island = true ∧
    packetSound p = true ∧
    (s.router island).find p = some h ∧
    packetReserved p = true ∧
    packetSys p = true ∧
    (s.router island).goesNext island h = true ∧
    s.dbg.slots = [] :=
  ⟨255, packetOf (5 + 2 ^ 34 + 2 ^ 37 + 2 ^ 255) 1, held0 (packetOf (5 + 2 ^ 34 + 2 ^ 37 + 2 ^ 255) 1), meshState 255 [held0 (packetOf (5 + 2 ^ 34 + 2 ^ 37 + 2 ^ 255) 1)], by decide +kernel⟩

theorem wit_PacketsTravelAndFieldsFault_6 : ∃ (fid : Nat) (island : Nat) (f : FieldSt) (s : State),
    s.fieldOf fid = some f ∧
    f.faulted = none ∧
    (∀ e ∈ s.rings, e.1 = 0 ∨ e.2.isOpen = false ∨ e.2.field ≠ fid) :=
  ⟨1, 255, field0, { State.reset with fields := [(1, field0)], rings := [(0, ringOf [])] }, by decide +kernel⟩

theorem wit_PacketsTravelAndFieldsFault_7 : ∃ (fid : Nat) (island : Nat) (r : Nat) (f : FieldSt) (s : State),
    s.fieldOf fid = some f ∧
    f.faulted = none ∧
    r ≠ 0 ∧
    (s.ring r).isOpen = true ∧
    (s.ring r).field = fid ∧
    (s.ring r).clauses.any ClauseSt.outstanding = false ∧
    (∀ e ∈ s.rings, e.1 = 0 ∨ e.1 = r ∨ e.2.isOpen = false ∨ e.2.field ≠ fid) :=
  ⟨1, 255, 3, field0, { withRing 3 [] with fields := [(1, field0)] }, by decide +kernel⟩

theorem wit_MeshLinksFailAndMove_1 : ∃ (island : Nat) (dir : Nat) (m : Nat) (control : Bool) (s : State),
    neighbour island dir = some m ∧
    (if control then (s.router island).ctrlFail.getLsbD dir else (s.router island).bulkFail.getLsbD dir) = false ∧
    Tbl.get 0 (s.router island).replays (linkNo dir control) < 3 :=
  ⟨255, 3, 254, true, { State.reset with routers := [(255, { RouterSt.reset with replays := [(7, 2)] })] }, by decide +kernel⟩

theorem wit_MeshLinksFailAndMove_2 : ∃ (island : Nat) (dir : Nat) (m : Nat) (control : Bool) (s : State),
    dir < 4 ∧
    neighbour island dir = some m ∧
    (s.router island).ctrlFail.getLsbD dir = false ∧
    (s.router island).bulkFail.getLsbD dir = false ∧
    3 ≤ Tbl.get 0 (s.router island).replays (linkNo dir control) :=
  ⟨255, 3, 254, true, { State.reset with routers := [(255, { RouterSt.reset with replays := [(7, 3)] })] }, by decide +kernel⟩

theorem wit_MeshLinksFailAndMove_3 : ∃ (island : Nat) (dir : Nat) (m : Nat) (control : Bool) (s : State),
    neighbour island dir = some m ∧
    linkNo dir control ∈ (s.router island).moving :=
  ⟨0, 1, 1, false, { State.reset with routers := [(0, { RouterSt.reset with moving := [1], bulkFail := 2 })] }, by decide +kernel⟩

theorem wit_SyncObjectsGather_1 : ∃ (o : Nat) (n : Nat) (j : Nat) (s : State),
    s.objectKind o ≠ 2 ∧
    n ∈ s.participants o ∧
    s.islandAway n = false ∧
    n ∉ (s.syncObj o).arrived ∧
    j ∈ s.participants o ∧
    j ≠ n ∧
    s.islandAway j = false ∧
    j ∉ (s.syncObj o).arrived :=
  ⟨64, 0, 1, { State.reset with fields := [(1, { field0 with width := 2, syncBase := 64, syncCount := 1 })] }, by decide +kernel⟩

theorem wit_SyncObjectsGather_2 : ∃ (o : Nat) (n : Nat) (s : State),
    s.objectKind o ≠ 2 ∧
    n ∈ s.participants o ∧
    s.islandAway n = false ∧
    n ∉ (s.syncObj o).arrived ∧
    (∀ j ∈ s.participants o, j = n ∨ j ∈ (s.syncObj o).arrived ∨ s.islandAway j = true) ∧
    (s.syncObj o).held = [] :=
  ⟨64, 1, { State.reset with fields := [(1, { field0 with width := 2, syncBase := 64, syncCount := 1 })], sync := [(64, { SyncObj.reset with arrived := [0] })] }, by decide +kernel⟩

theorem wit_SyncObjectsGather_3 : ∃ (o : Nat) (n : Nat) (g : Bool) (s : State),
    s.objectKind o ≠ 2 ∧
    n ∈ s.participants o ∧
    s.islandAway n = false ∧
    n ∈ (s.syncObj o).arrived :=
  ⟨64, 0, true, { State.reset with fields := [(1, { field0 with width := 2, syncBase := 64, syncCount := 1 })], sync := [(64, { SyncObj.reset with arrived := [0] })] }, by decide +kernel⟩

theorem wit_SyncObjectsGather_4 : ∃ (o : Nat) (n : Nat) (s : State),
    s.objectKind o ≠ 1 ∧
    n ∈ s.participants o ∧
    s.islandAway n = false ∧
    s.flagOwner o = none :=
  ⟨64, 0, { State.reset with fields := [(1, { field0 with width := 2, syncBase := 64, syncCount := 1 })], sync := [(64, { SyncObj.reset with kind := 2 })] }, by decide +kernel⟩

theorem wit_SyncObjectsGather_4b : ∃ (o : Nat) (n : Nat) (s : State),
    s.objectKind o ≠ 1 ∧
    n ∈ s.participants o ∧
    s.islandAway n = false ∧
    s.flagOwner o = none :=
  ⟨0, 255, State.reset, by decide +kernel⟩

theorem wit_SyncObjectsGather_5 : ∃ (o : Nat) (n : Nat) (k : Nat) (x : StepSt) (s : State),
    s.objectKind o ≠ 1 ∧
    n ∈ s.participants o ∧
    s.islandAway n = false ∧
    s.flagOwner o = some k ∧
    s.stepOf k = some x :=
  ⟨255, 0, 1, { StepSt.fresh with flag := 255 }, { State.reset with fields := [(1, { field0 with syncBase := 255, syncCount := 1 })], steps := [(1, { StepSt.fresh with flag := 255 })] }, by decide +kernel⟩

theorem wit_SyncObjectsGather_7 : ∃ (o : Nat) (n : Nat) (g : Bool) (v : Bool) (s : State),
    (n ∉ s.participants o ∨ s.islandAway n = true) :=
  ⟨64, 0, true, true, State.reset, by decide +kernel⟩

theorem wit_ReductionSlotsFormSums_1 : ∃ (r : Nat) (k : Nat) (n : Nat) (step : Nat) (red : Reduction) (c : ClauseSt) (f : FieldSt) (s : State),
    (s.ring r).clauseAt k = some c ∧
    c.phase = .started ∧
    c.worked = false ∧
    reduces c.bits = true ∧
    s.fieldOf (s.ring r).field = some f ∧
    red.ranks.all (fun i => f.cores.contains i) = true ∧
    (s.reducing.find? (fun y => y.ring == r && y.index == c.index && y.red.red == red.red)).all (fun y => decide (y.red = red) && !y.ready) = true ∧
    s.nextReserve r c.index red = some (step, n) ∧
    s.slotsUsed n f.paren < s.slotShare n f.paren :=
  ⟨3, 0, 1, 1, red0, clauseOf 0x30 0, { field0 with width := 2 }, slotState [Slot.fresh 3 0 0 false 5 0] [{ ring := 3, index := 0, red := red0, ready := false }], by decide +kernel⟩

theorem wit_ReductionSlotsFormSums_1b : ∃ (r : Nat) (k : Nat) (n : Nat) (step : Nat) (red : Reduction) (c : ClauseSt) (f : FieldSt) (s : State),
    (s.ring r).clauseAt k = some c ∧
    c.phase = .started ∧
    c.worked = false ∧
    reduces c.bits = true ∧
    s.fieldOf (s.ring r).field = some f ∧
    red.ranks.all (fun i => f.cores.contains i) = true ∧
    (s.reducing.find? (fun y => y.ring == r && y.index == c.index && y.red.red == red.red)).all (fun y => decide (y.red = red) && !y.ready) = true ∧
    s.nextReserve r c.index red = some (step, n) ∧
    s.slotsUsed n f.paren < s.slotShare n f.paren :=
  ⟨3, 0, 0, 0, red0, clauseOf 0x30 0, { field0 with width := 2 }, slotState [] [], by decide +kernel⟩

theorem wit_ReductionSlotsFormSums_2 : ∃ (r : Nat) (k : Nat) (n : Nat) (step : Nat) (red : Reduction) (c : ClauseSt) (f : FieldSt) (s : State),
    (s.ring r).clauseAt k = some c ∧
    c.phase = .started ∧
    c.worked = false ∧
    reduces c.bits = true ∧
    s.fieldOf (s.ring r).field = some f ∧
    red.ranks.all (fun i => f.cores.contains i) = true ∧
    (s.reducing.find? (fun y => y.ring == r && y.index == c.index && y.red.red == red.red)).all (fun y => decide (y.red = red) && !y.ready) = true ∧
    s.nextReserve r c.index red = some (step, n) ∧
    s.slotShare n f.paren ≤ s.slotsUsed n f.paren ∧
    (r, c.index) ∉ (s.router n).waiters :=
  ⟨3, 0, 0, 0, red0, clauseOf 0x30 0, { field0 with width := 2 }, slotState (List.replicate 24 (Slot.fresh 4 0 0 false 7 0)) [], by decide +kernel⟩

theorem wit_ReductionSlotsFormSums_3 : ∃ (n : Nat) (unit : Nat) (i : Nat) (flit : SumFlit) (x : Slot) (q : Reducing) (s : State),
    (s.slots.filter (fun y => y.island == n))[unit]? = some x ∧
    s.reducing.find? (fun y => y.ring == x.ring && y.index == x.index && y.red.red == x.red) = some q ∧
    q.ready = true ∧
    Tbl.find x.sums i = none ∧
    i = x.arrived ∧
    i < q.red.blocks.getD x.block 0 ∧
    x.credits ≠ 0 ∧
    s.slotBefore x = none :=
  ⟨0, 0, 1, sum0, { Slot.fresh 3 0 0 false 5 0 with sums := [(0, sum0)], credits := 511 }, { ring := 3, index := 0, red := red0, ready := true }, slotState [{ Slot.fresh 3 0 0 false 5 0 with sums := [(0, sum0)], credits := 511 }] [{ ring := 3, index := 0, red := red0, ready := true }], by decide +kernel⟩

theorem wit_ReductionSlotsFormSums_4 : ∃ (n : Nat) (unit : Nat) (i : Nat) (flit : SumFlit) (sum : SumFlit) (l : List SumFlit) (x : Slot) (q : Reducing) (s : State),
    (s.slots.filter (fun y => y.island == n))[unit]? = some x ∧
    s.reducing.find? (fun y => y.ring == x.ring && y.index == x.index && y.red.red == x.red) = some q ∧
    q.ready = true ∧
    Tbl.find x.sums i = some sum ∧
    l.length = stepRanks q.red x.step ∧
    (x.step + 1 = (cutSteps q.red.ranks).length → x.gone + 1 < q.red.blocks.getD x.block 0) :=
  ⟨0, 0, 0, sum0, sum0, [sum0, sum0], { Slot.fresh 3 0 0 false 5 0 with sums := [(0, sum0)], credits := 511 }, { ring := 3, index := 0, red := red0, ready := true }, slotState [{ Slot.fresh 3 0 0 false 5 0 with sums := [(0, sum0)], credits := 511 }, Slot.fresh 3 0 1 false 5 1] [{ ring := 3, index := 0, red := red0, ready := true }], by decide +kernel⟩

theorem wit_ReductionSlotsFormSums_4b : ∃ (n : Nat) (unit : Nat) (i : Nat) (flit : SumFlit) (sum : SumFlit) (l : List SumFlit) (x : Slot) (q : Reducing) (s : State),
    (s.slots.filter (fun y => y.island == n))[unit]? = some x ∧
    s.reducing.find? (fun y => y.ring == x.ring && y.index == x.index && y.red.red == x.red) = some q ∧
    q.ready = true ∧
    Tbl.find x.sums i = some sum ∧
    l.length = stepRanks q.red x.step ∧
    (x.step + 1 = (cutSteps q.red.ranks).length → x.gone + 1 < q.red.blocks.getD x.block 0) :=
  ⟨1, 0, 0, sum0, sum0, [sum0], { Slot.fresh 3 0 1 false 5 1 with sums := [(0, sum0)], credits := 511 }, { ring := 3, index := 0, red := red0, ready := true }, slotState [Slot.fresh 3 0 0 false 5 0, { Slot.fresh 3 0 1 false 5 1 with sums := [(0, sum0)], credits := 511 }] [{ ring := 3, index := 0, red := red0, ready := true }], by decide +kernel⟩

theorem wit_FramesTravel_1 : ∃ (p : Nat) (f : Frame) (s : State),
    (s.port p).state ≠ 0 ∧
    s.dbg.slots = [] ∧
    badBlock f = true :=
  ⟨0, { frame0 with fec := [[1], List.range 16] }, portState 0 { PortSt.reset with state := 1 }, by decide +kernel⟩

theorem wit_FramesTravel_2 : ∃ (p : Nat) (f : Frame) (s : State),
    (s.port p).state ≠ 0 ∧
    s.dbg.slots = [] ∧
    f.fec = [] ∧
    frameCrc f ≠ f.fcrc ∧
    frameTrailerCrc f ≠ f.tcrc :=
  ⟨11, frame0, portState 11 upPort, by decide +kernel⟩

theorem wit_FramesTravel_3 : ∃ (p : Nat) (f : Frame) (s : State),
    2 ≤ (s.port p).state.toNat ∧
    s.dbg.slots = [] ∧
    f.fec = [] ∧
    frameCrc f = f.fcrc ∧
    frameTrailerCrc f ≠ f.tcrc ∧
    f.vc ≠ 7 ∧
    f.seq ≠ (s.port p).rxSeq :=
  ⟨11, sealed { frame0 with seq := 4095 }, portState 11 upPort, by decide +kernel⟩

theorem wit_FramesTravel_4 : ∃ (p : Nat) (f : Frame) (s : State),
    2 ≤ (s.port p).state.toNat ∧
    s.dbg.slots = [] ∧
    f.fec = [] ∧
    frameCrc f = f.fcrc ∧
    frameTrailerCrc f ≠ f.tcrc ∧
    f.vc ≠ 7 ∧
    f.seq = (s.port p).rxSeq ∧
    (frameKindOk f && frameShapeOk f) = false :=
  ⟨11, sealed { frame0 with seq := 4095, kind := 2 }, portState 11 { upPort with rxSeq := 4095 }, by decide +kernel⟩

theorem wit_FramesTravel_5 : ∃ (p : Nat) (q : Nat) (f : Frame) (s : State),
    (s.port p).state = 2 ∧
    s.dbg.slots = [] ∧
    f.fec = [] ∧
    frameCrc f = f.fcrc ∧
    frameTrailerCrc f ≠ f.tcrc ∧
    f.vc ≠ 7 ∧
    f.vc ≠ 1 ∧
    f.seq = (s.port p).rxSeq ∧
    frameKindOk f = true ∧
    frameShapeOk f = true ∧
    f.dst ≠ s.applied.deviceId.toNat ∧
    f.hops ≠ 0 ∧
    s.routePort f.dst = some q ∧
    s.mayCarry q { f with hops := f.hops - 1 } = true ∧
    (s.port q).room f = true ∧
    (s.port q).txQueue = [] :=
  ⟨2, 4, sealed { frame0 with dst := 5, src := 9, payload := List.replicate 32 0 }, chainDevice, by decide +kernel⟩

theorem wit_FramesTravel_6 : ∃ (p : Nat) (q : Nat) (e : Queued) (s : State),
    s.queuedFind (fun o x => x.frame.resent && (o == p || x.pool == p)) = some (q, e) :=
  ⟨2, 4, { pool := 2, frame := { frame0 with resent := true }, lost := 0 }, { chainDevice with ports := [(2, upPort), (4, { upPort with txQueue := [{ pool := 2, frame := { frame0 with resent := true }, lost := 0 }] })] }, by decide +kernel⟩

theorem wit_FramesTravel_7 : ∃ (p : Nat) (q : Nat) (vc : Nat) (e : Queued) (s : State),
    2 ≤ vc ∧
    s.queuedFind (fun _ x => x.pool == p && x.frame.vc == vc) = some (q, e) :=
  ⟨2, 4, 4, { pool := 2, frame := frame0, lost := 0 }, { chainDevice with ports := [(2, upPort), (4, { upPort with txQueue := [{ pool := 2, frame := frame0, lost := 0 }] })] }, by decide +kernel⟩

theorem wit_PortsRetryAndFail_1 : ∃ (p : Nat) (s : State),
    (s.port p).state = 2 ∧
    (s.port p).unacked ≠ [] ∧
    (s.port p).laneMove = false ∧
    (s.port p).resends < 4 :=
  ⟨0, portState 0 { upPort with unacked := [frame0], resends := 3 }, by decide +kernel⟩

theorem wit_PortsRetryAndFail_2 : ∃ (p : Nat) (s : State),
    2 ≤ (s.port p).state.toNat ∧
    (s.port p).unacked ≠ [] ∧
    (s.port p).laneMove = false ∧
    4 ≤ (s.port p).resends :=
  ⟨0, portState 0 { upPort with unacked := [frame0], resends := 4 }, by decide +kernel⟩

theorem wit_PortsRetryAndFail_3 : ∃ (p : Nat) (s : State),
    (s.port p).unacked ≠ [] :=
  ⟨0, portState 0 { upPort with unacked := [frame0] }, by decide +kernel⟩

theorem wit_PortsRetryAndFail_4 : ∃ (p : Nat) (s : State),
    (s.port p).state ≠ 0 ∧
    (s.port p).unacked = [] ∧
    (s.port p).txQueue = [] ∧
    s.parentPort ≠ some p :=
  ⟨4, chainDevice, by decide +kernel⟩

theorem wit_PortsRetryAndFail_5 : ∃ (p : Nat) (lane : Nat) (s : State),
    2 ≤ (s.port p).state.toNat ∧
    (s.port p).badLanes = 0 ∧
    (s.port p).peerBad = 0 ∧
    (s.port p).half = false ∧
    lane < 8 :=
  ⟨4, 7, chainDevice, by decide +kernel⟩

theorem wit_PortsRetryAndFail_6 : ∃ (p : Nat) (s : State),
    (s.port p).state = 2 ∧
    (s.port p).laneMove = true :=
  ⟨4, { chainDevice with ports := [(4, { upPort with laneMove := true })] }, by decide +kernel⟩

theorem wit_PortsTrainAndKeepTime_1 : ∃ (p : Nat) (s : State),
    (s.port p).state.toNat < 2 ∧
    3 ≤ s.glb.step.toNat ∧
    s.pwr.refclk = true ∧
    (s.port p).badLanes = 0 :=
  ⟨11, { State.reset with glb := { Glb.reset with step := 3 } }, by decide +kernel⟩

theorem wit_PortsTrainAndKeepTime_2 : ∃ (p : Nat) (s : State),
    (s.port p).state.toNat < 2 ∧
    3 ≤ s.glb.step.toNat ∧
    s.pwr.refclk = true ∧
    (s.port p).badLanes = 0 :=
  ⟨11, { State.reset with glb := { Glb.reset with step := 3 } }, by decide +kernel⟩

theorem wit_PortsTrainAndKeepTime_3 : ∃ (p : Nat) (f : Frame) (s : State),
    s.inboxFind p (fun x => x.vc == 7 && x.kind == 1) = some f ∧
    (s.port p).state ≠ 0 :=
  ⟨4, { frame0 with vc := 7, kind := 1 }, { chainDevice with lnk := { Lnk.reset with inbox := [(4, { frame0 with vc := 7, kind := 1 })] } }, by decide +kernel⟩

theorem wit_PortsTrainAndKeepTime_4 : ∃ (s : State),
    s.parentPort = none :=
  ⟨{ State.reset with applied := { Shadow.reset with syncRoot := true } }, by decide +kernel⟩

theorem wit_PortsTrainAndKeepTime_5 : ∃ (island : Nat) (cycles : Nat) (w : Word64) (s : State),
    s.parentPort = none :=
  ⟨3, 1500, 7, { State.reset with applied := { Shadow.reset with syncRoot := true } }, by decide +kernel⟩

theorem wit_PortsTrainAndKeepTime_5b : ∃ (island : Nat) (cycles : Nat) (w : Word64) (s : State),
    s.parentPort = none :=
  ⟨255, 0, 6, { State.reset with time := 7, applied := { Shadow.reset with syncRoot := true } }, by decide +kernel⟩

theorem wit_PortsTrainAndKeepTime_6 : ∃ (p : Nat) (s : State),
    s.parentPort = some p ∧
    2 ≤ (s.port p).state.toNat :=
  ⟨2, chainDevice, by decide +kernel⟩

theorem wit_PortsTrainAndKeepTime_7 : ∃ (p : Nat) (t1 : Nat) (t4 : Nat) (theta8 : Int) (f : Frame) (s : State),
    s.inboxFind p (fun x => x.vc == 7 && x.kind == 2) = some f ∧
    (s.port p).timeT1 = some t1 ∧
    theta8 = (((identField f 8 8 : Int) - t1) - ((t4 : Int) - identField f 0x10 8)) / 2 :=
  ⟨2, 100, 180, (-140), { frame0 with vc := 7, kind := 2 }, { chainDevice with ports := [(2, { upPort with timeT1 := some 100 })], lnk := { Lnk.reset with inbox := [(2, { frame0 with vc := 7, kind := 2 })] } }, by decide +kernel⟩

theorem wit_EpochsRun_1 : ∃ (w : Word64) (s : State),
    s.epoch.active = true ∧
    bitAt w.toNat 31 = true :=
  ⟨0x80000000, epochState 1, by decide +kernel⟩

theorem wit_EpochsRun_2 : ∃ (w : Word64) (s : State),
    s.epoch.active = false ∧
    bitAt w.toNat 31 = true ∧
    bitAt w.toNat 29 = false ∧
    s.staged.changed s.applied = [] :=
  ⟨0x80000000, { State.reset with glb := { Glb.reset with step := 6 } }, by decide +kernel⟩

theorem wit_EpochsRun_3 : ∃ (w : Word64) (s : State),
    s.epoch.active = false ∧
    bitAt w.toNat 31 = true ∧
    s.staged.changed s.applied ≠ [] ∧
    s.glb.step.toNat < 3 :=
  ⟨0x80000000, { State.reset with staged := { Shadow.reset with hopLimit := 1 }, glb := { Glb.reset with step := 2 } }, by decide +kernel⟩

theorem wit_EpochsRun_4 : ∃ (w : Word64) (s : State),
    s.epoch.active = false ∧
    bitAt w.toNat 31 = true ∧
    s.staged.changed s.applied ≠ [] ∧
    3 ≤ s.glb.step.toNat :=
  ⟨0x80000000, { State.reset with staged := { Shadow.reset with hopLimit := 1 }, glb := { Glb.reset with step := 3 } }, by decide +kernel⟩

theorem wit_EpochsRun_5 : ∃ (s : State),
    s.epoch.active = true ∧
    s.epoch.waiting = false ∧
    s.glb.epState = 1 ∧
    s.drained = true ∧
    s.epoch.chain = false :=
  ⟨epochState 1, by decide +kernel⟩

theorem wit_EpochsRun_6 : ∃ (p : Nat) (s : State),
    s.epoch.active = true ∧
    s.epoch.waiting = false ∧
    s.glb.epState = 1 ∧
    s.drained = true ∧
    s.epoch.chain = true ∧
    p ∈ s.childPorts ∧
    Tbl.find s.epoch.wave.inputs p = none :=
  ⟨3, { epochState 1 with epoch := { (epochState 1).epoch with chain := true } }, by decide +kernel⟩

theorem wit_EpochsRun_7 : ∃ (s : State),
    s.epoch.active = true ∧
    s.epoch.waiting = false ∧
    s.glb.epState = 1 ∧
    s.epoch.chain = false :=
  ⟨epochState 1, by decide +kernel⟩

theorem wit_EpochsRun_8 : ∃ (s : State),
    s.epoch.active = true ∧
    s.epoch.applied = false ∧
    s.epoch.chain = false ∧
    s.epoch.decided = some true ∧
    4 ∉ s.epoch.rows :=
  ⟨{ epochState 3 with epoch := { (epochState 3).epoch with decided := some true } }, by decide +kernel⟩

theorem wit_SyncTreeGathersAndReleases_1 : ∃ (p : Nat) (j : Nat) (f : Frame) (s : State),
    s.nextSync p 0 = some f ∧
    (parseSync f.arg).object = 0 ∧
    (parseSync f.arg).gen = s.lnk.wave0.gen ∧
    s.lnk.wave0.released = none ∧
    j ∈ s.childPorts ∧
    j ≠ p ∧
    Tbl.find s.lnk.wave0.inputs j = none :=
  ⟨3, 4, syncFrame 0 (2 ^ 13), { chainDevice with applied := { chainDevice.applied with syncChildren := 24 }, lnk := { Lnk.reset with inbox := [(3, syncFrame 0 (2 ^ 13))] } }, by decide +kernel⟩

theorem wit_SyncTreeGathersAndReleases_2 : ∃ (p : Nat) (j : Nat) (f : Frame) (s : State),
    s.nextSync p 0 = some f ∧
    (parseSync f.arg).object = 1 ∧
    (parseSync f.arg).gen = s.epoch.wave.gen ∧
    s.epoch.wave.released = none ∧
    j ∈ s.childPorts ∧
    j ≠ p ∧
    Tbl.find s.epoch.wave.inputs j = none :=
  ⟨3, 4, syncFrame 0 1, { chainDevice with applied := { chainDevice.applied with syncChildren := 24 }, lnk := { Lnk.reset with inbox := [(3, syncFrame 0 1)] } }, by decide +kernel⟩

theorem wit_SyncTreeGathersAndReleases_3 : ∃ (p : Nat) (o : Nat) (f : Frame) (s : State),
    s.nextSync p 1 = some f ∧
    (parseSync f.arg).object = 0 ∧
    (parseSync f.arg).gen = s.lnk.wave0.gen ∧
    s.lnk.wave0.released = none ∧
    s.waveOwner = some o :=
  ⟨2, 1, syncFrame 1 (2 ^ 13), { chainDevice with lnk := { Lnk.reset with inbox := [(2, syncFrame 1 (2 ^ 13))] }, fields := [(1, field0)], steps := [(1, { StepSt.fresh with chain := true })] }, by decide +kernel⟩

theorem wit_SyncTreeGathersAndReleases_4 : ∃ (p : Nat) (f : Frame) (s : State),
    s.nextSync p 1 = some f ∧
    (parseSync f.arg).object = 1 ∧
    (parseSync f.arg).gen = s.epoch.wave.gen ∧
    s.epoch.wave.released = none ∧
    s.chainEpoch = true ∧
    s.epoch.decided = none :=
  ⟨2, syncFrame 1 1, { epochState 2 with epoch := { (epochState 2).epoch with chain := true }, lnk := { Lnk.reset with inbox := [(2, syncFrame 1 1)] } }, by decide +kernel⟩

theorem wit_SyncTreeGathersAndReleases_5 : ∃ (s : State),
    s.applied.syncRoot = true ∧
    (s.epoch.wave.own.isSome = true ∨ s.epoch.wave.inputs ≠ []) ∧
    s.epoch.wave.released = none ∧
    s.chainEpoch = true ∧
    s.epoch.decided = none :=
  ⟨{ epochState 2 with applied := { (epochState 2).applied with syncRoot := true }, epoch := { (epochState 2).epoch with chain := true, wave := { Wave.idle with own := some (false, 1) } } }, by decide +kernel⟩

theorem wit_SyncTreeGathersAndReleases_6 : ∃ (go : Bool) (o : Bool × Bool) (s : State),
    s.epoch.decided = some go ∧
    s.epoch.wave.released = some o ∧
    s.chainEpoch = true ∧
    s.epoch.applied = true ∧
    s.inReset = false ∧
    8 ∉ s.epoch.rows :=
  ⟨true, (false, false), { epochState 3 with epoch := { (epochState 3).epoch with chain := true, applied := true, decided := some true, wave := { Wave.idle with own := some (false, 1), released := some (false, false) } } }, by decide +kernel⟩

theorem wit_PowerIsShared_6 : ∃ (d : Nat) (r : Nat) (ma : Nat) (t8 : Int) (s : State),
    (4 * ma < domMaxMa d ∨ (s.dom d).power = 3) :=
  ⟨0, 0, 0, 480, State.reset, by decide +kernel⟩

theorem wit_PowerIsShared_7 : ∃ (d : Nat) (r : Nat) (ma : Nat) (t8 : Int) (s : State),
    domMaxMa d ≤ 4 * ma ∧
    (s.dom d).power ≠ 3 ∧
    (s.dom d).pathSum.length < 999 :=
  ⟨0, 5, 100000, 480, { State.reset with doms := [(0, { DomSt.reset with pathSum := List.replicate 998 5 })] }, by decide +kernel⟩

theorem wit_PowerIsShared_8 : ∃ (d : Nat) (r : Nat) (ma : Nat) (f : Nat) (k : Nat) (t8 : Int) (s : State),
    domMaxMa d ≤ 4 * ma ∧
    (s.dom d).power ≠ 3 ∧
    (s.dom d).pathSum.length = 1000 ∧
    f = sumOf (at60 r t8 :: (s.dom d).pathSum.take 999) / 1000 ∧
    k = pathStep (s.dom d).baseline.toNat f ∧
    (s.dom d).derate.toNat < k ∧
    k < 3 :=
  ⟨0, 131, 100000, 131, 2, 480, { State.reset with doms := [(0, { DomSt.reset with power := 2, baseline := 100, pathSum := List.replicate 1000 131, derate := 1 })] }, by decide +kernel⟩

theorem wit_SagsAndTelemetry_1 : ∃ (mv : Nat) (s : State),
    min (sagLevel mv) s.pwr.sagPrev ≤ s.pwr.sagStage :=
  ⟨1800, State.reset, by decide +kernel⟩

theorem wit_SagsAndTelemetry_2 : ∃ (mv : Nat) (k : Nat) (s : State),
    k = min (sagLevel mv) s.pwr.sagPrev ∧
    s.pwr.sagStage < k ∧
    k < 5 :=
  ⟨1200, 4, { State.reset with pwr := { Pwr.reset with sagPrev := 4, sagStage := 1 } }, by decide +kernel⟩

theorem wit_SagsAndTelemetry_3 : ∃ (mv : Nat) (s : State),
    min (sagLevel mv) s.pwr.sagPrev = 5 ∧
    s.pwr.sagStage < 5 ∧
    s.glb.ready = true ∧
    s.glb.rstState = 0 :=
  ⟨0, { State.reset with glb := { Glb.reset with ready := true, step := 6 }, pwr := { Pwr.reset with sagPrev := 5, sagStage := 4 } }, by decide +kernel⟩

theorem wit_SagsAndTelemetry_4 : ∃ (s : State),
    s.pwr.sagStage ≠ 0 ∧
    s.pwr.sagStage < 5 ∧
    sagThreshold s.pwr.sagStage + 20 ≤ s.pwr.vinMv ∧
    s.pwr.railStage < s.pwr.sagStage ∧
    s.glb.collapsed = false :=
  ⟨{ State.reset with pwr := { Pwr.reset with sagStage := 4, vinMv := sagThreshold 4 + 20 } }, by decide +kernel⟩

theorem wit_SagsAndTelemetry_5 : ∃ (s : State),
    (s.pwr.vinMv < sagThreshold s.pwr.sagStage + 20 ∨ s.pwr.sagStage ≤ s.pwr.railStage) :=
  ⟨{ State.reset with pwr := { Pwr.reset with sagStage := 4, vinMv := sagThreshold 4 + 19 } }, by decide +kernel⟩

theorem wit_SagsAndTelemetry_6 : ∃ (vdd : Nat) (vpp : Nat) (s : State),
    1040 ≤ vdd ∧
    1700 ≤ vpp :=
  ⟨1040, 1700, State.reset, by decide +kernel⟩

theorem wit_SagsAndTelemetry_7 : ∃ (vdd : Nat) (vpp : Nat) (s : State),
    1000 ≤ vdd ∧
    vdd < 1040 ∧
    1700 ≤ vpp ∧
    s.pwr.sagStage < 2 :=
  ⟨1000, 1700, State.reset, by decide +kernel⟩

theorem wit_SagsAndTelemetry_8 : ∃ (x : TelemetryInput) (s : State),
    s.pwr.tlmEn = true :=
  ⟨{ sagMax := 0, hold := false, liveMin := 0, energy := 0, domI := [], vddI := [], vppI := [] }, { State.reset with pwr := { Pwr.reset with tlmEn := true } }, by decide +kernel⟩

theorem wit_SagsAndTelemetry_9 : ∃ (x : TelemetryInput) (s : State),
    s.pwr.tlmEn = false :=
  ⟨{ sagMax := 0, hold := false, liveMin := 0, energy := 0, domI := [], vddI := [], vppI := [] }, State.reset, by decide +kernel⟩

theorem wit_RegulatorsFailAndBridge_1 : ∃ (d : Nat) (ph : Nat) (s : State),
    ph ∉ (s.dom d).failed ∧
    (s.dom d).power ≠ 3 :=
  ⟨255, 3, domState [(255, domOn)], by decide +kernel⟩

theorem wit_RegulatorsFailAndBridge_2 : ∃ (d : Nat) (s : State),
    d < 256 ∧
    (s.dom d).power ≠ 3 ∧
    (s.dom d).regOk = true ∧
    s.mayBridge (groupSide d) = true :=
  ⟨0, domState [(0, domOn), (1, domOn)], by decide +kernel⟩

theorem wit_RegulatorsFailAndBridge_3 : ∃ (d : Nat) (s : State),
    256 ≤ d ∧
    (s.dom d).power ≠ 3 ∧
    (s.dom d).regOk = true ∧
    s.bypassAdmits d = true :=
  ⟨256, { domState [(256, domOn)] with pwr := { Pwr.reset with vbyp := true } }, by decide +kernel⟩

theorem wit_RegulatorsFailAndBridge_4 : ∃ (d : Nat) (s : State),
    256 ≤ d ∧
    (s.dom d).power ≠ 3 ∧
    (s.dom d).regOk = true ∧
    s.bypassAdmits d = false :=
  ⟨256, domState [(256, domOn)], by decide +kernel⟩

theorem wit_RegulatorsFailAndBridge_5 : ∃ (d : Nat) (p : Nat) (s : State),
    (s.dom d).switching = some p ∧
    p < 256 :=
  ⟨0, 255, domState [(0, { domOn with switching := some 255 }), (255, domOn)], by decide +kernel⟩

theorem wit_RegulatorsFailAndBridge_6 : ∃ (d : Nat) (p : Nat) (s : State),
    (s.dom d).switching = some p ∧
    256 ≤ p :=
  ⟨256, 256, domState [(256, { domOn with switching := some 256 })], by decide +kernel⟩

theorem wit_RegulatorsFailAndBridge_7 : ∃ (d : Nat) (p : Nat) (s : State),
    (s.dom d).switching = some p ∧
    256 ≤ d :=
  ⟨256, 0x1FF, domState [(256, { domOn with switching := some 0x1FF })], by decide +kernel⟩

theorem wit_RegulatorsFailAndBridge_8 : ∃ (d : Nat) (i : Nat) (mv : Nat) (n : Nat) (s : State),
    mv ≤ 40 :=
  ⟨0, 0, 40, 5, State.reset, by decide +kernel⟩

theorem wit_RegulatorsFailAndBridge_9 : ∃ (d : Nat) (i : Nat) (mv : Nat) (n : Nat) (s : State),
    40 < mv ∧
    watches d i = true :=
  ⟨0, 0, 41, 5, State.reset, by decide +kernel⟩

theorem wit_RegulatorsFailAndBridge_9b : ∃ (d : Nat) (i : Nat) (mv : Nat) (n : Nat) (s : State),
    40 < mv ∧
    watches d i = true :=
  ⟨playaDomain 255, 255, 71, 5, State.reset, by decide +kernel⟩

theorem wit_RegulatorsFailAndBridge_10 : ∃ (d : Nat) (i : Nat) (mv : Nat) (n : Nat) (s : State),
    40 < mv ∧
    watches d i = false :=
  ⟨256, 0, 41, 1, State.reset, by decide +kernel⟩

theorem wit_RegulatorsFailAndBridge_11 : ∃ (n : Nat) (s : State),
    (s.core n).stretch = 0 :=
  ⟨0, State.reset, by decide +kernel⟩

theorem wit_RegulatorsFailAndBridge_12 : ∃ (n : Nat) (s : State),
    (s.core n).stretch ≠ 0 :=
  ⟨255, { domState [(255, { domOn with stretchAt := some 0 })] with cores := [(255, { CoreSt.reset with stretch := 25 })] }, by decide +kernel⟩

theorem wit_DomainsSleepAndWake_1 : ∃ (n : Nat) (s : State),
    s.pwr.gateEn = true ∧
    (s.dom n).power = 2 ∧
    (s.core n).qMain = [] ∧
    (s.core n).qParen = [] ∧
    (s.core n).imgMain = .standard ∧
    (s.core n).imgParen = .standard :=
  ⟨0, { domState [(0, domOn)] with pwr := { Pwr.reset with gateEn := true }, cores := [(0, { CoreSt.reset with imgMain := .standard, imgParen := .standard })] }, by decide +kernel⟩

theorem wit_DomainsSleepAndWake_2 : ∃ (n : Nat) (s : State),
    s.pwr.gateEn = false :=
  ⟨0, domState [(0, domOn)], by decide +kernel⟩

theorem wit_DomainsSleepAndWake_3 : ∃ (d : Nat) (s : State),
    d < 256 ∧
    s.domCovered d = true ∧
    s.glb.ready = true ∧
    s.glb.rstState = 0 ∧
    (s.dom d).power = 0 ∧
    d ∉ s.pwr.wakes ∧
    d ∉ s.pwr.tokens ∧
    (s.dom (playaDomain d)).power ≠ 0 :=
  ⟨0, { domState [(272, domOn)] with fields := [(1, field0)], glb := { Glb.reset with ready := true } }, by decide +kernel⟩

theorem wit_DomainsSleepAndWake_4 : ∃ (d : Nat) (rest : List Nat) (s : State),
    s.pwr.tokens.length < 8 ∧
    s.pwr.wakes = d :: rest ∧
    d ∉ rest ∧
    s.grantable d = true ∧
    s.guards d = [] :=
  ⟨0, [1], { domState [(272, domOn)] with pwr := { Pwr.reset with wakes := [0, 1] } }, by decide +kernel⟩

theorem wit_DomainsSleepAndWake_5 : ∃ (d : Nat) (rest : List Nat) (s : State),
    s.pwr.tokens.length < 8 ∧
    s.pwr.wakes = d :: rest ∧
    d ∉ rest ∧
    s.grantable d = true ∧
    s.guards d ≠ [] :=
  ⟨0, [], { domState [(1, { domOn with stretchAt := some 0 }), (272, domOn)] with time := 20000, pwr := { Pwr.reset with wakes := [0] } }, by decide +kernel⟩

theorem wit_DomainsSleepAndWake_6 : ∃ (d : Nat) (s : State),
    8 ≤ s.pwr.tokens.length :=
  ⟨0, { State.reset with pwr := { Pwr.reset with tokens := [0, 4, 8, 12, 64, 68, 72, 76] } }, by decide +kernel⟩

theorem wit_DomainsSleepAndWake_7 : ∃ (d : Nat) (s : State),
    d ∈ s.pwr.tokens ∧
    (s.dom d).ramp = 0 ∧
    (s.dom d).power = 0 ∧
    s.guards d = [] :=
  ⟨0, { State.reset with pwr := { Pwr.reset with tokens := [0] } }, by decide +kernel⟩

theorem wit_DomainsSleepAndWake_8 : ∃ (d : Nat) (s : State),
    d ∈ s.pwr.tokens ∧
    (s.dom d).ramp = 0 ∧
    (s.dom d).power = 0 ∧
    s.guards d ≠ [] :=
  ⟨0, { domState [(1, { domOn with stretchAt := some 0 })] with pwr := { Pwr.reset with tokens := [0] } }, by decide +kernel⟩

theorem wit_DomainsSleepAndWake_9 : ∃ (d : Nat) (s : State),
    (s.dom d).power = 1 ∧
    (s.dom d).ramp < 4 :=
  ⟨0, domState [(0, { domOn with power := 1, ramp := 3 })], by decide +kernel⟩

theorem wit_DomainsSleepAndWake_10 : ∃ (d : Nat) (s : State),
    (s.dom d).power = 1 ∧
    4 ≤ (s.dom d).ramp :=
  ⟨0, { domState [(0, { domOn with power := 1, ramp := 4 })] with pwr := { Pwr.reset with tokens := [0] } }, by decide +kernel⟩

theorem wit_DomainsSleepAndWake_11 : ∃ (n : Nat) (s : State),
    n < 256 ∧
    (s.dom n).power = 2 ∧
    s.glb.kstoreOk = true ∧
    (s.core n).mappedOut = false ∧
    (s.core n).imgMain = .empty ∧
    (s.core n).imgParen = .empty :=
  ⟨0, { domState [(0, domOn)] with glb := { Glb.reset with kstoreOk := true } }, by decide +kernel⟩

theorem wit_SensorsActAndTrip_1 : ∃ (k : Nat) (x : Int) (s : State),
    (s.sensor k).state = 3 :=
  ⟨0, 1000, sensorState 0 { SensorSt.reset with state := 3 }, by decide +kernel⟩

theorem wit_SensorsActAndTrip_2 : ∃ (k : Nat) (x : Int) (s : State),
    (s.sensor k).state = 0 ∧
    s.sensorOffset k = 0 ∧
    (∀ e, emergAt (sensorTier k) = some e → x ≤ e) ∧
    (∀ e, tripAt (sensorTier k) = some e → x ≤ e) :=
  ⟨0, 840, State.reset, ⟨by decide, by decide, fun e h => by have h' : (840 : Int) = e := Option.some.inj h; omega, fun e h => by have h' : (880 : Int) = e := Option.some.inj h; omega⟩⟩

theorem wit_SensorsActAndTrip_3 : ∃ (k : Nat) (x : Int) (s : State),
    k < 512 ∧
    (s.sensor k).state = 0 ∧
    (s.sensor k).emerg = false ∧
    s.sensorOffset k = 0 ∧
    840 < x ∧
    x ≤ 880 :=
  ⟨511, 880, State.reset, by decide +kernel⟩

theorem wit_SensorsActAndTrip_4 : ∃ (k : Nat) (e : Int) (s : State),
    (s.sensor k).emerg = true ∧
    emergAt (sensorTier k) = some e ∧
    s.watched k ≤ e - 40 :=
  ⟨511, 840, sensorState 511 { SensorSt.reset with emerg := true, recent := [800] }, by decide +kernel⟩

theorem wit_SensorsActAndTrip_5 : ∃ (k : Nat) (e : Int) (s : State),
    (s.sensor k).emerg = true ∧
    emergAt (sensorTier k) = some e ∧
    e - 40 < s.watched k :=
  ⟨511, 840, sensorState 511 { SensorSt.reset with emerg := true, recent := [801] }, by decide +kernel⟩

theorem wit_SensorsActAndTrip_6 : ∃ (k : Nat) (x : Int) (e : Int) (s : State),
    (s.sensor k).state = 0 ∧
    tripAt (sensorTier k) = some e ∧
    e < x ∧
    s.thm.trip = false :=
  ⟨576, 761, 760, State.reset, by decide +kernel⟩

theorem wit_CoolantIsWatched_1 : ∃ (s : State),
    s.thm.evals % 8 = 0 ∧
    (∀ k b, s.wadiWindow k = some b → s.wadiChecked b = false) :=
  ⟨{ wadiState with thm := { wadiState.thm with trayEn := true } }, ⟨rfl, fun _ _ _ => rfl⟩⟩

theorem wit_CoolantIsWatched_2 : ∃ (k : Nat) (b : WadiBand) (s : State),
    k < 16 ∧
    s.wadiWindow k = some b ∧
    s.wadiChecked b = true ∧
    (∀ j, j < 16 → j ≠ k → s.wadiWindow j = none) ∧
    s.thm.evals % 8 = 0 :=
  ⟨15, wadiBand, wadiState, ⟨by decide, rfl, by decide +kernel, by decide +kernel, rfl⟩⟩

theorem wit_CoolantIsWatched_3 : ∃ (r : TrayReading) (s : State),
    s.thm.trayEn = false :=
  ⟨{ inlet := some 0, outlet := none, flow := none }, State.reset, by decide +kernel⟩

theorem wit_CoolantIsWatched_4 : ∃ (inlet : Int) (outlet : Int) (f : Nat) (s : State),
    s.thm.trayEn = true :=
  ⟨5120, 5120, 2200, { State.reset with thm := { Thm.reset with trayEn := true } }, by decide +kernel⟩

theorem wit_CoolantIsWatched_5 : ∃ (s : State),
    s.thm.trayEn = true :=
  ⟨{ State.reset with thm := { Thm.reset with trayEn := true } }, by decide +kernel⟩

theorem wit_CoolantIsWatched_6 : ∃ (s : State),
    s.thm.flowState.toNat < 2 :=
  ⟨State.reset, by decide +kernel⟩

theorem wit_CoolantIsWatched_7 : ∃ (s : State),
    s.thm.flowState.toNat < 2 ∧
    5 * s.thm.flowNow < s.thm.flowNom.toNat :=
  ⟨{ State.reset with thm := { Thm.reset with trayEn := true, flow := 439 } }, by decide +kernel⟩

theorem wit_CoolantIsWatched_8 : ∃ (s : State),
    s.thm.flowNom.toNat ≤ 5 * s.thm.flowNow :=
  ⟨{ State.reset with thm := { Thm.reset with trayEn := true, flow := 440 } }, by decide +kernel⟩

theorem wit_CoolantIsWatched_9 : ∃ (s : State),
    s.thm.flowState = 2 :=
  ⟨{ State.reset with thm := { Thm.reset with flowState := 2 } }, by decide +kernel⟩

theorem wit_CoolantIsWatched_10 : ∃ (s : State),
    s.thm.flowState ≠ 2 :=
  ⟨{ State.reset with thm := { Thm.reset with flowState := 3 } }, by decide +kernel⟩

theorem wit_CoolantIsWatched_11 : ∃ (s : State),
    2 ≤ s.thm.flowState.toNat ∧
    3 * s.thm.flowNom.toNat ≤ 5 * s.thm.flowNow ∧
    s.pwr.sagStage < 5 ∧
    s.thm.trip = false ∧
    s.glb.rstState = 0 ∧
    s.glb.collapsed = false :=
  ⟨{ State.reset with thm := { Thm.reset with flowState := 3, trayEn := true, flow := 1320 } }, by decide +kernel⟩

theorem wit_CoolantIsWatched_12 : ∃ (s : State),
    (s.thm.flowState.toNat < 2 ∨ 5 * s.thm.flowNow < 3 * s.thm.flowNom.toNat) :=
  ⟨{ State.reset with thm := { Thm.reset with flowState := 3, trayEn := true, flow := 1319 } }, by decide +kernel⟩

theorem wit_DebugUnlocksAndSlots_1 : ∃ (v : Word64) (s : State),
    s.dbg.result ≠ 1 :=
  ⟨0xFFFFFFFFFFFFFFFF, State.reset, by decide +kernel⟩

theorem wit_DebugUnlocksAndSlots_2 : ∃ (v : Word64) (s : State),
    s.dbg.result = 1 :=
  ⟨0, { State.reset with dbg := { State.reset.dbg with result := 1 } }, by decide +kernel⟩

theorem wit_DebugUnlocksAndSlots_3 : ∃ (ed : Bool) (ml : Bool) (o : SignedObject) (s : State),
    s.dbg.result = 1 ∧
    s.objectLen s.dbg.unlockDpa ≤ 4096 ∧
    o = s.objectAt s.dbg.unlockDpa ed ml ∧
    s.objectOk o = true ∧
    o.kind = 3 :=
  ⟨true, true, unlockState.objectAt 64 true true, unlockState, ⟨by decide +kernel, by decide +kernel, rfl, by decide +kernel, by decide +kernel⟩⟩

theorem wit_DebugUnlocksAndSlots_4 : ∃ (ed : Bool) (ml : Bool) (o : SignedObject) (s : State),
    s.dbg.result = 1 ∧
    o = s.objectAt s.dbg.unlockDpa ed ml ∧
    (s.objectOk o = false ∨ o.kind ≠ 3 ∨ 4096 < s.objectLen s.dbg.unlockDpa) :=
  ⟨true, false, unlockState.objectAt 64 true false, unlockState, ⟨by decide +kernel, rfl, Or.inl (by decide +kernel)⟩⟩

theorem wit_DebugUnlocksAndSlots_5 : ∃ (s : State),
    s.dbg.unlocked = true :=
  ⟨{ State.reset with dbg := { State.reset.dbg with unlocked := true, slots := [(15, { DbgSlot.reset with arm := true })] } }, by decide +kernel⟩

theorem wit_DebugUnlocksAndSlots_6 : ∃ (s : State),
    s.dbg.unlocked = false :=
  ⟨State.reset, by decide +kernel⟩

theorem wit_DebugUnlocksAndSlots_7 : ∃ (i : Nat) (v : Word32) (s : State),
    s.dbg.unlocked = true ∧
    (s.slot i).arm = false ∧
    v.getLsbD 5 = true ∧
    v.toNat % 32 ≠ 5 :=
  ⟨15, 32, { State.reset with dbg := { State.reset.dbg with unlocked := true } }, by decide +kernel⟩

theorem wit_DebugUnlocksAndSlots_8 : ∃ (i : Nat) (n : Nat) (v : Word32) (s : State),
    s.dbg.unlocked = true ∧
    (s.slot i).arm = false ∧
    v.getLsbD 5 = true ∧
    v.toNat % 32 = 5 ∧
    n = (s.slot i).unit.toNat ∧
    n < 256 ∧
    (s.slot i).mag = 25 ∨ (s.slot i).mag = 50 :=
  ⟨15, 255, 37, { State.reset with dbg := { State.reset.dbg with unlocked := true, slots := [(15, { DbgSlot.reset with unit := 255, mag := 25 })] } }, by decide +kernel⟩

theorem wit_DebugUnlocksAndSlots_9 : ∃ (i : Nat) (v : Word32) (s : State),
    (s.slot i).arm = false ∧
    v.getLsbD 5 = false :=
  ⟨15, 31, State.reset, by decide +kernel⟩

theorem wit_DebugUnlocksAndSlots_10 : ∃ (i : Nat) (v : Word32) (s : State),
    (s.dbg.unlocked = false ∨ (s.slot i).arm = true) ∧
    v.getLsbD 5 = true :=
  ⟨15, 32, State.reset, by decide +kernel⟩

theorem wit_DebugUnlocksAndSlots_11 : ∃ (i : Nat) (v : Word32) (s : State),
    (s.slot i).arm = true ∧
    v.getLsbD 5 = false ∧
    (s.slot i).func ≠ 5 :=
  ⟨15, 31, { State.reset with dbg := { State.reset.dbg with slots := [(15, { DbgSlot.reset with arm := true })] } }, by decide +kernel⟩

theorem wit_DebugUnlocksAndSlots_12 : ∃ (i : Nat) (s : State),
    (s.slot i).arm = true ∧
    (s.slot i).count ≠ 0 ∧
    (s.slot i).func ≠ 5 :=
  ⟨15, { State.reset with dbg := { State.reset.dbg with slots := [(15, { DbgSlot.reset with arm := true, count := 1 })] } }, by decide +kernel⟩

theorem wit_DebugUnlocksAndSlots_13 : ∃ (i : Nat) (n : Nat) (s : State),
    (s.slot i).arm = true ∧
    (s.slot i).count ≠ 0 ∧
    (s.slot i).func = 5 ∧
    n = (s.slot i).unit.toNat ∧
    n < 256 ∧
    (s.slot i).mag = 25 ∨ (s.slot i).mag = 50 :=
  ⟨15, 255, { State.reset with dbg := { State.reset.dbg with slots := [(15, { DbgSlot.reset with arm := true, func := 5, unit := 255, mag := 50, count := 1 })] } }, by decide +kernel⟩

theorem wit_DebugUnlocksAndSlots_14 : ∃ (i : Nat) (s : State),
    (s.slot i).arm = false ∨ (s.slot i).count = 0 :=
  ⟨15, { State.reset with dbg := { State.reset.dbg with slots := [(15, { DbgSlot.reset with arm := true })] } }, by decide +kernel⟩

theorem wit_StartGoesStepByStep_1 : ∃ (s : State),
    s.glb.startDue = true ∧
    s.glb.startHeld = false ∧
    s.glb.collapsed = false ∧
    (s.pwr.vaux = true ∨ s.pins.trayRst = false) :=
  ⟨glbState { Glb.reset with startDue := true }, by decide +kernel⟩

theorem wit_StartGoesStepByStep_2 : ∃ (s : State),
    s.glb.startDue = true ∧
    s.glb.startHeld = false ∧
    s.glb.collapsed = false ∧
    s.pwr.vaux = false ∧
    s.pins.trayRst = true :=
  ⟨{ glbState { Glb.reset with startDue := true } with pins := { State.reset.pins with trayRst := true } }, by decide +kernel⟩

theorem wit_StartGoesStepByStep_3 : ∃ (s : State),
    s.glb.startDue = false :=
  ⟨glbState { Glb.reset with startDue := false }, by decide +kernel⟩

theorem wit_StartGoesStepByStep_4 : ∃ (s : State),
    s.glb.startHeld = true :=
  ⟨glbState { Glb.reset with startHeld := true }, by decide +kernel⟩

theorem wit_StartGoesStepByStep_5 : ∃ (s : State),
    s.glb.startHeld = false :=
  ⟨State.reset, by decide +kernel⟩

theorem wit_StartGoesStepByStep_6 : ∃ (s : State),
    s.starting = true ∧
    s.glb.step = 1 ∧
    s.mgt.ready = true ∧
    s.glb.collapsed = false :=
  ⟨{ glbState { Glb.reset with startDue := false, step := 1 } with mgt := { Mgt.reset with ready := true } }, by decide +kernel⟩

theorem wit_StartGoesStepByStep_7 : ∃ (f : List Defect) (sw : List LaneSweep) (rg : List Nat) (s : State),
    s.starting = true ∧
    s.glb.step = 1 :=
  ⟨[], [], [], { glbState { Glb.reset with startDue := false, step := 1 } with mgt := { Mgt.reset with ready := true } }, by decide +kernel⟩

theorem wit_StartGoesStepByStep_9 : ∃ (sw : List LaneSweep) (rg : List Nat) (s : State),
    s.starting = true ∧
    s.glb.step = 2 ∧
    s.epoch.active = false :=
  ⟨[badSweep], [0], glbState { Glb.reset with startDue := false, step := 2 }, by decide +kernel⟩

theorem wit_StartGoesStepByStep_10 : ∃ (sw : List LaneSweep) (rg : List Nat) (s : State),
    s.starting = true ∧
    s.glb.step = 3 ∧
    s.pwr.vdd = true ∧
    s.pwr.vpp = true ∧
    (∀ x ∈ sw, LaneSweep.passes x = true) :=
  ⟨[{ badSweep with windows := [(0, 24)] }], [0], { glbState { Glb.reset with startDue := false, step := 3 } with pwr := { Pwr.reset with vdd := true, vpp := true } }, by decide +kernel⟩

theorem wit_StartGoesStepByStep_11 : ∃ (l : List Defect) (sw : List LaneSweep) (rg : List Nat) (s : State),
    s.starting = true ∧
    s.glb.step = 3 ∧
    (s.pwr.vdd = false ∨ s.pwr.vpp = false) :=
  ⟨[{ kind := 1, unit := 0, sub := 0, sub2 := 0 }], [badSweep], [0], { glbState { Glb.reset with startDue := false, step := 3 } with pwr := { Pwr.reset with vdd := true, vpp := false } }, by decide +kernel⟩

theorem wit_StartGoesStepByStep_12 : ∃ (sw : List LaneSweep) (s : State),
    s.starting = true ∧
    s.glb.step = 4 :=
  ⟨[badSweep], glbState { Glb.reset with startDue := false, step := 4 }, by decide +kernel⟩

theorem wit_StartGoesStepByStep_13 : ∃ (s : State),
    s.starting = true ∧
    s.glb.step = 5 ∧
    s.boot.defects.length + s.boot.pending.length + s.mgt.findings.length ≤ 8192 :=
  ⟨glbState { Glb.reset with startDue := false, step := 5 }, by decide +kernel⟩

theorem wit_StartGoesStepByStep_14 : ∃ (e : DefectEntry) (r : List DefectEntry) (s : State),
    s.glb.ready = true ∧
    s.mgt.findings = e :: r :=
  ⟨{ defect := { kind := 1, unit := 0, sub := 0, sub2 := 0 }, start := 0, time := 0 }, [], { glbState { Glb.reset with ready := true } with mgt := { Mgt.reset with findings := [{ defect := { kind := 1, unit := 0, sub := 0, sub2 := 0 }, start := 0, time := 0 }] } }, by decide +kernel⟩

theorem wit_ResetsAndLosses_1 : ∃ (w : Word32) (s : State),
    bitAt w.toNat 31 = true ∧
    bitAt w.toNat 30 = false ∧
    bitAt w.toNat 29 = false ∧
    s.glb.ready = true ∧
    s.glb.rstState = 0 :=
  ⟨0x80000000, readyState, by decide +kernel⟩

theorem wit_ResetsAndLosses_2 : ∃ (w : Word32) (s : State),
    bitAt w.toNat 31 = false ∧
    bitAt w.toNat 30 = false ∧
    bitAt w.toNat 29 = true ∧
    s.glb.rstState = 0 :=
  ⟨0x20000000, readyState, by decide +kernel⟩

theorem wit_ResetsAndLosses_3 : ∃ (w : Word32) (s : State),
    bitAt w.toNat 31 = false ∧
    bitAt w.toNat 30 = false ∧
    bitAt w.toNat 29 = true ∧
    s.glb.rstState = 3 ∧
    s.glb.hold = false :=
  ⟨0x20000000, { readyState with glb := { readyState.glb with rstState := 3 } }, by decide +kernel⟩

theorem wit_ResetsAndLosses_4 : ∃ (w : Word32) (s : State),
    bitAt w.toNat 31 = false ∧
    bitAt w.toNat 30 = false ∧
    bitAt w.toNat 29 = false ∧
    s.glb.rstState = 2 ∧
    s.glb.holdMgt = false ∧
    s.glb.holdSag = false ∧
    s.thm.trip = false ∧
    s.glb.collapsed = false :=
  ⟨0, { readyState with glb := { readyState.glb with rstState := 2, hold := true } }, by decide +kernel⟩

theorem wit_ResetsAndLosses_5 : ∃ (s : State),
    s.glb.rstState = 1 ∧
    (∀ e ∈ s.vaults, e.2.repair = none) :=
  ⟨{ readyState with glb := { readyState.glb with rstState := 1, holdSag := true } }, by decide +kernel⟩

theorem wit_ResetsAndLosses_6 : ∃ (h : HostView) (s : State),
    s.glb.rstState = 3 ∧
    s.thm.trip = false ∧
    s.glb.collapsed = false ∧
    s.glb.rstAgain = false :=
  ⟨noHost, { readyState with glb := { readyState.glb with rstState := 3 } }, by decide +kernel⟩

theorem wit_ResetsAndLosses_7 : ∃ (w : Word32) (s : State),
    bitAt w.toNat 30 = true :=
  ⟨0xC0000000, readyState, by decide +kernel⟩

theorem wit_ManagementAnswers_1 : ∃ (a : Nat) (s : State),
    s.pwr.vaux = true :=
  ⟨0x30, { State.reset with pwr := { Pwr.reset with vaux := true } }, by decide +kernel⟩

theorem wit_ManagementAnswers_2 : ∃ (e : Nat) (s : State),
    s.answersMgt = true ∧
    e ≠ 0 ∧
    e ≠ 255 :=
  ⟨254, mgtState Mgt.reset, by decide +kernel⟩

theorem wit_ManagementAnswers_3 : ∃ (s : State),
    s.answersMgt = true :=
  ⟨mgtState Mgt.reset, by decide +kernel⟩

theorem wit_ManagementAnswers_4 : ∃ (p : Option Nat) (d : Option Nat) (n : Option Nat) (m : List Byte) (s : State),
    s.answersMgt = true ∧
    knownType m = false :=
  ⟨some 2, some 5, none, [0x02], mgtState Mgt.reset, by decide +kernel⟩

theorem wit_ManagementAnswers_5 : ∃ (p : Nat) (e : Nat) (m : List Byte) (s : State),
    s.answersMgt = true ∧
    e ≠ 0 ∧
    e ≠ s.mgt.eid ∧
    Tbl.find s.mgt.routes e = none :=
  ⟨2, 9, [0x02], mgtState Mgt.reset, by decide +kernel⟩

theorem wit_ManagementAnswers_6 : ∃ (e : Nat) (d : Nat) (n : Option Nat) (m : List Byte) (s : State),
    s.answersMgt = true ∧
    e ≠ 0 ∧
    e ≠ s.mgt.eid ∧
    d ≠ s.applied.deviceId.toNat ∧
    s.routePort d = none :=
  ⟨9, 65535, none, [0x02], mgtState Mgt.reset, by decide +kernel⟩

theorem wit_ManagementAnswers_7 : ∃ (k : Nat) (s : State),
    s.mgt.ready = true ∧
    k < Config.sensors ∧
    (s.sensor k).state ≠ 3 :=
  ⟨Config.sensors - 1, mgtState Mgt.reset, by decide +kernel⟩

theorem wit_ManagementAnswers_8 : ∃ (k : Nat) (s : State),
    s.mgt.ready = true ∧
    k < Config.sensors ∧
    (s.sensor k).state = 3 :=
  ⟨0, { sensorState 0 { SensorSt.reset with state := 3 } with mgt := { Mgt.reset with ready := true } }, by decide +kernel⟩

theorem wit_ManagementAnswers_9 : ∃ (d : Nat) (mv : Nat) (s : State),
    s.mgt.ready = true ∧
    d < Config.domains ∧
    (s.dom d).power ≠ 3 ∧
    (s.dom d).minMv = some mv :=
  ⟨Config.domains - 1, 800, { domState [(Config.domains - 1, { domOn with minMv := some 800 })] with mgt := { Mgt.reset with ready := true } }, by decide +kernel⟩

theorem wit_ManagementAnswers_10 : ∃ (k : Nat) (s : State),
    s.mgt.ready = true ∧
    0x6000 ≤ k :=
  ⟨0x6000, mgtState Mgt.reset, by decide +kernel⟩

theorem wit_ManagementAnswers_11 : ∃ (w : Nat) (s : State),
    s.mgt.ready = true ∧
    400 ≤ w ∧
    w ≤ 1800 ∧
    s.colls = [] :=
  ⟨1800, mgtState Mgt.reset, by decide +kernel⟩

theorem wit_ManagementAnswers_12 : ∃ (w : Nat) (s : State),
    s.mgt.ready = true ∧
    (w < 400 ∨ 1800 < w) :=
  ⟨399, mgtState Mgt.reset, by decide +kernel⟩

theorem wit_ManagementAnswers_13 : ∃ (v : Nat) (s : State),
    s.mgt.ready = true :=
  ⟨1, mgtState Mgt.reset, by decide +kernel⟩

theorem wit_ManagementAnswers_14 : ∃ (e : Nat) (s : State),
    s.mgt.ready = true :=
  ⟨9, mgtState Mgt.reset, by decide +kernel⟩

theorem wit_ManagementAnswers_15 : ∃ (e : Nat) (v : Event) (r : List Event) (s : State),
    s.mgt.receiver = some e ∧
    s.deliverable = v :: r ∧
    v.cper = none :=
  ⟨9, event0 .trip none, [], { State.reset with mgt := { Mgt.reset with receiver := some 9, awaiting := [event0 .trip none] }, boot := { State.reset.boot with events := [event0 .trip none] } }, by decide +kernel⟩

theorem wit_FirmwareAndManagementCommands_1 : ∃ (k : Nat) (s : State),
    s.answersMgt = true ∧
    s.mgt.update = none ∧
    1 ≤ k ∧
    k ≤ 3 :=
  ⟨3, mgtState Mgt.reset, by decide +kernel⟩

theorem wit_FirmwareAndManagementCommands_2 : ∃ (k : Nat) (s : State),
    s.answersMgt = true ∧
    s.mgt.update.isSome = true :=
  ⟨1, mgtState { Mgt.reset with update := some update0 }, by decide +kernel⟩

theorem wit_FirmwareAndManagementCommands_3 : ∃ (v : Nat) (m : Nat) (im : List Byte) (ks : List Nat) (u : Update) (s : State),
    s.mgt.update = some u ∧
    1 ≤ u.component ∧
    u.component ≤ 3 :=
  ⟨2, 0, [1], [], update0, mgtState { Mgt.reset with update := some update0 }, by decide +kernel⟩

theorem wit_FirmwareAndManagementCommands_4 : ∃ (o : SignedObject) (u : Update) (s : State),
    s.mgt.update = some u ∧
    u.received = true ∧
    1 ≤ u.component ∧
    u.component ≤ 3 :=
  ⟨object 2 [], update0, mgtState { Mgt.reset with update := some update0 }, by decide +kernel⟩

theorem wit_FirmwareAndManagementCommands_5 : ∃ (u : Update) (s : State),
    s.mgt.update = some u ∧
    u.verified = some true ∧
    1 ≤ u.component ∧
    u.component ≤ 3 ∧
    u.kinds = [] :=
  ⟨update0, mgtState { Mgt.reset with update := some update0 }, by decide +kernel⟩

theorem wit_FirmwareAndManagementCommands_6 : ∃ (u : Update) (s : State),
    s.mgt.update = some u ∧
    u.verified ≠ some true :=
  ⟨{ update0 with verified := some false }, mgtState { Mgt.reset with update := some { update0 with verified := some false } }, by decide +kernel⟩

theorem wit_FirmwareAndManagementCommands_7 : ∃ (s : State),
    s.mgt.ready = true :=
  ⟨mgtState Mgt.reset, by decide +kernel⟩

theorem wit_FirmwareAndManagementCommands_8 : ∃ (s : State),
    s.mgt.ready = true ∧
    s.glb.rstState ≠ 3 :=
  ⟨mgtState Mgt.reset, by decide +kernel⟩

theorem wit_FirmwareAndManagementCommands_9 : ∃ (s : State),
    s.mgt.ready = true ∧
    s.glb.rstState ≠ 2 :=
  ⟨mgtState Mgt.reset, by decide +kernel⟩

theorem wit_FirmwareAndManagementCommands_10 : ∃ (s : State),
    s.mgt.ready = true :=
  ⟨mgtState Mgt.reset, by decide +kernel⟩

theorem wit_FirmwareAndManagementCommands_11 : ∃ (w : Word32) (s : State),
    s.mgt.ready = true ∧
    s.err.stress.state ≠ 1 ∧
    (s.err.stress.write w).rect.any (fun c => s.fields.any (fun e => e.2.cores.contains c)) = false :=
  ⟨0x8000001F, mgtState Mgt.reset, by decide +kernel⟩

theorem wit_FirmwareAndManagementCommands_12 : ∃ (w : Word64) (s : State),
    s.mgt.ready = true ∧
    s.epoch.active = false ∧
    s.staged.changed s.applied ≠ [] ∧
    s.glb.step.toNat < 3 :=
  ⟨0x100000000, { mgtState Mgt.reset with staged := { Shadow.reset with hopLimit := 1 }, glb := { Glb.reset with step := 2 } }, by decide +kernel⟩

theorem wit_FirmwareAndManagementCommands_13 : ∃ (n : Nat) (s : State),
    s.mgt.ready = true :=
  ⟨0, { mgtState Mgt.reset with boot := { State.reset.boot with events := [event0 .trip none] } }, by decide +kernel⟩

theorem wit_FirmwareAndManagementCommands_14 : ∃ (n : Nat) (s : State),
    s.mgt.ready = true :=
  ⟨0, mgtState Mgt.reset, by decide +kernel⟩

theorem wit_FirmwareAndManagementCommands_15 : ∃ (n : Nat) (r : OasisRecord) (s : State),
    s.mgt.ready = true ∧
    s.oas.mirror.last = some r :=
  ⟨1, record0, { mgtState Mgt.reset with oas := { State.reset.oas with records := [record0], mirror := { State.reset.oas.mirror with last := some record0 } } }, by decide +kernel⟩

theorem wit_FirmwareAndManagementCommands_16 : ∃ (s : State),
    s.mgt.ready = true :=
  ⟨mgtState Mgt.reset, by decide +kernel⟩

theorem wit_SignedCommandsAndAttestation_1 : ∃ (o : SignedObject) (p : Nat) (s : State),
    s.mgt.ready = true ∧
    s.objectOk o = false :=
  ⟨{ object 4 [] with mlOk := false }, 0, mgtState Mgt.reset, by decide +kernel⟩

theorem wit_SignedCommandsAndAttestation_2 : ∃ (o : SignedObject) (s : State),
    s.maintOk o 1 = true :=
  ⟨object 4 (1 :: List.replicate 31 0), mgtState Mgt.reset, by decide +kernel⟩

theorem wit_SignedCommandsAndAttestation_3 : ∃ (o : SignedObject) (s : State),
    s.maintOk o 2 = true :=
  ⟨object 4 [2], mgtState Mgt.reset, by decide +kernel⟩

theorem wit_SignedCommandsAndAttestation_4 : ∃ (o : SignedObject) (d : Nat) (s : State),
    s.maintOk o 3 = true ∧
    d < Config.domains ∧
    maintItems 2 o = [natLe 2 d] :=
  ⟨object 4 (3 :: List.replicate 17 0), 0, mgtState Mgt.reset, by decide +kernel⟩

theorem wit_SignedCommandsAndAttestation_5 : ∃ (o : SignedObject) (s : State),
    s.maintOk o 4 = true :=
  ⟨object 4 [4], mgtState Mgt.reset, by decide +kernel⟩

theorem wit_SignedCommandsAndAttestation_6 : ∃ (p : Nat) (o : SignedObject) (s : State),
    s.mgt.ready = true ∧
    s.objectOk o = true ∧
    o.kind = 4 ∧
    (s.port p).half = true ∧
    2 ≤ (s.port p).state.toNat :=
  ⟨11, object 4 [5], { mgtState Mgt.reset with ports := [(11, { upPort with half := true, badLanes := 1 })] }, by decide +kernel⟩

theorem wit_SignedCommandsAndAttestation_7 : ∃ (o : SignedObject) (s : State),
    s.mgt.ready = true ∧
    s.objectOk o = true ∧
    o.kind = 3 :=
  ⟨object 3 [], mgtState Mgt.reset, by decide +kernel⟩

theorem wit_SignedCommandsAndAttestation_8 : ∃ (n : List Byte) (s : State),
    s.answersMgt = true ∧
    s.mgt.slot0 = true :=
  ⟨[1], mgtState { Mgt.reset with slot0 := true }, by decide +kernel⟩

theorem wit_SignedCommandsAndAttestation_9 : ∃ (n : List Byte) (s : State),
    s.answersMgt = true ∧
    s.mgt.slot0 = false :=
  ⟨[1], mgtState Mgt.reset, by decide +kernel⟩

theorem wit_SignedCommandsAndAttestation_10 : ∃ (l : List Nat) (n : List Byte) (s : State),
    s.answersMgt = true ∧
    s.mgt.slot0 = true :=
  ⟨[1, 8], [1], mgtState { Mgt.reset with slot0 := true }, by decide +kernel⟩

theorem wit_SignedCommandsAndAttestation_11 : ∃ (b : List Byte) (s : State),
    s.answersMgt = true ∧
    s.mgt.transcript = some b :=
  ⟨[7], mgtState { Mgt.reset with transcript := some [7] }, by decide +kernel⟩

theorem wit_SignedCommandsAndAttestation_12 : ∃ (s : State),
    s.answersMgt = true ∧
    s.mgt.transcript = none :=
  ⟨mgtState Mgt.reset, by decide +kernel⟩

theorem wit_SignedCommandsAndAttestation_13 : ∃ (x : List Byte) (s : State),
    s.answersMgt = true ∧
    s.mgt.slot0 = true :=
  ⟨[1], mgtState { Mgt.reset with slot0 := true }, by decide +kernel⟩

theorem wit_SignedCommandsAndAttestation_14 : ∃ (v : List Byte) (ok : Bool) (s : State),
    s.answersMgt = true ∧
    s.mgt.session = 1 ∧
    v ≠ [] :=
  ⟨[7], true, mgtState { Mgt.reset with session := 1 }, by decide +kernel⟩

theorem wit_OasisMetersEnergy_1 : ∃ (s : State),
    s.oas.running = true ∧
    s.oas.unsealed = false :=
  ⟨oasisState { State.reset.oas with unsealed := false }, by decide +kernel⟩

theorem wit_OasisMetersEnergy_2 : ∃ (s : State),
    s.oas.running = true ∧
    s.oas.unsealed = true ∧
    s.oas.loading = false :=
  ⟨oasisState { State.reset.oas with unsealed := true }, by decide +kernel⟩

theorem wit_OasisMetersEnergy_3 : ∃ (s : State),
    s.oas.running = true ∧
    s.oas.unsealed = true ∧
    s.oas.loading = true :=
  ⟨oasisState { State.reset.oas with unsealed := true, loading := true }, by decide +kernel⟩

theorem wit_OasisMetersEnergy_4 : ∃ (v : Nat) (s : State),
    s.oas.running = true ∧
    s.oas.unsealed = true :=
  ⟨2, oasisState { State.reset.oas with unsealed := true }, by decide +kernel⟩

theorem wit_OasisMetersEnergy_5 : ∃ (v : Nat) (c : Bool) (e : Bool) (m : Bool) (ps : List Nat) (us : Nat) (s : State),
    (s.oas.running = false ∨ s.oas.unsealed = false) :=
  ⟨2, true, true, true, [1], 5, oasisState { State.reset.oas with unsealed := false }, by decide +kernel⟩

theorem wit_OasisMetersEnergy_6 : ∃ (ps : List Nat) (s : State),
    s.oas.running = true ∧
    s.oas.unsealed = true :=
  ⟨[1], oasisState { State.reset.oas with unsealed := true }, by decide +kernel⟩

theorem wit_OasisMetersEnergy_7 : ∃ (us : Nat) (s : State),
    s.oas.running = true ∧
    s.oas.unsealed = true :=
  ⟨5, oasisState { State.reset.oas with unsealed := true }, by decide +kernel⟩

theorem wit_OasisMetersEnergy_8 : ∃ (r : OasisReading) (s : State),
    s.oas.running = true ∧
    r.outOfRange = none ∧
    r.adcFailed = none ∧
    s.oas.rangeNow = none :=
  ⟨{ vinMv := 1800, vinMa := 1000, vddMv := 1100, vddMa := 1, vppMv := 1800, vppMa := 1, outOfRange := none, adcFailed := none }, oasisState { State.reset.oas with samples := 999999 }, by decide +kernel⟩

theorem wit_OasisMetersEnergy_9 : ∃ (s : State),
    s.oas.running = true ∧
    s.oas.newParams = none ∧
    s.oas.newClock = none :=
  ⟨oasisState { State.reset.oas with accVin := 10 ^ 15 }, by decide +kernel⟩

theorem wit_OasisMetersEnergy_10 : ∃ (ps : List Nat) (us : Nat) (s : State),
    s.oas.running = true ∧
    s.oas.newParams = some ps ∧
    s.oas.newClock = some us :=
  ⟨[1], 5, oasisState { State.reset.oas with newParams := some [1], newClock := some 5 }, by decide +kernel⟩

theorem wit_OasisMetersEnergy_11 : ∃ (s : State),
    s.oas.running = true :=
  ⟨oasisState { State.reset.oas with cumVin := 7 }, by decide +kernel⟩

theorem wit_OasisMetersEnergy_12 : ∃ (s : State),
    s.oas.running = true ∧
    s.oas.loading = false :=
  ⟨oasisState { State.reset.oas with cumVin := 7 }, by decide +kernel⟩

theorem wit_OasisMetersEnergy_13 : ∃ (s : State),
    s.oas.running = false ∧
    s.pins.sealOpen = s.oas.unsealed :=
  ⟨{ State.reset with oas := { State.reset.oas with running := false, unsealed := false, saved := (1, 2, 3) } }, by decide +kernel⟩

theorem wit_OasisMetersEnergy_14 : ∃ (s : State),
    s.oas.running = true ∧
    s.oas.unsealed = true ∧
    s.pins.sealOpen = true :=
  ⟨{ oasisState { State.reset.oas with unsealed := true } with pins := { Pins.reset with sealOpen := true } }, by decide +kernel⟩

theorem wit_OasisMetersEnergy_15 : ∃ (s : State),
    s.oas.running = true ∧
    s.oas.unsealed = false :=
  ⟨oasisState { State.reset.oas with unsealed := false }, by decide +kernel⟩

theorem wit_OasisMetersEnergy_16 : ∃ (r : OasisRecord) (s : State),
    s.oas.exported = some r ∧
    s.mgt.ready = true :=
  ⟨record0, { mgtState Mgt.reset with oas := { State.reset.oas with exported := some record0 } }, by decide +kernel⟩

theorem wit_OasisMetersEnergy_17 : ∃ (s : State),
    s.oas.exported = none :=
  ⟨State.reset, by decide +kernel⟩

theorem wit_RoutesFollowLongestPrefix_1 : ∃ (e : Nat) (dst : Nat) (len : Nat) (port : Nat) (alt : Nat),
    routeMatch e dst = some (len, port, alt) :=
  ⟨0x80000000 + 15 * 2 ^ 25 + 11 * 2 ^ 21 + 16 * 2 ^ 16 + 5, 5, 16, 11, 15, by decide +kernel⟩

theorem wit_RoutesFollowLongestPrefix_2 : ∃ (e : Nat) (dst : Nat),
    bitAt e 31 = true ∧
    bits e 30 29 = 0 ∧
    bits e 20 16 ≤ 16 ∧
    bits e 24 21 < 12 ∧
    (bits e 28 25 < 12 ∨ bits e 28 25 = 15) ∧
    dst / 2 ^ (16 - bits e 20 16) = bits e 15 0 / 2 ^ (16 - bits e 20 16) :=
  ⟨0x80000000 + 15 * 2 ^ 25 + 11 * 2 ^ 21, 65535, by decide +kernel⟩

theorem wit_RoutesFollowLongestPrefix_3 : ∃ (dst : Nat) (t : Tbl Word32) (m : Nat × Nat × Nat),
    bestRoute dst t = some m :=
  ⟨5, [(0, 0x9E800000), (3, 0x9E900005)], (16, 4, 15), by decide +kernel⟩

theorem wit_RoutesFollowLongestPrefix_4 : ∃ (dst : Nat) (t : Tbl Word32) (e : _),
    bestRoute dst t = none ∧
    e ∈ t :=
  ⟨5, [(0, 0x1E800000)], (0, 0x1E800000), by decide +kernel⟩

theorem wit_RoutesFollowLongestPrefix_5 : ∃ (dst : Nat) (len : Nat) (port : Nat) (alt : Nat) (s : State),
    bestRoute dst s.applied.route = some (len, port, alt) :=
  ⟨5, 16, 4, 15, chainDevice, by decide +kernel⟩

theorem wit_RoutesFollowLongestPrefix_6 : ∃ (f : Frame) (s : State),
    f.dst ≠ s.applied.deviceId.toNat ∧
    s.routePort f.dst = none :=
  ⟨frame0, { chainDevice with applied := { chainDevice.applied with route := [] } }, by decide +kernel⟩

theorem wit_RoutesFollowLongestPrefix_7 : ∃ (p : Nat) (f : Frame) (s : State),
    s.routePort f.dst = none :=
  ⟨11, frame0, { chainDevice with applied := { chainDevice.applied with route := [] } }, by decide +kernel⟩

theorem wit_RoutesFollowLongestPrefix_8 : ∃ (p : Nat) (f : Frame) (s : State),
    (s.port p).state = 3 ∧
    s.mayCarry p f = true :=
  ⟨4, { frame0 with vc := 0 }, { chainDevice with ports := [(4, { upPort with state := 3 })] }, by decide +kernel⟩

theorem wit_RoutesFollowLongestPrefix_9 : ∃ (p : Nat) (dst : Nat) (s : State),
    (s.port p).state = 3 :=
  ⟨4, 5, { chainDevice with ports := [(4, { upPort with state := 3 })] }, by decide +kernel⟩

theorem wit_RoutesFollowLongestPrefix_10 : ∃ (p : Nat) (f : Frame) (s : State),
    (s.port p).state = 3 ∧
    s.dbg.slots = [] ∧
    f.fec = [] ∧
    frameCrc f = f.fcrc ∧
    frameTrailerCrc f ≠ f.tcrc ∧
    1 ≤ f.vc ∧
    f.vc ≤ 4 ∧
    f.seq = (s.port p).rxSeq :=
  ⟨4, sealed { frame0 with dst := 1 }, { chainDevice with ports := [(4, { upPort with state := 3 })] }, by decide +kernel⟩

theorem wit_RoutesFollowLongestPrefix_11 : ∃ (p : Nat) (f : Frame) (s : State),
    s.inboxFind p (fun x => x.vc == 7 && x.kind == 1) = some f ∧
    (s.port p).state = 3 ∧
    s.quarantineCause f = 0 :=
  ⟨4, { frame0 with vc := 7, kind := 1, payload := [2, 0, 0, 0, 1] ++ List.replicate 123 0 }, { chainDevice with ports := [(4, { upPort with state := 3 })], lnk := { Lnk.reset with inbox := [(4, { frame0 with vc := 7, kind := 1, payload := [2, 0, 0, 0, 1] ++ List.replicate 123 0 })] } }, by decide +kernel⟩

theorem wit_HalvesAndArmedSlots_1 : ∃ (o : Nat) (lo : Word64) (hi : Word64) (s : State),
    (o ∈ [0x100, 0xF00028, 0x1101008, 0x1500010] ∨ slotWide o = true ∧ s.slotLocked o = false) ∧
    s.glb.vectorsUp = true :=
  ⟨0xF00028, 0xFFFFFFFF, 1, readyState, by decide +kernel⟩

theorem wit_HalvesAndArmedSlots_1b : ∃ (o : Nat) (lo : Word64) (hi : Word64) (s : State),
    (o ∈ [0x100, 0xF00028, 0x1101008, 0x1500010] ∨ slotWide o = true ∧ s.slotLocked o = false) ∧
    s.glb.vectorsUp = true :=
  ⟨0x15002F8, 0xFFFFFFFF, 1, readyState, by decide +kernel⟩

theorem wit_HalvesAndArmedSlots_2 : ∃ (o : Nat) (lo : Word64) (hi : Word64) (s : State),
    o ∈ [0x100000, 0x200000, 0x200008, 0x200010, 0x200018, 0x900000, 0x900008, 0xC0C010, 0xC0C018, 0xE00000] ∧
    s.glb.vectorsUp = true :=
  ⟨0x900000, 0xFFFFFFFF, 1, readyState, by decide +kernel⟩

theorem wit_HalvesAndArmedSlots_3 : ∃ (i : Nat) (v : Word32) (s : State),
    s.dbg.unlocked = false ∧
    (s.slot i).arm = false ∧
    v.getLsbD 5 = true :=
  ⟨15, 32, State.reset, by decide +kernel⟩

theorem wit_HalvesAndArmedSlots_4 : ∃ (i : Nat) (o : Nat) (v : Word64) (s : State),
    s.glb.vectorsUp = true ∧
    i < 16 ∧
    o < 8 ∧
    1 ≤ o ∧
    (s.slot i).arm = true :=
  ⟨15, 7, 1, { readyState with dbg := { State.reset.dbg with slots := [(15, { DbgSlot.reset with arm := true })] } }, by decide +kernel⟩

theorem wit_HalvesAndArmedSlots_5 : ∃ (i : Nat) (v : Word32) (s : State),
    (s.slot i).arm = true ∧
    v.getLsbD 5 = true :=
  ⟨15, 32, { State.reset with dbg := { State.reset.dbg with slots := [(15, { DbgSlot.reset with arm := true })] } }, by decide +kernel⟩

theorem wit_HalvesAndArmedSlots_6 : ∃ (i : Nat) (v : Word32) (s : State),
    s.dbg.unlocked = true :=
  ⟨15, 32, { State.reset with dbg := { State.reset.dbg with unlocked := true } }, by decide +kernel⟩

/-! ### Ill-formed commands -/

/-- One ill-formed command for each check of WellFormed.lean. -/
theorem test_illFormedRefused :
    ([.shareFinish 0 0 256 act0,
      .shareFinish 0 0 0 { act0 with poisoned := [false] }, .parenAdmit ⟨0, [2]⟩, .meshPacket 0 { packet0 with payload := [] },
      .slotReserve 0 0 { red := 4096, ranks := [0], seed := true, blocks := [1] }, .frameReceive 0 { frame0 with fec := [[544]] },
      .waitTimeout 65536, .resume 65536, .clauseStart 65536 ⟨0, noHost⟩, .clauseStart 0 ⟨65536, noHost⟩, .refreshDue 0 8, .engineFault 0 128,
      .frameReceive 12 frame0, .phaseFail 308 0, .phaseFail 0 12, .sensorConversion 1152 0, .barrierArrive 4096 0 false,
      .bufferContribution 64 0, .bufferContribution 0 16, .laneTest 0 8 [] [], .laneTest 0 0 [64] [], .laneTest 0 0 [] [3],
      .flitCrcFail 0 4 false, .msixHoldoffExpiry 2048, .pageRepair 0 3072 0 0, .pageRepair 0 0 0 16,
      .fetchComplete 0 (List.replicate 17 { bits := 0, poison := false }), .doorbellReread 0 { slots := [], poison := false },
      .registerWrite 0x4000000 32 0, .counterLowRead 0x4000000, .hostMemWrite 0 [0] false, .contextYield 0 1 [{ array := 2, words := [] }],
      .refreshIssue 0 0 [{ column := 0, crossing := 9, lane := 0, windows := [] }],
      .spareTrained 0 0 [{ column := 0, crossing := 1, lane := 554, windows := [] }] [], .laneFail 0 8, .poolWaitExpiry 0 5, .burstReturn { burst0 with burst := 32 }, .slotArm 16 0,
      .setEndpointId 256, .mctpBridge none 0 (some 65536) none [], .challenge [], .dynamicAddressAssignment 128,
      .weightCalibration [] [], .stressCornerDone [256] []] : List Instr).all (fun i => !i.wf) = true := by decide +kernel

/-! ### Worked examples of the spec -/

/-- 05, the weight byte at k = 5,000 and n = 1,000: cluster-striped page entry to DPA, and its place in the vault. -/
theorem test_weightByteLiesInColumn115 :
    State.reset.resolve 1 (1 + 2 + 4 * 2 ^ 8 + 4096 * 2 ^ 21) 1960936 = some (.dram 92643904488) ∧
    decodeStandard 92643904488 = { vault := 115, row := 128, tier := 2, bank := 15, burst := 14, byte := 40 } := by decide +kernel

/-- 06, the query projection with S = 8: the layout's quantities, the DVA of one weight, and the host's DPA of it. -/
theorem test_queryProjectionPlacement :
    let w : Noun := { weights1 with placeArg := 0x300, dims := [13312, 13312, 1, 1, 1, 1] }
    let q := mvPlan w
    q.ks = 1664 ∧ q.tiles = 13 ∧ q.heads = 1 ∧ q.stride = 16 ∧ q.groups = 832 ∧ q.items = 6656 ∧ q.batches = 52 ∧
    q.bytes = 208 * 2 ^ 20 ∧ q.weightByte 10000 5000 = 80097552 ∧
    alignedToStandard (95 * 805306368 + 8794384) = 76512792784 := by decide +kernel

/-- 11, slot 40: the fields of the encoded clause. -/
theorem test_slot40Encoding :
    let c : BitVec 512 := BitVec.ofNat 512 (leNat ([0x01, 0x04, 0x28, 0, 0x50, 0x87, 0, 0, 0, 0x10, 0x10, 3, 1, 0x10, 0x10, 1, 2, 0x10, 0x20, 7,
      0, 0, 0, 0, 0, 0, 0, 0, 0, 0x10] ++ List.replicate 34 0))
    clVerb c = verbMatrix ∧ clQuiet c = true ∧ clSentEnd c = false ∧ clTag c = 0x28 ∧ clPowerHint c = 80 ∧ clDurHint c = 135 ∧
    (clOperand c 0).noun = 0x1000 ∧ (clOperand c 0).acc = 1 ∧ (clOperand c 0).gen = 3 ∧ (clOperand c 2).noun = 0x1002 ∧
    (clOperand c 2).acc = 2 ∧ (clOperand c 2).gen = 7 ∧ mxSplitK c = 1 ∧ (clWait c 0).1 = false := by decide +kernel

/-- 11, slot 42: SIG0 adds 1 to counter 0x0040. -/
theorem test_slot42Signal : clSignal (BitVec.ofNat 512 (0x20 + 0x900 + 0x80010040 * 2 ^ 448)) 0 = (true, 0x40, 1) := by decide +kernel

/-- 12, a cap of 1,800 W: budget 1,758.6 W; links 200 W, memory 429.0 W, compute the rest. -/
theorem test_sharingAt1800W :
    sharing 1800 5400 0 { link := 200000, memory := 429000, compute := 900000 } = ((200000, 429000, 1129600), 1758600) := by decide +kernel

/-- 13 and 18, the flow limit at 60 % of nominal flow, and at an inlet of 43 °C. -/
theorem test_flowLimits :
    flowPoints 1320 2200 = 1260 ∧ ({ Thm.reset with trayEn := true, flow := 2200, inlet := 344 } : Thm).flowPower = 1620 := by decide +kernel

/-- 13, Wadi 1 band 2: 179.8 W measured for a rise of 22.5 °C at 1,320 mL/min. -/
theorem test_wadiMeasuredHeat : watts (({ Thm.reset with trayEn := true, flow := 1320 } : Thm).qMeas 1 180) = 180 := by decide +kernel

/-- 01, a half-cycle of 40 °C costs 0.2222 units, one of 8 °C none. -/
theorem test_bondHalfCycles : 9 * halfCycle (40 * 128) = 2 * 117964800 ∧ halfCycle (8 * 128) = 0 := by decide +kernel

/-- 17, register addresses of the worked example. -/
theorem test_registerAddresses : arrCtr 115 1 0x08 = 0x473108 ∧ lnkCrcFail 7 = 0xC07050 := by decide +kernel

/-- 17, first set-up: `CMD_RCT_BASE` reads back its staged value; the applied one has not changed. -/
theorem test_stagedValueReadsBack :
    (match exec (.registerWrite 0x100000 64 0x1020000000) readyState with
    | .next t => t.regWord 0x100000 == 0x20000000 && t.regWord 0x100004 == 0x10 && t.staged.rctBase == 0x1020000 && t.applied.rctBase == 0
    | _ => false) = true := by decide +kernel

/-- 16, an interval of 1,420 J on VIN_CORE. -/
theorem test_intervalEnergy :
    ({ State.reset.oas with accVin := 1420000000 * 10 ^ 6, samples := 1000000 } : Oasis).record.eVin.toNat = 1420000000 := by decide +kernel

/-- R128: what EXP, LOG and ERF may answer in FP32 at 1, 2 and 1 (e = 2.718281828…, ln 2 = 0.693147180…, erf 1 =
0.842700792… from tables): the patterns within 1, 1 and 2 units in the last place. -/
theorem test_boundedOperations :
    fp32.withinRange 1 (encloseExp false 1 0) = (0x402DF854, 0x402DF855) ∧
    fp32.withinRange 1 (encloseLog 2 0) = (0x3F317217, 0x3F317218) ∧
    fp32.withinRange 2 (encloseErf false 1 0) = (0x3F57BB3C, 0x3F57BB3F) := by decide +kernel

/-! ### Single steps -/

/-- A fence takes effect, then completes with its record in the first entry of the completion ring (R53). -/
theorem test_fenceEndsItsWork :
    (match exec (.fence 3 0) (withClause 3 (clauseOf 0x70 0)) with
    | .next t => ((t.ring 3).clauseOf 0).map (·.phase) == some .done
    | _ => false) = true := by decide +kernel

/-- The last participant of a barrier flips its generation (R256). -/
theorem test_barrierFlips :
    (match exec (.barrierArrive 64 0 false) { State.reset with fields := [(1, { field0 with syncBase := 64, syncCount := 1 })] } with
    | .next t => (t.syncObj 64).gen && (t.syncObj 64).arrived.isEmpty
    | _ => false) = true := by decide +kernel

/-- A poisoned store poisons its flit, and a clean one clears it (R460). -/
theorem test_poisonFollowsStores :
    ((Dram.reset.store 64 (List.replicate 32 1) true).poison, ((Dram.reset.store 64 (List.replicate 32 1) true).store 64 (List.replicate 32 2) false).poison)
      = ([2], []) := by decide +kernel

/-- No word of the table spells a command, so the host's word leaves the queue as it is. -/
theorem test_noWordSpells : decodeTableWord 32 5 = none ∧ State.reset.withFetchWord 32 5 = State.reset := ⟨rfl, rfl⟩

end Sys2Proof.Tests
end

section
/-! PROOFS. The signed maintenance commands, the unlock by a submitted object and the SPDM requests: what each answers
in each of its cases (09 R291; 12 R405, R412; 14 R474; 16 R521 to R526). -/

namespace Sys2Proof.Machine

/-! ### Tables and bytes -/

theorem Tbl.find_append {α : Type} (l r : Tbl α) (j : Nat) :
    Tbl.find (l ++ r) j = (Tbl.find l j).or (Tbl.find r j) := by
  induction l with
  | nil => rfl
  | cons e l ih =>
    obtain ⟨i, w⟩ := e
    by_cases h : j = i <;> simp [Tbl.find, h, ih]

theorem Tbl.find_filter {α : Type} (p : Nat → Bool) (t : Tbl α) (j : Nat) :
    Tbl.find (t.filter (fun e => p e.1)) j = if p j then Tbl.find t j else none := by
  induction t with
  | nil => simp [Tbl.find]
  | cons e t ih =>
    obtain ⟨i, w⟩ := e
    by_cases hi : j = i
    · subst hi
      by_cases hp : p j = true
      · simp [hp, Tbl.find]
      · simpa [hp] using ih
    · by_cases hp : p i = true
      · simpa [hp, Tbl.find, hi] using ih
      · simpa [hp, Tbl.find, hi] using ih

/-- An entry set at key k is found there, whatever its value, and every other key keeps what it had. -/
theorem Tbl.find_setKey {α : Type} (t : Tbl α) (k : Nat) (v : α) (j : Nat) :
    Tbl.find (Tbl.setKey t k v) j = if j = k then some v else Tbl.find t j := by
  have hlow := Tbl.find_filter (fun i => decide (i < k)) t j
  have hhigh := Tbl.find_filter (fun i => decide (k < i)) t j
  rw [Tbl.setKey, Tbl.find_append, Tbl.find_append, hlow, hhigh]
  rcases Nat.lt_trichotomy j k with h | rfl | h
  · have hne : j ≠ k := by omega
    simp [h, hne, Tbl.find, Nat.lt_asymm h]
  · simp [Tbl.find]
  · have hne : j ≠ k := by omega
    simp [h, hne, Tbl.find, Nat.lt_asymm h]

/-- The n little-endian bytes of a number give it back modulo 256 to the n (R37). -/
theorem leNat_natLe (n v : Nat) : leNat (natLe n v) = v % 256 ^ n := by
  induction n generalizing v with
  | zero => simp [natLe, leNat, Nat.mod_one]
  | succ n ih =>
    rw [natLe, leNat, ih, Nat.pow_succ', Nat.mod_mul]
    simp

/-! ### The nonce, the unlock and the record of a maintenance command -/

/-- Events change the log and the deliveries alone: the debug unlock stays (R517). -/
@[simp] theorem State.noteSensors_dbg (s old : State) : (s.noteSensors old).dbg = s.dbg := by
  unfold State.noteSensors
  refine List.foldlRecOn (motive := fun t : State => t.dbg = s.dbg) _ _ rfl ?_
  intro t ht i _
  split
  · exact ht
  · rw [State.event_dbg, ht]

@[simp] theorem State.renewNonce_dbg (s : State) : s.renewNonce.dbg = { s.dbg with nonce := s.free } := rfl

/-- An unlock opens the debug unlock until the object's expiry, renews the nonce and arms no slot (R474, R475). -/
theorem State.unlock_dbg (s : State) (o : SignedObject) :
    ∃ n, (s.unlock o).dbg = { s.dbg with unlocked := true, expiry := o.expiry, nonce := n } :=
  ⟨_, by rw [State.unlock, State.renewNonce_dbg, State.noteSensors_dbg]⟩

@[simp] theorem State.maintDone_boot (s : State) (k : Nat) :
    (s.maintDone k).boot = { s.boot with maintenance := k :: s.boot.maintenance } := rfl
@[simp] theorem State.maintDone_dom (s : State) (k : Nat) : (s.maintDone k).dom = s.dom := rfl
@[simp] theorem State.maintDone_port (s : State) (k : Nat) : (s.maintDone k).port = s.port := rfl

/-! ### Maintenance commands -/

theorem State.maintOk_iff (s : State) (o : SignedObject) (k : Nat) :
    s.maintOk o k = true ↔ s.mgt.ready = true ∧ s.objectOk o = true ∧ o.kind = 4 ∧ maintFunction o = k := by
  simp [State.maintOk, and_assoc]

theorem State.maintain_of_maintOk {s : State} {o : SignedObject} {k : Nat} (f : State → State) (h : s.maintOk o k = true) :
    s.maintain o k f = .next ((f s).maintDone k) := by
  have hready := ((s.maintOk_iff o k).mp h).1
  simp [State.maintain, hready, h]

theorem State.maintain_of_not_objectOk {s : State} {o : SignedObject} (k : Nat) (f : State → State)
    (hready : s.mgt.ready = true) (h : s.objectOk o = false) :
    s.maintain o k f = .next (s.reply (.refused errInvalidData)) := by
  simp [State.maintain, State.maintOk, hready, h]

theorem exec_removeDefectEntries (o : SignedObject) (s : State) :
    exec (.removeDefectEntries o) s = s.maintain o 1 (fun t => t.removeEntries o) := rfl
theorem exec_clearBondWear (o : SignedObject) (s : State) :
    exec (.clearBondWear o) s = s.maintain o 2 State.clearWear := rfl
theorem exec_replacePathBaseline (o : SignedObject) (s : State) :
    exec (.replacePathBaseline o) s = s.maintain o 3 (fun t => t.replaceBaselines o) := rfl
theorem exec_restoreFactoryWeights (o : SignedObject) (s : State) :
    exec (.restoreFactoryWeights o) s = s.maintain o 4 State.factoryWeights := rfl
theorem exec_portRetrain (p : Nat) (o : SignedObject) (s : State) :
    exec (.portRetrain p o) s = execPortRetrain p o s := rfl
theorem exec_submitSignedObject (o : SignedObject) (s : State) :
    exec (.submitSignedObject o) s = execSubmitSignedObject o s := rfl

theorem exec_portRetrain_of_not_objectOk {s : State} {o : SignedObject} (p : Nat)
    (hready : s.mgt.ready = true) (h : s.objectOk o = false) :
    exec (.portRetrain p o) s = .next (s.reply (.refused errInvalidData)) := by
  simp [exec_portRetrain, execPortRetrain, hready, h]

theorem exec_submitSignedObject_of_not_objectOk {s : State} {o : SignedObject}
    (hready : s.mgt.ready = true) (h : s.objectOk o = false) :
    exec (.submitSignedObject o) s = .next (s.reply (.refused errInvalidData)) := by
  simp [exec_submitSignedObject, execSubmitSignedObject, hready, h]

/-- A submitted unlock object takes effect (R474). -/
theorem exec_submitSignedObject_of_unlock {s : State} {o : SignedObject}
    (hready : s.mgt.ready = true) (hok : s.objectOk o = true) (hkind : o.kind = 3) :
    exec (.submitSignedObject o) s = .next ((s.unlock o).reply .ok) := by
  simp [exec_submitSignedObject, execSubmitSignedObject, hready, hok, hkind]

/-- A submitted maintenance object of function 1 does what REMOVE_DEFECT_ENTRIES does (R523). -/
theorem exec_submitSignedObject_of_removal {s : State} {o : SignedObject} (h : s.maintOk o 1 = true) :
    exec (.submitSignedObject o) s = exec (.removeDefectEntries o) s := by
  obtain ⟨hready, hok, hkind, hfun⟩ := (s.maintOk_iff o 1).mp h
  simp [exec_submitSignedObject, execSubmitSignedObject, exec_removeDefectEntries, hready, hok, hkind, hfun]

/-- With one domain listed, its filtered value becomes its baseline, kept for the next start (R405). -/
theorem State.replaceBaselines_of_one {o : SignedObject} {d : Nat} (s : State) (hd : d < Config.domains)
    (hlist : maintItems 2 o = [natLe 2 d]) :
    s.replaceBaselines o = { s.modDom d (fun x => { x with baseline := x.filtered }) with
      boot := { s.boot with baselines := Tbl.setKey s.boot.baselines d (s.dom d).filtered } } := by
  have hd' : d < 308 := hd
  have hle : leNat (natLe 2 d) = d := by rw [leNat_natLe]; omega
  simp [State.replaceBaselines, hlist, hle, hd]

/-- A port of state 2 or above on four lanes goes to eight, and its lanes move (R291). -/
theorem exec_portRetrain_of_half {s : State} {p : Nat} {o : SignedObject} (hready : s.mgt.ready = true)
    (hok : s.objectOk o = true) (hkind : o.kind = 4) (hhalf : (s.port p).half = true) (hstate : 2 ≤ (s.port p).state.toNat) :
    exec (.portRetrain p o) s = .next ((s.setPort p { s.port p with
      half := false, halfSel := false, badLanes := 0, peerBad := 0, laneMove := true }).maintDone 0) := by
  simp [exec_portRetrain, execPortRetrain, hready, hok, hkind, hhalf, hstate]

/-! ### Attestation -/

theorem exec_challenge (n : List Byte) (s : State) : exec (.challenge n) s = execChallenge n s := rfl
theorem exec_getMeasurements (l : List Nat) (n : List Byte) (s : State) :
    exec (.getMeasurements l n) s = execGetMeasurements l n s := rfl
theorem exec_getPqSignature (s : State) : exec .getPqSignature s = execGetPqSignature s := rfl
theorem exec_keyExchange (x : List Byte) (s : State) : exec (.keyExchange x) s = execKeyExchange x s := rfl
theorem exec_finish (v : List Byte) (macOk : Bool) (s : State) : exec (.finish v macOk) s = execFinish v macOk s := rfl

section
variable {s : State} (hmgt : s.answersMgt = true)
include hmgt

theorem exec_challenge_of_slot0 (n : List Byte) (h : s.mgt.slot0 = true) :
    exec (.challenge n) s = .next (s.spdm.reply (.bytes (s.certChain 1 ++ s.sign 1 n))) := by
  simp [exec_challenge, execChallenge, hmgt, h]

theorem exec_challenge_of_no_slot0 (n : List Byte) (h : s.mgt.slot0 = false) :
    exec (.challenge n) s = .next (s.spdm.reply (.refused errInvalidRequest)) := by
  simp [exec_challenge, execChallenge, hmgt, h]

/-- A signed MEASUREMENTS leaves its transcript for the second signature (R524, R525). -/
theorem exec_getMeasurements_of_slot0 (l : List Nat) (n : List Byte) (h : s.mgt.slot0 = true) :
    exec (.getMeasurements l n) s
      = .next (({ s with mgt := { s.mgt with transcript := some (n ++ l.flatMap s.measurementBlock) } } : State).reply
          (.bytes (l.flatMap s.measurementBlock ++ s.sign 1 (n ++ l.flatMap s.measurementBlock)))) := by
  simp [exec_getMeasurements, execGetMeasurements, hmgt, h]

theorem exec_getPqSignature_of_transcript {b : List Byte} (h : s.mgt.transcript = some b) :
    exec .getPqSignature s = .next (s.spdm.reply (.bytes (s.sign 2 b ++ s.certChain 2))) := by
  simp [exec_getPqSignature, execGetPqSignature, hmgt, h]

theorem exec_getPqSignature_of_no_transcript (h : s.mgt.transcript = none) :
    exec .getPqSignature s = .next (s.reply (.refused errUnexpectedRequest)) := by
  simp [exec_getPqSignature, execGetPqSignature, hmgt, h]

theorem exec_keyExchange_of_slot0 (x : List Byte) (h : s.mgt.slot0 = true) :
    exec (.keyExchange x) s
      = .next (({ s with mgt := { s.mgt with transcript := none, session := 1 } } : State).reply (.bytes (s.sign 1 x))) := by
  simp [exec_keyExchange, execKeyExchange, State.spdm, hmgt, h]

/-- A begun session is established by a right FINISH and ended by a wrong one (R524). -/
theorem exec_finish_of_session {v : List Byte} (macOk : Bool) (h : s.mgt.session = 1) (hv : v ≠ []) :
    exec (.finish v macOk) s
      = .next (({ s with mgt := { s.mgt with transcript := none, session := if macOk then 2 else 0 } } : State).reply
          (if macOk then .ok else .refused errDecrypt)) := by
  cases macOk <;> simp [exec_finish, execFinish, State.spdm, hmgt, h, hv]

end

end Sys2Proof.Machine
end

section
/-! PROOFS. O56: the cases of the signed commands and of the attestation, put together. -/

open Sys2Proof Sys2Proof.Machine

namespace Sys2Proof.Proofs

/-- An object that fails its checks is refused by every signed command, which changes nothing else (R6, R521). -/
theorem signedCommands_refuse_of_not_objectOk {s : State} {o : SignedObject} (p : Nat)
    (hready : s.mgt.ready = true) (h : s.objectOk o = false) :
    ∃ c, exec (.removeDefectEntries o) s = .next (s.reply (.refused c)) ∧ exec (.clearBondWear o) s = .next (s.reply (.refused c)) ∧
      exec (.replacePathBaseline o) s = .next (s.reply (.refused c)) ∧ exec (.restoreFactoryWeights o) s = .next (s.reply (.refused c)) ∧
      exec (.portRetrain p o) s = .next (s.reply (.refused c)) ∧ exec (.submitSignedObject o) s = .next (s.reply (.refused c)) :=
  ⟨errInvalidData, (exec_removeDefectEntries o s).trans (State.maintain_of_not_objectOk 1 _ hready h),
    (exec_clearBondWear o s).trans (State.maintain_of_not_objectOk 2 _ hready h),
    (exec_replacePathBaseline o s).trans (State.maintain_of_not_objectOk 3 _ hready h),
    (exec_restoreFactoryWeights o s).trans (State.maintain_of_not_objectOk 4 _ hready h),
    exec_portRetrain_of_not_objectOk p hready h, exec_submitSignedObject_of_not_objectOk hready h⟩

theorem removeDefectEntries_waits_for_start {s : State} {o : SignedObject} (h : s.maintOk o 1 = true) :
    ∃ t : State, exec (.removeDefectEntries o) s = .next t ∧ exec (.submitSignedObject o) s = .next t ∧
      t.boot.removals = s.boot.removals ++ (maintItems 16 o).map entryDefect ∧ t.boot.defects = s.boot.defects ∧
      t.boot.maintenance = 1 :: s.boot.maintenance ∧ t.freeIdx = s.freeIdx + 1 ∧ t.io.replies = .ok :: s.io.replies := by
  have hrun := (exec_removeDefectEntries o s).trans (State.maintain_of_maintOk _ h)
  exact ⟨_, hrun, (exec_submitSignedObject_of_removal h).trans hrun, rfl, rfl, rfl, rfl, rfl⟩

theorem replacePathBaseline_takes_filtered {s : State} {o : SignedObject} {d : Nat} (h : s.maintOk o 3 = true)
    (hd : d < Config.domains) (hlist : maintItems 2 o = [natLe 2 d]) :
    ∃ t : State, exec (.replacePathBaseline o) s = .next t ∧ t.dom d = { s.dom d with baseline := (s.dom d).filtered } ∧
      domsSameBut s t d ∧ Tbl.find t.boot.baselines d = some (s.dom d).filtered := by
  have hdom (q : Nat) : ((s.replaceBaselines o).maintDone 3).dom q
      = if q = d then { s.dom d with baseline := (s.dom d).filtered } else s.dom q := by
    rw [State.maintDone_dom, s.replaceBaselines_of_one hd hlist]
    exact State.dom_modDom s d q (fun x => { x with baseline := x.filtered })
  refine ⟨_, (exec_replacePathBaseline o s).trans (State.maintain_of_maintOk _ h), ?_, ?_, ?_⟩
  · rw [hdom, if_pos rfl]
  · intro q hq
    rw [hdom, if_neg hq]
  · simp [s.replaceBaselines_of_one hd hlist, Tbl.find_setKey]

theorem portRetrain_returns_to_eight_lanes {s : State} {p : Nat} {o : SignedObject} (hready : s.mgt.ready = true)
    (hok : s.objectOk o = true) (hkind : o.kind = 4) (hhalf : (s.port p).half = true) (hstate : 2 ≤ (s.port p).state.toNat) :
    ∃ t : State, exec (.portRetrain p o) s = .next t ∧
      t.port p = { s.port p with half := false, halfSel := false, badLanes := 0, peerBad := 0, laneMove := true } ∧
      portsSameBut s t p := by
  refine ⟨_, exec_portRetrain_of_half hready hok hkind hhalf hstate, ?_, ?_⟩
  · rw [State.maintDone_port, State.port_setPort_self]
  · intro q hq
    rw [State.maintDone_port, State.port_setPort, if_neg hq]

theorem submitSignedObject_unlocks {s : State} {o : SignedObject} (hready : s.mgt.ready = true) (hok : s.objectOk o = true)
    (hkind : o.kind = 3) :
    ∃ t : State, exec (.submitSignedObject o) s = .next t ∧ t.dbg.unlocked = true ∧ t.dbg.expiry = o.expiry ∧
      t.dbg.slots = s.dbg.slots := by
  obtain ⟨n, hdbg⟩ := s.unlock_dbg o
  refine ⟨_, exec_submitSignedObject_of_unlock hready hok hkind, ?_⟩
  simp [hdbg]

/-- Settles O56: each clause is one case of one command, and all of them hold. -/
theorem signedCommandsAndAttestation : Obligations.SignedCommandsAndAttestation := by
  unfold Obligations.SignedCommandsAndAttestation
  refine ⟨?refused, ?removal, ?wear, ?baseline, ?weights, ?retrain, ?unlock, ?challenge, ?noSlot, ?measurements,
    ?second, ?noTranscript, ?session, ?finish⟩
  case refused => exact fun o p s hready h => signedCommands_refuse_of_not_objectOk p hready h
  case removal => exact fun o s h => removeDefectEntries_waits_for_start h
  case wear => exact fun o s h => ⟨_, (exec_clearBondWear o s).trans (State.maintain_of_maintOk _ h), rfl, rfl, rfl, rfl⟩
  case baseline => exact fun o d s h hd hlist => replacePathBaseline_takes_filtered h hd hlist
  case weights => exact fun o s h => ⟨_, (exec_restoreFactoryWeights o s).trans (State.maintain_of_maintOk _ h), rfl, rfl, rfl⟩
  case retrain => exact fun p o s hready hok hkind hhalf hstate => portRetrain_returns_to_eight_lanes hready hok hkind hhalf hstate
  case unlock => exact fun o s hready hok hkind => submitSignedObject_unlocks hready hok hkind
  case challenge => exact fun n s hmgt h => exec_challenge_of_slot0 hmgt n h
  case noSlot => exact fun n s hmgt h => ⟨errInvalidRequest, exec_challenge_of_no_slot0 hmgt n h⟩
  case measurements => exact fun l n s hmgt h => exec_getMeasurements_of_slot0 hmgt l n h
  case second => exact fun b s hmgt h => exec_getPqSignature_of_transcript hmgt h
  case noTranscript => exact fun s hmgt h => ⟨errUnexpectedRequest, exec_getPqSignature_of_no_transcript hmgt h⟩
  case session => exact fun x s hmgt h => ⟨_, exec_keyExchange_of_slot0 hmgt x h, rfl, rfl⟩
  case finish => exact fun v macOk s hmgt h hv => ⟨_, exec_finish_of_session hmgt macOk h hv, rfl⟩

end Sys2Proof.Proofs
end

section
/-! PROOFS. Laws that the statements on the stack share: what an event adds to the log and what it leaves, counters that hold
a maximum, delay lines and their tunes, and a vault with nothing to do (16 R516, R517; 04 R114; 01 R23, R25; 06 R202). -/

namespace Sys2Proof.Machine

/-! ### Events -/

/-- t is s but for the events logged and those that wait for their delivery. -/
def State.EventsOnly (s t : State) : Prop :=
  ∃ es aw, t = { s with boot := { s.boot with events := es }, mgt := { s.mgt with awaiting := aw } }

theorem State.EventsOnly.refl (s : State) : s.EventsOnly s := ⟨_, _, rfl⟩

theorem State.EventsOnly.raise {s t : State} (h : s.EventsOnly t) (e : Event) : s.EventsOnly (t.raise e) := by
  obtain ⟨es, aw, rfl⟩ := h
  exact ⟨_, _, rfl⟩

theorem State.EventsOnly.trans {s t u : State} (h : s.EventsOnly t) (hu : t.EventsOnly u) : s.EventsOnly u := by
  obtain ⟨es, aw, rfl⟩ := h
  obtain ⟨es', aw', rfl⟩ := hu
  exact ⟨_, _, rfl⟩

theorem State.raise_eventsOnly (s : State) (e : Event) : s.EventsOnly (s.raise e) := (EventsOnly.refl s).raise e

theorem State.EventsOnly.vault {s t : State} (h : s.EventsOnly t) : t.vault = s.vault := by
  obtain ⟨es, aw, rfl⟩ := h; rfl

theorem State.EventsOnly.core {s t : State} (h : s.EventsOnly t) : t.core = s.core := by
  obtain ⟨es, aw, rfl⟩ := h; rfl

theorem State.EventsOnly.glb {s t : State} (h : s.EventsOnly t) : t.glb = s.glb := by
  obtain ⟨es, aw, rfl⟩ := h; rfl

theorem State.noteSensors_eventsOnly (s old : State) : s.EventsOnly (s.noteSensors old) := by
  unfold State.noteSensors
  refine List.foldlRecOn (motive := fun t : State => s.EventsOnly t) _ _ (EventsOnly.refl s) ?_
  intro t ht i _
  split
  · exact ht
  · exact ht.raise _

@[simp] theorem State.noteSensors_thm (s old : State) : (s.noteSensors old).thm = s.thm := by
  obtain ⟨es, aw, h⟩ := s.noteSensors_eventsOnly old
  rw [h]

@[simp] theorem State.noteSensors_ctr (s old : State) : (s.noteSensors old).ctr = s.ctr := by
  obtain ⟨es, aw, h⟩ := s.noteSensors_eventsOnly old
  rw [h]

/-- Without a change of a state sensor nothing is reported (R517). -/
theorem State.noteSensors_of_same {s old : State} (h : ∀ i, s.stateSensor i = old.stateSensor i) : s.noteSensors old = s := by
  unfold State.noteSensors
  refine List.foldlRecOn (motive := fun t : State => t = s) _ _ rfl ?_
  rintro t rfl i _
  exact if_pos (h i)

/-- An event among the latest n of the log is among the latest n + 1 once another is raised. -/
theorem State.mem_take_events_raise {s : State} {e : Event} {n : Nat} (x : Event) (hn : n < 4096)
    (h : e ∈ s.boot.events.take n) : e ∈ (s.raise x).boot.events.take (n + 1) := by
  have htake : ((x :: s.boot.events).take 4096).take (n + 1) = x :: s.boot.events.take n := by
    rw [List.take_take, Nat.min_eq_left hn, List.take_succ_cons]
  exact htake ▸ List.mem_cons_of_mem x h

/-- Steps that each raise one event at most drop none of the latest n events, as long as the log holds them all. -/
theorem mem_take_events_foldl {e : Event} {f : State → Nat → State}
    (hf : ∀ t i n, n < 4096 → e ∈ t.boot.events.take n → e ∈ (f t i).boot.events.take (n + 1))
    (l : List Nat) (t : State) (n : Nat) (hn : n + l.length ≤ 4096) (ht : e ∈ t.boot.events.take n) :
    e ∈ (l.foldl f t).boot.events.take (n + l.length) := by
  induction l generalizing t n with
  | nil => exact ht
  | cons i l ih =>
    rw [List.length_cons] at hn ⊢
    rw [List.foldl_cons, Nat.add_comm l.length, ← Nat.add_assoc]
    exact ih (f t i) (n + 1) (by omega) (hf t i n (by omega) ht)

/-- The reports of changed state sensors leave the latest event in the log. -/
theorem State.mem_events_noteSensors {s : State} (old : State) {e : Event} (h : s.boot.events.head? = some e) :
    e ∈ (s.noteSensors old).boot.events := by
  have hhead : e ∈ s.boot.events.take 1 := by
    cases hs : s.boot.events <;> simp_all
  unfold State.noteSensors
  refine List.mem_of_mem_take (i := 1 + (List.range 5).length) (mem_take_events_foldl ?_ _ s 1 (by decide) hhead)
  intro t i n hn ht
  split
  · exact List.mem_of_mem_take (i := n) (by rwa [List.take_take, Nat.min_eq_left (Nat.le_succ n)])
  · exact State.mem_take_events_raise _ hn ht

/-- t is s but for the events logged, those that wait for their delivery, and the findings for the next start. -/
def State.ReportsOnly (s t : State) : Prop :=
  ∃ es aw fs, t = { s with boot := { s.boot with events := es }, mgt := { s.mgt with awaiting := aw, findings := fs } }

theorem State.ReportsOnly.refl (s : State) : s.ReportsOnly s := ⟨_, _, _, rfl⟩

theorem State.ReportsOnly.raise {s t : State} (h : s.ReportsOnly t) (e : Event) : s.ReportsOnly (t.raise e) := by
  obtain ⟨es, aw, fs, rfl⟩ := h
  exact ⟨_, _, _, rfl⟩

theorem State.ReportsOnly.finding {s t : State} (h : s.ReportsOnly t) (kind unit sub sub2 : Nat) :
    s.ReportsOnly (t.finding kind unit sub sub2) := by
  obtain ⟨es, aw, fs, rfl⟩ := h
  exact ⟨_, _, _, rfl⟩

theorem State.ReportsOnly.vault {s t : State} (h : s.ReportsOnly t) : t.vault = s.vault := by
  obtain ⟨es, aw, fs, rfl⟩ := h; rfl

theorem State.ReportsOnly.core {s t : State} (h : s.ReportsOnly t) : t.core = s.core := by
  obtain ⟨es, aw, fs, rfl⟩ := h; rfl

theorem State.ReportsOnly.caches {s t : State} (h : s.ReportsOnly t) : t.caches = s.caches := by
  obtain ⟨es, aw, fs, rfl⟩ := h; rfl

theorem State.head_events_raise (s : State) (e : Event) : (s.raise e).boot.events.head? = some e := rfl

theorem State.kind_head_event (s : State) (k : EventKind) (c : Option Nat) (u n : Nat) (f : Option Nat) (x : Nat)
    (l : List Word64) : ((s.event k c u n f x l).boot.events.head?).map (·.kind) = some k := rfl

theorem State.defect_last_finding (s : State) (kind unit sub sub2 : Nat) :
    ((s.finding kind unit sub sub2).mgt.findings.getLast?).map (·.defect)
      = some { kind := kind, unit := unit, sub := sub, sub2 := sub2 } := by
  simp [State.finding]

/-! ### Counters that hold a maximum -/

theorem State.ctrMax_ctr_only (s : State) (o n : Nat) : s.ctrMax o n = { s with ctr := (s.ctrMax o n).ctr } := by
  unfold State.ctrMax
  split <;> rfl

theorem State.ctrGet_ctrMax_self (s : State) (o : Nat) {n : Nat} (hn : n < 2 ^ 64) :
    ((s.ctrMax o n).ctrGet o).toNat = max (s.ctrGet o).toNat n := by
  unfold State.ctrMax
  split
  · rename_i hlt
    rw [State.ctrGet_ctrPut, if_pos rfl, BitVec.toNat_ofNat, Nat.mod_eq_of_lt hn]
    omega
  · omega

theorem State.ctrGet_ctrMax_ne (s : State) {o q : Nat} (n : Nat) (h : q ≠ o) : (s.ctrMax o n).ctrGet q = s.ctrGet q := by
  unfold State.ctrMax
  split
  · rw [State.ctrGet_ctrPut, if_neg h]
  · rfl

/-! ### Delay lines and their tunes -/

theorem State.setDelays_delays_only (s : State) (xs : List LaneSweep) :
    s.setDelays xs = { s with delays := (s.setDelays xs).delays } := by
  unfold State.setDelays
  refine List.foldlRecOn (motive := fun t : State => t = { s with delays := t.delays }) _ _ rfl ?_
  intro t ht x _
  rw [ht]

theorem State.vault_setDelays (s : State) (xs : List LaneSweep) : (s.setDelays xs).vault = s.vault := by
  rw [State.setDelays_delays_only]; rfl

theorem State.core_setDelays (s : State) (xs : List LaneSweep) : (s.setDelays xs).core = s.core := by
  rw [State.setDelays_delays_only]; rfl

/-- The settings that lanes take rest on the settings alone, whatever else the state holds. -/
theorem State.setDelays_delays_congr {s t : State} (h : t.delays = s.delays) (xs : List LaneSweep) :
    (t.setDelays xs).delays = (s.setDelays xs).delays := by
  unfold State.setDelays
  generalize xs.filter LaneSweep.passes = l
  induction l generalizing s t with
  | nil => exact h
  | cons x l ih => exact ih (by simp only [h])

/-- Lanes that all pass leave no lane to spare. -/
theorem filter_not_passes_of_all {xs : List LaneSweep} (h : xs.all (fun x => LaneSweep.passes x) = true) :
    xs.filter (fun x => !LaneSweep.passes x) = [] := by
  rw [List.filter_eq_nil_iff]
  intro x hx
  simp [List.all_eq_true.mp h x hx]

@[simp] theorem State.core_noteTune (s : State) (n x : Nat) : (s.noteTune n x).core n = { s.core n with
    tunes := (List.range 9).map (fun k => if k = x then ((s.dom n).vset.toNat, s.crossingTemp n x) else (s.core n).tuneOf k) } :=
  Tbl.get_put_self _ _ _ _

theorem State.core_noteTune_ne (s : State) {n q : Nat} (x : Nat) (h : q ≠ n) : (s.noteTune n x).core q = s.core q :=
  Tbl.get_put_ne _ _ _ h

theorem State.vault_noteTune (s : State) (n x : Nat) : (s.noteTune n x).vault = s.vault := rfl

/-- A core whose noted tune of a crossing is the column's present voltage and temperature needs no retune of it (R25). -/
theorem State.tuneDue_of_tuneOf {s : State} {n x : Nat} (h : (s.core n).tuneOf x = ((s.dom n).vset.toNat, s.crossingTemp n x)) :
    s.tuneDue n x = false := by
  simp [State.tuneDue, h]

theorem State.tuneOf_noteTune (s : State) (n : Nat) {x : Nat} (hx : x < 9) :
    ((s.noteTune n x).core n).tuneOf x = ((s.dom n).vset.toNat, s.crossingTemp n x) := by
  simp [CoreSt.tuneOf, hx]

/-! ### Tiers, and a vault with nothing to do -/

theorem State.tier_setTier (s : State) (n d m j : Nat) (v : TierSt) :
    (s.setTier n d v).tier m j = if 8 * m + j = 8 * n + d then v else s.tier m j := Tbl.get_put _ _ _ _ _

theorem State.vault_modVault_ne (s : State) {n q : Nat} (f : VaultSt → VaultSt) (h : q ≠ n) :
    (s.modVault n f).vault q = s.vault q := by
  rw [State.vault_modVault, if_neg h]

theorem State.core_modCore_ne (s : State) {n q : Nat} (f : CoreSt → CoreSt) (h : q ≠ n) :
    (s.modCore n f).core q = s.core q := by
  rw [State.core_modCore, if_neg h]

theorem State.core_modVault (s : State) (n : Nat) (f : VaultSt → VaultSt) : (s.modVault n f).core = s.core := rfl

theorem State.serveFree_of_waiting_nil {s : State} {n : Nat} (h : (s.vault n).waiting = []) : s.serveFree n = s := by
  simp [State.serveFree, VaultSt.ordered, h, rankedRequests]

theorem State.engineBusy_of_jobs_nil {s : State} {n : Nat} (p : Nat) (h : (s.vault n).jobs = []) :
    s.engineBusy n p = false := by
  simp [State.engineBusy, VaultSt.activeJob, h]

/-- No engine of a vault without a job takes a token (R202). -/
theorem State.grantTokens_of_jobs_nil {s : State} {n : Nat} (h : (s.vault n).jobs = []) : s.grantTokens n = s := by
  unfold State.grantTokens
  refine List.foldlRecOn (motive := fun t : State => t = s) _ _ rfl ?_
  rintro t rfl i _
  simp [State.engineBusy_of_jobs_nil _ h]

end Sys2Proof.Machine
end

section
/-! PROOFS. Cores in sequence: the words an instruction memory loses, the refill of the kernel store, the admission and the yield
of the parenthetical context, and the retune of a Playa port (01 R23, R26; 04 R117 to R125). -/

namespace Sys2Proof.Machine

/-! ### Lost instruction words -/

/-- The image of one half of a core's instruction memory. -/
def CoreSt.image (c : CoreSt) (paren : Bool) : Image := if paren then c.imgParen else c.imgMain

/-- A core whose image of one half has lost a word (R117, R118). -/
def CoreSt.struck (storeOk paren : Bool) (c : CoreSt) : CoreSt :=
  if paren then { c with imgParen := imemLost storeOk c.imgParen } else { c with imgMain := imemLost storeOk c.imgMain }

theorem CoreSt.image_struck (storeOk paren : Bool) (c : CoreSt) :
    (c.struck storeOk paren).image paren = imemLost storeOk (c.image paren) := by
  cases paren <;> rfl

/-- The state once the kernel store has been read for the standard kernel, where that is to be written again. -/
def State.storeRead (s : State) (n : Nat) (paren bad : Bool) : State :=
  if bad && (s.core n).image paren == .standard then s.storeLost else s

theorem State.storeRead_eq (s : State) (n : Nat) (paren bad : Bool) : s.storeRead n paren bad
    = { s with glb := { s.glb with kstoreOk := s.glb.kstoreOk && !(bad && (s.core n).image paren == .standard) } } := by
  unfold State.storeRead
  cases bad && (s.core n).image paren == .standard
  · simp
  · simp [State.storeLost]

/-- The state once a core has lost an instruction word and the loss is reported, before the running clause fails. -/
def State.imemStruck (s : State) (n : Nat) (paren bad : Bool) (r : Nat) : State :=
  ((s.storeRead n paren bad).modCore n (CoreSt.struck (s.storeRead n paren bad).glb.kstoreOk paren)).event
    .imem (some 0xE) 1 n (some (s.ring r).field) stImemUncorrectable [BitVec.ofNat 64 n]

theorem State.imemStruck_eventsOnly (s : State) (n : Nat) (paren bad : Bool) (r : Nat) :
    ((s.storeRead n paren bad).modCore n (CoreSt.struck (s.storeRead n paren bad).glb.kstoreOk paren)).EventsOnly
      (s.imemStruck n paren bad r) := State.raise_eventsOnly _ _

theorem State.imemStruck_frame (s : State) (n : Nat) (paren bad : Bool) (r : Nat) : s.imemStruck n paren bad r
    = { s with cores := (s.imemStruck n paren bad r).cores
               glb := { s.glb with kstoreOk := (s.imemStruck n paren bad r).glb.kstoreOk }
               boot := { s.boot with events := (s.imemStruck n paren bad r).boot.events }
               mgt := { s.mgt with awaiting := (s.imemStruck n paren bad r).mgt.awaiting } } := by
  obtain ⟨es, aw, h⟩ := s.imemStruck_eventsOnly n paren bad r
  rw [h, State.storeRead_eq]; rfl

theorem exec_imemUncorrectable_of_running {s : State} {n r i : Nat} {paren : Bool} (bad : Bool) {rest : List (Nat × Nat)}
    (hq : (if paren then (s.core n).qParen else (s.core n).qMain) = (r, i) :: rest) (hrun : s.coreRuns n paren = true) :
    exec (.imemUncorrectable n ⟨paren, bad⟩) s
      = .next (((s.imemStruck n paren bad r).failClause r i (failNone stImemUncorrectable 0)).issueAll) := by
  have hexec : exec (.imemUncorrectable n ⟨paren, bad⟩) s = .next (s.strikeImem n paren bad) := rfl
  rw [hexec, State.strikeImem]
  simp only [hq, hrun, Bool.not_true, Bool.false_eq_true, if_false]
  cases paren <;> rfl

/-! ### The kernel store -/

/-- A powered core in service that waits for the standard kernel gets it (R117). -/
def State.fillCore (t : State) (n : Nat) : State :=
  if (t.dom n).power = 2 ∧ !(t.core n).mappedOut then t.modCore n CoreSt.loadStandard else t

theorem State.fillCore_cores_only (t : State) (n : Nat) : t.fillCore n = { t with cores := (t.fillCore n).cores } := by
  unfold State.fillCore
  split <;> rfl

theorem State.core_fillCore (t : State) (n q : Nat) : (t.fillCore n).core q
    = if q = n ∧ (t.dom q).power = 2 ∧ (t.core q).mappedOut = false then (t.core q).loadStandard else t.core q := by
  unfold State.fillCore
  by_cases hq : q = n
  · subst hq
    by_cases h : (t.dom q).power = 2 ∧ (t.core q).mappedOut = false
    · simp [h]
    · rw [if_neg (by simpa using h), if_neg (by simpa using h)]
  · rw [if_neg (c := q = n ∧ _) (fun h => hq h.1)]
    split
    · exact State.core_modCore_ne t _ hq
    · rfl

/-- Cores filled one after another: each of the list once, no other (R117). -/
theorem State.foldl_fillCore {l : List Nat} (hl : l.Nodup) (t : State) :
    l.foldl State.fillCore t = { t with cores := (l.foldl State.fillCore t).cores } ∧
      ∀ q, (l.foldl State.fillCore t).core q
        = if q ∈ l ∧ (t.dom q).power = 2 ∧ (t.core q).mappedOut = false then (t.core q).loadStandard else t.core q := by
  induction l generalizing t with
  | nil => exact ⟨rfl, fun q => (if_neg (by simp)).symm⟩
  | cons n l ih =>
    obtain ⟨hn, hl⟩ := List.nodup_cons.mp hl
    obtain ⟨hframe, hcore⟩ := ih hl (t.fillCore n)
    have hdom : (t.fillCore n).dom = t.dom := by rw [State.fillCore_cores_only]; rfl
    refine ⟨by rw [List.foldl_cons, hframe, State.fillCore_cores_only], fun q => ?_⟩
    rw [List.foldl_cons, hcore q, hdom, State.core_fillCore]
    by_cases hq : q = n
    · subst hq
      simp [hn]
    · simp [hq]

/-- The kernel store is good again. -/
def State.storeRefilled (s : State) : State := { s with glb := { s.glb with kstoreOk := true } }

theorem State.core_storeRefilled (s : State) : s.storeRefilled.core = s.core := rfl
theorem State.dom_storeRefilled (s : State) : s.storeRefilled.dom = s.dom := rfl

theorem exec_kernelStoreRefill_of_step {s : State} (h : 5 ≤ s.glb.step.toNat) :
    exec .kernelStoreRefill s = .next ((List.range 256).foldl State.fillCore s.storeRefilled) :=
  if_neg (Nat.not_lt.mpr h)

/-! ### Admission and yield -/

theorem State.playaSeen_ctr_only (s : State) (n off len : Nat) :
    s.playaSeen n off len = { s with ctr := (s.playaSeen n off len).ctr } := by
  unfold State.playaSeen
  dsimp only
  split <;> rfl

/-- The state once the spilled banks of a core have been read back (R123). -/
def State.spilledSeen (s : State) (n : Nat) : State :=
  (s.core n).spilled.foldl (fun t k => t.playaSeen n (saveArea k) 0x4000) s

theorem State.spilledSeen_ctr_only (s : State) (n : Nat) : s.spilledSeen n = { s with ctr := (s.spilledSeen n).ctr } := by
  unfold State.spilledSeen
  refine List.foldlRecOn (motive := fun t : State => t = { s with ctr := t.ctr }) _ _ rfl ?_
  intro t ht k _
  rw [State.playaSeen_ctr_only, ht]

theorem State.spilledSeen_of_nil {s : State} {n : Nat} (h : (s.core n).spilled = []) : s.spilledSeen n = s := by
  rw [State.spilledSeen, h]; rfl

theorem State.core_spilledSeen (s : State) (n : Nat) : (s.spilledSeen n).core = s.core := by
  rw [State.spilledSeen_ctr_only]; rfl

theorem mem_foldl_insSet (l acc : List Nat) (k : Nat) : k ∈ l.foldl (fun a j => insSet j a) acc ↔ k ∈ l ∨ k ∈ acc := by
  induction l generalizing acc with
  | nil => simp
  | cons j l ih =>
    rw [List.foldl_cons, ih, mem_insSet, List.mem_cons]
    tauto

/-- A core whose parenthetical context is admitted: its spilled banks, read from the slice, are back (R120, R121, R123). -/
def State.admitted (s : State) (n : Nat) (held : List Nat) (x : CoreSt) : CoreSt :=
  let words (k : Nat) : List Word32 := bytesToWords (s.playaRead n (saveArea k) 0x4000)
  { x with
    run := 2
    mainHeld := if x.qMain = [] then [] else held.foldl (fun l k => insSet k l) []
    array0 := if x.spilled.contains 0 then x.array0.restore (words 0) else x.array0
    array1 := if x.spilled.contains 1 then x.array1.restore (words 1) else x.array1
    spilled := [] }

theorem State.mem_mainHeld_admitted (s : State) (n : Nat) (held : List Nat) (x : CoreSt) (k : Nat) :
    k ∈ (s.admitted n held x).mainHeld ↔ k ∈ held ∧ x.qMain ≠ [] := by
  have hheld : (s.admitted n held x).mainHeld = if x.qMain = [] then [] else held.foldl (fun l k => insSet k l) [] := rfl
  rw [hheld]
  split
  · simp_all
  · simp_all [mem_foldl_insSet]

theorem exec_parenAdmit_of_ready {s : State} {n : Nat} (held : List Nat) (hrun : (s.core n).run.toNat < 2)
    (hq : (s.core n).qParen ≠ []) (htune : (s.core n).retuning = false) (hpow : (s.dom n).power = 2) (hhalt : s.halted = false)
    (hwait : s.mainWaits n = true) :
    exec (.parenAdmit ⟨n, held⟩) s = .next ((s.spilledSeen n).modCore n ((s.spilledSeen n).admitted n held)) := by
  have h2 : (s.core n).run ≠ 2 := fun h => absurd (h ▸ hrun) (by decide)
  have h3 : (s.core n).run ≠ 3 := fun h => absurd (h ▸ hrun) (by decide)
  exact if_neg (not_or.mpr ⟨h2, not_or.mpr ⟨h3, by simp [hq, htune, hpow, hhalt, hwait]⟩⟩)

/-- A bank in flight is saved, and its array goes to the main context (R122, R123). -/
def State.spillBank (s : State) (n : Nat) (b : SpilledBank) : State :=
  (s.playaWrite n (saveArea b.array) (wordsToBytes b.words) false).modCore n (fun x =>
    if b.array = 0 then { x with array0 := x.array0.spill, spilled := insSet 0 x.spilled }
    else { x with array1 := x.array1.spill, spilled := insSet 1 x.spilled })

/-- A write of a slice changes no state but the slices and the use of debug slots (R476). -/
theorem State.playaWrite_frame (s : State) (n off : Nat) (bs : List Byte) (p : Bool) :
    s.playaWrite n off bs p = { s with playa := (s.playaWrite n off bs p).playa, dbg := (s.playaWrite n off bs p).dbg } := by
  unfold State.playaWrite State.perturbPlaya
  split
  · rfl
  · refine List.foldlRecOn (motive := fun t : State => t = { s with playa := t.playa, dbg := t.dbg }) _ _ rfl ?_
    intro t ht e _
    dsimp only
    split
    · exact ht
    · rw [ht]; rfl

theorem State.core_playaWrite (s : State) (n off : Nat) (bs : List Byte) (p : Bool) : (s.playaWrite n off bs p).core = s.core := by
  rw [State.playaWrite_frame]; rfl

theorem State.core_spillBank_self (s : State) (n : Nat) (b : SpilledBank) :
    ((s.spillBank n b).core n).spilled = insSet (if b.array = 0 then 0 else 1) (s.core n).spilled := by
  rw [State.spillBank, State.core_modCore_self, State.core_playaWrite]
  split <;> rfl

theorem State.core_spillBank_ne (s : State) {n q : Nat} (b : SpilledBank) (h : q ≠ n) : (s.spillBank n b).core q = s.core q := by
  rw [State.spillBank, State.core_modCore_ne _ _ h, State.core_playaWrite]

theorem State.spillBank_frame (s : State) (n : Nat) (b : SpilledBank) : s.spillBank n b
    = { s with cores := (s.spillBank n b).cores, dbg := (s.spillBank n b).dbg
               playa := (s.playaWrite n (saveArea b.array) (wordsToBytes b.words) false).playa } := by
  unfold State.spillBank
  rw [State.playaWrite_frame]; rfl

/-- The core is back in its main context, the parenthetical vector registers drawn anew (R122; log 7). -/
def State.backToMain (s : State) (n : Nat) : State :=
  (s.useVectors n true).modCore n (fun x => { x with run := 1, mainHeld := [] })

theorem State.core_backToMain_self (s : State) (n : Nat) :
    (s.backToMain n).core n = { s.core n with run := 1, mainHeld := [], vecParen := s.freeIdx } := by
  have huse : (s.useVectors n true).core n = { s.core n with vecParen := s.freeIdx } := Tbl.get_put_self ..
  rw [State.backToMain, State.core_modCore_self, huse]

theorem State.core_backToMain_ne (s : State) {n q : Nat} (h : q ≠ n) : (s.backToMain n).core q = s.core q := by
  have huse : (s.useVectors n true).core q = s.core q := Tbl.get_put_ne _ _ _ h
  rw [State.backToMain, State.core_modCore_ne _ _ h, huse]

theorem State.backToMain_frame (s : State) (n : Nat) :
    s.backToMain n = { s with cores := (s.backToMain n).cores, freeIdx := (s.backToMain n).freeIdx } := rfl

/-- A yield and its cycles, at least 1 and at most 16, are counted (R125). -/
def State.countYield (s : State) (n cycles : Nat) : State :=
  (s.ctrAdd (coreYields n) 1).ctrMax (coreYieldMax n) (max 1 (min 16 cycles))

theorem State.countYield_ctr_only (s : State) (n cycles : Nat) :
    s.countYield n cycles = { s with ctr := (s.countYield n cycles).ctr } := by
  unfold State.countYield
  rw [State.ctrMax_ctr_only]; rfl

theorem State.core_countYield (s : State) (n cycles : Nat) : (s.countYield n cycles).core = s.core := by
  rw [State.countYield_ctr_only]; rfl

theorem coreYields_ne_coreYieldMax (n : Nat) : coreYields n ≠ coreYieldMax n := by
  unfold coreYields coreYieldMax coreCtr
  omega

theorem State.ctrGet_countYield_yields (s : State) (n cycles : Nat) :
    (s.countYield n cycles).ctrGet (coreYields n) = s.ctrGet (coreYields n) + 1 := by
  rw [State.countYield, State.ctrGet_ctrMax_ne _ _ (coreYields_ne_coreYieldMax n), State.ctrGet_ctrAdd, if_pos rfl]; rfl

theorem State.ctrGet_countYield_max (s : State) (n cycles : Nat) : ((s.countYield n cycles).ctrGet (coreYieldMax n)).toNat
    = max (s.ctrGet (coreYieldMax n)).toNat (max 1 (min 16 cycles)) := by
  rw [State.countYield, State.ctrGet_ctrMax_self _ _ (by omega), State.ctrGet_ctrAdd,
    if_neg (coreYields_ne_coreYieldMax n).symm]

/-- A parenthetical context that is running yields to a main context that is ready (R122). -/
theorem exec_contextYield_of_running {s : State} {n : Nat} (cycles : Nat) (spill : List SpilledBank)
    (hrun : 2 ≤ (s.core n).run.toNat) (hq : (s.core n).qMain ≠ []) :
    exec (.contextYield n cycles spill) s
      = .next (((spill.foldl (fun t b => t.spillBank n b) s).backToMain n).countYield n cycles) := by
  have h23 : (s.core n).run = 2 ∨ (s.core n).run = 3 := by
    have := (s.core n).run.isLt
    rcases (by omega : (s.core n).run.toNat = 2 ∨ (s.core n).run.toNat = 3) with h | h
    · exact .inl (BitVec.eq_of_toNat_eq h)
    · exact .inr (BitVec.eq_of_toNat_eq h)
  exact if_neg (by rcases h23 with h | h <;> simp [h, hq])

/-! ### The retune of a Playa port -/

/-- The sweeps of a core's Playa port. -/
def portSweeps (n : Nat) (sweeps : List LaneSweep) : List LaneSweep :=
  sweeps.filter (fun x => x.column == n && x.crossing == 0)

/-- The port's lanes have their settings, and the core goes on (R23, R25). -/
def State.portTuned (s : State) (n : Nat) (xs : List LaneSweep) : State :=
  ((s.setDelays xs).noteTune n 0).modCore n (fun c => { c with retuning := false })

theorem State.portTuned_frame (s : State) (n : Nat) (xs : List LaneSweep) :
    s.portTuned n xs = { s with cores := (s.portTuned n xs).cores, delays := (s.setDelays xs).delays } := by
  unfold State.portTuned
  rw [State.setDelays_delays_only]; rfl

theorem State.core_portTuned_self (s : State) (n : Nat) (xs : List LaneSweep) :
    (s.portTuned n xs).core n = { ((s.setDelays xs).noteTune n 0).core n with retuning := false } := by
  rw [State.portTuned, State.core_modCore_self]

theorem State.core_portTuned_ne (s : State) {n q : Nat} (xs : List LaneSweep) (h : q ≠ n) :
    (s.portTuned n xs).core q = s.core q := by
  rw [State.portTuned, State.core_modCore_ne _ _ h, State.core_noteTune_ne _ _ h, State.core_setDelays]

theorem State.tuneDue_portTuned (s : State) (n : Nat) (xs : List LaneSweep) : (s.portTuned n xs).tuneDue n 0 = false := by
  refine State.tuneDue_of_tuneOf ?_
  rw [State.core_portTuned_self]
  exact State.tuneOf_noteTune (s.setDelays xs) n (by decide)

/-- A lane that is too narrow is reported and joins the findings (R26). -/
def State.reportNarrow (s : State) (n : Nat) (x : LaneSweep) : State :=
  (s.event .retuneNarrow none 1 n none 0 [BitVec.ofNat 64 x.lane]).finding 2 n x.lane 0

theorem State.foldl_reportNarrow_reportsOnly (s : State) (n : Nat) (l : List LaneSweep) :
    s.ReportsOnly (l.foldl (fun t x => t.reportNarrow n x) s) := by
  refine List.foldlRecOn (motive := fun t : State => s.ReportsOnly t) _ _ (ReportsOnly.refl s) ?_
  intro t ht x _
  exact (ht.raise _).finding ..

theorem State.length_findings_reportNarrow (s : State) (n : Nat) (l : List LaneSweep) :
    (l.foldl (fun t x => t.reportNarrow n x) s).mgt.findings.length = s.mgt.findings.length + l.length := by
  induction l generalizing s with
  | nil => rfl
  | cons x l ih =>
    have hone : (s.reportNarrow n x).mgt.findings.length = s.mgt.findings.length + 1 := List.length_append ..
    rw [List.foldl_cons, ih, hone, List.length_cons]
    omega

theorem State.ReportsOnly.frame_of_delays {s u t : State} (h : u.ReportsOnly t)
    (hu : u = { s with cores := u.cores, delays := u.delays }) :
    t = { s with cores := t.cores, delays := t.delays, boot := { s.boot with events := t.boot.events }
                 mgt := { s.mgt with awaiting := t.mgt.awaiting, findings := t.mgt.findings } } := by
  obtain ⟨es, aw, fs, rfl⟩ := h
  rw [hu]

theorem exec_playaRetuneDone_of_wide {s : State} {n : Nat} {sweeps : List LaneSweep} (htune : (s.core n).retuning = true)
    (hwide : (portSweeps n sweeps).filter (fun x => !LaneSweep.passes x) = []) :
    exec (.playaRetuneDone n sweeps) s = .next (s.portTuned n (portSweeps n sweeps)) := by
  have hrun : exec (.playaRetuneDone n sweeps) s = execPlayaRetuneDone n sweeps s := rfl
  unfold portSweeps at hwide ⊢
  rw [hrun, execPlayaRetuneDone, if_neg (by simp [htune])]
  simp only [hwide]; rfl

theorem exec_playaRetuneDone_of_narrow {s : State} {n : Nat} {sweeps : List LaneSweep} (htune : (s.core n).retuning = true)
    (hnarrow : (portSweeps n sweeps).filter (fun x => !LaneSweep.passes x) ≠ []) :
    exec (.playaRetuneDone n sweeps) s
      = .next (((((portSweeps n sweeps).filter (fun x => !LaneSweep.passes x)).foldl (fun t x => t.reportNarrow n x)
          (s.portTuned n (portSweeps n sweeps))).loseCore n).issueAll) := by
  have hrun : exec (.playaRetuneDone n sweeps) s = execPlayaRetuneDone n sweeps s := rfl
  unfold portSweeps at hnarrow ⊢
  rw [hrun, execPlayaRetuneDone, if_neg (by simp [htune])]
  dsimp only
  split
  · contradiction
  · rfl

end Sys2Proof.Machine
end

section
/-! PROOFS. O27: the cases of the cores' commands, put together. -/

open Sys2Proof Sys2Proof.Machine

namespace Sys2Proof.Proofs

theorem imemUncorrectable_fails_share {s : State} {n r i : Nat} {paren : Bool} (bad : Bool) {rest : List (Nat × Nat)}
    (hq : (if paren then (s.core n).qParen else (s.core n).qMain) = (r, i) :: rest) (hrun : s.coreRuns n paren = true) :
    ∃ u : State, exec (.imemUncorrectable n ⟨paren, bad⟩) s
        = .next ((u.failClause r i { status := 0x302, operand := 7, detail := 0 }).issueAll) ∧
      u = { s with cores := u.cores, glb := { s.glb with kstoreOk := u.glb.kstoreOk }, boot := { s.boot with events := u.boot.events }
                   mgt := { s.mgt with awaiting := u.mgt.awaiting } } ∧ coresSameBut s u n ∧
      u.glb.kstoreOk = (s.glb.kstoreOk && !(bad && (s.core n).image paren == .standard)) ∧
      (∀ code, (s.core n).image paren = .loaded code → (u.core n).image paren = .invalid) := by
  have hcore : (s.imemStruck n paren bad r).core n
      = (s.core n).struck (s.storeRead n paren bad).glb.kstoreOk paren := by
    rw [(s.imemStruck_eventsOnly n paren bad r).core, State.core_modCore_self, State.storeRead_eq]; rfl
  refine ⟨_, exec_imemUncorrectable_of_running bad hq hrun, s.imemStruck_frame n paren bad r, ?_, ?_, ?_⟩
  · intro q hne
    rw [(s.imemStruck_eventsOnly n paren bad r).core, State.core_modCore_ne _ _ hne, State.storeRead_eq]; rfl
  · rw [(s.imemStruck_eventsOnly n paren bad r).glb, State.modCore_glb, State.storeRead_eq]
  · intro code hcode
    rw [hcore, CoreSt.image_struck, hcode]; rfl

theorem kernelStoreRefill_fills_cores {s : State} (h : 5 ≤ s.glb.step.toNat) :
    ∃ t : State, exec .kernelStoreRefill s = .next t ∧ t = { s with cores := t.cores, glb := { s.glb with kstoreOk := true } } ∧
      ∀ n, t.core n = if n < 256 ∧ (s.dom n).power = 2 ∧ (s.core n).mappedOut = false then (s.core n).loadStandard
        else s.core n := by
  obtain ⟨hframe, hcore⟩ := State.foldl_fillCore List.nodup_range s.storeRefilled
  refine ⟨_, exec_kernelStoreRefill_of_step h, hframe, fun n => ?_⟩
  simp only [hcore n, List.mem_range, State.core_storeRefilled, State.dom_storeRefilled]

theorem parenAdmit_runs_context {s : State} {n : Nat} (held : List Nat) (hrun : (s.core n).run.toNat < 2)
    (hq : (s.core n).qParen ≠ []) (htune : (s.core n).retuning = false) (hpow : (s.dom n).power = 2) (hhalt : s.halted = false)
    (hwait : s.mainWaits n = true) :
    ∃ t : State, exec (.parenAdmit ⟨n, held⟩) s = .next t ∧ t = { s with cores := t.cores, ctr := t.ctr } ∧ coresSameBut s t n ∧
      ((s.core n).spilled = [] → t.ctr = s.ctr) ∧
      (∀ k, k ∈ (t.core n).mainHeld ↔ k ∈ held ∧ (s.core n).qMain ≠ []) ∧
      (t.core n).run = 2 ∧ (t.core n).spilled = [] ∧ (t.core n).qParen = (s.core n).qParen ∧
      (t.core n).qMain = (s.core n).qMain := by
  have hcore : ((s.spilledSeen n).modCore n ((s.spilledSeen n).admitted n held)).core n
      = (s.spilledSeen n).admitted n held (s.core n) := by
    rw [State.core_modCore_self, State.core_spilledSeen]
  refine ⟨_, exec_parenAdmit_of_ready held hrun hq htune hpow hhalt hwait, ?_, ?_, ?_, ?_, ?_⟩
  · rw [State.spilledSeen_ctr_only]; rfl
  · intro q hne
    rw [State.core_modCore_ne _ _ hne, State.core_spilledSeen]
  · intro hnil
    rw [State.modCore_ctr, State.spilledSeen_of_nil hnil]
  · intro k
    rw [hcore, State.mem_mainHeld_admitted]
  · rw [hcore]
    exact ⟨rfl, rfl, rfl, rfl⟩

theorem contextYield_returns_to_main {s : State} {n : Nat} (cycles : Nat) (hrun : 2 ≤ (s.core n).run.toNat)
    (hq : (s.core n).qMain ≠ []) :
    ∃ t : State, exec (.contextYield n cycles []) s = .next t ∧ t = { s with cores := t.cores, ctr := t.ctr, freeIdx := t.freeIdx } ∧
      coresSameBut s t n ∧ t.core n = { s.core n with run := 1, mainHeld := [], vecParen := s.freeIdx } ∧
      t.ctrGet (coreYields n) = s.ctrGet (coreYields n) + 1 ∧
      (t.ctrGet (coreYieldMax n)).toNat = max (s.ctrGet (coreYieldMax n)).toNat (max 1 (min 16 cycles)) := by
  refine ⟨(s.backToMain n).countYield n cycles, exec_contextYield_of_running cycles [] hrun hq, ?_, ?_, ?_, ?_, ?_⟩
  · rw [State.countYield_ctr_only, State.backToMain_frame]
  · intro q hne
    rw [State.core_countYield, State.core_backToMain_ne _ hne]
  · rw [State.core_countYield, State.core_backToMain_self]
  · exact State.ctrGet_countYield_yields ..
  · exact State.ctrGet_countYield_max ..

theorem contextYield_saves_bank {s : State} {n : Nat} (cycles : Nat) (b : SpilledBank) (hrun : 2 ≤ (s.core n).run.toNat)
    (hq : (s.core n).qMain ≠ []) :
    ∃ t : State, exec (.contextYield n cycles [b]) s = .next t ∧ coresSameBut s t n ∧
      t = { s with cores := t.cores, ctr := t.ctr, freeIdx := t.freeIdx, playa := t.playa, dbg := t.dbg } ∧
      t.playa = (s.playaWrite n (saveArea b.array) (wordsToBytes b.words) false).playa ∧ (t.core n).run = 1 ∧
      (t.core n).spilled = insSet (if b.array = 0 then 0 else 1) (s.core n).spilled := by
  refine ⟨((s.spillBank n b).backToMain n).countYield n cycles, exec_contextYield_of_running cycles [b] hrun hq, ?_, ?_, ?_, ?_, ?_⟩
  · intro q hne
    rw [State.core_countYield, State.core_backToMain_ne _ hne, State.core_spillBank_ne _ _ hne]
  · rw [State.countYield_ctr_only, State.backToMain_frame, State.spillBank_frame]
  · rw [State.countYield_ctr_only, State.backToMain_frame, State.spillBank_frame]
  · rw [State.core_countYield, State.core_backToMain_self]
  · rw [State.core_countYield, State.core_backToMain_self]
    exact s.core_spillBank_self n b

theorem playaRetuneDone_sets_lanes {s : State} {n : Nat} {sweeps : List LaneSweep} (htune : (s.core n).retuning = true)
    (hwide : (portSweeps n sweeps).all (fun x => LaneSweep.passes x) = true) :
    ∃ t : State, exec (.playaRetuneDone n sweeps) s = .next t ∧ t = { s with cores := t.cores, delays := t.delays } ∧
      coresSameBut s t n ∧ (t.core n).retuning = false ∧ t.tuneDue n 0 = false ∧
      t.delays = (s.setDelays (portSweeps n sweeps)).delays := by
  refine ⟨_, exec_playaRetuneDone_of_wide htune (filter_not_passes_of_all hwide), s.portTuned_frame n _, ?_, ?_, ?_, rfl⟩
  · exact fun q hne => s.core_portTuned_ne _ hne
  · rw [State.core_portTuned_self]
  · exact s.tuneDue_portTuned n _

theorem playaRetuneDone_loses_core {s : State} {n : Nat} {sweeps : List LaneSweep} (htune : (s.core n).retuning = true)
    (hnarrow : (portSweeps n sweeps).all (fun x => LaneSweep.passes x) = false) :
    ∃ u : State, exec (.playaRetuneDone n sweeps) s = .next ((u.loseCore n).issueAll) ∧
      u = { s with cores := u.cores, delays := u.delays, boot := { s.boot with events := u.boot.events }
                   mgt := { s.mgt with awaiting := u.mgt.awaiting, findings := u.mgt.findings } } ∧
      coresSameBut s u n ∧ (u.core n).retuning = false ∧
      u.mgt.findings.length = s.mgt.findings.length + ((portSweeps n sweeps).filter (fun x => !LaneSweep.passes x)).length := by
  have hsome : (portSweeps n sweeps).filter (fun x => !LaneSweep.passes x) ≠ [] := by
    obtain ⟨x, hx, hfail⟩ := List.all_eq_false.mp hnarrow
    exact List.ne_nil_of_mem (List.mem_filter.mpr ⟨hx, by simpa using hfail⟩)
  have hreport := (s.portTuned n (portSweeps n sweeps)).foldl_reportNarrow_reportsOnly n
    ((portSweeps n sweeps).filter (fun x => !LaneSweep.passes x))
  refine ⟨_, exec_playaRetuneDone_of_narrow htune hsome, hreport.frame_of_delays (s.portTuned_frame n _), ?_, ?_, ?_⟩
  · intro q hne
    rw [hreport.core, State.core_portTuned_ne _ _ hne]
  · rw [hreport.core, State.core_portTuned_self]
  · rw [State.length_findings_reportNarrow, State.portTuned_frame]

/-- Settles O27: each clause is one case of an instruction-memory error, a refill, an admission, a yield or a retune; the register
file after a yield is log 7's. -/
theorem coresSequence : Obligations.CoresSequence := by
  unfold Obligations.CoresSequence
  refine ⟨?imem, ?refill, ?admission, ?yield, ?spill, ?wide, ?narrow⟩
  case imem => exact fun n r i paren bad rest s hq hrun => imemUncorrectable_fails_share bad hq hrun
  case refill => exact fun s h => kernelStoreRefill_fills_cores h
  case admission =>
    exact fun n held s hrun hq htune hpow hhalt hwait => parenAdmit_runs_context held hrun hq htune hpow hhalt hwait
  case yield => exact fun n cycles s hrun hq => contextYield_returns_to_main cycles hrun hq
  case spill => exact fun n cycles b s hrun hq => contextYield_saves_bank cycles b hrun hq
  case wide => exact fun n sweeps s htune hwide => playaRetuneDone_sets_lanes htune hwide
  case narrow => exact fun n sweeps s htune hnarrow => playaRetuneDone_loses_core htune hnarrow

end Sys2Proof.Proofs
end

section
/-! PROOFS. Failing lanes of a vault's channel: the spare that takes a lane's place, half width, and the evacuation of the vault
(05 R172 to R176; log 32). -/

namespace Sys2Proof.Machine

/-! ### One failed lane -/

/-- t is s but for vault v. -/
structure State.VaultOnly (s t : State) (v : Nat) : Prop where
  frame  : t = { s with vaults := t.vaults }
  others : vaultsSameBut s t v

theorem State.VaultOnly.refl (s : State) (v : Nat) : s.VaultOnly s v := ⟨rfl, fun _ _ => rfl⟩

theorem State.VaultOnly.setVault {s t : State} {v : Nat} (h : s.VaultOnly t v) (x : VaultSt) : s.VaultOnly (t.setVault v x) v where
  frame := by rw [h.frame]; rfl
  others q hq := by rw [State.vault_setVault, if_neg hq, h.others q hq]

theorem State.VaultOnly.modVault {s t : State} {v : Nat} (h : s.VaultOnly t v) (f : VaultSt → VaultSt) :
    s.VaultOnly (t.modVault v f) v := h.setVault _

/-- A vault with one more failed data lane on its list. -/
def VaultSt.withFailed (x : VaultSt) (lane : Nat) : VaultSt := { x with failedLanes := insSet lane x.failedLanes }

/-- At full width a failed data lane takes a free spare (R173). -/
theorem State.failDataLane_of_spare {s : State} {v sub lane : Nat} (hmode : (s.vault v).mode = 0)
    (hspare : (s.vault v).spares < 16) :
    s.failDataLane v sub lane = (s.setVault v ((s.vault v).withFailed (64 * sub + lane))).modVault v
      (fun x => { x with spares := x.spares + 1 }) := (if_pos hmode).trans (if_pos hspare)

/-- Without a free spare the channel goes to half width, where the chosen halves need 16 spares at most (R174). -/
theorem State.failDataLane_of_no_spare {s : State} {v sub lane : Nat} {x : VaultSt} (hmode : (s.vault v).mode = 0)
    (hspare : 16 ≤ (s.vault v).spares) (hx : x = (s.vault v).withFailed (64 * sub + lane))
    (hneed : x.halvesNeed x.chooseHalves ≤ 16) :
    s.failDataLane v sub lane = (s.setVault v x).setVault v { x with
      mode := 1, halfSel := BitVec.ofNat 8 x.chooseHalves, spares := x.halvesNeed x.chooseHalves, stopped := List.range 8 } := by
  have hhalf : s.failDataLane v sub lane = (s.setVault v x).toHalfWidth v :=
    hx ▸ (if_pos hmode).trans (if_neg (Nat.not_lt.mpr hspare))
  rw [hhalf, State.toHalfWidth, State.vault_setVault_self]
  exact if_pos hneed

/-- At half width a failed lane in use without a free spare evacuates the vault (R175). -/
theorem State.failDataLane_of_half {s : State} {v sub lane : Nat} (hmode : (s.vault v).mode = 1)
    (hspare : 16 ≤ (s.vault v).spares) (hused : bitAt (s.vault v).halfSel.toNat sub = decide (32 ≤ lane)) :
    s.failDataLane v sub lane = (s.setVault v ((s.vault v).withFailed (64 * sub + lane))).evacuate v :=
  have hmode0 : (s.vault v).mode ≠ 0 := by rw [hmode]; decide
  (if_neg hmode0).trans ((if_pos hmode).trans ((if_neg (not_not.mpr hused)).trans (if_neg (Nat.not_lt.mpr hspare))))

theorem State.failCmdLane_of_spare {s : State} {v : Nat} (h : (s.vault v).cmdSpares < 2) :
    s.failCmdLane v = s.modVault v (fun x => { x with cmdSpares := x.cmdSpares + 1 }) := if_pos h

/-- What a free spare changes: the list of failed lanes and the count of spares. -/
theorem State.failDataLane_spare_effect {s : State} {v : Nat} (sub lane : Nat) (hmode : (s.vault v).mode = 0)
    (hspare : (s.vault v).spares < 16) :
    s.VaultOnly (s.failDataLane v sub lane) v ∧ (s.failDataLane v sub lane).vault v
      = { s.vault v with failedLanes := insSet (64 * sub + lane) (s.vault v).failedLanes, spares := (s.vault v).spares + 1 } := by
  rw [State.failDataLane_of_spare hmode hspare]
  exact ⟨((VaultOnly.refl s v).setVault _).modVault _, by rw [State.vault_modVault_self, State.vault_setVault_self]; rfl⟩

theorem State.failCmdLane_spare_effect {s : State} {v : Nat} (hspare : (s.vault v).cmdSpares < 2) :
    s.VaultOnly (s.failCmdLane v) v ∧
      (s.failCmdLane v).vault v = { s.vault v with cmdSpares := (s.vault v).cmdSpares + 1 } := by
  rw [State.failCmdLane_of_spare hspare]
  exact ⟨(VaultOnly.refl s v).modVault _, State.vault_modVault_self ..⟩

/-! ### Evacuation -/

/-- The report of a change of a vault's lanes is one event of its kind, whatever the mode. -/
theorem State.laneEvent_eq_raise (s : State) (v : Nat) : ∃ e : Event, e.kind = .vaultLane ∧ s.laneEvent v = s.raise e := by
  unfold State.laneEvent
  dsimp only
  split
  · exact ⟨_, rfl, rfl⟩
  · exact ⟨_, rfl, rfl⟩

/-- A vault whose traffic begins to move to the side port (R175). -/
def VaultSt.evacuated (x : VaultSt) : VaultSt := { x with mode := 2, moving := true, halfSel := 0 }

/-- A vault's traffic begins to move to the side port, and its cache is dropped (R175, R176). -/
def State.beginMove (s : State) (v : Nat) : State := (s.modVault v VaultSt.evacuated).dropCache v

/-- The beginning of the move as it is reported, before the vault's near-bank work ends. -/
def State.reportedMove (s : State) (v : Nat) : State := ((s.beginMove v).laneEvent v).finding 5 v 0 0

theorem State.evacuate_of_mode_lt {s : State} {v : Nat} (h : (s.vault v).mode.toNat < 2) :
    s.evacuate v = (s.reportedMove v).leaveEngines v := if_neg (Nat.not_le.mpr h)

theorem State.leaveEngines_of_jobs_nil {s : State} {v : Nat} (h : (s.vault v).jobs = []) : s.leaveEngines v = s := by
  rw [State.leaveEngines, h]; rfl

theorem State.reportedMove_reportsOnly (s : State) (v : Nat) : (s.beginMove v).ReportsOnly (s.reportedMove v) := by
  obtain ⟨e, _, he⟩ := (s.beginMove v).laneEvent_eq_raise v
  rw [State.reportedMove, he]
  exact ((ReportsOnly.refl _).raise e).finding ..

theorem State.vault_reportedMove (s : State) (v q : Nat) : (s.reportedMove v).vault q
    = if q = v then (s.vault v).evacuated else s.vault q := by
  rw [(s.reportedMove_reportsOnly v).vault]
  exact State.vault_modVault s v q VaultSt.evacuated

theorem State.caches_reportedMove (s : State) (v : Nat) :
    (s.reportedMove v).caches = s.caches.filter (fun e => decide (e.1 / 4096 ≠ v)) :=
  (s.reportedMove_reportsOnly v).caches

theorem State.defect_last_reportedMove (s : State) (v : Nat) :
    ((s.reportedMove v).mgt.findings.getLast?).map (·.defect) = some { kind := 5, unit := v, sub := 0, sub2 := 0 } :=
  State.defect_last_finding ..

theorem State.reportedMove_frame (s : State) (v : Nat) :
    s.reportedMove v = { s with
      vaults := (s.reportedMove v).vaults, caches := (s.reportedMove v).caches
      boot := { s.boot with events := (s.reportedMove v).boot.events }
      mgt := { s.mgt with awaiting := (s.reportedMove v).mgt.awaiting, findings := (s.reportedMove v).mgt.findings } } := by
  obtain ⟨es, aw, fs, h⟩ := s.reportedMove_reportsOnly v
  rw [h]; rfl

/-! ### The commands -/

theorem State.vault_raise (s : State) (e : Event) : (s.raise e).vault = s.vault := rfl

/-- A sub-channel, or after a change to half width the channel, with its spares' delay lines set and its traffic going on (R23,
R173, R174). -/
def State.restartTrained (s : State) (v sub : Nat) (xs : List LaneSweep) : State :=
  (s.setDelays xs).modVault v (fun x =>
    { x with stopped := if x.stopped.length = 8 ∧ x.mode = 1 then [] else delSet sub x.stopped })

theorem State.restartTrained_frame (s : State) (v sub : Nat) (xs : List LaneSweep) : s.restartTrained v sub xs
    = { s with vaults := (s.restartTrained v sub xs).vaults, delays := (s.restartTrained v sub xs).delays } := by
  unfold State.restartTrained
  rw [State.setDelays_delays_only]; rfl

theorem State.vault_restartTrained_self {s : State} {v sub : Nat} (xs : List LaneSweep)
    (h : ¬((s.vault v).stopped.length = 8 ∧ (s.vault v).mode = 1)) :
    (s.restartTrained v sub xs).vault v = { s.vault v with stopped := delSet sub (s.vault v).stopped } := by
  rw [State.restartTrained, State.vault_modVault_self, State.vault_setDelays, if_neg h]

theorem State.vault_restartTrained_ne (s : State) {v q : Nat} (sub : Nat) (xs : List LaneSweep) (h : q ≠ v) :
    (s.restartTrained v sub xs).vault q = s.vault q := by
  rw [State.restartTrained, State.vault_modVault_ne _ _ h, State.vault_setDelays]

theorem State.delays_raise_restartTrained (s : State) (v sub : Nat) (xs : List LaneSweep) (e : Event) :
    ((s.restartTrained v sub xs).raise e).delays = (s.setDelays xs).delays := rfl

theorem State.EventsOnly.frame_of_lanes {s u t : State} (h : u.EventsOnly t)
    (hu : u = { s with vaults := u.vaults, delays := u.delays }) :
    t = { s with vaults := t.vaults, delays := t.delays, boot := { s.boot with events := t.boot.events }
                 mgt := { s.mgt with awaiting := t.mgt.awaiting } } := by
  obtain ⟨es, aw, rfl⟩ := h
  rw [hu]

theorem exec_laneTest_of_none {s : State} {v sub : Nat} (hstop : sub ∈ (s.vault v).stopped) (hmove : (s.vault v).moving = false) :
    exec (.laneTest v sub [] []) s
      = .next ((s.modVault v (fun x => { x with stopped := delSet sub x.stopped })).serveFree v) := by
  have hrun : exec (.laneTest v sub [] []) s = execLaneTest v sub [] [] s := rfl
  simp [hrun, execLaneTest, hstop, hmove]

theorem exec_laneTest_of_data {s : State} {v sub : Nat} (lane : Nat) (hstop : sub ∈ (s.vault v).stopped)
    (hmove : (s.vault v).moving = false) : exec (.laneTest v sub [lane] []) s = .next (s.failDataLane v sub lane) := by
  have hrun : exec (.laneTest v sub [lane] []) s = execLaneTest v sub [lane] [] s := rfl
  simp [hrun, execLaneTest, hstop, hmove]

theorem exec_laneTest_of_cmd {s : State} {v sub : Nat} (lane : Nat) (hstop : sub ∈ (s.vault v).stopped)
    (hmove : (s.vault v).moving = false) : exec (.laneTest v sub [] [lane]) s = .next (s.failCmdLane v) := by
  have hrun : exec (.laneTest v sub [] [lane]) s = execLaneTest v sub [] [lane] s := rfl
  simp [hrun, execLaneTest, hstop, hmove]

/-- Spares that all pass are set, and the traffic that stopped for them goes on. -/
theorem exec_spareTrained_of_all_pass {s : State} {v sub : Nat} {data cmds : List LaneSweep} (hstop : sub ∈ (s.vault v).stopped)
    (hmove : (s.vault v).moving = false) (hpass : (data ++ cmds).all (fun x => LaneSweep.passes x) = true) :
    exec (.spareTrained v sub data cmds) s
      = .next (((s.restartTrained v sub (data ++ cmds)).laneEvent v).serveFree v) := by
  have hrun : exec (.spareTrained v sub data cmds) s = execSpareTrained v sub data cmds s := rfl
  have hany : (data ++ cmds).any (fun x => !LaneSweep.passes x) = false := by
    rw [List.any_eq_false]
    exact fun x hx => by simp [List.all_eq_true.mp hpass x hx]
  simp only [hrun, execSpareTrained, List.contains_iff_mem.mpr hstop, hmove, hany, Bool.not_true, Bool.or_false,
    Bool.false_eq_true, if_false, State.restartTrained]

/-- One spare that does not pass is replaced in turn, and no delay line is set (R24, R172). -/
theorem exec_spareTrained_of_fail {s : State} {v sub : Nat} {data cmds : List LaneSweep} {x : LaneSweep}
    (hstop : sub ∈ (s.vault v).stopped) (hmove : (s.vault v).moving = false) (hone : data ++ cmds = [x])
    (hfail : LaneSweep.passes x = false) :
    exec (.spareTrained v sub data cmds) s
      = .next (if 528 ≤ x.lane then s.failCmdLane v else s.failDataLane v (x.lane / 64) (x.lane % 64)) := by
  have hrun : exec (.spareTrained v sub data cmds) s = execSpareTrained v sub data cmds s := rfl
  simp [hrun, execSpareTrained, hstop, hmove, hone, hfail, State.setDelays, State.failSweeps]

/-- The end of the move starts the whole vault; a side port that did not train is reported (R175, R176). -/
theorem exec_sidePortMoveDone_of_moving {s : State} {v : Nat} (trained : Bool) (h : (s.vault v).moving = true) :
    ∃ u : State, exec (.sidePortMoveDone v trained) s = .next (u.serveFree v) ∧
      (s.modVault v (fun x => { x with moving := false, stopped := [], sideDead := !trained })).EventsOnly u := by
  obtain ⟨e, _, he⟩ :=
    (s.modVault v (fun x => { x with moving := false, stopped := [], sideDead := !trained })).laneEvent_eq_raise v
  have hrun : exec (.sidePortMoveDone v trained) s = execSidePortMoveDone v trained s := rfl
  rw [hrun, execSidePortMoveDone, if_neg (by simp [h])]
  cases trained
  · exact ⟨_, rfl, he ▸ State.raise_eventsOnly _ e⟩
  · exact ⟨_, rfl, State.EventsOnly.refl _⟩

end Sys2Proof.Machine
end

section
/-! PROOFS. O30: the cases of a lane test, of a trained spare and of the move to the side port, put together. -/

open Sys2Proof Sys2Proof.Machine

namespace Sys2Proof.Proofs

section
variable {s : State} {v sub : Nat} (hstop : sub ∈ (s.vault v).stopped) (hmove : (s.vault v).moving = false)
include hstop hmove

theorem laneTest_without_failure_restarts (hwait : (s.vault v).waiting = []) :
    ∃ t : State, exec (.laneTest v sub [] []) s = .next t ∧ t = { s with vaults := t.vaults } ∧
      t.vault v = { s.vault v with stopped := delSet sub (s.vault v).stopped } ∧ vaultsSameBut s t v := by
  have hwait' : ((s.modVault v (fun x => { x with stopped := delSet sub x.stopped })).vault v).waiting = [] := by
    rwa [State.vault_modVault_self]
  exact ⟨_, (exec_laneTest_of_none hstop hmove).trans (congrArg Host.Outcome.next (State.serveFree_of_waiting_nil hwait')),
    rfl, State.vault_modVault_self s v _, fun q hq => State.vault_modVault_ne s _ hq⟩

theorem laneTest_takes_spare (lane : Nat) (hmode : (s.vault v).mode = 0) (hspare : (s.vault v).spares < 16) :
    ∃ t : State, exec (.laneTest v sub [lane] []) s = .next t ∧ t = { s with vaults := t.vaults } ∧
      t.vault v = { s.vault v with failedLanes := insSet (64 * sub + lane) (s.vault v).failedLanes, spares := (s.vault v).spares + 1 } ∧
      vaultsSameBut s t v := by
  obtain ⟨honly, hvault⟩ := State.failDataLane_spare_effect sub lane hmode hspare
  exact ⟨_, exec_laneTest_of_data lane hstop hmove, honly.frame, hvault, honly.others⟩

theorem laneTest_goes_to_half_width {lane : Nat} {x : VaultSt} (hmode : (s.vault v).mode = 0) (hspare : 16 ≤ (s.vault v).spares)
    (hx : x = (s.vault v).withFailed (64 * sub + lane)) (hneed : x.halvesNeed x.chooseHalves ≤ 16) :
    ∃ t : State, exec (.laneTest v sub [lane] []) s = .next t ∧ t = { s with vaults := t.vaults } ∧
      t.vault v = { x with mode := 1, halfSel := BitVec.ofNat 8 x.chooseHalves, spares := x.halvesNeed x.chooseHalves, stopped := List.range 8 } ∧
      vaultsSameBut s t v := by
  have honly (y : VaultSt) := ((State.VaultOnly.refl s v).setVault x).setVault y
  exact ⟨_, (exec_laneTest_of_data lane hstop hmove).trans
      (congrArg Host.Outcome.next (State.failDataLane_of_no_spare hmode hspare hx hneed)),
    (honly _).frame, State.vault_setVault_self .., (honly _).others⟩

theorem laneTest_evacuates {lane : Nat} (hmode : (s.vault v).mode = 1) (hspare : 16 ≤ (s.vault v).spares)
    (hused : bitAt (s.vault v).halfSel.toNat sub = decide (32 ≤ lane)) :
    ∃ u : State, exec (.laneTest v sub [lane] []) s = .next (u.leaveEngines v) ∧ ((s.vault v).jobs = [] → u.leaveEngines v = u) ∧
      (u.vault v).mode = 2 ∧ (u.vault v).moving = true ∧ vaultsSameBut s u v ∧ (∀ e ∈ u.caches, e.1 / 4096 ≠ v) ∧
      (u.mgt.findings.getLast?).map (·.defect) = some { kind := 5, unit := v, sub := 0, sub2 := 0 } ∧
      u = { s with vaults := u.vaults, caches := u.caches, boot := { s.boot with events := u.boot.events }
                   mgt := { s.mgt with awaiting := u.mgt.awaiting, findings := u.mgt.findings } } := by
  obtain ⟨w, hw⟩ : ∃ w, w = s.setVault v ((s.vault v).withFailed (64 * sub + lane)) := ⟨_, rfl⟩
  have honly : s.VaultOnly w v := hw ▸ (State.VaultOnly.refl s v).setVault _
  have hself : w.vault v = (s.vault v).withFailed (64 * sub + lane) := hw ▸ State.vault_setVault_self ..
  have hlt : (w.vault v).mode.toNat < 2 := by
    rw [hself]; exact (congrArg BitVec.toNat hmode).trans_lt (by decide)
  have hvault : (w.reportedMove v).vault v = (w.vault v).evacuated := by
    rw [State.vault_reportedMove, if_pos rfl]
  refine ⟨w.reportedMove v, ?_, ?_, ?_, ?_, ?_, ?_, w.defect_last_reportedMove v, ?_⟩
  · exact (exec_laneTest_of_data lane hstop hmove).trans (congrArg Host.Outcome.next
      ((State.failDataLane_of_half hmode hspare hused).trans (hw ▸ State.evacuate_of_mode_lt hlt)))
  · intro hjobs
    exact State.leaveEngines_of_jobs_nil (by rw [hvault, hself]; exact hjobs)
  · rw [hvault]; rfl
  · rw [hvault]; rfl
  · intro q hq
    rw [State.vault_reportedMove, if_neg hq]
    exact honly.others q hq
  · intro e he
    rw [State.caches_reportedMove] at he
    simpa using (List.mem_filter.mp he).2
  · rw [w.reportedMove_frame v, honly.frame]

theorem laneTest_takes_command_spare (lane : Nat) (hspare : (s.vault v).cmdSpares < 2) :
    ∃ t : State, exec (.laneTest v sub [] [lane]) s = .next t ∧ t = { s with vaults := t.vaults } ∧
      t.vault v = { s.vault v with cmdSpares := (s.vault v).cmdSpares + 1 } ∧ vaultsSameBut s t v := by
  obtain ⟨honly, hvault⟩ := State.failCmdLane_spare_effect hspare
  exact ⟨_, exec_laneTest_of_cmd lane hstop hmove, honly.frame, hvault, honly.others⟩

theorem spareTrained_restarts {data cmds : List LaneSweep} (hwait : (s.vault v).waiting = [])
    (hnarrow : (s.vault v).stopped.length < 8 ∨ (s.vault v).mode ≠ 1)
    (hpass : (data ++ cmds).all (fun x => LaneSweep.passes x) = true) :
    ∃ t : State, exec (.spareTrained v sub data cmds) s = .next t ∧ vaultsSameBut s t v ∧
      t.vault v = { s.vault v with stopped := delSet sub (s.vault v).stopped } ∧ t.delays = (s.setDelays (data ++ cmds)).delays ∧
      (t.boot.events.head?).map (·.kind) = some .vaultLane ∧
      t = { s with vaults := t.vaults, delays := t.delays, boot := { s.boot with events := t.boot.events }
                   mgt := { s.mgt with awaiting := t.mgt.awaiting } } := by
  have hone : ¬((s.vault v).stopped.length = 8 ∧ (s.vault v).mode = 1) := by
    rintro ⟨hlen, hmode⟩
    rcases hnarrow with h | h
    · omega
    · exact h hmode
  have hvault := State.vault_restartTrained_self (sub := sub) (data ++ cmds) hone
  obtain ⟨e, hkind, he⟩ := (s.restartTrained v sub (data ++ cmds)).laneEvent_eq_raise v
  have hserve : ((s.restartTrained v sub (data ++ cmds)).raise e).serveFree v = (s.restartTrained v sub (data ++ cmds)).raise e :=
    State.serveFree_of_waiting_nil (by rw [State.vault_raise, hvault]; exact hwait)
  refine ⟨(s.restartTrained v sub (data ++ cmds)).raise e, ?_, ?_, ?_, s.delays_raise_restartTrained .., ?_, ?_⟩
  · rw [exec_spareTrained_of_all_pass hstop hmove hpass, he, hserve]
  · intro q hq
    rw [State.vault_raise, State.vault_restartTrained_ne _ _ _ hq]
  · rw [State.vault_raise, hvault]
  · rw [State.head_events_raise, Option.map_some, hkind]
  · exact (State.raise_eventsOnly _ e).frame_of_lanes (s.restartTrained_frame v sub _)

theorem spareTrained_replaces_failed {x : LaneSweep} (hfail : LaneSweep.passes x = false) :
    (x.lane < 528 → (s.vault v).mode = 0 → (s.vault v).spares < 16 →
      ∃ t : State, exec (.spareTrained v sub [x] []) s = .next t ∧ t = { s with vaults := t.vaults } ∧ vaultsSameBut s t v ∧
        t.vault v = { s.vault v with failedLanes := insSet x.lane (s.vault v).failedLanes, spares := (s.vault v).spares + 1 }) ∧
    (528 ≤ x.lane → (s.vault v).cmdSpares < 2 →
      ∃ t : State, exec (.spareTrained v sub [] [x]) s = .next t ∧ t = { s with vaults := t.vaults } ∧ vaultsSameBut s t v ∧
        t.vault v = { s.vault v with cmdSpares := (s.vault v).cmdSpares + 1 }) := by
  constructor
  · intro hlane hmode hspare
    obtain ⟨honly, hvault⟩ := State.failDataLane_spare_effect (x.lane / 64) (x.lane % 64) hmode hspare
    rw [Nat.div_add_mod] at hvault
    exact ⟨_, (exec_spareTrained_of_fail hstop hmove rfl hfail).trans
      (congrArg Host.Outcome.next (if_neg (Nat.not_le.mpr hlane))), honly.frame, honly.others, hvault⟩
  · intro hlane hspare
    obtain ⟨honly, hvault⟩ := State.failCmdLane_spare_effect hspare
    exact ⟨_, (exec_spareTrained_of_fail hstop hmove rfl hfail).trans (congrArg Host.Outcome.next (if_pos hlane)),
      honly.frame, honly.others, hvault⟩

end

theorem sidePortMoveDone_restarts_vault {s : State} {v : Nat} (trained : Bool) (hmove : (s.vault v).moving = true)
    (hwait : (s.vault v).waiting = []) :
    ∃ t : State, exec (.sidePortMoveDone v trained) s = .next t ∧ vaultsSameBut s t v ∧
      t.vault v = { s.vault v with moving := false, stopped := [], sideDead := !trained } ∧
      t = { s with vaults := t.vaults, boot := { s.boot with events := t.boot.events }, mgt := { s.mgt with awaiting := t.mgt.awaiting } } := by
  obtain ⟨u, hrun, hreport⟩ := exec_sidePortMoveDone_of_moving trained hmove
  have hvault : u.vault v = { s.vault v with moving := false, stopped := [], sideDead := !trained } := by
    rw [hreport.vault, State.vault_modVault_self]
  refine ⟨u, ?_, ?_, hvault, ?_⟩
  · rw [hrun, State.serveFree_of_waiting_nil (by rw [hvault]; exact hwait)]
  · intro q hq
    rw [hreport.vault, State.vault_modVault_ne _ _ hq]
  · obtain ⟨es, aw, rfl⟩ := hreport
    rfl

/-- Settles O30: each clause is one case of a lane test, of a trained spare or of the end of a move; a test that marks no lane
and the choice between equal halves are log 32's. -/
theorem lanesAreSpared : Obligations.LanesAreSpared := by
  unfold Obligations.LanesAreSpared
  refine ⟨?none, ?spare, ?half, ?evacuate, ?command, ?trained, ?replaced, ?moved⟩
  case none => exact fun v sub s hstop hmove hwait => laneTest_without_failure_restarts hstop hmove hwait
  case spare => exact fun v sub lane s hstop hmove hmode hspare => laneTest_takes_spare hstop hmove lane hmode hspare
  case half =>
    exact fun v sub lane x s hstop hmove hmode hspare hx hneed =>
      laneTest_goes_to_half_width hstop hmove hmode hspare hx hneed
  case evacuate => exact fun v sub lane s hstop hmove hmode hspare hused => laneTest_evacuates hstop hmove hmode hspare hused
  case command => exact fun v sub lane s hstop hmove hspare => laneTest_takes_command_spare hstop hmove lane hspare
  case trained =>
    exact fun v sub data cmds s hstop hmove hwait hnarrow hpass => spareTrained_restarts hstop hmove hwait hnarrow hpass
  case replaced => exact fun v sub x s hstop hmove hfail => spareTrained_replaces_failed hstop hmove hfail
  case moved => exact fun v trained s hmove hwait => sidePortMoveDone_restarts_vault trained hmove hwait

end Sys2Proof.Proofs
end

section
/-! PROOFS. The refresh of a tier: what is due, issued and completed, and the retune that rides on it (01 R25; 05 R168 to R171;
06 R198). -/

namespace Sys2Proof.Machine

theorem State.tier_setTier_ne (s : State) {n d m j : Nat} (v : TierSt) (h : 8 * m + j ≠ 8 * n + d) :
    (s.setTier n d v).tier m j = s.tier m j := by
  rw [State.tier_setTier, if_neg h]

/-- A tier whose refresh is issued: one off its debt, at the next row index (R168). -/
def TierSt.issued (t : TierSt) : TierSt :=
  { t with debt := t.debt - 1, refreshing := true, rowIndex := (t.rowIndex + 1) % 3072 }

/-- A tier whose refresh has ended; its engines yield on while its debt stands at 4 (R198). -/
def TierSt.refreshed (t : TierSt) : TierSt := { t with refreshing := false, yielding := decide (4 ≤ t.debt) }

/-- The state with a refresh of a tier under way; engines that yielded to it are counted (R198; log 31). -/
def State.refreshIssued (s : State) (v k : Nat) : State :=
  let s1 := s.setTier v k (s.tier v k).issued
  if (s.tier v k).yielding then s1.ctrAdd (nbeRefreshYields v) 1 else s1

theorem State.refreshIssued_frame (s : State) (v k : Nat) :
    s.refreshIssued v k = { s with tiers := (s.setTier v k (s.tier v k).issued).tiers, ctr := (s.refreshIssued v k).ctr } := by
  unfold State.refreshIssued
  split <;> rfl

theorem State.tier_refreshIssued (s : State) (v k m j : Nat) :
    (s.refreshIssued v k).tier m j = (s.setTier v k (s.tier v k).issued).tier m j := by
  rw [State.refreshIssued_frame]; rfl

theorem State.vault_refreshIssued (s : State) (v k : Nat) : (s.refreshIssued v k).vault = s.vault := by
  rw [State.refreshIssued_frame]; rfl

theorem State.core_refreshIssued (s : State) (v k : Nat) : (s.refreshIssued v k).core = s.core := by
  rw [State.refreshIssued_frame]; rfl

theorem State.ctrGet_refreshIssued (s : State) (v k q : Nat) :
    (s.refreshIssued v k).ctrGet q
      = s.ctrGet q + (if q = nbeRefreshYields v ∧ (s.tier v k).yielding = true then 1 else 0) := by
  unfold State.refreshIssued
  by_cases hy : (s.tier v k).yielding = true
  · rw [if_pos hy, State.ctrGet_ctrAdd]
    by_cases hq : q = nbeRefreshYields v
    · simp [hq, hy]; rfl
    · simp [hq]; rfl
  · simp [hy]; rfl

/-- A refresh that is owed, of a closed tier at debt 4 or that nothing waits for, is issued (R165, R168, R170). -/
theorem exec_refreshIssue_of_ready {s : State} {v k : Nat} (sweeps : List LaneSweep) (hself : s.selfRef = false)
    (hdebt : (s.tier v k).debt ≠ 0) (hclosed : s.tierClosed v k = true)
    (hwant : 4 ≤ (s.tier v k).debt ∨ s.tierWanted v k = false) :
    exec (.refreshIssue v k sweeps) s = .next ((s.refreshIssued v k).retuneTier v k sweeps) := by
  have hrun : exec (.refreshIssue v k sweeps) s = execRefreshIssue v k sweeps s := rfl
  have hgo : (s.selfRef || (s.tier v k).debt = 0 || !s.tierClosed v k
      || (decide ((s.tier v k).debt < 4) && s.tierWanted v k)) = false := by
    rcases hwant with h | h <;> simp [hself, hdebt, hclosed, h]
  rw [hrun, execRefreshIssue]
  exact if_neg (by simpa using hgo)

theorem State.retuneTier_of_not_due {s : State} {v k : Nat} (sweeps : List LaneSweep)
    (h : (s.vault v).retune.contains k = false) : s.retuneTier v k sweeps = s := by
  rw [State.retuneTier, h]; rfl

/-- The sweeps of a tier's channel. -/
def tierSweeps (v k : Nat) (sweeps : List LaneSweep) : List LaneSweep :=
  sweeps.filter (fun x => x.column == v && x.crossing == 1 + k)

theorem State.failSweeps_of_all_pass {xs : List LaneSweep} (s : State) (n : Nat)
    (h : xs.all (fun x => LaneSweep.passes x) = true) : s.failSweeps n xs = s := by
  rw [State.failSweeps, filter_not_passes_of_all h, List.foldl_nil]

/-- A retune that is due and whose lanes are wide enough sets them, and the channel is no longer due (R25). -/
theorem State.retuneTier_of_all_pass {s : State} {v k : Nat} {sweeps : List LaneSweep}
    (hdue : (s.vault v).retune.contains k = true) (hpass : sweeps.all (fun x => LaneSweep.passes x) = true) :
    s.retuneTier v k sweeps = (((s.setDelays (tierSweeps v k sweeps)).modVault v
      (fun x => { x with retune := delSet k x.retune })).noteTune v (1 + k)) := by
  have hmine : (tierSweeps v k sweeps).all (fun x => LaneSweep.passes x) = true := by
    rw [List.all_eq_true] at hpass ⊢
    exact fun x hx => hpass x (List.mem_of_mem_filter hx)
  simp only [State.retuneTier, hdue, Bool.not_true, Bool.false_eq_true, if_false]
  rw [← tierSweeps, State.failSweeps_of_all_pass _ _ hmine, filter_not_passes_of_all hmine, List.foldl_nil]

end Sys2Proof.Machine
end

section
/-! PROOFS. O32: the cases of the refresh commands, put together. -/

open Sys2Proof Sys2Proof.Machine

namespace Sys2Proof.Proofs

theorem refreshDue_raises_debt (v k : Nat) {s : State} (hself : s.selfRef = false) :
    ∃ t : State, exec (.refreshDue v k) s = .next t ∧ t = { s with tiers := t.tiers, ctr := t.ctr } ∧
      t.tier v k = { s.tier v k with debt := min 8 ((s.tier v k).debt + 1)
                                     yielding := (s.tier v k).yielding || decide (4 ≤ min 8 ((s.tier v k).debt + 1)) } ∧
      (∀ m j, 8 * m + j ≠ 8 * v + k → t.tier m j = s.tier m j) ∧
      (t.ctrGet (vltRefDebtMax v)).toNat = max (s.ctrGet (vltRefDebtMax v)).toNat (min 8 ((s.tier v k).debt + 1)) ∧
      countersSameBut s t (vltRefDebtMax v) := by
  have hrun : exec (.refreshDue v k) s = execRefreshDue v k s := rfl
  rw [hrun, execRefreshDue, if_neg (by simp [hself])]
  refine ⟨_, rfl, ?_, ?_, ?_, ?_, ?_⟩
  · rw [State.ctrMax_ctr_only]; rfl
  · rw [State.ctrMax_ctr_only]; exact State.tier_setTier_self s v k _
  · intro m j h
    rw [State.ctrMax_ctr_only]; exact State.tier_setTier_ne s _ h
  · exact State.ctrGet_ctrMax_self _ _ (by omega)
  · exact fun q hq => State.ctrGet_ctrMax_ne _ _ hq

section
variable {s : State} {v k : Nat} (sweeps : List LaneSweep) (hself : s.selfRef = false) (hdebt : (s.tier v k).debt ≠ 0)
  (hclosed : s.tierClosed v k = true) (hwant : 4 ≤ (s.tier v k).debt ∨ s.tierWanted v k = false)
include hself hdebt hclosed hwant

theorem refreshIssue_takes_debt (hdue : (s.vault v).retune.contains k = false) :
    ∃ t : State, exec (.refreshIssue v k sweeps) s = .next t ∧ t = { s with tiers := t.tiers, ctr := t.ctr } ∧
      (∀ m j, 8 * m + j ≠ 8 * v + k → t.tier m j = s.tier m j) ∧
      t.tier v k = (s.tier v k).issued ∧
      t.ctrGet (nbeRefreshYields v) = s.ctrGet (nbeRefreshYields v) + (if (s.tier v k).yielding then 1 else 0) ∧
      countersSameBut s t (nbeRefreshYields v) := by
  have hvault : ((s.refreshIssued v k).vault v).retune.contains k = false := by
    rwa [State.vault_refreshIssued]
  refine ⟨_, (exec_refreshIssue_of_ready sweeps hself hdebt hclosed hwant).trans
    (congrArg Host.Outcome.next (State.retuneTier_of_not_due sweeps hvault)), ?_, ?_, ?_, ?_, ?_⟩
  · rw [State.refreshIssued_frame]
  · exact fun m j h => (State.tier_refreshIssued ..).trans (State.tier_setTier_ne s _ h)
  · exact (State.tier_refreshIssued ..).trans (State.tier_setTier_self s v k _)
  · simp [State.ctrGet_refreshIssued]
  · intro q hq
    simp [State.ctrGet_refreshIssued, hq]

theorem refreshIssue_retunes (hk : k < 8) (hdue : (s.vault v).retune.contains k = true)
    (hpass : sweeps.all (fun x => LaneSweep.passes x) = true) :
    ∃ t : State, exec (.refreshIssue v k sweeps) s = .next t ∧
      t = { s with tiers := t.tiers, ctr := t.ctr, vaults := t.vaults, cores := t.cores, delays := t.delays } ∧
      t.delays = (s.setDelays (tierSweeps v k sweeps)).delays ∧
      t.vault v = { s.vault v with retune := delSet k (s.vault v).retune } ∧ vaultsSameBut s t v ∧
      t.tuneDue v (1 + k) = false ∧ coresSameBut s t v := by
  have hvault : ((s.refreshIssued v k).vault v).retune.contains k = true := by
    rwa [State.vault_refreshIssued]
  refine ⟨_, (exec_refreshIssue_of_ready sweeps hself hdebt hclosed hwant).trans
    (congrArg Host.Outcome.next (State.retuneTier_of_all_pass hvault hpass)), ?_, ?_, ?_, ?_, ?_, ?_⟩
  · rw [State.setDelays_delays_only, State.refreshIssued_frame]; rfl
  · exact State.setDelays_delays_congr (by rw [State.refreshIssued_frame]) _
  · rw [State.vault_noteTune, State.vault_modVault_self, State.vault_setDelays, State.vault_refreshIssued]
  · intro q hq
    rw [State.vault_noteTune, State.vault_modVault_ne _ _ hq, State.vault_setDelays, State.vault_refreshIssued]
  · exact State.tuneDue_of_tuneOf (State.tuneOf_noteTune _ v (by omega))
  · intro q hq
    rw [State.core_noteTune_ne _ _ hq, State.core_modVault, State.core_setDelays, State.core_refreshIssued]

end

theorem refreshComplete_lets_tier_go_on {s : State} {v k : Nat} (href : (s.tier v k).refreshing = true)
    (hwait : (s.vault v).waiting = []) (hjobs : (s.vault v).jobs = []) :
    ∃ t : State, exec (.refreshComplete v k) s = .next t ∧ t = { s with tiers := t.tiers, vaults := t.vaults } ∧
      t.tier v k = (s.tier v k).refreshed ∧ (∀ n, t.vault n = s.vault n) := by
  refine ⟨s.setTier v k (s.tier v k).refreshed, ?_, rfl, State.tier_setTier_self s v k _, fun _ => rfl⟩
  have hrun : exec (.refreshComplete v k) s
      = .next (((s.setTier v k (s.tier v k).refreshed).serveFree v).grantTokens v) := if_neg (by simp [href])
  rw [hrun, State.serveFree_of_waiting_nil (by exact hwait), State.grantTokens_of_jobs_nil (by exact hjobs)]

/-- Settles O32: each clause is one case of a refresh command; the count of NBE_REFRESH_YIELDS at the issue is log 31's. -/
theorem refreshKeepsItsDebt : Obligations.RefreshKeepsItsDebt := by
  unfold Obligations.RefreshKeepsItsDebt
  refine ⟨?due, ?selfRefresh, ?issue, ?retune, ?complete, ?restore, ?hot⟩
  case due => exact fun v k s hself => refreshDue_raises_debt v k hself
  case selfRefresh => exact fun v k s hself => if_pos hself
  case issue =>
    exact fun v k sweeps s hself hdebt hclosed hwant hdue => refreshIssue_takes_debt sweeps hself hdebt hclosed hwant hdue
  case retune =>
    exact fun v k sweeps s hk hself hdebt hclosed hwant hdue hpass =>
      refreshIssue_retunes sweeps hself hdebt hclosed hwant hk hdue hpass
  case complete => exact fun v k s href hwait hjobs => refreshComplete_lets_tier_go_on href hwait hjobs
  case restore => exact fun v k s hcool => if_pos hcool
  case hot => exact fun v k s hhot => if_neg (Int.not_le.mpr hhot)

end Sys2Proof.Proofs
end

section
/-! PROOFS. Mesh links: the replays of a failed check, the failure of a link at both of its routers and its report (08 R253,
R272). -/

namespace Sys2Proof.Machine

/-! ### The two ends of a mesh link -/

/-- A link has two ends. -/
theorem neighbour_ne {n dir m : Nat} (h : neighbour n dir = some m) : m ≠ n := by
  unfold neighbour gridRow gridCol at h
  split at h <;> split at h <;> simp at h <;> omega

theorem opposite_lt (dir : Nat) : opposite dir < 4 := Nat.mod_lt _ (by decide)

theorem State.router_setRouter_ne (s : State) {r q : Nat} (v : RouterSt) (h : q ≠ r) :
    (s.setRouter r v).router q = s.router q := by
  rw [State.router_setRouter, if_neg h]

/-- The bit of a link among the failed ones of its mesh. -/
def RouterSt.failed (r : RouterSt) (dir : Nat) (control : Bool) : Bool :=
  if control then r.ctrlFail.getLsbD dir else r.bulkFail.getLsbD dir

theorem getLsbD_ofNat_pow_two : ∀ dir < 4, (BitVec.ofNat 4 (2 ^ dir)).getLsbD dir = true := by decide

theorem RouterSt.failed_failLink (r : RouterSt) {dir : Nat} (control : Bool) (hdir : dir < 4) :
    (r.failLink dir control).failed dir control = true := by
  have hbit := getLsbD_ofNat_pow_two dir hdir
  cases control
  · exact (BitVec.getLsbD_or ..).trans (by rw [hbit, Bool.or_true])
  · exact (BitVec.getLsbD_or ..).trans (by rw [hbit, Bool.or_true])

/-- The declaration of one link leaves the same link of the other mesh as it is. -/
theorem RouterSt.failed_failLink_not (r : RouterSt) (dir : Nat) (control : Bool) :
    (r.failLink dir control).failed dir (!control) = r.failed dir (!control) := by
  cases control <;> rfl

/-- A failed check below three replays is replayed and counted (R253). -/
theorem State.crcFail_of_replays_lt {s : State} {island dir m : Nat} {control : Bool} (hm : neighbour island dir = some m)
    (halive : (s.router island).failed dir control = false)
    (hlt : Tbl.get 0 (s.router island).replays (linkNo dir control) < 3) :
    s.crcFail island dir control = (s.setRouter island { s.router island with
      replays := Tbl.put 0 (s.router island).replays (linkNo dir control)
        (Tbl.get 0 (s.router island).replays (linkNo dir control) + 1) }).ctrAdd (fabReplays island) 1 := by
  unfold RouterSt.failed at halive
  simp [State.crcFail, halive, hm, hlt]

theorem State.setRootTime_none (s : State) : s.setRootTime none = s := by
  unfold State.setRootTime
  split
  · contradiction
  · rfl

/-- Both routers of a link take its failure (R253). -/
def State.failLinkEnds (s : State) (island dir m : Nat) (control : Bool) : State :=
  (s.setRouter island ((s.router island).failLink dir control)).setRouter m ((s.router m).failLink (opposite dir) control)

theorem State.ReportsOnly.frame_of_routers {s u t : State} (h : u.ReportsOnly t) (hu : u = { s with routers := u.routers }) :
    t = { s with routers := t.routers, boot := { s.boot with events := t.boot.events }
                 mgt := { s.mgt with awaiting := t.mgt.awaiting, findings := t.mgt.findings } } := by
  obtain ⟨es, aw, fs, rfl⟩ := h
  rw [hu]

/-- The report of a failed link: an event and a finding. -/
def State.reportLink (s : State) (island dir : Nat) (control : Bool) : State :=
  (s.event .meshLink (some 5) 6 island none 0 [BitVec.ofNat 64 (s.rtrState island)]).finding (if control then 8 else 7) island dir 0

theorem State.reportLink_reportsOnly (s : State) (island dir : Nat) (control : Bool) :
    s.ReportsOnly (s.reportLink island dir control) := ((ReportsOnly.refl s).raise _).finding ..

theorem State.router_reportLink (s : State) (island dir : Nat) (control : Bool) :
    (s.reportLink island dir control).router = s.router := rfl

theorem State.kind_head_reportLink (s : State) (island dir : Nat) (control : Bool) :
    ((s.reportLink island dir control).boot.events.head?).map (·.kind) = some .meshLink := State.kind_head_event ..

theorem State.defect_last_reportLink (s : State) (island dir : Nat) (control : Bool) :
    ((s.reportLink island dir control).mgt.findings.getLast?).map (·.defect)
      = some { kind := if control then 8 else 7, unit := island, sub := dir, sub2 := 0 } := State.defect_last_finding ..

/-- After the third replay the link of one mesh is declared failed at both ends and reported; the other mesh keeps the island
in reach (R253, R272). -/
theorem State.crcFail_of_replays_ge {s : State} {island dir m : Nat} {control : Bool} (hm : neighbour island dir = some m)
    (hctrl : (s.router island).ctrlFail.getLsbD dir = false) (hbulk : (s.router island).bulkFail.getLsbD dir = false)
    (hge : 3 ≤ Tbl.get 0 (s.router island).replays (linkNo dir control)) :
    s.crcFail island dir control = (s.failLinkEnds island dir m control).reportLink island dir control := by
  have hne := neighbour_ne hm
  have hother : ((s.failLinkEnds island dir m control).router island).failed dir (!control) = false := by
    rw [State.failLinkEnds, State.router_setRouter_ne _ _ hne.symm, State.router_setRouter_self, RouterSt.failed_failLink_not]
    cases control <;> assumption
  have hdead : (if control then (s.router island).ctrlFail.getLsbD dir else (s.router island).bulkFail.getLsbD dir) = false := by
    cases control <;> assumption
  have hends : (s.setRouter island ((s.router island).failLink dir control)).setRouter m
      (((s.setRouter island ((s.router island).failLink dir control)).router m).failLink (opposite dir) control)
      = s.failLinkEnds island dir m control := by
    rw [State.router_setRouter_ne _ _ hne, State.failLinkEnds]
  have hsome : (((s.failLinkEnds island dir m control).router island).bulkFail.getLsbD dir
      && ((s.failLinkEnds island dir m control).router island).ctrlFail.getLsbD dir) = false := by
    cases control <;> simp_all [RouterSt.failed]
  simp only [State.crcFail, hdead, hm, Option.isNone_some, Bool.or_false, Bool.false_eq_true, if_false,
    if_neg (Nat.not_lt.mpr hge), State.declareLink, hends]
  exact if_neg (fun h => Bool.false_ne_true (hsome.symm.trans h))

end Sys2Proof.Machine
end

section
/-! PROOFS. O37: the cases of the mesh links, of the control mesh and of the tick, put together. -/

open Sys2Proof Sys2Proof.Machine

namespace Sys2Proof.Proofs

theorem flitCrcFail_replays {s : State} {island dir m : Nat} {control : Bool} (hm : neighbour island dir = some m)
    (halive : (s.router island).failed dir control = false)
    (hlt : Tbl.get 0 (s.router island).replays (linkNo dir control) < 3) :
    ∃ t : State, exec (.flitCrcFail island dir control) s = .next t ∧ t = { s with routers := t.routers, ctr := t.ctr } ∧
      t.router island = { s.router island with
        replays := Tbl.put 0 (s.router island).replays (linkNo dir control)
          (Tbl.get 0 (s.router island).replays (linkNo dir control) + 1) } ∧ routersSameBut s t island ∧
      t.ctrGet (fabReplays island) = s.ctrGet (fabReplays island) + 1 ∧ countersSameBut s t (fabReplays island) := by
  refine ⟨_, congrArg Host.Outcome.next (State.crcFail_of_replays_lt hm halive hlt), rfl, ?_, ?_, ?_, ?_⟩
  · exact State.router_setRouter_self s island _
  · exact fun q hq => State.router_setRouter_ne s _ hq
  · exact (State.ctrGet_ctrAdd ..).trans (if_pos rfl)
  · exact fun q hq => (State.ctrGet_ctrAdd ..).trans (if_neg hq)

theorem flitCrcFail_declares_link {s : State} {island dir m : Nat} (control : Bool) (hdir : dir < 4)
    (hm : neighbour island dir = some m)
    (hctrl : (s.router island).ctrlFail.getLsbD dir = false) (hbulk : (s.router island).bulkFail.getLsbD dir = false)
    (hge : 3 ≤ Tbl.get 0 (s.router island).replays (linkNo dir control)) :
    ∃ t : State, exec (.flitCrcFail island dir control) s = .next t ∧
      t = { s with routers := t.routers, boot := { s.boot with events := t.boot.events }
                   mgt := { s.mgt with awaiting := t.mgt.awaiting, findings := t.mgt.findings } } ∧
      t.router island = (s.router island).failLink dir control ∧
      t.router m = (s.router m).failLink (opposite dir) control ∧
      (t.router island).failed dir control = true ∧ (t.router m).failed (opposite dir) control = true ∧
      (t.boot.events.head?).map (·.kind) = some .meshLink ∧
      (t.mgt.findings.getLast?).map (·.defect) = some { kind := if control then 8 else 7, unit := island, sub := dir, sub2 := 0 } := by
  have hisland : (s.failLinkEnds island dir m control).router island = (s.router island).failLink dir control :=
    (State.router_setRouter_ne _ _ (neighbour_ne hm).symm).trans (State.router_setRouter_self s island _)
  have hpeer : (s.failLinkEnds island dir m control).router m = (s.router m).failLink (opposite dir) control :=
    State.router_setRouter_self _ m _
  refine ⟨_, congrArg Host.Outcome.next (State.crcFail_of_replays_ge hm hctrl hbulk hge),
    (State.reportLink_reportsOnly ..).frame_of_routers rfl, ?_, ?_, ?_, ?_,
    State.kind_head_reportLink .., State.defect_last_reportLink ..⟩
  · rw [State.router_reportLink, hisland]
  · rw [State.router_reportLink, hpeer]
  · rw [State.router_reportLink, hisland, RouterSt.failed_failLink _ control hdir]
  · rw [State.router_reportLink, hpeer, RouterSt.failed_failLink _ control (opposite_lt dir)]

theorem meshLinkMoveDone_ends_move {s : State} {island dir m : Nat} {control : Bool} (hm : neighbour island dir = some m)
    (hmoving : linkNo dir control ∈ (s.router island).moving) :
    ∃ u : State, exec (.meshLinkMoveDone island dir control) s = .next (if control then u.sendHeldShares else u) ∧
      u = { s with routers := u.routers } ∧ (u.router island).promoted = 0 ∧
      (u.router island).moving = delSet (linkNo dir control) (s.router island).moving ∧
      (u.router m).moving = delSet (linkNo (opposite dir) control) (s.router m).moving := by
  have hne := neighbour_ne hm
  have hrun : exec (.meshLinkMoveDone island dir control) s = execMeshLinkMoveDone island dir control s := rfl
  rw [hrun, execMeshLinkMoveDone]
  simp only [List.contains_iff_mem.mpr hmoving, hm, Bool.not_true, Bool.false_eq_true, if_false]
  refine ⟨_, rfl, rfl, ?_, ?_, ?_⟩
  · rw [State.router_setRouter_ne _ _ hne.symm, State.router_setRouter_self]
  · rw [State.router_setRouter_ne _ _ hne.symm, State.router_setRouter_self]
  · rw [State.router_setRouter_self, State.router_setRouter_ne _ _ hne]

theorem timeTick_sets_trim (island cycles : Nat) (s : State) :
    ∃ t : State, exec (.timeTick island ⟨cycles, none⟩) s = .next t ∧ t = { s with cores := t.cores, routers := t.routers } ∧
      t.core island = { s.core island with trim := (cycles : Int) - s.coreMhz island } ∧ coresSameBut s t island ∧
      t.router island = { s.router island with replays := [] } ∧ routersSameBut s t island := by
  refine ⟨_, congrArg Host.Outcome.next (State.setRootTime_none _), rfl, ?_, ?_, ?_, ?_⟩
  · exact Tbl.get_put_self ..
  · exact fun q hq => Tbl.get_put_ne _ _ _ hq
  · exact State.router_setRouter_self _ island _
  · exact fun q hq => State.router_setRouter_ne _ _ hq

/-- Settles O37: each clause is one case of a failed check, of the end of a move, of a promotion or of a tick. -/
theorem meshLinksFailAndMove : Obligations.MeshLinksFailAndMove := by
  unfold Obligations.MeshLinksFailAndMove
  refine ⟨?replay, ?declare, ?move, ?promotion, ?tick⟩
  case replay => exact fun island dir m control s hm halive hlt => flitCrcFail_replays hm halive hlt
  case declare =>
    exact fun island dir m control s hdir hm hctrl hbulk hge => flitCrcFail_declares_link control hdir hm hctrl hbulk hge
  case move => exact fun island dir m control s hm hmoving => meshLinkMoveDone_ends_move hm hmoving
  case promotion => exact fun island s => rfl
  case tick => exact fun island cycles s => timeTick_sets_trim island cycles s

end Sys2Proof.Proofs
end

section
/-! PROOFS. Sensors: a conversion and its comparators, the emergency of an Erg sensor and its end, and the trip (13 R424, R429,
R432, R447). -/

namespace Sys2Proof.Machine

/-! ### Conversions -/

/-- A sensor with one more conversion among its last 25 (R424). -/
def SensorSt.joined (x : SensorSt) (t : Int) : SensorSt :=
  { x with recent := (t :: x.recent).take 25
           mean := ((t :: x.recent).take 25).foldl (· + ·) 0 / (((t :: x.recent).take 25).length : Int) }

/-- The state once a conversion has joined its sensor's. -/
def State.converted (s : State) (k : Nat) (x : Int) : State := s.setSensor k ((s.sensor k).joined x)

theorem exec_sensorConversion_of_in_use {s : State} {k : Nat} (x : Int) (hstate : (s.sensor k).state = 0)
    (hoff : s.sensorOffset k = 0) :
    exec (.sensorConversion k x) s = .next (((s.converted k x).compareTemp k x x).noteSensors s) := by
  have hne : (s.sensor k).state ≠ 3 := by rw [hstate]; decide
  have hrun : exec (.sensorConversion k x) s = .next ((if (s.sensor k).state = 0
      then (s.converted k (x + s.sensorOffset k)).compareTemp k (x + s.sensorOffset k) x
      else s.converted k (x + s.sensorOffset k)).noteSensors s) := if_neg hne
  rw [hrun, if_pos hstate, hoff, Int.add_zero]

/-- A reading is above a threshold, where its tier has one. -/
def exceeds (limit : Option Int) (x : Int) : Bool := limit.any (fun e => decide (e < x))

theorem exceeds_eq_false {limit : Option Int} {x : Int} (h : ∀ e, limit = some e → x ≤ e) : exceeds limit x = false := by
  cases limit with
  | none => rfl
  | some e => exact decide_eq_false (Int.not_lt.mpr (h e rfl))

/-- The comparators do nothing below both thresholds. -/
theorem State.compareTemp_of_within {s : State} {k : Nat} {x : Int} (he : exceeds (emergAt (sensorTier k)) x = false)
    (ht : exceeds (tripAt (sensorTier k)) x = false) : s.compareTemp k x x = s := by
  unfold exceeds at he ht
  simp [State.compareTemp, he, ht]

/-- Between the thresholds the conversion is an emergency and no trip. -/
theorem State.compareTemp_of_emergency {s : State} {k : Nat} {x : Int} (he : exceeds (emergAt (sensorTier k)) x = true)
    (ht : exceeds (tripAt (sensorTier k)) x = false) : s.compareTemp k x x = s.emergency k x := by
  unfold exceeds at he ht
  simp [State.compareTemp, he, ht]

theorem State.stateSensor_converted (s : State) (k : Nat) (x : Int) (i : Nat) :
    (s.converted k x).stateSensor i = s.stateSensor i := by
  unfold State.stateSensor
  split <;> rfl

/-! ### Emergencies -/

/-- t is s but for the thermal state, the counters, and events. -/
def State.ThermalOnly (s t : State) : Prop :=
  ∃ th ct es aw, t = { s with thm := th, ctr := ct, boot := { s.boot with events := es }, mgt := { s.mgt with awaiting := aw } }

theorem State.ThermalOnly.raise {s t : State} (h : s.ThermalOnly t) (e : Event) : s.ThermalOnly (t.raise e) := by
  obtain ⟨th, ct, es, aw, rfl⟩ := h
  exact ⟨_, _, _, _, rfl⟩

theorem State.ThermalOnly.ctrAdd {s t : State} (h : s.ThermalOnly t) (o n : Nat) : s.ThermalOnly (t.ctrAdd o n) := by
  obtain ⟨th, ct, es, aw, rfl⟩ := h
  exact ⟨_, _, _, _, rfl⟩

theorem State.ThermalOnly.noteSensors {s t : State} (h : s.ThermalOnly t) (old : State) : s.ThermalOnly (t.noteSensors old) := by
  obtain ⟨es', aw', he⟩ := t.noteSensors_eventsOnly old
  obtain ⟨th, ct, es, aw, rfl⟩ := h
  exact ⟨th, ct, es', aw', he⟩

theorem State.ThermalOnly.eq {s t : State} (h : s.ThermalOnly t) :
    t = { s with thm := t.thm, ctr := t.ctr, boot := { s.boot with events := t.boot.events }
                 mgt := { s.mgt with awaiting := t.mgt.awaiting } } := by
  obtain ⟨th, ct, es, aw, rfl⟩ := h
  rfl

theorem State.sensor_congr {s t : State} (h : t.thm = s.thm) : t.sensor = s.sensor := by
  unfold State.sensor; rw [h]

theorem State.island_congr {s t : State} (h : t.thm = s.thm) : t.island = s.island := by
  unfold State.island; rw [h]

theorem State.ctrGet_congr {s t : State} (h : t.ctr = s.ctr) : t.ctrGet = s.ctrGet := by
  unfold State.ctrGet; rw [h]

theorem State.head_events_thermalEvent (s : State) (kind : EventKind) (cls unit : Nat) (value : Word64) :
    ∃ e, (s.thermalEvent kind cls unit value).boot.events.head? = some e ∧ e.kind = kind ∧ e.unit = unit :=
  ⟨_, State.head_events_raise .., rfl, rfl⟩

/-- The settings of an Erg emergency: the core at 1.0 GHz and D 16, the emergency latched for its sensor and the device (R432;
log 17). -/
def State.ergEmergency (s : State) (k : Nat) : State :=
  let s1 := (s.setSensor k { s.sensor k with emerg := true }).setIsland (k / 2)
    { s.island (k / 2) with ceilMhz := 1000, duty := 16 }
  { s1 with thm := { s1.thm with emerg := true } }

theorem State.sensor_ergEmergency_self (s : State) (k : Nat) : ((s.ergEmergency k).sensor k).emerg = true := by
  have h : (s.ergEmergency k).sensor k = { s.sensor k with emerg := true } := Tbl.get_put_self ..
  rw [h]

theorem State.island_ergEmergency_self (s : State) (k : Nat) :
    (s.ergEmergency k).island (k / 2) = { s.island (k / 2) with ceilMhz := 1000, duty := 16 } := Tbl.get_put_self ..

theorem State.island_ergEmergency_ne (s : State) {k n : Nat} (h : n ≠ k / 2) :
    (s.ergEmergency k).island n = s.island n := Tbl.get_put_ne _ _ _ h

theorem State.ctr_ergEmergency (s : State) (k : Nat) : (s.ergEmergency k).ctr = s.ctr := by
  simp only [State.ergEmergency, State.setIsland_ctr, State.setSensor_ctr]

theorem State.ctr_converted (s : State) (k : Nat) (x : Int) : (s.converted k x).ctr = s.ctr := State.setSensor_ctr ..

/-- The report of an emergency, and its count. -/
def State.emergencyNoted (s : State) (k : Nat) (x : Int) : State :=
  (s.thermalEvent .thermalEmergency 4 k (tempWord x)).ctrAdd thmEmergencies 1

theorem State.emergency_of_erg {s : State} {k : Nat} (x : Int) (hk : k < 512) (h : (s.sensor k).emerg = false) :
    s.emergency k x = (s.ergEmergency k).emergencyNoted k x := by
  have htier : sensorTier k = 2 := if_pos hk
  have hcols : sensorCols k = [k / 2] := if_pos hk
  unfold State.emergency
  rw [if_neg (by simp [h])]
  simp only [State.emergencySettings, htier, hcols]; rfl

theorem State.converted_thermalOnly (s : State) (k : Nat) (x : Int) : s.ThermalOnly (s.converted k x) :=
  ⟨_, s.ctr, s.boot.events, s.mgt.awaiting, rfl⟩

theorem State.ThermalOnly.ergEmergency {s t : State} (h : s.ThermalOnly t) (k : Nat) : s.ThermalOnly (t.ergEmergency k) := by
  obtain ⟨th, ct, es, aw, rfl⟩ := h
  exact ⟨_, _, _, _, rfl⟩

theorem State.ThermalOnly.emergencyNoted {s t : State} (h : s.ThermalOnly t) (k : Nat) (x : Int) :
    s.ThermalOnly (t.emergencyNoted k x) := (h.raise _).ctrAdd _ _

theorem State.thm_emergencyNoted (s : State) (k : Nat) (x : Int) : (s.emergencyNoted k x).thm = s.thm := rfl

theorem State.ctrGet_emergencyNoted (s : State) (k : Nat) (x : Int) (q : Nat) : (s.emergencyNoted k x).ctrGet q
    = if q = thmEmergencies then s.ctrGet thmEmergencies + 1 else s.ctrGet q := State.ctrGet_ctrAdd ..

theorem State.head_events_emergencyNoted (s : State) (k : Nat) (x : Int) :
    ∃ e, (s.emergencyNoted k x).boot.events.head? = some e ∧ e.kind = .thermalEmergency ∧ e.unit = k :=
  s.head_events_thermalEvent .thermalEmergency 4 k (tempWord x)

theorem exec_emergencyClear_of_low {s : State} {k : Nat} {e : Int} (hemerg : (s.sensor k).emerg = true)
    (he : emergAt (sensorTier k) = some e) (hlow : s.watched k ≤ e - 40) :
    exec (.emergencyClear k) s = .next (({ (s.setSensor k { s.sensor k with emerg := false }) with
      thm := { (s.setSensor k { s.sensor k with emerg := false }).thm with
        emerg := (s.setSensor k { s.sensor k with emerg := false }).thm.sensors.any (fun e => e.2.emerg) } } : State).noteSensors s) :=
  if_pos (by simp [hemerg, he, hlow])

theorem exec_emergencyClear_of_high {s : State} {k : Nat} {e : Int} (he : emergAt (sensorTier k) = some e)
    (hhigh : e - 40 < s.watched k) : exec (.emergencyClear k) s = .next s :=
  if_neg (by simp [he]; omega)

/-! ### Trips -/

/-- A value of a table has what its default and all its entries have. -/
theorem Tbl.get_of_forall {α : Type} {p : α → Prop} {d : α} {t : Tbl α} (hd : p d) (ht : ∀ e ∈ t, p e.2) (k : Nat) :
    p (Tbl.get d t k) := by
  induction t with
  | nil => exact hd
  | cons e r ih =>
    obtain ⟨j, w⟩ := e
    rw [Tbl.get]
    split
    · exact ht _ List.mem_cons_self
    · exact ih (fun e he => ht e (List.mem_cons_of_mem _ he))

/-- In self-refresh no tier owes a refresh or is at one (R171). -/
theorem State.tier_enterSelfRefresh (s : State) (n d : Nat) :
    (s.enterSelfRefresh.tier n d).debt = 0 ∧ (s.enterSelfRefresh.tier n d).refreshing = false := by
  refine Tbl.get_of_forall (p := fun x : TierSt => x.debt = 0 ∧ x.refreshing = false) ⟨rfl, rfl⟩ ?_ _
  intro e he
  obtain ⟨x, _, hx⟩ := List.mem_filterMap.mp he
  dsimp only at hx
  split at hx
  · contradiction
  · cases hx
    exact ⟨rfl, rfl⟩

/-- The device as a trip stops it: the latch, THERMTRIP_N, and DRAM in self-refresh (R447). -/
def State.tripped (s : State) : State :=
  State.enterSelfRefresh { s with thm := { s.thm with trip := true }, pins := { s.pins with thermtrip := true } }

theorem State.trip_of_no_trip {s : State} (source : Nat) (isNode : Bool) (x : Int) (h : s.thm.trip = false) :
    s.trip source isNode x = s.tripped.thermalEvent .trip (if isNode then 0 else 4) source (tempWord x) :=
  if_neg (by simp [h])

theorem exec_thermalTrip_of_sensor {s : State} {k : Nat} {x e : Int} (hstate : (s.sensor k).state = 0)
    (he : tripAt (sensorTier k) = some e) (hx : e < x) (htrip : s.thm.trip = false) :
    exec (.thermalTrip k false x) s = .next ((s.tripped.thermalEvent .trip 4 k (tempWord x)).noteSensors s) := by
  have hrun : exec (.thermalTrip k false x) s = .next ((s.trip k false x).noteSensors s) :=
    if_pos (by simp [hstate, he, hx])
  rw [hrun, State.trip_of_no_trip k false x htrip]; rfl

end Sys2Proof.Machine
end

section
/-! PROOFS. The thermal evaluation: what each of its parts may change, and that none but its model touches the nodes, the forecast
peaks or the counts of evaluations (13 R426 to R435; 01 R25, R31). -/

namespace Sys2Proof.Machine

/-! ### What an evaluation may change -/

/-- t is s but for what a thermal evaluation may change. -/
def State.EvaluationOnly (s t : State) : Prop :=
  ∃ th ti co bo bt ct va en sr pi aw, t = { s with
    thm := th, tiers := ti, cores := co, bond := bo, boot := bt, ctr := ct, vaults := va, engines := en, selfRef := sr, pins := pi
    mgt := { s.mgt with awaiting := aw } }

/-- A part of an evaluation, which leaves the count of evaluations to its end. -/
structure State.ThermalFrame (s t : State) : Prop where
  frame : s.EvaluationOnly t
  counted : t.ctrGet thmEvals = s.ctrGet thmEvals

/-- One more part of an evaluation: it keeps what the model gave. -/
structure State.ThermalStep (s t : State) : Prop extends s.ThermalFrame t where
  nodes : t.thm.nodes = s.thm.nodes
  peaks : t.thm.peaks = s.thm.peaks
  evals : t.thm.evals = s.thm.evals

theorem State.EvaluationOnly.trans {s t u : State} (h : s.EvaluationOnly t) (hu : t.EvaluationOnly u) : s.EvaluationOnly u := by
  obtain ⟨th, ti, co, bo, bt, ct, va, en, sr, pi, aw, rfl⟩ := h
  obtain ⟨th', ti', co', bo', bt', ct', va', en', sr', pi', aw', rfl⟩ := hu
  exact ⟨_, _, _, _, _, _, _, _, _, _, _, rfl⟩

theorem State.EvaluationOnly.eq {s t : State} (h : s.EvaluationOnly t) :
    t = { s with thm := t.thm, tiers := t.tiers, cores := t.cores, bond := t.bond, boot := t.boot, ctr := t.ctr, vaults := t.vaults
                 engines := t.engines, selfRef := t.selfRef, pins := t.pins, mgt := { s.mgt with awaiting := t.mgt.awaiting } } := by
  obtain ⟨th, ti, co, bo, bt, ct, va, en, sr, pi, aw, rfl⟩ := h
  rfl

theorem State.EventsOnly.evaluationOnly {s t : State} (h : s.EventsOnly t) : s.EvaluationOnly t := by
  obtain ⟨es, aw, rfl⟩ := h
  exact ⟨_, _, _, _, _, _, _, _, _, _, _, rfl⟩

theorem State.ctrAdd_evaluationOnly (s : State) (o n : Nat) : s.EvaluationOnly (s.ctrAdd o n) :=
  ⟨_, _, _, _, _, _, _, _, _, _, _, rfl⟩

theorem State.ThermalFrame.trans {s t u : State} (h : s.ThermalFrame t) (hu : t.ThermalFrame u) : s.ThermalFrame u :=
  ⟨h.frame.trans hu.frame, hu.counted.trans h.counted⟩

theorem State.ThermalStep.refl (s : State) : s.ThermalStep s :=
  ⟨⟨⟨_, _, _, _, _, _, _, _, _, _, _, rfl⟩, rfl⟩, rfl, rfl, rfl⟩

theorem State.ThermalStep.trans {s t u : State} (h : s.ThermalStep t) (hu : t.ThermalStep u) : s.ThermalStep u :=
  ⟨h.toThermalFrame.trans hu.toThermalFrame, hu.nodes.trans h.nodes, hu.peaks.trans h.peaks, hu.evals.trans h.evals⟩

/-- Steps over a list are a step. -/
theorem State.ThermalStep.foldl {α : Type} {f : State → α → State} (hf : ∀ (t : State) (a : α), t.ThermalStep (f t a)) (l : List α) (s : State) :
    s.ThermalStep (l.foldl f s) :=
  List.foldlRecOn (motive := fun t : State => s.ThermalStep t) _ _ (refl s) fun t ht a _ => ht.trans (hf t a)

/-- One of two steps, or one that is made or left out. -/
theorem State.ThermalStep.ite {s t u : State} (c : Prop) [Decidable c] (ht : s.ThermalStep t) (hu : s.ThermalStep u) :
    s.ThermalStep (if c then t else u) := by
  split
  · exact ht
  · exact hu

/-! ### The operations on the state -/

section
variable (t : State)

theorem State.setSensor_thermalStep (k : Nat) (x : SensorSt) : t.ThermalStep (t.setSensor k x) :=
  ⟨⟨⟨_, _, _, _, _, _, _, _, _, _, _, rfl⟩, rfl⟩, rfl, rfl, rfl⟩

theorem State.setIsland_thermalStep (n : Nat) (x : IslandSt) : t.ThermalStep (t.setIsland n x) :=
  ⟨⟨⟨_, _, _, _, _, _, _, _, _, _, _, rfl⟩, rfl⟩, rfl, rfl, rfl⟩

theorem State.setQuota_thermalStep (n d : Nat) (q : QuotaSt) : t.ThermalStep (t.setQuota n d q) :=
  ⟨⟨⟨_, _, _, _, _, _, _, _, _, _, _, rfl⟩, rfl⟩, rfl, rfl, rfl⟩

theorem State.setTier_thermalStep (n d : Nat) (x : TierSt) : t.ThermalStep (t.setTier n d x) :=
  ⟨⟨⟨_, _, _, _, _, _, _, _, _, _, _, rfl⟩, rfl⟩, rfl, rfl, rfl⟩

theorem State.modCore_thermalStep (n : Nat) (f : CoreSt → CoreSt) : t.ThermalStep (t.modCore n f) :=
  ⟨⟨⟨_, _, _, _, _, _, _, _, _, _, _, rfl⟩, rfl⟩, rfl, rfl, rfl⟩

theorem State.modVault_thermalStep (n : Nat) (f : VaultSt → VaultSt) : t.ThermalStep (t.modVault n f) :=
  ⟨⟨⟨_, _, _, _, _, _, _, _, _, _, _, rfl⟩, rfl⟩, rfl, rfl, rfl⟩

theorem State.setEngine_thermalStep (n p : Nat) (x : EngineSt) : t.ThermalStep (t.setEngine n p x) :=
  ⟨⟨⟨_, _, _, _, _, _, _, _, _, _, _, rfl⟩, rfl⟩, rfl, rfl, rfl⟩

theorem State.raise_thermalStep (e : Event) : t.ThermalStep (t.raise e) :=
  ⟨⟨⟨_, _, _, _, _, _, _, _, _, _, _, rfl⟩, rfl⟩, rfl, rfl, rfl⟩

/-- A count of anything but evaluations. -/
theorem State.ctrAdd_thermalStep {o : Nat} (n : Nat) (h : o ≠ thmEvals) : t.ThermalStep (t.ctrAdd o n) :=
  ⟨⟨⟨_, _, _, _, _, _, _, _, _, _, _, rfl⟩, (State.ctrGet_ctrAdd ..).trans (if_neg h.symm)⟩, rfl, rfl, rfl⟩

/-! ### Sensors against the model, emergencies and trips -/

theorem State.judgeSensor_thermalStep (k : Nat) : t.ThermalStep (t.judgeSensor k) := by
  refine .ite _ (t.setSensor_thermalStep ..) (.ite _ (.ite _ (t.setSensor_thermalStep ..) ?suspect)
    (.ite _ (t.setSensor_thermalStep ..) ?again))
  case suspect =>
    exact ((t.setSensor_thermalStep ..).trans (State.raise_thermalStep ..)).trans
      (State.ctrAdd_thermalStep (o := thmSuspects) _ _ (by decide))
  case again => exact (t.setSensor_thermalStep ..).trans (State.raise_thermalStep ..)

theorem State.judgePair_thermalStep (n : Nat) : t.ThermalStep (t.judgePair n) := by
  refine .ite _ (.refl t) (.ite _ (.ite _ (t.setIsland_thermalStep ..) ?apart) (.ite _ (t.setIsland_thermalStep ..) (.refl t)))
  case apart =>
    exact ((t.setIsland_thermalStep ..).trans (State.raise_thermalStep ..)).trans
      (State.ctrAdd_thermalStep (o := thmPairEvents) _ _ (by decide))

theorem State.emergencySettings_thermalStep (k : Nat) : t.ThermalStep (t.emergencySettings k) :=
  .ite _ (.foldl (fun u _ => u.setIsland_thermalStep ..) _ t)
    (.ite _ (.foldl (fun u _ => u.setIsland_thermalStep ..) _ t) (.foldl (fun u _ => u.setQuota_thermalStep ..) _ t))

theorem State.latchEmergency_thermalStep : t.ThermalStep { t with thm := { t.thm with emerg := true } } :=
  ⟨⟨⟨_, _, _, _, _, _, _, _, _, _, _, rfl⟩, rfl⟩, rfl, rfl, rfl⟩

theorem State.emergency_thermalStep (k : Nat) (x : Int) : t.ThermalStep (t.emergency k x) :=
  .ite _ (.refl t) (((((t.setSensor_thermalStep ..).trans (State.emergencySettings_thermalStep ..)).trans
    (State.latchEmergency_thermalStep _)).trans (State.raise_thermalStep ..)).trans
      (State.ctrAdd_thermalStep (o := thmEmergencies) _ _ (by decide)))

theorem State.tripped_thermalStep : t.ThermalStep t.tripped :=
  ⟨⟨⟨_, _, _, _, _, _, _, _, _, _, _, rfl⟩, rfl⟩, rfl, rfl, rfl⟩

theorem State.trip_thermalStep (source : Nat) (isNode : Bool) (x : Int) : t.ThermalStep (t.trip source isNode x) :=
  .ite _ (.refl t) (t.tripped_thermalStep.trans (State.raise_thermalStep ..))

/-! ### Control -/

theorem State.setIslandLimit_thermalStep (emerg : List Nat) (hamada : Int) (n : Nat) :
    t.ThermalStep (t.setIslandLimit emerg hamada n) :=
  (t.setIsland_thermalStep ..).trans (State.ctrAdd_thermalStep (o := thmCeilDown) _ _ (by decide))

theorem State.setQuotas_thermalStep (emerg : List Nat) (n : Nat) : t.ThermalStep (t.setQuotas emerg n) :=
  .foldl (fun u _ => .ite _ (u.setQuota_thermalStep ..) (u.setQuota_thermalStep ..)) _ t

theorem State.guardNodes_thermalStep : t.ThermalStep t.guardNodes := by
  refine .foldl (fun u k => .foldl (fun w n => ?_) _ u) _ t
  have hemerg (c : Prop) [Decidable c] (k : Nat) (x : Int) : w.ThermalStep (if c then w.emergency k x else w) :=
    .ite _ (w.emergency_thermalStep ..) (.refl w)
  exact .ite _ (.refl w) (.ite _ ((hemerg ..).trans (State.trip_thermalStep ..)) (hemerg ..))

theorem State.evaluateControl_thermalStep : t.ThermalStep t.evaluateControl :=
  (State.ThermalStep.foldl (fun u _ => (u.setIslandLimit_thermalStep ..).trans (State.setQuotas_thermalStep ..)) _ t).trans
    (State.guardNodes_thermalStep _)

/-! ### Refresh rate, retunes, bond wear, engines -/

theorem State.hotTiers_thermalStep : t.ThermalStep t.hotTiers :=
  .foldl (fun u _ => .ite _ (u.setTier_thermalStep ..) (.refl u)) _ t

theorem State.retuneTest_thermalStep (n : Nat) : t.ThermalStep (t.retuneTest n) := by
  have hport (c : Prop) [Decidable c] (f : CoreSt → CoreSt) : t.ThermalStep (if c then t.modCore n f else t) :=
    .ite _ (t.modCore_thermalStep ..) (.refl t)
  exact .ite _ (hport ..) ((hport ..).trans (State.modVault_thermalStep ..))

theorem State.setBond_thermalStep (b : Bond) : t.ThermalStep { t with bond := b } :=
  ⟨⟨⟨_, _, _, _, _, _, _, _, _, _, _, rfl⟩, rfl⟩, rfl, rfl, rfl⟩

theorem State.bondCheckpoint_thermalStep : t.ThermalStep t.bondCheckpoint :=
  ⟨⟨⟨_, _, _, _, _, _, _, _, _, _, _, rfl⟩, rfl⟩, rfl, rfl, rfl⟩

theorem State.ThermalStep.raiseIf {s t : State} (h : s.ThermalStep t) (c : Prop) [Decidable c] (e : Event) :
    s.ThermalStep (if c then t.raise e else t) := h.trans (.ite _ (State.raise_thermalStep ..) (.refl t))

theorem State.bondSample_thermalStep : t.ThermalStep t.bondSample := by
  have hcheck (u : State) (c : Bool) : u.ThermalStep (if c then u.bondCheckpoint else u) :=
    .ite _ u.bondCheckpoint_thermalStep (.refl u)
  exact (((t.setBond_thermalStep _).trans (hcheck ..)).raiseIf _ _).raiseIf _ _

theorem State.grantTokens_thermalStep (n : Nat) : t.ThermalStep (t.grantTokens n) :=
  .foldl (fun u _ => .ite _ ((u.setEngine_thermalStep ..).trans (State.modVault_thermalStep ..)) (.refl u)) _ t

end

/-! ### The model -/

/-- The nodes as the model predicts them, in an evaluation that is counted (R426, R427). -/
def State.predicted (s : State) (power : List (Nat × Nat)) : State :=
  { s with thm := { s.thm with nodes := takeTemps s.thm.nodes (s.predict power), evals := s.thm.evals + 1 } }

/-- Sensors and pairs compared with the prediction (R433, R434). -/
def State.judged (s : State) : State :=
  (List.range 256).foldl State.judgePair ((List.range Config.sensors).foldl State.judgeSensor s)

/-- s with these forecast peaks. -/
def State.withPeaks (s : State) (p : Tbl Int) : State := { s with thm := { s.thm with peaks := p } }

/-- The forecast peaks are taken (R428). -/
def State.forecasted (s : State) (power : List (Nat × Nat)) : State :=
  s.withPeaks (s.forecast power)

theorem State.evaluateModel_eq (s : State) (power : List (Nat × Nat)) :
    s.evaluateModel power = (s.predicted power).judged.correctNodes.joinWindows.forecasted power := by
  simp only [State.evaluateModel, State.predicted, State.judged, State.forecasted, State.withPeaks]

theorem State.setThm_thermalFrame (s : State) (th : Thm) : s.ThermalFrame { s with thm := th } :=
  ⟨⟨_, _, _, _, _, _, _, _, _, _, _, rfl⟩, rfl⟩

theorem State.predicted_thermalFrame (s : State) (power : List (Nat × Nat)) : s.ThermalFrame (s.predicted power) :=
  s.setThm_thermalFrame _

theorem State.judged_thermalStep (s : State) : s.ThermalStep s.judged :=
  (State.ThermalStep.foldl State.judgeSensor_thermalStep _ s).trans (.foldl State.judgePair_thermalStep _ _)

theorem State.correctNodes_thermalFrame (s : State) : s.ThermalFrame s.correctNodes := s.setThm_thermalFrame _

theorem State.setWindow_thermalStep (s : State) (w : Tbl WadiSum) : s.ThermalStep { s with thm := { s.thm with window := w } } :=
  ⟨s.setThm_thermalFrame _, rfl, rfl, rfl⟩

theorem State.joinWindows_thermalStep (s : State) : s.ThermalStep s.joinWindows := s.setWindow_thermalStep _

theorem State.forecasted_thermalFrame (s : State) (power : List (Nat × Nat)) : s.ThermalFrame (s.forecasted power) :=
  s.setThm_thermalFrame _

theorem State.evaluateModel_thermalFrame (s : State) (power : List (Nat × Nat)) : s.ThermalFrame (s.evaluateModel power) := by
  rw [State.evaluateModel_eq]
  exact ((((s.predicted_thermalFrame power).trans (State.judged_thermalStep _).toThermalFrame).trans
    (State.correctNodes_thermalFrame _)).trans (State.joinWindows_thermalStep _).toThermalFrame).trans
      (State.forecasted_thermalFrame _ power)

theorem State.evals_predicted (s : State) (power : List (Nat × Nat)) : (s.predicted power).thm.evals = s.thm.evals + 1 := rfl

theorem State.evals_correctNodes (s : State) : s.correctNodes.thm.evals = s.thm.evals := rfl

theorem State.evals_withPeaks (s : State) (p : Tbl Int) : (s.withPeaks p).thm.evals = s.thm.evals := rfl

theorem State.evals_evaluateModel (s : State) (power : List (Nat × Nat)) :
    (s.evaluateModel power).thm.evals = s.thm.evals + 1 := by
  rw [State.evaluateModel_eq, State.forecasted, State.evals_withPeaks, (State.joinWindows_thermalStep _).evals, State.evals_correctNodes,
    (State.judged_thermalStep _).evals, State.evals_predicted]

section
variable (s : State) (p : Tbl Int)

theorem State.peaks_withPeaks : (s.withPeaks p).thm.peaks = p := rfl

theorem State.corePower_withPeaks (n present k : Nat) : (s.withPeaks p).corePower n present k = s.corePower n present k := rfl

theorem State.nodeAfter_withPeaks (steps : List (List (Nat × Nat))) (node : Nat) :
    (s.withPeaks p).nodeAfter steps node = s.nodeAfter steps node := rfl

theorem State.forecastPower_withPeaks (power : List (Nat × Nat)) : (s.withPeaks p).forecastPower power = s.forecastPower power := by
  simp only [State.forecastPower, State.corePower_withPeaks]

theorem State.forecast_withPeaks (power : List (Nat × Nat)) : (s.withPeaks p).forecast power = s.forecast power := by
  simp only [State.forecast, State.forecastPower_withPeaks, State.nodeAfter_withPeaks]

end

/-- The peaks that an evaluation takes are the forecast from the state it leaves, whose peaks the forecast does not read. -/
theorem State.peaks_evaluateModel (s : State) (power : List (Nat × Nat)) :
    (s.evaluateModel power).thm.peaks = (s.evaluateModel power).forecast power := by
  rw [State.evaluateModel_eq, State.forecasted, State.peaks_withPeaks, State.forecast_withPeaks]

/-! ### The evaluation -/

/-- An evaluation after its model: control, refresh rates, retunes, bond wear, and tokens for the engines. -/
def State.evaluated (s : State) : State :=
  let t := ((List.range 256).foldl State.retuneTest s.evaluateControl.hotTiers).bondSample
  (t.vaults.filter (fun e => e.2.jobs ≠ [])).foldl (fun u e => u.grantTokens e.1) t

theorem State.evaluated_thermalStep (s : State) : s.ThermalStep s.evaluated :=
  ((((s.evaluateControl_thermalStep).trans (State.hotTiers_thermalStep _)).trans
    (.foldl State.retuneTest_thermalStep _ _)).trans (State.bondSample_thermalStep _)).trans
      (.foldl (α := Nat × VaultSt) (f := fun u e => u.grantTokens e.1) (fun u e => u.grantTokens_thermalStep e.1) _ _)

theorem exec_thermalEvaluation (power : List (Nat × Nat)) (s : State) : exec (.thermalEvaluation power) s
    = .next (((s.evaluateModel power).evaluated.ctrAdd thmEvals 1).noteSensors s) := rfl

end Sys2Proof.Machine
end

section
/-! PROOFS. O49: the cases of the sensors' commands, of the evaluation and of the checkpoint, put together. -/

open Sys2Proof Sys2Proof.Machine

namespace Sys2Proof.Proofs

theorem sensorConversion_joins_last_25 {s : State} {k : Nat} {x : Int} (hstate : (s.sensor k).state = 0)
    (hoff : s.sensorOffset k = 0) (he : ∀ e, emergAt (sensorTier k) = some e → x ≤ e)
    (ht : ∀ e, tripAt (sensorTier k) = some e → x ≤ e) :
    ∃ t : State, exec (.sensorConversion k x) s = .next t ∧ t = { s with thm := { s.thm with sensors := t.thm.sensors } } ∧
      t.sensor k = { s.sensor k with recent := (x :: (s.sensor k).recent).take 25, mean := (t.sensor k).mean } ∧
      (t.sensor k).mean = (t.sensor k).recent.foldl (· + ·) 0 / ((t.sensor k).recent.length : Int) ∧
      (∀ j, j ≠ k → t.sensor j = s.sensor j) := by
  have hself : (s.converted k x).sensor k = (s.sensor k).joined x := State.sensor_setSensor_self ..
  have hnext : ((s.converted k x).compareTemp k x x).noteSensors s = s.converted k x := by
    rw [State.compareTemp_of_within (exceeds_eq_false he) (exceeds_eq_false ht),
      State.noteSensors_of_same (s.stateSensor_converted k x)]
  refine ⟨s.converted k x, by rw [exec_sensorConversion_of_in_use x hstate hoff, hnext], rfl, ?_, ?_, ?_⟩
  · rw [hself]; rfl
  · rw [hself]; rfl
  · exact fun j hj => (State.sensor_setSensor ..).trans (if_neg hj)

theorem sensorConversion_is_emergency {s : State} {k : Nat} {x : Int} (hk : k < 512) (hstate : (s.sensor k).state = 0)
    (hemerg : (s.sensor k).emerg = false) (hoff : s.sensorOffset k = 0) (hlow : 840 < x) (hhigh : x ≤ 880) :
    ∃ t : State, exec (.sensorConversion k x) s = .next t ∧ (t.sensor k).emerg = true ∧ t.thm.emerg = true ∧
      (t.island (k / 2)).ceilMhz = 1000 ∧ (t.island (k / 2)).duty = 16 ∧ (∀ n, n ≠ k / 2 → t.island n = s.island n) ∧
      t.ctrGet thmEmergencies = s.ctrGet thmEmergencies + 1 ∧ countersSameBut s t thmEmergencies ∧
      (∃ e ∈ t.boot.events, e.kind = .thermalEmergency ∧ e.unit = k) ∧
      t = { s with thm := t.thm, ctr := t.ctr, boot := { s.boot with events := t.boot.events }
                   mgt := { s.mgt with awaiting := t.mgt.awaiting } } := by
  have htier : sensorTier k = 2 := if_pos hk
  have he : exceeds (emergAt (sensorTier k)) x = true := by rw [htier]; exact decide_eq_true hlow
  have ht : exceeds (tripAt (sensorTier k)) x = false := by rw [htier]; exact decide_eq_false (Int.not_lt.mpr hhigh)
  have hconv : ((s.converted k x).sensor k).emerg = false := by
    rw [State.converted, State.sensor_setSensor_self]; exact hemerg
  obtain ⟨u, hu⟩ : ∃ u, u = ((s.converted k x).ergEmergency k).emergencyNoted k x := ⟨_, rfl⟩
  have hrun : exec (.sensorConversion k x) s = .next (u.noteSensors s) := by
    rw [exec_sensorConversion_of_in_use x hstate hoff, State.compareTemp_of_emergency he ht, State.emergency_of_erg x hk hconv, hu]
  have hthm : (u.noteSensors s).thm = ((s.converted k x).ergEmergency k).thm := by
    rw [State.noteSensors_thm, hu, State.thm_emergencyNoted]
  have hctr (q : Nat) : (u.noteSensors s).ctrGet q = if q = thmEmergencies then s.ctrGet thmEmergencies + 1 else s.ctrGet q := by
    rw [State.ctrGet_congr (u.noteSensors_ctr s), hu, State.ctrGet_emergencyNoted,
      State.ctrGet_congr ((State.ctr_ergEmergency _ k).trans (s.ctr_converted k x))]
  have honly : s.ThermalOnly u := hu ▸ ((s.converted_thermalOnly k x).ergEmergency k).emergencyNoted k x
  obtain ⟨e, hhead, hkind⟩ := ((s.converted k x).ergEmergency k).head_events_emergencyNoted k x
  refine ⟨u.noteSensors s, hrun, ?_, ?_, ?_, ?_, ?_, ?_, ?_, ?_, (honly.noteSensors s).eq⟩
  · rw [State.sensor_congr hthm, State.sensor_ergEmergency_self]
  · rw [hthm]; rfl
  · rw [State.island_congr hthm, State.island_ergEmergency_self]
  · rw [State.island_congr hthm, State.island_ergEmergency_self]
  · intro n hn
    rw [State.island_congr hthm, State.island_ergEmergency_ne _ hn]; rfl
  · rw [hctr, if_pos rfl]
  · exact fun q hq => (hctr q).trans (if_neg hq)
  · exact ⟨e, State.mem_events_noteSensors s (hu ▸ hhead), hkind⟩

theorem emergencyClear_unlatches {s : State} {k : Nat} {e : Int} (hemerg : (s.sensor k).emerg = true)
    (he : emergAt (sensorTier k) = some e) (hlow : s.watched k ≤ e - 40) :
    ∃ t : State, exec (.emergencyClear k) s = .next t ∧ t.sensor k = { s.sensor k with emerg := false } ∧
      (∀ j, j ≠ k → t.sensor j = s.sensor j) ∧ (t.thm.emerg = true ↔ ∃ y ∈ t.thm.sensors, y.2.emerg = true) := by
  refine ⟨_, exec_emergencyClear_of_low hemerg he hlow, ?_, ?_, ?_⟩
  · rw [State.sensor_congr (State.noteSensors_thm ..)]
    exact State.sensor_setSensor_self s k _
  · intro j hj
    rw [State.sensor_congr (State.noteSensors_thm ..)]
    exact (State.sensor_setSensor s k j _).trans (if_neg hj)
  · rw [State.noteSensors_thm]
    exact List.any_eq_true

theorem thermalTrip_stops_device {s : State} {k : Nat} {x e : Int} (hstate : (s.sensor k).state = 0)
    (he : tripAt (sensorTier k) = some e) (hx : e < x) (htrip : s.thm.trip = false) :
    ∃ t : State, exec (.thermalTrip k false x) s = .next t ∧ t.thm.trip = true ∧ t.pins.thermtrip = true ∧ t.selfRef = true ∧
      (∀ n d, (t.tier n d).debt = 0 ∧ (t.tier n d).refreshing = false) ∧ (∃ v ∈ t.boot.events, v.kind = .trip) ∧
      t = { s with thm := { s.thm with trip := true }, pins := { s.pins with thermtrip := true }, selfRef := true, tiers := t.tiers
                   boot := { s.boot with events := t.boot.events }, mgt := { s.mgt with awaiting := t.mgt.awaiting } } := by
  obtain ⟨u, hu⟩ : ∃ u, u = s.tripped.thermalEvent .trip 4 k (tempWord x) := ⟨_, rfl⟩
  obtain ⟨v, hhead, hkind, _⟩ := s.tripped.head_events_thermalEvent .trip 4 k (tempWord x)
  have hmem : ∃ v ∈ (u.noteSensors s).boot.events, v.kind = .trip :=
    ⟨v, State.mem_events_noteSensors s (hu ▸ hhead), hkind⟩
  have honly : s.tripped.EventsOnly (u.noteSensors s) :=
    State.EventsOnly.trans (hu ▸ State.raise_eventsOnly ..) (u.noteSensors_eventsOnly s)
  have htier (n d : Nat) : (s.tripped.tier n d).debt = 0 ∧ (s.tripped.tier n d).refreshing = false :=
    State.tier_enterSelfRefresh ..
  refine ⟨u.noteSensors s, hu ▸ exec_thermalTrip_of_sensor hstate he hx htrip, ?_⟩
  revert hmem
  obtain ⟨es, aw, h⟩ := honly
  rw [h]
  exact fun hmem => ⟨rfl, rfl, rfl, htier, hmem, rfl⟩

theorem thermalEvaluation_takes_model (power : List (Nat × Nat)) (s : State) :
    ∃ t : State, exec (.thermalEvaluation power) s = .next t ∧
      t = { s with thm := t.thm, tiers := t.tiers, cores := t.cores, bond := t.bond, boot := t.boot, ctr := t.ctr, vaults := t.vaults
                   engines := t.engines, selfRef := t.selfRef, pins := t.pins, mgt := { s.mgt with awaiting := t.mgt.awaiting } } ∧
      t.thm.evals = s.thm.evals + 1 ∧ t.ctrGet thmEvals = s.ctrGet thmEvals + 1 ∧
      t.thm.nodes = (s.evaluateModel power).thm.nodes ∧ t.thm.peaks = (s.evaluateModel power).forecast power := by
  have hmodel := s.evaluateModel_thermalFrame power
  have hstep := (s.evaluateModel power).evaluated_thermalStep
  have hthm : (((s.evaluateModel power).evaluated.ctrAdd thmEvals 1).noteSensors s).thm = (s.evaluateModel power).evaluated.thm := by
    rw [State.noteSensors_thm, State.ctrAdd_thm]
  refine ⟨_, exec_thermalEvaluation power s, ?_, ?_, ?_, ?_, ?_⟩
  · exact (((hmodel.trans hstep.toThermalFrame).frame.trans (State.ctrAdd_evaluationOnly ..)).trans
      (State.noteSensors_eventsOnly ..).evaluationOnly).eq
  · rw [hthm, hstep.evals, State.evals_evaluateModel]
  · rw [State.ctrGet_congr (State.noteSensors_ctr ..), State.ctrGet_ctrAdd, if_pos rfl, hstep.counted, hmodel.counted]; rfl
  · rw [hthm, hstep.nodes]
  · rw [hthm, hstep.peaks, State.peaks_evaluateModel]

/-- Settles O49: each clause is one case of a conversion, of an emergency's end, of a trip, of an evaluation or of a checkpoint; the
latch of each sensor and the means rounded down are log 17's. -/
theorem sensorsActAndTrip : Obligations.SensorsActAndTrip := by
  unfold Obligations.SensorsActAndTrip
  refine ⟨?failed, ?within, ?emergency, ?clear, ?keep, ?trip, ?evaluation, ?checkpoint⟩
  case failed => exact fun k x s hstate => if_pos hstate
  case within => exact fun k x s hstate hoff he ht => sensorConversion_joins_last_25 hstate hoff he ht
  case emergency =>
    exact fun k x s hk hstate hemerg hoff hlow hhigh => sensorConversion_is_emergency hk hstate hemerg hoff hlow hhigh
  case clear => exact fun k e s hemerg he hlow => emergencyClear_unlatches hemerg he hlow
  case keep => exact fun k e s _ he hhigh => exec_emergencyClear_of_high he hhigh
  case trip => exact fun k x e s hstate he hx htrip => thermalTrip_stops_device hstate he hx htrip
  case evaluation => exact fun power s => thermalEvaluation_takes_model power s
  case checkpoint => exact fun s => rfl

end Sys2Proof.Proofs
end


section
/-! PROOFS. The invariant of the memories and the logs (O4, O5). Each function of the model that makes a state keeps it: its
lemma follows the body of the function, `State.Inv.ite` at an `if`, `State.Inv.foldl` at a fold, the lemma of each function
called, and `State.Inv.update` where a record update touches nothing that the invariant speaks of. Memories change through
`Cells.write` and `Cells.merge` alone, the event log and Oasis's records and log by a `take` of their bounds, and the watch
table by `Cmd.addLine` below its bound and by `Cmd.dropLine`, which frees the entry that it fills. -/

-- Several hundred short proofs: elaborated one after another they need one thread.
set_option Elab.async false

namespace Sys2Proof.Machine

/-- An answer whose next state, where it has one, meets the invariant. -/
def Answer.Inv : Answer → Prop
  | .next t => t.Inv
  | _ => True

theorem Answer.Inv.next {t : State} (h : t.Inv) : Answer.Inv (.next t) := h

theorem Answer.Inv.fault {e : Fault} : Answer.Inv (.fault e) := trivial

theorem Answer.Inv.ite {a b : Answer} {c : Prop} {_ : Decidable c} (ha : a.Inv) (hb : b.Inv) :
    (if c then a else b : Answer).Inv := by
  split <;> assumption

theorem State.Inv.ite {s t : State} {c : Prop} {_ : Decidable c} (hs : s.Inv) (ht : t.Inv) : (if c then s else t).Inv := by
  split <;> assumption

theorem State.Inv.foldl {α : Type} {f : State → α → State} {s : State} {l : List α} (h : s.Inv)
    (hf : ∀ t a, t.Inv → (f t a).Inv) : (l.foldl f s).Inv := List.foldlRecOn l f h fun t ht a _ => hf t a ht

variable {s : State}

/-! ### What the invariant does not see, and what it does -/

/-- A record update keeps the invariant when it keeps the three memories, the watch table, the event log and Oasis's records
and log. The constructor is written out so that the update is read off field by field. -/
theorem State.Inv.update {pending time freeIdx delays ctr latchHi loHold staged applied glb epoch cmd rings tainted conj
    fields steps sync slow cores vaults caches tiers engines selfRef kvm decodes routers slots reducing ports lnk colls pwr
    doms thm err dbg boot bond mgt oas cxl io pins} (h : s.Inv)
    (hc : cmd.watch = s.cmd.watch := by rfl) (hb : boot.events = s.boot.events := by rfl)
    (hr : oas.records = s.oas.records := by rfl) (hl : oas.logs = s.oas.logs := by rfl) :
    State.Inv (.mk pending time freeIdx s.dram s.playa delays s.host ctr latchHi loHold staged applied glb epoch cmd
      rings tainted conj fields steps sync slow cores vaults caches tiers engines selfRef kvm decodes routers slots
      reducing ports lnk colls pwr doms thm err dbg boot bond mgt oas cxl io pins) :=
  ⟨h.dram, h.playa, h.host, hb ▸ h.events, hc ▸ h.watch, hr ▸ h.records, hl ▸ h.logs⟩

theorem State.Inv.setDram {d : Dram} (h : s.Inv) (hd : Memory.wf d.cells) : State.Inv { s with dram := d } :=
  { h with dram := hd }
theorem State.Inv.setPlaya {m : Slices} (h : s.Inv) (hm : Memory.wf m.cells) : State.Inv { s with playa := m } :=
  { h with playa := hm }
theorem State.Inv.setHost {m : Store} (h : s.Inv) (hm : Memory.wf m.cells) : State.Inv { s with host := m } :=
  { h with host := hm }
theorem State.Inv.setCmd {c : Cmd} (h : s.Inv) (hc : c.watch.length ≤ 4096) : State.Inv { s with cmd := c } :=
  { h with watch := hc }

theorem Memory.wf_nil : Memory.wf [] := ⟨List.Pairwise.nil, by simp⟩

theorem Slices.store_wf (m : Slices) (a : Nat) (bs : List Byte) (p : Bool) (h : Memory.wf m.cells) :
    Memory.wf (m.store a bs p).cells := by
  unfold Slices.store
  split <;> exact Cells.write_wf _ _ _ h

theorem Cmd.length_watch_addLine {c : Cmd} (l : Nat) (h : c.watch.length ≤ 4096) : (c.addLine l).watch.length ≤ 4096 := by
  unfold Cmd.addLine
  split
  · exact h
  · dsimp only
    split
    · simp; omega
    · exact h

/-- The line given up leaves a free entry, and at most one line takes it. -/
theorem Cmd.length_watch_dropLine {c : Cmd} (l : Nat) (h : c.watch.length ≤ 4096) : (c.dropLine l).watch.length ≤ 4096 := by
  unfold Cmd.dropLine
  split
  · rename_i hw
    have hlt : (c.watch.filter (fun w => decide (w.line ≠ l))).length < c.watch.length := by
      refine List.length_filter_lt_length_iff_exists.mpr ?_
      obtain ⟨w, hmem, hl⟩ := List.any_eq_true.mp hw
      exact ⟨w, hmem, by simpa using hl⟩
    dsimp only
    split
    · exact hlt.le.trans h
    · simp only [List.length_append, List.length_singleton]; omega
  · exact h

theorem State.Inv.dropLine {l : Nat} (h : s.Inv) : State.Inv { s with cmd := s.cmd.dropLine l } :=
  .setCmd h (Cmd.length_watch_dropLine l h.watch)

theorem Cmd.watch_startHold (c : Cmd) (v : Nat) : (c.startHold v).watch = c.watch := by
  unfold Cmd.startHold
  split <;> rfl

/-- The records and the log that Oasis keeps are within their bounds. -/
def Oasis.Bounded (o : Oasis) : Prop := o.records.length ≤ 65536 ∧ o.logs.length ≤ 1024

theorem Oasis.Bounded.note {o : Oasis} (h : o.Bounded) (kind : Nat) (data : List Byte) : (o.note kind data).Bounded :=
  ⟨h.1, List.length_take_le _ _⟩

theorem Oasis.Bounded.commit {o : Oasis} (h : o.Bounded) : o.commit.Bounded := h

theorem Oasis.Bounded.openSeal {o : Oasis} (h : o.Bounded) : o.openSeal.Bounded := by
  unfold Oasis.openSeal
  split
  · exact h
  · exact Oasis.Bounded.note (o := { o with unsealed := true, openings := _, fSeal := true }) h _ _

theorem Oasis.Bounded.closeSeal {o : Oasis} (h : o.Bounded) : o.closeSeal.Bounded := by
  unfold Oasis.closeSeal
  have h1 := Oasis.Bounded.note (o := { o with unsealed := false }) h 4 []
  split
  · exact h
  · split
    · exact Oasis.Bounded.note (o := { Oasis.note { o with unsealed := false } 4 [] with loading := false }) h1 _ _
    · exact h1

theorem Oasis.Bounded.powerFail {o : Oasis} (h : o.Bounded) : o.powerFail.Bounded := by
  unfold Oasis.powerFail
  split
  · exact h
  · refine ⟨Nat.zero_le _, ?_⟩
    dsimp only
    split <;> exact List.length_take_le _ _

theorem Oasis.Bounded.noteRange {o : Oasis} (h : o.Bounded) (r : OasisReading) : (o.noteRange r).Bounded := by
  have ho : ∀ (x : Oasis) (a : Option Nat) b k d, x.Bounded →
      (({ x with rangeNow := a, fRange := b } : Oasis).note k d).Bounded := fun x a b k d hx => hx.note k d
  have hb : ∀ (x : Oasis) (a : Option Nat) k d, x.Bounded →
      (({ x with rangeNow := a } : Oasis).note k d).Bounded := fun x a k d hx => hx.note k d
  unfold Oasis.noteRange
  split
  · exact ho _ _ _ _ _ h
  · dsimp only
    split
    · exact h
    · exact ho _ _ _ _ _ (hb _ _ _ _ h)
  · exact hb _ _ _ _ h
  · exact h

theorem Oasis.Bounded.applyChanges {o : Oasis} (h : o.Bounded) : o.applyChanges.Bounded := by
  unfold Oasis.applyChanges
  extract_lets -underBinder o1
  have h1 : o1.Bounded := by
    unfold o1
    split
    · exact Oasis.Bounded.note h _ _
    · exact h
  clear_value o1
  split
  · exact ⟨h1.1, List.length_take_le _ _⟩
  · exact h1

theorem State.Inv.setOasis {o} (h : s.Inv) (ho : o.Bounded) : (s.setOasis o).Inv :=
  { h with records := ho.1, logs := ho.2 }

theorem State.Inv.oasBounded (h : s.Inv) : s.oas.Bounded := ⟨h.records, h.logs⟩

/-! ### Units of State -/

theorem State.Inv.setRing {r v} (h : s.Inv) : (s.setRing r v).Inv := h.update
theorem State.Inv.modRing {r f} (h : s.Inv) : (s.modRing r f).Inv := h.update
theorem State.Inv.ctrAdd {off n} (h : s.Inv) : (s.ctrAdd off n).Inv := h.update
theorem State.Inv.useSlot {i x} (h : s.Inv) : (s.useSlot i x).Inv := h.update
theorem State.Inv.raise {e} (h : s.Inv) : (s.raise e).Inv := { h with events := List.length_take_le _ _ }
theorem State.Inv.event {a b c d e f g} (h : s.Inv) : (s.event a b c d e f g).Inv := h.raise
theorem State.Inv.hostWrite {a bs} (h : s.Inv) : (s.hostWrite a bs).Inv := { h with host := Store.store_wf _ _ _ _ h.host }

theorem State.Inv.fireMsix {v} (h : s.Inv) : (s.fireMsix v).Inv := by
  unfold State.fireMsix
  split
  · exact h.update
  · exact h.update (hc := Cmd.watch_startHold ..)

theorem State.Inv.raiseMsix {v} (h : s.Inv) : (s.raiseMsix v).Inv := by
  unfold State.raiseMsix
  split
  · exact h.update
  · exact h.fireMsix

theorem State.Inv.writeRecord {r a b c d} (h : s.Inv) : (s.writeRecord r a b c d).Inv :=
  .ite h.hostWrite.setRing.raiseMsix h.hostWrite.setRing

/-! ### Ops -/

theorem State.Inv.perturbWrite {a n} (h : s.Inv) : (s.perturbWrite a n).Inv := by
  refine .ite h (.foldl h fun t e ht => .ite ht (.useSlot (.setDram ht ?_)))
  split
  · exact Dram.invert_wf _ _ _ _ ht.dram
  · exact ht.dram

theorem State.Inv.bankWrite {a bs poison} (h : s.Inv) : (s.bankWrite a bs poison).Inv :=
  .perturbWrite (.setDram h (Dram.store_wf _ _ _ _ h.dram))

theorem State.Inv.playaSeen {core off n} (h : s.Inv) : (s.playaSeen core off n).Inv := .ite h h.update

theorem State.Inv.perturbPlaya {core off n} (h : s.Inv) : (s.perturbPlaya core off n).Inv :=
  .ite h (.foldl h fun _ _ ht => .ite ht (.useSlot (.setPlaya ht (Cells.write_wf _ _ _ ht.playa))))

theorem State.Inv.playaWrite {core off bs poison} (h : s.Inv) :
    (s.playaWrite core off bs poison).Inv :=
  .perturbPlaya (.setPlaya h (Slices.store_wf _ _ _ _ h.playa))

theorem State.Inv.playaTaint {core off n} (h : s.Inv) : (s.playaTaint core off n).Inv := .setPlaya h h.playa

theorem State.Inv.seeHost {v} (h : s.Inv) : (s.seeHost v).Inv :=
  .setHost h (Cells.merge_wf _ _ h.host)

theorem State.Inv.setCore {c v} (h : s.Inv) : (s.setCore c v).Inv := h.update
theorem State.Inv.modCore {c f} (h : s.Inv) : (s.modCore c f).Inv := h.setCore
theorem State.Inv.setVault {n v} (h : s.Inv) : (s.setVault n v).Inv := h.update
theorem State.Inv.modVault {n f} (h : s.Inv) : (s.modVault n f).Inv := h.setVault
theorem State.Inv.setTier {n t v} (h : s.Inv) : (s.setTier n t v).Inv := h.update
theorem State.Inv.setEngine {n p v} (h : s.Inv) : (s.setEngine n p v).Inv := h.update
theorem State.Inv.setRouter {n v} (h : s.Inv) : (s.setRouter n v).Inv := h.update
theorem State.Inv.setPort {p v} (h : s.Inv) : (s.setPort p v).Inv := h.update
theorem State.Inv.modPort {p f} (h : s.Inv) : (s.modPort p f).Inv := h.setPort
theorem State.Inv.setDom {d v} (h : s.Inv) : (s.setDom d v).Inv := h.update
theorem State.Inv.modDom {d f} (h : s.Inv) : (s.modDom d f).Inv := h.setDom
theorem State.Inv.setSync {o v} (h : s.Inv) : (s.setSync o v).Inv := h.update
theorem State.Inv.setSlow {p v} (h : s.Inv) : (s.setSlow p v).Inv := h.update
theorem State.Inv.setSensor {k v} (h : s.Inv) : (s.setSensor k v).Inv := h.update
theorem State.Inv.setIsland {n v} (h : s.Inv) : (s.setIsland n v).Inv := h.update
theorem State.Inv.setField {f v} (h : s.Inv) : (s.setField f v).Inv := h.update
theorem State.Inv.setStep {o v} (h : s.Inv) : (s.setStep o v).Inv := h.update

theorem State.Inv.updateLines {a bs poison} (h : s.Inv) : (s.updateLines a bs poison).Inv :=
  .ite h (.foldl h fun _ _ h1 => by
    split
    · exact h1.playaWrite
    · exact h1)

theorem State.Inv.closeEntries {a n} (h : s.Inv) : (s.closeEntries a n).Inv := .ite h h.setVault

theorem State.Inv.dpaWrite {a bs poison} (h : s.Inv) : (s.dpaWrite a bs poison).Inv :=
  .ite h h.bankWrite.updateLines.closeEntries

theorem State.Inv.ctrPut {off v} (h : s.Inv) : (s.ctrPut off v).Inv := h.update
theorem State.Inv.ctrMax {off n} (h : s.Inv) : (s.ctrMax off n).Inv := .ite h.ctrPut h
theorem State.Inv.tookFree (h : s.Inv) : s.tookFree.Inv := h.update

theorem State.Inv.memoryEvent {kind cper vault data m} (h : s.Inv) : (s.memoryEvent kind cper vault data m).Inv :=
  h.raise

theorem State.Inv.noteSensors {old} (h : s.Inv) : (s.noteSensors old).Inv := .foldl h fun _ _ h1 => .ite h1 h1.event
theorem State.Inv.finding {kind unit sub sub2} (h : s.Inv) : (s.finding kind unit sub sub2).Inv := h.update

theorem State.Inv.idle (h : s.Inv) : s.idle.Inv := by
  unfold State.idle
  split
  · exact .ite h.update h.update
  · exact h.update

theorem State.Inv.setDelays {xs} (h : s.Inv) : (s.setDelays xs).Inv := .foldl h fun _ _ h1 => h1.update
theorem State.Inv.answer {a} (h : s.Inv) : (s.answer a).Inv := h.update
theorem State.Inv.reply {r} (h : s.Inv) : (s.reply r).Inv := h.update

/-! ### Operands -/

theorem State.Inv.bankFlit {a bs full poison} (h : s.Inv) : (s.bankFlit a bs full poison).Inv :=
  .setDram h (Dram.write_wf _ _ _ h.dram)

theorem State.Inv.writeTarget {t bs full poison} (h : s.Inv) :
    (s.writeTarget t bs full poison).Inv := by
  unfold State.writeTarget
  split
  · exact .ite h h.bankFlit.perturbWrite.updateLines.closeEntries
  · exact .setHost h (Cells.write_wf _ _ _ h.host)
  · exact h

theorem State.Inv.writePieces {s : State} {place : Nat} {ps : List (Nat × Nat)} {ws : List WByte} (h : s.Inv) :
    (s.writePieces place ps ws).Inv := by
  induction ps generalizing s ws with
  | nil => exact h
  | cons p r ih => exact ih (.ite h h.writeTarget)

theorem State.Inv.writeDva {place dva ws} (h : s.Inv) : (s.writeDva place dva ws).Inv := h.writePieces
theorem State.Inv.cacheNoun {i} (h : s.Inv) : (s.cacheNoun i).Inv := .ite h h.update

theorem State.Inv.storeTensor {n es} (h : s.Inv) : (s.storeTensor n es).Inv :=
  .ite h (.ite h.writeDva.writeDva (.ite (.foldl h.writeDva fun _ _ h1 => by
    split
    · exact .ite h1.writeDva h1
    · exact h1) h.writeDva))

/-! ### Link -/

theorem State.Inv.transmit {p f} (h : s.Inv) : (s.transmit p f).Inv := h.setPort.ctrAdd.update
theorem State.Inv.transmitLink {p kind payload} (h : s.Inv) : (s.transmitLink p kind payload).Inv := h.setPort.update
theorem State.Inv.freePool {p f} (h : s.Inv) : (s.freePool p f).Inv := .ite h.modPort h
theorem State.Inv.sendQueued {p q} (h : s.Inv) : (s.sendQueued p q).Inv := h.modPort.transmit.freePool

theorem State.Inv.pump {n p : Nat} {s : State} (h : s.Inv) : (State.pump n p s).Inv := by
  induction n generalizing s with
  | zero => exact h
  | succ n ih =>
    unfold State.pump
    split
    · exact ih h.sendQueued
    · exact h

theorem State.Inv.pumpPort {p} (h : s.Inv) : (s.pumpPort p).Inv := h.pump
theorem State.Inv.enqueue {p pool f} (h : s.Inv) : (s.enqueue p pool f).Inv := h.modPort
theorem State.Inv.idleLink {p} (h : s.Inv) : (s.idleLink p).Inv := .ite h.transmitLink h
theorem State.Inv.discardFrame {p f} (h : s.Inv) : (s.discardFrame p f).Inv := h.ctrAdd.event

theorem State.Inv.emit {f} (h : s.Inv) : (s.emit f).Inv := .ite h.update (by
    split
    · exact h.enqueue.pumpPort
    · exact h.discardFrame)

theorem State.Inv.emitOn {p f} (h : s.Inv) : (s.emitOn p f).Inv := h.enqueue.pumpPort

theorem State.Inv.forwardFrame {inPort f} (h : s.Inv) : (s.forwardFrame inPort f).Inv := by
  unfold State.forwardFrame
  split
  · exact h.discardFrame.freePool
  · exact h.enqueue.pumpPort

theorem State.Inv.pumpAll (h : s.Inv) : s.pumpAll.Inv := .foldl h fun _ _ h1 => h1.pumpPort.idleLink
theorem State.Inv.inboxTake {p f} (h : s.Inv) : (s.inboxTake p f).Inv := h.update.freePool

/-! ### Group -/

theorem State.Inv.setColl {c} (h : s.Inv) : (s.setColl c).Inv := h.update
theorem State.Inv.dropColl {c} (h : s.Inv) : (s.dropColl c).Inv := h.update
theorem State.Inv.sendCtrl {dst type c block} (h : s.Inv) : (s.sendCtrl dst type c block).Inv := h.update.emit

theorem State.Inv.tellGroup {c type except} (h : s.Inv) : (s.tellGroup c type except).Inv :=
  .foldl h fun _ _ h1 => h1.sendCtrl

theorem State.Inv.abortColl {r index} (h : s.Inv) : (s.abortColl r index).Inv :=
  .foldl h fun _ _ h1 => h1.tellGroup.dropColl

/-! ### Flags -/

theorem State.Inv.writeFetchWb {r index} (h : s.Inv) : (s.writeFetchWb r index).Inv := h.hostWrite

theorem State.Inv.openRing {r ctx fid} (h : s.Inv) : (s.openRing r ctx fid).Inv :=
  .writeFetchWb (.setCmd h.setRing (Cmd.length_watch_addLine _ h.watch))

theorem State.Inv.openAdmin (h : s.Inv) : s.openAdmin.Inv := .ite (.event h.update) (.openRing h.update)
theorem State.Inv.flushRecord {r slot tag} (h : s.Inv) : (s.flushRecord r slot tag).Inv := h.writeRecord

theorem State.Inv.flushPosted {r} (h : s.Inv) : (s.flushPosted r).Inv := by
  unfold State.flushPosted
  exact .modRing (.foldl (.foldl h.writeFetchWb fun _ _ h1 => h1.flushRecord) fun _ _ h1 => h1.flushRecord)

theorem State.Inv.fencesDone {t} (h : s.Inv) : (s.fencesDone t).Inv := h.modRing

theorem State.Inv.closeNow {r} (h : s.Inv) : (s.closeNow r).Inv := by
  have h3 : ∀ s3 : State, s3.Inv → State.Inv (if r = 0 then
      let c := { s3.cmd with r0State := 0, enableWaits := false }
      if s3.cmd.enableWaits then ({ s3 with cmd := c }).openAdmin else { s3 with cmd := c }
    else s3.fencesDone r) :=
    fun s3 h3 => .ite (.ite h3.update.openAdmin h3.update) h3.fencesDone
  have h2 := (h.flushPosted (r := r)).setRing (r := r) (v := RingSt.reset)
  exact h3 _ (.ite h2 h2.dropLine)

theorem State.Inv.stopUnfetched {r f} (h : s.Inv) : (s.stopUnfetched r f).Inv := by
  unfold State.stopUnfetched
  extract_lets x s1
  have h1 : s1.Inv := h.writeRecord
  exact .modRing (.ite h1.update h1)

theorem State.Inv.seeProducer {r v} (h : s.Inv) : (s.seeProducer r v).Inv :=
  .ite h.setRing (.ite h.setRing h.setRing.stopUnfetched)

theorem State.Inv.pauseDrained {r} (h : s.Inv) : (s.pauseDrained r).Inv := .ite h.modRing h
theorem State.Inv.tryIdle {r} (h : s.Inv) : (s.tryIdle r).Inv := .ite h.setRing.seeProducer.pauseDrained.fencesDone h
theorem State.Inv.tryClose {r} (h : s.Inv) : (s.tryClose r).Inv := .ite h.closeNow h.tryIdle

theorem State.Inv.raiseNf {r} (h : s.Inv) : (s.raiseNf r).Inv := by
  unfold State.raiseNf
  split
  · split
    · exact h.setStep
    · exact h
  · exact h

theorem State.Inv.countElems {core paren nonFinite saturated} (h : s.Inv) :
    (s.countElems core paren nonFinite saturated).Inv :=
  h.ctrAdd.ctrAdd

theorem State.Inv.countFailed {r c} (h : s.Inv) : (s.countFailed r c).Inv := .ite (by
    split
    · exact h.countElems
    · exact h) (.raiseNf (by
    split
    · exact h.countElems
    · exact h))

theorem State.Inv.sendShare {r index core} (h : s.Inv) : (s.sendShare r index core).Inv :=
  .ite h.modCore.modRing h.modRing

theorem State.Inv.sendNext {core paren} (h : s.Inv) : (s.sendNext core paren).Inv := by
  unfold State.sendNext
  split
  · exact h.sendShare
  · exact h

theorem State.Inv.sendHeldShares (h : s.Inv) : s.sendHeldShares.Inv :=
  .foldl h fun _ _ h1 => .foldl h1 fun _ _ h2 => h2.sendNext.sendNext

theorem State.Inv.taint {a n} (h : s.Inv) : (s.taint a n).Inv := h.update

/-! ### Quota -/

theorem State.Inv.checkQuotas {loud} (h : s.Inv) : (s.checkQuotas loud).Inv := .foldl h fun _ _ h1 => by
    split
    · exact .ite h1 (.ite h1.setField.event h1.setField)
    · exact h1

/-! ### Repair -/

theorem State.Inv.mergeSummary {e} (h : s.Inv) : (s.mergeSummary e).Inv := h.update

theorem State.Inv.ceEvent {v row tier bank page dpa scrub} (h : s.Inv) :
    (s.ceEvent v row tier bank page dpa scrub).Inv := by
  unfold State.ceEvent
  extract_lets e j s1
  have h1 : s1.Inv := by
    unfold s1
    split
    · exact h.mergeSummary
    · exact h
  clear_value s1
  split
  · exact .ite h1.update.mergeSummary.memoryEvent h1.update
  · exact h1

theorem State.Inv.repairRow {key scrub} (h : s.Inv) : (s.repairRow key scrub).Inv := by
  unfold State.repairRow
  extract_lets d vault row s1 a s2
  have h1 : s1.Inv := .setDram h (Dram.repairRow_wf _ _ h.dram)
  have h2 : s2.Inv := h1.ctrAdd.ctrAdd.ceEvent
  exact .ite h2 h2.memoryEvent

theorem State.Inv.ceBurst {dpa} (h : s.Inv) : (s.ceBurst dpa).Inv := h.ctrAdd.ceEvent
theorem State.Inv.startRepair {key} (h : s.Inv) : (s.startRepair key).Inv := .ite h.modVault h

/-! ### Requests -/

theorem State.Inv.cacheRead {dpa allocate k} (h : s.Inv) : (s.cacheRead dpa allocate k).1.Inv := by
  unfold State.cacheRead
  extract_lets n set r s1 s2
  have h1 : s1.Inv := h.update
  have h2 : s2.Inv := by
    refine .ite h1 ?_
    split
    · exact h1.playaWrite
    · exact h1
  split
  · exact h2.ctrAdd
  · exact h

theorem State.Inv.dropCache {n} (h : s.Inv) : (s.dropCache n).Inv := h.update

theorem State.Inv.serveRead {dpa} (h : s.Inv) : (s.serveRead dpa).Inv := by
  unfold State.serveRead
  extract_lets -underBinder n l s0 c s1 s2
  have h0 : s0.Inv := by
    unfold s0
    split
    · exact h.playaSeen
    · exact .ite h.ceBurst h
  clear_value s0
  have h1 : s1.Inv := .ite h0.cacheRead h0.cacheRead.ctrAdd
  have h2 : s2.Inv := .ite h1.ctrAdd h1
  exact h2.answer

theorem State.Inv.dropSeqWrite {dpa} (h : s.Inv) : (s.dropSeqWrite dpa).Inv := h.ctrAdd.event.answer
theorem State.Inv.dropEntries {a n} (h : s.Inv) : (s.dropEntries a n).Inv := h.update

theorem State.Inv.poisonLine {a} (h : s.Inv) : (s.poisonLine a).Inv := by
  unfold State.poisonLine
  generalize ht : ({ s with dram := _ } : State) = t
  have ht : t.Inv := ht ▸ .setDram h h.dram
  dsimp only
  split
  · exact ht.playaTaint
  · exact ht

theorem State.Inv.serveWrite {dpa bs poison} (h : s.Inv) : (s.serveWrite dpa bs poison).Inv :=
  .ite (.answer (.ite h.ctrAdd h)) (.ite h.dropSeqWrite (.ite (.checkQuotas (.answer (.ctrAdd (.dropEntries (.ite
    h.taint.dpaWrite.poisonLine h.taint.dpaWrite))))) (.answer (.ctrAdd (.dropEntries (.ite
    h.taint.dpaWrite.poisonLine h.taint.dpaWrite))))))

theorem State.Inv.serveRaw {w} (h : s.Inv) : (s.serveRaw w).Inv := by
  unfold State.serveRaw
  split
  · extract_lets d p
    have hd : Memory.wf d.cells := List.foldlRecOn (motive := fun d : Dram => Memory.wf d.cells) _ _ h.dram
      fun d hd _ _ => Cells.write_wf _ _ _ hd
    clear_value d
    exact State.Inv.update (s := { s with dram := { d with poison := p } }) (.setDram h hd)
  · exact h.update
  · exact h

theorem State.Inv.serve {w} (h : s.Inv) : (s.serve w).Inv := by
  unfold State.serve
  split
  · exact h.serveRead
  · exact h.serveWrite
  · exact h.serveRaw
  · exact h.serveRaw

theorem State.Inv.wait {w} (h : s.Inv) : (s.wait w).Inv := h.modVault
theorem State.Inv.serveOne {w} (h : s.Inv) : (s.serveOne w).Inv := .ite h (.ite h.startRepair h.modVault.serve)
theorem State.Inv.serveFree {n} (h : s.Inv) : (s.serveFree n).Inv := .foldl h fun _ _ h1 => h1.serveOne
theorem State.Inv.serveAllFree (h : s.Inv) : s.serveAllFree.Inv := .foldl h fun _ _ h1 => h1.serveFree

theorem State.Inv.serveBoundary {n p counter} (h : s.Inv) : (s.serveBoundary n p counter).Inv :=
  .ctrAdd (.foldl h fun _ _ h1 => h1.serveOne)

/-! ### Fail -/

theorem State.Inv.releaseWork {r index} (h : s.Inv) : (s.releaseWork r index).Inv := h.update

theorem State.Inv.drainDeferred {n} (h : s.Inv) : (s.drainDeferred n).Inv :=
  .foldl h.modVault fun _ _ h1 => .ite h1.wait h1.serve

theorem State.Inv.drainAllDeferred (h : s.Inv) : s.drainAllDeferred.Inv := .foldl h fun _ _ h1 => h1.drainDeferred
theorem State.Inv.poisonEvent {r c f} (h : s.Inv) : (s.poisonEvent r c f).Inv := .ite h.event h
theorem State.Inv.undefineBytes {place dva n} (h : s.Inv) : (s.undefineBytes place dva n).Inv := h.writeDva.update

theorem State.Inv.undefineOutputs {c} (h : s.Inv) : (s.undefineOutputs c).Inv :=
  .ite h (.foldl h fun _ _ h1 => .ite (.ite h1.undefineBytes.undefineBytes h1.undefineBytes) h1)

theorem State.Inv.failClause {r index f} (h : s.Inv) : (s.failClause r index f).Inv := by
  unfold State.failClause
  extract_lets -underBinder ring
  split
  · exact h
  · extract_lets -underBinder sA back s0 s1 s2 cmd s3 s4 s5
    have hA : sA.Inv := .ite h.abortColl h
    clear_value sA
    have h0 : s0.Inv := .poisonEvent (.drainAllDeferred (.releaseWork (.foldl hA.countFailed fun _ _ ht =>
      ht.releaseWork)))
    clear_value s0
    have h1 : s1.Inv := .ite h0.undefineOutputs h0
    have h2 : s2.Inv := h1.writeRecord
    clear_value s2
    have h3 : s3.Inv := .ite h2.update h2
    clear_value s3
    have h4 : s4.Inv := h3.modRing
    have h5 : s5.Inv := h4.update
    exact .tryClose (.foldl h5 fun _ _ ht => ht.sendNext)

theorem State.Inv.settleClause {r index} (h : s.Inv) : (s.settleClause r index).Inv := by
  unfold State.settleClause
  split
  · exact .ite (by
    split
    · exact h.failClause
    · exact h.modRing) h
  · exact h

theorem State.Inv.dataBegun {r index} (h : s.Inv) : (s.dataBegun r index).Inv := h.modRing
theorem State.Inv.workDone {r index f} (h : s.Inv) : (s.workDone r index f).Inv := h.modRing.settleClause
theorem State.Inv.runImage {r c} (h : s.Inv) : (s.runImage r c).Inv := h.undefineOutputs.workDone

/-! ### Chain -/

theorem State.Inv.cacheChain {i} (h : s.Inv) : (s.cacheChain i).Inv := .ite h h.update

theorem ChainRun.sweep_inv {c x k} (h : x.st.Inv) : (ChainRun.sweep c x k).st.Inv := by
  unfold ChainRun.sweep
  refine List.foldlRecOn (motive := fun t : ChainRun => t.st.Inv) _ _ ?_ ?_
  · exact h.update
  · intro t ht i _
    dsimp only
    split
    · exact ht.storeTensor
    · exact ht

theorem State.Inv.runChain {r c} (h : s.Inv) : (s.runChain r c).Inv := by
  unfold State.runChain
  extract_lets last fin
  have hf : fin.st.Inv := List.foldlRecOn (motive := fun t : ChainRun => t.st.Inv) _ _ h fun _ ht _ _ =>
    ChainRun.sweep_inv ht
  exact hf.workDone

theorem execElementWiseChain_inv {ring slot host} (h : s.Inv) : (execElementWiseChain ring slot host s).Inv := by
  unfold execElementWiseChain
  split
  · exact .next (.ite h.seeHost.runImage h.seeHost.runChain)
  · exact .next h

/-! ### Buffers -/

theorem State.Inv.rbufSeen {f b n} (h : s.Inv) : (s.rbufSeen f b n).Inv := .foldl h fun _ _ h1 => h1.playaSeen

theorem State.Inv.rbufWrite {f b ws} (h : s.Inv) : (s.rbufWrite f b ws).Inv :=
  .foldl h fun _ _ h1 => .ite h1 (.foldl h1.playaWrite fun _ _ h2 => .ite h2.playaTaint h2)

theorem State.Inv.setRbuf {fid f b v} (h : s.Inv) : (s.setRbuf fid f b v).Inv := h.setField

theorem State.Inv.contribute {fid b c} (h : s.Inv) : (s.contribute fid b c).Inv := by
  unfold State.contribute
  split
  · exact h.setRbuf
  · exact h

theorem State.Inv.applyContribution {fid f b c} (h : s.Inv) : (s.applyContribution fid f b c).Inv :=
  .workDone (.setRbuf (.rbufWrite (.ite h h.rbufSeen)))

theorem execBufferContribution_inv {field buffer} (h : s.Inv) : (execBufferContribution field buffer s).Inv := by
  unfold execBufferContribution
  split
  · exact .next h
  · split
    · exact .next h
    · exact .ite (.next h.applyContribution) (.next h.setRbuf.failClause)

/-! ### Matrix -/

theorem State.Inv.matrixProduct {r c unstarted} (h : s.Inv) : (s.matrixProduct r c unstarted).Inv :=
  .ite h.modRing.contribute h.storeTensor.workDone

theorem execMatrixProduct_inv {ring slot host unstarted} (h : s.Inv) :
    (execMatrixProduct ring slot host unstarted s).Inv :=
  by
  unfold execMatrixProduct
  split
  · exact .ite (.next h) (.next (.ite h.seeHost.runImage h.seeHost.matrixProduct))
  · exact .next h

/-! ### Attention -/

theorem State.Inv.attnForward {r c} (h : s.Inv) : (s.attnForward r c).Inv :=
  .workDone (.ite h.storeTensor.storeTensor h.storeTensor)

theorem execAttentionForward_inv {ring slot host} (h : s.Inv) : (execAttentionForward ring slot host s).Inv := by
  unfold execAttentionForward
  split
  · exact .next (.ite h.seeHost.runImage h.seeHost.attnForward)
  · exact .next h

theorem State.Inv.attnBackward {r c} (h : s.Inv) : (s.attnBackward r c).Inv := h.storeTensor.workDone

theorem execAttentionBackward_inv {ring slot host} (h : s.Inv) : (execAttentionBackward ring slot host s).Inv := by
  unfold execAttentionBackward
  split
  · exact .next (.ite h.seeHost.runImage h.seeHost.attnBackward)
  · exact .next h

/-! ### Waves -/

theorem State.Inv.sendSyncUp {a} (h : s.Inv) : (s.sendSyncUp a).Inv := h.emitOn
theorem State.Inv.sendSyncDown {a} (h : s.Inv) : (s.sendSyncDown a).Inv := .foldl h fun _ _ h1 => h1.emitOn

theorem State.Inv.releaseWave0 {v mm} (h : s.Inv) : (s.releaseWave0 v mm).Inv := by
  unfold State.releaseWave0
  split <;> exact h.sendSyncDown.update

theorem State.Inv.stepDiffer {own inputs} (h : s.Inv) : (s.stepDiffer own inputs).Inv :=
  .foldl h fun _ _ h1 => h1.event

theorem State.Inv.stepWave0 (h : s.Inv) : s.stepWave0.Inv :=
  .ite h (.ite (.ite h h.stepDiffer.releaseWave0) (.ite h (.update (.sendSyncUp (.ite h.stepDiffer.tookFree
    h.stepDiffer)))))

theorem State.Inv.arriveStep {o kind v r index} (h : s.Inv) : (s.arriveStep o kind v r index).Inv := by
  unfold State.arriveStep
  split
  · exact h
  · exact .ite h.dataBegun.setStep (.ite h.dataBegun.setStep.update.stepWave0 h.dataBegun.setStep)

theorem State.Inv.endWave {o} (h : s.Inv) : (s.endWave o).Inv := by
  unfold State.endWave
  split
  · exact h
  · exact .ite h.update.setStep h.setStep

theorem State.Inv.forgetNoun {i} (h : s.Inv) : (s.forgetNoun i).Inv := h.update

theorem State.Inv.flipSet {i} (h : s.Inv) : (s.flipSet i).Inv :=
  .forgetNoun (.ite h.dpaWrite.dpaWrite.dpaWrite h.dpaWrite.dpaWrite)

theorem State.Inv.publishDue {o n} (h : s.Inv) : (s.publishDue o n).Inv := .foldl h fun _ _ h1 => by
    split
    · exact .ite h1.flipSet.setSlow h1
    · exact h1

theorem State.Inv.countStall {t0} (h : s.Inv) : (s.countStall t0).Inv := h.ctrAdd

theorem State.Inv.tryAdvance {o} (h : s.Inv) : (s.tryAdvance o).Inv := by
  unfold State.tryAdvance
  split
  · exact h
  · rename_i x _
    extract_lets n s0 s1 s2 s4 s3
    have h0 : s0.Inv := .ite (.foldl h fun t i ht => .ite ht ht.flipSet) h
    have h2 : s2.Inv := h0.publishDue.setStep
    have h4 : s4.Inv := by
      unfold s4
      split
      · exact h2.countStall
      · exact h2
    have h3 : s3.Inv := .ite h4.ctrAdd h4
    clear_value s3
    refine .ite h (.ite (.ite h h.setStep) ?_)
    split
    · exact h3.workDone
    · exact h3

theorem State.Inv.settleStaged {o n commit} (h : s.Inv) : (s.settleStaged o n commit).Inv :=
  .foldl h fun _ _ h1 => .ite h1.setSlow h1

theorem State.Inv.mismatchEvent {o x mm} (h : s.Inv) : (s.mismatchEvent o x mm).Inv := .ite h.event h

theorem State.Inv.releaseOutcome {o x bad mm} (h : s.Inv) : (s.releaseOutcome o x bad mm).Inv :=
  .ite h.mismatchEvent.setStep.tryAdvance (.ite (by
    split
    · exact h.mismatchEvent.settleStaged.ctrAdd.setStep.workDone
    · exact h.mismatchEvent.settleStaged.ctrAdd.setStep) h.mismatchEvent.settleStaged.setStep.tryAdvance)

theorem State.Inv.decideOutcome {o x v mm} (h : s.Inv) : (s.decideOutcome o x v mm).Inv := by
  unfold State.decideOutcome
  split
  · exact .workDone (.ite h.setStep.event h.setStep)
  · exact .ite h.setStep.event h.setStep

theorem execWaveRelease_inv {owner} (h : s.Inv) : (execWaveRelease owner s).Inv := by
  unfold execWaveRelease
  split
  · exact h
  · split
    · extract_lets s1
      have h1 : s1.Inv := h.endWave
      clear_value s1
      split
      · exact h1
      · extract_lets t
        have ht : t.Inv := .ite h1.decideOutcome h1.releaseOutcome
        exact .next (.ite ht.stepWave0 ht)
    · exact h

theorem execWaveTimeout_inv {ring slot} (h : s.Inv) : (execWaveTimeout ring slot s).Inv := by
  unfold execWaveTimeout
  split
  · split
    · exact .ite (.next h.setStep.failClause) (.next h)
    · exact .next h
  · exact .next h

theorem State.Inv.syncUp0 {p f} (h : s.Inv) : (s.syncUp0 p f).Inv :=
  .ite h.inboxTake.update.stepWave0 (.ite h h.inboxTake)

theorem State.Inv.syncDown0 {p f} (h : s.Inv) : (s.syncDown0 p f).Inv :=
  .ite (.ite h.inboxTake.releaseWave0.stepWave0 h.inboxTake.releaseWave0) h.inboxTake

/-! ### Collect -/

theorem State.Inv.emptyRbuf {fid b n} (h : s.Inv) : (s.emptyRbuf fid b n).Inv := by
  unfold State.emptyRbuf
  split
  · exact h.rbufSeen.setRbuf
  · exact h

theorem State.Inv.reduceHere {r c} (h : s.Inv) : (s.reduceHere r c).Inv :=
  .workDone (.ite h.storeTensor.emptyRbuf h.storeTensor)

theorem execReduce_inv {ring slot host} (h : s.Inv) : (execReduce ring slot host s).Inv := by
  unfold execReduce
  split
  · exact .next h.seeHost.reduceHere
  · exact .next h

theorem State.Inv.decideArrive {r c n2} (h : s.Inv) : (s.decideArrive r c n2).Inv := by
  unfold State.decideArrive
  split
  · exact h
  · split
    · exact h
    · extract_lets -underBinder norm bad s1 word mine
      have h1 : s1.Inv := by
        unfold s1
        clear_value norm
        split
        · exact h.storeTensor
        · exact h
      exact .ite h1.arriveStep h1.setStep.arriveStep

theorem State.Inv.sendBlock {c kind block rank bs dsts} (h : s.Inv) : (s.sendBlock c kind block rank bs dsts).Inv :=
  .foldl h fun _ _ h1 => .foldl h1 fun _ _ h2 => h2.emit

theorem State.Inv.settleColl {c} (h : s.Inv) : (s.settleColl c).Inv := .ite (.dropColl (.ite (by
    split
    · exact .ite h (.workDone (.ite h.tellGroup h))
    · exact h) h)) (.ite (by
    split
    · exact .ite h (.workDone (.ite h.tellGroup h))
    · exact h) h)

theorem State.Inv.deliverBlock {c b bs} (h : s.Inv) : (s.deliverBlock c b bs).Inv := by
  unfold State.deliverBlock
  extract_lets -underBinder es c1 s1 s2
  have h1 : s1.Inv := h.setColl
  have h2 : s2.Inv := by
    refine .ite ?_ h1
    split
    · exact .ite (.ite h1.failClause h1.decideArrive) h1.storeTensor.modRing
    · exact h1
  clear_value s2
  split
  · exact h2.settleColl
  · exact h2

theorem State.Inv.resultBlock {c b y} (h : s.Inv) : (s.resultBlock c b y).Inv := h.sendBlock.modRing.deliverBlock
theorem State.Inv.freeLeft (h : s.Inv) : s.freeLeft.Inv := h.update
theorem State.Inv.dropDone (h : s.Inv) : s.dropDone.Inv := h.update

theorem State.Inv.takeSlots {n r index} {s : State} (h : s.Inv) : (State.takeSlots n r index s).Inv := by
  induction n generalizing s with
  | zero => exact h
  | succ n ih =>
    unfold State.takeSlots
    split
    · exact h
    · exact .ite (ih (.foldl h.setColl fun _ _ ht => ht.sendCtrl)) h

theorem State.Inv.outputBlock {s t : State} {c} (h : s.Inv) (ht : s.outputBlock c = some t) : t.Inv := by
  unfold State.outputBlock at ht
  dsimp only at ht
  split at ht
  · cases ht
  · cases ht
    exact State.Inv.freeLeft (.ite h.setColl.ctrAdd.resultBlock h.setColl.ctrAdd.sendBlock)

theorem State.Inv.advanceColl {n r index} {s : State} (h : s.Inv) : (State.advanceColl n r index s).Inv := by
  induction n generalizing s with
  | zero => exact h
  | succ n ih =>
    unfold State.advanceColl
    extract_lets s1
    have h1 : s1.Inv := h.takeSlots
    clear_value s1
    split
    · exact h1
    · split
      · exact ih (h1.outputBlock ‹_›)
      · exact h1

theorem State.Inv.advanceColls (h : s.Inv) : s.advanceColls.Inv := by
  unfold State.advanceColls
  exact .foldl h.freeLeft.dropDone fun _ _ ht => ht.advanceColl

theorem State.Inv.sendPiece {c off bytes flits dsts} (h : s.Inv) : (s.sendPiece c off bytes flits dsts).Inv :=
  .foldl h fun _ _ h1 => h1.emit

theorem State.Inv.settleGather {c} (h : s.Inv) : (s.settleGather c).Inv := .ite (by
    split
    · exact h.storeTensor.dropColl.workDone
    · exact h.dropColl) h

theorem State.Inv.bulkArrive {c f} (h : s.Inv) : (s.bulkArrive c f).Inv := .ite h h.setColl.sendPiece.settleGather

theorem State.Inv.failColl {c type f except} (h : s.Inv) : (s.failColl c type f except).Inv := by
  unfold State.failColl
  split
  · exact h.tellGroup.dropColl.failClause
  · exact h.tellGroup.dropColl

theorem State.Inv.ctrlArrive {c f} (h : s.Inv) : (s.ctrlArrive c f).Inv := by
  unfold State.ctrlArrive
  exact .ite h.failColl (.ite h.failColl (.ite h.setColl.advanceColl h))

theorem State.Inv.takeFrame {e} (h : s.Inv) : (s.takeFrame e).Inv := .ite (by
    split
    · exact h.inboxTake.ctrlArrive
    · exact h) (.ite (by
    split
    · exact h.inboxTake.bulkArrive
    · exact h) h)

theorem State.Inv.drainInbox (h : s.Inv) : s.drainInbox.Inv := .foldl h fun _ _ h1 => h1.takeFrame

theorem State.Inv.startColl {r c verb group elems fmt words seed} (h : s.Inv) :
    (s.startColl r c verb group elems fmt words seed).Inv := by
  unfold State.startColl
  extract_lets -underBinder inst k kept lnk s1 s2 lnk' m es bytes d ps qs s3
  have h1 : s1.Inv := h.update
  have h2 : s2.Inv := .dataBegun (.foldl h1 fun _ _ ht => ht.sendCtrl)
  clear_value s1 s2
  have h3 : s3.Inv := .ite (.foldl h2 fun _ _ ht => ht.sendPiece) h2
  exact .ite h1.update.failColl (.ite h3.settleGather.drainInbox h2.advanceColl.drainInbox)

theorem State.Inv.reduceGroup {r c} (h : s.Inv) : (s.reduceGroup r c).Inv :=
  .ite h.reduceHere (.startColl (.ite h.emptyRbuf h))

theorem State.Inv.gatherGroup {r c} (h : s.Inv) : (s.gatherGroup r c).Inv := .ite h.storeTensor.workDone h.startColl
theorem State.Inv.reduceOrFail {r c} (h : s.Inv) : (s.reduceOrFail r c).Inv := .ite h.failClause h.reduceGroup

theorem execAllReduce_inv {ring slot host} (h : s.Inv) : (execAllReduce ring slot host s).Inv := by
  unfold execAllReduce
  split
  · exact .next h.seeHost.reduceOrFail
  · exact .next h

theorem execReduceScatter_inv {ring slot host} (h : s.Inv) : (execReduceScatter ring slot host s).Inv := by
  unfold execReduceScatter
  split
  · exact .next h.seeHost.reduceOrFail
  · exact .next h

theorem execAllGather_inv {ring slot host} (h : s.Inv) : (execAllGather ring slot host s).Inv := by
  unfold execAllGather
  split
  · exact .next h.seeHost.gatherGroup
  · exact .next h

theorem execBroadcast_inv {ring slot host} (h : s.Inv) : (execBroadcast ring slot host s).Inv := by
  unfold execBroadcast
  split
  · exact .next h.seeHost.gatherGroup
  · exact .next h

theorem execRedUp_inv {port} (h : s.Inv) : (execRedUp port s).Inv := by
  unfold execRedUp
  split
  · exact h
  · rename_i f _
    extract_lets s1
    have h1 : s1.Inv := h.inboxTake
    clear_value s1
    split
    · exact .next h1.ctrAdd
    · exact .ite (.next h1.ctrAdd.event) (.ite (.next h1.ctrAdd) (.next h1.setColl.advanceColl.advanceColls))

theorem execRedDown_inv {port} (h : s.Inv) : (execRedDown port s).Inv := by
  unfold execRedDown
  split
  · exact h
  · rename_i f _
    extract_lets s1
    have h1 : s1.Inv := h.inboxTake
    clear_value s1
    split
    · exact .next h1.ctrAdd
    · dsimp only
      refine .ite (.next h1.ctrAdd) ?_
      split
      · exact .next (.setColl (.foldl h1 fun _ _ ht => ht.emit))
      · exact .next (.deliverBlock (.setColl (.foldl h1 fun _ _ ht => ht.emit)))

theorem State.Inv.noteAbort {group inst} (h : s.Inv) : (s.noteAbort group inst).Inv := .ite h.update h

theorem execCollectiveAbort_inv {port} (h : s.Inv) : (execCollectiveAbort port s).Inv := by
  unfold execCollectiveAbort
  split
  · exact h
  · extract_lets s1
    have h1 : s1.Inv := h.inboxTake
    clear_value s1
    split
    · exact .next h1.failColl
    · exact .next h1.noteAbort

theorem execReduceTimeout_inv {ring slot atPort} (h : s.Inv) : (execReduceTimeout ring slot atPort s).Inv := by
  unfold execReduceTimeout
  split
  · exact .next h
  · exact .ite (.next h) (by
    split
    · exact .next h.failColl
    · exact .ite (.next h.failClause) (.next h))

/-! ### Copy -/

theorem execCopy_inv {ring slot host} (h : s.Inv) : (execCopy ring slot host s).Inv := by
  unfold execCopy
  split
  · exact .ite (.next h.seeHost.runImage) (.next h.seeHost.storeTensor.workDone)
  · exact .next h

/-! ### Fields -/

theorem State.Inv.revertCores {cores paren} (h : s.Inv) : (s.revertCores cores paren).Inv :=
  .foldl h fun _ _ h1 => h1.modCore

theorem State.Inv.gateUncovered {cores} (h : s.Inv) : (s.gateUncovered cores).Inv :=
  .foldl h fun _ _ h1 => .ite h1 (.ite h1.modDom.modCore h1.modDom.modCore.modDom)

theorem State.Inv.pruneSteps (h : s.Inv) : s.pruneSteps.Inv := h.update
theorem State.Inv.freeSync {base count} (h : s.Inv) : (s.freeSync base count).Inv := h.update

theorem State.Inv.configureField {fid d} (h : s.Inv) : (s.configureField fid d).Inv := by
  unfold State.configureField
  extract_lets -underBinder new s1 s2 s3 s4
  have h1 : s1.Inv := by
    unfold s1
    split
    · exact h.revertCores.freeSync
    · exact h
  clear_value s1
  have h2 : s2.Inv := h1.setField.freeSync
  have h3 : s3.Inv := .ite h2.setStep h2
  exact .foldl h3.pruneSteps.checkQuotas.gateUncovered fun _ _ ht => .ite ht ht.openRing

theorem execConfigure_inv {ring slot host} (h : s.Inv) : (execConfigure ring slot host s).Inv := by
  unfold execConfigure
  split
  · exact .ite (.next h) (.ite (.next h) (by
    split
    · exact .next h.seeHost.failClause
    · exact .next h.seeHost.configureField.workDone))
  · exact .next h

theorem State.Inv.dissolveField {fid} (h : s.Inv) : (s.dissolveField fid).Inv := by
  unfold State.dissolveField
  split
  · exact h
  · exact h.revertCores.freeSync.update.pruneSteps.gateUncovered

theorem execDissolve_inv {ring slot} (h : s.Inv) : (execDissolve ring slot s).Inv := by
  unfold execDissolve
  split
  · exact .ite (.next h) (by
    split
    · exact .next h.failClause
    · exact .next h.dissolveField.workDone)
  · exact .next h

/-! ### Kernel -/

theorem State.Inv.writeHalves {cores paren img} (h : s.Inv) : (s.writeHalves cores paren img).Inv :=
  .foldl h fun _ _ h1 => h1.modCore

theorem execLoadKernel_inv {ring slot host} (h : s.Inv) : (execLoadKernel ring slot host s).Inv := by
  unfold execLoadKernel
  split
  · refine .ite h ?_
    extract_lets t
    have ht : t.Inv := h.seeHost
    clear_value t
    split
    · exact .next ht.failClause
    · refine .ite (.next ht.failClause) ?_
      split
      · exact .next ht.failClause
      · exact .next ht.writeHalves.workDone
  · exact h

theorem State.Inv.storeLost (h : s.Inv) : s.storeLost.Inv := h.update

theorem execLoadKernelStandard_inv {ring read} (h : s.Inv) : (execLoadKernelStandard ring read s).Inv := by
  unfold execLoadKernelStandard
  split
  · exact .ite (.next h) (by
    split
    · exact .next h.failClause
    · split
      · exact .next h.failClause
      · exact .ite (.next h.storeLost) (.ite (.next h.writeHalves.workDone) (.next h)))
  · exact .next h

/-! ### NearBank -/

theorem State.Inv.startNearBank {r c} (h : s.Inv) : (s.startNearBank r c).Inv :=
  .ite h.failClause (.workDone (.foldl h fun _ _ h1 => h1.modVault))

theorem execNearBankMatrixVector_inv {ring slot host} (h : s.Inv) : (execNearBankMatrixVector ring slot host s).Inv :=
  by
  unfold execNearBankMatrixVector
  split
  · exact .next (.ite h.seeHost.startNearBank h)
  · exact .next h

theorem State.Inv.writeBank {dva bs poison} (h : s.Inv) : (s.writeBank dva bs poison).Inv := .foldl h fun _ _ h1 => by
    split
    · exact h1.bankFlit.perturbWrite.closeEntries
    · exact h1

theorem State.Inv.fallbackItem {w q fmtX b p} (h : s.Inv) : (s.fallbackItem w q fmtX b p).1.Inv := h.writeDva

theorem State.Inv.writeHeads {w q j b} (h : s.Inv) : (s.writeHeads w q j b).Inv :=
  .foldl h fun _ _ h1 => .foldl h1 fun _ _ h2 => h2.writeDva

theorem State.Inv.grantTokens {n} (h : s.Inv) : (s.grantTokens n).Inv :=
  .foldl h fun _ _ h1 => .ite h1.setEngine.modVault h1

theorem State.Inv.toMerge {n} (h : s.Inv) : (s.toMerge n).Inv := by
  unfold State.toMerge
  split
  · exact .ite h.modVault h
  · exact h

theorem State.Inv.beginSteps {n j} (h : s.Inv) : (s.beginSteps n j).Inv := by
  unfold State.beginSteps
  exact h.modVault.grantTokens.ctrAdd.toMerge

theorem State.Inv.noteVerdict {r index slot} (h : s.Inv) : (s.noteVerdict r index slot).Inv := h.modRing

theorem State.Inv.stageMv {n j c b} (h : s.Inv) : (s.stageMv n j c b).Inv :=
  .foldl h.writeHeads fun _ _ h1 => .ite h1.fallbackItem.noteVerdict.ctrAdd h1.setEngine

theorem State.Inv.stepMv {n p j c b} (h : s.Inv) : (s.stepMv n p j c b).Inv :=
  .ite h.setEngine.noteVerdict.ctrAdd h.writeBank.setEngine.ctrAdd

theorem State.Inv.dropCacheRow {n l} (h : s.Inv) : (s.dropCacheRow n l).Inv := h.update

theorem State.Inv.writeOutputs {r c outs} (h : s.Inv) : (s.writeOutputs r c outs).Inv := by
  unfold State.writeOutputs
  exact h.storeTensor.modRing

theorem State.Inv.mergeBatch {n j c b} (h : s.Inv) : (s.mergeBatch n j c b).Inv :=
  .noteVerdict (.writeOutputs (.foldl h fun _ _ h1 => h1.dropCacheRow))

theorem State.Inv.leaveVault {n j} (h : s.Inv) : (s.leaveVault n j).Inv := by
  unfold State.leaveVault
  exact h.modVault.modRing

/-! ### KeyValue -/

theorem State.Inv.setDirWord {dva v} (h : s.Inv) : (s.setDirWord dva v).Inv := h.writeDva
theorem State.Inv.putSeq {i length state} (h : s.Inv) : (s.putSeq i length state).Inv := h.dpaWrite
theorem State.Inv.touchSeq {pinned i} (h : s.Inv) : (s.touchSeq pinned i).Inv := .ite h.update.ctrAdd h.update.ctrAdd

theorem State.Inv.markPage {k free} (h : s.Inv) : (s.markPage k free).Inv := by
  generalize hf : State.markPage = f
  delta State.markPage at hf
  subst hf
  beta_reduce
  extract_lets -underBinder fs col pos dva
  split
  · exact h.writeDva
  · exact h

theorem State.Inv.writePositions {e p tnew at_} (h : s.Inv) : (s.writePositions e p tnew at_).Inv :=
  .foldl h fun _ _ h1 => .foldl h1 fun _ _ h2 => .foldl h2 fun _ _ h3 => h3.writeDva

theorem State.Inv.kvAppend {r c} (h : s.Inv) : (s.kvAppend r c).Inv := by
  unfold State.kvAppend
  extract_lets -underBinder new words tnew layer
  split
  · exact h.failClause
  · split
    · exact h.failClause
    · split
      · exact h.failClause
      · extract_lets -underBinder pins s1 vals kh bb s2
        have h1 : s1.Inv := .foldl h fun _ _ ht => ht.touchSeq
        have h2 : s2.Inv := .foldl h1 fun _ _ ht => ht.writePositions
        clear_value s2
        exact .workDone h2.update

theorem execKeyValueAppend_inv {ring slot host} (h : s.Inv) : (execKeyValueAppend ring slot host s).Inv := by
  unfold execKeyValueAppend
  split
  · exact .ite (.next h) (.next h.seeHost.kvAppend)
  · exact .next h

theorem State.Inv.commitAppend {a} (h : s.Inv) : (s.commitAppend a).Inv :=
  .update (.putSeq (.setDirWord (.foldl h fun _ _ h1 => h1.markPage.setDirWord.ctrAdd)))

theorem State.Inv.commitAppends {r index} (h : s.Inv) : (s.commitAppends r index).Inv :=
  .ite h (.checkQuotas (.update (.foldl h fun _ _ h1 => h1.commitAppend)))

theorem State.Inv.freePage {k} (h : s.Inv) : (s.freePage k).Inv := h.markPage.ctrAdd.update
theorem State.Inv.evictPage {r index k} (h : s.Inv) : (s.evictPage r index k).Inv := .ite h.freePage h.update.ctrAdd
theorem State.Inv.settleEvict {r index} (h : s.Inv) : (s.settleEvict r index).Inv := .ite h h.workDone

theorem State.Inv.kvClose {r c} (h : s.Inv) : (s.kvClose r c).Inv := by
  unfold State.kvClose
  dsimp only
  split
  · exact h.failClause
  · exact .settleEvict (.checkQuotas (.foldl h fun _ _ h1 => .putSeq (.foldl h1.touchSeq fun _ _ h2 => h2.evictPage)))

theorem State.Inv.kvTruncate {r c} (h : s.Inv) : (s.kvTruncate r c).Inv := by
  unfold State.kvTruncate
  dsimp only
  split
  · exact h.failClause
  · exact .settleEvict (.checkQuotas (.update (.foldl h fun _ _ h1 => .putSeq (.foldl (.foldl h1.touchSeq fun _ _ h2
      => h2.evictPage.setDirWord) fun _ _ h2 => h2.setDirWord))))

theorem execKvEvictClose_inv {ring slot host} (h : s.Inv) : (execKvEvictClose ring slot host s).Inv := by
  unfold execKvEvictClose
  split
  · exact .next h.seeHost.kvClose
  · exact .next h

theorem execKvEvictTruncate_inv {ring slot host} (h : s.Inv) : (execKvEvictTruncate ring slot host s).Inv := by
  unfold execKvEvictTruncate
  split
  · exact .next h.seeHost.kvTruncate
  · exact .next h

theorem execDeferredPageFree_inv {page} (h : s.Inv) : (execDeferredPageFree page s).Inv := by
  unfold execDeferredPageFree
  split
  · exact .next h
  · exact .ite (.next h) (.next h.update.freePage.checkQuotas.settleEvict)

theorem State.Inv.startKv {r c} (h : s.Inv) : (s.startKv r c).Inv :=
  .ite h.modRing.update (.ite h.modRing.update h.modRing)

theorem State.Inv.finishDecode {r c d0} (h : s.Inv) : (s.finishDecode r c d0).Inv := by
  unfold State.finishDecode
  exact .modRing (.ctrAdd (.update (.ite h.storeTensor.storeTensor h.storeTensor)))

theorem State.Inv.queueDecode {r c d cols} (h : s.Inv) : (s.queueDecode r c d cols).Inv :=
  .foldl h fun _ _ h1 => h1.modVault

theorem State.Inv.decodeAttention {r c} (h : s.Inv) : (s.decodeAttention r c).Inv := by
  unfold State.decodeAttention
  dsimp only
  split
  · exact h.failClause
  · exact .ite (.workDone (.finishDecode (.foldl h fun _ _ h1 => h1.touchSeq))) (.workDone (.queueDecode (.update
      (.foldl h fun _ _ h1 => h1.touchSeq))))

theorem execDecodeAttention_inv {ring slot host} (h : s.Inv) : (execDecodeAttention ring slot host s).Inv := by
  unfold execDecodeAttention
  split
  · exact .next (.ite h.seeHost.decodeAttention h)
  · exact .next h

/-! ### Update -/

theorem State.Inv.holdNf {o x} (h : s.Inv) : (s.holdNf o x).Inv := .ite h h.setStep

theorem State.Inv.decideClause {r c} (h : s.Inv) : (s.decideClause r c).Inv := by
  unfold State.decideClause
  split
  · exact h.failClause
  · exact .ite (.ite h.holdNf.failClause (.ite h.holdNf.decideArrive h.holdNf.startColl)) h.decideArrive

theorem execDecide_inv {ring slot host} (h : s.Inv) : (execDecide ring slot host s).Inv := by
  unfold execDecide
  split
  · exact .ite (.next h) (.next h.seeHost.decideClause)
  · exact .next h

theorem execRelease_inv {ring slot} (h : s.Inv) : (execRelease ring slot s).Inv := by
  unfold execRelease
  split
  · exact .ite (.next h) (by
    split
    · exact .next h.failClause
    · exact .next h.arriveStep)
  · exact .next h

theorem State.Inv.storeWords {dva v} (h : s.Inv) : (s.storeWords dva v).Inv := .ite h h.storeTensor

theorem State.Inv.writeSet {i p t stateBank workBank x} (h : s.Inv) : (s.writeSet i p t stateBank workBank x).Inv :=
  .ite h.storeWords.storeWords.storeWords.storeTensor.dpaWrite.ctrAdd.ctrAdd
    h.storeWords.storeWords.storeWords.storeTensor.dpaWrite.ctrAdd.ctrAdd.event

theorem State.Inv.applySet {r c o x} (h : s.Inv) : (s.applySet r c o x).Inv :=
  .ite (.workDone (.setStep (.setSlow (.storeWords (.ite h.emptyRbuf h))))) (.workDone (.setStep (.writeSet (.ite
    h.emptyRbuf h))))

theorem State.Inv.stageStall {i r index} (h : s.Inv) : (s.stageStall i r index).Inv := .ite h h.setSlow

theorem State.Inv.stageGo {i r index} (h : s.Inv) : (s.stageGo i r index).Inv := by
  unfold State.stageGo
  split
  · exact h
  · exact .ite h.setSlow.countStall h.setSlow

theorem execApply_inv {ring slot host} (h : s.Inv) : (execApply ring slot host s).Inv := by
  unfold execApply
  split
  · exact .next h
  · split
    · exact .next h.failClause
    · exact .ite (.next h.workDone) (.ite (.next h.failClause) (.ite (.next h.failClause) (.ite (.next h.stageStall)
        (.ite (.next h) (.next h.stageGo.seeHost.applySet)))))

theorem execSlowApplication_inv {pset host} (h : s.Inv) : (execSlowApplication pset host s).Inv := by
  unfold execSlowApplication
  extract_lets -underBinder x
  split
  · exact h
  · extract_lets -underBinder q s0 p g old new s1 s2 s3
    have h3 : s3.Inv := h.seeHost.writeSet.dpaWrite.setSlow
    clear_value s3
    refine .ite h ?_
    split
    · exact .next h3.tryAdvance
    · exact h3

theorem State.Inv.digestClause {r c} (h : s.Inv) : (s.digestClause r c).Inv :=
  .ite h.workDone h.storeTensor.ctrAdd.workDone

theorem execDigest_inv {ring slot host} (h : s.Inv) : (execDigest ring slot host s).Inv := by
  unfold execDigest
  split
  · exact .next h.seeHost.digestClause
  · exact .next h

theorem State.Inv.auditClause {r c} (h : s.Inv) : (s.auditClause r c).Inv :=
  .ite h.workDone (.ite h.workDone (.ite h.workDone (.ite h.ctrAdd.workDone
    h.ctrAdd.storeTensor.ctrAdd.event.workDone)))

theorem execAudit_inv {ring slot host} (h : s.Inv) : (execAudit ring slot host s).Inv := by
  unfold execAudit
  split
  · exact .next h
  · split
    · exact .next h.failClause
    · exact .next h.seeHost.auditClause

/-! ### Issue -/

theorem State.Inv.keepEntries {c} (h : s.Inv) : (s.keepEntries c).Inv :=
  .ite (.cacheChain (.foldl h fun _ _ h1 => .ite h1 h1.cacheNoun)) (.foldl h fun _ _ h1 => .ite h1 h1.cacheNoun)

theorem State.Inv.issueHead {r} (h : s.Inv) : (s.issueHead r).Inv := by
  unfold State.issueHead
  dsimp only
  split
  · exact h
  · split
    · exact h.failClause
    · exact .keepEntries (.update h.setRing)

theorem State.Inv.issueField {f n} {s : State} (h : s.Inv) : (State.issueField f n s).Inv := by
  induction n generalizing s with
  | zero => exact h
  | succ n ih =>
    unfold State.issueField
    split
    · exact h
    · rename_i r _
      have h1 : (s.issueHead r).Inv := h.issueHead
      refine ih ?_
      split
      · exact h1.update
      · exact h1

theorem State.Inv.noteWait {r} (h : s.Inv) : (s.noteWait r).Inv := by
  unfold State.noteWait
  dsimp only
  split
  · exact .ite (.ite h.setRing h) (.ite h.setRing h)
  · exact .ite h.setRing h

theorem State.Inv.issueAll (h : s.Inv) : s.issueAll.Inv := by
  unfold State.issueAll
  exact .foldl (.foldl h.issueField fun _ _ ht => ht.issueField) fun _ _ ht => ht.noteWait

/-! ### Depend -/

theorem State.Inv.undefineElems {n hit} (h : s.Inv) : (s.undefineElems n hit).Inv := h.storeTensor.update

theorem State.Inv.undefineDependent {r c} (h : s.Inv) : (s.undefineDependent r c).Inv :=
  .ite h (.foldl h fun _ _ h1 => .ite h1.undefineElems h1)

/-! ### Front -/

theorem State.Inv.readLine {line rd} (h : s.Inv) : (s.readLine line rd).Inv := by
  unfold State.readLine
  extract_lets -underBinder upd old cmd c s1
  have h1 : s1.Inv := .setCmd h ((List.length_map _).trans_le h.watch)
  clear_value s1
  split
  · exact .ite (.foldl h1.ctrAdd fun _ _ ht => .ite ht ht.stopUnfetched) h1.ctrAdd
  · exact .foldl h1.hostWrite fun _ _ ht => ht.seeProducer

theorem execSnoopInvalidate_inv {line reread} (h : s.Inv) : (execSnoopInvalidate line reread s).Inv := by
  have h1 : State.Inv { s with cmd := { s.cmd with
      watch := s.cmd.watch.map (fun w => if w.line = line then { w with shared := false } else w) } } :=
    .setCmd h ((List.length_map _).trans_le h.watch)
  unfold execSnoopInvalidate
  refine .ite ?_ h
  split
  · exact .next h1.readLine
  · exact .next h1

theorem execDoorbellReread_inv {line read} (h : s.Inv) : (execDoorbellReread line read s).Inv :=
  .ite (.next h.readLine) (.next h)

theorem execPollTimer_inv (h : s.Inv) : (execPollTimer s).Inv := .next h.update

theorem execFetchComplete_inv {ring clauses} (h : s.Inv) : (execFetchComplete ring clauses s).Inv :=
  .ite h (.next h.setRing.writeFetchWb.issueAll)

theorem execClauseStart_inv {ring start} (h : s.Inv) : (execClauseStart ring start s).Inv := by
  unfold execClauseStart
  split
  · extract_lets -underBinder u
    have hu : u.Inv := .ite h.seeHost h
    clear_value u
    refine .ite ?_ hu
    split
    · exact .next hu.failClause.issueAll
    · extract_lets -underBinder s0 all cores s1 s2
      have h0 : s0.Inv := .ite hu.startKv hu
      have h1 : s1.Inv := .ite h0.ctrAdd h0
      exact .next (.foldl h1.modRing fun _ _ ht => ht.sendShare)
  · exact h

theorem State.Inv.useVectors {core paren} (h : s.Inv) : (s.useVectors core paren).Inv := h.modCore.update

theorem State.Inv.countShare {core paren final c act nonFinite saturated} (h : s.Inv) :
    (s.countShare core paren final c act nonFinite saturated).Inv :=
  .useVectors (.countElems (.ctrAdd (.ctrAdd (.ctrAdd (.foldl h.modCore fun _ _ h1 =>
    h1.ctrAdd.ctrAdd.ctrAdd.ctrAdd)))))

theorem State.Inv.strikeImem {core paren storeBad} (h : s.Inv) : (s.strikeImem core paren storeBad).Inv := by
  unfold State.strikeImem
  dsimp only
  split
  · exact h
  · exact .ite h (.issueAll (.failClause (.event (.modCore (.ite h.storeLost h)))))

theorem State.Inv.finishShare {ring core c act} (h : s.Inv) : (s.finishShare ring core c act).Inv :=
  .settleClause (.sendNext (.modCore (.modRing (.ite h.countShare h.countShare.raiseNf))))

theorem execShareFinish_inv {ring slot core act} (h : s.Inv) : (execShareFinish ring slot core act s).Inv := by
  unfold execShareFinish
  extract_lets x
  split
  · refine .ite ?_ h
    split
    · exact .next h.finishShare
    · exact .ite (.next h.useSlot.finishShare)
        (.ite (.next h.useSlot.ctrAdd.finishShare) (.next h.useSlot.strikeImem))
  · exact h

theorem State.Inv.applySignals {c} (h : s.Inv) : (s.applySignals c).Inv := .foldl h fun _ _ h1 => .ite h1.update h1

theorem State.Inv.completeClause {r c} (h : s.Inv) : (s.completeClause r c).Inv :=
  .issueAll (.tryClose (.modRing (.ite
    h.undefineDependent.commitAppends.releaseWork.drainAllDeferred.serveAllFree.applySignals
    h.undefineDependent.commitAppends.releaseWork.drainAllDeferred.serveAllFree.applySignals.writeRecord)))

theorem execClauseComplete_inv {ring slot} (h : s.Inv) : (execClauseComplete ring slot s).Inv := by
  unfold execClauseComplete
  dsimp only
  split
  · exact .ite (.next h.completeClause) (.next h)
  · exact .next h

theorem execMsixHoldoffExpiry_inv {vector} (h : s.Inv) : (execMsixHoldoffExpiry vector s).Inv := by
  unfold execMsixHoldoffExpiry
  split
  · exact .next (.ite h.update.raiseMsix h.update)
  · exact .next h

theorem State.Inv.failWait {r} (h : s.Inv) : (s.failWait r).Inv := by
  unfold State.failWait
  split
  · exact h.failClause
  · exact h

theorem execWaitTimeout_inv {ring} (h : s.Inv) : (execWaitTimeout ring s).Inv := .ite (.next h.failWait) (.next h)

theorem execWaitTimeoutWrite_inv {value} (h : s.Inv) : (execWaitTimeoutWrite value s).Inv :=
  .next (.foldl h.update fun _ _ h1 => by
    dsimp only
    split
    · exact .ite h1.failWait h1
    · exact h1)

theorem execFence_inv {ring slot} (h : s.Inv) : (execFence ring slot s).Inv := by
  unfold execFence
  split
  · exact .next h.workDone
  · exact .next h

theorem execFenceSet_inv {ring slot} (h : s.Inv) : (execFenceSet ring slot s).Inv := by
  unfold execFenceSet
  split
  · exact .next h.update.workDone.issueAll
  · exact .next h

theorem State.Inv.controlFence {slot fn ok act} (h : s.Inv) (ha : ∀ t, (act t s).Inv) :
    (s.controlFence slot fn ok act).Inv := by
  unfold State.controlFence
  split
  · exact h
  · exact .ite (.next (ha _).workDone.issueAll) (.next h.failClause)

theorem State.Inv.restart {t f} (h : s.Inv) (hf : ∀ u : State, u.Inv → (f u).Inv) : (s.restart t f).Inv := by
  unfold State.restart
  extract_lets x s1
  have h1 : s1.Inv := hf _ (.ite h.setRing h)
  exact .ite h1.modRing.pauseDrained h1.stopUnfetched

theorem execResume_inv {slot} (h : s.Inv) : (execResume slot s).Inv :=
  h.controlFence fun _ => h.restart fun _ hu => hu

theorem State.Inv.skipSlot {t} (h : s.Inv) : (s.skipSlot t).Inv := .ite (.ite h.setRing.writeFetchWb h) h.setRing

theorem execSkip_inv {slot} (h : s.Inv) : (execSkip slot s).Inv :=
  h.controlFence fun _ => h.restart fun _ hu => hu.skipSlot

theorem State.Inv.flushRing {t} (h : s.Inv) : (s.flushRing t).Inv := h.flushPosted.modRing.tryIdle

theorem execFlush_inv {slot host} (h : s.Inv) : (execFlush slot host s).Inv := by
  unfold execFlush
  dsimp only
  split
  · exact .next h
  · exact .ite (.next h.seeHost.modRing.flushRing.issueAll) (.next h.seeHost.failClause.issueAll)

theorem State.Inv.beginClose {t} (h : s.Inv) : (s.beginClose t).Inv := .tryClose (.modRing (.ite h.flushPosted h))

theorem execClose_inv {slot host} (h : s.Inv) : (execClose slot host s).Inv := by
  unfold execClose
  dsimp only
  split
  · exact .next h
  · exact .ite (.next h.seeHost.modRing.beginClose) (.next h.seeHost.failClause)

theorem execAdminEnable_inv {host} (h : s.Inv) : (execAdminEnable host s).Inv :=
  .ite (.next h.seeHost) (.ite (.next h.seeHost.update) (.next h.seeHost.update.openAdmin))

theorem State.Inv.readProducer {r} (h : s.Inv) : (s.readProducer r).Inv := .ite h.setRing h.setRing

theorem execAdminDisable_inv {host} (h : s.Inv) : (execAdminDisable host s).Inv :=
  .ite (.next h.seeHost.update.readProducer.beginClose) (.next h.seeHost.update)

/-! ### Pause -/

theorem State.Inv.pauseFields {fids} (h : s.Inv) : (s.pauseFields fids).Inv :=
  .foldl h fun _ _ h1 => .ite h1.modRing h1

theorem State.Inv.resumeRings (h : s.Inv) : s.resumeRings.Inv := .foldl h fun _ _ h1 => h1.modRing

theorem State.Inv.writeEpochStatus {number result missed rej} (h : s.Inv) :
    (s.writeEpochStatus number result missed rej).Inv :=
  .ite h.update.raiseMsix h.update

theorem State.Inv.endEpoch {result missed} (h : s.Inv) : (s.endEpoch result missed).Inv :=
  h.update.resumeRings.writeEpochStatus.issueAll.pumpAll

theorem State.Inv.epochParentDown (h : s.Inv) : s.epochParentDown.Inv := .ite h.event.endEpoch h

/-! ### Caravan -/

theorem State.Inv.portEvent {p kind cause} (h : s.Inv) : (s.portEvent p kind cause).Inv := h.event

theorem State.Inv.reroute {p pool f} (h : s.Inv) : (s.reroute p pool f).Inv := by
  unfold State.reroute
  dsimp only
  split
  · exact h.enqueue
  · exact h.discardFrame.freePool

theorem State.Inv.rerouteAll {p x pred} (h : s.Inv) : (s.rerouteAll p x pred).Inv :=
  .foldl (.foldl h fun _ _ h1 => h1.reroute) fun _ _ h1 => h1.reroute

theorem State.Inv.portDown {p} (h : s.Inv) : (s.portDown p).Inv :=
  .ite h (.ite h.setPort.portEvent.rerouteAll.pumpAll.epochParentDown h.setPort.portEvent.rerouteAll.pumpAll)

theorem State.Inv.shunPort {p} (h : s.Inv) : (s.shunPort p).Inv := h.setPort.rerouteAll
theorem execPortDown_inv {port} (h : s.Inv) : (execPortDown port s).Inv := .next h.portDown

theorem State.Inv.resendAll {p} (h : s.Inv) : (s.resendAll p).Inv := by
  unfold State.resendAll
  dsimp only
  split
  · exact h
  · exact h.setPort.update

theorem State.Inv.replay {p} (h : s.Inv) : (s.replay p).Inv := .ite h (.ite h.portDown h.setPort.ctrAdd.resendAll)
theorem execReplayTimer_inv {port} (h : s.Inv) : (execReplayTimer port s).Inv := .ite h (.next h.replay)
theorem execAckStallTimeout_inv {port} (h : s.Inv) : (execAckStallTimeout port s).Inv := .ite h (.next h.portDown)

theorem State.Inv.takeTrailer {p f} (h : s.Inv) : (s.takeTrailer p f).Inv :=
  .ite h (.ite (.replay (.ite h.setPort h.setPort)) (.ite h.setPort h.setPort))

theorem State.Inv.countDiscard {p f} (h : s.Inv) : (s.countDiscard p f).Inv := h.ctrAdd.freePool
theorem State.Inv.noteCtrl {f} (h : s.Inv) : (s.noteCtrl f).Inv := .ite h.update h

theorem State.Inv.deliverFrame {p f} (h : s.Inv) : (s.deliverFrame p f).Inv :=
  .ite h.freePool (.ite h.countDiscard h.noteCtrl.update.drainInbox)

theorem State.Inv.routeFrame {p f} (h : s.Inv) : (s.routeFrame p f).Inv :=
  .ite h.countDiscard (.ite h.countDiscard (.ite h.countDiscard (.ite h.deliverFrame (.ite (.ite h.deliverFrame
    h.countDiscard) h.forwardFrame))))

theorem State.Inv.sendIdent {p} (h : s.Inv) : (s.sendIdent p).Inv := h.transmitLink
theorem State.Inv.sendIdents (h : s.Inv) : s.sendIdents.Inv := .foldl h fun _ _ h1 => .ite h1 h1.sendIdent

theorem State.Inv.takeLink {p f} (h : s.Inv) : (s.takeLink p f).Inv :=
  .ite h (.ite h.update (.ite (.transmitLink (.ite h.modPort h)) (.ite (.ite h.setPort.portDown h.setPort.modPort)
    h)))

theorem State.Inv.decodeFec {p f} (h : s.Inv) : (s.decodeFec p f).Inv := h.modPort.ctrAdd.ctrAdd

theorem State.Inv.insertErrors {p f} (h : s.Inv) : (s.insertErrors p f).2.Inv := by
  unfold State.insertErrors
  dsimp only
  split
  · exact h
  · exact .foldl h fun _ _ h1 => h1.useSlot

theorem execFrameReceive_inv {port got} (h : s.Inv) : (execFrameReceive port got s).Inv := by
  unfold execFrameReceive
  extract_lets -underBinder f t bad s1 s2 s2' s3
  have h1 : s1.Inv := .ite h.insertErrors h.insertErrors.decodeFec
  clear_value s1
  have h2 : s2.Inv := h1.ctrAdd.modPort
  have h2' : s2'.Inv := h1.takeTrailer
  clear_value s2 s2'
  exact .ite h (.ite (.next (.advanceColls (.pumpAll (.ite h2 h2.takeTrailer))))
    (.ite (.next h2'.takeLink.pumpAll.advanceColls) (.ite (.next h2'.pumpAll.advanceColls)
      (.ite (.next h2'.modPort.pumpAll.advanceColls) (.next h2'.modPort.ctrAdd.routeFrame.pumpAll.advanceColls)))))

theorem State.Inv.unqueue {p q} (h : s.Inv) : (s.unqueue p q).Inv := h.modPort.freePool

theorem execResentFrameExpiry_inv {port} (h : s.Inv) : (execResentFrameExpiry port s).Inv := by
  unfold execResentFrameExpiry
  split
  · exact .next h.unqueue.ctrAdd
  · exact .next h

theorem execPoolWaitExpiry_inv {port vc} (h : s.Inv) : (execPoolWaitExpiry port vc s).Inv := .ite h (by
    split
    · exact .next h.unqueue.discardFrame.pumpAll
    · exact .next h)

theorem execLaneFail_inv {port lane} (h : s.Inv) : (execLaneFail port lane s).Inv := .ite (.next h.setPort) (by
    split
    · exact .next h.setPort.portDown
    · exact .ite (.next h.setPort) (.next h.setPort.modPort.transmitLink))

theorem execLaneRetrainDone_inv {port} (h : s.Inv) : (execLaneRetrainDone port s).Inv :=
  .ite h (.next h.modPort.resendAll.sendIdent.portEvent.pumpAll)

theorem execLinkTrainingDone_inv {port ok} (h : s.Inv) : (execLinkTrainingDone port ok s).Inv := .ite h (by
    split
    · exact .next h.portDown
    · exact .ite (.next h.portDown) (.next h.setPort.sendIdent.pumpAll))

theorem State.Inv.identEvents {p f} (h : s.Inv) : (s.identEvents p f).Inv := .foldl h fun _ _ h1 => h1.event

theorem execIdentReceive_inv {port} (h : s.Inv) : (execIdentReceive port s).Inv := by
  unfold execIdentReceive
  split
  · exact h
  · extract_lets -underBinder lnk s1 x cause minor near y s2 s3 s4
    have h1 : s1.Inv := h.update
    have h2 : s2.Inv := h1.setPort.identEvents
    clear_value s1 s2
    have h3 : s3.Inv := .ite h2.portEvent h2
    have h4 : s4.Inv := .ite h3.shunPort h3
    exact .ite h1 (.next h4.pumpAll)

theorem State.Inv.stepTime {n} (h : s.Inv) : (s.stepTime n).Inv := .ite h.update h.update

theorem State.Inv.setRootTime {set} (h : s.Inv) : (s.setRootTime set).Inv := by
  unfold State.setRootTime
  split
  · exact h.stepTime
  · exact h

theorem execTimeTick_inv {island tick} (h : s.Inv) : (execTimeTick island tick s).Inv :=
  .next h.modCore.setRouter.setRootTime

theorem execTimeWave_inv (h : s.Inv) : (execTimeWave s).Inv := by
  unfold execTimeWave
  split
  · exact .next h.update
  · exact .ite (.next h) (.next h.modPort.transmitLink)

theorem execTimeFrameReceive_inv {port t4} (h : s.Inv) : (execTimeFrameReceive port t4 s).Inv := by
  unfold execTimeFrameReceive
  split
  · exact h
  · extract_lets -underBinder lnk s1
    have h1 : s1.Inv := h.update
    clear_value s1
    split
    · exact h1
    · extract_lets -underBinder t theta8 theta ok depth s2 lnk' s3
      have h2 : s2.Inv := h1.modPort
      have h3 : s3.Inv := h2.update
      exact .next (State.Inv.pumpAll (.ite h3.stepTime h3.stepTime))

/-! ### Fabric -/

theorem State.Inv.dropPackets {fid} (h : s.Inv) : (s.dropPackets fid).Inv :=
  .foldl h fun _ _ h1 => .ite h1 h1.setRouter.ctrAdd

theorem State.Inv.failOutstanding {r f} (h : s.Inv) : (s.failOutstanding r f).Inv :=
  .foldl h fun _ _ h1 => h1.failClause

theorem State.Inv.faultField {fid trigger island} (h : s.Inv) : (s.faultField fid trigger island).Inv := by
  unfold State.faultField
  split
  · exact h
  · exact .ite h (.issueAll (.foldl h.setField.dropPackets.event fun _ _ h1 => .ite h1.failOutstanding
      h1.failOutstanding.modRing))

theorem execFieldFault_inv {field island} (h : s.Inv) : (execFieldFault field island s).Inv := .next h.faultField

theorem State.Inv.discardPacket {island p} (h : s.Inv) : (s.discardPacket island p).Inv :=
  .ite h.ctrAdd.event h.ctrAdd.faultField

theorem State.Inv.sendPacket {island p dir} (h : s.Inv) : (s.sendPacket island p dir).Inv := by
  unfold State.sendPacket
  split
  · exact h
  · exact h.setRouter.ctrAdd.setRouter

theorem State.Inv.passPacket {island hd} (h : s.Inv) : (s.passPacket island hd).Inv := by
  unfold State.passPacket
  extract_lets -underBinder p router s1 dirs s2 copies s3
  have h1 : s1.Inv := h.setRouter
  have h2 : s2.Inv := .foldl h1 fun _ _ ht => ht.sendPacket
  have h3 : s3.Inv := .ite h2.ctrAdd h2
  exact .ite h1.discardPacket (.ite h3 (.ite h3.ctrAdd (.ite h3.setRouter h3.discardPacket)))

theorem State.Inv.declareLink {island dir control} (h : s.Inv) : (s.declareLink island dir control).Inv := by
  unfold State.declareLink
  split
  · exact h
  · exact .ite (.event (.foldl h.setRouter.setRouter.event.finding fun _ _ h1 => h1.faultField))
      h.setRouter.setRouter.event.finding

theorem State.Inv.crcFail {island dir control} (h : s.Inv) : (s.crcFail island dir control).Inv :=
  .ite h (.ite h.setRouter.ctrAdd h.declareLink)

theorem State.Inv.sendCorrupt {island dir} (h : s.Inv) : (s.sendCorrupt island dir).Inv := by
  unfold State.sendCorrupt
  split
  · exact h.useSlot.crcFail
  · exact h

theorem State.Inv.tryPacket {island hd} (h : s.Inv) : (s.tryPacket island hd).Inv := by
  unfold State.tryPacket
  extract_lets bad free
  refine .ite ?_ h.setRouter
  split
  · exact h.sendCorrupt
  · exact h.passPacket

theorem State.Inv.injectPacket {island p} (h : s.Inv) : (s.injectPacket island p).Inv := h.setRouter

theorem execMeshPacket_inv {island p} (h : s.Inv) : (execMeshPacket island p s).Inv := by
  unfold execMeshPacket
  refine .ite h ?_
  split
  · exact .next h.tryPacket
  · exact .ite h (.next h.injectPacket.tryPacket)

theorem execFlitCrcFail_inv {island dir control} (h : s.Inv) : (execFlitCrcFail island dir control s).Inv :=
  .next h.crcFail

theorem execMeshLinkMoveDone_inv {island dir control} (h : s.Inv) : (execMeshLinkMoveDone island dir control s).Inv :=
  .ite h (by
    split
    · exact h
    · exact .next (.ite h.setRouter.setRouter.sendHeldShares h.setRouter.setRouter))

theorem execCtrlMsgPromotion_inv {island} (h : s.Inv) : (execCtrlMsgPromotion island s).Inv := .next h.setRouter
theorem State.Inv.settleBarriers (h : s.Inv) : s.settleBarriers.Inv := .foldl h fun _ _ h1 => h1.setSync

theorem execBarrierArrive_inv {object island gen} (h : s.Inv) : (execBarrierArrive object island gen s).Inv :=
  .ite h (.ite (.next h.setSync) (.ite (.next h) (.next h.setSync)))

theorem execFlagContribute_inv {object island value} (h : s.Inv) : (execFlagContribute object island value s).Inv :=
  .ite h (by
    split
    · split
      · exact .next h.setStep
      · exact .next h
    · exact .next h.setSync)

theorem State.Inv.noteReducing {x} (h : s.Inv) : (s.noteReducing x).Inv := h.update

theorem execSlotReserve_inv {ring slot r} (h : s.Inv) : (execSlotReserve ring slot r s).Inv := by
  unfold execSlotReserve
  extract_lets x
  split
  · refine .ite h ?_
    split
    · exact h
    · exact .ite (.next (.noteReducing h.setRouter.update))
        (.ite (.next h.noteReducing) (.next h.noteReducing.setRouter.ctrAdd))
  · exact h

theorem State.Inv.putSlot {x y} (h : s.Inv) : (s.putSlot x y).Inv := h.update
theorem State.Inv.freeSlot {x} (h : s.Inv) : (s.freeSlot x).Inv := .ite h.update h.update

theorem State.Inv.flitLeaves {r x i} (h : s.Inv) : (s.flitLeaves r x i).Inv :=
  .ite h.putSlot (.ite h.putSlot h.freeSlot)

theorem State.Inv.formFlit {r x i sum locals} (h : s.Inv) : (s.formFlit r x i sum locals).Inv :=
  .ite (.modRing (.ite h.putSlot.ctrAdd.flitLeaves h.putSlot.ctrAdd)) (.ite h.putSlot.ctrAdd.flitLeaves
    h.putSlot.ctrAdd)

theorem State.Inv.takeFlit {r x i sum} (h : s.Inv) : (s.takeFlit r x i sum).Inv := by
  unfold State.takeFlit
  split
  · exact h.putSlot.flitLeaves
  · exact h.putSlot

theorem execReductionFlitArrive_inv {island unit index flit locals} (h : s.Inv) :
    (execReductionFlitArrive island unit index flit locals s).Inv := by
  unfold execReductionFlitArrive
  split
  · exact h
  · split
    · exact h
    · extract_lets -underBinder r drawn
      refine .ite h ?_
      split
      · split
        · exact .ite (.next h.formFlit) h
        · exact h
      · refine .ite h ?_
        split
        · exact h
        · extract_lets -underBinder s1
          have h1 : s1.Inv := h.takeFlit.dataBegun
          clear_value s1
          split
          · exact .ite (.next h1.formFlit) h1
          · exact h1

/-! ### Engines -/

theorem State.Inv.setDecode {d} (h : s.Inv) : (s.setDecode d).Inv := h.update
theorem State.Inv.noteBad {d items} (h : s.Inv) : (s.noteBad d items).Inv := h.setDecode

theorem State.Inv.stageDecode {n j c d} (h : s.Inv) : (s.stageDecode n j c d).Inv :=
  .foldl h fun _ _ h1 => .ite h1 (.ite (.foldl (.foldl h1 fun _ _ h2 => h2.writeDva) fun _ _ h2 =>
    h2.writeDva.ctrAdd) (.setEngine (.foldl h1 fun _ _ h2 => h2.writeDva)))

theorem State.Inv.stepDecode {n p j c d} (h : s.Inv) : (s.stepDecode n p j c d).Inv :=
  .ite h.setEngine.noteBad.ctrAdd (.ite (.ctrAdd (.ite h.setEngine.noteBad h.setEngine)) h.writeBank.setEngine.ctrAdd)

theorem execStagingDone_inv {vault} (h : s.Inv) : (execStagingDone vault s).Inv := by
  unfold execStagingDone
  split
  · exact .next h
  · exact .ite (.next h) (by
    split
    · exact h
    · exact .next h.stageMv.beginSteps
    · exact .ite (.next h) (.next h.stageDecode.beginSteps))

theorem State.Inv.spanCe {dva n} (h : s.Inv) : (s.spanCe dva n).Inv := .ite h (.foldl h fun _ _ h1 => by
    split
    · exact .ite h1.ceBurst h1
    · exact h1)

theorem State.Inv.takeStep {n p j w} (h : s.Inv) : (s.takeStep n p j w).Inv := by
  cases w with
  | mv c b => exact h.stepMv
  | decode c d => exact h.stepDecode

theorem State.Inv.endStep {n p} (h : s.Inv) : (s.endStep n p).Inv := by
  unfold State.endStep
  exact .toMerge (.ite (.ite h.setEngine.serveBoundary.grantTokens.ctrAdd h.setEngine.serveBoundary.grantTokens)
    (.serveFree (.ite h.setEngine.serveBoundary.grantTokens.ctrAdd h.setEngine.serveBoundary.grantTokens)))

theorem execEngineStepBoundary_inv {vault engine} (h : s.Inv) : (execEngineStepBoundary vault engine s).Inv := by
  unfold execEngineStepBoundary
  refine .ite h (.ite (.next h.endStep) (.ite h ?_))
  split
  · exact h
  · split
    · exact h
    · extract_lets -underBinder span
      split
      · exact .ite (.next h.startRepair) (.ite (.next h.endStep) h)
      · exact .next h.spanCe.takeStep.dataBegun.endStep

theorem State.Inv.mergeDecode {n j c d} (h : s.Inv) : (s.mergeDecode n j c d).Inv :=
  .ite h.setDecode.modVault (.ite (.settleClause (.ite (.finishDecode (.leaveVault (.foldl h.setDecode.ctrAdd fun _ _
    h1 => h1.dropCacheRow))) (.leaveVault (.foldl h.setDecode.ctrAdd fun _ _ h1 => h1.dropCacheRow))))
    h.setDecode.ctrAdd.modVault)

theorem execMergeDone_inv {vault} (h : s.Inv) : (execMergeDone vault s).Inv := by
  unfold execMergeDone
  split
  · exact .next h
  · exact .ite (.next h) (by
    split
    · exact h
    · exact .ite (.next h.mergeBatch.leaveVault.settleClause) (.next h.mergeBatch.modVault)
    · exact .next h.mergeDecode)

theorem execEngineFault_inv {vault engine} (h : s.Inv) : (execEngineFault vault engine s).Inv :=
  .next (.serveFree (.grantTokens (by
    split
    · exact .ite h.setEngine.event.finding.failClause h.setEngine.event.finding
    · exact h.setEngine.event.finding)))

theorem State.Inv.leaveEngines {n} (h : s.Inv) : (s.leaveEngines n).Inv := .foldl h fun _ _ h1 => .ite h1 (.ite (by
    split
    · exact .settleClause (.ite h1.setDecode.leaveVault.finishDecode h1.setDecode.leaveVault)
    · exact h1) h1.failClause)

/-! ### Tune -/

theorem State.Inv.noteTune {n x} (h : s.Inv) : (s.noteTune n x).Inv := h.modCore
theorem State.Inv.noteTunes {n} (h : s.Inv) : (s.noteTunes n).Inv := .foldl h fun _ _ h1 => h1.noteTune

theorem State.Inv.retuneTest {n} (h : s.Inv) : (s.retuneTest n).Inv :=
  .ite (.ite h.modCore h) (.modVault (.ite h.modCore h))

/-! ### CoreSeq -/

theorem execImemUncorrectable_inv {core strike} (h : s.Inv) : (execImemUncorrectable core strike s).Inv :=
  .next h.strikeImem

theorem execKernelStoreRefill_inv (h : s.Inv) : (execKernelStoreRefill s).Inv :=
  .ite h (.next (.foldl h.update fun _ _ h1 => .ite h1.modCore h1))

theorem execParenAdmit_inv {admission} (h : s.Inv) : (execParenAdmit admission s).Inv :=
  .ite h (.next (.modCore (.foldl h fun _ _ h1 => h1.playaSeen)))

theorem execContextYield_inv {core cycles spill} (h : s.Inv) : (execContextYield core cycles spill s).Inv :=
  .ite h (.next (.ctrMax (.ctrAdd (.modCore (.useVectors (.foldl h fun _ _ h1 => h1.playaWrite.modCore))))))

theorem State.Inv.dropShare {r index core stage} (h : s.Inv) : (s.dropShare r index core stage).Inv :=
  .ite h.failClause (by
    split
    · exact h
    · exact .settleClause (.modCore (.modRing (.ite h.countFailed h))))

theorem State.Inv.degradeField {fid core} (h : s.Inv) : (s.degradeField fid core).Inv := by
  unfold State.degradeField
  split
  · exact h
  · exact .foldl h.setField.event fun _ _ h1 => h1.dropShare

theorem State.Inv.loseCore {core} (h : s.Inv) : (s.loseCore core).Inv := by
  unfold State.loseCore
  extract_lets -underBinder s1 main par fault s2
  have h1 : s1.Inv := h.modCore.settleBarriers
  clear_value s1 fault main par
  have h2 : s2.Inv := by
    unfold s2
    split
    · exact .ite h1.faultField h1.degradeField
    · exact h1
  clear_value s2
  split
  · exact .ite h2.faultField h2.degradeField
  · exact h2

theorem execPlayaRetuneDone_inv {core sweeps} (h : s.Inv) : (execPlayaRetuneDone core sweeps s).Inv := .ite h (by
    dsimp only
    split
    · exact .next h.setDelays.noteTune.modCore
    · exact .next (.issueAll (.loseCore (.foldl h.setDelays.noteTune.modCore fun _ _ h1 => h1.event.finding))))

/-! ### Domains -/

theorem State.Inv.failPhase {d phase} (h : s.Inv) : (s.failPhase d phase).Inv := h.setDom
theorem State.Inv.regulatorEvent {d what detail} (h : s.Inv) : (s.regulatorEvent d what detail).Inv := h.event

theorem execPhaseFail_inv {domain phase} (h : s.Inv) : (execPhaseFail domain phase s).Inv :=
  .ite h (.next h.failPhase.regulatorEvent.finding)

theorem State.Inv.cutDomain {d} (h : s.Inv) : (s.cutDomain d).Inv := h.modDom

theorem State.Inv.darkDomain {d} (h : s.Inv) : (s.darkDomain d).Inv :=
  .foldl h fun _ _ h1 => .ite h1.cutDomain.regulatorEvent.finding.loseCore h1.cutDomain.regulatorEvent.finding

theorem State.Inv.failRegulator {d} (h : s.Inv) : (s.failRegulator d).Inv := by
  unfold State.failRegulator
  split
  · exact h.darkDomain
  · exact h.modDom

theorem execRegulatorFail_inv {domain} (h : s.Inv) : (execRegulatorFail domain s).Inv :=
  .ite h (.next h.failRegulator.issueAll)

theorem execBridgeComplete_inv {domain} (h : s.Inv) : (execBridgeComplete domain s).Inv := by
  unfold execBridgeComplete
  dsimp only
  split
  · exact .next h
  · exact .ite (.next h.setDom.regulatorEvent) (.next h.setDom.regulatorEvent)

theorem execDomainDark_inv {domain} (h : s.Inv) : (execDomainDark domain s).Inv := by
  unfold execDomainDark
  split
  · exact .next h
  · exact .next h.darkDomain.issueAll

theorem execIdlePowerOff_inv {core} (h : s.Inv) : (execIdlePowerOff core s).Inv :=
  .ite (.next h.modDom.modCore) (.next h)

theorem State.Inv.askWake {d} (h : s.Inv) : (s.askWake d).Inv := .ite h.update h

theorem execWakeRequest_inv {domain} (h : s.Inv) : (execWakeRequest domain s).Inv :=
  .ite (.next (.askWake (.ite h.askWake h))) (.next h)

theorem State.Inv.startRamp {d} (h : s.Inv) : (s.startRamp d).Inv := h.modDom

theorem execWakeTokenGrant_inv {domain} (h : s.Inv) : (execWakeTokenGrant domain s).Inv := .ite h (by
    split
    · exact h
    · exact .ite (.next h) (.next (.ite h.update.ctrAdd h.update.startRamp)))

theorem execWakeWaitEnd_inv {domain expired} (h : s.Inv) : (execWakeWaitEnd domain expired s).Inv :=
  .ite (.next (.startRamp (.ite h h.modDom.ctrAdd))) (.next h)

theorem execRampStage_inv {domain} (h : s.Inv) : (execRampStage domain s).Inv :=
  .ite h (.ite (.next h.setDom) (.next h.setDom.update.ctrAdd))

theorem execWakeComplete_inv {domain} (h : s.Inv) : (execWakeComplete domain s).Inv :=
  .ite (.next h.noteTunes.modCore) (.next h)

theorem execDroopDetect_inv {domain droop cycles} (h : s.Inv) : (execDroopDetect domain droop cycles s).Inv :=
  .ite h (.ite (.next h.ctrAdd.modCore.modDom) (.next h.ctrAdd))

theorem execDroopRecover_inv {island} (h : s.Inv) : (execDroopRecover island s).Inv :=
  .ite h (.next (.foldl h.modCore fun _ _ h1 => .ite h1.modDom h1))

theorem State.Inv.beginForced {x} (h : s.Inv) : (s.beginForced x).Inv := .ite h.modCore.modDom h
theorem State.Inv.endForced {x cycles} (h : s.Inv) : (s.endForced x cycles).Inv := .ite h.modCore.modDom.ctrAdd h

/-! ### Epoch -/

theorem State.Inv.noteKv {k} (h : s.Inv) : (s.noteKv k).Inv := by
  unfold State.noteKv
  split
  · exact h
  · exact h
  · exact h.update
  · exact h.update

theorem State.Inv.withRows {rows} (h : s.Inv) : (s.withRows rows).Inv := h.update
theorem State.Inv.validateRows (h : s.Inv) : s.validateRows.Inv := h.update.noteKv

theorem State.Inv.releaseWave1 {v mm} (h : s.Inv) : (s.releaseWave1 v mm).Inv :=
  .ite (by split <;> exact h.sendSyncDown.update) h.sendSyncDown.update.event

theorem State.Inv.moveWave1 (h : s.Inv) : s.moveWave1.Inv :=
  .ite h (.ite (.ite h h.releaseWave1) (.ite h h.sendSyncUp.update))

theorem State.Inv.stepWave1 (h : s.Inv) : s.stepWave1.Inv := h.moveWave1.moveWave1
theorem State.Inv.arriveWave1 {v} (h : s.Inv) : (s.arriveWave1 v).Inv := h.update.stepWave1

theorem State.Inv.syncUp1 {p f} (h : s.Inv) : (s.syncUp1 p f).Inv :=
  .ite h.inboxTake.update.stepWave1 (.ite h h.inboxTake)

theorem State.Inv.syncDown1 {p f} (h : s.Inv) : (s.syncDown1 p f).Inv :=
  .ite h.inboxTake.releaseWave1.stepWave1 h.inboxTake

theorem execSyncUp_inv {port} (h : s.Inv) : (execSyncUp port s).Inv := by
  unfold execSyncUp
  split
  · exact .next h
  · exact .next (.ite h.syncUp0 (.ite h.syncUp1 h.inboxTake))

theorem execSyncDown_inv {port} (h : s.Inv) : (execSyncDown port s).Inv := by
  unfold execSyncDown
  split
  · exact .next h
  · exact .next (.ite h.syncDown0 (.ite h.syncDown1 h.inboxTake))

theorem execRootWaveTimeout_inv {object} (h : s.Inv) : (execRootWaveTimeout object s).Inv :=
  .ite (.next h.releaseWave1.stepWave1) (.next h)

theorem State.Inv.beginEpoch (h : s.Inv) : s.beginEpoch.Inv := h.update.validateRows.update.pauseFields
theorem State.Inv.setEpochCtrl {ctrl} (h : s.Inv) : (s.setEpochCtrl ctrl).Inv := h.update

theorem State.Inv.requestEpoch (h : s.Inv) : s.requestEpoch.Inv :=
  .ite h.ctrAdd (.ite h.writeEpochStatus (.ite h.update h.update.beginEpoch))

theorem State.Inv.writeEpochCtrl {ctrl} (h : s.Inv) : (s.writeEpochCtrl ctrl).Inv :=
  .ite h.setEpochCtrl.requestEpoch h.setEpochCtrl

theorem execEpochRequest_inv {ctrl} (h : s.Inv) : (execEpochRequest ctrl s).Inv := .next h.writeEpochCtrl
theorem State.Inv.epochArrive {v} (h : s.Inv) : (s.epochArrive v).Inv := .ite h.update.arriveWave1 h.update
theorem execEpochDrainDone_inv (h : s.Inv) : (execEpochDrainDone s).Inv := .ite (.next h.epochArrive) (.next h)

theorem execEpochTimeout_inv (h : s.Inv) : (execEpochTimeout s).Inv :=
  .ite (.next (.ite h.epochArrive h.endEpoch)) (.next h)

theorem State.Inv.startPool (h : s.Inv) : s.startPool.Inv :=
  .ite (.foldl h.update fun _ _ h1 => h1.writeDva) h.update

theorem State.Inv.forgetEntries (h : s.Inv) : s.forgetEntries.Inv := h.update

theorem State.Inv.applyCaches {old} (h : s.Inv) : (s.applyCaches old).Inv :=
  .foldl h fun _ _ h1 => .ite h1.dropCache h1

theorem State.Inv.applyRows {rows} (h : s.Inv) : (s.applyRows rows).Inv := by
  unfold State.applyRows
  extract_lets -underBinder kv b rej s0 epoch s1 s2 s3
  have h1 : s1.Inv := h.withRows.update.noteKv
  have h2 : s2.Inv := .ite h1.startPool h1
  have h3 : s3.Inv := .ite h2.applyCaches h2
  exact .checkQuotas (.ite h3.forgetEntries h3)

theorem State.Inv.digestConfig (h : s.Inv) : s.digestConfig.Inv := h.update

theorem State.Inv.finishApplied {missed} (h : s.Inv) : (s.finishApplied missed).Inv :=
  .endEpoch (.ite h h.digestConfig.sendIdents)

theorem execEpochApply_inv (h : s.Inv) : (execEpochApply s).Inv := by
  unfold execEpochApply
  split
  · exact .next h
  · exact .ite (.next h) (.ite (.next h.applyRows.finishApplied) (.ite (.next h) (.next (.ite (.update (.ite
      h.applyRows h)) (.arriveWave1 (.update (.ite h.applyRows h)))))))

theorem State.Inv.finishChain {b missed} (h : s.Inv) : (s.finishChain b missed).Inv := by
  unfold State.finishChain
  exact .stepWave1 (.ite h.update.applyRows.finishApplied h.update.endEpoch)

theorem execEpochCommit_inv (h : s.Inv) : (execEpochCommit s).Inv := by
  unfold execEpochCommit
  split
  · exact .ite (.next h.finishChain) h
  · exact h

theorem State.Inv.epochReset (h : s.Inv) : s.epochReset.Inv :=
  .ite (.ite h.epochArrive (.ite h.arriveWave1 h)) (.ite h.endEpoch h.stepWave1)

theorem State.Inv.epochAfterReset (h : s.Inv) : s.epochAfterReset.Inv := by
  unfold State.epochAfterReset
  split
  · exact .ite h (.finishChain (.ite h.applyRows h))
  · exact h

/-! ### HostMem -/

theorem State.Inv.hold {w} (h : s.Inv) : (s.hold w).Inv := h.update
theorem State.Inv.early (h : s.Inv) : s.early.Inv := h.update
theorem State.Inv.answerPoison {dpa} (h : s.Inv) : (s.answerPoison dpa).Inv := h.update.answer

theorem State.Inv.offerRead {dpa} (h : s.Inv) : (s.offerRead dpa).Inv :=
  .ite h.wait (.ite h.startRepair.wait h.serveRead)

theorem execHostMemRead_inv {dpa} (h : s.Inv) : (execHostMemRead dpa s).Inv :=
  .ite .fault (.ite (.next h.early.answerPoison) (.ite (.next h.hold) (.next h.offerRead)))

theorem State.Inv.hostStore {dpa bs poison} (h : s.Inv) : (s.hostStore dpa bs poison).Inv :=
  .ite h.early.answer (.ite h.hold (.ite h.dropSeqWrite (.ite h.closeEntries.modVault.ctrAdd (.ite
    h.closeEntries.wait h.closeEntries.serveWrite))))

theorem execHostMemWrite_inv {dpa bytes poison} (h : s.Inv) : (execHostMemWrite dpa bytes poison s).Inv :=
  .ite .fault (.next h.hostStore)

theorem execHostRequestPromoted_inv {vault isScrubber} (h : s.Inv) :
    (execHostRequestPromoted vault isScrubber s).Inv :=
  .ite h (.ite (.next h.modVault.ctrAdd) (.next h))

theorem execDeferredWriteRetry_inv {vault} (h : s.Inv) : (execDeferredWriteRetry vault s).Inv := by
  unfold execDeferredWriteRetry
  split
  · exact .next h
  · exact .next h.modVault.ctrAdd.event.answer

theorem execHeldRequestTimeout_inv (h : s.Inv) : (execHeldRequestTimeout s).Inv := by
  unfold execHeldRequestTimeout
  split
  · exact .next h
  · split
    · exact .next h.update.answerPoison
    · exact .next h.update.answer
    · exact .next h

theorem State.Inv.takeHeld (h : s.Inv) : s.takeHeld.Inv := .ite h (.foldl h.update fun _ _ h1 => by
    split
    · exact h1.offerRead
    · exact h1.hostStore
    · exact .ite h1.wait h1.serveRaw)

theorem State.Inv.rawAccess {w} (h : s.Inv) : (s.rawAccess w).Inv :=
  .ite h (.ite .fault (.ite (.next h.update.hold) (.ite (.next h.update.wait) (.next h.update.serveRaw))))

theorem State.Inv.setChkCtrl {ctrl} (h : s.Inv) : (s.setChkCtrl ctrl).Inv := h.update

theorem execRawWrite_inv {ctrl} (h : s.Inv) : (execRawWrite ctrl s).Inv :=
  .ite h.setChkCtrl.rawAccess (.next h.setChkCtrl)

theorem execRawRead_inv {ctrl} (h : s.Inv) : (execRawRead ctrl s).Inv :=
  .ite h.setChkCtrl.rawAccess (.next h.setChkCtrl)

/-! ### Errors -/

theorem execPageRepair_inv {vault row tier bank} (h : s.Inv) : (execPageRepair vault row tier bank s).Inv :=
  .ite h (.next h.startRepair)

theorem execPageRepairDone_inv {vault} (h : s.Inv) : (execPageRepairDone vault s).Inv := by
  unfold execPageRepairDone
  split
  · exact .next (.serveFree (.grantTokens (.ite h.repairRow.modVault.ctrAdd h.repairRow.modVault)))
  · exact .next h

theorem State.Inv.scrub {r c} (h : s.Inv) : (s.scrub r c).Inv := by
  unfold State.scrub
  extract_lets -underBinder lo hi rows before z x words elems t
  have hz : z.1.Inv := List.foldlRecOn (motive := fun p : State × ScrubSum => p.1.Inv) _ _ h fun _ hp _ _ =>
    hp.repairRow
  exact hz.storeTensor.workDone

theorem execScrub_inv {ring slot} (h : s.Inv) : (execScrub ring slot s).Inv := by
  unfold execScrub
  split
  · exact .ite (.next h) (.next h.scrub)
  · exact .next h

theorem execCacheParityError_inv {t} (h : s.Inv) : (execCacheParityError t s).Inv := by
  unfold execCacheParityError
  split
  · exact .next (.setDram h h.dram)
  · exact .next h.update.ctrAdd
  · split
    · exact .ite (.next h.modRing.ctrAdd) (.next h.ctrAdd)
    · exact h
  · exact .next h.forgetNoun.ctrAdd
  · exact .next h.ctrAdd
  · exact .next h.update.ctrAdd

theorem execCperRecord_inv (h : s.Inv) : (execCperRecord s).Inv := by
  unfold execCperRecord
  split
  · split
    · exact .next h
    · exact .ite (.next h.update.ctrAdd.reply) (.next h.update.ctrAdd)
  · exact .next h

theorem State.Inv.stressBegin (h : s.Inv) : s.stressBegin.Inv := by
  have hp : ∀ y, State.Inv { s with err := { s.err with stress := y } } := fun y => h.update
  have hw : ∀ p, Memory.wf (s.playa.cells.filter p) := fun p =>
    ⟨h.playa.1.filter _, fun c hc => h.playa.2 c (List.mem_of_mem_filter hc)⟩
  unfold State.stressBegin
  extract_lets -underBinder x put
  exact .ite (hp _) (.ite (hp _) (.setPlaya (hp _) (hw _)))

theorem execStressStart_inv {ctrl} (h : s.Inv) : (execStressStart ctrl s).Inv :=
  .next (.ite h.update.stressBegin h.update)

theorem execStressCornerDone_inv {passed skipped} (h : s.Inv) : (execStressCornerDone passed skipped s).Inv := by
  unfold execStressCornerDone
  dsimp only
  split
  · exact .next h
  · exact .next h.update

theorem State.Inv.stressAct {c} (h : s.Inv) : (s.stressAct c).Inv :=
  .ite h.update.modCore.finding.event (.ite h.update.event h.update)

theorem execStressResult_inv (h : s.Inv) : (execStressResult s).Inv :=
  .ite (.next (.update (.foldl h fun _ _ h1 => h1.stressAct))) (.next h)

/-! ### Vault -/

theorem State.Inv.laneEvent {n} (h : s.Inv) : (s.laneEvent n).Inv := .ite h.event h.memoryEvent

theorem State.Inv.evacuate {n} (h : s.Inv) : (s.evacuate n).Inv :=
  .ite h h.modVault.dropCache.laneEvent.finding.leaveEngines

theorem State.Inv.toHalfWidth {n} (h : s.Inv) : (s.toHalfWidth n).Inv := .ite h.setVault h.evacuate

theorem State.Inv.failDataLane {n sub lane} (h : s.Inv) : (s.failDataLane n sub lane).Inv :=
  .ite (.ite h.setVault.modVault h.setVault.toHalfWidth) (.ite (.ite h.setVault (.ite h.setVault.modVault
    h.setVault.evacuate)) h.setVault)

theorem State.Inv.failCmdLane {n} (h : s.Inv) : (s.failCmdLane n).Inv := .ite h.modVault h.evacuate

theorem execLaneTest_inv {vault sub dataLanes cmdLanes} (h : s.Inv) :
    (execLaneTest vault sub dataLanes cmdLanes s).Inv :=
  .ite h (.ite (.next h.modVault.serveFree) (.next (.foldl (.foldl h fun _ _ h1 => h1.failDataLane) fun _ _ h1 =>
    h1.failCmdLane)))

theorem State.Inv.failSweeps {n xs} (h : s.Inv) : (s.failSweeps n xs).Inv :=
  .foldl h fun _ _ h1 => .ite h1.failCmdLane h1.failDataLane

theorem execSpareTrained_inv {vault sub data cmds} (h : s.Inv) : (execSpareTrained vault sub data cmds s).Inv :=
  .ite h (.ite (.next h.setDelays.failSweeps) (.next h.setDelays.modVault.laneEvent.serveFree))

theorem execSidePortMoveDone_inv {vault trained} (h : s.Inv) : (execSidePortMoveDone vault trained s).Inv :=
  .ite h (.next (.serveFree (.ite h.modVault h.modVault.laneEvent)))

theorem State.Inv.failBurst {n sub} (h : s.Inv) : (s.failBurst n sub).Inv := .ite h.setVault.ctrAdd h.setVault

theorem State.Inv.combineRead {n burst who back} (h : s.Inv) : (s.combineRead n burst who back).Inv := .ite h (by
    dsimp only
    split
    · exact h.setVault.ctrAdd
    · exact .ite h.setVault.ctrAdd h)

theorem State.Inv.readBurst {b} (h : s.Inv) : (s.readBurst b).Inv :=
  .ite h.startRepair (.cacheRead (.ite (.ceBurst (.ite h.combineRead.ctrAdd h.combineRead)) (.ite
    h.combineRead.ctrAdd h.combineRead)))

theorem execBurstReturn_inv {b} (h : s.Inv) : (execBurstReturn b s).Inv := by
  unfold execBurstReturn
  extract_lets -underBinder n a sub s1 s2
  have h1 : s1.Inv := h.ctrAdd
  have h2 : s2.Inv := h1.modVault
  clear_value s1 s2
  generalize (!burstHolds b) = held
  refine .ite (.next h.cacheRead.playaSeen) (.ite h (.ite (.next h.cacheRead.combineRead) ?_))
  exact .ite (.next (.failBurst (.ite h1 h1.combineRead))) (.next (.ite h2.closeEntries h2.readBurst))

theorem execCombineWindowExpiry_inv {vault burst late} (h : s.Inv) :
    (execCombineWindowExpiry vault burst late s).Inv :=
  .ite (.next h.modVault.ctrAdd) (.next h)

theorem execRefreshDue_inv {vault tier} (h : s.Inv) : (execRefreshDue vault tier s).Inv :=
  .ite h (.next h.setTier.ctrMax)

theorem State.Inv.retuneTier {n t sweeps} (h : s.Inv) : (s.retuneTier n t sweeps).Inv :=
  .ite h (.noteTune (.foldl h.setDelays.modVault.failSweeps fun _ _ h1 => h1.event.finding))

theorem execRefreshIssue_inv {vault tier sweeps} (h : s.Inv) : (execRefreshIssue vault tier sweeps s).Inv :=
  .ite h (.next (.retuneTier (.ite h.setTier.ctrAdd h.setTier)))

theorem execRefreshComplete_inv {vault tier} (h : s.Inv) : (execRefreshComplete vault tier s).Inv :=
  .ite h (.next h.setTier.serveFree.grantTokens)

theorem State.Inv.enterSelfRefresh (h : s.Inv) : s.enterSelfRefresh.Inv := h.update

theorem State.Inv.leaveSelfRefresh (h : s.Inv) : s.leaveSelfRefresh.Inv :=
  .ite h (.foldl h.update.serveAllFree.takeHeld fun _ _ h1 => h1.grantTokens)

/-! ### Reset -/

theorem State.Inv.cutLink {island dir control} (h : s.Inv) : (s.cutLink island dir control).Inv := by
  unfold State.cutLink
  split
  · exact h.setRouter.setRouter
  · exact h.setRouter

theorem State.Inv.applyDefect {d} (h : s.Inv) : (s.applyDefect d).Inv := by
  unfold State.applyDefect
  split
  · exact .ite h.loseCore.modDom h
  · exact .ite h.loseCore.modDom h
  · exact .ite h.modVault h
  · exact .ite h.modVault h
  · exact .ite h.modVault.dropCache h
  · exact .ite h.modVault h
  · exact .ite h.cutLink h
  · exact .ite h.cutLink h
  · exact .ite h.failPhase h
  · exact .ite (.ite h.cutDomain.loseCore h.cutDomain) h
  · exact .ite h.setSensor h
  · exact .ite h.modPort h
  · exact .ite (.ite h.modVault.dropCache h.modVault) h
  · exact h

theorem State.Inv.takeFindings {l} (h : s.Inv) : (s.takeFindings l).Inv :=
  .foldl h fun _ _ h1 => h1.applyDefect.finding

theorem State.Inv.regulatorUntested {failing d} (h : s.Inv) : (s.regulatorUntested failing d).Inv := .ite h (.ite (by
    split
    · exact h.setDom.regulatorEvent
    · exact h.darkDomain) (.ite h.setDom.regulatorEvent h.darkDomain))

theorem State.Inv.regulatorsTested {failing} (h : s.Inv) : (s.regulatorsTested failing).Inv :=
  .foldl h fun _ _ h1 => h1.regulatorUntested

theorem State.Inv.endClause {r c} (h : s.Inv) : (s.endClause r c).Inv :=
  .ite h (.modRing (.releaseWork (.ite h.undefineOutputs h)))

theorem State.Inv.endClauses (h : s.Inv) : s.endClauses.Inv :=
  .foldl h fun _ _ h1 => .foldl h1 fun _ _ h2 => h2.endClause

theorem State.Inv.abortColls (h : s.Inv) : s.abortColls.Inv :=
  .update (.foldl h fun _ _ h1 => .foldl h1 fun _ _ h2 => h2.sendCtrl)

theorem State.Inv.holdAtVaults (h : s.Inv) : s.holdAtVaults.Inv := .update (.foldl h fun _ _ h1 => h1.modVault)

theorem State.Inv.abortStress (h : s.Inv) : s.abortStress.Inv :=
  .ite h (.update (.foldl h fun _ _ h1 => h1.stressAct))

theorem State.Inv.resetWaves (h : s.Inv) : s.resetWaves.Inv := h.update.stepWave0

theorem State.Inv.beginReset (h : s.Inv) : s.beginReset.Inv :=
  h.update.sendIdents.abortColls.endClauses.holdAtVaults.abortStress.resetWaves.epochReset.settleBarriers.pumpAll

theorem State.Inv.requestReset (h : s.Inv) : s.requestReset.Inv := .ite h (.ite h.beginReset (.ite h.update h))
theorem State.Inv.domainsOnVbyp (h : s.Inv) : s.domainsOnVbyp.Inv := .foldl h fun _ _ h1 => .ite h1 h1.modDom
theorem State.Inv.tryLeave (h : s.Inv) : s.tryLeave.Inv := .ite h.domainsOnVbyp.update h
theorem State.Inv.holdActs (h : s.Inv) : s.holdActs.Inv := .ite h.update h

theorem State.Inv.lockDebug (h : s.Inv) : s.lockDebug.Inv :=
  .noteSensors (.update (.foldl h fun _ _ h1 => h1.endForced))

theorem State.Inv.renewNonce (h : s.Inv) : s.renewNonce.Inv := h.update.tookFree
theorem State.Inv.coreDomainsOff (h : s.Inv) : s.coreDomainsOff.Inv := .foldl h fun _ _ h1 => .ite h1 h1.modDom

theorem State.Inv.clearCompute (h : s.Inv) : s.clearCompute.Inv := by
  unfold State.clearCompute
  extract_lets -underBinder t kvm pwr u
  have ht : t.Inv := .ite h.lockDebug.renewNonce h.lockDebug
  clear_value t
  have hu : u.Inv := .update (s := { t with playa := Slices.reset }) (.setPlaya ht Memory.wf_nil)
  exact hu.coreDomainsOff

theorem State.Inv.finishRepairs (h : s.Inv) : s.finishRepairs.Inv := .foldl h fun _ _ h1 => by
    split
    · exact h1.repairRow
    · exact h1

theorem execResetEntryDone_inv (h : s.Inv) : (execResetEntryDone s).Inv :=
  .ite h (.next h.finishRepairs.enterSelfRefresh.clearCompute.update.tryLeave)

theorem State.Inv.domainsUp (h : s.Inv) : s.domainsUp.Inv := .foldl h fun _ _ h1 => .ite h1 h1.modDom
theorem State.Inv.loadKernels (h : s.Inv) : s.loadKernels.Inv := .foldl h fun _ _ h1 => .ite h1.noteTunes.modCore h1

theorem State.Inv.resetFlush {r} (h : s.Inv) : (s.resetFlush r).Inv := by
  have h3 : ∀ {u : State}, u.Inv →
      State.Inv (if r = 0 ∧ u.cmd.r0State = 2 then { u with cmd := { u.cmd with r0State := 1 } } else u) :=
    fun hu => .ite hu.update hu
  unfold State.resetFlush
  exact .ite h (.ite h.readProducer.tryClose (.tryClose (h3 h.readProducer.flushRing)))

theorem State.Inv.resetFlushAll (h : s.Inv) : s.resetFlushAll.Inv := .foldl h fun _ _ h1 => h1.resetFlush

theorem State.Inv.openSteps (h : s.Inv) : s.openSteps.Inv :=
  .update (.foldl h fun _ _ h1 => .foldl h1 fun _ _ h2 => h2.setSlow)

theorem State.Inv.endReset (h : s.Inv) : s.endReset.Inv := by
  have h2 : ∀ {u : State}, u.Inv → (if u.dramFree then u.leaveSelfRefresh else u).Inv := fun hu => .ite
    hu.leaveSelfRefresh hu
  have h5 : ∀ {u : State}, u.Inv → (if u.glb.rstIrqEn then u.raiseMsix u.glb.rstVector.toNat else u).Inv :=
    fun hu => .ite hu.raiseMsix hu
  have h6 : ∀ {u : State} {again : Bool}, u.Inv → (if again then u.requestReset else u).Inv := fun hu => .ite
    hu.requestReset hu
  unfold State.endReset
  exact h6 (h5 (h2 h.update.domainsUp.loadKernels.resetFlushAll.openSteps.update).takeHeld.sendIdents.epochAfterReset
    ).stepWave0.issueAll.pumpAll

theorem execResetLeaveDone_inv {host found} (h : s.Inv) : (execResetLeaveDone host found s).Inv :=
  .ite h (.next h.seeHost.takeFindings.regulatorsTested.endReset)

/-! ### Power -/

theorem State.Inv.noteCap {p} (h : s.Inv) : (s.noteCap p).Inv := .ite h.update.ctrAdd h
theorem State.Inv.setHostCap {w} (h : s.Inv) : (s.setHostCap w).Inv := h.update.noteCap
theorem State.Inv.setMgtCap {w} (h : s.Inv) : (s.setMgtCap w).Inv := h.update.noteCap
theorem execBrakeAssert_inv {asserted} (h : s.Inv) : (execBrakeAssert asserted s).Inv := .next h.update
theorem execLinkHoldEnd_inv (h : s.Inv) : (execLinkHoldEnd s).Inv := .next h.update

theorem State.Inv.divideTokens (h : s.Inv) : s.divideTokens.Inv :=
  .foldl (.foldl (.foldl h fun _ _ h1 => h1.modVault) fun _ _ h1 => h1.modVault) fun _ _ h1 => h1.grantTokens

theorem State.Inv.setVoltages {x} (h : s.Inv) : (s.setVoltages x).Inv :=
  .foldl (.foldl (.foldl (.foldl (.foldl h fun _ _ h1 => h1.modDom) fun _ _ h1 => .ite (by
    split
    · exact h1.modDom
    · exact h1) h1) fun _ _ h1 => .ite h1.modDom h1) fun _ _ h1 => .ite h1 h1.modDom) fun _ _ h1 => h1.retuneTest

theorem State.Inv.flowLimit {x e d} (h : s.Inv) : (s.flowLimit x e d).Inv := h.update

theorem execPowerEstimate_inv {x} (h : s.Inv) : (execPowerEstimate x s).Inv :=
  .next (.divideTokens (.setVoltages (.foldl h.update.flowLimit.update fun _ _ h1 => .ite h1.ctrAdd h1)))

theorem State.Inv.raiseSag {k} (h : s.Inv) : (s.raiseSag k).Inv :=
  .ite h (.ite h.update.ctrAdd (.ite h.update.ctrAdd.update.holdActs h.update.ctrAdd.update.requestReset))

theorem execSagSample_inv {mv} (h : s.Inv) : (execSagSample mv s).Inv := .next h.update.raiseSag.noteSensors

theorem State.Inv.resumeStopped (h : s.Inv) : s.resumeStopped.Inv :=
  .pumpAll (.issueAll (.foldl h fun _ _ h1 => h1.grantTokens))

theorem execSagStageLeave_inv (h : s.Inv) : (execSagStageLeave s).Inv :=
  .ite h (.ite (.next h.update.tryLeave.noteSensors) (.next h.update.resumeStopped.noteSensors))

theorem execDramRailLow_inv {vddMv vppMv} (h : s.Inv) : (execDramRailLow vddMv vppMv s).Inv :=
  .next h.update.raiseSag.noteSensors

theorem execWeightCalibration_inv {estimated measured} (h : s.Inv) :
    (execWeightCalibration estimated measured s).Inv :=
  .next h.update

theorem State.Inv.setDerate {d k} (h : s.Inv) : (s.setDerate d k).Inv := h.modDom.update

theorem State.Inv.pathAct {d temp8 k} (h : s.Inv) : (s.pathAct d temp8 k).Inv :=
  .ite (.ite h.event.failRegulator h.event) h.event.setDerate

theorem execPathResistanceCheck_inv {domain microohm currentMa temp8} (h : s.Inv) :
    (execPathResistanceCheck domain microohm currentMa temp8 s).Inv :=
  .ite h (.ite (.next h.setDom) (.ite (.next (.issueAll (.pathAct (.ite h.setDom.update h.setDom)))) (.ite (.next
    (.setDerate (.ite h.setDom.update h.setDom))) (.next (.ite h.setDom.update h.setDom)))))

theorem execTelemetryRecord_inv {x} (h : s.Inv) : (execTelemetryRecord x s).Inv := .ite h (.next h.hostWrite.update)

theorem execRegulatorSample_inv {domain mv ma} (h : s.Inv) : (execRegulatorSample domain mv ma s).Inv :=
  .next h.setDom

/-! ### Debug -/

theorem execDebugUnlockWrite_inv {value} (h : s.Inv) : (execDebugUnlockWrite value s).Inv := .ite h (.next h.update)
theorem State.Inv.unlock {o} (h : s.Inv) : (s.unlock o).Inv := h.update.noteSensors.renewNonce

theorem execUnlockCheckDone_inv {o} (h : s.Inv) : (execUnlockCheckDone o s).Inv :=
  .ite h (.ite (.next h.update.unlock) (.next h.update))

theorem State.Inv.endUnlock (h : s.Inv) : s.endUnlock.Inv := .ite h.lockDebug.renewNonce h
theorem execDebugLock_inv (h : s.Inv) : (execDebugLock s).Inv := .next h.endUnlock
theorem execUnlockExpiry_inv (h : s.Inv) : (execUnlockExpiry s).Inv := .next h.endUnlock
theorem State.Inv.setSlot {i x} (h : s.Inv) : (s.setSlot i x).Inv := h.update

theorem State.Inv.writeSlotCtrl {i value} (h : s.Inv) : (s.writeSlotCtrl i value).Inv :=
  .ite (.ite h h.endForced.setSlot) (.ite h (.ite h.beginForced.setSlot h.setSlot))

theorem execSlotArm_inv {i value} (h : s.Inv) : (execSlotArm i value s).Inv := .next h.writeSlotCtrl

theorem State.Inv.writeSlotWord {i off v} (h : s.Inv) : (s.writeSlotWord i off v).Inv := .ite h (by
    split
    · exact h.setSlot
    · exact h.setSlot
    · exact h.setSlot
    · exact h)

theorem State.Inv.writeSlotWide {i off v} (h : s.Inv) : (s.writeSlotWide i off v).Inv :=
  .ite h (.ite h.setSlot h.setSlot)

theorem execSlotCountExpiry_inv {i} (h : s.Inv) : (execSlotCountExpiry i s).Inv :=
  .ite (.next h.endForced.setSlot) (.next h)

/-! ### Start -/

theorem State.Inv.volatileLost (h : s.Inv) : s.volatileLost.Inv :=
  ⟨Memory.wf_nil, Memory.wf_nil, h.host, h.events, Nat.zero_le _, h.records, h.logs⟩

theorem State.Inv.orderlyStop (h : s.Inv) : s.orderlyStop.Inv := h.update
theorem State.Inv.fullReset (h : s.Inv) : s.fullReset.Inv := h.orderlyStop.volatileLost

theorem State.Inv.writeResetCtrl {ctrl} (h : s.Inv) : (s.writeResetCtrl ctrl).Inv :=
  .ite h.update.fullReset (.ite (.holdActs (.ite h.update.requestReset h.update)) (.ite (.tryLeave (.ite
    h.update.requestReset h.update)) (.ite h.update.requestReset h.update)))

theorem execComputeResetRequest_inv {ctrl} (h : s.Inv) : (execComputeResetRequest ctrl s).Inv :=
  .next h.writeResetCtrl

theorem execResetHoldSet_inv {ctrl} (h : s.Inv) : (execResetHoldSet ctrl s).Inv := .next h.writeResetCtrl
theorem execResetHoldClear_inv {ctrl} (h : s.Inv) : (execResetHoldClear ctrl s).Inv := .next h.writeResetCtrl
theorem execFullResetRequest_inv {ctrl} (h : s.Inv) : (execFullResetRequest ctrl s).Inv := .next h.writeResetCtrl
theorem State.Inv.takeIdentity (h : s.Inv) : s.takeIdentity.Inv := .ite h.update h.update.event

theorem State.Inv.loadPaths (h : s.Inv) : s.loadPaths.Inv :=
  .foldl (.foldl h fun _ _ h1 => h1.modDom) fun _ _ h1 => h1.modDom

theorem State.Inv.runStart (h : s.Inv) : s.runStart.Inv :=
  .ite (.takeIdentity (.foldl h.update.volatileLost.update.loadPaths.update fun _ _ h1 => h1.applyDefect)) (.foldl
    h.update.volatileLost.update.loadPaths.update fun _ _ h1 => h1.applyDefect)

theorem execStart_inv (h : s.Inv) : (execStart s).Inv := .ite h (.ite (.next h.update) (.next h.runStart))
theorem execTrayResetRelease_inv (h : s.Inv) : (execTrayResetRelease s).Inv := .next (.ite h.update.runStart h.update)
theorem State.Inv.domainsOnBypass (h : s.Inv) : s.domainsOnBypass.Inv := .foldl h fun _ _ h1 => .ite h1 h1.modDom
theorem State.Inv.tryStep2 (h : s.Inv) : s.tryStep2.Inv := .ite h.update.domainsOnBypass h
theorem execCoreRailsPresent_inv (h : s.Inv) : (execCoreRailsPresent s).Inv := .next h.update.tryStep2.noteSensors
theorem State.Inv.closeDune (h : s.Inv) : s.closeDune.Inv := .ite h.update h
theorem execDramRailsPresent_inv (h : s.Inv) : (execDramRailsPresent s).Inv := .next h.update.closeDune.noteSensors
theorem State.Inv.ownRegulators (h : s.Inv) : s.ownRegulators.Inv := .foldl h fun _ _ h1 => h1.modDom
theorem State.Inv.beginWaiting (h : s.Inv) : s.beginWaiting.Inv := .ite h.beginEpoch h

theorem State.Inv.train {xs} (h : s.Inv) : (s.train xs).Inv :=
  .foldl h.setDelays.takeFindings fun _ _ h1 => h1.noteTunes

theorem State.Inv.writeKernels (h : s.Inv) : s.writeKernels.Inv := .foldl h fun _ _ h1 => .ite h1 h1.modCore
theorem State.Inv.trainPorts (h : s.Inv) : s.trainPorts.Inv := .foldl h fun _ _ h1 => .ite h1.modPort h1

theorem execStartStepDone_inv {found} (h : s.Inv) : (execStartStepDone found s).Inv := .ite h (by
    dsimp only
    split
    · exact .next h.update.takeIdentity.tryStep2.noteSensors
    · exact .next h.takeFindings.update.closeDune.trainPorts.beginWaiting.noteSensors
    · exact .ite (.next h.takeFindings.train.update.noteSensors) (.next h)
    · exact .next h.takeFindings.regulatorsTested.ownRegulators.writeKernels.update.noteSensors
    · exact .next h)

theorem execDeviceReady_inv (h : s.Inv) : (execDeviceReady s).Inv :=
  .ite h (.next (.noteSensors (.ite (.ite h.update h.update.event) (.event (.ite h.update h.update.event)))))

theorem execPendingDefectRecord_inv (h : s.Inv) : (execPendingDefectRecord s).Inv := .ite h (by
    split
    · exact h
    · exact .next h.update)

theorem execVauxLoss_inv (h : s.Inv) : (execVauxLoss s).Inv :=
  ⟨Memory.wf_nil, Memory.wf_nil, h.host, h.events, Nat.zero_le _, Nat.zero_le _, h.oasBounded.powerFail.2⟩

theorem execTrayReset_inv (h : s.Inv) : (execTrayReset s).Inv := .next h.update.fullReset

theorem execVinCoreCollapse_inv (h : s.Inv) : (execVinCoreCollapse s).Inv := by
  unfold execVinCoreCollapse
  extract_lets -underBinder s1 src pwr s2
  have h1 : s1.Inv := h.update
  clear_value s1
  have hsrc : src.Inv := h1.volatileLost
  clear_value src
  have h2 : s2.Inv := .update (s := { src with dram := s1.dram }) (.setDram hsrc h1.dram)
  clear_value s2
  exact .next (.noteSensors h2.update)

theorem execRefclkLoss_inv (h : s.Inv) : (execRefclkLoss s).Inv :=
  .next (.event (.foldl h.update fun _ _ h1 => h1.portDown))

theorem execVbypOutOfRange_inv (h : s.Inv) : (execVbypOutOfRange s).Inv :=
  .next (.noteSensors (.ite h.update.event h.update))

/-! ### Thermal -/

theorem State.Inv.setQuota {n d q} (h : s.Inv) : (s.setQuota n d q).Inv := h.update
theorem State.Inv.thermalEvent {kind cls unit value} (h : s.Inv) : (s.thermalEvent kind cls unit value).Inv := h.event

theorem State.Inv.emergencySettings {k} (h : s.Inv) : (s.emergencySettings k).Inv :=
  .ite (.foldl h fun _ _ h1 => h1.setIsland) (.ite (.foldl h fun _ _ h1 => h1.setIsland) (.foldl h fun _ _ h1 =>
    h1.setQuota))

theorem State.Inv.emergency {k temp} (h : s.Inv) : (s.emergency k temp).Inv :=
  .ite h h.setSensor.emergencySettings.update.thermalEvent.ctrAdd

theorem State.Inv.trip {source isNode temp} (h : s.Inv) : (s.trip source isNode temp).Inv :=
  .ite h h.update.enterSelfRefresh.thermalEvent

theorem State.Inv.compareTemp {k temp raw} (h : s.Inv) : (s.compareTemp k temp raw).Inv :=
  .ite (.trip (.ite h.emergency h)) (.ite h.emergency h)

theorem execSensorConversion_inv {sensor temp8} (h : s.Inv) : (execSensorConversion sensor temp8 s).Inv :=
  .ite h (.next (.noteSensors (.ite h.setSensor.compareTemp h.setSensor)))

theorem execEmergencyClear_inv {sensor} (h : s.Inv) : (execEmergencyClear sensor s).Inv :=
  .ite (.next h.setSensor.update.noteSensors) (.next h)

theorem execThermalTrip_inv {source isNode temp8} (h : s.Inv) : (execThermalTrip source isNode temp8 s).Inv :=
  .ite (.next h.trip.noteSensors) (.next h)

theorem State.Inv.suspectEvent {k x} (h : s.Inv) : (s.suspectEvent k x).Inv := h.event

theorem State.Inv.judgeSensor {k} (h : s.Inv) : (s.judgeSensor k).Inv :=
  .ite h.setSensor (.ite (.ite h.setSensor h.setSensor.suspectEvent.ctrAdd) (.ite h.setSensor
    h.setSensor.suspectEvent))

theorem State.Inv.judgePair {n} (h : s.Inv) : (s.judgePair n).Inv :=
  .ite h (.ite (.ite h.setIsland h.setIsland.event.ctrAdd) (.ite h.setIsland h))

theorem State.Inv.correctNodes (h : s.Inv) : s.correctNodes.Inv := h.update

theorem State.Inv.setQuotas {emerg n} (h : s.Inv) : (s.setQuotas emerg n).Inv :=
  .foldl h fun _ _ h1 => .ite h1.setQuota h1.setQuota

theorem State.Inv.setIslandLimit {emerg hamada n} (h : s.Inv) : (s.setIslandLimit emerg hamada n).Inv :=
  h.setIsland.ctrAdd

theorem State.Inv.guardNodes (h : s.Inv) : s.guardNodes.Inv :=
  .foldl h fun _ _ h1 => .foldl h1 fun _ _ h2 => .ite h2 (.ite (.trip (.ite h2.emergency h2)) (.ite h2.emergency h2))

theorem State.Inv.hotTiers (h : s.Inv) : s.hotTiers.Inv := .foldl h fun _ _ h1 => .ite h1.setTier h1

theorem execRefreshRateRestore_inv {vault tier} (h : s.Inv) : (execRefreshRateRestore vault tier s).Inv :=
  .ite (.next h.setTier) (.next h)

theorem State.Inv.bondCheckpoint (h : s.Inv) : s.bondCheckpoint.Inv := h.update

theorem State.Inv.bondSample (h : s.Inv) : s.bondSample.Inv :=
  .ite (.event (.ite (.event (.ite h.update.bondCheckpoint h.update)) (.ite h.update.bondCheckpoint h.update))) (.ite
    (.event (.ite h.update.bondCheckpoint h.update)) (.ite h.update.bondCheckpoint h.update))

theorem execBondCheckpoint_inv (h : s.Inv) : (execBondCheckpoint s).Inv := .next h.bondCheckpoint
theorem State.Inv.joinWindows (h : s.Inv) : s.joinWindows.Inv := h.update

theorem State.Inv.evaluateModel {power} (h : s.Inv) : (s.evaluateModel power).Inv :=
  .update (.joinWindows (.correctNodes (.foldl (.foldl h.update fun _ _ h1 => h1.judgeSensor) fun _ _ h1 =>
    h1.judgePair)))

theorem State.Inv.evaluateControl (h : s.Inv) : s.evaluateControl.Inv :=
  .guardNodes (.foldl h fun _ _ h1 => h1.setIslandLimit.setQuotas)

theorem execThermalEvaluation_inv {power} (h : s.Inv) : (execThermalEvaluation power s).Inv :=
  .next (.noteSensors (.ctrAdd (.foldl (.bondSample (.foldl h.evaluateModel.evaluateControl.hotTiers fun _ _ h1 =>
    h1.retuneTest)) fun _ _ h1 => h1.grantTokens)))

theorem State.Inv.markTier {layer b tier qMeas qModel} (h : s.Inv) : (s.markTier layer b tier qMeas qModel).Inv :=
  .ite h (.event (.ite (.update (.foldl h fun _ _ h1 => .ite h1 h1.setSensor)) (.foldl (.update (.foldl h fun _ _ h1
    => .ite h1 h1.setSensor)) fun _ _ h1 => h1.setQuota)))

theorem State.Inv.wadiBand {x} (h : s.Inv) : (s.wadiBand x).Inv :=
  .ite (.markTier (.ite h.update.event h.update)) (.ite h.update.event h.update)

theorem execWadiResidualCheck_inv {evaluation} (h : s.Inv) : (execWadiResidualCheck evaluation s).Inv :=
  .ite h (.next (.update (.foldl h fun _ _ h1 => .ite h1.wadiBand h1)))

theorem State.Inv.setFlowPower (h : s.Inv) : s.setFlowPower.Inv := .ite h.update.thermalEvent h.update

theorem execTraySensorPoll_inv {r} (h : s.Inv) : (execTraySensorPoll r s).Inv :=
  .ite h (.next h.update.setFlowPower.noteSensors)

theorem execTrayReadingStale_inv {flow} (h : s.Inv) : (execTrayReadingStale flow s).Inv :=
  .ite h (.next (.noteSensors (.setFlowPower (.thermalEvent (.ite h.update h.update)))))

theorem State.Inv.loseFlow (h : s.Inv) : s.loseFlow.Inv := .ite h h.update.enterSelfRefresh.thermalEvent
theorem execFlowLost_inv (h : s.Inv) : (execFlowLost s).Inv := .next h.update.loseFlow.noteSensors

theorem execLowFlowTimeout_inv (h : s.Inv) : (execLowFlowTimeout s).Inv :=
  .ite (.next h.update.loseFlow.noteSensors) (.next h)

theorem execFlowLossTimeout_inv (h : s.Inv) : (execFlowLossTimeout s).Inv :=
  .ite h (.next h.update.thermalEvent.noteSensors)

theorem execFlowRestored_inv (h : s.Inv) : (execFlowRestored s).Inv :=
  .ite (.next h.update) (.next (.noteSensors (.resumeStopped (.ite h.update.leaveSelfRefresh h.update))))

/-! ### Registers -/

theorem execCounterLowRead_inv {offset} (h : s.Inv) : (execCounterLowRead offset s).Inv :=
  .ite (.next h.ctrAdd) (.ite (.next h.update) (.ite (.next h.update) (.next h)))

theorem State.Inv.put64 {off v} (h : s.Inv) : (s.put64 off v).Inv := by
  unfold State.put64
  split
  · exact h.writeEpochCtrl
  · exact h.update
  · exact h.update
  · exact h.update
  · exact h.update
  · exact h.update
  · exact h.update
  · exact h.update
  · exact h.update
  · exact h.update
  · exact h.update
  · exact h.update
  · exact h.update
  · exact .ite h h.update
  · exact .ite h.writeSlotWide h

theorem State.Inv.putHalf {base off v cur} (h : s.Inv) : (s.putHalf base off v cur).Inv :=
  .ite (.ite h.update h.put64) (.ite h.update.put64 h.put64)

theorem State.Inv.putMsix {k v} (h : s.Inv) : (s.putMsix k v).Inv := .ite h.update.raiseMsix h.update

theorem State.Inv.putAdmin {on} (h : s.Inv) : (s.putAdmin on).Inv :=
  .ite (execAdminEnable_inv h) (execAdminDisable_inv h)

theorem State.Inv.putPwr {o v} (h : s.Inv) : (s.putPwr o v).Inv := by
  unfold State.putPwr
  split
  · exact h.setHostCap
  · exact h.update
  · exact h.update
  · exact h.update
  · exact h

theorem State.Inv.putThm {o v} (h : s.Inv) : (s.putThm o v).Inv := by
  unfold State.putThm
  split
  · exact h.update
  · exact h.update
  · exact .ite h.update h.update
  · exact h.update
  · exact h

theorem State.Inv.putErr {o v} (h : s.Inv) : (s.putErr o v).Inv :=
  .ite (.next h.update) (.ite (.ite (execRawRead_inv h) (execRawWrite_inv h)) (.ite (.next h.update) (.ite (.next
    h.update) (.ite (.next h.update) (.ite (execStressStart_inv h) (.next h))))))

theorem State.Inv.putLnk {o v} (h : s.Inv) : (s.putLnk o v).Inv :=
  .ite (.ite h.update h) (.ite h.update (.ite h.update (.ite h.update (.ite h.update h))))

theorem State.Inv.putCmd {o v} (h : s.Inv) : (s.putCmd o v).Inv :=
  .ite h.putAdmin (.ite (.next h.update) (.ite (.next h.update) (.ite (execWaitTimeoutWrite_inv h) (.ite (.next
    h.putMsix) (.next h)))))

theorem State.Inv.put32 {off v} (h : s.Inv) : (s.put32 off v).Inv := by
  unfold State.put32
  split
  · exact .ite (.next h.update) (.ite (.next h.writeResetCtrl) (.next h))
  · exact h.putCmd
  · exact .ite (.next h) (.next h.update)
  · exact .ite (.next h.update) (.next h)
  · exact .ite (.next h.update) (.next h)
  · exact .next h.putLnk
  · exact .ite (.next h.update) (.next h)
  · exact .next h.putPwr
  · exact .next h.putThm
  · exact h.putErr
  · exact .ite (.next (.ite h.endUnlock h)) (.ite (.ite (.next h.writeSlotCtrl) (.next h.writeSlotWord)) (.next h))
  · exact .next h

theorem State.Inv.writeWord {off v} (h : s.Inv) : (s.writeWord off v).Inv := by
  unfold State.writeWord
  split
  · exact .next (.ite h h.putHalf)
  · exact h.put32

theorem State.Inv.writeDword {off v} (h : s.Inv) : (s.writeDword off v).Inv := by
  unfold State.writeDword
  split
  · exact .next (.ite h h.update.put64)
  · have h1 : (s.put32 off (v % 2 ^ 32)).Inv := h.put32
    split
    · rename_i t ht
      rw [ht] at h1
      exact State.Inv.put32 h1
    · exact h1

theorem execRegisterWrite_inv {offset size value} (h : s.Inv) : (execRegisterWrite offset size value s).Inv :=
  .ite h (.ite h.writeWord (.ite h.writeDword (.next h.ctrAdd)))

/-! ### Manage -/

theorem execDynamicAddressAssignment_inv {address} (h : s.Inv) : (execDynamicAddressAssignment address s).Inv :=
  .ite (.next h.update) (.next h)

theorem execSetEndpointId_inv {eid} (h : s.Inv) : (execSetEndpointId eid s).Inv :=
  .ite h (.ite (.next h.reply) (.next h.update.reply))

theorem execMctpBridge_inv {fromPort destEid device neighbour message} (h : s.Inv) :
    (execMctpBridge fromPort destEid device neighbour message s).Inv :=
  .ite h (.ite (.ite (.next h) (.next h.update)) (by
    split
    · exact .next h.update.emit
    · exact .next h.emitOn
    · exact .ite (.next h.update) (.next h)))

theorem State.Inv.readFree (h : s.Inv) : s.readFree.Inv := h.reply.tookFree

theorem execGetSensorReading_inv {id} (h : s.Inv) : (execGetSensorReading id s).Inv := by
  have hv : ∀ v, Answer.Inv (.next (s.reply v)) := fun _ => h.reply
  unfold execGetSensorReading
  extract_lets -lift -underBinder val missing oas m
  refine .ite h (.ite (.ite (hv _) (hv _)) (.ite ?_ (.ite (.ite (hv _) (hv _)) (.ite (.ite (hv _) (hv _))
    (.ite (hv _) (.ite (hv _) (.ite (hv _) (.ite (.next h.readFree) (.ite (hv _) ?_)))))))))
  · refine .ite (hv _) ?_
    split
    · exact .next h.setDom.reply
    · exact hv _
  · split <;> exact hv _

theorem execSetNumericEffecterValue_inv {id value} (h : s.Inv) : (execSetNumericEffecterValue id value s).Inv :=
  .ite h (.ite (.next h.reply) (.ite (.next h.reply) (.next h.setMgtCap.reply)))

theorem execSetStateEffecter_inv {id value} (h : s.Inv) : (execSetStateEffecter id value s).Inv :=
  .ite h (.ite (.next h.reply) (.next h.update.reply))

theorem execSetEventReceiver_inv {eid} (h : s.Inv) : (execSetEventReceiver eid s).Inv := .ite h (.next h.update.reply)

theorem execPlatformEventMessage_inv (h : s.Inv) : (execPlatformEventMessage s).Inv := by
  unfold execPlatformEventMessage
  split
  · exact .ite (.next h) (.next h.update.reply)
  · exact .next h

theorem execRequestUpdate_inv {component} (h : s.Inv) : (execRequestUpdate component s).Inv :=
  .ite h (.ite (.next h.reply) (.ite (.next h.reply) (.next h.update.reply)))

theorem Boot.setComponent_events (b : Boot) (k : Nat) (c : Copy × Copy) : (b.setComponent k c).events = b.events := by
  unfold Boot.setComponent
  split
  · rfl
  · split <;> rfl

theorem execFirmwareTransfer_inv {component version minor image kinds} (h : s.Inv) :
    (execFirmwareTransfer component version minor image kinds s).Inv := by
  unfold execFirmwareTransfer
  split
  · exact .next h.reply
  · exact .ite (.next h.reply) (.next (.reply (h.update (hb := Boot.setComponent_events ..))))

theorem execVerifyComplete_inv {o} (h : s.Inv) : (execVerifyComplete o s).Inv := by
  unfold execVerifyComplete
  split
  · exact .next h.reply
  · exact .ite (.next h.reply) (.next (.reply (h.update (hb := Boot.setComponent_events ..))))

theorem State.Inv.imageRecords {kinds} (h : s.Inv) : (s.imageRecords kinds).Inv := h.update

theorem execActivateFirmware_inv (h : s.Inv) : (execActivateFirmware s).Inv := by
  unfold execActivateFirmware
  split
  · exact .next h.reply
  · refine .ite (.next h.reply) ?_
    extract_lets -underBinder c mgt s1
    have h1 : s1.Inv := h.update (hb := Boot.setComponent_events ..)
    exact .next (State.Inv.reply (.ite h1.imageRecords h1))

theorem execMgtComputeReset_inv {function} (h : s.Inv) : (execMgtComputeReset function s).Inv := .ite h (by
    split
    · exact .next h.requestReset.reply
    · exact .next (.reply (.ite h.update h.update.holdActs))
    · exact .next h.update.tryLeave.reply
    · exact .next h.reply)

theorem execMgtFullReset_inv (h : s.Inv) : (execMgtFullReset s).Inv := .ite (.next h.fullReset) (.next h)

theorem execMgtStressTest_inv {ctrl} (h : s.Inv) : (execMgtStressTest ctrl s).Inv :=
  .ite h (.next h.update.stressBegin.update.reply)

theorem execMgtRequestEpoch_inv {ctrl} (h : s.Inv) : (execMgtRequestEpoch ctrl s).Inv :=
  .ite h (.next h.update.requestEpoch.update.reply)

theorem execReadEventLog_inv {fromSeq} (h : s.Inv) : (execReadEventLog fromSeq s).Inv :=
  .ite (.next h.reply) (.next h)

theorem execReadOasisRecords_inv {fromSecond isLog} (h : s.Inv) : (execReadOasisRecords fromSecond isLog s).Inv :=
  .ite h (.ite (.next h.reply) (by split <;> exact .next h.reply))

theorem execReadDbgNonce_inv (h : s.Inv) : (execReadDbgNonce s).Inv := .ite (.next h.reply) (.next h)
theorem State.Inv.maintDone {function} (h : s.Inv) : (s.maintDone function).Inv := h.update.renewNonce.reply
theorem State.Inv.removeEntries {o} (h : s.Inv) : (s.removeEntries o).Inv := h.update
theorem State.Inv.clearWear (h : s.Inv) : s.clearWear.Inv := h.update

theorem State.Inv.replaceBaselines {o} (h : s.Inv) : (s.replaceBaselines o).Inv :=
  .foldl h fun _ _ h1 => .ite h1.modDom.update h1

theorem State.Inv.factoryWeights (h : s.Inv) : s.factoryWeights.Inv := h.update

theorem State.Inv.maintain {o function f} (h : s.Inv) (hf : (f s).Inv) : (s.maintain o function f).Inv :=
  .ite h (.ite (.next hf.maintDone) (.next h.reply))

theorem execRemoveDefectEntries_inv {o} (h : s.Inv) : (execRemoveDefectEntries o s).Inv := h.maintain h.removeEntries
theorem execClearBondWear_inv {o} (h : s.Inv) : (execClearBondWear o s).Inv := h.maintain h.clearWear

theorem execReplacePathBaseline_inv {o} (h : s.Inv) : (execReplacePathBaseline o s).Inv :=
  h.maintain h.replaceBaselines

theorem execRestoreFactoryWeights_inv {o} (h : s.Inv) : (execRestoreFactoryWeights o s).Inv :=
  h.maintain h.factoryWeights

theorem execPortRetrain_inv {port o} (h : s.Inv) : (execPortRetrain port o s).Inv :=
  .ite h (.ite (.next h.reply) (.ite (.next h.setPort.maintDone) (.next h.maintDone)))

theorem execSubmitSignedObject_inv {o} (h : s.Inv) : (execSubmitSignedObject o s).Inv := by
  unfold execSubmitSignedObject
  refine .ite h (.ite (.next h.reply) (.ite (.next h.unlock.reply) (.ite ?_ (.next h.reply))))
  split
  · exact h.maintain h.removeEntries
  · exact h.maintain h.clearWear
  · exact h.maintain h.replaceBaselines
  · exact h.maintain h.factoryWeights
  · exact .next h.reply

theorem State.Inv.spdm (h : s.Inv) : s.spdm.Inv := h.update

theorem execChallenge_inv {nonce} (h : s.Inv) : (execChallenge nonce s).Inv :=
  .ite h (.ite (.next h.spdm.reply) (.next h.spdm.reply))

theorem execGetMeasurements_inv {indices nonce} (h : s.Inv) : (execGetMeasurements indices nonce s).Inv :=
  .ite h (.ite (.next h.spdm.reply) (.next h.update.reply))

theorem execGetPqSignature_inv (h : s.Inv) : (execGetPqSignature s).Inv := .ite h (by
    split
    · exact .next h.spdm.reply
    · exact .next h.reply)

theorem execKeyExchange_inv {exchange} (h : s.Inv) : (execKeyExchange exchange s).Inv :=
  .ite h (.ite (.next h.spdm.reply) (.next h.spdm.update.reply))

theorem execFinish_inv {verifyData macOk} (h : s.Inv) : (execFinish verifyData macOk s).Inv :=
  .ite h (.ite (.next h.spdm.reply) (.ite (.next h.spdm.update.reply) (.next h.spdm.update.reply)))

/-! ### Meter -/

theorem execSealOpen_inv (h : s.Inv) : (execSealOpen s).Inv :=
  .next (.ite (.setOasis h.update h.oasBounded.openSeal) h.update)

theorem execSealClose_inv (h : s.Inv) : (execSealClose s).Inv :=
  .next (.ite (.setOasis h.update h.oasBounded.closeSeal) h.update)

theorem execOasisImageLoad_inv {version complete edOk mlOk} (h : s.Inv) :
    (execOasisImageLoad version complete edOk mlOk s).Inv :=
  .ite h (.ite (.next (h.setOasis h.oasBounded)) (.ite (.next (h.setOasis (.note h.oasBounded _ _)))
    (.next (h.setOasis (.note h.oasBounded _ _)))))

theorem execOasisParameterChange_inv {params} (h : s.Inv) : (execOasisParameterChange params s).Inv :=
  .ite (.next (h.setOasis h.oasBounded)) h

theorem execOasisClockSet_inv {micros} (h : s.Inv) : (execOasisClockSet micros s).Inv :=
  .ite (.next (h.setOasis h.oasBounded)) h

theorem execOasisSample_inv {r} (h : s.Inv) : (execOasisSample r s).Inv := by
  unfold execOasisSample
  extract_lets -underBinder o o1 o2
  have h2 : o2.Bounded := Oasis.Bounded.noteRange (o := o1) h.oasBounded r
  clear_value o2
  refine .ite h (.next (h.setOasis ?_))
  split
  · exact h2.note _ _
  · exact h2

theorem execIntervalClose_inv (h : s.Inv) : (execIntervalClose s).Inv :=
  .ite h (.next (h.setOasis (.applyChanges ⟨List.length_take_le _ _, h.logs⟩)))

theorem execOasisCommit_inv (h : s.Inv) : (execOasisCommit s).Inv :=
  .ite (.next (h.setOasis h.oasBounded.commit)) h

theorem execOasisPowerFail_inv (h : s.Inv) : (execOasisPowerFail s).Inv :=
  .next (h.setOasis h.oasBounded.powerFail)

theorem execOasisStart_inv (h : s.Inv) : (execOasisStart s).Inv := by
  unfold execOasisStart
  extract_lets -underBinder o o1 o2
  have ho : o.Bounded := by
    unfold o
    split <;> exact h.oasBounded
  have h2 : o2.Bounded := Oasis.Bounded.note (o := o1) ho _ _
  clear_value o2
  refine .ite h (.next (h.setOasis ?_))
  split
  · exact h2.openSeal
  · exact h2.closeSeal

theorem execOasisRecordReceive_inv (h : s.Inv) : (execOasisRecordReceive s).Inv := by
  unfold execOasisRecordReceive
  extract_lets o
  split
  · exact h
  · exact .ite h (.next (State.Inv.noteSensors (h.setOasis h.oasBounded)))

/-! ### Every command -/

theorem exec_inv (c : Instr) (h : s.Inv) : Answer.Inv (exec c s) :=
  match c with
  | .snoopInvalidate .. => execSnoopInvalidate_inv h
  | .doorbellReread .. => execDoorbellReread_inv h
  | .pollTimer => execPollTimer_inv h
  | .fetchComplete .. => execFetchComplete_inv h
  | .clauseStart .. => execClauseStart_inv h
  | .shareFinish .. => execShareFinish_inv h
  | .clauseComplete .. => execClauseComplete_inv h
  | .msixHoldoffExpiry .. => execMsixHoldoffExpiry_inv h
  | .waitTimeout .. => execWaitTimeout_inv h
  | .matrixProduct .. => execMatrixProduct_inv h
  | .elementWiseChain .. => execElementWiseChain_inv h
  | .nearBankMatrixVector .. => execNearBankMatrixVector_inv h
  | .attentionForward .. => execAttentionForward_inv h
  | .attentionBackward .. => execAttentionBackward_inv h
  | .decodeAttention .. => execDecodeAttention_inv h
  | .keyValueAppend .. => execKeyValueAppend_inv h
  | .kvEvictClose .. => execKvEvictClose_inv h
  | .kvEvictTruncate .. => execKvEvictTruncate_inv h
  | .deferredPageFree .. => execDeferredPageFree_inv h
  | .copy .. => execCopy_inv h
  | .reduce .. => execReduce_inv h
  | .allReduce .. => execAllReduce_inv h
  | .reduceScatter .. => execReduceScatter_inv h
  | .allGather .. => execAllGather_inv h
  | .broadcast .. => execBroadcast_inv h
  | .decide .. => execDecide_inv h
  | .apply .. => execApply_inv h
  | .release .. => execRelease_inv h
  | .waveRelease .. => execWaveRelease_inv h
  | .waveTimeout .. => execWaveTimeout_inv h
  | .slowApplication .. => execSlowApplication_inv h
  | .digest .. => execDigest_inv h
  | .audit .. => execAudit_inv h
  | .scrub .. => execScrub_inv h
  | .configure .. => execConfigure_inv h
  | .dissolve .. => execDissolve_inv h
  | .loadKernel .. => execLoadKernel_inv h
  | .loadKernelStandard .. => execLoadKernelStandard_inv h
  | .fence .. => execFence_inv h
  | .fenceSet .. => execFenceSet_inv h
  | .resume .. => execResume_inv h
  | .skip .. => execSkip_inv h
  | .flush .. => execFlush_inv h
  | .close .. => execClose_inv h
  | .adminEnable .. => execAdminEnable_inv h
  | .adminDisable .. => execAdminDisable_inv h
  | .waitTimeoutWrite .. => execWaitTimeoutWrite_inv h
  | .registerWrite .. => execRegisterWrite_inv h
  | .counterLowRead .. => execCounterLowRead_inv h
  | .hostMemRead .. => execHostMemRead_inv h
  | .hostMemWrite .. => execHostMemWrite_inv h
  | .hostRequestPromoted .. => execHostRequestPromoted_inv h
  | .deferredWriteRetry .. => execDeferredWriteRetry_inv h
  | .heldRequestTimeout => execHeldRequestTimeout_inv h
  | .imemUncorrectable .. => execImemUncorrectable_inv h
  | .kernelStoreRefill => execKernelStoreRefill_inv h
  | .parenAdmit .. => execParenAdmit_inv h
  | .contextYield .. => execContextYield_inv h
  | .playaRetuneDone .. => execPlayaRetuneDone_inv h
  | .burstReturn .. => execBurstReturn_inv h
  | .laneTest .. => execLaneTest_inv h
  | .spareTrained .. => execSpareTrained_inv h
  | .combineWindowExpiry .. => execCombineWindowExpiry_inv h
  | .refreshDue .. => execRefreshDue_inv h
  | .refreshIssue .. => execRefreshIssue_inv h
  | .refreshComplete .. => execRefreshComplete_inv h
  | .refreshRateRestore .. => execRefreshRateRestore_inv h
  | .pageRepair .. => execPageRepair_inv h
  | .pageRepairDone .. => execPageRepairDone_inv h
  | .engineStepBoundary .. => execEngineStepBoundary_inv h
  | .stagingDone .. => execStagingDone_inv h
  | .mergeDone .. => execMergeDone_inv h
  | .engineFault .. => execEngineFault_inv h
  | .meshPacket .. => execMeshPacket_inv h
  | .flitCrcFail .. => execFlitCrcFail_inv h
  | .ctrlMsgPromotion .. => execCtrlMsgPromotion_inv h
  | .barrierArrive .. => execBarrierArrive_inv h
  | .flagContribute .. => execFlagContribute_inv h
  | .timeTick .. => execTimeTick_inv h
  | .slotReserve .. => execSlotReserve_inv h
  | .reductionFlitArrive .. => execReductionFlitArrive_inv h
  | .reduceTimeout .. => execReduceTimeout_inv h
  | .bufferContribution .. => execBufferContribution_inv h
  | .fieldFault .. => execFieldFault_inv h
  | .frameReceive .. => execFrameReceive_inv h
  | .replayTimer .. => execReplayTimer_inv h
  | .laneFail .. => execLaneFail_inv h
  | .laneRetrainDone .. => execLaneRetrainDone_inv h
  | .portDown .. => execPortDown_inv h
  | .ackStallTimeout .. => execAckStallTimeout_inv h
  | .resentFrameExpiry .. => execResentFrameExpiry_inv h
  | .poolWaitExpiry .. => execPoolWaitExpiry_inv h
  | .identReceive .. => execIdentReceive_inv h
  | .timeWave => execTimeWave_inv h
  | .timeFrameReceive .. => execTimeFrameReceive_inv h
  | .syncUp .. => execSyncUp_inv h
  | .syncDown .. => execSyncDown_inv h
  | .redUp .. => execRedUp_inv h
  | .redDown .. => execRedDown_inv h
  | .collectiveAbort .. => execCollectiveAbort_inv h
  | .powerEstimate .. => execPowerEstimate_inv h
  | .weightCalibration .. => execWeightCalibration_inv h
  | .pathResistanceCheck .. => execPathResistanceCheck_inv h
  | .sagSample .. => execSagSample_inv h
  | .sagStageLeave => execSagStageLeave_inv h
  | .vinCoreCollapse => execVinCoreCollapse_inv h
  | .dramRailLow .. => execDramRailLow_inv h
  | .phaseFail .. => execPhaseFail_inv h
  | .regulatorFail .. => execRegulatorFail_inv h
  | .bridgeComplete .. => execBridgeComplete_inv h
  | .domainDark .. => execDomainDark_inv h
  | .idlePowerOff .. => execIdlePowerOff_inv h
  | .wakeRequest .. => execWakeRequest_inv h
  | .wakeTokenGrant .. => execWakeTokenGrant_inv h
  | .wakeWaitEnd .. => execWakeWaitEnd_inv h
  | .rampStage .. => execRampStage_inv h
  | .wakeComplete .. => execWakeComplete_inv h
  | .droopDetect .. => execDroopDetect_inv h
  | .droopRecover .. => execDroopRecover_inv h
  | .linkHoldEnd => execLinkHoldEnd_inv h
  | .brakeAssert .. => execBrakeAssert_inv h
  | .telemetryRecord .. => execTelemetryRecord_inv h
  | .regulatorSample .. => execRegulatorSample_inv h
  | .sensorConversion .. => execSensorConversion_inv h
  | .emergencyClear .. => execEmergencyClear_inv h
  | .thermalEvaluation .. => execThermalEvaluation_inv h
  | .bondCheckpoint => execBondCheckpoint_inv h
  | .wadiResidualCheck .. => execWadiResidualCheck_inv h
  | .traySensorPoll .. => execTraySensorPoll_inv h
  | .trayReadingStale .. => execTrayReadingStale_inv h
  | .lowFlowTimeout => execLowFlowTimeout_inv h
  | .flowLost => execFlowLost_inv h
  | .flowLossTimeout => execFlowLossTimeout_inv h
  | .flowRestored => execFlowRestored_inv h
  | .thermalTrip .. => execThermalTrip_inv h
  | .cacheParityError .. => execCacheParityError_inv h
  | .cperRecord => execCperRecord_inv h
  | .rawWrite .. => execRawWrite_inv h
  | .rawRead .. => execRawRead_inv h
  | .stressStart .. => execStressStart_inv h
  | .stressCornerDone .. => execStressCornerDone_inv h
  | .stressResult => execStressResult_inv h
  | .debugUnlockWrite .. => execDebugUnlockWrite_inv h
  | .unlockCheckDone .. => execUnlockCheckDone_inv h
  | .debugLock => execDebugLock_inv h
  | .unlockExpiry => execUnlockExpiry_inv h
  | .slotArm .. => execSlotArm_inv h
  | .slotCountExpiry .. => execSlotCountExpiry_inv h
  | .start => execStart_inv h
  | .coreRailsPresent => execCoreRailsPresent_inv h
  | .dramRailsPresent => execDramRailsPresent_inv h
  | .startStepDone .. => execStartStepDone_inv h
  | .deviceReady => execDeviceReady_inv h
  | .pendingDefectRecord => execPendingDefectRecord_inv h
  | .computeResetRequest .. => execComputeResetRequest_inv h
  | .resetHoldSet .. => execResetHoldSet_inv h
  | .resetHoldClear .. => execResetHoldClear_inv h
  | .resetEntryDone => execResetEntryDone_inv h
  | .resetLeaveDone .. => execResetLeaveDone_inv h
  | .fullResetRequest .. => execFullResetRequest_inv h
  | .epochRequest .. => execEpochRequest_inv h
  | .epochDrainDone => execEpochDrainDone_inv h
  | .epochApply => execEpochApply_inv h
  | .epochTimeout => execEpochTimeout_inv h
  | .epochCommit => execEpochCommit_inv h
  | .rootWaveTimeout .. => execRootWaveTimeout_inv h
  | .vauxLoss => execVauxLoss_inv h
  | .trayReset => execTrayReset_inv h
  | .setEndpointId .. => execSetEndpointId_inv h
  | .mctpBridge .. => execMctpBridge_inv h
  | .getSensorReading .. => execGetSensorReading_inv h
  | .setNumericEffecterValue .. => execSetNumericEffecterValue_inv h
  | .setStateEffecter .. => execSetStateEffecter_inv h
  | .setEventReceiver .. => execSetEventReceiver_inv h
  | .platformEventMessage => execPlatformEventMessage_inv h
  | .requestUpdate .. => execRequestUpdate_inv h
  | .firmwareTransfer .. => execFirmwareTransfer_inv h
  | .verifyComplete .. => execVerifyComplete_inv h
  | .activateFirmware => execActivateFirmware_inv h
  | .challenge .. => execChallenge_inv h
  | .getMeasurements .. => execGetMeasurements_inv h
  | .getPqSignature => execGetPqSignature_inv h
  | .keyExchange .. => execKeyExchange_inv h
  | .finish .. => execFinish_inv h
  | .mgtComputeReset .. => execMgtComputeReset_inv h
  | .mgtFullReset => execMgtFullReset_inv h
  | .mgtStressTest .. => execMgtStressTest_inv h
  | .mgtRequestEpoch .. => execMgtRequestEpoch_inv h
  | .submitSignedObject .. => execSubmitSignedObject_inv h
  | .removeDefectEntries .. => execRemoveDefectEntries_inv h
  | .clearBondWear .. => execClearBondWear_inv h
  | .replacePathBaseline .. => execReplacePathBaseline_inv h
  | .restoreFactoryWeights .. => execRestoreFactoryWeights_inv h
  | .readEventLog .. => execReadEventLog_inv h
  | .readOasisRecords .. => execReadOasisRecords_inv h
  | .readDbgNonce => execReadDbgNonce_inv h
  | .sealOpen => execSealOpen_inv h
  | .sealClose => execSealClose_inv h
  | .oasisImageLoad .. => execOasisImageLoad_inv h
  | .oasisParameterChange .. => execOasisParameterChange_inv h
  | .oasisClockSet .. => execOasisClockSet_inv h
  | .oasisSample .. => execOasisSample_inv h
  | .intervalClose => execIntervalClose_inv h
  | .oasisCommit => execOasisCommit_inv h
  | .oasisPowerFail => execOasisPowerFail_inv h
  | .oasisStart => execOasisStart_inv h
  | .oasisRecordReceive => execOasisRecordReceive_inv h
  | .linkTrainingDone .. => execLinkTrainingDone_inv h
  | .portRetrain .. => execPortRetrain_inv h
  | .refclkLoss => execRefclkLoss_inv h
  | .vbypOutOfRange => execVbypOutOfRange_inv h
  | .trayResetRelease => execTrayResetRelease_inv h
  | .dynamicAddressAssignment .. => execDynamicAddressAssignment_inv h
  | .sidePortMoveDone .. => execSidePortMoveDone_inv h
  | .meshLinkMoveDone .. => execMeshLinkMoveDone_inv h

end Sys2Proof.Machine
end

section
/-! PROOFS. O4 and O5. -/

open Sys2Proof Sys2Proof.Machine

namespace Sys2Proof.Proofs

/-- Settles O4: the memories and the logs are empty at reset. -/
theorem invariantAtReset : Obligations.InvariantAtReset :=
  ⟨Memory.wf_nil, Memory.wf_nil, Memory.wf_nil, Nat.zero_le _, Nat.zero_le _, Nat.zero_le _, Nat.zero_le _⟩

/-- Settles O5: a step idles or runs the front command, and each keeps the invariant. -/
theorem everyStepKeepsInvariant : Obligations.EveryStepKeepsInvariant := by
  intro s t h hstep
  unfold step at hstep
  split at hstep
  · cases hstep
    exact h.idle
  case h_2 c rest _ =>
    have hc := exec_inv c (s := { s with pending := rest }) h.update
    rwa [hstep] at hc

end Sys2Proof.Proofs
end

section
/-! PROOFS. O7 and O58: stores read back, and the registers at reset. -/

open Sys2Proof Sys2Proof.Machine

namespace Sys2Proof.Machine

/-- A write to a slice changes exactly the bytes it covers; tainting changes check bits alone. -/
theorem Slices.store_read (m : Slices) (a : Nat) (bs : List Byte) (p : Bool) (x : Nat) :
    Cells.read (m.store a bs p).cells x
      = if a ≤ x ∧ x < a + bs.length then bs.getD (x - a) 0 else Cells.read m.cells x := by
  have hcells : (m.store a bs p).cells = Cells.write m.cells a bs := by
    unfold Slices.store
    split <;> rfl
  rw [hcells, Cells.read_write]

end Sys2Proof.Machine

namespace Sys2Proof.Proofs

/-- Settles O7: each of the three memories is written by `Cells.write`, whose reads `Cells.read_write` gives. -/
theorem storesReadBack : Obligations.StoresReadBack :=
  ⟨fun d a bs p x h => Dram.store_read d a bs p x h, Slices.store_read, Store.store_read⟩

/-- Settles O58: the tables of a reset device are empty, and its registers are written out; the empty queue is log 4's. -/
theorem resetLeavesRegisterValues : Obligations.ResetLeavesRegisterValues := by
  have hring : ∀ r, (State.reset.ring r).state = .closed := fun _ => rfl
  have hport : ∀ p, (State.reset.port p).state = 0 := fun _ => rfl
  have hcore : ∀ n, (State.reset.core n).run = 0 := fun _ => rfl
  have hvault : ∀ n, (State.reset.vault n).mode = 0 := fun _ => rfl
  exact ⟨rfl, rfl, hring, hport, rfl, rfl, rfl, rfl, rfl, rfl, rfl, rfl, rfl, rfl, rfl, rfl, rfl, rfl, rfl, rfl, rfl, rfl, rfl,
    rfl, rfl, hcore, hvault⟩

end Sys2Proof.Proofs
end

section
/-! PROOFS. What the work behind a clause leaves alone: the memory that it reads and writes, the requests that it releases, the
events and frames that it sends touch no ring, no conjunction counter and not the time base (O11, O13). -/

namespace Sys2Proof.Machine

/-- The rings, the conjunction counters and the time base are as they were. -/
structure State.RingsKept (s t : State) : Prop where
  rings : t.rings = s.rings
  conj  : t.conj = s.conj
  time  : t.time = s.time

theorem State.RingsKept.refl {s : State} : s.RingsKept s := ⟨rfl, rfl, rfl⟩

theorem State.RingsKept.ring {s t : State} (h : s.RingsKept t) (r : Nat) : t.ring r = s.ring r := by
  rw [State.ring, h.rings, ← State.ring]

variable {s₀ s : State}

theorem State.RingsKept.ite {t : State} {c : Prop} {_ : Decidable c} (hs : s₀.RingsKept s) (ht : s₀.RingsKept t) :
    s₀.RingsKept (if c then s else t) := by
  split <;> assumption

theorem State.RingsKept.foldl {α : Type} {f : State → α → State} {l : List α} (h : s₀.RingsKept s)
    (hf : ∀ t a, s₀.RingsKept t → s₀.RingsKept (f t a)) : s₀.RingsKept (l.foldl f s) :=
  List.foldlRecOn l f h fun t ht a _ => hf t a ht

/-- A record update that keeps the three fields. -/
theorem State.RingsKept.update {pending freeIdx dram playa delays host ctr latchHi loHold staged applied glb epoch cmd tainted
    fields steps sync slow cores vaults caches tiers engines selfRef kvm decodes routers slots reducing ports lnk colls pwr
    doms thm err dbg boot bond mgt oas cxl io pins} (h : s₀.RingsKept s) :
    s₀.RingsKept (.mk pending s.time freeIdx dram playa delays host ctr latchHi loHold staged applied glb epoch cmd
      s.rings tainted s.conj fields steps sync slow cores vaults caches tiers engines selfRef kvm decodes routers slots
      reducing ports lnk colls pwr doms thm err dbg boot bond mgt oas cxl io pins) :=
  ⟨h.rings, h.conj, h.time⟩

theorem State.RingsKept.useSlot {i x} (h : s₀.RingsKept s) : s₀.RingsKept (s.useSlot i x) := h.update

theorem State.RingsKept.perturbWrite {a n} (h : s₀.RingsKept s) : s₀.RingsKept (s.perturbWrite a n) :=
  .ite h (.foldl h fun _ _ ht => .ite ht ht.update.useSlot)

theorem State.RingsKept.bankWrite {a bs poison} (h : s₀.RingsKept s) : s₀.RingsKept (s.bankWrite a bs poison) :=
  h.update.perturbWrite

theorem State.RingsKept.playaSeen {core off n} (h : s₀.RingsKept s) : s₀.RingsKept (s.playaSeen core off n) :=
  .ite h h.update

theorem State.RingsKept.perturbPlaya {core off n} (h : s₀.RingsKept s) : s₀.RingsKept (s.perturbPlaya core off n) :=
  .ite h (.foldl h fun _ _ ht => .ite ht ht.update.useSlot)

theorem State.RingsKept.playaWrite {core off bs poison} (h : s₀.RingsKept s) :
    s₀.RingsKept (s.playaWrite core off bs poison) :=
  h.update.perturbPlaya

theorem State.RingsKept.playaTaint {core off n} (h : s₀.RingsKept s) : s₀.RingsKept (s.playaTaint core off n) :=
  h.update

theorem State.RingsKept.setVault {n v} (h : s₀.RingsKept s) : s₀.RingsKept (s.setVault n v) := h.update

theorem State.RingsKept.modVault {n f} (h : s₀.RingsKept s) : s₀.RingsKept (s.modVault n f) := h.setVault

theorem State.RingsKept.setPort {p v} (h : s₀.RingsKept s) : s₀.RingsKept (s.setPort p v) := h.update

theorem State.RingsKept.modPort {p f} (h : s₀.RingsKept s) : s₀.RingsKept (s.modPort p f) := h.setPort

theorem State.RingsKept.setField {f v} (h : s₀.RingsKept s) : s₀.RingsKept (s.setField f v) := h.update

theorem State.RingsKept.setStep {o v} (h : s₀.RingsKept s) : s₀.RingsKept (s.setStep o v) := h.update

theorem State.RingsKept.updateLines {a bs poison} (h : s₀.RingsKept s) : s₀.RingsKept (s.updateLines a bs poison) :=
  .ite h (.foldl h fun _ _ h1 => by
    split
    · exact h1.playaWrite
    · exact h1)

theorem State.RingsKept.closeEntries {a n} (h : s₀.RingsKept s) : s₀.RingsKept (s.closeEntries a n) :=
  .ite h h.setVault

theorem State.RingsKept.dpaWrite {a bs poison} (h : s₀.RingsKept s) : s₀.RingsKept (s.dpaWrite a bs poison) :=
  .ite h h.bankWrite.updateLines.closeEntries

theorem State.RingsKept.ctrPut {off v} (h : s₀.RingsKept s) : s₀.RingsKept (s.ctrPut off v) := h.update

theorem State.RingsKept.ctrAdd {off n} (h : s₀.RingsKept s) : s₀.RingsKept (s.ctrAdd off n) := h.update

theorem State.RingsKept.raise {e} (h : s₀.RingsKept s) : s₀.RingsKept (s.raise e) := h.update

theorem State.RingsKept.event {a b c d e f g} (h : s₀.RingsKept s) : s₀.RingsKept (s.event a b c d e f g) := h.raise

theorem State.RingsKept.memoryEvent {kind cper vault data m} (h : s₀.RingsKept s) :
    s₀.RingsKept (s.memoryEvent kind cper vault data m) :=
  h.raise

theorem State.RingsKept.answer {a} (h : s₀.RingsKept s) : s₀.RingsKept (s.answer a) := h.update

theorem State.RingsKept.bankFlit {a bs full poison} (h : s₀.RingsKept s) :
    s₀.RingsKept (s.bankFlit a bs full poison) :=
  h.update

theorem State.RingsKept.writeTarget {t bs full poison} (h : s₀.RingsKept s) :
    s₀.RingsKept (s.writeTarget t bs full poison) :=
  by
  unfold State.writeTarget
  split
  · exact .ite h h.bankFlit.perturbWrite.updateLines.closeEntries
  · exact h.update
  · exact h

theorem State.RingsKept.writePieces {s : State} {place : Nat} {ps : List (Nat × Nat)} {ws : List WByte} (h :
  s₀.RingsKept s) :
    s₀.RingsKept (s.writePieces place ps ws) := by
  induction ps generalizing s ws with
  | nil => exact h
  | cons p r ih => exact ih (.ite h h.writeTarget)

theorem State.RingsKept.writeDva {place dva ws} (h : s₀.RingsKept s) : s₀.RingsKept (s.writeDva place dva ws) :=
  h.writePieces

theorem State.RingsKept.storeTensor {n es} (h : s₀.RingsKept s) : s₀.RingsKept (s.storeTensor n es) :=
  .ite h (.ite h.writeDva.writeDva (.ite (.foldl h.writeDva fun _ _ h1 => by
    split
    · exact .ite h1.writeDva h1
    · exact h1) h.writeDva))

theorem State.RingsKept.transmit {p f} (h : s₀.RingsKept s) : s₀.RingsKept (s.transmit p f) := h.setPort.ctrAdd.update

theorem State.RingsKept.freePool {p f} (h : s₀.RingsKept s) : s₀.RingsKept (s.freePool p f) := .ite h.modPort h

theorem State.RingsKept.sendQueued {p q} (h : s₀.RingsKept s) : s₀.RingsKept (s.sendQueued p q) :=
  h.modPort.transmit.freePool

theorem State.RingsKept.pump {n p : Nat} {s : State} (h : s₀.RingsKept s) : s₀.RingsKept (State.pump n p s) := by
  induction n generalizing s with
  | zero => exact h
  | succ n ih =>
    unfold State.pump
    split
    · exact ih h.sendQueued
    · exact h

theorem State.RingsKept.pumpPort {p} (h : s₀.RingsKept s) : s₀.RingsKept (s.pumpPort p) := h.pump

theorem State.RingsKept.enqueue {p pool f} (h : s₀.RingsKept s) : s₀.RingsKept (s.enqueue p pool f) := h.modPort

theorem State.RingsKept.discardFrame {p f} (h : s₀.RingsKept s) : s₀.RingsKept (s.discardFrame p f) := h.ctrAdd.event

theorem State.RingsKept.emit {f} (h : s₀.RingsKept s) : s₀.RingsKept (s.emit f) := .ite h.update (by
    split
    · exact h.enqueue.pumpPort
    · exact h.discardFrame)

theorem State.RingsKept.dropColl {c} (h : s₀.RingsKept s) : s₀.RingsKept (s.dropColl c) := h.update

theorem State.RingsKept.sendCtrl {dst type c block} (h : s₀.RingsKept s) :
    s₀.RingsKept (s.sendCtrl dst type c block) :=
  h.update.emit

theorem State.RingsKept.tellGroup {c type except} (h : s₀.RingsKept s) : s₀.RingsKept (s.tellGroup c type except) :=
  .foldl h fun _ _ h1 => h1.sendCtrl

theorem State.RingsKept.abortColl {r index} (h : s₀.RingsKept s) : s₀.RingsKept (s.abortColl r index) :=
  .foldl h fun _ _ h1 => h1.tellGroup.dropColl

theorem State.RingsKept.raiseNf {r} (h : s₀.RingsKept s) : s₀.RingsKept (s.raiseNf r) := by
  unfold State.raiseNf
  split
  · split
    · exact h.setStep
    · exact h
  · exact h

theorem State.RingsKept.countElems {core paren nonFinite saturated} (h : s₀.RingsKept s) :
    s₀.RingsKept (s.countElems core paren nonFinite saturated) :=
  h.ctrAdd.ctrAdd

theorem State.RingsKept.countFailed {r c} (h : s₀.RingsKept s) : s₀.RingsKept (s.countFailed r c) := .ite (by
    split
    · exact h.countElems
    · exact h) (.raiseNf (by
    split
    · exact h.countElems
    · exact h))

theorem State.RingsKept.taint {a n} (h : s₀.RingsKept s) : s₀.RingsKept (s.taint a n) := h.update

theorem State.RingsKept.checkQuotas {loud} (h : s₀.RingsKept s) : s₀.RingsKept (s.checkQuotas loud) :=
  .foldl h fun _ _ h1 => by
    split
    · exact .ite h1 (.ite h1.setField.event h1.setField)
    · exact h1

theorem State.RingsKept.mergeSummary {e} (h : s₀.RingsKept s) : s₀.RingsKept (s.mergeSummary e) := h.update

theorem State.RingsKept.ceEvent {v row tier bank page dpa scrub} (h : s₀.RingsKept s) :
    s₀.RingsKept (s.ceEvent v row tier bank page dpa scrub) := by
  unfold State.ceEvent
  extract_lets e j s1
  have h1 : s₀.RingsKept s1 := by
    unfold s1
    split
    · exact h.mergeSummary
    · exact h
  clear_value s1
  split
  · exact .ite h1.update.mergeSummary.memoryEvent h1.update
  · exact h1

theorem State.RingsKept.ceBurst {dpa} (h : s₀.RingsKept s) : s₀.RingsKept (s.ceBurst dpa) := h.ctrAdd.ceEvent

theorem State.RingsKept.startRepair {key} (h : s₀.RingsKept s) : s₀.RingsKept (s.startRepair key) := .ite h.modVault h

theorem State.RingsKept.cacheRead {dpa allocate k} (h : s₀.RingsKept s) :
    s₀.RingsKept (s.cacheRead dpa allocate k).1 :=
  by
  unfold State.cacheRead
  extract_lets n set r s1 s2
  have h1 : s₀.RingsKept s1 := h.update
  have h2 : s₀.RingsKept s2 := by
    refine .ite h1 ?_
    split
    · exact h1.playaWrite
    · exact h1
  split
  · exact h2.ctrAdd
  · exact h

theorem State.RingsKept.serveRead {dpa} (h : s₀.RingsKept s) : s₀.RingsKept (s.serveRead dpa) := by
  unfold State.serveRead
  extract_lets -underBinder n l s0 c s1 s2
  have h0 : s₀.RingsKept s0 := by
    unfold s0
    split
    · exact h.playaSeen
    · exact .ite h.ceBurst h
  clear_value s0
  have h1 : s₀.RingsKept s1 := .ite h0.cacheRead h0.cacheRead.ctrAdd
  have h2 : s₀.RingsKept s2 := .ite h1.ctrAdd h1
  exact h2.answer

theorem State.RingsKept.dropSeqWrite {dpa} (h : s₀.RingsKept s) : s₀.RingsKept (s.dropSeqWrite dpa) :=
  h.ctrAdd.event.answer

theorem State.RingsKept.dropEntries {a n} (h : s₀.RingsKept s) : s₀.RingsKept (s.dropEntries a n) := h.update

theorem State.RingsKept.poisonLine {a} (h : s₀.RingsKept s) : s₀.RingsKept (s.poisonLine a) := by
  unfold State.poisonLine
  dsimp only
  split
  · exact h.update.playaTaint
  · exact h.update

theorem State.RingsKept.serveWrite {dpa bs poison} (h : s₀.RingsKept s) : s₀.RingsKept (s.serveWrite dpa bs poison) :=
  .ite (.answer (.ite h.ctrAdd h)) (.ite h.dropSeqWrite (.ite (.checkQuotas (.answer (.ctrAdd (.dropEntries (.ite
    h.taint.dpaWrite.poisonLine h.taint.dpaWrite))))) (.answer (.ctrAdd (.dropEntries (.ite
    h.taint.dpaWrite.poisonLine h.taint.dpaWrite))))))

theorem State.RingsKept.serveRaw {w} (h : s₀.RingsKept s) : s₀.RingsKept (s.serveRaw w) := by
  unfold State.serveRaw
  split
  · exact h.update
  · exact h.update
  · exact h

theorem State.RingsKept.serve {w} (h : s₀.RingsKept s) : s₀.RingsKept (s.serve w) := by
  unfold State.serve
  split
  · exact h.serveRead
  · exact h.serveWrite
  · exact h.serveRaw
  · exact h.serveRaw

theorem State.RingsKept.wait {w} (h : s₀.RingsKept s) : s₀.RingsKept (s.wait w) := h.modVault

theorem State.RingsKept.serveOne {w} (h : s₀.RingsKept s) : s₀.RingsKept (s.serveOne w) :=
  .ite h (.ite h.startRepair h.modVault.serve)

theorem State.RingsKept.serveFree {n} (h : s₀.RingsKept s) : s₀.RingsKept (s.serveFree n) :=
  .foldl h fun _ _ h1 => h1.serveOne

theorem State.RingsKept.serveAllFree (h : s₀.RingsKept s) : s₀.RingsKept s.serveAllFree :=
  .foldl h fun _ _ h1 => h1.serveFree

theorem State.RingsKept.releaseWork {r index} (h : s₀.RingsKept s) : s₀.RingsKept (s.releaseWork r index) := h.update

theorem State.RingsKept.drainDeferred {n} (h : s₀.RingsKept s) : s₀.RingsKept (s.drainDeferred n) :=
  .foldl h.modVault fun _ _ h1 => .ite h1.wait h1.serve

theorem State.RingsKept.drainAllDeferred (h : s₀.RingsKept s) : s₀.RingsKept s.drainAllDeferred :=
  .foldl h fun _ _ h1 => h1.drainDeferred

theorem State.RingsKept.poisonEvent {r c f} (h : s₀.RingsKept s) : s₀.RingsKept (s.poisonEvent r c f) :=
  .ite h.event h

theorem State.RingsKept.undefineBytes {place dva n} (h : s₀.RingsKept s) :
    s₀.RingsKept (s.undefineBytes place dva n) :=
  h.writeDva.update

theorem State.RingsKept.undefineOutputs {c} (h : s₀.RingsKept s) : s₀.RingsKept (s.undefineOutputs c) :=
  .ite h (.foldl h fun _ _ h1 => .ite (.ite h1.undefineBytes.undefineBytes h1.undefineBytes) h1)

theorem State.RingsKept.setDirWord {dva v} (h : s₀.RingsKept s) : s₀.RingsKept (s.setDirWord dva v) := h.writeDva

theorem State.RingsKept.putSeq {i length state} (h : s₀.RingsKept s) : s₀.RingsKept (s.putSeq i length state) :=
  h.dpaWrite

theorem State.RingsKept.markPage {k free} (h : s₀.RingsKept s) : s₀.RingsKept (s.markPage k free) := by
  generalize hf : State.markPage = f
  delta State.markPage at hf
  subst hf
  beta_reduce
  extract_lets -underBinder fs col pos dva
  split
  · exact h.writeDva
  · exact h

theorem State.RingsKept.commitAppend {a} (h : s₀.RingsKept s) : s₀.RingsKept (s.commitAppend a) :=
  .update (.putSeq (.setDirWord (.foldl h fun _ _ h1 => h1.markPage.setDirWord.ctrAdd)))

theorem State.RingsKept.commitAppends {r index} (h : s₀.RingsKept s) : s₀.RingsKept (s.commitAppends r index) :=
  .ite h (.checkQuotas (.update (.foldl h fun _ _ h1 => h1.commitAppend)))

theorem State.RingsKept.undefineElems {n hit} (h : s₀.RingsKept s) : s₀.RingsKept (s.undefineElems n hit) :=
  h.storeTensor.update

theorem State.RingsKept.undefineDependent {r c} (h : s₀.RingsKept s) : s₀.RingsKept (s.undefineDependent r c) :=
  .ite h (.foldl h fun _ _ h1 => .ite h1.undefineElems h1)

end Sys2Proof.Machine
end

section
/-! PROOFS. Rules for host writes, rings and completion records: what each changes and what it leaves (O8, O9, O11, O13 to O15). -/

namespace Sys2Proof.Machine

/-! ### Bytes -/

theorem Cells.read_filter_of_pos (cells : List Host.Cell) (p : Host.Cell → Bool) (x : Nat) (h : ∀ w, p (x, w) = true) :
    Cells.read (cells.filter p) x = Cells.read cells x := by
  induction cells with
  | nil => rfl
  | cons e r ih =>
    obtain ⟨j, w⟩ := e
    by_cases hx : x = j
    · subst hx
      simp [h w, Cells.read]
    · by_cases hp : p (j, w) = true
      · simp [hp, Cells.read, hx, ih]
      · simp [hp, Cells.read, hx, ih]

theorem Cells.readRange_eq (cells : List Host.Cell) (a n : Nat) :
    Cells.readRange cells a n = (List.range n).map (fun i => Cells.read cells (a + i)) := by
  refine List.map_congr_left fun i hi => Cells.read_filter_of_pos _ _ _ fun w => ?_
  have := List.mem_range.mp hi
  simp
  omega

theorem Cells.readRange_congr {c d : List Host.Cell} {a n : Nat} (h : ∀ x, a ≤ x → x < a + n → Cells.read c x = Cells.read d x) :
    Cells.readRange c a n = Cells.readRange d a n := by
  rw [Cells.readRange_eq, Cells.readRange_eq]
  refine List.map_congr_left fun i hi => h _ (by omega) ?_
  have := List.mem_range.mp hi
  omega

/-- A range reads as it was written. -/
theorem Cells.readRange_eq_of_read {cells : List Host.Cell} {a : Nat} {bs : List Byte}
    (h : ∀ x, a ≤ x → x < a + bs.length → Cells.read cells x = bs.getD (x - a) 0) :
    Cells.readRange cells a bs.length = bs := by
  rw [Cells.readRange_eq]
  refine List.ext_getElem (by simp) fun i h1 h2 => ?_
  rw [List.getElem_map, List.getElem_range, h _ (by omega) (by omega), Nat.add_sub_cancel_left, List.getD_eq_getElem?_getD,
    List.getElem?_eq_getElem h2, Option.getD_some]

@[simp] theorem length_natLe (n v : Nat) : (natLe n v).length = n := by
  induction n generalizing v with
  | zero => rfl
  | succ n ih => simp [natLe, ih]

@[simp] theorem length_recordBytes (slot tag : Nat) (f : Failure) (phase : Bool) (time : Word64) :
    (recordBytes slot tag f phase time).length = 16 := by
  simp [recordBytes]

theorem State.readRange_hostWrite (s : State) (a : Nat) (bs : List Byte) :
    Cells.readRange (s.hostWrite a bs).host.cells a bs.length = bs :=
  Cells.readRange_eq_of_read fun _ h1 h2 => (Store.store_read _ _ _ _ _).trans (if_pos ⟨h1, h2⟩)

theorem State.hostSameOutside_hostWrite (s : State) (a : Nat) (bs : List Byte) : hostSameOutside s (s.hostWrite a bs) a bs.length :=
  fun x hx => (Store.store_read _ _ _ _ _).trans (if_neg (by omega))

theorem hostSameOutside_of_host_eq {s t : State} {a n : Nat} (h : t.host = s.host) : hostSameOutside s t a n :=
  fun _ _ => by rw [h]

@[simp] theorem State.hostWrite_ring (s : State) (a : Nat) (bs : List Byte) (r : Nat) : (s.hostWrite a bs).ring r = s.ring r := rfl

/-- FETCH_WB holds the index that it was written with. -/
theorem State.readRange_writeFetchWb (s : State) (r index : Nat) :
    Cells.readRange (s.writeFetchWb r index).host.cells (s.ring r).ctx.fetchWb 8 = natLe 8 (index % 2 ^ 32) := by
  have h := s.readRange_hostWrite (s.ring r).ctx.fetchWb (natLe 8 (index % 2 ^ 32))
  rwa [length_natLe] at h

theorem State.hostSameOutside_writeFetchWb (s : State) (r index : Nat) :
    hostSameOutside s (s.writeFetchWb r index) (s.ring r).ctx.fetchWb 8 := by
  have h := s.hostSameOutside_hostWrite (s.ring r).ctx.fetchWb (natLe 8 (index % 2 ^ 32))
  rwa [length_natLe] at h

/-! ### Rings -/

theorem ringsSameBut_setRing (s : State) (r : Nat) (v : RingSt) : ringsSameBut s (s.setRing r v) r :=
  fun q hq => (State.ring_setRing s r q v).trans (if_neg hq)

/-- Settling changes the state alone, or the state beneath a pause. -/
theorem RingSt.settle_eq (x : RingSt) : x.settle = { x with state := x.settle.state, before := x.settle.before } := by
  unfold RingSt.settle
  dsimp only
  split
  · rfl
  · split <;> rfl

@[simp] theorem RingSt.settle_clauses (x : RingSt) : x.settle.clauses = x.clauses := by rw [RingSt.settle_eq]
@[simp] theorem RingSt.settle_fetched (x : RingSt) : x.settle.fetched = x.fetched := by rw [RingSt.settle_eq]
@[simp] theorem RingSt.settle_produced (x : RingSt) : x.settle.produced = x.produced := by rw [RingSt.settle_eq]
@[simp] theorem RingSt.settle_seen (x : RingSt) : x.settle.seen = x.seen := by rw [RingSt.settle_eq]
@[simp] theorem RingSt.settle_ctx (x : RingSt) : x.settle.ctx = x.ctx := by rw [RingSt.settle_eq]
@[simp] theorem RingSt.settle_records (x : RingSt) : x.settle.records = x.records := by rw [RingSt.settle_eq]
@[simp] theorem RingSt.settle_closing (x : RingSt) : x.settle.closing = x.closing := by rw [RingSt.settle_eq]
@[simp] theorem RingSt.settle_flushing (x : RingSt) : x.settle.flushing = x.flushing := by rw [RingSt.settle_eq]

/-- Settling moves a ring between IDLE and RUNNING; it makes none stopped and frees none. -/
@[simp] theorem RingSt.isStopped_settle (x : RingSt) : x.settle.isStopped = x.isStopped := by
  unfold RingSt.settle RingSt.isStopped
  dsimp only
  split
  · rename_i h
    rcases h with h | h <;> split <;> simp [h]
  · split
    · rename_i h
      obtain ⟨hs, hb⟩ := h
      rcases hb with hb | hb <;> split <;> simp [hs, hb]
    · rfl

/-- Becoming changes the state alone, or the state beneath a pause. -/
theorem RingSt.become_eq (x : RingSt) (st : RingState) :
    x.become st = { x with state := (x.become st).state, before := (x.become st).before } := by
  unfold RingSt.become
  split <;> rfl

theorem RingSt.isStopped_become (x : RingSt) : (x.become .stopped).isStopped = true := by
  unfold RingSt.become RingSt.isStopped
  split <;> simp [*]

/-! ### Interrupts and records -/

theorem Cmd.startHold_eq (c : Cmd) (v : Nat) : c.startHold v = { c with hold := (c.startHold v).hold } := by
  unfold Cmd.startHold
  split <;> rfl

/-- Raising a vector touches the interrupts alone. -/
theorem State.raiseMsix_eq (s : State) (v : Nat) :
    s.raiseMsix v = { s with cmd := { s.cmd with pba := (s.raiseMsix v).cmd.pba, hold := (s.raiseMsix v).cmd.hold }
                             io := { s.io with msix := (s.raiseMsix v).io.msix } } := by
  unfold State.raiseMsix
  split
  · rfl
  · unfold State.fireMsix
    split
    · rfl
    · dsimp only
      rw [Cmd.startHold_eq]

/-- The state that a record's write leaves before its interrupt. -/
def State.recorded (s : State) (r slot tag : Nat) (f : Failure) : State :=
  (s.hostWrite ((s.ring r).ctx.cqBase + 16 * ((s.ring r).records % (s.ring r).size))
    (recordBytes slot tag f ((s.ring r).records / (s.ring r).size % 2 == 0) s.time)).setRing r
      { s.ring r with records := (s.ring r).records + 1 }

/-- A record is written, its ring counts it, and nothing else changes but the interrupts. -/
theorem State.writeRecord_eq (s : State) (r slot tag : Nat) (f : Failure) (irq : Bool) :
    s.writeRecord r slot tag f irq = { s.recorded r slot tag f with
      cmd := { s.cmd with pba := (s.writeRecord r slot tag f irq).cmd.pba, hold := (s.writeRecord r slot tag f irq).cmd.hold }
      io := { s.io with msix := (s.writeRecord r slot tag f irq).io.msix } } := by
  unfold State.writeRecord
  dsimp only
  split
  · exact State.raiseMsix_eq (s.recorded r slot tag f) _
  · rfl

theorem State.host_writeRecord (s : State) (r slot tag : Nat) (f : Failure) (irq : Bool) :
    (s.writeRecord r slot tag f irq).host = (s.recorded r slot tag f).host := by rw [State.writeRecord_eq]
theorem State.rings_writeRecord (s : State) (r slot tag : Nat) (f : Failure) (irq : Bool) :
    (s.writeRecord r slot tag f irq).rings = (s.recorded r slot tag f).rings := by rw [State.writeRecord_eq]
@[simp] theorem State.conj_writeRecord (s : State) (r slot tag : Nat) (f : Failure) (irq : Bool) :
    (s.writeRecord r slot tag f irq).conj = s.conj := by rw [State.writeRecord_eq]; rfl
@[simp] theorem State.r0State_writeRecord (s : State) (r slot tag : Nat) (f : Failure) (irq : Bool) :
    (s.writeRecord r slot tag f irq).cmd.r0State = s.cmd.r0State := by rw [State.writeRecord_eq]
@[simp] theorem State.enableWaits_writeRecord (s : State) (r slot tag : Nat) (f : Failure) (irq : Bool) :
    (s.writeRecord r slot tag f irq).cmd.enableWaits = s.cmd.enableWaits := by rw [State.writeRecord_eq]
@[simp] theorem State.adminEnable_writeRecord (s : State) (r slot tag : Nat) (f : Failure) (irq : Bool) :
    (s.writeRecord r slot tag f irq).cmd.adminEnable = s.cmd.adminEnable := by rw [State.writeRecord_eq]

theorem State.ring_writeRecord (s : State) (r slot tag : Nat) (f : Failure) (irq : Bool) (q : Nat) :
    (s.writeRecord r slot tag f irq).ring q = if q = r then { s.ring r with records := (s.ring r).records + 1 } else s.ring q := by
  rw [State.ring, State.rings_writeRecord, ← State.ring]
  exact State.ring_setRing _ _ _ _

theorem State.ring_writeRecord_self (s : State) (r slot tag : Nat) (f : Failure) (irq : Bool) :
    (s.writeRecord r slot tag f irq).ring r = { s.ring r with records := (s.ring r).records + 1 } := by
  rw [State.ring_writeRecord, if_pos rfl]

theorem ringsSameBut_writeRecord (s : State) (r slot tag : Nat) (f : Failure) (irq : Bool) :
    ringsSameBut s (s.writeRecord r slot tag f irq) r :=
  fun q hq => by rw [State.ring_writeRecord, if_neg hq]

/-- The record stands in the next entry of the completion ring. -/
theorem State.readRange_writeRecord (s : State) (r slot tag : Nat) (f : Failure) (irq : Bool) :
    Cells.readRange (s.writeRecord r slot tag f irq).host.cells
        ((s.ring r).ctx.cqBase + 16 * ((s.ring r).records % (s.ring r).size)) 16
      = recordBytes slot tag f ((s.ring r).records / (s.ring r).size % 2 == 0) s.time := by
  rw [State.host_writeRecord]
  have h := s.readRange_hostWrite ((s.ring r).ctx.cqBase + 16 * ((s.ring r).records % (s.ring r).size))
    (recordBytes slot tag f ((s.ring r).records / (s.ring r).size % 2 == 0) s.time)
  rwa [length_recordBytes] at h

theorem State.hostSameOutside_writeRecord (s : State) (r slot tag : Nat) (f : Failure) (irq : Bool) :
    hostSameOutside s (s.writeRecord r slot tag f irq)
      ((s.ring r).ctx.cqBase + 16 * ((s.ring r).records % (s.ring r).size)) 16 := by
  have h := s.hostSameOutside_hostWrite ((s.ring r).ctx.cqBase + 16 * ((s.ring r).records % (s.ring r).size))
    (recordBytes slot tag f ((s.ring r).records / (s.ring r).size % 2 == 0) s.time)
  rw [length_recordBytes] at h
  intro x hx
  rw [State.host_writeRecord]
  exact h x hx

/-! ### Records of a ring, one after another -/

/-- Records have been written for ring r, and what goes with them to host memory: of the rings r's count of records alone has
changed, and the registers of ring 0 stand. -/
structure State.RecordsOnly (r : Nat) (s t : State) : Prop where
  self        : t.ring r = { s.ring r with records := (t.ring r).records }
  others      : ringsSameBut s t r
  r0State     : t.cmd.r0State = s.cmd.r0State
  enableWaits : t.cmd.enableWaits = s.cmd.enableWaits
  adminEnable : t.cmd.adminEnable = s.cmd.adminEnable

theorem State.RecordsOnly.refl (r : Nat) (s : State) : State.RecordsOnly r s s := ⟨rfl, fun _ _ => rfl, rfl, rfl, rfl⟩

theorem State.RecordsOnly.trans {r : Nat} {s t u : State} (h : State.RecordsOnly r s t) (g : State.RecordsOnly r t u) :
    State.RecordsOnly r s u where
  self := by rw [g.self, h.self]
  others q hq := (g.others q hq).trans (h.others q hq)
  r0State := g.r0State.trans h.r0State
  enableWaits := g.enableWaits.trans h.enableWaits
  adminEnable := g.adminEnable.trans h.adminEnable

theorem State.RecordsOnly.foldl {α : Type} {r : Nat} {s t : State} {l : List α} {f : State → α → State}
    (h : State.RecordsOnly r s t) (hf : ∀ u a, State.RecordsOnly r u (f u a)) : State.RecordsOnly r s (l.foldl f t) :=
  List.foldlRecOn l f h fun u hu a _ => hu.trans (hf u a)

theorem State.recordsOnly_writeRecord (s : State) (r slot tag : Nat) (f : Failure) (irq : Bool) :
    State.RecordsOnly r s (s.writeRecord r slot tag f irq) where
  self := by rw [State.ring_writeRecord_self]
  others := ringsSameBut_writeRecord s r slot tag f irq
  r0State := State.r0State_writeRecord ..
  enableWaits := State.enableWaits_writeRecord ..
  adminEnable := State.adminEnable_writeRecord ..

theorem State.recordsOnly_writeFetchWb (s : State) (r index : Nat) : State.RecordsOnly r s (s.writeFetchWb r index) :=
  ⟨rfl, fun _ _ => rfl, rfl, rfl, rfl⟩

/-- The records of a flush, before the ring itself changes. -/
def State.flushRecords (s : State) (r : Nat) : State :=
  (List.range (indexDiff (s.ring r).produced (s.ring r).fetched)).foldl (fun t i =>
      t.flushRecord r ((s.ring r).slotOf ((s.ring r).fetched + i))
        (leNat (t.hostRead ((s.ring r).ctx.sqBase + 64 * (s.ring r).slotOf ((s.ring r).fetched + i) + 2) 2)))
    (((s.ring r).clauses.filter (fun c => c.phase = Phase.posted)).foldl
      (fun t c => t.flushRecord r ((s.ring r).slotOf c.index) (clTag c.bits)) (s.writeFetchWb r (s.ring r).produced))

theorem State.recordsOnly_flushRecords (s : State) (r : Nat) : State.RecordsOnly r s (s.flushRecords r) :=
  .foldl (.foldl (s.recordsOnly_writeFetchWb r _) fun _ _ => State.recordsOnly_writeRecord ..)
    fun _ _ => State.recordsOnly_writeRecord ..

/-- The ring after a flush: its fetch index at the producer index, and no posted clause. -/
def RingSt.flushed (x : RingSt) : RingSt :=
  { x with fetched := x.produced, clauses := x.clauses.filter (fun c => c.phase ≠ Phase.posted), skipped := false
           waitFrom := none, sentence := x.sentence + 1, sentLen := 0 }

theorem State.flushPosted_eq (s : State) (r : Nat) :
    s.flushPosted r = (s.flushRecords r).setRing r { (s.ring r).flushed with records := ((s.flushRecords r).ring r).records } := by
  have h : (s.flushRecords r).modRing r (fun (R : RingSt) =>
      { R with fetched := (s.ring r).produced, clauses := R.clauses.filter (fun c => c.phase ≠ Phase.posted), skipped := false
               waitFrom := none, sentence := R.sentence + 1, sentLen := 0 })
      = (s.flushRecords r).setRing r { (s.ring r).flushed with records := ((s.flushRecords r).ring r).records } := by
    rw [State.modRing, (s.recordsOnly_flushRecords r).self]
    rfl
  exact h

theorem State.ring_flushPosted_self (s : State) (r : Nat) :
    (s.flushPosted r).ring r = { (s.ring r).flushed with records := ((s.flushRecords r).ring r).records } := by
  rw [State.flushPosted_eq, State.ring_setRing_self]

theorem ringsSameBut_flushPosted (s : State) (r : Nat) : ringsSameBut s (s.flushPosted r) r := fun q hq => by
  rw [State.flushPosted_eq, State.ring_setRing, if_neg hq, (s.recordsOnly_flushRecords r).others q hq]

theorem State.cmd_flushPosted (s : State) (r : Nat) : (s.flushPosted r).cmd = (s.flushRecords r).cmd := by
  rw [State.flushPosted_eq, State.setRing_cmd]

/-! ### Opening and closing -/

theorem Cmd.addLine_eq (c : Cmd) (l : Nat) : c.addLine l = { c with watch := (c.addLine l).watch, polled := (c.addLine l).polled } := by
  unfold Cmd.addLine
  split
  · rfl
  · dsimp only
    split <;> rfl

theorem Cmd.dropLine_eq (c : Cmd) (l : Nat) : c.dropLine l
    = { c with watch := (c.dropLine l).watch, polled := (c.dropLine l).polled, reading := (c.dropLine l).reading } := by
  unfold Cmd.dropLine
  split
  · dsimp only
    split <;> rfl
  · rfl

/-- The line of a closed ring is given up where no other open ring has it. -/
def State.leaveLine (s : State) (line : Nat) : State :=
  if s.rings.any (fun e => e.2.isOpen && e.2.ctx.dbLine == line) then s else { s with cmd := s.cmd.dropLine line }

theorem State.leaveLine_eq (s : State) (line : Nat) : s.leaveLine line = { s with cmd := { s.cmd with
    watch := (s.leaveLine line).cmd.watch, polled := (s.leaveLine line).cmd.polled, reading := (s.leaveLine line).cmd.reading } } := by
  unfold State.leaveLine
  split
  · rfl
  · dsimp only
    rw [Cmd.dropLine_eq]

theorem State.rings_leaveLine (s : State) (line : Nat) : (s.leaveLine line).rings = s.rings := by rw [State.leaveLine_eq]
theorem State.enableWaits_leaveLine (s : State) (line : Nat) : (s.leaveLine line).cmd.enableWaits = s.cmd.enableWaits := by
  rw [State.leaveLine_eq]
theorem State.adminEnable_leaveLine (s : State) (line : Nat) : (s.leaveLine line).cmd.adminEnable = s.cmd.adminEnable := by
  rw [State.leaveLine_eq]

/-- A ring flushed and reset, its line given up. -/
def State.ringClosed (s : State) (r : Nat) : State :=
  ((s.flushPosted r).setRing r RingSt.reset).leaveLine (s.ring r).ctx.dbLine

theorem State.rings_ringClosed (s : State) (r : Nat) : (s.ringClosed r).rings = ((s.flushPosted r).setRing r RingSt.reset).rings := State.rings_leaveLine ..

theorem State.ring_ringClosed_self (s : State) (r : Nat) : (s.ringClosed r).ring r = RingSt.reset := by
  rw [State.ring, State.rings_ringClosed, ← State.ring, State.ring_setRing_self]

theorem ringsSameBut_ringClosed (s : State) (r : Nat) : ringsSameBut s (s.ringClosed r) r := fun q hq => by
  rw [State.ring, State.rings_ringClosed, ← State.ring, State.ring_setRing, if_neg hq, ringsSameBut_flushPosted s r q hq]

theorem State.enableWaits_ringClosed (s : State) (r : Nat) : (s.ringClosed r).cmd.enableWaits = s.cmd.enableWaits := by
  rw [State.ringClosed, State.enableWaits_leaveLine, State.setRing_cmd, State.cmd_flushPosted,
    (s.recordsOnly_flushRecords r).enableWaits]

theorem State.adminEnable_ringClosed (s : State) (r : Nat) : (s.ringClosed r).cmd.adminEnable = s.cmd.adminEnable := by
  rw [State.ringClosed, State.adminEnable_leaveLine, State.setRing_cmd, State.cmd_flushPosted,
    (s.recordsOnly_flushRecords r).adminEnable]

/-- What follows when ring r has closed: the registers of ring 0, or the fences that waited. -/
def State.afterClose (t : State) (r : Nat) : State :=
  if r = 0 then
    let c := { t.cmd with r0State := 0, enableWaits := false }
    if t.cmd.enableWaits then ({ t with cmd := c }).openAdmin else { t with cmd := c }
  else t.fencesDone r

theorem State.closeNow_eq (s : State) (r : Nat) : s.closeNow r = (s.ringClosed r).afterClose r := by
  have h : s.closeNow r = State.afterClose
      (if ((s.flushPosted r).setRing r RingSt.reset).rings.any (fun e => e.2.isOpen && e.2.ctx.dbLine == (s.ring r).ctx.dbLine)
        then (s.flushPosted r).setRing r RingSt.reset
        else { (s.flushPosted r).setRing r RingSt.reset with
          cmd := ((s.flushPosted r).setRing r RingSt.reset).cmd.dropLine (s.ring r).ctx.dbLine }) r := rfl
  rw [h, State.ringClosed, State.leaveLine]

theorem State.closeNow_of_ne_zero (s : State) {r : Nat} (hr : r ≠ 0) : s.closeNow r = (s.ringClosed r).fencesDone r := by
  rw [State.closeNow_eq, State.afterClose, if_neg hr]

/-- The registers of ring 0 when it has closed and no enable waits. -/
def State.ring0Closed (t : State) : State := { t with cmd := { t.cmd with r0State := 0, enableWaits := false } }

theorem State.ring_ring0Closed (t : State) (q : Nat) : t.ring0Closed.ring q = t.ring q := rfl
theorem State.r0State_ring0Closed (t : State) : t.ring0Closed.cmd.r0State = 0 := rfl
theorem State.adminEnable_ring0Closed (t : State) : t.ring0Closed.cmd.adminEnable = t.cmd.adminEnable := rfl

theorem State.afterClose_zero (t : State) (h : t.cmd.enableWaits = false) : t.afterClose 0 = t.ring0Closed := by
  rw [State.afterClose, if_pos rfl, h]
  rfl

/-- Ring 0 closes, and no enable waits for it. -/
theorem State.closeNow_zero (s : State) (h : s.cmd.enableWaits = false) : s.closeNow 0 = (s.ringClosed 0).ring0Closed := by
  rw [State.closeNow_eq, State.afterClose_zero _ ((s.enableWaits_ringClosed 0).trans h)]

theorem State.ring_closeNow_zero (s : State) (h : s.cmd.enableWaits = false) : (s.closeNow 0).ring 0 = RingSt.reset := by
  rw [State.closeNow_zero s h, State.ring_ring0Closed, State.ring_ringClosed_self]

theorem ringsSameBut_closeNow_zero (s : State) (h : s.cmd.enableWaits = false) : ringsSameBut s (s.closeNow 0) 0 := fun q hq => by
  rw [State.closeNow_zero s h, State.ring_ring0Closed, ringsSameBut_ringClosed s 0 q hq]

theorem State.r0State_closeNow_zero (s : State) (h : s.cmd.enableWaits = false) : (s.closeNow 0).cmd.r0State = 0 := by
  rw [State.closeNow_zero s h, State.r0State_ring0Closed]

theorem State.adminEnable_closeNow_zero (s : State) (h : s.cmd.enableWaits = false) :
    (s.closeNow 0).cmd.adminEnable = s.cmd.adminEnable := by
  rw [State.closeNow_zero s h, State.adminEnable_ring0Closed, State.adminEnable_ringClosed]

/-- A ring as it opens (R574). -/
def RingSt.opened (ctx : RingCtx) (fid v : Nat) : RingSt :=
  { RingSt.reset with state := .idle, before := .idle, ctx := ctx, field := fid, fetched := v, produced := v, seen := v }

theorem State.openRing_eq (s : State) (r : Nat) (ctx : RingCtx) (fid : Nat) : s.openRing r ctx fid =
    State.writeFetchWb { s.setRing r (RingSt.opened ctx fid (leNat (s.hostRead (ctx.dbLine + 4 * ctx.dbSlot) 4))) with
      cmd := s.cmd.addLine ctx.dbLine } r (leNat (s.hostRead (ctx.dbLine + 4 * ctx.dbSlot) 4)) := rfl

theorem State.openRing_frame (s : State) (r : Nat) (ctx : RingCtx) (fid : Nat) : s.openRing r ctx fid =
    { s with cmd := s.cmd.addLine ctx.dbLine, host := (s.openRing r ctx fid).host, rings := (s.openRing r ctx fid).rings } := rfl

theorem State.rings_openRing (s : State) (r : Nat) (ctx : RingCtx) (fid : Nat) : (s.openRing r ctx fid).rings =
    (s.setRing r (RingSt.opened ctx fid (leNat (s.hostRead (ctx.dbLine + 4 * ctx.dbSlot) 4)))).rings := rfl

theorem State.ring_openRing_self (s : State) (r : Nat) (ctx : RingCtx) (fid : Nat) : (s.openRing r ctx fid).ring r =
    RingSt.opened ctx fid (leNat (s.hostRead (ctx.dbLine + 4 * ctx.dbSlot) 4)) := by
  rw [State.ring, State.rings_openRing, ← State.ring, State.ring_setRing_self]

theorem ringsSameBut_openRing (s : State) (r : Nat) (ctx : RingCtx) (fid : Nat) : ringsSameBut s (s.openRing r ctx fid) r := fun q hq => by
  rw [State.ring, State.rings_openRing, ← State.ring, State.ring_setRing, if_neg hq]

/-- Ring 0 opens at a good entry 0. -/
theorem State.openAdmin_of_good (s : State) (hbase : s.applied.rctBase ≠ 0) (hpoison : s.ringEntryPoison 0 = false)
    (hgood : ringEntryBad (s.ringEntry 0) = false) :
    s.openAdmin = State.openRing { s with cmd := { s.cmd with r0State := 1 } } 0 (parseRing (s.ringEntry 0)) 0 :=
  if_neg (not_or.mpr ⟨hbase, by simp [hpoison, hgood]⟩)

/-- Without a table ring 0 does not open, and the event log says so. -/
theorem State.openAdmin_of_no_table (s : State) (hbase : s.applied.rctBase = 0) :
    s.openAdmin = State.event { s with cmd := { s.cmd with r0State := 3 } } .ring0Unopened none 0 0 none 0 [] :=
  if_pos (Or.inl hbase)

/-- Reading the producer index of a ring changes only what the ring has seen and where it is produced to. -/
theorem State.readProducer_eq (s : State) (r : Nat) :
    ∃ v : Nat × Nat, s.readProducer r = s.setRing r { s.ring r with seen := v.1, produced := v.2 } := by
  unfold State.readProducer
  dsimp only
  split
  · exact ⟨(_, _), rfl⟩
  · exact ⟨(_, (s.ring r).produced), rfl⟩

/-! ### Rings that stop at their fetch index, and what is read from their slots -/

/-- A ring stopped at its fetch index (R47). -/
def RingSt.stoppedUnfetched (x : RingSt) : RingSt :=
  { x.become .stopped with stopAt := x.fetched, skipped := true, waitFrom := none }

theorem RingSt.stoppedUnfetched_eq (x : RingSt) : x.stoppedUnfetched = { x with
    state := x.stoppedUnfetched.state, before := x.stoppedUnfetched.before
    stopAt := x.fetched, skipped := true, waitFrom := none } := by
  rw [RingSt.stoppedUnfetched, RingSt.become_eq]

theorem RingSt.isStopped_stoppedUnfetched (x : RingSt) : x.stoppedUnfetched.isStopped = true := RingSt.isStopped_become _

/-- Ring r has stopped at its fetch index with one more record; no other ring, counter or doorbell line has changed. -/
structure State.StoppedUnfetched (r : Nat) (s t : State) : Prop where
  self   : t.ring r = RingSt.stoppedUnfetched { s.ring r with records := (s.ring r).records + 1 }
  others : ringsSameBut s t r
  ctr    : t.ctr = s.ctr
  cmd    : t.cmd = { s.cmd with r0State := t.cmd.r0State, pba := t.cmd.pba, hold := t.cmd.hold }

theorem State.stoppedUnfetched_stopUnfetched (s : State) (r : Nat) (f : Failure) :
    State.StoppedUnfetched r s (s.stopUnfetched r f) := by
  unfold State.stopUnfetched
  extract_lets -underBinder x s1 cmd s2
  have h1 : s1.ring r = { s.ring r with records := (s.ring r).records + 1 } := State.ring_writeRecord_self ..
  have h1' : ringsSameBut s s1 r := ringsSameBut_writeRecord s r _ _ _ _
  have hctr : s1.ctr = s.ctr := by
    unfold s1
    rw [State.writeRecord_eq]
    rfl
  have hcmd : s1.cmd = { s.cmd with pba := s1.cmd.pba, hold := s1.cmd.hold } := by
    unfold s1
    rw [State.writeRecord_eq]
  clear_value s1
  have h2 : s2.rings = s1.rings ∧ s2.ctr = s1.ctr ∧ s2.cmd = { s1.cmd with r0State := s2.cmd.r0State } := by
    unfold s2
    split
    · exact ⟨rfl, rfl, rfl⟩
    · exact ⟨rfl, rfl, rfl⟩
  clear_value s2
  obtain ⟨hrings, hctr2, hcmd2⟩ := h2
  have hring : ∀ q, s2.ring q = s1.ring q := fun q => by rw [State.ring, hrings, ← State.ring]
  refine ⟨?_, fun q hq => ?_, ?_, ?_⟩
  · rw [State.ring_modRing_self, hring, h1]
    rfl
  · rw [State.ring_modRing, if_neg hq, hring, h1' q hq]
  · rw [State.modRing, State.setRing_ctr, hctr2, hctr]
  · rw [State.modRing, State.setRing_cmd, hcmd2, hcmd]

/-- A ring whose doorbell slot has been read with value v (R45, R47). -/
def RingSt.seeing (x : RingSt) (v : Nat) : RingSt :=
  if x.isStopped then { x with seen := v }
  else if x.producerOk v then ({ x with seen := v, produced := v } : RingSt).settle
  else RingSt.stoppedUnfetched { x with seen := v, records := x.records + 1 }

theorem RingSt.seeing_of_stopped {x : RingSt} (h : x.isStopped = true) (v : Nat) : x.seeing v = { x with seen := v } := if_pos h

theorem RingSt.seeing_of_ok {x : RingSt} {v : Nat} (h : x.isStopped = false) (hok : x.producerOk v = true) :
    x.seeing v = ({ x with seen := v, produced := v } : RingSt).settle :=
  (if_neg (by rw [h]; exact Bool.false_ne_true)).trans (if_pos hok)

theorem RingSt.seeing_of_bad {x : RingSt} {v : Nat} (h : x.isStopped = false) (hbad : x.producerOk v = false) :
    x.seeing v = RingSt.stoppedUnfetched { x with seen := v, records := x.records + 1 } :=
  (if_neg (by rw [h]; exact Bool.false_ne_true)).trans (if_neg (by rw [hbad]; exact Bool.false_ne_true))

@[simp] theorem RingSt.seeing_ctx (x : RingSt) (v : Nat) : (x.seeing v).ctx = x.ctx := by
  unfold RingSt.seeing
  split
  · rfl
  · split
    · rw [RingSt.settle_ctx]
    · rw [RingSt.stoppedUnfetched_eq]

@[simp] theorem RingSt.seeing_fetched (x : RingSt) (v : Nat) : (x.seeing v).fetched = x.fetched := by
  unfold RingSt.seeing
  split
  · rfl
  · split
    · rw [RingSt.settle_fetched]
    · rw [RingSt.stoppedUnfetched_eq]

@[simp] theorem RingSt.seeing_clauses (x : RingSt) (v : Nat) : (x.seeing v).clauses = x.clauses := by
  unfold RingSt.seeing
  split
  · rfl
  · split
    · rw [RingSt.settle_clauses]
    · rw [RingSt.stoppedUnfetched_eq]

/-- A slot of ring r has been read: no other ring, counter or doorbell line has changed. -/
structure State.ProducerSeen (r v : Nat) (s t : State) : Prop where
  self   : t.ring r = (s.ring r).seeing v
  others : ringsSameBut s t r
  ctr    : t.ctr = s.ctr
  cmd    : t.cmd = { s.cmd with r0State := t.cmd.r0State, pba := t.cmd.pba, hold := t.cmd.hold }

theorem State.producerSeen_seeProducer (s : State) (r v : Nat) : State.ProducerSeen r v s (s.seeProducer r v) := by
  unfold State.seeProducer
  extract_lets -underBinder x
  split
  case isTrue h =>
    exact ⟨(State.ring_setRing_self ..).trans (RingSt.seeing_of_stopped h v).symm, ringsSameBut_setRing s r _, rfl, rfl⟩
  case isFalse h =>
    have hx : x.isStopped = false := by simpa using h
    split
    case isTrue hok =>
      exact ⟨(State.ring_setRing_self ..).trans (RingSt.seeing_of_ok hx hok).symm, ringsSameBut_setRing s r _, rfl, rfl⟩
    case isFalse hbad =>
      have hs := State.stoppedUnfetched_stopUnfetched (s.setRing r { x with seen := v }) r (failNone stDoorbellInvalid 0)
      refine ⟨?_, fun q hq => (hs.others q hq).trans (ringsSameBut_setRing s r _ q hq), hs.ctr, hs.cmd⟩
      rw [hs.self, State.ring_setRing_self]
      exact (RingSt.seeing_of_bad hx (by simpa using hbad)).symm

end Sys2Proof.Machine
end

section
/-! PROOFS. O12: hold-offs and wait timeouts. -/

open Sys2Proof Sys2Proof.Machine

namespace Sys2Proof.Proofs

/-- The state once the hold-off of a vector is over. -/
def endHold (s : State) (v : Nat) : State := { s with cmd := { s.cmd with hold := Tbl.drop s.cmd.hold v } }

theorem exec_msixHoldoffExpiry_of_find {v : Nat} {late : Bool} {s : State} (h : Tbl.find s.cmd.hold v = some late) :
    exec (.msixHoldoffExpiry v) s = .next (if late then (endHold s v).raiseMsix v else endHold s v) := by
  simp only [exec, execMsixHoldoffExpiry, h]
  rfl

/-- A vector that is neither masked nor in hold-off fires: its message goes out, and its hold-off begins. -/
theorem raiseMsix_of_not_masked {s : State} {v : Nat} (hfind : Tbl.find s.cmd.hold v = none) (hmask : s.msixMasked v = false) :
    s.raiseMsix v = { s with io := { s.io with msix := v :: s.io.msix }, cmd := s.cmd.startHold v } := by
  simp [State.raiseMsix, hfind, State.fireMsix, hmask]

/-- The end of a hold-off with an event held back fires the vector. -/
theorem msixHoldoffExpiry_fires {v : Nat} {s : State} (hlate : Tbl.find s.cmd.hold v = some true) (hmask : s.msixMasked v = false) :
    ∃ t : State, exec (.msixHoldoffExpiry v) s = .next t ∧ t.io.msix = v :: s.io.msix ∧
      t = { s with cmd := { s.cmd with hold := t.cmd.hold }, io := { s.io with msix := t.io.msix } } := by
  have hdrop : Tbl.find (endHold s v).cmd.hold v = none := by rw [endHold, Tbl.find_drop, if_pos rfl]
  rw [exec_msixHoldoffExpiry_of_find hlate, if_pos rfl, raiseMsix_of_not_masked hdrop hmask]
  refine ⟨_, rfl, rfl, ?_⟩
  dsimp only
  rw [Cmd.startHold_eq]
  rfl

/-- With no ring waiting, the new timeout finds no wait to end. -/
theorem exec_waitTimeoutWrite_of_no_wait {v : Word32} {s : State} (h : ∀ r ∈ Tbl.keys s.rings, (s.ring r).waitFrom = none) :
    exec (.waitTimeoutWrite v) s = .next { s with cmd := { s.cmd with waitTimeout := BitVec.ofNat 14 v.toNat } } := by
  have hv : BitVec.ofNat 14 (v.toNat % 2 ^ 14) = BitVec.ofNat 14 v.toNat := by
    apply BitVec.eq_of_toNat_eq
    simp
  simp only [exec, execWaitTimeoutWrite, hv]
  refine congrArg Host.Outcome.next (List.foldlRecOn (motive := fun t : State => t = _) _ _ rfl ?_)
  rintro t rfl r hr
  have hw : (s.ring r).waitFrom = none := h r hr
  simp only [show ∀ c : Cmd, State.ring { s with cmd := c } r = s.ring r from fun _ => rfl, hw]

/-- Settles O12: the hold-off's two ends, the wait that fails by `failWait`, and the write that finds no wait. -/
theorem holdOffsAndWaitTimeouts : Obligations.HoldOffsAndWaitTimeouts := by
  unfold Obligations.HoldOffsAndWaitTimeouts
  refine ⟨?quiet, ?late, ?timeout, ?write⟩
  case quiet => exact fun v s h => exec_msixHoldoffExpiry_of_find h
  case late => exact fun v s hlate hmask => msixHoldoffExpiry_fires hlate hmask
  case timeout =>
    intro r c s hrun hwait htime hhalt hhead
    simp only [exec, execWaitTimeout, State.failWait, hhead]
    exact if_pos ⟨hrun, hwait, htime, by simp [hhalt]⟩
  case write => exact fun v s h => exec_waitTimeoutWrite_of_no_wait h

end Sys2Proof.Proofs
end

section
/-! PROOFS. O9: fetched clauses join their ring. -/

open Sys2Proof Sys2Proof.Machine

namespace Sys2Proof.Proofs

/-- What a ring has taken in after a fetch of clauses cs: posted clauses at its end, their count on its fetch index. -/
structure TookClauses (x y : RingSt) (cs : List FetchedClause) : Prop where
  clauses  : ∃ new : List ClauseSt, y.clauses = x.clauses ++ new ∧ new.map (·.bits) = cs.map (·.bits) ∧ ∀ c ∈ new, c.phase = .posted
  fetched  : y.fetched % 2 ^ 32 = (x.fetched + cs.length) % 2 ^ 32
  bounded  : cs ≠ [] → y.fetched < 2 ^ 32
  produced : y.produced = x.produced
  ctx      : y.ctx = x.ctx

theorem tookClauses_foldl (x : RingSt) (cs : List FetchedClause) : TookClauses x (cs.foldl RingSt.takeClause x) cs := by
  induction cs generalizing x with
  | nil => exact ⟨⟨[], by simp⟩, rfl, fun h => absurd rfl h, rfl, rfl⟩
  | cons c cs ih =>
    obtain ⟨⟨new, hnew, hbits, hposted⟩, hfetched, hbounded, hproduced, hctx⟩ := ih (x.takeClause c)
    refine ⟨⟨newClause x.fetched x.sentence c :: new, ?_, ?_, ?_⟩, ?_, fun _ => ?_, hproduced, hctx⟩
    · rw [List.foldl_cons, hnew]
      simp [RingSt.takeClause]
    · simp [hbits, newClause]
    · exact List.forall_mem_cons.mpr ⟨rfl, hposted⟩
    · rw [List.foldl_cons, hfetched, List.length_cons]
      simp only [RingSt.takeClause]
      omega
    · by_cases hcs : cs = []
      · subst hcs
        exact Nat.mod_lt _ (by norm_num)
      · exact hbounded hcs

/-- A fetch that the ring has room for takes every clause. -/
theorem exec_fetchComplete {r : Nat} {cs : List FetchedClause} {s : State} (hmay : (s.ring r).mayFetch = true) (hcs : cs ≠ [])
    (hroom : cs.length ≤ (s.ring r).fetchRoom) :
    exec (.fetchComplete r cs) s = .next ((s.setRing r (cs.foldl RingSt.takeClause (s.ring r)).settle).writeFetchWb r
      (cs.foldl RingSt.takeClause (s.ring r)).fetched).issueAll := by
  simp only [exec, execFetchComplete, List.take_of_length_le hroom, hmay]
  exact if_neg (by simpa using hcs)

/-- Settles O9: the clauses that the ring takes one by one, and the write of FETCH_WB. -/
theorem fetchJoinsRing : Obligations.FetchJoinsRing := by
  intro r cs s hmay hcs hroom
  obtain ⟨⟨new, hnew, hbits, hposted⟩, hfetched, hbounded, hproduced, hctx⟩ := tookClauses_foldl (s.ring r) cs
  have hexec := exec_fetchComplete hmay hcs hroom
  generalize cs.foldl RingSt.takeClause (s.ring r) = y at *
  have hring : ((s.setRing r y.settle).writeFetchWb r y.fetched).ring r = y.settle := State.ring_setRing_self s r _
  have hwb : ((s.setRing r y.settle).ring r).ctx.fetchWb = (s.ring r).ctx.fetchWb := by simp [hctx]
  have hindex : y.fetched = ((s.ring r).fetched + cs.length) % 2 ^ 32 := by
    rw [← hfetched, Nat.mod_eq_of_lt (hbounded hcs)]
  refine ⟨_, hexec, rfl, ?_, ?_, ?_, ?_, ?_, ringsSameBut_setRing s r _, ?_, ?_⟩
  · simp [hring, hnew, hbits]
  · simp [hring, hnew]
  · simpa [hring, hnew] using hposted
  · rw [hring, RingSt.settle_fetched, hindex]
  · simp [hring, hproduced]
  · rw [← hwb, State.readRange_writeFetchWb, hfetched]
  · rw [← hwb]
    exact State.hostSameOutside_writeFetchWb (s.setRing r y.settle) r y.fetched

end Sys2Proof.Proofs
end

section
/-! PROOFS. O15: ring 0 opens at ADMIN_ENABLE and closes at ADMIN_DISABLE. -/

open Sys2Proof Sys2Proof.Machine

namespace Sys2Proof.Proofs

/-- Host memory as the command finds it, with ENABLE set. -/
def enabled (h : HostView) (s : State) : State :=
  { s.seeHost h with cmd := { s.cmd with adminEnable := true } }

theorem exec_adminEnable_of_closed {h : HostView} {s : State} (hen : s.cmd.adminEnable = false)
    (hclosed : (s.ring 0).state = .closed) : exec (.adminEnable h) s = .next (enabled h s).openAdmin := by
  have hopen : ((s.seeHost h).ring 0).isOpen = false := by
    show (s.ring 0).isOpen = false
    simp [RingSt.isOpen, hclosed]
  have henable : (s.seeHost h).cmd.adminEnable = false := hen
  simp only [exec, execAdminEnable, henable, Bool.false_eq_true, if_false]
  exact if_neg fun hc => Bool.false_ne_true (hopen.symm.trans hc)

theorem adminEnable_opens {h : HostView} {s : State} (hen : s.cmd.adminEnable = false) (hclosed : (s.ring 0).state = .closed)
    (hbase : s.applied.rctBase ≠ 0) (hpoison : (s.seeHost h).ringEntryPoison 0 = false)
    (hgood : ringEntryBad ((s.seeHost h).ringEntry 0) = false) :
    ∃ t : State, exec (.adminEnable h) s = .next t ∧ t.cmd.adminEnable = true ∧ t.cmd.r0State = 1 ∧ (t.ring 0).state = .idle ∧
      (t.ring 0).ctx = parseRing ((s.seeHost h).ringEntry 0) ∧
      (t.ring 0).fetched = leNat ((s.seeHost h).hostRead ((t.ring 0).ctx.dbLine + 4 * (t.ring 0).ctx.dbSlot) 4) ∧
      (t.ring 0).produced = (t.ring 0).fetched ∧ ringsSameBut s t 0 ∧
      t = { s with cmd := t.cmd, host := t.host, rings := t.rings } := by
  have hopen := State.openAdmin_of_good (enabled h s) hbase hpoison hgood
  have hring := State.ring_openRing_self { enabled h s with cmd := { (enabled h s).cmd with r0State := 1 } } 0
    (parseRing ((enabled h s).ringEntry 0)) 0
  have hothers := ringsSameBut_openRing { enabled h s with cmd := { (enabled h s).cmd with r0State := 1 } } 0
    (parseRing ((enabled h s).ringEntry 0)) 0
  refine ⟨_, exec_adminEnable_of_closed hen hclosed, ?_⟩
  rw [hopen]
  refine ⟨?_, ?_, ?_, ?_, ?_, ?_, hothers, rfl⟩
  · rw [State.openRing_frame, Cmd.addLine_eq]
    rfl
  · rw [State.openRing_frame, Cmd.addLine_eq]
  · rw [hring]; rfl
  · rw [hring]; rfl
  · rw [hring]; rfl
  · rw [hring]; rfl

theorem adminEnable_without_table {h : HostView} {s : State} (hen : s.cmd.adminEnable = false)
    (hclosed : (s.ring 0).state = .closed) (hbase : s.applied.rctBase = 0) :
    ∃ t : State, exec (.adminEnable h) s = .next t ∧ t.cmd.r0State = 3 ∧ t.rings = s.rings := by
  refine ⟨_, exec_adminEnable_of_closed hen hclosed, ?_⟩
  rw [State.openAdmin_of_no_table (enabled h s) hbase]
  exact ⟨rfl, rfl⟩

/-- Host memory as the command finds it, with ENABLE clear. -/
def disabled (h : HostView) (s : State) : State :=
  { s.seeHost h with
    cmd := { s.cmd with adminEnable := false, enableWaits := false, r0State := if s.cmd.r0State = 3 then 0 else s.cmd.r0State } }

/-- A ring that is not stopped and has nothing outstanding closes as soon as it begins to. -/
theorem beginClose_of_idle {s : State} {r : Nat} (hstop : (s.ring r).isStopped = false)
    (hout : (s.ring r).clauses.any ClauseSt.outstanding = false) :
    s.beginClose r = (s.modRing r (fun (R : RingSt) => { R with closing := true })).closeNow r := by
  have hring := State.ring_modRing_self s r (fun (R : RingSt) => { R with closing := true })
  simp only [State.beginClose, hstop, Bool.false_eq_true, if_false]
  exact if_pos (by rw [hring]; exact ⟨rfl, by simp [hout]⟩)

theorem exec_adminDisable_of_open {h : HostView} {s : State} (hopen : (s.ring 0).isOpen = true) :
    exec (.adminDisable h) s = .next (((disabled h s).readProducer 0).beginClose 0) :=
  if_pos hopen

theorem adminDisable_closes {h : HostView} {s : State} (hopen : (s.ring 0).isOpen = true) (hstop : (s.ring 0).isStopped = false)
    (hout : (s.ring 0).clauses.any ClauseSt.outstanding = false) :
    ∃ t : State, exec (.adminDisable h) s = .next t ∧ t.ring 0 = RingSt.reset ∧ t.cmd.r0State = 0 ∧ t.cmd.adminEnable = false ∧
      ringsSameBut s t 0 := by
  obtain ⟨v, hv⟩ := (disabled h s).readProducer_eq 0
  have hring : ((disabled h s).readProducer 0).ring 0 = { s.ring 0 with seen := v.1, produced := v.2 } := by
    rw [hv, State.ring_setRing_self]
    rfl
  have hcmd : ((disabled h s).readProducer 0).cmd = (disabled h s).cmd := by rw [hv, State.setRing_cmd]
  have hothers : ringsSameBut s ((disabled h s).readProducer 0) 0 := fun q hq => by
    rw [hv, State.ring_setRing, if_neg hq]
    rfl
  refine ⟨_, exec_adminDisable_of_open hopen, ?_⟩
  generalize (disabled h s).readProducer 0 = u at hring hcmd hothers ⊢
  rw [beginClose_of_idle (by rw [hring]; exact hstop) (by rw [hring]; exact hout)]
  have hclosing := ringsSameBut_setRing u 0 { u.ring 0 with closing := true }
  have hwaits : (u.modRing 0 (fun (R : RingSt) => { R with closing := true })).cmd.enableWaits = false := by
    rw [State.modRing, State.setRing_cmd, hcmd]
    rfl
  refine ⟨State.ring_closeNow_zero _ hwaits, State.r0State_closeNow_zero _ hwaits, ?_, fun q hq => ?_⟩
  · rw [State.adminEnable_closeNow_zero _ hwaits, State.modRing, State.setRing_cmd, hcmd]
    rfl
  · exact (ringsSameBut_closeNow_zero _ hwaits q hq).trans ((hclosing q hq).trans (hothers q hq))

/-- Settles O15: ring 0 opens by `openAdmin`, and closes at once where nothing of it is outstanding. -/
theorem ringZeroOpensAndCloses : Obligations.RingZeroOpensAndCloses := by
  unfold Obligations.RingZeroOpensAndCloses
  exact ⟨fun _ _ => adminEnable_opens, fun _ _ => adminEnable_without_table, fun _ _ => adminDisable_closes⟩

end Sys2Proof.Proofs
end

section
/-! PROOFS. O8: doorbell lines. A line's read changes the line's own entries; each ring on the line then takes the value of its
slot, which touches that ring alone. -/

open Sys2Proof Sys2Proof.Machine

namespace Sys2Proof.Proofs

/-- A fold brings about for one of its elements what that element's step brings about, when earlier steps do not hinder it and
later ones keep it. -/
theorem foldl_of_mem {σ α : Type} {f : σ → α → σ} {P Q : σ → Prop} {a : α} {l : List α} {s : σ} (ha : a ∈ l) (hs : P s)
    (keep : ∀ t b, b ≠ a → P t → P (f t b)) (make : ∀ t, P t → Q (f t a)) (stay : ∀ t b, Q t → Q (f t b)) : Q (l.foldl f s) := by
  obtain ⟨before, after, rfl, hnot⟩ := List.eq_append_cons_of_mem ha
  rw [List.foldl_append, List.foldl_cons]
  refine List.foldlRecOn after f (make _ ?_) fun t ht b _ => stay t b ht
  exact List.foldlRecOn before f hs fun t ht b hb => keep t b (fun h => hnot (h ▸ hb)) ht

/-! ### What a line's read does to the line -/

/-- A line's entry after its read (R45, R462). -/
def lineRead (line : Nat) (poison : Bool) (w : WatchLine) : WatchLine :=
  if w.line = line then { w with shared := true, poisoned := if poison then w.poisoned + 1 else 0 } else w

/-- The device with a line's entries as its read leaves them. -/
def withLineRead (s : State) (line : Nat) (poison : Bool) : State :=
  { s with cmd := { s.cmd with
    watch := s.cmd.watch.map (lineRead line poison), polled := s.cmd.polled.map (lineRead line poison)
    reading := delSet line s.cmd.reading } }

/-- Poisoned reads of a line in a row. -/
def linePoisoned (s : State) (line : Nat) : Nat :=
  match (s.cmd.watch ++ s.cmd.polled).find? (fun w => w.line == line) with
  | some w => w.poisoned
  | none => 0

/-- Ring r stops unless it has stopped. -/
def stopForPoison (s : State) (r : Nat) : State := if (s.ring r).isStopped then s else s.stopUnfetched r (failNone stPoisonConsumed 0)

/-- Ring r takes the value of its slot. -/
def seeSlot (rd : LineRead) (s : State) (r : Nat) : State := s.seeProducer r (rd.slots.getD (s.ring r).ctx.dbSlot 0).toNat

theorem readLine_of_clean {s : State} {line : Nat} {rd : LineRead} (h : rd.poison = false) : s.readLine line rd =
    (s.ringsOnLine line).foldl (seeSlot rd)
      ((withLineRead s line rd.poison).hostWrite line (wordsToBytes (rd.slots.take 16))) := by
  unfold State.readLine
  exact if_neg (by rw [h]; exact Bool.false_ne_true)

theorem readLine_of_third {s : State} {line : Nat} {rd : LineRead} (h : rd.poison = true) (h3 : linePoisoned s line = 2) :
    s.readLine line rd = (s.ringsOnLine line).foldl stopForPoison
      ((withLineRead s line rd.poison).ctrAdd 0x1100020 1) := by
  unfold State.readLine
  exact (if_pos h).trans (if_pos (congrArg (· + 1) h3))

theorem readLine_of_early {s : State} {line : Nat} {rd : LineRead} (h : rd.poison = true) (h3 : linePoisoned s line ≠ 2) :
    s.readLine line rd = (withLineRead s line rd.poison).ctrAdd 0x1100020 1 := by
  unfold State.readLine
  exact (if_pos h).trans (if_neg fun h => h3 (Nat.succ.inj h))

/-- The counters and the doorbell lines are as they were. -/
structure LinesKept (s t : State) : Prop where
  ctr : t.ctr = s.ctr
  cmd : t.cmd = { s.cmd with r0State := t.cmd.r0State, pba := t.cmd.pba, hold := t.cmd.hold }

theorem LinesKept.refl (s : State) : LinesKept s s := ⟨rfl, rfl⟩

theorem LinesKept.trans {s t u : State} (h : LinesKept s t) (g : LinesKept t u) : LinesKept s u :=
  ⟨g.ctr.trans h.ctr, by rw [g.cmd, h.cmd]⟩

theorem LinesKept.watch {s t : State} (h : LinesKept s t) : t.cmd.watch = s.cmd.watch := by rw [h.cmd]
theorem LinesKept.polled {s t : State} (h : LinesKept s t) : t.cmd.polled = s.cmd.polled := by rw [h.cmd]
theorem LinesKept.reading {s t : State} (h : LinesKept s t) : t.cmd.reading = s.cmd.reading := by rw [h.cmd]

theorem linesKept_hostWrite (s : State) (a : Nat) (bs : List Byte) : LinesKept s (s.hostWrite a bs) := ⟨rfl, rfl⟩

theorem linesKept_stopForPoison (s : State) (r : Nat) : LinesKept s (stopForPoison s r) := by
  have h := State.stoppedUnfetched_stopUnfetched s r (failNone stPoisonConsumed 0)
  unfold stopForPoison
  split
  · exact .refl s
  · exact ⟨h.ctr, h.cmd⟩

theorem isStopped_stopForPoison_self (s : State) (r : Nat) : ((stopForPoison s r).ring r).isStopped = true := by
  have h := State.stoppedUnfetched_stopUnfetched s r (failNone stPoisonConsumed 0)
  unfold stopForPoison
  split
  · assumption
  · rw [h.self]
    exact RingSt.isStopped_stoppedUnfetched _

theorem isStopped_stopForPoison {s : State} {r : Nat} (q : Nat) (hs : (s.ring r).isStopped = true) :
    ((stopForPoison s q).ring r).isStopped = true := by
  by_cases hq : r = q
  · subst q
    exact isStopped_stopForPoison_self s r
  · have h := State.stoppedUnfetched_stopUnfetched s q (failNone stPoisonConsumed 0)
    unfold stopForPoison
    split
    · exact hs
    · rw [h.others r hq]
      exact hs

theorem linesKept_seeSlot (rd : LineRead) (s : State) (r : Nat) : LinesKept s (seeSlot rd s r) := by
  have h := State.producerSeen_seeProducer s r (rd.slots.getD (s.ring r).ctx.dbSlot 0).toNat
  unfold seeSlot
  exact ⟨h.ctr, h.cmd⟩

theorem linesKept_foldl {α : Type} {f : State → α → State} (hf : ∀ s a, LinesKept s (f s a)) (l : List α) (s : State) :
    LinesKept s (l.foldl f s) :=
  List.foldlRecOn l f (.refl s) fun t ht a _ => ht.trans (hf t a)

/-- What the read of a line brings about for a ring x on it that is not stopped: y has its value, or is stopped. -/
structure SlotTaken (v : Nat) (x y : RingSt) : Prop where
  ctx     : y.ctx = x.ctx
  fetched : y.fetched = x.fetched
  good    : x.producerOk v = true → y.produced = v
  bad     : x.producerOk v = false → y.isStopped = true

theorem producerOk_congr {x y : RingSt} (hc : y.ctx = x.ctx) (hf : y.fetched = x.fetched) (v : Nat) :
    y.producerOk v = x.producerOk v := by
  rw [RingSt.producerOk, RingSt.producerOk, RingSt.size, RingSt.size, hc, hf]

theorem slotTaken_seeing {x : RingSt} (v : Nat) (h : x.isStopped = false) : SlotTaken v x (x.seeing v) where
  ctx := RingSt.seeing_ctx x v
  fetched := RingSt.seeing_fetched x v
  good hok := by rw [RingSt.seeing_of_ok h hok, RingSt.settle_produced]
  bad hbad := by
    rw [RingSt.seeing_of_bad h hbad]
    exact RingSt.isStopped_stoppedUnfetched _

/-- Reading the slot again changes nothing of that. -/
theorem SlotTaken.seeing {v : Nat} {x y : RingSt} (h : SlotTaken v x y) : SlotTaken v x (y.seeing v) := by
  refine ⟨(RingSt.seeing_ctx y v).trans h.ctx, (RingSt.seeing_fetched y v).trans h.fetched, fun hok => ?_, fun hbad => ?_⟩
  · by_cases hstop : y.isStopped = true
    · rw [RingSt.seeing_of_stopped hstop]
      exact h.good hok
    · rw [RingSt.seeing_of_ok (by simpa using hstop) ((producerOk_congr h.ctx h.fetched v).trans hok), RingSt.settle_produced]
  · rw [RingSt.seeing_of_stopped (h.bad hbad)]
    exact h.bad hbad

/-- A clean read gives each ring on the line that is not stopped its slot's value, or stops it. -/
theorem slotTaken_foldl {rd : LineRead} {s : State} {l : List Nat} {r : Nat} (hr : r ∈ l) (hstop : (s.ring r).isStopped = false) :
    SlotTaken (rd.slots.getD (s.ring r).ctx.dbSlot 0).toNat (s.ring r) ((l.foldl (seeSlot rd) s).ring r) := by
  refine foldl_of_mem (P := fun t : State => t.ring r = s.ring r)
    (Q := fun t : State => SlotTaken (rd.slots.getD (s.ring r).ctx.dbSlot 0).toNat (s.ring r) (t.ring r)) hr rfl
    (fun t q hq ht => ?_) (fun t ht => ?_) (fun t q ht => ?_)
  · exact ((State.producerSeen_seeProducer t q _).others r (Ne.symm hq)).trans ht
  · rw [seeSlot, (State.producerSeen_seeProducer t r _).self, ht]
    exact slotTaken_seeing _ hstop
  · have h := State.producerSeen_seeProducer t q (rd.slots.getD (t.ring q).ctx.dbSlot 0).toNat
    by_cases hq : r = q
    · subst q
      rw [seeSlot, h.self, ht.ctx]
      exact ht.seeing
    · rw [seeSlot, h.others r hq]
      exact ht

/-! ### The six events -/

/-- The watch table with a line given up. -/
def lineGiven (line : Nat) (w : WatchLine) : WatchLine := if w.line = line then { w with shared := false } else w

@[simp] theorem line_lineGiven (line : Nat) (w : WatchLine) : (lineGiven line w).line = w.line := by
  unfold lineGiven
  split <;> rfl

@[simp] theorem line_lineRead (line : Nat) (poison : Bool) (w : WatchLine) : (lineRead line poison w).line = w.line := by
  unfold lineRead
  split <;> rfl

theorem lineRead_of_line {line : Nat} {poison : Bool} {w : WatchLine} (h : w.line = line) :
    lineRead line poison w = { w with shared := true, poisoned := if poison then w.poisoned + 1 else 0 } := if_pos h

/-- The device with a line given up. -/
def withLineGiven (s : State) (line : Nat) : State := { s with cmd := { s.cmd with watch := s.cmd.watch.map (lineGiven line) } }

theorem exec_snoop_none {line : Nat} {s : State} (h : s.cmd.watch.any (fun w => w.line == line) = true) :
    exec (.snoopInvalidate line none) s = .next (withLineGiven s line) := if_pos h

theorem exec_snoop_some {line : Nat} {rd : LineRead} {s : State} (h : s.cmd.watch.any (fun w => w.line == line) = true) :
    exec (.snoopInvalidate line (some rd)) s = .next ((withLineGiven s line).readLine line rd) := if_pos h

/-- A line given up is not Shared, and every other entry stands. -/
theorem lineGiven_spec {line : Nat} {l : List WatchLine} :
    (l.map (lineGiven line)).map (·.line) = l.map (·.line) ∧
    (∀ w ∈ l.map (lineGiven line), w.line = line → w.shared = false) ∧
    (∀ w ∈ l.map (lineGiven line), w.line ≠ line → w ∈ l) := by
  refine ⟨?_, fun w hw hl => ?_, fun w hw hl => ?_⟩
  · rw [List.map_map]
    exact List.map_congr_left fun w _ => line_lineGiven line w
  · obtain ⟨x, _, rfl⟩ := List.mem_map.mp hw
    rw [line_lineGiven] at hl
    rw [lineGiven, if_pos hl]
  · obtain ⟨x, hx, rfl⟩ := List.mem_map.mp hw
    rw [line_lineGiven] at hl
    rwa [lineGiven, if_neg hl]

/-- After its read the line's own entries and its counter have changed as R45 and R462 say. -/
structure LineEnded (line : Nat) (poison : Bool) (s t : State) : Prop where
  reading : line ∉ t.cmd.reading
  entries : ∀ w ∈ t.cmd.watch ++ t.cmd.polled, w.line = line → w.shared = true ∧ (w.poisoned = 0 ↔ poison = false)
  count   : t.ctrGet 0x1100020 = s.ctrGet 0x1100020 + (if poison then 1 else 0)
  others  : countersSameBut s t 0x1100020

theorem LineEnded.kept {line : Nat} {poison : Bool} {s t u : State} (h : LineEnded line poison s t) (g : LinesKept t u) :
    LineEnded line poison s u where
  reading := by rw [g.reading]; exact h.reading
  entries := by rw [g.watch, g.polled]; exact h.entries
  count := by rw [State.ctrGet, g.ctr]; exact h.count
  others q hq := by rw [State.ctrGet, g.ctr]; exact h.others q hq

/-- The entries of a line that has been read. -/
theorem lineRead_spec {line : Nat} {poison : Bool} {l : List WatchLine} :
    ∀ w ∈ l.map (lineRead line poison), w.line = line → w.shared = true ∧ (w.poisoned = 0 ↔ poison = false) := by
  intro w hw hl
  obtain ⟨x, _, rfl⟩ := List.mem_map.mp hw
  rw [line_lineRead] at hl
  rw [lineRead_of_line hl]
  cases poison <;> simp

theorem lineEnded_withLineRead (s : State) (line : Nat) : LineEnded line false s (withLineRead s line false) where
  reading := by simp [withLineRead]
  entries w hw hl := lineRead_spec w (by rw [List.map_append]; exact hw) hl
  count := (BitVec.add_zero _).symm
  others _ _ := rfl

theorem lineEnded_poisoned (s : State) (line : Nat) :
    LineEnded line true s ((withLineRead s line true).ctrAdd 0x1100020 1) where
  reading := by simp [withLineRead, State.ctrAdd, State.ctrPut]
  entries w hw hl := lineRead_spec w (by rw [List.map_append]; exact hw) hl
  count := by
    rw [State.ctrGet_ctrAdd, if_pos rfl]
    rfl
  others q hq := by
    rw [State.ctrGet_ctrAdd, if_neg hq]
    rfl

theorem lineEnded_readLine (s : State) (line : Nat) (rd : LineRead) : LineEnded line rd.poison s (s.readLine line rd) := by
  by_cases hp : rd.poison = true
  · by_cases h3 : linePoisoned s line = 2
    · rw [readLine_of_third hp h3, hp]
      exact (lineEnded_poisoned s line).kept (linesKept_foldl linesKept_stopForPoison _ _)
    · rw [readLine_of_early hp h3, hp]
      exact lineEnded_poisoned s line
  · have hp : rd.poison = false := by simpa using hp
    rw [readLine_of_clean hp, hp]
    exact ((lineEnded_withLineRead s line).kept (linesKept_hostWrite _ line _)).kept (linesKept_foldl (linesKept_seeSlot rd) _ _)

theorem exec_doorbellReread {line : Nat} {rd : LineRead} {s : State}
    (h : line ∈ s.cmd.reading ∨ ∃ w ∈ s.cmd.watch, w.line = line ∧ w.shared = false) :
    exec (.doorbellReread line rd) s = .next (s.readLine line rd) := by
  refine if_pos (Bool.or_eq_true_iff.mpr ?_)
  rcases h with h | ⟨w, hw, hl, hs⟩
  · exact .inr (List.contains_iff_mem.mpr h)
  · exact .inl (List.any_eq_true.mpr ⟨w, hw, by simp [hl, hs]⟩)

theorem snoop_rereads {line : Nat} {rd : LineRead} {s : State} (h : s.cmd.watch.any (fun w => w.line == line) = true) :
    ∃ t u : State, exec (.snoopInvalidate line (some rd)) s = .next t ∧ t = u.readLine line rd ∧
      exec (.snoopInvalidate line none) s = .next u ∧ line ∉ t.cmd.reading ∧
      (∀ w ∈ t.cmd.watch, w.line = line → w.shared = true) := by
  have hended := lineEnded_readLine (withLineGiven s line) line rd
  exact ⟨_, _, exec_snoop_some h, rfl, exec_snoop_none h, hended.reading,
    fun w hw hl => (hended.entries w (List.mem_append_left _ hw) hl).1⟩

theorem reread_reads {line : Nat} {rd : LineRead} {s : State}
    (h : line ∈ s.cmd.reading ∨ ∃ w ∈ s.cmd.watch, w.line = line ∧ w.shared = false) :
    ∃ t : State, exec (.doorbellReread line rd) s = .next t ∧ t = s.readLine line rd ∧ line ∉ t.cmd.reading ∧
      (∀ w ∈ t.cmd.watch ++ t.cmd.polled, w.line = line → w.shared = true ∧ (w.poisoned = 0 ↔ rd.poison = false)) ∧
      t.ctrGet 0x1100020 = s.ctrGet 0x1100020 + (if rd.poison then 1 else 0) ∧ countersSameBut s t 0x1100020 ∧
      (rd.poison = false → ∀ r ∈ s.ringsOnLine line, (s.ring r).isStopped = false →
        if (s.ring r).producerOk (rd.slots.getD (s.ring r).ctx.dbSlot 0).toNat
        then (t.ring r).produced = (rd.slots.getD (s.ring r).ctx.dbSlot 0).toNat
        else (t.ring r).isStopped = true) := by
  have hended := lineEnded_readLine s line rd
  refine ⟨_, exec_doorbellReread h, rfl, hended.reading, hended.entries, hended.count, hended.others, fun hp r hr hstop => ?_⟩
  have htaken := slotTaken_foldl (rd := rd)
    (s := (withLineRead s line rd.poison).hostWrite line (wordsToBytes (rd.slots.take 16))) hr hstop
  rw [readLine_of_clean hp]
  split
  · next hok => exact htaken.good hok
  · next hbad => exact htaken.bad (Bool.eq_false_of_not_eq_true hbad)

theorem third_poisoned_read_stops {line : Nat} {rd : LineRead} {w : WatchLine} {s : State} (hr : line ∈ s.cmd.reading)
    (hp : rd.poison = true) (hw : (s.cmd.watch ++ s.cmd.polled).find? (fun x => x.line == line) = some w) (h2 : w.poisoned = 2) :
    ∃ t : State, exec (.doorbellReread line rd) s = .next t ∧ (∀ r ∈ s.ringsOnLine line, (t.ring r).isStopped = true) := by
  have h3 : linePoisoned s line = 2 := by
    rw [linePoisoned, hw]
    exact h2
  refine ⟨_, exec_doorbellReread (.inl hr), fun r hon => ?_⟩
  rw [readLine_of_third hp h3]
  exact foldl_of_mem (P := fun _ => True) (Q := fun t : State => (t.ring r).isStopped = true) hon trivial
    (fun _ _ _ _ => trivial) (fun t _ => isStopped_stopForPoison_self t r) (fun _ q ht => isStopped_stopForPoison q ht)

theorem early_poisoned_read_counts {line : Nat} {rd : LineRead} {s : State} (hr : line ∈ s.cmd.reading) (hp : rd.poison = true)
    (h2 : ∀ w ∈ s.cmd.watch ++ s.cmd.polled, w.line = line → w.poisoned < 2) :
    ∃ t : State, exec (.doorbellReread line rd) s = .next t ∧ t = { s with cmd := t.cmd, ctr := t.ctr } := by
  have h3 : linePoisoned s line ≠ 2 := by
    unfold linePoisoned
    split
    · next w hw =>
      have := h2 w (List.mem_of_find?_eq_some hw) (by simpa using List.find?_some hw)
      omega
    · decide
  exact ⟨_, (exec_doorbellReread (.inl hr)).trans (congrArg _ (readLine_of_early hp h3)), rfl⟩

theorem length_wordsToBytes (l : List Word32) : (wordsToBytes l).length = 4 * l.length := by
  simp [wordsToBytes, List.length_flatMap, Nat.mul_comm]

theorem seeProducer_of_ok {s : State} {r v : Nat} (hstop : (s.ring r).isStopped = false) (hok : (s.ring r).producerOk v = true) :
    s.seeProducer r v = s.setRing r ({ s.ring r with seen := v, produced := v } : RingSt).settle := by
  unfold State.seeProducer
  exact (if_neg (by rw [hstop]; exact Bool.false_ne_true)).trans (if_pos hok)

/-- The device after a clean read of a line with one ring that runs. -/
def oneRingRead (s : State) (line r : Nat) (rd : LineRead) : State :=
  ((withLineRead s line rd.poison).hostWrite line (wordsToBytes (rd.slots.take 16))).setRing r
    ({ s.ring r with seen := (rd.slots.getD (s.ring r).ctx.dbSlot 0).toNat
                     produced := (rd.slots.getD (s.ring r).ctx.dbSlot 0).toNat } : RingSt).settle

theorem readLine_of_one_ring {line r : Nat} {rd : LineRead} {s : State} (hp : rd.poison = false) (hone : s.ringsOnLine line = [r])
    (hstop : (s.ring r).isStopped = false) (hok : (s.ring r).producerOk (rd.slots.getD (s.ring r).ctx.dbSlot 0).toNat = true) :
    s.readLine line rd = oneRingRead s line r rd := by
  rw [readLine_of_clean hp, hone, List.foldl_cons, List.foldl_nil, seeSlot]
  exact seeProducer_of_ok hstop hok

theorem clean_read_of_one_ring {line r : Nat} {rd : LineRead} {s : State} (hr : line ∈ s.cmd.reading) (hp : rd.poison = false)
    (hlen : rd.slots.length = 16) (hone : s.ringsOnLine line = [r]) (hstop : (s.ring r).isStopped = false)
    (hok : (s.ring r).producerOk (rd.slots.getD (s.ring r).ctx.dbSlot 0).toNat = true) :
    ∃ t : State, exec (.doorbellReread line rd) s = .next t ∧ t = { s with cmd := t.cmd, host := t.host, rings := t.rings } ∧
      (t.ring r).produced = (rd.slots.getD (s.ring r).ctx.dbSlot 0).toNat ∧
      (t.ring r).clauses = (s.ring r).clauses ∧ (t.ring r).fetched = (s.ring r).fetched ∧ ringsSameBut s t r ∧
      Cells.readRange t.host.cells line 64 = wordsToBytes rd.slots ∧ hostSameOutside s t line 64 := by
  have hslots : rd.slots.take 16 = rd.slots := by rw [List.take_of_length_le (by omega)]
  have hbytes : (wordsToBytes (rd.slots.take 16)).length = 64 := by rw [hslots, length_wordsToBytes, hlen]
  have hring : (oneRingRead s line r rd).ring r = ({ s.ring r with
      seen := (rd.slots.getD (s.ring r).ctx.dbSlot 0).toNat
      produced := (rd.slots.getD (s.ring r).ctx.dbSlot 0).toNat } : RingSt).settle := State.ring_setRing_self ..
  have hread := State.readRange_hostWrite (withLineRead s line rd.poison) line (wordsToBytes (rd.slots.take 16))
  have hout := State.hostSameOutside_hostWrite (withLineRead s line rd.poison) line (wordsToBytes (rd.slots.take 16))
  rw [hbytes, hslots] at hread
  rw [hbytes] at hout
  refine ⟨_, (exec_doorbellReread (.inl hr)).trans (congrArg _ (readLine_of_one_ring hp hone hstop hok)), rfl, ?_, ?_, ?_,
    fun q hq => ?_, ?_, hout⟩
  · rw [hring, RingSt.settle_produced]
  · rw [hring, RingSt.settle_clauses]
  · rw [hring, RingSt.settle_fetched]
  · rw [oneRingRead, State.ring_setRing, if_neg hq]
    rfl
  · rw [oneRingRead, State.setRing_host, hslots]
    exact hread

theorem snoop_gives_up {line : Nat} {s : State} (h : s.cmd.watch.any (fun w => w.line == line) = true) :
    ∃ t : State, exec (.snoopInvalidate line none) s = .next t ∧
      t = { s with cmd := { s.cmd with watch := t.cmd.watch } } ∧
      t.cmd.watch.map (·.line) = s.cmd.watch.map (·.line) ∧
      (∀ w ∈ t.cmd.watch, w.line = line → w.shared = false) ∧
      (∀ w ∈ t.cmd.watch, w.line ≠ line → w ∈ s.cmd.watch) :=
  ⟨_, exec_snoop_none h, rfl, lineGiven_spec⟩

theorem snoop_unwatched {line : Nat} {rd : Option LineRead} {s : State} (h : s.cmd.watch.any (fun w => w.line == line) = false) :
    exec (.snoopInvalidate line rd) s = .next s :=
  if_neg (by rw [h]; exact Bool.false_ne_true)

theorem pollTimer_reads (s : State) : ∃ t : State, exec .pollTimer s = .next t ∧
    t = { s with cmd := { s.cmd with reading := t.cmd.reading } } ∧
    ∀ l, l ∈ t.cmd.reading ↔ l ∈ s.cmd.reading ∨ ∃ w ∈ s.cmd.polled, w.line = l := by
  refine ⟨_, rfl, rfl, fun l => ?_⟩
  have h : s.cmd.polled.foldl (fun l w => insSet w.line l) s.cmd.reading
      = (s.cmd.polled.map (·.line)).foldl (fun a j => insSet j a) s.cmd.reading := by rw [List.foldl_map]
  show l ∈ s.cmd.polled.foldl (fun l w => insSet w.line l) s.cmd.reading ↔ _
  rw [h, mem_foldl_insSet, List.mem_map, or_comm]

/-- Settles O8: a line's read changes the line's entries, and each ring on the line takes its slot in turn. -/
theorem doorbellLines : Obligations.DoorbellLines := by
  unfold Obligations.DoorbellLines
  exact ⟨fun _ _ => snoop_gives_up, fun _ _ _ => snoop_rereads, fun _ _ _ => snoop_unwatched, pollTimer_reads,
    fun _ _ _ => reread_reads, fun _ _ _ _ => third_poisoned_read_stops, fun _ _ _ => early_poisoned_read_counts,
    fun _ _ _ _ => clean_read_of_one_ring⟩

end Sys2Proof.Proofs
end

section
/-! PROOFS. O13: a clause that fails stops its ring. The work behind the clause leaves the rings alone, the record counts, the
ring stops, and the shares that are sent afterwards keep every clause's index and phase. -/

open Sys2Proof Sys2Proof.Machine

namespace Sys2Proof.Proofs

/-- What a clause's shares do not change. -/
def indexPhase (c : ClauseSt) : Nat × Phase := (c.index, c.phase)

/-- Of each ring only its clauses have changed, and each clause keeps its index and phase. -/
structure SharesMoved (s t : State) : Prop where
  ring   : ∀ q, t.ring q = { s.ring q with clauses := (t.ring q).clauses }
  phases : ∀ q, (t.ring q).clauses.map indexPhase = (s.ring q).clauses.map indexPhase

theorem SharesMoved.refl (s : State) : SharesMoved s s := ⟨fun _ => rfl, fun _ => rfl⟩

theorem SharesMoved.of_rings {s t : State} (h : t.rings = s.rings) : SharesMoved s t :=
  have hr : ∀ q, t.ring q = s.ring q := fun q => by rw [State.ring, h, ← State.ring]
  ⟨fun q => by rw [hr], fun q => by rw [hr]⟩

theorem SharesMoved.trans {s t u : State} (h : SharesMoved s t) (g : SharesMoved t u) : SharesMoved s u where
  ring q := by rw [g.ring, h.ring]
  phases q := (g.phases q).trans (h.phases q)

theorem sharesMoved_modClause (s : State) (r index : Nat) (f : ClauseSt → ClauseSt) (hf : ∀ c, indexPhase (f c) = indexPhase c) :
    SharesMoved s (s.modRing r (fun R => R.modClause index f)) where
  ring q := by
    rw [State.ring_modRing]
    split
    · subst q
      rfl
    · rfl
  phases q := by
    rw [State.ring_modRing]
    split
    · subst q
      rw [RingSt.modClause, List.map_map]
      refine List.map_congr_left fun c _ => ?_
      rw [Function.comp_apply]
      split
      · exact hf c
      · rfl
    · rfl

theorem sharesMoved_sendShare (s : State) (r index core : Nat) : SharesMoved s (s.sendShare r index core) := by
  unfold State.sendShare
  extract_lets paren
  split
  · refine .trans (t := s.modCore core (fun c => c.takeShare paren r index)) (.of_rings rfl) (sharesMoved_modClause _ r index _ ?_)
    exact fun _ => rfl
  · refine sharesMoved_modClause s r index _ ?_
    exact fun _ => rfl

theorem sharesMoved_sendNext (s : State) (core : Nat) (paren : Bool) : SharesMoved s (s.sendNext core paren) := by
  unfold State.sendNext
  split
  · exact sharesMoved_sendShare ..
  · exact .refl s

theorem sharesMoved_sendNexts (s : State) (l : List Nat) (paren : Bool) :
    SharesMoved s (l.foldl (fun t n => t.sendNext n paren) s) :=
  List.foldlRecOn l _ (.refl s) fun _ ht n _ => ht.trans (sharesMoved_sendNext _ n paren)

/-- The phase of a ring's clause is read off the indices and phases of its clauses. -/
theorem phase_clauseOf (x : RingSt) (index : Nat) :
    (x.clauseOf index).map (·.phase) = ((x.clauses.map indexPhase).find? (fun p => p.1 == index)).map (·.2) := by
  rw [List.find?_map, Option.map_map]
  rfl

theorem SharesMoved.phase {s t : State} (h : SharesMoved s t) (r index : Nat) :
    ((t.ring r).clauseOf index).map (·.phase) = ((s.ring r).clauseOf index).map (·.phase) := by
  rw [phase_clauseOf, phase_clauseOf, h.phases]

/-- The ring of a clause that fails: stopped at it, with the clauses that had not started posted again (R78). -/
def RingSt.stoppedAt (x : RingSt) (index : Nat) : RingSt :=
  let y := { x with
    stopAt := index
    waitFrom := none
    clauses := x.clauses.map (fun (c : ClauseSt) => if c.index = index ∨ c.returns index then c.repost else c) }
  { y.become .stopped with skipped := false }

theorem RingSt.stoppedAt_eq (x : RingSt) (index : Nat) : RingSt.stoppedAt x index = { x with
    state := (RingSt.stoppedAt x index).state, before := (RingSt.stoppedAt x index).before
    stopAt := index, waitFrom := none, skipped := false
    clauses := x.clauses.map (fun (c : ClauseSt) => if c.index = index ∨ c.returns index then c.repost else c) } := by
  rw [RingSt.stoppedAt, RingSt.become_eq]

theorem RingSt.isStopped_stoppedAt (x : RingSt) (index : Nat) : (RingSt.stoppedAt x index).isStopped = true :=
  RingSt.isStopped_become _

/-- The clause that failed stays in the ring, posted. -/
theorem RingSt.phase_stoppedAt {x : RingSt} {index : Nat} {c : ClauseSt} (h : x.clauseOf index = some c) :
    ((RingSt.stoppedAt x index).clauseOf index).map (·.phase) = some .posted := by
  have hi : c.index = index := by simpa using List.find?_some h
  have hindex : (fun y : ClauseSt => y.index == index) ∘
      (fun y : ClauseSt => if y.index = index ∨ y.returns index then y.repost else y) = fun y => y.index == index := by
    funext y
    simp only [Function.comp_apply]
    split <;> rfl
  rw [RingSt.stoppedAt_eq, RingSt.clauseOf, List.find?_map, hindex, ← RingSt.clauseOf, h]
  simp [hi, ClauseSt.repost]

/-- A clause of ring r has failed: its ring is stopped at it with one more record, and of the other rings only clauses have
changed. -/
structure FailedFrom (r index : Nat) (s t : State) : Prop where
  ring   : t.ring r = { RingSt.stoppedAt { s.ring r with records := (s.ring r).records + 1 } index with clauses := (t.ring r).clauses }
  phase  : ((t.ring r).clauseOf index).map (·.phase) = some .posted
  others : ∀ q, q ≠ r → t.ring q = { s.ring q with clauses := (t.ring q).clauses }

/-- A ring that neither closes nor flushes has nothing to end. -/
theorem tryClose_of_open {s : State} {r : Nat} (hc : (s.ring r).closing = false) (hf : (s.ring r).flushing = false) :
    s.tryClose r = s := by
  rw [State.tryClose, if_neg (by simp [hc]), State.tryIdle]
  exact if_neg (by simp [hf])

theorem failedFrom_failClause {r index : Nat} {c : ClauseSt} {s : State} (f : Failure) (hc : (s.ring r).clauseOf index = some c)
    (hstop : (s.ring r).isStopped = false) (hclosing : (s.ring r).closing = false) (hflushing : (s.ring r).flushing = false) :
    FailedFrom r index s (s.failClause r index f) := by
  unfold State.failClause
  extract_lets -underBinder ring
  split
  case _ h => exact absurd (h.symm.trans hc) (by simp)
  case _ d h =>
    extract_lets -underBinder sA back s0 s1 s2 cmd s3 s4 s5
    have hA : s.RingsKept sA := by
      unfold sA
      exact .ite (.abortColl .refl) .refl
    clear_value sA back
    have h0 : s.RingsKept s0 := by
      unfold s0
      refine .poisonEvent (.drainAllDeferred (.releaseWork (.foldl (.countFailed hA) fun _ _ ht => ?_)))
      exact ht.releaseWork
    clear_value s0
    have h1 : s.RingsKept s1 := by
      unfold s1
      exact .ite h0.undefineOutputs h0
    have h2 : s2.ring r = { s.ring r with records := (s.ring r).records + 1 } :=
      (State.ring_writeRecord_self ..).trans (by rw [h1.ring])
    have h2' : ringsSameBut s s2 r := fun q hq => (ringsSameBut_writeRecord _ _ _ _ _ _ q hq).trans (h1.ring q)
    clear_value s1 s2
    have h3 : s3.rings = s2.rings := by
      unfold s3
      split <;> rfl
    clear_value s3
    have hstop2 : (s3.ring r).isStopped = false := by
      rw [State.ring, h3, ← State.ring, h2]
      exact hstop
    have h4 : s4.ring r = RingSt.stoppedAt (s3.ring r) index := by
      refine (State.ring_modRing_self ..).trans ?_
      exact if_neg (by rw [hstop2]; exact Bool.false_ne_true)
    have h4' : ringsSameBut s3 s4 r := ringsSameBut_setRing s3 r _
    clear_value s4
    have h5 : s5.rings = s4.rings := rfl
    clear_value s5
    have h6 := sharesMoved_sendNexts s5 (d.shares ++ back.flatMap (fun x => x.shares)) ring.ctx.paren
    generalize List.foldl _ s5 _ = u at h6 ⊢
    have h46 : SharesMoved s4 u := .trans (.of_rings h5) h6
    have h24 : s4.ring r = RingSt.stoppedAt { s.ring r with records := (s.ring r).records + 1 } index := by
      rw [h4, State.ring, h3, ← State.ring, h2]
    have hring : u.ring r = { RingSt.stoppedAt { s.ring r with records := (s.ring r).records + 1 } index with
        clauses := (u.ring r).clauses } := by rw [h46.ring, h24]
    rw [tryClose_of_open (by rw [hring, RingSt.stoppedAt_eq]; exact hclosing) (by rw [hring, RingSt.stoppedAt_eq]; exact hflushing)]
    refine ⟨hring, ?_, fun q hq => ?_⟩
    · rw [h46.phase, h24]
      exact RingSt.phase_stoppedAt hc
    · rw [h46.ring, h4' q hq, State.ring, h3, ← State.ring, h2' q hq]

/-- Settles O13: the work behind the clause leaves the rings alone, and the shares sent afterwards keep what the ring became. -/
theorem failureStopsTheRing : Obligations.FailureStopsTheRing := by
  unfold Obligations.FailureStopsTheRing
  intro r index c f s hc hstop hclosing hflushing
  have h := failedFrom_failClause f hc hstop hclosing hflushing
  refine ⟨?_, ?_, h.phase, ?_, fun q hq => ?_⟩
  · rw [h.ring]
    exact RingSt.isStopped_stoppedAt _ index
  · rw [h.ring, RingSt.stoppedAt_eq]
  · rw [h.ring, RingSt.stoppedAt_eq]
  · rw [h.others q hq]
    exact ⟨rfl, rfl⟩

end Sys2Proof.Proofs
end

section
/-! PROOFS. O11: a clause that is done completes. The work before its signals leaves the rings, the conjunction counters and the
time base alone; its signals touch the counters alone, and its record goes to the next entry of the completion ring. -/

open Sys2Proof Sys2Proof.Machine

namespace Sys2Proof.Proofs

/-- One signal of a clause is applied. -/
def addSignal (c : BitVec 512) (conj : Tbl Word64) (i : Nat) : Tbl Word64 :=
  if (clSignal c i).1 then Tbl.put 0 conj (clSignal c i).2.1 (Tbl.get 0 conj (clSignal c i).2.1 + BitVec.ofNat 64 (clSignal c i).2.2)
  else conj

theorem get_addSignal (c : BitVec 512) (conj : Tbl Word64) (i j : Nat) :
    Tbl.get 0 (addSignal c conj i) j = Tbl.get 0 conj j
      + if (clSignal c i).1 = true ∧ (clSignal c i).2.1 = j then BitVec.ofNat 64 (clSignal c i).2.2 else 0 := by
  unfold addSignal
  by_cases hs : (clSignal c i).1 = true
  · by_cases hj : j = (clSignal c i).2.1
    · simp [hs, hj]
    · simp [hs, hj, Ne.symm hj, Tbl.get_put]
  · simp [hs]

/-- The signals of a clause touch the conjunction counters alone. -/
theorem applySignals_eq (s : State) (c : BitVec 512) :
    s.applySignals c = { s with conj := addSignal c (addSignal c s.conj 0) 1 } := by
  have step : ∀ (t : State) (i : Nat), (let g := clSignal c i
      if g.1 then { t with conj := Tbl.put 0 t.conj g.2.1 (Tbl.get 0 t.conj g.2.1 + BitVec.ofNat 64 g.2.2) } else t)
      = { t with conj := addSignal c t.conj i } := fun t i => by
    unfold addSignal
    extract_lets g
    split <;> rfl
  have fold : s.applySignals c = [0, 1].foldl (fun t i => { t with conj := addSignal c t.conj i }) s := by
    rw [State.applySignals, ← funext fun t => funext (step t)]
    rfl
  rw [fold, List.foldl_cons, List.foldl_cons, List.foldl_nil]

theorem get_conj_applySignals (c : BitVec 512) (s : State) (j : Nat) :
    Tbl.get 0 (s.applySignals c).conj j = Tbl.get 0 s.conj j
      + (if (clSignal c 0).1 = true ∧ (clSignal c 0).2.1 = j then BitVec.ofNat 64 (clSignal c 0).2.2 else 0)
      + (if (clSignal c 1).1 = true ∧ (clSignal c 1).2.1 = j then BitVec.ofNat 64 (clSignal c 1).2.2 else 0) := by
  rw [applySignals_eq, get_addSignal, get_addSignal]

/-- A dropped clause is gone. -/
theorem clauseOf_dropClause (x : RingSt) (index : Nat) : (x.dropClause index).clauseOf index = none := by
  simp [RingSt.dropClause, RingSt.clauseOf, List.find?_eq_none]

/-- The memory work and the requests of a clause that completes. -/
def workServed (s : State) (r : Nat) (c : ClauseSt) : State :=
  (((s.undefineDependent r c).commitAppends r c.index).releaseWork r c.index).drainAllDeferred.serveAllFree

/-- Its record, unless it is QUIET. -/
def recordedDone (s : State) (r : Nat) (c : ClauseSt) : State :=
  if clQuiet c.bits then s else s.writeRecord r ((s.ring r).slotOf c.index) (clTag c.bits) (failNone 0 c.detail) (clIrq c.bits)

/-- The ring without the clause. -/
def leftRing (s : State) (r : Nat) (c : ClauseSt) : State := s.modRing r (fun R => (R.dropClause c.index).settle)

theorem completeClause_eq (s : State) (r : Nat) (c : ClauseSt) : s.completeClause r c =
    ((leftRing (recordedDone ((workServed s r c).applySignals c.bits) r c) r c).tryClose r).issueAll := rfl

theorem ringsKept_workServed (s : State) (r : Nat) (c : ClauseSt) : s.RingsKept (workServed s r c) := by
  unfold workServed
  exact State.RingsKept.refl.undefineDependent.commitAppends.releaseWork.drainAllDeferred.serveAllFree

/-- Elements become free only where the host wrote into the clause's storage. -/
theorem undefineDependent_of_untainted {s : State} {r : Nat} {c : ClauseSt}
    (h : ∀ x ∈ s.tainted, (x.ring, x.index) ≠ (r, c.index)) : s.undefineDependent r c = s := by
  have hnil : s.tainted.filter (fun x => x.ring == r && x.index == c.index) = [] := by
    refine List.filter_eq_nil_iff.mpr fun x hx he => h x hx ?_
    simpa using he
  unfold State.undefineDependent
  extract_lets mine
  exact if_pos (by rw [show mine = [] from hnil]; rfl)

/-- What a record leaves as it was. -/
theorem ring_recordedDone_self (s : State) (r : Nat) (c : ClauseSt) :
    (recordedDone s r c).ring r = { s.ring r with records := ((recordedDone s r c).ring r).records } := by
  unfold recordedDone
  split
  · rfl
  · rw [State.ring_writeRecord_self]

theorem conj_recordedDone (s : State) (r : Nat) (c : ClauseSt) : (recordedDone s r c).conj = s.conj := by
  unfold recordedDone
  split
  · rfl
  · exact State.conj_writeRecord ..

theorem recordedDone_of_quiet {s : State} {r : Nat} {c : ClauseSt} (h : clQuiet c.bits = true) : recordedDone s r c = s :=
  if_pos h

/-- The record that stands in the completion ring. -/
theorem readRange_recordedDone {s : State} {r : Nat} {c : ClauseSt} (h : clQuiet c.bits = false) :
    Cells.readRange (recordedDone s r c).host.cells ((s.ring r).ctx.cqBase + 16 * ((s.ring r).records % (s.ring r).size)) 16
      = recordBytes ((s.ring r).slotOf c.index) (clTag c.bits) (failNone 0 c.detail)
        ((s.ring r).records / (s.ring r).size % 2 == 0) s.time := by
  rw [recordedDone, h]
  exact State.readRange_writeRecord ..

theorem ring_leftRing_self (s : State) (r : Nat) (c : ClauseSt) :
    (leftRing s r c).ring r = ((s.ring r).dropClause c.index).settle := State.ring_modRing_self ..

theorem exec_clauseComplete {r k : Nat} {c : ClauseSt} {s : State} (hat : (s.ring r).clauseAt k = some c) (hdone : c.phase = .done)
    (hord : (s.ring r).inOrder c = true) : exec (.clauseComplete r k) s = .next (s.completeClause r c) := by
  simp [exec, execClauseComplete, hat, hdone, hord]

theorem clauseComplete_completes {r k : Nat} {c : ClauseSt} {s : State} (hat : (s.ring r).clauseAt k = some c)
    (hdone : c.phase = .done) (hord : (s.ring r).inOrder c = true) (hclosing : (s.ring r).closing = false)
    (hflushing : (s.ring r).flushing = false) :
    ∃ u : State, exec (.clauseComplete r k) s = .next u.issueAll ∧
      (u.ring r).clauseOf c.index = none ∧
      u.conj = (s.applySignals c.bits).conj ∧
      (clQuiet c.bits = false → Cells.readRange u.host.cells
          ((s.ring r).ctx.cqBase + 16 * ((s.ring r).records % (s.ring r).size)) 16
        = recordBytes ((s.ring r).slotOf c.index) (clTag c.bits) { status := 0, operand := 7, detail := c.detail }
          ((s.ring r).records / (s.ring r).size % 2 == 0) s.time) ∧
      (clQuiet c.bits = true → (∀ x ∈ s.tainted, (x.ring, x.index) ≠ (r, c.index)) →
        u.io = (((s.commitAppends r c.index).releaseWork r c.index).drainAllDeferred.serveAllFree).io) := by
  have hkept := ringsKept_workServed s r c
  have hserved : (∀ x ∈ s.tainted, (x.ring, x.index) ≠ (r, c.index)) →
      workServed s r c = ((s.commitAppends r c.index).releaseWork r c.index).drainAllDeferred.serveAllFree := fun h => by
    rw [workServed, undefineDependent_of_untainted h]
  rw [exec_clauseComplete hat hdone hord, completeClause_eq]
  generalize workServed s r c = w at hkept hserved ⊢
  have hsig : ((w.applySignals c.bits).ring r) = s.ring r := by
    rw [applySignals_eq]
    exact hkept.ring r
  have htime : (w.applySignals c.bits).time = s.time := by
    rw [applySignals_eq]
    exact hkept.time
  have hio : (w.applySignals c.bits).io = w.io := by rw [applySignals_eq]
  have hconj : (w.applySignals c.bits).conj = (s.applySignals c.bits).conj := by
    rw [applySignals_eq, applySignals_eq s, hkept.conj]
  generalize w.applySignals c.bits = v at hsig htime hio hconj ⊢
  have hring := ring_recordedDone_self v r c
  rw [hsig] at hring
  have hleft := ring_leftRing_self (recordedDone v r c) r c
  rw [hring] at hleft
  rw [tryClose_of_open (by rw [hleft, RingSt.settle_closing]; exact hclosing) (by rw [hleft, RingSt.settle_flushing]; exact hflushing)]
  refine ⟨_, rfl, ?_, ?_, fun hq => ?_, fun hq ht => ?_⟩
  · rw [hleft, RingSt.clauseOf, RingSt.settle_clauses]
    exact clauseOf_dropClause _ c.index
  · rw [leftRing, State.modRing, State.setRing_conj, conj_recordedDone, hconj]
  · have h := readRange_recordedDone (s := v) (r := r) hq
    rw [hsig, htime] at h
    exact h
  · rw [leftRing, State.modRing, State.setRing_io, recordedDone_of_quiet hq, hio, hserved ht]

/-- Settles O11: the counters by `get_conj_applySignals`, the record by the rules of `writeRecord`. -/
theorem doneClauseCompletes : Obligations.DoneClauseCompletes := by
  unfold Obligations.DoneClauseCompletes
  refine ⟨fun _ _ _ _ => clauseComplete_completes, get_conj_applySignals, fun r slot tag f irq s => ?_⟩
  refine ⟨State.readRange_writeRecord .., s.hostSameOutside_writeRecord r slot tag f irq, ?_⟩
  rw [State.ring_writeRecord_self]

end Sys2Proof.Proofs
end

section
/-! PROOFS. O14: fences and ring control. A fence without shares is done when its work is; RESUME and SKIP restart a stopped
ring, FLUSH empties it, and CLOSE closes one that has nothing outstanding. -/

open Sys2Proof Sys2Proof.Machine

namespace Sys2Proof.Proofs

/-! ### The fence and its clause -/

/-- The clause found at a slot is the clause of its index. -/
theorem clauseOf_of_clauseAt {x : RingSt} {k : Nat} {c : ClauseSt} (h : x.clauseAt k = some c) : x.clauseOf c.index = some c := by
  obtain ⟨hk, before, after, hsplit, hbefore⟩ := List.find?_eq_some_iff_append.mp h
  refine List.find?_eq_some_iff_append.mpr ⟨by simp, before, after, hsplit, fun a ha => ?_⟩
  have hslot := hbefore a ha
  simp only [Bool.not_eq_true', beq_eq_false_iff_ne, ne_eq] at hslot ⊢
  exact fun hi => hslot (by rw [hi]; simpa using hk)

/-- A clause under a change that keeps every index. -/
theorem clauseOf_map (x : RingSt) (g : ClauseSt → ClauseSt) (index : Nat) (hg : ∀ c, (g c).index = c.index) :
    ({ x with clauses := x.clauses.map g } : RingSt).clauseOf index = (x.clauseOf index).map g := by
  rw [RingSt.clauseOf, List.find?_map]
  exact congrArg (Option.map g) (congrArg (fun p => x.clauses.find? p) (funext fun c => by simp [hg]))

theorem clauseOf_modClause {x : RingSt} {index : Nat} {c : ClauseSt} (g : ClauseSt → ClauseSt) (hg : ∀ c, (g c).index = c.index)
    (h : x.clauseOf index = some c) : (x.modClause index g).clauseOf index = some (g c) := by
  have hi : c.index = index := by simpa using List.find?_some h
  have hmap := clauseOf_map x (fun c => if c.index = index then g c else c) index fun c => by
    split
    · exact hg c
    · rfl
  rw [h, Option.map_some, if_pos hi] at hmap
  exact hmap

/-- What a started fence is. -/
structure StartedFence (s : State) (r : Nat) (c : ClauseSt) : Prop where
  clause : (s.ring r).clauseOf c.index = some c
  phase  : c.phase = .started

theorem startedFence_of {s : State} {r k fn : Nat} {c : ClauseSt} (h : s.startedFence r k fn = some c) : StartedFence s r c := by
  unfold State.startedFence at h
  split at h
  case h_2 => exact absurd h (by simp)
  case h_1 d hd =>
    split at h
    case isFalse => exact absurd h (by simp)
    case isTrue =>
      obtain rfl : d = c := Option.some.inj h
      unfold State.startedClause at hd
      split at hd
      case h_2 => exact absurd hd (by simp)
      case h_1 e he =>
        split at hd
        case isFalse => exact absurd hd (by simp)
        case isTrue hcond =>
          obtain rfl : e = d := Option.some.inj hd
          exact ⟨clauseOf_of_clauseAt he, hcond.1⟩

theorem StartedFence.outstanding {s : State} {r : Nat} {c : ClauseSt} (h : StartedFence s r c) :
    (s.ring r).clauses.any ClauseSt.outstanding = true :=
  List.any_eq_true.mpr ⟨c, List.mem_of_find?_eq_some h.clause, by simp [ClauseSt.outstanding, h.phase]⟩

/-- A clause whose work is done and of which no share is out is done. -/
theorem settleClause_of_free {s : State} {r index : Nat} {c : ClauseSt} (h : (s.ring r).clauseOf index = some c)
    (hphase : c.phase = .started) (hworked : c.worked = true) (hshares : c.shares = []) (hunsent : c.unsent = [])
    (hvaults : c.vaults = []) (hverdict : c.verdict = none) :
    s.settleClause r index = s.modRing r (fun R => R.modClause index (fun x => { x with phase := .done })) := by
  simp [State.settleClause, h, hphase, hworked, hshares, hunsent, hvaults, hverdict]

/-- The work of a fence is done. -/
def fenceWorked (c : ClauseSt) : ClauseSt :=
  { c with worked := true
           begun := true
           verdict := match c.verdict with
             | some v => some v
             | none => c.verdict }

/-- The rings when a fence without shares is done: its own has it done. -/
def fenceDone (s : State) (r : Nat) (c : ClauseSt) : State :=
  (s.modRing r (fun R => R.modClause c.index fenceWorked)).modRing r (fun R => R.modClause c.index (fun x => { x with phase := .done }))

theorem workDone_of_free {s : State} {r : Nat} {c : ClauseSt} (h : StartedFence s r c) (hshares : c.shares = [])
    (hunsent : c.unsent = []) (hvaults : c.vaults = []) (hverdict : c.verdict = none) :
    s.workDone r c.index (fun x => x) = fenceDone s r c := by
  have hworked : ((s.modRing r (fun R => R.modClause c.index fenceWorked)).ring r).clauseOf c.index = some (fenceWorked c) := by
    rw [State.ring_modRing_self]
    exact clauseOf_modClause fenceWorked (fun _ => rfl) h.clause
  exact settleClause_of_free hworked h.phase rfl hshares hunsent hvaults (by simp [fenceWorked, hverdict])

theorem phase_fenceDone {s : State} {r : Nat} {c : ClauseSt} (h : StartedFence s r c) :
    (((fenceDone s r c).ring r).clauseOf c.index).map (·.phase) = some .done := by
  rw [fenceDone, State.ring_modRing_self, State.ring_modRing_self,
    clauseOf_modClause (fun x => { x with phase := .done }) (fun _ => rfl) (clauseOf_modClause fenceWorked (fun _ => rfl) h.clause),
    Option.map_some]

theorem ringsSameBut_fenceDone (s : State) (r : Nat) (c : ClauseSt) : ringsSameBut s (fenceDone s r c) r := fun q hq => by
  rw [fenceDone, State.ring_modRing, if_neg hq, State.ring_modRing, if_neg hq]

theorem fence_is_done {r k : Nat} {c : ClauseSt} {s : State} (h : s.startedFence r k 0 = some c) (hshares : c.shares = [])
    (hunsent : c.unsent = []) (hvaults : c.vaults = []) (hverdict : c.verdict = none) :
    ∃ t : State, exec (.fence r k) s = .next t ∧ t = { s with rings := t.rings } ∧ ringsSameBut s t r ∧
      ((t.ring r).clauseOf c.index).map (·.phase) = some .done := by
  have hc := startedFence_of h
  refine ⟨fenceDone s r c, ?_, rfl, ringsSameBut_fenceDone s r c, phase_fenceDone hc⟩
  rw [exec, execFence, h, ← workDone_of_free hc hshares hunsent hvaults hverdict]

/-- FENCE_SET's counter has its value. -/
def counterSet (s : State) (c : ClauseSt) : State :=
  { s with conj := Tbl.put 0 s.conj (fenceTarget c.bits) (BitVec.ofNat 64 (fenceValue c.bits)) }

theorem fenceSet_is_done {r k : Nat} {c : ClauseSt} {s : State} (h : s.startedFence r k 1 = some c) (hshares : c.shares = [])
    (hunsent : c.unsent = []) (hvaults : c.vaults = []) (hverdict : c.verdict = none) :
    ∃ u : State, exec (.fenceSet r k) s = .next u.issueAll ∧ u = { s with rings := u.rings, conj := u.conj } ∧
      (∀ j, Tbl.get 0 u.conj j = if j = fenceTarget c.bits then BitVec.ofNat 64 (fenceValue c.bits) else Tbl.get 0 s.conj j) ∧
      ((u.ring r).clauseOf c.index).map (·.phase) = some .done := by
  have hc : StartedFence (counterSet s c) r c := ⟨(startedFence_of h).clause, (startedFence_of h).phase⟩
  refine ⟨fenceDone (counterSet s c) r c, ?_, rfl, fun j => Tbl.get_put _ _ _ _ _, phase_fenceDone hc⟩
  rw [← workDone_of_free hc hshares hunsent hvaults hverdict, exec, execFenceSet, h]
  rfl

/-! ### RESUME and SKIP -/

theorem exec_controlFence {s : State} {k fn : Nat} {c : ClauseSt} (h : s.startedFence 0 k fn = some c)
    (hstop : (s.ring (fenceTarget c.bits)).isStopped = true) (act : Nat → State → State) :
    s.controlFence k fn RingSt.isStopped act = .next (((act (fenceTarget c.bits) s).workDone 0 c.index (fun x => x)).issueAll) := by
  rw [State.controlFence, h]
  exact if_pos hstop

theorem exec_resume {s : State} {k : Nat} {c : ClauseSt} (h : s.startedFence 0 k 2 = some c)
    (hstop : (s.ring (fenceTarget c.bits)).isStopped = true) : exec (.resume k) s =
      .next (((s.restart (fenceTarget c.bits) (fun v => v)).workDone 0 c.index (fun x => x)).issueAll) := by
  rw [exec, execResume, exec_controlFence h hstop]

theorem exec_skip {s : State} {k : Nat} {c : ClauseSt} (h : s.startedFence 0 k 3 = some c)
    (hstop : (s.ring (fenceTarget c.bits)).isStopped = true) : exec (.skip k) s =
      .next (((s.restart (fenceTarget c.bits) (fun v => v.skipSlot (fenceTarget c.bits))).workDone 0 c.index (fun x => x)).issueAll) := by
  rw [exec, execSkip, exec_controlFence h hstop]

/-- A stopped ring that runs on (R79). -/
def RingSt.restarted (x : RingSt) : RingSt := ({ x.become .running with skipped := false, stopAt := 0 } : RingSt).settle

theorem RingSt.isStopped_restarted (x : RingSt) : (RingSt.restarted x).isStopped = false := by
  rw [RingSt.restarted, RingSt.isStopped_settle]
  unfold RingSt.become RingSt.isStopped
  split <;> simp [*]

theorem RingSt.restarted_eq (x : RingSt) : RingSt.restarted x = { x with
    state := (RingSt.restarted x).state, before := (RingSt.restarted x).before, skipped := false, stopAt := 0 } := by
  rw [RingSt.restarted, RingSt.settle_eq, RingSt.become_eq]

theorem RingSt.pause_eq (x : RingSt) (now : Word64) : x.pause now = { x with
    state := (x.pause now).state, before := (x.pause now).before, waitFrom := (x.pause now).waitFrom } := by
  unfold RingSt.pause
  split <;> rfl

/-- A pause stops no ring. -/
theorem RingSt.isStopped_pause {x : RingSt} (h : x.isStopped = false) (now : Word64) : (x.pause now).isStopped = false := by
  unfold RingSt.pause
  split
  · next hs => rcases hs with hs | hs <;> simp [RingSt.isStopped, hs]
  · exact h

/-- Pausing with a field that drains changes the ring alone, and only its state and its wait. -/
structure PausedAlone (r : Nat) (s t : State) : Prop where
  frame   : t = { s with rings := t.rings }
  others  : ringsSameBut s t r
  self    : t.ring r = { s.ring r with state := (t.ring r).state, before := (t.ring r).before, waitFrom := (t.ring r).waitFrom }
  stopped : (s.ring r).isStopped = false → (t.ring r).isStopped = false

theorem pausedAlone_pauseDrained (s : State) (r : Nat) : PausedAlone r s (s.pauseDrained r) := by
  unfold State.pauseDrained
  split
  · refine ⟨rfl, ringsSameBut_setRing s r _, ?_, fun h => ?_⟩
    · rw [State.ring_modRing_self]
      exact RingSt.pause_eq _ _
    · rw [State.ring_modRing_self]
      exact RingSt.isStopped_pause h _
  · exact ⟨rfl, fun _ _ => rfl, rfl, id⟩

/-- The target with the latest value of its slot as its producer index. -/
def producedSeen (s : State) (t : Nat) : State := s.setRing t { s.ring t with produced := (s.ring t).seen }

theorem restart_of_ok {s : State} {t : Nat} (f : State → State) (hok : (s.ring t).producerOk (s.ring t).seen = true) :
    s.restart t f = ((f (producedSeen s t)).modRing t RingSt.restarted).pauseDrained t := by
  unfold State.restart
  simp only [hok, if_true]
  rfl

theorem restart_of_bad {s : State} {t : Nat} (hok : (s.ring t).producerOk (s.ring t).seen = false) :
    s.restart t (fun v => v) = s.stopUnfetched t (failNone stDoorbellInvalid 0) := by
  unfold State.restart
  simp only [hok, Bool.false_eq_true, if_false]

/-- The target runs on: `v` is what the function made of the state first. -/
structure RestartedFrom (t : Nat) (v u : State) : Prop where
  frame   : u = { v with rings := u.rings }
  others  : ringsSameBut v u t
  stopped : (u.ring t).isStopped = false
  self    : u.ring t = { v.ring t with state := (u.ring t).state, before := (u.ring t).before, waitFrom := (u.ring t).waitFrom,
                                       skipped := false, stopAt := 0 }

theorem restartedFrom_pauseDrained (v : State) (t : Nat) : RestartedFrom t v ((v.modRing t RingSt.restarted).pauseDrained t) := by
  have h := pausedAlone_pauseDrained (v.modRing t RingSt.restarted) t
  have hring : (v.modRing t RingSt.restarted).ring t = RingSt.restarted (v.ring t) := State.ring_modRing_self ..
  have hothers : ringsSameBut v (v.modRing t RingSt.restarted) t := ringsSameBut_setRing v t _
  have hframe : v.modRing t RingSt.restarted = { v with rings := (v.modRing t RingSt.restarted).rings } := rfl
  generalize v.modRing t RingSt.restarted = w at h hring hothers hframe ⊢
  refine ⟨by rw [h.frame, hframe], fun q hq => (h.others q hq).trans (hothers q hq), h.stopped ?_, ?_⟩
  · rw [hring]
    exact RingSt.isStopped_restarted _
  · rw [h.self, hring, RingSt.restarted_eq]

theorem resume_restarts {k : Nat} {c : ClauseSt} {s : State} (h : s.startedFence 0 k 2 = some c)
    (hstop : (s.ring (fenceTarget c.bits)).isStopped = true)
    (hok : (s.ring (fenceTarget c.bits)).producerOk (s.ring (fenceTarget c.bits)).seen = true) :
    ∃ u : State, exec (.resume k) s = .next ((u.workDone 0 c.index (fun x => x)).issueAll) ∧ u = { s with rings := u.rings } ∧
      (u.ring (fenceTarget c.bits)).isStopped = false ∧
      (u.ring (fenceTarget c.bits)).produced = (s.ring (fenceTarget c.bits)).seen ∧
      (u.ring (fenceTarget c.bits)).clauses = (s.ring (fenceTarget c.bits)).clauses ∧
      ringsSameBut s u (fenceTarget c.bits) := by
  refine ⟨_, exec_resume h hstop, ?_⟩
  rw [restart_of_ok (fun v => v) hok]
  have hfrom := restartedFrom_pauseDrained (producedSeen s (fenceTarget c.bits)) (fenceTarget c.bits)
  have hring : (producedSeen s (fenceTarget c.bits)).ring (fenceTarget c.bits)
      = { s.ring (fenceTarget c.bits) with produced := (s.ring (fenceTarget c.bits)).seen } := State.ring_setRing_self ..
  have hothers : ringsSameBut s (producedSeen s (fenceTarget c.bits)) (fenceTarget c.bits) := ringsSameBut_setRing s _ _
  generalize State.pauseDrained _ _ = u at hfrom ⊢
  refine ⟨hfrom.frame, hfrom.stopped, ?_, ?_, fun q hq => (hfrom.others q hq).trans (hothers q hq)⟩
  · rw [hfrom.self, hring]
  · rw [hfrom.self, hring]

theorem resume_stops_again {k : Nat} {c : ClauseSt} {s : State} (h : s.startedFence 0 k 2 = some c)
    (hstop : (s.ring (fenceTarget c.bits)).isStopped = true)
    (hbad : (s.ring (fenceTarget c.bits)).producerOk (s.ring (fenceTarget c.bits)).seen = false) :
    ∃ u : State, exec (.resume k) s = .next ((u.workDone 0 c.index (fun x => x)).issueAll) ∧
      (u.ring (fenceTarget c.bits)).isStopped = true ∧
      (u.ring (fenceTarget c.bits)).records = (s.ring (fenceTarget c.bits)).records + 1 ∧
      ringsSameBut s u (fenceTarget c.bits) := by
  have hs := State.stoppedUnfetched_stopUnfetched s (fenceTarget c.bits) (failNone stDoorbellInvalid 0)
  refine ⟨_, exec_resume h hstop, ?_⟩
  rw [restart_of_bad hbad]
  refine ⟨?_, ?_, hs.others⟩
  · rw [hs.self]
    exact RingSt.isStopped_stoppedUnfetched _
  · rw [hs.self, RingSt.stoppedUnfetched_eq]

theorem skipSlot_of_held {s : State} {t : Nat} (h : (s.ring t).skipped = false) :
    s.skipSlot t = s.setRing t ((s.ring t).dropClause (s.ring t).stopAt) := by
  unfold State.skipSlot
  exact if_neg (by rw [h]; exact Bool.false_ne_true)

/-- The next clause that a ring would fetch is passed over. -/
def passedUnfetched (s : State) (t : Nat) : State :=
  (s.setRing t { s.ring t with fetched := ((s.ring t).fetched + 1) % 2 ^ 32 }).writeFetchWb t (((s.ring t).fetched + 1) % 2 ^ 32)

theorem skipSlot_of_unfetched {s : State} {t : Nat} (h : (s.ring t).skipped = true)
    (hne : (s.ring t).produced ≠ (s.ring t).fetched) : s.skipSlot t = passedUnfetched s t := by
  unfold State.skipSlot
  exact (if_pos h).trans (if_pos hne)

theorem ring_passedUnfetched_self (s : State) (t : Nat) :
    (passedUnfetched s t).ring t = { s.ring t with fetched := ((s.ring t).fetched + 1) % 2 ^ 32 } :=
  State.ring_setRing_self s t { s.ring t with fetched := ((s.ring t).fetched + 1) % 2 ^ 32 }

theorem ringsSameBut_passedUnfetched (s : State) (t : Nat) : ringsSameBut s (passedUnfetched s t) t :=
  ringsSameBut_setRing s t { s.ring t with fetched := ((s.ring t).fetched + 1) % 2 ^ 32 }

theorem hostSameOutside_passedUnfetched (s : State) (t : Nat) : hostSameOutside s (passedUnfetched s t) (s.ring t).ctx.fetchWb 8 := by
  have h := State.hostSameOutside_writeFetchWb (s.setRing t { s.ring t with fetched := ((s.ring t).fetched + 1) % 2 ^ 32 }) t
    (((s.ring t).fetched + 1) % 2 ^ 32)
  rw [State.ring_setRing_self] at h
  exact h

theorem mem_dropClause (x : RingSt) (index : Nat) (c : ClauseSt) :
    c ∈ (x.dropClause index).clauses ↔ c ∈ x.clauses ∧ c.index ≠ index := by
  simp [RingSt.dropClause]

theorem skip_passes_held {k : Nat} {c : ClauseSt} {s : State} (h : s.startedFence 0 k 3 = some c)
    (hstop : (s.ring (fenceTarget c.bits)).isStopped = true)
    (hok : (s.ring (fenceTarget c.bits)).producerOk (s.ring (fenceTarget c.bits)).seen = true)
    (hheld : (s.ring (fenceTarget c.bits)).skipped = false) :
    ∃ u : State, exec (.skip k) s = .next ((u.workDone 0 c.index (fun x => x)).issueAll) ∧ u = { s with rings := u.rings } ∧
      (u.ring (fenceTarget c.bits)).isStopped = false ∧
      (∀ x, x ∈ (u.ring (fenceTarget c.bits)).clauses ↔
        x ∈ (s.ring (fenceTarget c.bits)).clauses ∧ x.index ≠ (s.ring (fenceTarget c.bits)).stopAt) ∧
      ringsSameBut s u (fenceTarget c.bits) := by
  refine ⟨_, exec_skip h hstop, ?_⟩
  generalize fenceTarget c.bits = t at hok hheld ⊢
  rw [restart_of_ok (fun v => v.skipSlot t) hok]
  have hproduced : (producedSeen s t).ring t = { s.ring t with produced := (s.ring t).seen } := State.ring_setRing_self ..
  rw [skipSlot_of_held (by rw [hproduced]; exact hheld), hproduced]
  have hfrom := restartedFrom_pauseDrained ((producedSeen s t).setRing t
    (RingSt.dropClause { s.ring t with produced := (s.ring t).seen } (s.ring t).stopAt)) t
  generalize State.pauseDrained _ _ = u at hfrom ⊢
  refine ⟨hfrom.frame, hfrom.stopped, fun x => ?_, fun q hq => (hfrom.others q hq).trans ?_⟩
  · rw [hfrom.self, State.ring_setRing_self]
    exact mem_dropClause (s.ring t) _ x
  · rw [State.ring_setRing, if_neg hq, producedSeen, State.ring_setRing, if_neg hq]

theorem skip_passes_unfetched {k : Nat} {c : ClauseSt} {s : State} (h : s.startedFence 0 k 3 = some c)
    (hstop : (s.ring (fenceTarget c.bits)).isStopped = true)
    (hok : (s.ring (fenceTarget c.bits)).producerOk (s.ring (fenceTarget c.bits)).seen = true)
    (hskipped : (s.ring (fenceTarget c.bits)).skipped = true)
    (hne : (s.ring (fenceTarget c.bits)).seen ≠ (s.ring (fenceTarget c.bits)).fetched) :
    ∃ u : State, exec (.skip k) s = .next ((u.workDone 0 c.index (fun x => x)).issueAll) ∧
      u = { s with rings := u.rings, host := u.host } ∧ (u.ring (fenceTarget c.bits)).isStopped = false ∧
      (u.ring (fenceTarget c.bits)).clauses = (s.ring (fenceTarget c.bits)).clauses ∧
      (u.ring (fenceTarget c.bits)).fetched = ((s.ring (fenceTarget c.bits)).fetched + 1) % 2 ^ 32 ∧
      hostSameOutside s u (s.ring (fenceTarget c.bits)).ctx.fetchWb 8 ∧ ringsSameBut s u (fenceTarget c.bits) := by
  refine ⟨_, exec_skip h hstop, ?_⟩
  generalize fenceTarget c.bits = t at hok hskipped hne ⊢
  rw [restart_of_ok (fun v => v.skipSlot t) hok]
  have hproduced : (producedSeen s t).ring t = { s.ring t with produced := (s.ring t).seen } := State.ring_setRing_self ..
  rw [skipSlot_of_unfetched (by rw [hproduced]; exact hskipped) (by rw [hproduced]; exact hne)]
  have hfrom := restartedFrom_pauseDrained (passedUnfetched (producedSeen s t) t) t
  have hring := ring_passedUnfetched_self (producedSeen s t) t
  have hothers := ringsSameBut_passedUnfetched (producedSeen s t) t
  have hhost := hostSameOutside_passedUnfetched (producedSeen s t) t
  rw [hproduced] at hring hhost
  have hframe : passedUnfetched (producedSeen s t) t = { s with
    rings := (passedUnfetched (producedSeen s t) t).rings, host := (passedUnfetched (producedSeen s t) t).host } := rfl
  generalize State.pauseDrained _ _ = u at hfrom ⊢
  generalize passedUnfetched _ _ = w at hfrom hring hothers hhost hframe
  have hu : u.host = w.host := by rw [hfrom.frame]
  refine ⟨by rw [hfrom.frame, hframe], hfrom.stopped, ?_, ?_, fun x hx => ?_, fun q hq => ?_⟩
  · rw [hfrom.self, hring]
  · rw [hfrom.self, hring]
  · rw [hu]
    exact hhost x hx
  · rw [hfrom.others q hq, hothers q hq, producedSeen, State.ring_setRing, if_neg hq]

/-! ### FLUSH and CLOSE -/

/-- The fence waits for its target. -/
def waitsFor (t : Nat) (c : ClauseSt) : ClauseSt := { c with target := some t, begun := true }

/-- Host memory as the command finds it, with the fence waiting for its target. -/
def fenceWaits (h : HostView) (s : State) (c : ClauseSt) : State :=
  (s.seeHost h).modRing 0 (fun R => R.modClause c.index (waitsFor (fenceTarget c.bits)))

theorem ring_fenceWaits {h : HostView} {s : State} {c : ClauseSt} {q : Nat} (hq : q ≠ 0) :
    (fenceWaits h s c).ring q = s.ring q := by
  rw [fenceWaits, State.ring_modRing, if_neg hq]
  rfl

/-- The fence changes the clauses of its ring alone. -/
theorem ring_fenceWaits_but_clauses (h : HostView) (s : State) (c : ClauseSt) (q : Nat) :
    (fenceWaits h s c).ring q = { s.ring q with clauses := ((fenceWaits h s c).ring q).clauses } := by
  by_cases hq : q = 0
  · subst q
    have hring : (fenceWaits h s c).ring 0 = (s.ring 0).modClause c.index (waitsFor (fenceTarget c.bits)) :=
      State.ring_modRing_self (s.seeHost h) 0 _
    rw [hring]
    rfl
  · rw [ring_fenceWaits hq]

theorem clauseOf_fenceWaits {h : HostView} {s : State} {c : ClauseSt} (hc : StartedFence s 0 c) :
    ((fenceWaits h s c).ring 0).clauseOf c.index = some (waitsFor (fenceTarget c.bits) c) := by
  have hring : (fenceWaits h s c).ring 0 = (s.ring 0).modClause c.index (waitsFor (fenceTarget c.bits)) :=
    State.ring_modRing_self (s.seeHost h) 0 _
  rw [hring]
  exact clauseOf_modClause _ (fun _ => rfl) hc.clause

theorem any_outstanding_fenceWaits (h : HostView) (s : State) (c : ClauseSt) (q : Nat) :
    ((fenceWaits h s c).ring q).clauses.any ClauseSt.outstanding = (s.ring q).clauses.any ClauseSt.outstanding := by
  by_cases hq : q = 0
  · subst q
    have hring : (fenceWaits h s c).ring 0 = (s.ring 0).modClause c.index (waitsFor (fenceTarget c.bits)) :=
      State.ring_modRing_self (s.seeHost h) 0 _
    rw [hring, RingSt.modClause, List.any_map]
    refine congrArg _ (funext fun x => ?_)
    rw [Function.comp_apply]
    split <;> rfl
  · rw [ring_fenceWaits hq]

theorem startedFence_of_seeHost {h : HostView} {s : State} {k fn : Nat} {c : ClauseSt}
    (hf : (s.seeHost h).startedFence 0 k fn = some c) : StartedFence s 0 c :=
  have hc := startedFence_of hf
  ⟨hc.clause, hc.phase⟩

theorem exec_flush {h : HostView} {s : State} {k : Nat} {c : ClauseSt} (hf : (s.seeHost h).startedFence 0 k 4 = some c)
    (hstop : (s.ring (fenceTarget c.bits)).isStopped = true) :
    exec (.flush k h) s = .next ((fenceWaits h s c).flushRing (fenceTarget c.bits)).issueAll := by
  rw [exec, execFlush]
  simp only [hf]
  exact if_pos hstop

theorem exec_close {h : HostView} {s : State} {k : Nat} {c : ClauseSt} (hf : (s.seeHost h).startedFence 0 k 5 = some c)
    (hopen : (s.ring (fenceTarget c.bits)).isOpen = true) (hclosing : (s.ring (fenceTarget c.bits)).closing = false) :
    exec (.close k h) s = .next ((fenceWaits h s c).beginClose (fenceTarget c.bits)) := by
  rw [exec, execClose]
  simp only [hf]
  exact if_pos ⟨hopen, hclosing⟩

/-- A control fence whose target has become what it asked for is done. -/
def doneFor (t : Nat) (c : ClauseSt) : ClauseSt := if c.target = some t then { c with phase := .done, worked := true } else c

theorem doneFor_of_target {t : Nat} {c : ClauseSt} (h : c.target = some t) : doneFor t c = { c with phase := .done, worked := true } :=
  if_pos h

theorem ring_fencesDone_zero (s : State) (t : Nat) :
    (s.fencesDone t).ring 0 = { s.ring 0 with clauses := (s.ring 0).clauses.map (doneFor t) } := State.ring_modRing_self ..

theorem ring_fencesDone (s : State) (t : Nat) {q : Nat} (hq : q ≠ 0) : (s.fencesDone t).ring q = s.ring q :=
  (State.ring_modRing ..).trans (if_neg hq)

theorem phase_fencesDone {s : State} {t index : Nat} {c : ClauseSt} (h : (s.ring 0).clauseOf index = some c)
    (ht : c.target = some t) : (((s.fencesDone t).ring 0).clauseOf index).map (·.phase) = some .done := by
  rw [ring_fencesDone_zero, clauseOf_map, h, Option.map_some, Option.map_some, doneFor_of_target ht]
  intro x
  unfold doneFor
  split <;> rfl

theorem close_closes {k : Nat} {h : HostView} {c : ClauseSt} {s : State} (hf : (s.seeHost h).startedFence 0 k 5 = some c)
    (hne : fenceTarget c.bits ≠ 0) (hopen : (s.ring (fenceTarget c.bits)).isOpen = true)
    (hclosing : (s.ring (fenceTarget c.bits)).closing = false) (hstop : (s.ring (fenceTarget c.bits)).isStopped = false)
    (hout : (s.ring (fenceTarget c.bits)).clauses.any ClauseSt.outstanding = false) :
    ∃ t : State, exec (.close k h) s = .next t ∧ t.ring (fenceTarget c.bits) = RingSt.reset ∧
      ((t.ring 0).clauseOf c.index).map (·.phase) = some .done := by
  refine ⟨_, exec_close hf hopen hclosing, ?_⟩
  have hclause := clauseOf_fenceWaits (h := h) (startedFence_of_seeHost hf)
  have hring := ring_fenceWaits (h := h) (s := s) (c := c) hne
  generalize fenceWaits h s c = a at hclause hring ⊢
  rw [beginClose_of_idle (by rw [hring]; exact hstop) (by rw [hring]; exact hout), State.closeNow_of_ne_zero _ hne]
  refine ⟨?_, phase_fencesDone (c := waitsFor (fenceTarget c.bits) c) ?_ rfl⟩
  · rw [ring_fencesDone _ _ hne, State.ring_ringClosed_self]
  · rw [ringsSameBut_ringClosed _ _ 0 hne.symm, State.ring_modRing, if_neg hne.symm]
    exact hclause

/-- A flushed ring before it becomes IDLE. -/
def flushBegun (s : State) (t : Nat) : State := (s.flushPosted t).modRing t (fun (R : RingSt) => { R with flushing := true })

/-- A ring with n records that has been flushed and waits for its outstanding clauses. -/
def RingSt.flushedWaiting (x : RingSt) (n : Nat) : RingSt := { x.flushed with records := n, flushing := true }

theorem ring_flushBegun_self (s : State) (t : Nat) : ∃ n, (flushBegun s t).ring t = RingSt.flushedWaiting (s.ring t) n := by
  obtain ⟨n, hn⟩ : ∃ n, (s.flushPosted t).ring t = { (s.ring t).flushed with records := n } := ⟨_, State.ring_flushPosted_self s t⟩
  refine ⟨n, ?_⟩
  rw [flushBegun, State.ring_modRing_self, hn]
  rfl

theorem ringsSameBut_flushBegun (s : State) (t : Nat) : ringsSameBut s (flushBegun s t) t := fun q hq => by
  rw [flushBegun, State.ring_modRing, if_neg hq, ringsSameBut_flushPosted s t q hq]

/-- Taking posted clauses away leaves the outstanding ones. -/
theorem any_outstanding_flushed (x : RingSt) : x.flushed.clauses.any ClauseSt.outstanding = x.clauses.any ClauseSt.outstanding := by
  rw [RingSt.flushed, List.any_filter]
  refine congrArg _ (funext fun c => ?_)
  simp [ClauseSt.outstanding]

theorem phase_of_mem_flushed {x : RingSt} {c : ClauseSt} (h : c ∈ x.flushed.clauses) : c.phase ≠ .posted := by
  simpa using (List.mem_filter.mp h).2

/-- A ring that waits for outstanding clauses stays as it is. -/
theorem tryIdle_of_outstanding {s : State} {t : Nat} (h : (s.ring t).clauses.any ClauseSt.outstanding = true) : s.tryIdle t = s := by
  unfold State.tryIdle
  exact if_neg (by simp [h])

/-- A flushed ring that becomes IDLE. -/
def RingSt.idled (x : RingSt) : RingSt := ({ x.become .idle with flushing := false, stopAt := 0 } : RingSt).settle

theorem RingSt.idled_eq (x : RingSt) : RingSt.idled x = { x with
    state := (RingSt.idled x).state, before := (RingSt.idled x).before, flushing := false, stopAt := 0 } := by
  rw [RingSt.idled, RingSt.settle_eq, RingSt.become_eq]

/-- The ring has become IDLE and its slot's latest value is compared; the fences are still to be told. -/
def idleSeen (s : State) (t : Nat) : State := ((s.setRing t (RingSt.idled (s.ring t))).seeProducer t (s.ring t).seen).pauseDrained t

theorem tryIdle_of_free {s : State} {t : Nat} (hflush : (s.ring t).flushing = true)
    (h : (s.ring t).clauses.any ClauseSt.outstanding = false) : s.tryIdle t = (idleSeen s t).fencesDone t := by
  unfold State.tryIdle
  exact if_pos (by simp [hflush, h])

/-- A ring that becomes IDLE keeps its clauses and its fetch index, and the other rings stand. -/
structure IdledFrom (t : Nat) (s u : State) : Prop where
  clauses : (u.ring t).clauses = (s.ring t).clauses
  fetched : (u.ring t).fetched = (s.ring t).fetched
  others  : ringsSameBut s u t

theorem idledFrom_idleSeen (s : State) (t : Nat) : IdledFrom t s (idleSeen s t) := by
  have hset := ringsSameBut_setRing s t (RingSt.idled (s.ring t))
  have hseen := State.producerSeen_seeProducer (s.setRing t (RingSt.idled (s.ring t))) t (s.ring t).seen
  have hself := hseen.self
  rw [State.ring_setRing_self] at hself
  unfold idleSeen
  generalize State.setRing s t (RingSt.idled (s.ring t)) = v at hset hseen hself ⊢
  have hothers := hseen.others
  clear hseen
  generalize v.seeProducer t (s.ring t).seen = w at hself hothers ⊢
  have hpause := pausedAlone_pauseDrained w t
  refine ⟨?_, ?_, fun q hq => (hpause.others q hq).trans ((hothers q hq).trans (hset q hq))⟩
  · rw [hpause.self, hself, RingSt.seeing_clauses, RingSt.idled_eq]
  · rw [hpause.self, hself, RingSt.seeing_fetched, RingSt.idled_eq]

theorem flush_empties {k : Nat} {h : HostView} {c : ClauseSt} {s : State} (hf : (s.seeHost h).startedFence 0 k 4 = some c)
    (hstop : (s.ring (fenceTarget c.bits)).isStopped = true) :
    ∃ u : State, exec (.flush k h) s = .next u.issueAll ∧
      (u.ring (fenceTarget c.bits)).fetched = (s.ring (fenceTarget c.bits)).produced ∧
      (∀ x ∈ (u.ring (fenceTarget c.bits)).clauses, x.phase ≠ .posted) ∧
      (∀ q, q ≠ 0 → q ≠ fenceTarget c.bits → u.ring q = s.ring q) ∧
      ((s.ring (fenceTarget c.bits)).clauses.any ClauseSt.outstanding = true → (u.ring (fenceTarget c.bits)).isStopped = true) ∧
      ((s.ring (fenceTarget c.bits)).clauses.any ClauseSt.outstanding = false →
        ((u.ring 0).clauseOf c.index).map (·.phase) = some .done) := by
  refine ⟨_, exec_flush hf hstop, ?_⟩
  have hc := startedFence_of_seeHost hf
  have hclause := clauseOf_fenceWaits (h := h) hc
  have hwaits := ring_fenceWaits_but_clauses h s c (fenceTarget c.bits)
  have hany := any_outstanding_fenceWaits h s c (fenceTarget c.bits)
  have hothers : ∀ q, q ≠ 0 → (fenceWaits h s c).ring q = s.ring q := fun q hq => ring_fenceWaits hq
  generalize ht : fenceTarget c.bits = t at hstop hclause hwaits hany ⊢
  generalize fenceWaits h s c = a at hclause hwaits hany hothers ⊢
  obtain ⟨n, hbegun⟩ := ring_flushBegun_self a t
  have hbegun' := ringsSameBut_flushBegun a t
  rw [State.flushRing, ← flushBegun]
  generalize flushBegun a t = b at hbegun hbegun' ⊢
  have hproduced : (a.ring t).produced = (s.ring t).produced := by rw [hwaits]
  have hbany : (b.ring t).clauses.any ClauseSt.outstanding = (s.ring t).clauses.any ClauseSt.outstanding := by
    rw [hbegun, ← hany]
    exact any_outstanding_flushed _
  have hfetched : (b.ring t).fetched = (s.ring t).produced := by
    rw [hbegun, ← hproduced]
    rfl
  have hposted : ∀ x ∈ (b.ring t).clauses, x.phase ≠ .posted := fun x hx => by
    rw [hbegun] at hx
    exact phase_of_mem_flushed (x := a.ring t) hx
  cases hout : (s.ring t).clauses.any ClauseSt.outstanding with
  | true =>
    rw [hout] at hbany
    rw [tryIdle_of_outstanding hbany]
    refine ⟨hfetched, hposted, fun q h0 hq => (hbegun' q hq).trans (hothers q h0), fun _ => ?_, fun h => absurd h (by simp)⟩
    rw [hbegun]
    exact (congrArg RingSt.isStopped hwaits).trans hstop
  | false =>
    have ht0 : t ≠ 0 := fun h0 => by
      rw [h0, hc.outstanding] at hout
      exact Bool.false_ne_true hout.symm
    rw [hout] at hbany
    rw [tryIdle_of_free (by rw [hbegun]; rfl) hbany]
    have hidle := idledFrom_idleSeen b t
    generalize idleSeen b t = v at hidle ⊢
    refine ⟨?_, fun x hx => ?_, fun q h0 hq => ?_, fun h => absurd h (by simp), fun _ => ?_⟩
    · rw [ring_fencesDone _ _ ht0, hidle.fetched, hfetched]
    · rw [ring_fencesDone _ _ ht0, hidle.clauses] at hx
      exact hposted x hx
    · rw [ring_fencesDone _ _ h0, hidle.others q hq, hbegun' q hq, hothers q h0]
    · refine phase_fencesDone (c := waitsFor t c) ?_ rfl
      rw [hidle.others 0 ht0.symm, hbegun' 0 ht0.symm]
      exact hclause

/-- Settles O14: the fence's own clause by `workDone`, the target by `restart`, `flushRing` and `beginClose`. -/
theorem fencesAndRingControl : Obligations.FencesAndRingControl := by
  unfold Obligations.FencesAndRingControl
  exact ⟨fun _ _ _ _ => fence_is_done, fun _ _ _ _ => fenceSet_is_done, fun _ _ _ => resume_restarts,
    fun _ _ _ => resume_stops_again, fun _ _ _ => skip_passes_held, fun _ _ _ => skip_passes_unfetched,
    fun _ _ _ _ => flush_empties, fun _ _ _ _ => close_closes⟩

end Sys2Proof.Proofs
end

section
/-! PROOFS. O33: host accesses of device memory. What serving a read counts and logs, what serving a write stores, and what
neither touches. -/

open Sys2Proof Sys2Proof.Machine

namespace Sys2Proof.Proofs

/-! ### Serving a read -/

/-- What the banks, the cache and the codes do for a read: counters, the cache and its slice, the error tables, and events. -/
structure ReadBehind (s t : State) : Prop where
  frame : t = { s with ctr := t.ctr, caches := t.caches, playa := t.playa, dbg := t.dbg
                       err := { s.err with tables := t.err.tables, summary := t.err.summary }
                       boot := { s.boot with events := t.boot.events }, mgt := { s.mgt with awaiting := t.mgt.awaiting } }

theorem ReadBehind.refl (s : State) : ReadBehind s s := ⟨rfl⟩

theorem ReadBehind.trans {s t u : State} (h : ReadBehind s t) (g : ReadBehind t u) : ReadBehind s u :=
  ⟨g.frame.trans (by rw [h.frame])⟩

/-- What the cache alone does for a read: counters, the cache and its slice. -/
structure CacheBehind (s t : State) : Prop where
  frame : t = { s with ctr := t.ctr, caches := t.caches, playa := t.playa, dbg := t.dbg }

theorem CacheBehind.refl (s : State) : CacheBehind s s := ⟨rfl⟩

theorem CacheBehind.trans {s t u : State} (h : CacheBehind s t) (g : CacheBehind t u) : CacheBehind s u :=
  ⟨g.frame.trans (by rw [h.frame])⟩

theorem CacheBehind.readBehind {s t : State} (h : CacheBehind s t) : ReadBehind s t := by
  rw [h.frame]
  exact ⟨rfl⟩

theorem cacheBehind_ctrAdd (s : State) (o n : Nat) : CacheBehind s (s.ctrAdd o n) := ⟨rfl⟩
theorem cacheBehind_caches (s : State) (x : Tbl CacheSet) : CacheBehind s { s with caches := x } := ⟨rfl⟩

theorem cacheBehind_playaSeen (s : State) (n off len : Nat) : CacheBehind s (s.playaSeen n off len) := by
  rw [State.playaSeen_ctr_only]
  exact ⟨rfl⟩

theorem cacheBehind_playaWrite (s : State) (n off : Nat) (bs : List Byte) (p : Bool) : CacheBehind s (s.playaWrite n off bs p) := by
  rw [State.playaWrite_frame]
  exact ⟨rfl⟩

theorem cacheBehind_cacheRead (s : State) (dpa : Nat) (allocate : Bool) (k : Nat) :
    CacheBehind s (s.cacheRead dpa allocate k).1 := by
  unfold State.cacheRead
  extract_lets -underBinder n set r s1 s2
  have h1 : CacheBehind s s1 := cacheBehind_caches ..
  clear_value s1
  have h2 : CacheBehind s1 s2 := by
    unfold s2
    split
    · exact .refl s1
    · split
      · exact cacheBehind_playaWrite ..
      · exact .refl s1
  clear_value s2
  split
  · exact h1.trans (h2.trans (cacheBehind_ctrAdd ..))
  · exact .refl s

theorem readBehind_mergeSummary (s : State) (e : CeEntry) : ReadBehind s (s.mergeSummary e) := ⟨rfl⟩
theorem readBehind_raise (s : State) (e : Event) : ReadBehind s (s.raise e) := ⟨rfl⟩
theorem readBehind_tables (s : State) (x : Tbl (List CeEntry)) : ReadBehind s { s with err := { s.err with tables := x } } := ⟨rfl⟩

theorem readBehind_ceEvent (s : State) (vault row tier bank : Nat) (page : Bool) (dpa : Nat) (scrub : Bool) :
    ReadBehind s (s.ceEvent vault row tier bank page dpa scrub) := by
  unfold State.ceEvent
  extract_lets -underBinder e j s1
  have h1 : ReadBehind s s1 := by
    unfold s1
    split
    · exact readBehind_mergeSummary ..
    · exact .refl s
  clear_value s1
  split
  · split
    · extract_lets -underBinder err s2
      have h2 : ReadBehind s1 s2 := readBehind_tables ..
      clear_value s2
      exact h1.trans (h2.trans ((readBehind_mergeSummary ..).trans (readBehind_raise ..)))
    · exact h1.trans (readBehind_tables ..)
  · exact h1

theorem readBehind_ceBurst (s : State) (dpa : Nat) : ReadBehind s (s.ceBurst dpa) :=
  (cacheBehind_ctrAdd ..).readBehind.trans (readBehind_ceEvent ..)

/-- Without word errors no read corrects anything. -/
theorem burstStatus_of_no_checks {d : Dram} (h : d.checks = []) (burst : Nat) : d.burstStatus burst = 0 := by
  simp [Dram.burstStatus, h]

/-- A read has been answered with bytes and poison; what stands behind it has been counted and logged. -/
def ReadServed (s : State) (dpa : Nat) (line : List Byte × Bool) (t : State) : Prop :=
  ∃ u, t = u.answer (.data (dpa / 64 * 64) line.1 line.2) ∧ ReadBehind s u ∧ (s.dram.checks = [] → CacheBehind s u)

theorem readServed_serveRead (s : State) (dpa : Nat) : ReadServed s dpa (s.lineOf dpa) (s.serveRead dpa) := by
  unfold State.serveRead
  extract_lets -underBinder n l s0 c s1 s2
  have h0 : ReadBehind s s0 ∧ (s.dram.checks = [] → CacheBehind s s0) := by
    unfold s0
    split
    · exact ⟨(cacheBehind_playaSeen ..).readBehind, fun _ => cacheBehind_playaSeen ..⟩
    · split
      · next h1 => exact ⟨readBehind_ceBurst .., fun h => absurd ((burstStatus_of_no_checks h _).symm.trans h1) (by decide)⟩
      · exact ⟨.refl s, fun _ => .refl s⟩
  clear_value s0
  have hc : CacheBehind s0 c.1 := cacheBehind_cacheRead ..
  clear_value c
  have h1 : CacheBehind s0 s1 := by
    unfold s1
    split
    · exact hc
    · exact hc.trans (cacheBehind_ctrAdd ..)
  clear_value s1
  have h2 : CacheBehind s0 s2 := by
    unfold s2
    split
    · exact h1.trans (cacheBehind_ctrAdd ..)
    · exact h1
  clear_value s2
  exact ⟨s2, rfl, h0.1.trans h2.readBehind, fun h => (h0.2 h).trans h2⟩

theorem exec_hostMemRead_of_ready {a : Nat} {s : State} (ha : a < Config.dramBytes) (hready : s.glb.ready = true)
    (hheld : s.hostHeld = false) : exec (.hostMemRead a) s = .next (s.offerRead a) := by
  simp [exec, execHostMemRead, Nat.not_le.mpr ha, hready, hheld]

theorem read_is_answered {a : Nat} {s : State} (ha : a < Config.dramBytes) (hready : s.glb.ready = true)
    (hheld : s.hostHeld = false) (hwaits : s.burstWaits a = false) (hbank : s.bankHeld a = false ∨ s.readHits a = true)
    (hrepairs : s.readRepairs a = false) :
    ∃ t : State, exec (.hostMemRead a) s = .next t ∧
      t.io = { s.io with answers := .data (a / 64 * 64) (s.lineOf a).1 (s.lineOf a).2 :: s.io.answers } ∧
      (s.dram.checks = [] → t.err = s.err ∧ t.boot = s.boot) ∧
      t = { s with ctr := t.ctr, caches := t.caches, playa := t.playa, dbg := t.dbg, io := t.io
                   err := { s.err with tables := t.err.tables, summary := t.err.summary }
                   boot := { s.boot with events := t.boot.events }, mgt := { s.mgt with awaiting := t.mgt.awaiting } } := by
  have hoffer : s.offerRead a = s.serveRead a := by
    have hfree : ¬ (s.burstWaits a || (s.bankHeld a && !s.readHits a)) = true := by rcases hbank with h | h <;> simp [hwaits, h]
    rw [State.offerRead, if_neg hfree, hrepairs]
    rfl
  obtain ⟨u, hu, hbehind, hquiet⟩ := readServed_serveRead s a
  refine ⟨_, exec_hostMemRead_of_ready ha hready hheld, ?_⟩
  rw [hoffer, hu]
  generalize (s.lineOf a).1 = bs
  generalize (s.lineOf a).2 = p
  refine ⟨?_, fun h => ?_, ?_⟩
  · rw [hbehind.frame]
    rfl
  · rw [(hquiet h).frame]
    exact ⟨rfl, rfl⟩
  · rw [hbehind.frame]
    rfl

theorem read_of_held_bank_waits {a : Nat} {s : State} (ha : a < Config.dramBytes) (hready : s.glb.ready = true)
    (hheld : s.hostHeld = false) (hbank : s.bankHeld a = true) (hhits : s.readHits a = false) :
    ∃ t : State, exec (.hostMemRead a) s = .next t ∧ t = { s with vaults := t.vaults } ∧
      (t.vault (a / Config.vaultBytes)).waiting = (s.vault (a / Config.vaultBytes)).waiting ++ [.read a false] ∧
      vaultsSameBut s t (a / Config.vaultBytes) := by
  have hoffer : s.offerRead a = s.wait (.read a false) := by
    rw [State.offerRead, if_pos (by simp [hbank, hhits])]
  refine ⟨s.wait (.read a false), (exec_hostMemRead_of_ready ha hready hheld).trans (congrArg _ hoffer), rfl, ?_, fun q hq => ?_⟩
  · rw [State.wait, Waiting.dpa, State.vault_modVault_self]
  · rw [State.wait, Waiting.dpa, State.vault_modVault, if_neg hq]

theorem early_write_is_discarded {a : Nat} {bs : List Byte} {p : Bool} {s : State} (ha : a < Config.dramBytes)
    (hready : s.glb.ready = false) :
    ∃ t : State, exec (.hostMemWrite a bs p) s = .next t ∧ t.io.answers = .discarded a :: s.io.answers ∧
      t.cxl.discards = s.cxl.discards + 1 ∧ t = { s with cxl := t.cxl, io := t.io } := by
  refine ⟨s.early.answer (.discarded a), ?_, rfl, rfl, rfl⟩
  simp [exec, execHostMemWrite, State.hostStore, Nat.not_le.mpr ha, hready]

theorem early_read_is_poisoned {a : Nat} {s : State} (ha : a < Config.dramBytes) (hready : s.glb.ready = false) :
    ∃ (bs : List Byte) (t : State), exec (.hostMemRead a) s = .next t ∧
      t.io.answers = .data (a / 64 * 64) bs true :: s.io.answers ∧
      t = { s with cxl := t.cxl, io := t.io, freeIdx := t.freeIdx } := by
  refine ⟨s.early.freeBytes 64, s.early.answerPoison a, ?_, rfl, rfl⟩
  simp [exec, execHostMemRead, Nat.not_le.mpr ha, hready]

theorem held_read_joins_queue {a : Nat} {s : State} (ha : a < Config.dramBytes) (hready : s.glb.ready = true)
    (hheld : s.hostHeld = true) :
    exec (.hostMemRead a) s = .next { s with cxl := { s.cxl with held := s.cxl.held ++ [.read a false] } } := by
  simp [exec, execHostMemRead, State.hold, Nat.not_le.mpr ha, hready, hheld]

/-! ### Combining entries closed by a write's arrival -/

/-- Combining entries of vault v may have closed; nothing else has changed. -/
structure EntriesClosed (v : Nat) (s t : State) : Prop where
  frame  : t = { s with vaults := t.vaults }
  vault  : ∀ q, t.vault q = { s.vault q with combine := (t.vault q).combine }
  others : vaultsSameBut s t v

theorem entriesClosed_closeEntries (s : State) (a n : Nat) : EntriesClosed (a / Config.vaultBytes) s (s.closeEntries a n) := by
  unfold State.closeEntries
  extract_lets -underBinder v
  split
  · exact ⟨rfl, fun _ => rfl, fun _ _ => rfl⟩
  · refine ⟨rfl, fun q => ?_, fun q hq => ?_⟩
    · rw [State.vault_setVault]
      split
      · subst q
        rfl
      · rfl
    · rw [State.vault_setVault, if_neg hq]

section
variable {v : Nat} {s t : State}

theorem EntriesClosed.jobs (h : EntriesClosed v s t) (q : Nat) : (t.vault q).jobs = (s.vault q).jobs := by rw [h.vault]
theorem EntriesClosed.repair (h : EntriesClosed v s t) (q : Nat) : (t.vault q).repair = (s.vault q).repair := by rw [h.vault]
theorem EntriesClosed.stopped (h : EntriesClosed v s t) (q : Nat) : (t.vault q).stopped = (s.vault q).stopped := by rw [h.vault]
theorem EntriesClosed.moving (h : EntriesClosed v s t) (q : Nat) : (t.vault q).moving = (s.vault q).moving := by rw [h.vault]
theorem EntriesClosed.waiting (h : EntriesClosed v s t) (q : Nat) : (t.vault q).waiting = (s.vault q).waiting := by rw [h.vault]
theorem EntriesClosed.mode (h : EntriesClosed v s t) (q : Nat) : (t.vault q).mode = (s.vault q).mode := by rw [h.vault]
theorem EntriesClosed.sideDead (h : EntriesClosed v s t) (q : Nat) : (t.vault q).sideDead = (s.vault q).sideDead := by rw [h.vault]

theorem EntriesClosed.dpaLocked (h : EntriesClosed v s t) (a : Nat) : t.dpaLocked a = s.dpaLocked a := by
  rw [State.dpaLocked, h.jobs, State.dpaLocked]

theorem EntriesClosed.burstWaits (h : EntriesClosed v s t) (a : Nat) : t.burstWaits a = s.burstWaits a := by
  rw [State.burstWaits, h.waiting, State.burstWaits]

theorem EntriesClosed.bankHeld (h : EntriesClosed v s t) (a : Nat) : t.bankHeld a = s.bankHeld a := by
  have hengine : t.engine = s.engine := by rw [h.frame]; rfl
  have htier : t.tier = s.tier := by rw [h.frame]; rfl
  simp only [State.bankHeld, hengine, htier, h.repair, h.stopped, h.moving]

theorem EntriesClosed.vaultRetired (h : EntriesClosed v s t) (n : Nat) : t.vaultRetired n = s.vaultRetired n := by
  rw [State.vaultRetired, h.mode, State.vaultRetired]

theorem EntriesClosed.cacheOn (h : EntriesClosed v s t) (n : Nat) : t.cacheOn n = s.cacheOn n := by
  have happlied : t.applied = s.applied := by rw [h.frame]
  rw [State.cacheOn, happlied, h.mode, State.cacheOn]

theorem EntriesClosed.cachedAt (h : EntriesClosed v s t) (a : Nat) : t.cachedAt a = s.cachedAt a := by
  have hcaches : t.caches = s.caches := by rw [h.frame]
  rw [State.cachedAt, hcaches, h.cacheOn, State.cachedAt]

theorem EntriesClosed.dpaRead (h : EntriesClosed v s t) (a n : Nat) : t.dpaRead a n = s.dpaRead a n := by
  have hcaches : t.caches = s.caches := by rw [h.frame]
  have hbank : t.bankRead = s.bankRead := by rw [h.frame]; rfl
  have hplaya : t.playaRead = s.playaRead := by rw [h.frame]; rfl
  simp only [State.dpaRead, hcaches, hbank, hplaya, h.cachedAt]

theorem EntriesClosed.seqGuarded (h : EntriesClosed v s t) (a n : Nat) : t.seqGuarded a n = s.seqGuarded a n := by
  have htouched : t.seqTouched = s.seqTouched := by rw [h.frame]; rfl
  have hdpa : t.seqDpa = s.seqDpa := by rw [h.frame]; rfl
  have hentry : t.seqEntry = s.seqEntry := funext fun i => by rw [State.seqEntry, hdpa, h.dpaRead, State.seqEntry]
  rw [State.seqGuarded, htouched, hentry, State.seqGuarded]

end

/-! ### Serving a write -/

/-- Only slices have changed, and none where no cache holds a line. -/
structure LinesTaken (s t : State) : Prop where
  frame : t = { s with playa := t.playa }
  playa : s.caches = [] → t.playa = s.playa

theorem playaWrite_of_no_slots {s : State} (h : s.dbg.slots = []) (n off : Nat) (bs : List Byte) (p : Bool) :
    s.playaWrite n off bs p = { s with playa := s.playa.store (n * Config.sliceBytes + off) bs p } := by
  unfold State.playaWrite State.perturbPlaya
  exact if_pos (by simp [h])

theorem linesTaken_updateLines {s : State} (h : s.dbg.slots = []) (a : Nat) (bs : List Byte) (p : Bool) :
    LinesTaken s (s.updateLines a bs p) := by
  unfold State.updateLines
  split
  · exact ⟨rfl, fun _ => rfl⟩
  · next hcaches =>
    refine ⟨?_, fun hc => absurd (by rw [hc]; rfl) hcaches⟩
    refine List.foldlRecOn (motive := fun t : State => t = { s with playa := t.playa }) _ _ rfl fun t ht x _ => ?_
    split
    · have hslots : t.dbg.slots = [] := by
        rw [ht]
        exact h
      rw [playaWrite_of_no_slots hslots, ht]
    · exact ht

theorem bankWrite_of_no_slots {s : State} (h : s.dbg.slots = []) (a : Nat) (bs : List Byte) (p : Bool) :
    s.bankWrite a bs p = { s with dram := s.dram.store a bs p } := by
  unfold State.bankWrite State.perturbWrite
  exact if_pos (by simp [h])

/-- Bytes have been stored: in the banks, in the lines that hold them, and past the combining entries of their vault. -/
structure BytesStored (a : Nat) (bs : List Byte) (p : Bool) (s t : State) : Prop where
  frame  : t = { s with dram := s.dram.store a bs p, playa := t.playa, vaults := t.vaults }
  playa  : s.caches = [] → t.playa = s.playa
  vaults : vaultsSameBut s t (a / Config.vaultBytes)

theorem bytesStored_dpaWrite {s : State} (hslots : s.dbg.slots = []) {a : Nat} (hside : (s.vault (a / Config.vaultBytes)).sideDead = false)
    (bs : List Byte) (p : Bool) : BytesStored a bs p s (s.dpaWrite a bs p) := by
  rw [State.dpaWrite, if_neg (by rw [hside]; exact Bool.false_ne_true), bankWrite_of_no_slots hslots]
  have hlines := linesTaken_updateLines (s := { s with dram := s.dram.store a bs p }) hslots a bs p
  generalize State.updateLines _ a bs p = u at hlines ⊢
  have hclosed := entriesClosed_closeEntries u a bs.length
  generalize u.closeEntries a bs.length = t at hclosed ⊢
  have hplaya : t.playa = u.playa := by rw [hclosed.frame]
  have hvault : u.vault = s.vault := by rw [hlines.frame]; rfl
  refine ⟨?_, fun hc => hplaya.trans (hlines.playa hc), fun q hq => (hclosed.others q hq).trans (congrFun hvault q)⟩
  rw [hclosed.frame, hlines.frame]

/-- A line has been poisoned in its bank, and where the cache holds it. -/
structure LinePoisoned (a : Nat) (s t : State) : Prop where
  frame : t = { s with dram := { s.dram with poison := Poison.set s.dram.poison a 64 true }, playa := t.playa }
  playa : s.caches = [] → t.playa = s.playa

theorem linePoisoned_poisonLine (s : State) (a : Nat) : LinePoisoned a s (s.poisonLine a) := by
  unfold State.poisonLine
  extract_lets -underBinder d t
  split
  · next c hc =>
    refine ⟨rfl, fun h => ?_⟩
    have hnone : t.cachedAt a = none := by simp [State.cachedAt, t, h]
    exact absurd (hc.symm.trans hnone) (by simp)
  · exact ⟨rfl, fun _ => rfl⟩

/-- A write that is served. -/
structure WriteServed (a : Nat) (bs : List Byte) (p : Bool) (s t : State) : Prop where
  frame  : t = { s with dram := t.dram, playa := t.playa, vaults := t.vaults, kvm := { s.kvm with cache := t.kvm.cache }, ctr := t.ctr
                        cmd := { s.cmd with nouns := t.cmd.nouns, chains := t.cmd.chains }
                        tainted := t.tainted, io := { s.io with answers := t.io.answers } }
  answer : t.io.answers = .done a :: s.io.answers
  dram   : t.dram = if p then { s.dram.store a bs p with poison := Poison.set (s.dram.store a bs p).poison (a / 64 * 64) 64 true }
    else s.dram.store a bs p
  playa  : s.caches = [] → t.playa = s.playa
  vaults : vaultsSameBut s t (a / Config.vaultBytes)

/-- What is left to do for a write that has been stored: cached entries, the counter, the answer. -/
def writeAnswered (s : State) (a n : Nat) : State :=
  ((s.dropEntries a n).ctrAdd (vltWrBursts (a / Config.vaultBytes)) 1).answer (.done a)

theorem writeAnswered_frame (s : State) (a n : Nat) : writeAnswered s a n = { s with
    kvm := { s.kvm with cache := (writeAnswered s a n).kvm.cache }, ctr := (writeAnswered s a n).ctr
    cmd := { s.cmd with nouns := (writeAnswered s a n).cmd.nouns, chains := (writeAnswered s a n).cmd.chains }
    io := { s.io with answers := .done a :: s.io.answers } } := rfl

/-- A stored line, poisoned where the host says so. -/
def storedLine (s : State) (a : Nat) (bs : List Byte) (p : Bool) : State :=
  if p then ((s.taint a bs.length).dpaWrite a bs p).poisonLine (a / 64 * 64) else (s.taint a bs.length).dpaWrite a bs p

/-- What storing a line changes. -/
structure LineStored (a : Nat) (bs : List Byte) (p : Bool) (s t : State) : Prop where
  frame  : t = { s with dram := t.dram, playa := t.playa, vaults := t.vaults, tainted := t.tainted }
  dram   : t.dram = if p then { s.dram.store a bs p with poison := Poison.set (s.dram.store a bs p).poison (a / 64 * 64) 64 true }
    else s.dram.store a bs p
  playa  : s.caches = [] → t.playa = s.playa
  vaults : vaultsSameBut s t (a / Config.vaultBytes)

theorem lineStored_storedLine {s : State} (hslots : s.dbg.slots = []) {a : Nat}
    (hside : (s.vault (a / Config.vaultBytes)).sideDead = false) (bs : List Byte) (p : Bool) :
    LineStored a bs p s (storedLine s a bs p) := by
  have htaint : s.taint a bs.length = { s with tainted := (s.taint a bs.length).tainted } := rfl
  have hvault : (s.taint a bs.length).vault = s.vault := rfl
  unfold storedLine
  generalize s.taint a bs.length = u at htaint hvault ⊢
  have hdram : u.dram = s.dram := by rw [htaint]
  have hplaya : u.playa = s.playa := by rw [htaint]
  have hcaches : u.caches = s.caches := by rw [htaint]
  have hstored := bytesStored_dpaWrite (s := u) (by rw [htaint]; exact hslots) (a := a) (by rw [hvault]; exact hside) bs p
  generalize u.dpaWrite a bs p = w at hstored ⊢
  have hw : w.dram = s.dram.store a bs p := by rw [hstored.frame, hdram]
  have hwcaches : w.caches = s.caches := by rw [hstored.frame, hcaches]
  have hwplaya : s.caches = [] → w.playa = s.playa := fun hc => (hstored.playa (hcaches.trans hc)).trans hplaya
  have hwvaults : vaultsSameBut s w (a / Config.vaultBytes) := fun q hq => (hstored.vaults q hq).trans (congrFun hvault q)
  have hwframe : w = { s with dram := w.dram, playa := w.playa, vaults := w.vaults, tainted := w.tainted } := by
    rw [hstored.frame, htaint]
  cases p with
  | false =>
    simp only [Bool.false_eq_true, if_false]
    exact ⟨hwframe, hw, hwplaya, hwvaults⟩
  | true =>
    simp only [if_true]
    have hpoison := linePoisoned_poisonLine w (a / 64 * 64)
    generalize w.poisonLine (a / 64 * 64) = t at hpoison ⊢
    refine ⟨?_, ?_, fun hc => (hpoison.playa (hwcaches.trans hc)).trans (hwplaya hc), fun q hq => ?_⟩
    · rw [hpoison.frame, hwframe]
    · rw [hpoison.frame, hw]
      rfl
    · rw [← hwvaults q hq, hpoison.frame]
      rfl

theorem quotaTable_congr {s t : State} (h : t.applied = s.applied) : t.quotaTable = s.quotaTable := by
  funext a n
  rw [State.quotaTable, h, State.nounDpa, State.psetDpa, State.seqDpa, h]
  rfl

theorem serveWrite_eq {s : State} {a : Nat} {bs : List Byte} {p : Bool} (hretired : s.vaultRetired (a / Config.vaultBytes) = false)
    (hside : (s.vault (a / Config.vaultBytes)).sideDead = false) (hseq : s.seqGuarded a bs.length = false)
    (hquota : (writeAnswered (storedLine s a bs p) a bs.length).quotaTable a bs.length = false) :
    s.serveWrite a bs p = writeAnswered (storedLine s a bs p) a bs.length := by
  unfold State.serveWrite
  refine (if_neg (by rw [hretired, hside]; exact Bool.false_ne_true)).trans ?_
  refine (if_neg (by rw [hseq]; exact Bool.false_ne_true)).trans ?_
  exact if_neg (by rw [Bool.not_eq_true]; exact hquota)

theorem writeServed_serveWrite {s : State} {a : Nat} {bs : List Byte} {p : Bool}
    (hretired : s.vaultRetired (a / Config.vaultBytes) = false) (hside : (s.vault (a / Config.vaultBytes)).sideDead = false)
    (hseq : s.seqGuarded a bs.length = false) (hquota : s.quotaTable a bs.length = false) (hslots : s.dbg.slots = []) :
    WriteServed a bs p s (s.serveWrite a bs p) := by
  have hline := lineStored_storedLine hslots hside bs p
  have happlied : (writeAnswered (storedLine s a bs p) a bs.length).applied = s.applied := by
    rw [writeAnswered_frame, hline.frame]
  rw [serveWrite_eq hretired hside hseq (by rw [quotaTable_congr happlied]; exact hquota)]
  generalize storedLine s a bs p = u at hline ⊢
  have hframe := writeAnswered_frame u a bs.length
  generalize writeAnswered u a bs.length = t at hframe ⊢
  refine ⟨?_, ?_, ?_, fun hc => ?_, fun q hq => ?_⟩
  · rw [hframe, hline.frame]
  · rw [hframe, hline.frame]
  · rw [hframe]
    exact hline.dram
  · rw [hframe]
    exact hline.playa hc
  · rw [hframe]
    exact hline.vaults q hq

theorem hostStore_of_free {s : State} {a : Nat} {bs : List Byte} {p : Bool} (hready : s.glb.ready = true) (hheld : s.hostHeld = false)
    (hseq : s.seqGuarded a bs.length = false) (hlocked : s.dpaLocked a = false) (hbank : s.bankHeld a = false)
    (hwaits : s.burstWaits a = false) : s.hostStore a bs p = (s.closeEntries a bs.length).serveWrite a bs p := by
  have hclosed := entriesClosed_closeEntries s a bs.length
  unfold State.hostStore
  refine (if_neg (by simp [hready])).trans ((if_neg (by simp [hheld])).trans ((if_neg (by simp [hseq])).trans ?_))
  refine (if_neg ?_).trans (if_neg ?_)
  · rw [hclosed.dpaLocked, hlocked]
    exact Bool.false_ne_true
  · rw [hclosed.bankHeld, hclosed.burstWaits, hbank, hwaits]
    exact Bool.false_ne_true

/-- A write leaves memory without word errors. -/
theorem Dram.checks_store {d : Dram} (h : d.checks = []) (a : Nat) (bs : List Byte) (p : Bool) : (d.store a bs p).checks = [] := by
  have hw : (d.write a bs).checks = [] := by simp [Dram.write, Dram.beforeWrite, h]
  unfold Dram.store
  cases p <;> exact hw

/-- A flit of a poisoned range is poisoned. -/
theorem Poison.any_set {q : List Nat} {a n b m : Nat} (hn : 0 < n) (hm : 0 < m) (f : Nat) (hset : a / 32 ≤ f ∧ f ≤ (a + n - 1) / 32)
    (hany : b / 32 ≤ f ∧ f ≤ (b + m - 1) / 32) : Poison.any (Poison.set q a n true) b m = true := by
  have hf : f ∈ flitsOf a n := by
    rw [flitsOf, if_neg (by omega)]
    exact List.mem_map.mpr ⟨f - a / 32, List.mem_range.mpr (by omega), by omega⟩
  have hmem : f ∈ Poison.set q a n true := (mem_foldl_insSet (flitsOf a n) q f).mpr (.inl hf)
  simp only [Poison.any, Bool.and_eq_true, decide_eq_true_eq, List.any_eq_true]
  exact ⟨by omega, f, hmem, hany⟩

theorem write_is_stored {a : Nat} {bs : List Byte} {p : Bool} {s : State} (ha : a < Config.dramBytes) (hready : s.glb.ready = true)
    (hheld : s.hostHeld = false) (hlen : bs.length ≤ 64 - a % 64) (hseq : s.seqGuarded a bs.length = false)
    (hlocked : s.dpaLocked a = false) (hbank : s.bankHeld a = false) (hwaits : s.burstWaits a = false)
    (hretired : s.vaultRetired (a / Config.vaultBytes) = false) (hside : (s.vault (a / Config.vaultBytes)).sideDead = false)
    (hquota : s.quotaTable a bs.length = false) (hslots : s.dbg.slots = []) (hchecks : s.dram.checks = []) :
    ∃ t : State, exec (.hostMemWrite a bs p) s = .next t ∧ t.io.answers = .done a :: s.io.answers ∧
      Cells.readRange t.dram.cells a bs.length = bs ∧ dramSameOutside s t a bs.length ∧ (s.caches = [] → t.playa = s.playa) ∧
      (p = true → t.bankPoison (a / 64 * 64) 32 = true ∧ t.bankPoison (a / 64 * 64 + 32) 32 = true) ∧
      vaultsSameBut s t (a / Config.vaultBytes) ∧
      t = { s with dram := t.dram, playa := t.playa, vaults := t.vaults, kvm := { s.kvm with cache := t.kvm.cache }, ctr := t.ctr
                   cmd := { s.cmd with nouns := t.cmd.nouns, chains := t.cmd.chains }
                   tainted := t.tainted, io := { s.io with answers := t.io.answers } } := by
  have hexec : exec (.hostMemWrite a bs p) s = .next ((s.closeEntries a bs.length).serveWrite a bs p) := by
    rw [← hostStore_of_free hready hheld hseq hlocked hbank hwaits]
    simp [exec, execHostMemWrite, Nat.not_le.mpr ha, List.take_of_length_le hlen]
  refine ⟨_, hexec, ?_⟩
  have hclosed := entriesClosed_closeEntries s a bs.length
  generalize s.closeEntries a bs.length = u at hclosed ⊢
  have hudram : u.dram = s.dram := by rw [hclosed.frame]
  have huio : u.io = s.io := by rw [hclosed.frame]
  have huapplied : u.applied = s.applied := by rw [hclosed.frame]
  have hucaches : u.caches = s.caches := by rw [hclosed.frame]
  have huplaya : u.playa = s.playa := by rw [hclosed.frame]
  have hserved := writeServed_serveWrite (s := u) (bs := bs) (p := p) ((hclosed.vaultRetired _).trans hretired)
    ((hclosed.sideDead _).trans hside) ((hclosed.seqGuarded a _).trans hseq) (by rw [quotaTable_congr huapplied]; exact hquota)
    (by rw [hclosed.frame]; exact hslots)
  generalize u.serveWrite a bs p = t at hserved ⊢
  have hdram := hserved.dram
  rw [hudram] at hdram
  have hcells : t.dram.cells = (s.dram.store a bs p).cells := by
    rw [hdram]
    split <;> rfl
  have hread : ∀ x, Cells.read t.dram.cells x = if a ≤ x ∧ x < a + bs.length then bs.getD (x - a) 0 else Cells.read s.dram.cells x :=
    fun x => by rw [hcells, Dram.store_read _ _ _ _ _ hchecks]
  have htchecks : t.dram.checks = [] := by
    rw [hdram]
    split <;> exact Dram.checks_store hchecks a bs p
  refine ⟨by rw [hserved.answer, huio], Cells.readRange_eq_of_read fun x h1 h2 => (hread x).trans (if_pos ⟨h1, h2⟩),
    fun x hx => (hread x).trans (if_neg (by omega)), fun hc => (hserved.playa (hucaches.trans hc)).trans huplaya,
    fun hp => ?_, fun q hq => (hserved.vaults q hq).trans (hclosed.others q hq), ?_⟩
  · have hpoison : t.dram.poison = Poison.set (s.dram.store a bs p).poison (a / 64 * 64) 64 true := by rw [hdram, if_pos hp]
    rw [State.bankPoison, State.bankPoison, htchecks, hpoison]
    exact ⟨Poison.any_set (by omega) (by omega) (a / 64 * 2) (by omega) (by omega),
      Poison.any_set (by omega) (by omega) (a / 64 * 2 + 1) (by omega) (by omega)⟩
  · rw [hserved.frame, hclosed.frame]

/-- Settles O33: reads by `readServed_serveRead`, writes by `writeServed_serveWrite`. -/
theorem hostAccessesDeviceMemory : Obligations.HostAccessesDeviceMemory := by
  unfold Obligations.HostAccessesDeviceMemory
  exact ⟨fun _ _ _ _ => early_write_is_discarded, fun _ _ => early_read_is_poisoned, fun _ _ => read_is_answered,
    fun _ _ => read_of_held_bank_waits, fun _ _ _ _ => write_is_stored, fun _ _ => held_read_joins_queue⟩

end Sys2Proof.Proofs
end

section
/-! PROOFS. What the work of a clause leaves alone (O16). Bytes stored in memory change the memories, the combining entries
and the perturbation slots alone. Beyond that a clause's failure and its completion keep to `clauseFrame`, and to the slices
where no vault cache holds a line. Each lemma follows the body of its function. -/

namespace Sys2Proof.Machine

/-! ### Storing bytes -/

/-- Only memories, combining entries and perturbation slots have changed, and no slice where no cache holds a line. -/
structure State.StoreOnly (s t : State) : Prop where
  frame : t = { s with dram := t.dram, playa := t.playa, host := t.host, vaults := t.vaults, dbg := t.dbg }
  playa : s.caches = [] → t.playa = s.playa

theorem State.StoreOnly.refl (s : State) : s.StoreOnly s := ⟨rfl, fun _ => rfl⟩

theorem State.StoreOnly.caches {s t : State} (h : s.StoreOnly t) : t.caches = s.caches := by rw [h.frame]

theorem State.StoreOnly.trans {s t u : State} (h : s.StoreOnly t) (g : t.StoreOnly u) : s.StoreOnly u where
  frame := g.frame.trans (by rw [h.frame])
  playa hc := (g.playa (h.caches.trans hc)).trans (h.playa hc)

theorem State.StoreOnly.ite {s t u : State} {c : Prop} {_ : Decidable c} (ht : s.StoreOnly t) (hu : s.StoreOnly u) :
    s.StoreOnly (if c then t else u) := by
  split <;> assumption

theorem State.StoreOnly.foldl {α : Type} {s : State} {f : State → α → State} (l : List α) (hf : ∀ (t : State) a, t.StoreOnly (f t a)) :
    s.StoreOnly (l.foldl f s) :=
  List.foldlRecOn l f (.refl s) fun t ht a _ => ht.trans (hf t a)

theorem State.storeOnly_perturbWrite (s : State) (a n : Nat) : s.StoreOnly (s.perturbWrite a n) :=
  .ite (.refl s) (.foldl _ fun t _ => .ite (.refl t) ⟨rfl, fun _ => rfl⟩)

theorem State.storeOnly_playaWrite {s : State} (h : s.caches ≠ []) (core off : Nat) (bs : List Byte) (poison : Bool) :
    s.StoreOnly (s.playaWrite core off bs poison) :=
  ⟨by rw [State.playaWrite_frame], fun hc => absurd hc h⟩

/-- The lines that a write updates lie in caches. -/
theorem State.storeOnly_updateLines (s : State) (a : Nat) (bs : List Byte) (poison : Bool) :
    s.StoreOnly (s.updateLines a bs poison) := by
  unfold State.updateLines
  split
  · exact .refl s
  · next h =>
    have hne : s.caches ≠ [] := by simpa using h
    refine List.foldlRecOn _ _ (.refl s) fun t ht p _ => ?_
    split
    · exact ht.trans (State.storeOnly_playaWrite (by rwa [ht.caches]) ..)
    · exact ht

theorem State.storeOnly_closeEntries (s : State) (a n : Nat) : s.StoreOnly (s.closeEntries a n) :=
  .ite (.refl s) ⟨rfl, fun _ => rfl⟩

theorem State.storeOnly_bankWrite (s : State) (a : Nat) (bs : List Byte) (poison : Bool) : s.StoreOnly (s.bankWrite a bs poison) :=
  .trans (t := { s with dram := s.dram.store a bs poison }) ⟨rfl, fun _ => rfl⟩ (State.storeOnly_perturbWrite ..)

theorem State.storeOnly_dpaWrite (s : State) (a : Nat) (bs : List Byte) (poison : Bool) : s.StoreOnly (s.dpaWrite a bs poison) :=
  .ite (.refl s) (((s.storeOnly_bankWrite a bs poison).trans (State.storeOnly_updateLines ..)).trans
    (State.storeOnly_closeEntries ..))

theorem State.storeOnly_writeTarget (s : State) (t : Option Target) (bs : List Byte) (full poison : Bool) :
    s.StoreOnly (s.writeTarget t bs full poison) := by
  unfold State.writeTarget
  split
  · have hflit (a : Nat) : s.StoreOnly (s.bankFlit a bs full poison) := ⟨rfl, fun _ => rfl⟩
    exact .ite (.refl s) ((((hflit _).trans (State.storeOnly_perturbWrite ..)).trans (State.storeOnly_updateLines ..)).trans
      (State.storeOnly_closeEntries ..))
  · exact ⟨rfl, fun _ => rfl⟩
  · exact .refl s

theorem State.storeOnly_writePieces (s : State) (place : Nat) (ps : List (Nat × Nat)) (ws : List WByte) :
    s.StoreOnly (s.writePieces place ps ws) := by
  induction ps generalizing s ws with
  | nil => exact .refl s
  | cons p r ih => exact .trans (.ite (.refl s) (State.storeOnly_writeTarget ..)) (ih ..)

theorem State.storeOnly_writeDva (s : State) (place dva : Nat) (ws : List WByte) : s.StoreOnly (s.writeDva place dva ws) :=
  State.storeOnly_writePieces ..

theorem State.storeOnly_storeTensor (s : State) (n : Noun) (es : List (Option Elem)) : s.StoreOnly (s.storeTensor n es) := by
  refine .ite (.refl s) (.ite ?_ (.ite ?_ (State.storeOnly_writeDva ..)))
  · exact (State.storeOnly_writeDva ..).trans (State.storeOnly_writeDva ..)
  · refine (State.storeOnly_writeDva ..).trans (.foldl _ fun t p => ?_)
    split
    · exact .ite (State.storeOnly_writeDva ..) (.refl t)
    · exact .refl t

/-! ### The frame of a clause -/

/-- What a clause's work, failure or completion leaves alone stands, and so do the slices where no cache holds a line. -/
structure State.ClauseKept (s t : State) : Prop where
  frame : clauseFrame s t
  playa : s.caches = [] → t.caches = [] ∧ t.playa = s.playa

theorem State.ClauseKept.refl (s : State) : s.ClauseKept s := ⟨rfl, fun h => ⟨h, rfl⟩⟩

theorem clauseFrame.trans {s t u : State} (h : clauseFrame s t) (g : clauseFrame t u) : clauseFrame s u :=
  Eq.trans g (by rw [h])

variable {s₀ s : State}

theorem State.ClauseKept.ite {t : State} {c : Prop} {_ : Decidable c} (hs : s₀.ClauseKept s) (ht : s₀.ClauseKept t) :
    s₀.ClauseKept (if c then s else t) := by
  split <;> assumption

theorem State.ClauseKept.foldl {α : Type} {f : State → α → State} {l : List α} (h : s₀.ClauseKept s)
    (hf : ∀ t a, s₀.ClauseKept t → s₀.ClauseKept (f t a)) : s₀.ClauseKept (l.foldl f s) :=
  List.foldlRecOn l f h fun t ht a _ => hf t a ht

theorem State.ClauseKept.stored {t : State} (h : s₀.ClauseKept s) (g : s.StoreOnly t) : s₀.ClauseKept t where
  frame := h.frame.trans (by rw [g.frame]; rfl)
  playa hc := ⟨g.caches.trans (h.playa hc).1, (g.playa (h.playa hc).1).trans (h.playa hc).2⟩

/-- A record update of what the frame leaves free. -/
theorem State.ClauseKept.update {freeIdx dram host ctr cmd rings tainted fields steps cores vaults engines kvm decodes routers
    slots reducing ports lnk colls pwr err dbg boot mgt cxl io} (h : s₀.ClauseKept s)
    (hpwr : pwr = { s.pwr with holdColls := pwr.holdColls } := by rfl)
    (herr : err = { s.err with tables := err.tables, summary := err.summary } := by rfl)
    (hboot : boot = { s.boot with events := boot.events } := by rfl)
    (hmgt : mgt = { s.mgt with awaiting := mgt.awaiting } := by rfl) :
    s₀.ClauseKept (.mk s.pending s.time freeIdx dram s.playa s.delays host ctr s.latchHi s.loHold s.staged s.applied s.glb
      s.epoch cmd rings tainted s.conj fields steps s.sync s.slow cores vaults s.caches s.tiers engines s.selfRef kvm decodes
      routers slots reducing ports lnk colls pwr s.doms s.thm err dbg boot s.bond mgt s.oas cxl io s.pins) where
  frame := by
    refine h.frame.trans ?_
    rw [clauseFrame, ← hpwr, ← herr, ← hboot, ← hmgt]
  playa := h.playa

theorem State.ClauseKept.setRing {r v} (h : s₀.ClauseKept s) : s₀.ClauseKept (s.setRing r v) := h.update
theorem State.ClauseKept.modRing {r f} (h : s₀.ClauseKept s) : s₀.ClauseKept (s.modRing r f) := h.setRing
theorem State.ClauseKept.modCore {n f} (h : s₀.ClauseKept s) : s₀.ClauseKept (s.modCore n f) := h.update
theorem State.ClauseKept.modVault {n f} (h : s₀.ClauseKept s) : s₀.ClauseKept (s.modVault n f) := h.update
theorem State.ClauseKept.modPort {p f} (h : s₀.ClauseKept s) : s₀.ClauseKept (s.modPort p f) := h.update
theorem State.ClauseKept.setField {f v} (h : s₀.ClauseKept s) : s₀.ClauseKept (s.setField f v) := h.update
theorem State.ClauseKept.setStep {o v} (h : s₀.ClauseKept s) : s₀.ClauseKept (s.setStep o v) := h.update
theorem State.ClauseKept.ctrAdd {off n} (h : s₀.ClauseKept s) : s₀.ClauseKept (s.ctrAdd off n) := h.update
theorem State.ClauseKept.event {a b c d e f g} (h : s₀.ClauseKept s) : s₀.ClauseKept (s.event a b c d e f g) := h.update
theorem State.ClauseKept.answer {a} (h : s₀.ClauseKept s) : s₀.ClauseKept (s.answer a) := h.update
theorem State.ClauseKept.hostWrite {a bs} (h : s₀.ClauseKept s) : s₀.ClauseKept (s.hostWrite a bs) := h.update
theorem State.ClauseKept.setCmd {c} (h : s₀.ClauseKept s) : s₀.ClauseKept { s with cmd := c } := h.update

theorem State.ClauseKept.storeTensor {n es} (h : s₀.ClauseKept s) : s₀.ClauseKept (s.storeTensor n es) :=
  h.stored (s.storeOnly_storeTensor n es)

/-! ### Frames that tell a group that its collective is over (R303) -/

theorem State.ClauseKept.transmit {p f} (h : s₀.ClauseKept s) : s₀.ClauseKept (s.transmit p f) := h.update
theorem State.ClauseKept.freePool {p f} (h : s₀.ClauseKept s) : s₀.ClauseKept (s.freePool p f) := .ite h.modPort h

theorem State.ClauseKept.pump {n p : Nat} {s : State} (h : s₀.ClauseKept s) : s₀.ClauseKept (State.pump n p s) := by
  induction n generalizing s with
  | zero => exact h
  | succ n ih =>
    unfold State.pump
    split
    · exact ih h.modPort.transmit.freePool
    · exact h

theorem State.ClauseKept.emit {f} (h : s₀.ClauseKept s) : s₀.ClauseKept (s.emit f) := .ite h.update (by
  split
  · exact h.modPort.pump
  · exact h.ctrAdd.event)

theorem State.ClauseKept.tellGroup {c type except} (h : s₀.ClauseKept s) : s₀.ClauseKept (s.tellGroup c type except) :=
  .foldl h fun _ _ ht => ht.update.emit

theorem State.ClauseKept.abortColl {r index} (h : s₀.ClauseKept s) : s₀.ClauseKept (s.abortColl r index) :=
  .foldl h fun _ _ ht => ht.tellGroup.update

/-! ### Records, and rings that close or become idle -/

theorem State.ClauseKept.writeRecord {r slot tag f irq} (h : s₀.ClauseKept s) :
    s₀.ClauseKept (s.writeRecord r slot tag f irq) := by
  rw [State.writeRecord_eq]
  exact (h.hostWrite.setRing (r := r)).update

theorem State.ClauseKept.openAdmin (h : s₀.ClauseKept s) : s₀.ClauseKept s.openAdmin :=
  .ite h.update.event h.update

theorem State.ClauseKept.flushPosted {r} (h : s₀.ClauseKept s) : s₀.ClauseKept (s.flushPosted r) := by
  unfold State.flushPosted
  exact .modRing (.foldl (.foldl h.hostWrite fun _ _ ht => ht.writeRecord) fun _ _ ht => ht.writeRecord)

theorem State.ClauseKept.fencesDone {t} (h : s₀.ClauseKept s) : s₀.ClauseKept (s.fencesDone t) := h.modRing

theorem State.ClauseKept.ringClosed {r} (h : s₀.ClauseKept s) : s₀.ClauseKept (s.ringClosed r) := by
  unfold State.ringClosed State.leaveLine
  exact .ite h.flushPosted.setRing h.flushPosted.setRing.setCmd

theorem State.ClauseKept.closeNow {r} (h : s₀.ClauseKept s) : s₀.ClauseKept (s.closeNow r) := by
  rw [State.closeNow_eq, State.afterClose]
  exact .ite (.ite h.ringClosed.setCmd.openAdmin h.ringClosed.setCmd) h.ringClosed.fencesDone

theorem State.ClauseKept.stopUnfetched {r f} (h : s₀.ClauseKept s) : s₀.ClauseKept (s.stopUnfetched r f) := by
  unfold State.stopUnfetched
  exact .modRing (.ite h.writeRecord.setCmd h.writeRecord)

theorem State.ClauseKept.seeProducer {r v} (h : s₀.ClauseKept s) : s₀.ClauseKept (s.seeProducer r v) :=
  .ite h.setRing (.ite h.setRing h.setRing.stopUnfetched)

theorem State.ClauseKept.tryClose {r} (h : s₀.ClauseKept s) : s₀.ClauseKept (s.tryClose r) :=
  .ite h.closeNow (.ite (.fencesDone (.ite h.setRing.seeProducer.modRing h.setRing.seeProducer)) h)

/-! ### Shares, and elements counted for a clause that fails -/

theorem State.ClauseKept.sendNext {core paren} (h : s₀.ClauseKept s) : s₀.ClauseKept (s.sendNext core paren) := by
  unfold State.sendNext
  split
  · exact .ite h.modCore.modRing h.modRing
  · exact h

theorem State.ClauseKept.raiseNf {r} (h : s₀.ClauseKept s) : s₀.ClauseKept (s.raiseNf r) := by
  unfold State.raiseNf
  split
  · split
    · exact h.setStep
    · exact h
  · exact h

theorem State.ClauseKept.countFailed {r c} (h : s₀.ClauseKept s) : s₀.ClauseKept (s.countFailed r c) := by
  unfold State.countFailed
  extract_lets s1
  have h1 : s₀.ClauseKept s1 := by
    unfold s1
    split
    · exact h.ctrAdd.ctrAdd
    · exact h
  exact .ite h1 h1.raiseNf

/-! ### Deferred host writes, served when a clause's lock falls (R200, R201) -/

theorem State.ClauseKept.checkQuotas {loud} (h : s₀.ClauseKept s) : s₀.ClauseKept (s.checkQuotas loud) :=
  .foldl h fun _ _ ht => by
    split
    · exact .ite ht (.ite ht.setField.event ht.setField)
    · exact ht

theorem State.storeOnly_poisonLine (s : State) (a : Nat) : s.StoreOnly (s.poisonLine a) := by
  unfold State.poisonLine
  extract_lets d t
  split
  · next c hc =>
    refine ⟨rfl, fun h => ?_⟩
    have hnone : t.cachedAt a = none := by simp [State.cachedAt, t, h]
    exact absurd (hc.symm.trans hnone) (by simp)
  · exact ⟨rfl, fun _ => rfl⟩

theorem State.ClauseKept.serveWrite {dpa bs poison} (h : s₀.ClauseKept s) : s₀.ClauseKept (s.serveWrite dpa bs poison) := by
  unfold State.serveWrite
  extract_lets n a dead s1 s2 s4 s5
  have h1 : s₀.ClauseKept s1 := .stored (s := s.taint dpa bs.length) h.update (State.storeOnly_dpaWrite ..)
  have h2 : s₀.ClauseKept s2 := .ite (h1.stored (State.storeOnly_poisonLine ..)) h1
  have h4 : s₀.ClauseKept s4 := h2.update
  have h5 : s₀.ClauseKept s5 := h4.ctrAdd.answer
  exact .ite (.answer (.ite h.ctrAdd h)) (.ite h.ctrAdd.event.answer (.ite h5.checkQuotas h5))

/-- Only writes are deferred requests that an unlocked region lets through: no read of one fills a cache. -/
theorem State.ClauseKept.drainDeferred {n} (h : s₀.ClauseKept s) : s₀.ClauseKept (s.drainDeferred n) := by
  unfold State.drainDeferred
  extract_lets free go s1
  have h1 : s₀.ClauseKept s1 := h.modVault
  refine List.foldlRecOn _ _ h1 fun t ht w hw => .ite ht.modVault ?_
  have hfree := (List.mem_filter.mp hw).2
  cases w with
  | write a bs p q => exact ht.serveWrite
  | read a p => exact absurd hfree Bool.false_ne_true
  | rawWrite a k => exact absurd hfree Bool.false_ne_true
  | rawRead a => exact absurd hfree Bool.false_ne_true

theorem State.ClauseKept.drainAllDeferred (h : s₀.ClauseKept s) : s₀.ClauseKept s.drainAllDeferred :=
  .foldl h fun _ _ ht => ht.drainDeferred

/-! ### Failing, and settling (R78, R111) -/

theorem State.ClauseKept.releaseWork {r index} (h : s₀.ClauseKept s) : s₀.ClauseKept (s.releaseWork r index) := h.update
theorem State.ClauseKept.poisonEvent {r c f} (h : s₀.ClauseKept s) : s₀.ClauseKept (s.poisonEvent r c f) := .ite h.event h

theorem State.ClauseKept.undefineBytes {place dva n} (h : s₀.ClauseKept s) : s₀.ClauseKept (s.undefineBytes place dva n) :=
  (h.stored (State.storeOnly_writeDva ..)).update

theorem State.ClauseKept.undefineOutputs {c} (h : s₀.ClauseKept s) : s₀.ClauseKept (s.undefineOutputs c) :=
  .ite h (.foldl h fun _ _ ht => .ite (.ite ht.undefineBytes.undefineBytes ht.undefineBytes) ht)

theorem State.ClauseKept.failClause {r index f} (h : s₀.ClauseKept s) : s₀.ClauseKept (s.failClause r index f) := by
  unfold State.failClause
  extract_lets -underBinder ring
  split
  · exact h
  · extract_lets -underBinder sA back s0 s1 s2 cmd s3 s4 s5
    have hA : s₀.ClauseKept sA := .ite h.abortColl h
    clear_value sA
    have h0 : s₀.ClauseKept s0 := .poisonEvent (.drainAllDeferred (.releaseWork (.foldl hA.countFailed fun _ _ ht =>
      ht.releaseWork)))
    clear_value s0
    have h1 : s₀.ClauseKept s1 := .ite h0.undefineOutputs h0
    have h2 : s₀.ClauseKept s2 := h1.writeRecord
    clear_value s2
    have h3 : s₀.ClauseKept s3 := .ite h2.setCmd h2
    clear_value s3
    have h5 : s₀.ClauseKept s5 := (h3.modRing (r := r)).update
    exact .tryClose (.foldl h5 fun _ _ ht => ht.sendNext)

theorem State.ClauseKept.settleClause {r index} (h : s₀.ClauseKept s) : s₀.ClauseKept (s.settleClause r index) := by
  unfold State.settleClause
  split
  · refine .ite ?_ h
    split
    · exact h.failClause
    · exact h.modRing
  · exact h

theorem State.ClauseKept.workDone {r index f} (h : s₀.ClauseKept s) : s₀.ClauseKept (s.workDone r index f) :=
  h.modRing.settleClause

end Sys2Proof.Machine
end

section
/-! PROOFS. O16: the verbs of the cores run to their end. Each stores what it writes and then has its work done, and a clause
whose work is done either keeps it behind it or fails and is posted again or gone. -/

open Sys2Proof Sys2Proof.Machine

namespace Sys2Proof.Proofs

/-! ### Clauses whose work has ended -/

/-- Every clause of an index in the ring has its work behind it or is posted. -/
def RingSt.Ended (index : Nat) (x : RingSt) : Prop := ∀ c ∈ x.clauses, c.index = index → c.worked = true ∨ c.phase = .posted

theorem RingSt.Ended.workEnded {t : State} {r index : Nat} (h : RingSt.Ended index (t.ring r)) : workEnded t r index := by
  unfold Sys2Proof.Machine.workEnded
  cases hc : (t.ring r).clauseOf index with
  | none => rfl
  | some c =>
    have hi : c.index = index := by simpa using List.find?_some hc
    simpa using h c (List.mem_of_find?_eq_some hc) hi

theorem RingSt.ended_of_clauses {index : Nat} {x y : RingSt} (h : y.clauses = x.clauses) (hx : RingSt.Ended index x) :
    RingSt.Ended index y := by
  rw [RingSt.Ended, h]
  exact hx

theorem RingSt.ended_of_nil {index : Nat} {x : RingSt} (h : x.clauses = []) : RingSt.Ended index x := fun c hc => by
  rw [h] at hc
  exact absurd hc (by simp)

/-- A change of each clause that ends the clauses of the index, or takes their index away. -/
theorem RingSt.ended_map {index : Nat} {x : RingSt} {g : ClauseSt → ClauseSt}
    (h : ∀ c ∈ x.clauses, (g c).index = index → (g c).worked = true ∨ (g c).phase = .posted) :
    RingSt.Ended index { x with clauses := x.clauses.map g } := fun c hc => by
  obtain ⟨d, hd, rfl⟩ := List.mem_map.mp hc
  exact h d hd

theorem RingSt.ended_fencesDone {s : State} {r index : Nat} (t : Nat) (h : RingSt.Ended index (s.ring r)) :
    RingSt.Ended index ((s.fencesDone t).ring r) := by
  by_cases hr : r = 0
  · subst r
    rw [ring_fencesDone_zero]
    refine RingSt.ended_map fun c hc hi => ?_
    unfold doneFor at hi ⊢
    split at hi
    · next ht => exact .inl (by rw [if_pos ht])
    · next ht =>
      rw [if_neg ht]
      exact h c hc hi
  · rwa [ring_fencesDone _ _ hr]

theorem clauses_openAdmin {s : State} (h : (s.ring 0).clauses = []) : (s.openAdmin.ring 0).clauses = [] := by
  unfold State.openAdmin
  extract_lets e
  split
  · exact h
  · rw [State.ring_openRing_self]
    rfl

theorem clauses_afterClose {t : State} {r : Nat} (h : (t.ring r).clauses = []) : ((t.afterClose r).ring r).clauses = [] := by
  by_cases hr : r = 0
  · subst hr
    rw [State.afterClose, if_pos rfl]
    extract_lets c
    have hc : (State.ring { t with cmd := c } 0).clauses = [] := h
    split
    · exact clauses_openAdmin hc
    · exact hc
  · rwa [State.afterClose, if_neg hr, ring_fencesDone _ _ hr]

/-- A ring that has closed holds no clause, and neither does ring 0 when it has opened again. -/
theorem clauses_closeNow (s : State) (r : Nat) : ((s.closeNow r).ring r).clauses = [] := by
  rw [State.closeNow_eq]
  exact clauses_afterClose (by rw [State.ring_ringClosed_self]; rfl)

theorem RingSt.ended_tryClose {s : State} {r index : Nat} (h : RingSt.Ended index (s.ring r)) :
    RingSt.Ended index ((s.tryClose r).ring r) := by
  unfold State.tryClose
  split
  · exact RingSt.ended_of_nil (clauses_closeNow s r)
  · unfold State.tryIdle
    dsimp only
    split
    · exact RingSt.ended_fencesDone r (RingSt.ended_of_clauses (idledFrom_idleSeen s r).clauses h)
    · exact h

/-- No clause of an index in the ring has issued. -/
def RingSt.AllPosted (index : Nat) (x : RingSt) : Prop := ∀ p ∈ x.clauses.map indexPhase, p.1 = index → p.2 = .posted

theorem RingSt.AllPosted.ended {index : Nat} {x : RingSt} (h : RingSt.AllPosted index x) : RingSt.Ended index x :=
  fun c hc hi => .inr (h (indexPhase c) (List.mem_map_of_mem hc) hi)

theorem RingSt.allPosted_dropClause (index : Nat) (x : RingSt) : RingSt.AllPosted index (x.dropClause index) := fun p hp hi => by
  obtain ⟨c, hc, rfl⟩ := List.mem_map.mp hp
  exact absurd hi ((mem_dropClause x index c).mp hc).2

theorem RingSt.allPosted_stoppedAt (index : Nat) (x : RingSt) : RingSt.AllPosted index (RingSt.stoppedAt x index) := fun p hp hi => by
  rw [RingSt.stoppedAt_eq] at hp
  obtain ⟨c, hc, rfl⟩ := List.mem_map.mp hp
  obtain ⟨d, -, rfl⟩ := List.mem_map.mp hc
  by_cases hd : d.index = index ∨ d.returns index
  · rw [if_pos hd]
    rfl
  · rw [if_neg hd] at hi
    exact absurd (.inl hi) hd

/-- A clause that fails is posted again, or gone from a ring that was stopped (R78). -/
theorem RingSt.ended_failClause (s : State) (r index : Nat) (f : Failure) :
    RingSt.Ended index ((s.failClause r index f).ring r) := by
  unfold State.failClause
  extract_lets -underBinder ring
  split
  case _ h => exact fun c hc hi => absurd hi (by simpa using List.find?_eq_none.mp h c hc)
  case _ c h =>
    extract_lets -underBinder sA back s0 s1 s2 cmd s3 s4 s5
    have h4 : RingSt.AllPosted index (s4.ring r) := by
      rw [State.ring_modRing_self]
      split
      · exact RingSt.allPosted_dropClause _ _
      · exact RingSt.allPosted_stoppedAt _ _
    have h5 : s5.rings = s4.rings := rfl
    clear_value s5
    have hmoved := sharesMoved_sendNexts s5 (c.shares ++ back.flatMap (fun x => x.shares)) ring.ctx.paren
    refine RingSt.ended_tryClose (RingSt.AllPosted.ended ?_)
    rw [RingSt.AllPosted, hmoved.phases, State.ring, h5, ← State.ring]
    exact h4

/-- Every clause of an index in the ring has its work behind it. -/
def RingSt.AllWorked (index : Nat) (x : RingSt) : Prop := ∀ c ∈ x.clauses, c.index = index → c.worked = true

theorem RingSt.AllWorked.ended {index : Nat} {x : RingSt} (h : RingSt.AllWorked index x) : RingSt.Ended index x :=
  fun c hc hi => .inl (h c hc hi)

/-- A clause that is changed keeps its work behind it where the change keeps index and work. -/
theorem RingSt.AllWorked.modClause {index : Nat} {x : RingSt} (h : RingSt.AllWorked index x) (i : Nat) {f : ClauseSt → ClauseSt}
    (hf : ∀ c, (f c).index = c.index ∧ (f c).worked = c.worked) :
    RingSt.AllWorked index (x.modClause i f) := fun c hc hi => by
  obtain ⟨d, hd, rfl⟩ := List.mem_map.mp hc
  split at hi
  · next hd' =>
    rw [if_pos hd', (hf d).2]
    exact h d hd ((hf d).1.symm.trans hi)
  · next hd' =>
    rw [if_neg hd']
    exact h d hd hi

/-- A clause that settles is done with its work behind it, or fails. -/
theorem RingSt.ended_settleClause {s : State} {r index : Nat} (h : RingSt.AllWorked index (s.ring r)) :
    RingSt.Ended index ((s.settleClause r index).ring r) := by
  unfold State.settleClause
  split
  · split
    · split
      · exact RingSt.ended_failClause _ _ _ _
      · rw [State.ring_modRing_self]
        refine (h.modClause index ?_).ended
        exact fun _ => ⟨rfl, rfl⟩
    · exact h.ended
  · exact h.ended

theorem workEnded_workDone (s : State) (r index : Nat) (f : ClauseSt → ClauseSt) : workEnded (s.workDone r index f) r index := by
  refine RingSt.Ended.workEnded (RingSt.ended_settleClause ?_)
  rw [State.ring_modRing_self]
  intro c hc hi
  obtain ⟨d, -, rfl⟩ := List.mem_map.mp hc
  split at hi
  · next h => rw [if_pos h]
  · next h => exact absurd hi h

/-! ### A clause whose work leaves no failure -/

/-- Without a verdict only the clause itself changes: it settles, or waits for its shares. -/
theorem workDone_of_no_verdict {s : State} {r index : Nat} {c : ClauseSt} {f : ClauseSt → ClauseSt}
    (hc : (s.ring r).clauseOf index = some c) (hindex : ∀ x, (f x).index = x.index) (hverdict : c.verdict = none)
    (hf : (f c).verdict = none) : s.workDone r index f = { s with rings := (s.workDone r index f).rings } := by
  unfold State.workDone
  generalize hg : (fun c : ClauseSt => ({ f c with worked := true, begun := true, verdict := _ } : ClauseSt)) = g
  have hgc : (g c).verdict = none := by rw [← hg, ← hf]; simp [hverdict]
  have hclause : ((s.modRing r (fun R => R.modClause index g)).ring r).clauseOf index = some (g c) := by
    rw [State.ring_modRing_self]
    exact clauseOf_modClause g (fun x => by rw [← hg]; exact hindex x) hc
  unfold State.settleClause
  rw [hclause]
  dsimp only
  rw [hgc]
  split <;> rfl

/-! ### The verbs -/

/-- A started clause is the clause of its index. -/
theorem clauseOf_of_startedClause {s : State} {r k verb : Nat} {c : ClauseSt} (h : s.startedClause r k verb = some c) :
    (s.ring r).clauseOf c.index = some c := by
  unfold State.startedClause at h
  split at h
  · next d hd =>
    split at h
    · obtain rfl : d = c := Option.some.inj h
      exact clauseOf_of_clauseAt hd
    · exact absurd h (by simp)
  · exact absurd h (by simp)

/-- What a verb that ends leaves behind: nothing outside the clause's reach, no slice where no cache holds a line, and the
clause with its work ended. -/
structure VerbEnds (s t : State) (r index : Nat) : Prop where
  frame : clauseFrame s t
  playa : s.caches = [] → t.playa = s.playa
  ended : workEnded t r index

theorem verbEnds_workDone {s t : State} (h : s.ClauseKept t) (r index : Nat) (f : ClauseSt → ClauseSt) :
    VerbEnds s (t.workDone r index f) r index where
  frame := h.workDone.frame
  playa hc := (h.workDone.playa hc).2
  ended := workEnded_workDone t r index f

theorem verbEnds_matrixProduct (s : State) (r : Nat) (c : ClauseSt) (un : List Nat) (h : mxOutRbuf c.bits = false) :
    VerbEnds s (s.matrixProduct r c un) r c.index := by
  unfold State.matrixProduct
  extract_lets
  rw [if_neg (by simp [h])]
  exact verbEnds_workDone (State.ClauseKept.refl s).storeTensor _ _ _

/-- A sweep stores outputs alone (R133). -/
theorem clauseKept_sweep {s : State} {x : ChainRun} (h : s.ClauseKept x.st) (c : ClauseSt) (k : Nat) :
    s.ClauseKept (ChainRun.sweep c x k).st := by
  unfold ChainRun.sweep
  refine List.foldlRecOn (motive := fun t : ChainRun => s.ClauseKept t.st) _ _ h.update fun t ht i _ => ?_
  dsimp only
  split
  · exact ht.storeTensor
  · exact ht

theorem verbEnds_runChain (s : State) (r : Nat) (c : ClauseSt) : VerbEnds s (s.runChain r c) r c.index := by
  unfold State.runChain
  refine verbEnds_workDone ?_ _ _ _
  exact List.foldlRecOn (motive := fun t : ChainRun => s.ClauseKept t.st) _ _ (.refl s) fun _ ht k _ => clauseKept_sweep ht c k

theorem verbEnds_attnForward (s : State) (r : Nat) (c : ClauseSt) : VerbEnds s (s.attnForward r c) r c.index := by
  have hs := State.ClauseKept.refl s
  exact verbEnds_workDone (.ite hs.storeTensor.storeTensor hs.storeTensor) _ _ _

theorem verbEnds_attnBackward (s : State) (r : Nat) (c : ClauseSt) : VerbEnds s (s.attnBackward r c) r c.index :=
  verbEnds_workDone (State.ClauseKept.refl s).storeTensor _ _ _

/-- A copy without a verdict leaves the memories as its store does, and answers nothing (R367, R368). -/
theorem copy_stores {r k : Nat} {h : HostView} {c : ClauseSt} {s : State} (hc : s.startedClause r k verbCopy = some c)
    (hloaded : s.stageLoaded r = false) (hverdict : c.verdict = none) :
    ∃ t : State, exec (.copy r k h) s = .next t ∧ clauseFrame (s.seeHost h) t ∧ workEnded t r c.index ∧
      t.dram = ((s.seeHost h).storeTensor (c.noun 1) (((s.seeHost h).loadTensor (c.noun 0)).map some)).dram ∧
      t.host = ((s.seeHost h).storeTensor (c.noun 1) (((s.seeHost h).loadTensor (c.noun 0)).map some)).host ∧
      (s.caches = [] → t.playa = s.playa) ∧ t.io = s.io := by
  have hclause := clauseOf_of_startedClause hc
  have hexec : exec (.copy r k h) s = .next
      (((s.seeHost h).storeTensor (c.noun 1) (((s.seeHost h).loadTensor (c.noun 0)).map some)).workDone r c.index
        (fun x => { x with passes := some 0 })) := by
    rw [exec, execCopy, hc]
    simp [hloaded]
  have hstored := State.storeOnly_storeTensor (s.seeHost h) (c.noun 1) (((s.seeHost h).loadTensor (c.noun 0)).map some)
  generalize State.storeTensor _ (c.noun 1) _ = u at hexec hstored ⊢
  have hring : u.ring r = s.ring r := by rw [hstored.frame]; rfl
  have hends := verbEnds_workDone ((State.ClauseKept.refl _).stored hstored) r c.index (fun x => { x with passes := some 0 })
  have hrings := workDone_of_no_verdict (f := fun x => { x with passes := some 0 }) (hring ▸ hclause) (fun _ => rfl) hverdict hverdict
  refine ⟨_, hexec, hends.frame, hends.ended, ?_, ?_, hends.playa, ?_⟩
  · rw [hrings]
  · rw [hrings]
  · rw [hrings, hstored.frame]
    rfl

/-- Settles O16: each verb ends in `workDone` after stores alone, so that `verbEnds_workDone` gives its frame and its end. -/
theorem coreVerbsRun : Obligations.CoreVerbsRun := by
  unfold Obligations.CoreVerbsRun
  refine ⟨fun r k h un c s hc hloaded hmem => ?_, fun r k h c s hc hloaded => ?_, fun r k h c s hc hloaded => ?_,
    fun r k h c s hc hloaded => ?_, fun r k h c s => copy_stores, fun r k h c s hc hloaded => ?_⟩
  · obtain ⟨hframe, hplaya, hended⟩ := verbEnds_matrixProduct (s.seeHost h) r c un hmem
    refine ⟨_, ?_, rfl, hframe, hplaya, hended⟩
    rw [exec, execMatrixProduct, hc]
    simp [hloaded, hmem]
  · obtain ⟨hframe, hplaya, hended⟩ := verbEnds_runChain (s.seeHost h) r c
    refine ⟨_, ?_, rfl, hframe, hplaya, hended⟩
    rw [exec, execElementWiseChain, hc]
    simp [hloaded]
  · obtain ⟨hframe, hplaya, hended⟩ := verbEnds_attnForward (s.seeHost h) r c
    refine ⟨_, ?_, rfl, hframe, hplaya, hended⟩
    rw [exec, execAttentionForward, hc]
    simp [hloaded]
  · obtain ⟨hframe, hplaya, hended⟩ := verbEnds_attnBackward (s.seeHost h) r c
    refine ⟨_, ?_, rfl, hframe, hplaya, hended⟩
    rw [exec, execAttentionBackward, hc]
    simp [hloaded]
  · refine ⟨_, ?_, rfl, workEnded_workDone _ _ _ _⟩
    rw [exec, execCopy, hc]
    simp [hloaded]

end Sys2Proof.Proofs
end

section
/-! PROOFS. O35: registers and raw accesses. A write of one register reaches it through `writable64` or `put32`; the latch of a
counter's high half is seen by `regWord` alone; a raw access that nothing holds back is served at once, word by word. -/

open Sys2Proof Sys2Proof.Machine

namespace Sys2Proof.Proofs

/-! ### Discarded accesses and latched halves (R114, R539, R540) -/

theorem unaligned_write_is_discarded {o n : Nat} {v : Word64} {s : State} (hup : s.glb.vectorsUp = true)
    (h32 : ¬(n = 32 ∧ o % 4 = 0)) (h64 : ¬(n = 64 ∧ o % 8 = 0)) :
    ∃ t : State, exec (.registerWrite o n v) s = .next t ∧ t = { s with ctr := t.ctr } ∧
      t.ctrGet 0x28 = s.ctrGet 0x28 + 1 ∧ countersSameBut s t 0x28 := by
  refine ⟨s.ctrAdd 0x28 1, ?_, rfl, ?_, fun q hq => ?_⟩
  · simp [exec, execRegisterWrite, hup, h32, h64]
  · rw [State.ctrGet_ctrAdd, if_pos rfl]
    rfl
  · rw [State.ctrGet_ctrAdd, if_neg hq]

/-- `delta` and not the equation of `translate`: under that, the kernel would evaluate the page's entry. -/
theorem translate_latch (s : State) (l : Tbl (Option Word32)) : State.translate { s with latchHi := l } = s.translate := by
  have hentry : State.pageEntry { s with latchHi := l } = s.pageEntry := rfl
  have hresolve : State.resolve { s with latchHi := l } = s.resolve := rfl
  delta State.translate
  rw [hentry, hresolve]

theorem freePages_latch (s : State) (l : Tbl (Option Word32)) : State.freePages { s with latchHi := l } = s.freePages := by
  have hcolumn : State.frameColumn { s with latchHi := l } = s.frameColumn := by
    have hdva : State.poolDva { s with latchHi := l } = s.poolDva := rfl
    delta State.frameColumn
    rw [translate_latch, hdva]
  have hframes : State.poolFrames { s with latchHi := l } = s.poolFrames := by
    rw [State.poolFrames, hcolumn, State.poolFrames]
  have hpages : State.poolPages { s with latchHi := l } = s.poolPages := by
    rw [State.poolPages, hframes, State.poolPages]
  have htaken : State.pagesTaken { s with latchHi := l } = s.pagesTaken := rfl
  rw [State.freePages, hpages, htaken, State.freePages]

theorem kvm64_latch (s : State) (l : Tbl (Option Word32)) (o : Nat) : State.kvm64 { s with latchHi := l } o = s.kvm64 o := by
  unfold State.kvm64
  rw [freePages_latch]

theorem reg64_latch (s : State) (l : Tbl (Option Word32)) (o : Nat) : State.reg64 { s with latchHi := l } o = s.reg64 o := by
  unfold State.reg64
  dsimp only
  rw [kvm64_latch]
  split <;> rfl

theorem reg32_latch (s : State) (l : Tbl (Option Word32)) (o : Nat) : State.reg32 { s with latchHi := l } o = s.reg32 o := by
  have hview : State.unitView { s with latchHi := l } = { s.unitView with latchHi := l } := by
    unfold State.unitView
    dsimp only
    split <;> rfl
  unfold State.reg32
  rw [hview]
  generalize s.unitView = u
  dsimp only
  split <;> rfl

/-- What stands at an offset does not depend on the latches. -/
theorem liveWord_latch (s : State) (l : Tbl (Option Word32)) (o : Nat) : State.liveWord { s with latchHi := l } o = s.liveWord o := by
  simp only [State.liveWord, reg64_latch, reg32_latch]

theorem low_read_latches {o : Nat} {s : State} (ho : o % 8 = 0) (hwide : s.wideAt o = true) :
    ∃ t : State, exec (.counterLowRead o) s = .next t ∧ t = { s with latchHi := t.latchHi } ∧
      t.regWord (o + 4) = s.liveWord (o + 4) % 2 ^ 32 ∧
      (∀ k, k ≠ o → Tbl.get none t.latchHi k = Tbl.get none s.latchHi k) := by
  refine ⟨{ s with latchHi := Tbl.put none s.latchHi o (some (BitVec.ofNat 32 (s.liveWord (o + 4)))) }, ?_, rfl, ?_,
    fun k hk => ?_⟩
  · have h4 : o % 4 = 0 := by omega
    simp [exec, execCounterLowRead, h4, ho, hwide]
  · have h8 : (o + 4) % 8 = 4 := by omega
    simp [State.regWord, h8]
  · dsimp only
    exact Tbl.get_put_ne _ _ _ hk

theorem high_read_uses_latch {o : Nat} {s : State} (ho : o % 8 = 4) :
    ∃ t : State, exec (.counterLowRead o) s = .next t ∧ t = { s with latchHi := t.latchHi } ∧
      t.regWord o = s.liveWord o ∧ (∀ k, k ≠ o - 4 → Tbl.get none t.latchHi k = Tbl.get none s.latchHi k) := by
  refine ⟨{ s with latchHi := Tbl.put none s.latchHi (o - 4) none }, ?_, rfl, ?_, fun k hk => ?_⟩
  · have h4 : o % 4 = 0 := by omega
    simp [exec, execCounterLowRead, h4, ho]
  · simp [State.regWord, ho, liveWord_latch]
  · dsimp only
    exact Tbl.get_put_ne _ _ _ hk

theorem unaligned_read_is_counted {o : Nat} {s : State} (ho : o % 4 ≠ 0) :
    exec (.counterLowRead o) s = .next (s.ctrAdd 0x28 1) := by
  simp [exec, execCounterLowRead, ho]

/-! ### Registers that take a value (R465, R541, R547) -/

theorem exec_registerWrite_64 {o : Nat} {v : Word64} {s : State} (hup : s.glb.vectorsUp = true) (ho : o % 8 = 0) :
    exec (.registerWrite o 64 v) s = s.writeDword o v.toNat := by
  simp [exec, execRegisterWrite, hup, ho]

theorem exec_registerWrite_32 {o : Nat} {v : Word64} {s : State} (hup : s.glb.vectorsUp = true) (ho : o % 4 = 0) :
    exec (.registerWrite o 32 v) s = s.writeWord o (v.toNat % 2 ^ 32) := by
  simp [exec, execRegisterWrite, hup, ho]

theorem writable64_rctBase (s : State) : s.writable64 0x100000 = some (s.staged.rctBase.toNat * 2 ^ 12) := rfl

/-- A register of 32 bits takes a write of 32 bits by itself. -/
theorem writeWord_of_narrow {s : State} {o : Nat} (h : s.writable64 (o / 8 * 8) = none) (v : Nat) : s.writeWord o v = s.put32 o v := by
  rw [State.writeWord, h]

theorem rctBase_takes_64 {v : Word64} {s : State} (hup : s.glb.vectorsUp = true) :
    ∃ t : State, exec (.registerWrite 0x100000 64 v) s = .next t ∧
      t.staged = { s.staged with rctBase := BitVec.ofNat 52 (v.toNat / 2 ^ 12) } ∧ t.applied = s.applied ∧ t.cmd = s.cmd ∧
      t = { s with staged := t.staged, loHold := t.loHold } := by
  refine ⟨({ s with loHold := Tbl.drop s.loHold 0x100000 } : State).put64 0x100000 v.toNat, ?_, rfl, rfl, rfl, rfl⟩
  rw [exec_registerWrite_64 hup (by decide), State.writeDword, writable64_rctBase]
  rfl

theorem rctBase_takes_low_half {v : Word64} {s : State} (hup : s.glb.vectorsUp = true) :
    ∃ t : State, exec (.registerWrite 0x100000 32 v) s = .next t ∧
      t.staged = { s.staged with
        rctBase := BitVec.ofNat 52 ((s.staged.rctBase.toNat * 2 ^ 12 / 2 ^ 32 * 2 ^ 32 + v.toNat % 2 ^ 32) / 2 ^ 12) } ∧
      t = { s with staged := t.staged } := by
  refine ⟨s.put64 0x100000 (s.staged.rctBase.toNat * 2 ^ 12 / 2 ^ 32 * 2 ^ 32 + v.toNat % 2 ^ 32), ?_, rfl, rfl⟩
  rw [exec_registerWrite_32 hup (by decide), State.writeWord, writable64_rctBase]
  rfl

theorem holdoff_takes_write {v : Word64} {s : State} (hup : s.glb.vectorsUp = true) :
    exec (.registerWrite 0x100020 32 v) s
      = .next { s with cmd := { s.cmd with holdoff := BitVec.ofNat 16 (v.toNat % 2 ^ 32) } } := by
  rw [exec_registerWrite_32 hup (by decide), writeWord_of_narrow rfl]
  rfl

theorem powerLimit_takes_write {v : Word64} {s : State} (hup : s.glb.vectorsUp = true) :
    exec (.registerWrite 0xF00008 32 v) s
      = .next { s with pwr := { s.pwr with limit := BitVec.ofNat 16 (v.toNat % 2 ^ 32) } } := by
  rw [exec_registerWrite_32 hup (by decide), writeWord_of_narrow rfl]
  rfl

/-! ### Raw accesses (R465) -/

/-- A raw access that nothing holds back is served at once. -/
theorem rawAccess_of_free {w : Waiting} {s : State} (hen : s.err.chkEn = true) (hbusy : s.err.chkBusy = false)
    (hdpa : w.dpa < Config.dramBytes) (hheld : s.hostHeld = false) (hbank : s.bankHeld w.dpa = false)
    (hwaits : s.burstWaits w.dpa = false) (hlocked : s.dpaLocked w.dpa = false) :
    s.rawAccess w = .next (State.serveRaw { s with err := { s.err with chkBusy := true } } w) := by
  have hheld' : State.hostHeld { s with err := { s.err with chkBusy := true } } = false := hheld
  have hbank' : State.bankHeld { s with err := { s.err with chkBusy := true } } w.dpa = false := hbank
  have hwaits' : State.burstWaits { s with err := { s.err with chkBusy := true } } w.dpa = false := hwaits
  have hlocked' : State.dpaLocked { s with err := { s.err with chkBusy := true } } w.dpa = false := hlocked
  rw [State.rawAccess, if_neg (by simp [hen, hbusy]), if_neg (Nat.not_le.mpr hdpa)]
  dsimp only
  rw [hheld', hbank', hwaits', hlocked']
  rfl

/-- The checker enabled and busy with the access that a control word starts. -/
def rawBegun (s : State) (ctrl : Word32) : State :=
  { s.setChkCtrl ctrl with err := { (s.setChkCtrl ctrl).err with chkBusy := true } }

section
variable {ctrl : Word32} {s : State} (hen : ctrl.getLsbD 0 = true) (hbusy : s.err.chkBusy = false)
  (hdpa : s.chkDpa < Config.dramBytes) (hheld : s.hostHeld = false) (hbank : s.bankHeld s.chkDpa = false)
  (hwaits : s.burstWaits s.chkDpa = false) (hlocked : s.dpaLocked s.chkDpa = false)
include hen hbusy hdpa hheld hbank hwaits hlocked

theorem exec_rawWrite_of_free (hop : bits ctrl.toNat 3 2 = 1) :
    exec (.rawWrite ctrl) s = .next ((rawBegun s ctrl).serveRaw (.rawWrite s.chkDpa (ctrl.getLsbD 1))) := by
  have h := rawAccess_of_free (w := .rawWrite s.chkDpa (ctrl.getLsbD 1)) (s := s.setChkCtrl ctrl) hen hbusy hdpa hheld hbank hwaits hlocked
  rw [exec, execRawWrite]
  exact (if_pos hop).trans h

theorem exec_rawRead_of_free (hop : bits ctrl.toNat 3 2 = 2) :
    exec (.rawRead ctrl) s = .next ((rawBegun s ctrl).serveRaw (.rawRead s.chkDpa)) := by
  have h := rawAccess_of_free (w := .rawRead s.chkDpa) (s := s.setChkCtrl ctrl) hen hbusy hdpa hheld hbank hwaits hlocked
  rw [exec, execRawRead]
  exact (if_pos hop).trans h

end

/-- Raw word i of the checker's registers in the burst at a. -/
def rawWord (e : Err) (a : Nat) (keep : Bool) (x : Dram) (i : Nat) : Dram :=
  let new := (e.chkData.getD i 0).toNat
  let key := rowOfDpa (a + 4 * i)
  { x with
    cells := Cells.write x.cells (a + 4 * i) (natLe 4 new)
    checks := Tbl.put 0 x.checks ((a + 4 * i) / 4) (BitVec.ofNat 7 (Nat.xor (e.chkCb.getD i 0).toNat (wordCheck new)))
    parity := if keep then x.parity
      else Tbl.put noParity x.parity key (parityFlipWord (Tbl.get noParity x.parity key) (rowByte (a + 4 * i))
        (Nat.xor (leNat (Cells.readRange x.cells (a + 4 * i) 4)) new)) }

/-- The first n raw words of the burst at a. -/
def rawWords (e : Err) (a : Nat) (keep : Bool) (d : Dram) (n : Nat) : Dram := (List.range n).foldl (rawWord e a keep) d

theorem rawWords_succ (e : Err) (a : Nat) (keep : Bool) (d : Dram) (n : Nat) :
    rawWords e a keep d (n + 1) = rawWord e a keep (rawWords e a keep d n) n := by
  rw [rawWords, List.range_succ, List.foldl_append]
  rfl

/-- The raw write stores the sixteen words, and the poison of the two flits. -/
theorem serveRaw_rawWrite (s : State) (a : Nat) (keep : Bool) : s.serveRaw (.rawWrite a keep) =
    { s with
      dram := { rawWords s.err a keep s.dram 16 with
        poison := Poison.set (Poison.set (rawWords s.err a keep s.dram 16).poison a 32 (s.err.chkPoison.getLsbD 0)) (a + 32) 32
          (s.err.chkPoison.getLsbD 1) }
      err := { s.err with chkBusy := false } } := rfl

theorem read_rawWord (e : Err) (a : Nat) (keep : Bool) (x : Dram) (i y : Nat) : Cells.read (rawWord e a keep x i).cells y =
    if a + 4 * i ≤ y ∧ y < a + 4 * i + 4 then (natLe 4 (e.chkData.getD i 0).toNat).getD (y - (a + 4 * i)) 0
    else Cells.read x.cells y := by
  rw [rawWord, Cells.read_write, length_natLe]

theorem check_rawWord (e : Err) (a : Nat) (keep : Bool) (x : Dram) (i j : Nat) : Tbl.get 0 (rawWord e a keep x i).checks (a / 4 + j) =
    if j = i then BitVec.ofNat 7 (Nat.xor (e.chkCb.getD i 0).toNat (wordCheck (e.chkData.getD i 0).toNat))
    else Tbl.get 0 x.checks (a / 4 + j) := by
  have hkey : (a + 4 * i) / 4 = a / 4 + i := by omega
  rw [rawWord, Tbl.get_put, hkey]
  simp

/-- The first n raw words stand in the burst with their check bits, and no byte outside them has changed. -/
structure RawStored (e : Err) (a n : Nat) (d x : Dram) : Prop where
  outside : ∀ y, y < a ∨ a + 4 * n ≤ y → Cells.read x.cells y = Cells.read d.cells y
  words   : ∀ i, i < n → Cells.readRange x.cells (a + 4 * i) 4 = natLe 4 (e.chkData.getD i 0).toNat
  checks  : ∀ i, i < n → Tbl.get 0 x.checks (a / 4 + i)
    = BitVec.ofNat 7 (Nat.xor (e.chkCb.getD i 0).toNat (wordCheck (e.chkData.getD i 0).toNat))

theorem rawStored_rawWords (e : Err) (a : Nat) (keep : Bool) (d : Dram) (n : Nat) : RawStored e a n d (rawWords e a keep d n) := by
  induction n with
  | zero => exact ⟨fun _ _ => rfl, fun i hi => absurd hi (by omega), fun i hi => absurd hi (by omega)⟩
  | succ n ih =>
    rw [rawWords_succ]
    refine ⟨fun y hy => ?_, fun i hi => ?_, fun i hi => ?_⟩
    · rw [read_rawWord, if_neg (by omega)]
      exact ih.outside y (by omega)
    · rcases Nat.lt_succ_iff_lt_or_eq.mp hi with hi | rfl
      · rw [← ih.words i hi]
        refine Cells.readRange_congr fun y _ hy => ?_
        rw [read_rawWord, if_neg (by omega)]
      · have h := Cells.readRange_eq_of_read (cells := (rawWord e a keep (rawWords e a keep d i) i).cells) (a := a + 4 * i)
          (bs := natLe 4 (e.chkData.getD i 0).toNat) fun y h1 h2 => by
            rw [length_natLe] at h2
            rw [read_rawWord, if_pos ⟨h1, h2⟩]
        rwa [length_natLe] at h
    · rw [check_rawWord]
      rcases Nat.lt_succ_iff_lt_or_eq.mp hi with hi | rfl
      · rw [if_neg (by omega), ih.checks i hi]
      · rw [if_pos rfl]

theorem raw_write_stores {ctrl : Word32} {s : State} (hen : ctrl.getLsbD 0 = true) (hop : bits ctrl.toNat 3 2 = 1)
    (hbusy : s.err.chkBusy = false) (hdpa : s.chkDpa < Config.dramBytes) (hheld : s.hostHeld = false)
    (hbank : s.bankHeld s.chkDpa = false) (hwaits : s.burstWaits s.chkDpa = false) (hlocked : s.dpaLocked s.chkDpa = false) :
    ∃ t : State, exec (.rawWrite ctrl) s = .next t ∧ t.err.chkBusy = false ∧ dramSameOutside s t s.chkDpa 64 ∧
      (∀ i, i < 16 → leNat (Cells.readRange t.dram.cells (s.chkDpa + 4 * i) 4) = (s.err.chkData.getD i 0).toNat ∧
        Tbl.get 0 t.dram.checks (s.chkDpa / 4 + i)
          = BitVec.ofNat 7 (Nat.xor (s.err.chkCb.getD i 0).toNat (wordCheck (s.err.chkData.getD i 0).toNat))) ∧
      t = { s with dram := t.dram, err := t.err } := by
  have hstored := rawStored_rawWords (rawBegun s ctrl).err s.chkDpa (ctrl.getLsbD 1) s.dram 16
  refine ⟨_, (exec_rawWrite_of_free hen hbusy hdpa hheld hbank hwaits hlocked hop).trans (congrArg _ (serveRaw_rawWrite _ _ _)),
    rfl, hstored.outside, fun i hi => ⟨?_, hstored.checks i hi⟩, rfl⟩
  refine (congrArg leNat (hstored.words i hi)).trans ((leNat_natLe _ _).trans ?_)
  exact Nat.mod_eq_of_lt (BitVec.isLt _)

theorem leNat_lt (bs : List Byte) : leNat bs < 256 ^ bs.length := by
  induction bs with
  | nil => exact Nat.one_pos
  | cons b r ih =>
    have hb := b.isLt
    rw [leNat, List.length_cons, Nat.pow_succ]
    omega

theorem raw_read_gives {ctrl : Word32} {s : State} (hen : ctrl.getLsbD 0 = true) (hop : bits ctrl.toNat 3 2 = 2)
    (hbusy : s.err.chkBusy = false) (hdpa : s.chkDpa < Config.dramBytes) (hheld : s.hostHeld = false)
    (hbank : s.bankHeld s.chkDpa = false) (hwaits : s.burstWaits s.chkDpa = false) (hlocked : s.dpaLocked s.chkDpa = false) :
    ∃ t : State, exec (.rawRead ctrl) s = .next t ∧ t.err.chkBusy = false ∧
      (∀ i, i < 16 → (t.err.chkData.getD i 0).toNat = leNat (Cells.readRange s.dram.cells (s.chkDpa + 4 * i) 4)) ∧
      t = { s with err := t.err } := by
  refine ⟨_, exec_rawRead_of_free hen hbusy hdpa hheld hbank hwaits hlocked hop, rfl, fun i hi => ?_, rfl⟩
  have hlt := leNat_lt (Cells.readRange s.dram.cells (s.chkDpa + 4 * i) 4)
  have hlen : (Cells.readRange s.dram.cells (s.chkDpa + 4 * i) 4).length = 4 := by simp [Cells.readRange]
  rw [hlen] at hlt
  have hword : ((((rawBegun s ctrl).serveRaw (.rawRead s.chkDpa)).err.chkData).getD i 0)
      = BitVec.ofNat 32 (leNat (Cells.readRange s.dram.cells (s.chkDpa + 4 * i) 4)) := by
    simp [State.serveRaw, hi]
    rfl
  rw [hword, BitVec.toNat_ofNat]
  exact Nat.mod_eq_of_lt hlt

/-- Settles O35: registers by the offsets they decode to, raw accesses by `rawAccess_of_free` and `rawStored_rawWords`. -/
theorem registersTakeWrites : Obligations.RegistersTakeWrites := by
  unfold Obligations.RegistersTakeWrites
  exact ⟨fun _ _ _ _ => unaligned_write_is_discarded, fun _ _ => low_read_latches, fun _ _ => high_read_uses_latch,
    fun _ _ => unaligned_read_is_counted, fun _ _ => rctBase_takes_64, fun _ _ => rctBase_takes_low_half,
    fun _ _ => holdoff_takes_write, fun _ _ => powerLimit_takes_write, fun _ _ => raw_write_stores, fun _ _ => raw_read_gives⟩

end Sys2Proof.Proofs
end

section
/-! PROOFS. O48: domains power off and wake. Each command's effect is one write of a domain, of the queue and the tokens, or of
a counter (R400 to R402); a woken core keeps everything but its tunes and its two images (R23, R117). -/

open Sys2Proof Sys2Proof.Machine

namespace Sys2Proof.Proofs

/-! ### Domains and counters besides the one written -/

theorem domsSameBut_setDom (s : State) (d : Nat) (v : DomSt) : domsSameBut s (s.setDom d v) d := fun _ hq =>
  Tbl.get_put_ne _ _ _ hq

theorem countersSameBut_ctrAdd (s : State) (o n : Nat) : countersSameBut s (s.ctrAdd o n) o := fun _ hq =>
  (State.ctrGet_ctrAdd ..).trans (if_neg hq)

theorem ctrGet_ctrAdd_one (s : State) (o : Nat) : (s.ctrAdd o 1).ctrGet o = s.ctrGet o + 1 :=
  (State.ctrGet_ctrAdd ..).trans (if_pos rfl)

theorem delSet_eq_self {d : Nat} {l : List Nat} (h : d ∉ l) : delSet d l = l :=
  List.filter_eq_self.mpr fun _ hj => decide_eq_true fun hjd => h (hjd ▸ hj)

theorem delSet_cons_self {d : Nat} {l : List Nat} (h : d ∉ l) : delSet d (d :: l) = l :=
  (List.filter_cons_of_neg (by simp)).trans (delSet_eq_self h)

/-! ### Powering off (R400) -/

theorem idlePowerOff_of_idle {n : Nat} {s : State} (hgate : s.pwr.gateEn = true) (hpower : (s.dom n).power = 2)
    (hmain : (s.core n).qMain = []) (hparen : (s.core n).qParen = []) (himgMain : (s.core n).imgMain = .standard)
    (himgParen : (s.core n).imgParen = .standard) :
    ∃ t : State, exec (.idlePowerOff n) s = .next t ∧ t = { s with doms := t.doms, cores := t.cores } ∧
      t.dom n = { s.dom n with power := 0 } ∧ domsSameBut s t n ∧
      t.core n = { s.core n with imgMain := .empty, imgParen := .empty, run := 0, spilled := [] } ∧ coresSameBut s t n := by
  have hrun : exec (.idlePowerOff n) s = execIdlePowerOff n s := rfl
  rw [hrun, execIdlePowerOff, if_pos (by simp [hgate, hpower, hmain, hparen, himgMain, himgParen])]
  exact ⟨_, rfl, rfl, Tbl.get_put_self .., domsSameBut_setDom s n _, State.core_modCore_self _ n _,
    fun _ hq => State.core_modCore_ne _ _ hq⟩

theorem idlePowerOff_of_gate_off {n : Nat} {s : State} (hgate : s.pwr.gateEn = false) : exec (.idlePowerOff n) s = .next s :=
  if_neg (by simp [hgate])

/-! ### Requests and tokens (R400 to R402) -/

theorem askWake_of_powered {d : Nat} {s : State} (h : (s.dom d).power ≠ 0) : s.askWake d = s := if_neg fun hc => h hc.1

theorem askWake_of_off {d : Nat} {s : State} (hoff : (s.dom d).power = 0) (hwakes : d ∉ s.pwr.wakes) (htokens : d ∉ s.pwr.tokens) :
    s.askWake d = { s with pwr := { s.pwr with wakes := s.pwr.wakes ++ [d] } } :=
  if_pos (by simp [hoff, hwakes, htokens])

theorem wakeRequest_joins {d : Nat} {s : State} (hd : d < 256) (hcovered : s.domCovered d = true) (hready : s.glb.ready = true)
    (hrst : s.glb.rstState = 0) (hoff : (s.dom d).power = 0) (hwakes : d ∉ s.pwr.wakes) (htokens : d ∉ s.pwr.tokens)
    (hplaya : (s.dom (playaDomain d)).power ≠ 0) :
    exec (.wakeRequest d) s = .next { s with pwr := { s.pwr with wakes := s.pwr.wakes ++ [d] } } := by
  have hrun : exec (.wakeRequest d) s = execWakeRequest d s := rfl
  rw [hrun, execWakeRequest, if_pos (by simp [wakes, hd, hcovered, hready, hrst]), if_pos hd, askWake_of_powered hplaya,
    askWake_of_off hoff hwakes htokens]

theorem dom_startRamp_self (s : State) (d : Nat) : (s.startRamp d).dom d = { s.dom d with power := 1, ramp := 1 } :=
  State.dom_modDom_self s d _

theorem domsSameBut_startRamp (s : State) (d : Nat) : domsSameBut s (s.startRamp d) d := domsSameBut_setDom s d _

/-- The state once the oldest request has taken its token. -/
def tokenTaken (s : State) (d : Nat) (rest : List Nat) : State :=
  { s with pwr := { s.pwr with wakes := rest, tokens := s.pwr.tokens ++ [d] } }

/-- A guard looks at clocks and currents alone, so that the token changes none. -/
theorem exec_wakeTokenGrant_of_oldest {d : Nat} {rest : List Nat} {s : State} (hfree : s.pwr.tokens.length < 8)
    (hwakes : s.pwr.wakes = d :: rest) (honce : d ∉ rest) (hgrant : s.grantable d = true) :
    exec (.wakeTokenGrant d) s
      = .next (if s.guards d ≠ [] then (tokenTaken s d rest).ctrAdd pwrWakeWaits 1 else (tokenTaken s d rest).startRamp d) := by
  have hrun : exec (.wakeTokenGrant d) s = execWakeTokenGrant d s := rfl
  have hfind : s.pwr.wakes.find? s.grantable = some d := by rw [hwakes, List.find?_cons_of_pos hgrant]
  have hrest : delSet d s.pwr.wakes = rest := by rw [hwakes, delSet_cons_self honce]
  rw [hrun, execWakeTokenGrant, if_neg (Nat.not_le.mpr hfree)]
  simp only [hfind, hrest, ne_eq, not_true_eq_false, if_false]
  rfl

theorem wakeTokenGrant_starts_ramp {d : Nat} {rest : List Nat} {s : State} (hfree : s.pwr.tokens.length < 8)
    (hwakes : s.pwr.wakes = d :: rest) (honce : d ∉ rest) (hgrant : s.grantable d = true) (hguards : s.guards d = []) :
    ∃ t : State, exec (.wakeTokenGrant d) s = .next t ∧ t.pwr = { s.pwr with wakes := rest, tokens := s.pwr.tokens ++ [d] } ∧
      t.dom d = { s.dom d with power := 1, ramp := 1 } ∧ domsSameBut s t d ∧ t = { s with pwr := t.pwr, doms := t.doms } := by
  rw [exec_wakeTokenGrant_of_oldest hfree hwakes honce hgrant, if_neg (not_not_intro hguards)]
  exact ⟨_, rfl, rfl, dom_startRamp_self (tokenTaken s d rest) d, domsSameBut_startRamp (tokenTaken s d rest) d, rfl⟩

theorem wakeTokenGrant_waits_for_guard {d : Nat} {rest : List Nat} {s : State} (hfree : s.pwr.tokens.length < 8)
    (hwakes : s.pwr.wakes = d :: rest) (honce : d ∉ rest) (hgrant : s.grantable d = true) (hguards : s.guards d ≠ []) :
    ∃ t : State, exec (.wakeTokenGrant d) s = .next t ∧ t.pwr = { s.pwr with wakes := rest, tokens := s.pwr.tokens ++ [d] } ∧
      t.ctrGet pwrWakeWaits = s.ctrGet pwrWakeWaits + 1 ∧ countersSameBut s t pwrWakeWaits ∧
      t = { s with pwr := t.pwr, ctr := t.ctr } := by
  rw [exec_wakeTokenGrant_of_oldest hfree hwakes honce hgrant, if_pos hguards]
  exact ⟨_, rfl, rfl, ctrGet_ctrAdd_one (tokenTaken s d rest) _, countersSameBut_ctrAdd (tokenTaken s d rest) _ _, rfl⟩

theorem wakeTokenGrant_of_no_token {d : Nat} {s : State} (hfull : 8 ≤ s.pwr.tokens.length) :
    exec (.wakeTokenGrant d) s = .next s := if_pos hfull

/-! ### The wait and the ramp (R402) -/

/-- The state whose neighbours that still guard are pre-throttled for a waking domain. -/
def prethrottled (s : State) (d : Nat) : State :=
  (s.modDom d fun x => { x with throttled := s.guards d }).ctrAdd pwrPrethrottle 1

theorem dom_prethrottled (s : State) (d : Nat) : (prethrottled s d).dom d = { s.dom d with throttled := s.guards d } :=
  State.dom_modDom_self s d fun x => { x with throttled := s.guards d }

theorem domsSameBut_prethrottled (s : State) (d : Nat) : domsSameBut s (prethrottled s d) d := domsSameBut_setDom s d _

/-- In two steps: by `rfl` at once, each field of the state would be unfolded through both writes of the domain. -/
theorem frame_startRamp_prethrottled (s : State) (d : Nat) : (prethrottled s d).startRamp d
    = { s with doms := ((prethrottled s d).startRamp d).doms, ctr := ((prethrottled s d).startRamp d).ctr } := by
  obtain ⟨_, _, h⟩ : ∃ ds c, prethrottled s d = { s with doms := ds, ctr := c } := ⟨_, _, rfl⟩
  rw [h]
  rfl

theorem exec_wakeWaitEnd_of_waiting {d : Nat} {expired : Bool} {s : State} (htoken : d ∈ s.pwr.tokens) (hramp : (s.dom d).ramp = 0)
    (hpower : (s.dom d).power = 0) (hends : (expired || (s.guards d).isEmpty) = true) :
    exec (.wakeWaitEnd d expired) s = .next ((if (s.guards d).isEmpty then s else prethrottled s d).startRamp d) :=
  if_pos ⟨List.contains_iff_mem.mpr htoken, hramp, hpower, hends⟩

theorem wakeWaitEnd_starts_ramp {d : Nat} {s : State} (htoken : d ∈ s.pwr.tokens) (hramp : (s.dom d).ramp = 0)
    (hpower : (s.dom d).power = 0) (hguards : s.guards d = []) :
    exec (.wakeWaitEnd d false) s = .next (s.setDom d { s.dom d with power := 1, ramp := 1 }) := by
  have hempty : (s.guards d).isEmpty = true := List.isEmpty_iff.mpr hguards
  rw [exec_wakeWaitEnd_of_waiting (expired := false) htoken hramp hpower hempty, if_pos hempty]
  rfl

theorem wakeWaitEnd_prethrottles {d : Nat} {s : State} (htoken : d ∈ s.pwr.tokens) (hramp : (s.dom d).ramp = 0)
    (hpower : (s.dom d).power = 0) (hguards : s.guards d ≠ []) :
    ∃ t : State, exec (.wakeWaitEnd d true) s = .next t ∧ t = { s with doms := t.doms, ctr := t.ctr } ∧
      t.dom d = { s.dom d with power := 1, ramp := 1, throttled := s.guards d } ∧ domsSameBut s t d ∧
      t.ctrGet pwrPrethrottle = s.ctrGet pwrPrethrottle + 1 ∧ countersSameBut s t pwrPrethrottle := by
  rw [exec_wakeWaitEnd_of_waiting htoken hramp hpower rfl, if_neg (mt List.isEmpty_iff.mp hguards)]
  have hctr : ((prethrottled s d).startRamp d).ctrGet = (s.ctrAdd pwrPrethrottle 1).ctrGet := State.ctrGet_congr rfl
  refine ⟨_, rfl, frame_startRamp_prethrottled s d, ?_, fun q hq => ?_, ?_, fun q hq => ?_⟩
  · rw [dom_startRamp_self, dom_prethrottled]
  · exact (domsSameBut_startRamp _ d q hq).trans (domsSameBut_prethrottled s d q hq)
  · rw [hctr, ctrGet_ctrAdd_one]
  · rw [hctr, countersSameBut_ctrAdd s _ _ q hq]

theorem rampStage_goes_on {d : Nat} {s : State} (hpower : (s.dom d).power = 1) (hramp : (s.dom d).ramp < 4) :
    exec (.rampStage d) s = .next (s.setDom d { s.dom d with ramp := (s.dom d).ramp + 1 }) :=
  (if_neg (not_not_intro hpower)).trans (if_pos hramp)

/-- The state whose domain is on, its token returned. -/
def rampEnded (s : State) (d : Nat) : State :=
  State.setDom { s with pwr := { s.pwr with tokens := delSet d s.pwr.tokens } } d
    { s.dom d with power := 2, ramp := 0, throttled := [] }

theorem dom_rampEnded (s : State) (d : Nat) :
    (rampEnded s d).dom d = { s.dom d with power := 2, ramp := 0, throttled := [] } := State.dom_setDom_self ..

theorem rampStage_ends_ramp {d : Nat} {s : State} (hpower : (s.dom d).power = 1) (hramp : 4 ≤ (s.dom d).ramp) :
    ∃ t : State, exec (.rampStage d) s = .next t ∧ t.dom d = { s.dom d with power := 2, ramp := 0, throttled := [] } ∧
      t.pwr = { s.pwr with tokens := delSet d s.pwr.tokens } ∧ t.ctrGet pwrWakes = s.ctrGet pwrWakes + 1 ∧
      countersSameBut s t pwrWakes ∧ t = { s with doms := t.doms, pwr := t.pwr, ctr := t.ctr } := by
  have hrun : exec (.rampStage d) s = .next ((rampEnded s d).ctrAdd pwrWakes 1) :=
    (if_neg (not_not_intro hpower)).trans (if_neg (Nat.not_lt.mpr hramp))
  exact ⟨_, hrun, dom_rampEnded s d, rfl, ctrGet_ctrAdd_one (rampEnded s d) _, countersSameBut_ctrAdd (rampEnded s d) _ _, rfl⟩

/-! ### A woken core (R23, R117) -/

/-- t differs from s in the noted tunes of one core alone. -/
structure TunesNoted (n : Nat) (s t : State) : Prop where
  frame  : t = { s with cores := t.cores }
  others : coresSameBut s t n
  core   : t.core n = { s.core n with tunes := (t.core n).tunes }

theorem tunesNoted_noteTune (s : State) (n x : Nat) : TunesNoted n s (s.noteTune n x) :=
  ⟨rfl, fun _ hq => State.core_noteTune_ne s x hq, by rw [State.core_noteTune]⟩

theorem TunesNoted.trans {n : Nat} {s t u : State} (h : TunesNoted n s t) (h' : TunesNoted n t u) : TunesNoted n s u :=
  ⟨by rw [h'.frame, h.frame], fun q hq => (h'.others q hq).trans (h.others q hq), by rw [h'.core, h.core]⟩

theorem TunesNoted.frame_modCore {n : Nat} {s t : State} (h : TunesNoted n s t) (f : CoreSt → CoreSt) :
    t.modCore n f = { s with cores := (t.modCore n f).cores } := by
  obtain ⟨cs, rfl⟩ : ∃ cs, t = { s with cores := cs } := ⟨_, h.frame⟩
  rfl

theorem tunesNoted_foldl (n : Nat) (l : List Nat) (s : State) : TunesNoted n s (l.foldl (fun t x => t.noteTune n x) s) := by
  induction l generalizing s with
  | nil => exact ⟨rfl, fun _ _ => rfl, rfl⟩
  | cons x l ih => exact (tunesNoted_noteTune s n x).trans (ih _)

theorem tunesNoted_noteTunes (s : State) (n : Nat) : TunesNoted n s (s.noteTunes n) := tunesNoted_foldl n _ s

theorem tuneOf_noteTune_ne (s : State) (n : Nat) {x y : Nat} (hy : y < 9) (h : y ≠ x) :
    ((s.noteTune n x).core n).tuneOf y = (s.core n).tuneOf y := by
  rw [State.core_noteTune, CoreSt.tuneOf]
  simp [hy, h]

/-- A tune that already stands for the present voltage is noted again with that voltage, or left. -/
theorem voltage_tuneOf_foldl {n y : Nat} (hy : y < 9) (l : List Nat) {s : State}
    (h : y ∈ l ∨ ((s.core n).tuneOf y).1 = (s.dom n).vset.toNat) :
    (((l.foldl (fun t x => t.noteTune n x) s).core n).tuneOf y).1 = (s.dom n).vset.toNat := by
  induction l generalizing s with
  | nil => exact h.resolve_left List.not_mem_nil
  | cons x l ih =>
    refine ih (s := s.noteTune n x) ?_
    by_cases hx : y = x
    · subst hx
      exact .inr (congrArg Prod.fst (State.tuneOf_noteTune s n hy))
    · refine h.imp (fun hmem => (List.mem_cons.mp hmem).resolve_left hx) fun hv => ?_
      rw [tuneOf_noteTune_ne s n hy hx]
      exact hv

theorem voltage_tuneOf_noteTunes (s : State) (n : Nat) {y : Nat} (hy : y < 9) :
    (((s.noteTunes n).core n).tuneOf y).1 = (s.dom n).vset.toNat :=
  voltage_tuneOf_foldl hy _ (.inl (List.mem_range.mpr hy))

theorem loadStandard_of_empty {c : CoreSt} (hmain : c.imgMain = .empty) (hparen : c.imgParen = .empty) :
    c.loadStandard.imgMain = .standard ∧ c.loadStandard.imgParen = .standard := ⟨if_pos hmain, if_pos hparen⟩

theorem loadStandard_keeps (c : CoreSt) :
    c.loadStandard.tuneOf = c.tuneOf ∧ c.loadStandard.qMain = c.qMain ∧ c.loadStandard.qParen = c.qParen := ⟨rfl, rfl, rfl⟩

theorem wakeComplete_loads_standard {n : Nat} {s : State} (hn : n < 256) (hpower : (s.dom n).power = 2)
    (hstore : s.glb.kstoreOk = true) (hmapped : (s.core n).mappedOut = false) (hmain : (s.core n).imgMain = .empty)
    (hparen : (s.core n).imgParen = .empty) :
    ∃ t : State, exec (.wakeComplete n) s = .next t ∧ t = { s with cores := t.cores } ∧ coresSameBut s t n ∧
      (t.core n).imgMain = .standard ∧ (t.core n).imgParen = .standard ∧ ((t.core n).tuneOf 0).1 = (s.dom n).vset.toNat ∧
      (t.core n).qMain = (s.core n).qMain ∧ (t.core n).qParen = (s.core n).qParen := by
  have htuned := tunesNoted_noteTunes s n
  obtain ⟨hstdMain, hstdParen⟩ := loadStandard_of_empty (c := (s.noteTunes n).core n) (by rw [htuned.core, hmain])
    (by rw [htuned.core, hparen])
  obtain ⟨htune, hqMain, hqParen⟩ := loadStandard_keeps ((s.noteTunes n).core n)
  have hrun : exec (.wakeComplete n) s = .next ((s.noteTunes n).modCore n CoreSt.loadStandard) :=
    if_pos ⟨hpower, hn, hstore, by simp [hmapped]⟩
  refine ⟨_, hrun, htuned.frame_modCore _, fun q hq => ?_, ?_⟩
  · exact (State.core_modCore_ne _ _ hq).trans (htuned.others q hq)
  · rw [State.core_modCore_self, htune, hqMain, hqParen]
    exact ⟨hstdMain, hstdParen, voltage_tuneOf_noteTunes s n (by decide), by rw [htuned.core], by rw [htuned.core]⟩

/-- Settles O48: each clause is one case of one command; that the oldest grantable request takes the token, that PWR_WAKES counts
at the ramp's end and that a wake counts one pre-throttle are log 39's. -/
theorem domainsSleepAndWake : Obligations.DomainsSleepAndWake := by
  unfold Obligations.DomainsSleepAndWake
  exact ⟨fun _ _ => idlePowerOff_of_idle, fun _ _ => idlePowerOff_of_gate_off, fun _ _ => wakeRequest_joins,
    fun _ _ _ => wakeTokenGrant_starts_ramp, fun _ _ _ => wakeTokenGrant_waits_for_guard, fun _ _ => wakeTokenGrant_of_no_token,
    fun _ _ => wakeWaitEnd_starts_ramp, fun _ _ => wakeWaitEnd_prethrottles, fun _ _ => rampStage_goes_on,
    fun _ _ => rampStage_ends_ramp, fun _ _ => wakeComplete_loads_standard⟩

end Sys2Proof.Proofs
end

section
/-! PROOFS. Laws of the vaults and their engines: what a count, a report or an answer leaves of a vault, what a write of a vault
leaves of the counters, and what it rests on whether an engine is busy (06 R193, R202). -/

namespace Sys2Proof.Machine

theorem State.vault_ctrAdd (s : State) (o n : Nat) : (s.ctrAdd o n).vault = s.vault := rfl
theorem State.vault_event (s : State) (k : EventKind) (c : Option Nat) (u n : Nat) (f : Option Nat) (x : Nat) (l : List Word64) :
    (s.event k c u n f x l).vault = s.vault := rfl
theorem State.vault_answer (s : State) (a : HostAnswer) : (s.answer a).vault = s.vault := rfl
theorem State.ctrGet_setVault (s : State) (n : Nat) (v : VaultSt) : (s.setVault n v).ctrGet = s.ctrGet := rfl
theorem State.ctrGet_modVault (s : State) (n : Nat) (f : VaultSt → VaultSt) : (s.modVault n f).ctrGet = s.ctrGet := rfl
theorem State.ctrGet_event (s : State) (k : EventKind) (c : Option Nat) (u n : Nat) (f : Option Nat) (x : Nat) (l : List Word64) :
    (s.event k c u n f x l).ctrGet = s.ctrGet := rfl
theorem State.ctrGet_answer (s : State) (a : HostAnswer) : (s.answer a).ctrGet = s.ctrGet := rfl

/-! ### Engines -/

theorem State.engine_setEngine (s : State) (n p m q : Nat) (e : EngineSt) :
    (s.setEngine n p e).engine m q = if 128 * m + q = 128 * n + p then e else s.engine m q := Tbl.get_put _ _ _ _ _

/-- Engines of one vault and place are one. -/
theorem State.engine_eq_of_place {s : State} {n p m q : Nat} (h : 128 * m + q = 128 * n + p) : s.engine m q = s.engine n p := by
  rw [State.engine, State.engine, h]

/-- Whether an engine's batch still has a step to take rests on the vault's jobs and dark engines, on the clauses and decodes,
and on the engine's level and fault. -/
theorem State.engineBusy_congr {s t : State} {n p : Nat} (hjobs : (t.vault n).jobs = (s.vault n).jobs)
    (hdark : (t.vault n).dark = (s.vault n).dark) (hrings : t.rings = s.rings) (hdecodes : t.decodes = s.decodes)
    (hlevel : (t.engine n p).level = (s.engine n p).level) (hdead : (t.engine n p).dead = (s.engine n p).dead) :
    t.engineBusy n p = s.engineBusy n p := by
  simp only [State.engineBusy, VaultSt.activeJob, State.engineOut, State.jobClause, State.ring, State.decodeOf, hjobs, hdark, hrings,
    hdecodes, hlevel, hdead]

/-- A dead engine steps no more. -/
theorem State.engineBusy_of_dead {s : State} {n p : Nat} (h : (s.engine n p).dead = true) : s.engineBusy n p = false := by
  unfold State.engineBusy
  split
  · simp [State.engineOut, h]
  · rfl

end Sys2Proof.Machine
end

section
/-! PROOFS. O3: host accesses and raw accesses above device memory (05 R151). -/

open Sys2Proof Sys2Proof.Machine

namespace Sys2Proof.Proofs

/-- A raw access that may begin faults where its burst lies above device memory. -/
theorem rawAccess_of_no_memory {w : Waiting} {s : State} (hen : s.err.chkEn = true) (hbusy : s.err.chkBusy = false)
    (hdpa : Config.dramBytes ≤ w.dpa) : s.rawAccess w = .fault (.noSuchAddress w.dpa) := by
  rw [State.rawAccess, if_neg (by simp [hen, hbusy]), if_pos hdpa]

/-- Settles O3: the address is looked at first, of a raw access once its control word has set EN. -/
theorem noSuchAddressFaults : Obligations.NoSuchAddressFaults := by
  unfold Obligations.NoSuchAddressFaults
  refine ⟨fun _ _ ha => if_pos ha, fun _ _ _ _ ha => if_pos ha, fun ctrl s hen hop hbusy ha => ?_,
    fun ctrl s hen hop hbusy ha => ?_⟩
  · exact (if_pos hop).trans (rawAccess_of_no_memory (w := .rawWrite s.chkDpa (ctrl.getLsbD 1)) (s := s.setChkCtrl ctrl) hen hbusy ha)
  · exact (if_pos hop).trans (rawAccess_of_no_memory (w := .rawRead s.chkDpa) (s := s.setChkCtrl ctrl) hen hbusy ha)

end Sys2Proof.Proofs
end

section
/-! PROOFS. O34: host requests that wait: a write deferred at a locked region and its end (06 R200, R201), a request that moves up
at its vault (05 R166, R178), and held requests that time out (13 R444, 15 R495). -/

open Sys2Proof Sys2Proof.Machine

namespace Sys2Proof.Proofs

/-! ### A write into a locked region -/

/-- A write deferred at the vault of its address, and counted. -/
def writeDeferred (s : State) (a : Nat) (w : Waiting) : State :=
  (s.modVault (a / Config.vaultBytes) fun v => { v with deferred := v.deferred ++ [w] }).ctrAdd
    (0x800030 + 0x1000 * (a / Config.vaultBytes)) 1

theorem writeDeferred_frame (s : State) (a : Nat) (w : Waiting) :
    writeDeferred s a w = { s with vaults := (writeDeferred s a w).vaults, ctr := (writeDeferred s a w).ctr } := rfl

theorem deferred_writeDeferred (s : State) (a : Nat) (w : Waiting) :
    ((writeDeferred s a w).vault (a / Config.vaultBytes)).deferred = (s.vault (a / Config.vaultBytes)).deferred ++ [w] := by
  rw [writeDeferred, State.vault_ctrAdd, State.vault_modVault_self]

theorem vaultsSameBut_writeDeferred (s : State) (a : Nat) (w : Waiting) :
    vaultsSameBut s (writeDeferred s a w) (a / Config.vaultBytes) := fun q hq => by
  rw [writeDeferred, State.vault_ctrAdd, State.vault_modVault_ne s _ hq]

/-- A write's arrival closes combining entries even where it is deferred. -/
theorem hostStore_of_locked {s : State} {a : Nat} {bs : List Byte} {p : Bool} (hready : s.glb.ready = true)
    (hheld : s.hostHeld = false) (hseq : s.seqGuarded a bs.length = false) (hlocked : s.dpaLocked a = true) :
    s.hostStore a bs p = writeDeferred (s.closeEntries a bs.length) a (.write a bs p false) := by
  have htlocked : (s.closeEntries a bs.length).dpaLocked a = true :=
    ((entriesClosed_closeEntries s a bs.length).dpaLocked a).trans hlocked
  unfold State.hostStore
  refine (if_neg (by simp [hready])).trans ((if_neg (by simp [hheld])).trans ((if_neg (by simp [hseq])).trans ?_))
  exact if_pos htlocked

theorem write_into_locked_region_is_deferred {a : Nat} {bs : List Byte} {p : Bool} {s : State} (ha : a < Config.dramBytes)
    (hready : s.glb.ready = true) (hheld : s.hostHeld = false) (hlen : bs.length ≤ 64 - a % 64)
    (hseq : s.seqGuarded a bs.length = false) (hlocked : s.dpaLocked a = true) :
    ∃ t : State, exec (.hostMemWrite a bs p) s = .next t ∧ t = { s with vaults := t.vaults, ctr := t.ctr } ∧
      (t.vault (a / Config.vaultBytes)).deferred = (s.vault (a / Config.vaultBytes)).deferred ++ [.write a bs p false] ∧
      vaultsSameBut s t (a / Config.vaultBytes) := by
  have hexec : exec (.hostMemWrite a bs p) s = .next (writeDeferred (s.closeEntries a bs.length) a (.write a bs p false)) := by
    rw [← hostStore_of_locked hready hheld hseq hlocked]
    simp [exec, execHostMemWrite, Nat.not_le.mpr ha, List.take_of_length_le hlen]
  have hclosed := entriesClosed_closeEntries s a bs.length
  refine ⟨_, hexec, ?_, ?_, fun q hq => ?_⟩
  · rw [writeDeferred_frame, hclosed.frame]
  · rw [deferred_writeDeferred, hclosed.vault]
  · rw [vaultsSameBut_writeDeferred _ _ _ q hq, hclosed.others q hq]

/-! ### The end of a deferred write -/

/-- Vault v's oldest deferred write discarded: counted, reported, answered. -/
def writeRetried (s : State) (v : Nat) (w : Waiting) (rest : List Waiting) : State :=
  (((s.modVault v fun x => { x with deferred := rest }).ctrAdd (nbeWrRetry v) 1).event .retryLater none 2 v none 0
    [BitVec.ofNat 64 w.dpa]).answer (.retryLater w.dpa)

theorem vault_writeRetried (s : State) (v : Nat) (w : Waiting) (rest : List Waiting) :
    (writeRetried s v w rest).vault = (s.modVault v fun x => { x with deferred := rest }).vault := by
  rw [writeRetried, State.vault_answer, State.vault_event, State.vault_ctrAdd]

theorem ctrGet_writeRetried (s : State) (v : Nat) (w : Waiting) (rest : List Waiting) :
    (writeRetried s v w rest).ctrGet = ((s.modVault v fun x => { x with deferred := rest }).ctrAdd (nbeWrRetry v) 1).ctrGet := by
  rw [writeRetried, State.ctrGet_answer, State.ctrGet_event]

theorem writeRetried_frame (s : State) (v : Nat) (w : Waiting) (rest : List Waiting) : writeRetried s v w rest = { s with
    vaults := (writeRetried s v w rest).vaults, ctr := (writeRetried s v w rest).ctr
    io := { s.io with answers := (writeRetried s v w rest).io.answers }
    boot := { s.boot with events := (writeRetried s v w rest).boot.events }
    mgt := { s.mgt with awaiting := (writeRetried s v w rest).mgt.awaiting } } := by
  unfold writeRetried State.event
  generalize State.mkEvent .. = e
  obtain ⟨vs, c, h⟩ : ∃ vs c, (s.modVault v fun x => { x with deferred := rest }).ctrAdd (nbeWrRetry v) 1
    = { s with vaults := vs, ctr := c } := ⟨_, _, rfl⟩
  rw [h]
  rfl

theorem exec_deferredWriteRetry_of_cons {v : Nat} {w : Waiting} {rest : List Waiting} {s : State}
    (hfirst : (s.vault v).deferred = w :: rest) : exec (.deferredWriteRetry v) s = .next (writeRetried s v w rest) := by
  have hctr : 0x800038 + 0x1000 * v = nbeWrRetry v := by
    rw [nbeWrRetry, nbeCtr]
    omega
  rw [exec, execDeferredWriteRetry, hfirst]
  dsimp only
  rw [hctr, writeRetried]

theorem deferred_write_ends_with_retryLater {v : Nat} {w : Waiting} {rest : List Waiting} {s : State}
    (hfirst : (s.vault v).deferred = w :: rest) :
    ∃ t : State, exec (.deferredWriteRetry v) s = .next t ∧ (t.vault v).deferred = rest ∧ vaultsSameBut s t v ∧
      t.io.answers = .retryLater w.dpa :: s.io.answers ∧ (t.boot.events.head?).map (·.kind) = some .retryLater ∧
      t.ctrGet (nbeWrRetry v) = s.ctrGet (nbeWrRetry v) + 1 ∧ countersSameBut s t (nbeWrRetry v) ∧
      t = { s with vaults := t.vaults, ctr := t.ctr, io := { s.io with answers := t.io.answers }
                   boot := { s.boot with events := t.boot.events }, mgt := { s.mgt with awaiting := t.mgt.awaiting } } := by
  refine ⟨_, exec_deferredWriteRetry_of_cons hfirst, ?_, fun q hq => ?_, rfl, rfl, ?_, fun q hq => ?_, writeRetried_frame s v w rest⟩
  · rw [vault_writeRetried, State.vault_modVault_self]
  · rw [vault_writeRetried, State.vault_modVault_ne s _ hq]
  · rw [ctrGet_writeRetried, ctrGet_ctrAdd_one, State.ctrGet_modVault]
  · rw [ctrGet_writeRetried, countersSameBut_ctrAdd _ _ 1 q hq, State.ctrGet_modVault]

/-! ### A request that moves up -/

theorem exec_hostRequestPromoted_of_read {v a : Nat} {rest : List Waiting} {s : State}
    (hfirst : (s.vault v).waiting = .read a false :: rest) : exec (.hostRequestPromoted v false) s
      = .next ((s.modVault v fun x => { x with waiting := .read a true :: rest }).ctrAdd (vltHostPromoted v) 1) := by
  have hpromote : promoteFirst (s.vault v).waiting = (.read a true :: rest, true) := by
    rw [hfirst]
    exact if_pos (by simp [Waiting.promote])
  simp only [exec, execHostRequestPromoted, hpromote, Bool.false_eq_true, if_false, if_true]

theorem first_read_is_promoted {v a : Nat} {rest : List Waiting} {s : State} (hfirst : (s.vault v).waiting = .read a false :: rest) :
    ∃ t : State, exec (.hostRequestPromoted v false) s = .next t ∧ t = { s with vaults := t.vaults, ctr := t.ctr } ∧
      (t.vault v).waiting = .read a true :: rest ∧
      t.ctrGet (vltHostPromoted v) = s.ctrGet (vltHostPromoted v) + 1 ∧ countersSameBut s t (vltHostPromoted v) := by
  refine ⟨_, exec_hostRequestPromoted_of_read hfirst, rfl, ?_, ?_, fun q hq => ?_⟩
  · rw [State.vault_ctrAdd, State.vault_modVault_self]
  · rw [ctrGet_ctrAdd_one, State.ctrGet_modVault]
  · rw [countersSameBut_ctrAdd _ _ 1 q hq, State.ctrGet_modVault]

/-! ### Held requests that time out -/

theorem held_read_times_out {a : Nat} {p : Bool} {rest : List Waiting} {s : State} (hfirst : s.cxl.held = .read a p :: rest) :
    ∃ (bs : List Byte) (t : State), exec .heldRequestTimeout s = .next t ∧ t.cxl.held = rest ∧
      t.io.answers = .data (a / 64 * 64) bs true :: s.io.answers ∧ t = { s with cxl := t.cxl, io := t.io, freeIdx := t.freeIdx } := by
  have hexec : exec .heldRequestTimeout s = .next (State.answerPoison { s with cxl := { s.cxl with held := rest } } a) := by
    rw [exec, execHeldRequestTimeout, hfirst, List.find?_cons_of_pos rfl]
    dsimp only
    rw [List.erase_cons_head]
  exact ⟨_, _, hexec, rfl, rfl, rfl⟩

theorem held_write_times_out {a : Nat} {bs : List Byte} {p q : Bool} {rest : List Waiting} {s : State}
    (hfirst : s.cxl.held = .write a bs p q :: rest) :
    ∃ t : State, exec .heldRequestTimeout s = .next t ∧ t.cxl.held = rest ∧
      t.io.answers = .retryLater a :: s.io.answers ∧ t = { s with cxl := t.cxl, io := t.io } := by
  have hexec : exec .heldRequestTimeout s = .next (State.answer { s with cxl := { s.cxl with held := rest } } (.retryLater a)) := by
    rw [exec, execHeldRequestTimeout, hfirst, List.find?_cons_of_pos rfl]
    dsimp only
    rw [List.erase_cons_head]
  exact ⟨_, hexec, rfl, rfl, rfl⟩

/-- Settles O34: each clause is one case of a host write, of a deferred write's end, of a promotion or of a timeout. -/
theorem hostRequestsWaitAndEnd : Obligations.HostRequestsWaitAndEnd := by
  unfold Obligations.HostRequestsWaitAndEnd
  exact ⟨fun _ _ _ _ => write_into_locked_region_is_deferred, fun _ _ _ _ => deferred_write_ends_with_retryLater,
    fun _ _ _ _ => first_read_is_promoted, fun _ _ => rfl, fun _ _ _ _ => held_read_times_out,
    fun _ _ _ _ _ _ => held_write_times_out⟩

end Sys2Proof.Proofs
end

section
/-! PROOFS. O31: bursts on a vault's channel: one that reaches its bank and its repetition (05 R162, R163), read combining (R160,
R161), the vault cache (R147), and the page repair that a status asks for (14 R458). -/

open Sys2Proof Sys2Proof.Machine

namespace Sys2Proof.Proofs

/-! ### What a read finds before a bank -/

theorem cachedAt_of_cacheOff {s : State} {a : Nat} (hoff : s.cacheOn (a / Config.vaultBytes) = false) : s.cachedAt a = none :=
  if_pos (by simp [hoff])

theorem readHits_of_cacheOff {s : State} {a : Nat} (hoff : s.cacheOn (a / Config.vaultBytes) = false) : s.readHits a = false := by
  rw [State.readHits, cachedAt_of_cacheOff hoff]
  rfl

theorem cacheRead_of_cacheOff {s : State} {a : Nat} (hoff : s.cacheOn (a / Config.vaultBytes) = false) (allocate : Bool) (k : Nat) :
    s.cacheRead a allocate k = (s, false) := if_neg (by simp [hoff])

theorem cacheRead_of_hit {s : State} {a : Nat} (hhit : s.readHits a = true) (allocate : Bool) (k : Nat) :
    ∃ cs, (s.cacheRead a allocate k).1 = State.ctrAdd { s with caches := cs } (vltCacheHit (a / Config.vaultBytes)) k := by
  have hon : s.cacheOn (a / Config.vaultBytes) = true := Bool.of_not_eq_false fun hoff =>
    Bool.false_ne_true ((readHits_of_cacheOff hoff).symm.trans hhit)
  rw [State.readHits, State.cachedAt] at hhit
  dsimp only at hhit
  split at hhit
  · exact absurd hhit Bool.false_ne_true
  · rw [Option.isSome_map] at hhit
    obtain ⟨w, hw⟩ := Option.isSome_iff_exists.mp hhit
    simp only [State.cacheRead, if_pos hon, CacheSet.look, hw, if_true]
    exact ⟨_, rfl⟩

theorem playaSeen_of_no_checks {s : State} (h : s.playa.checks = []) (core off n : Nat) : s.playaSeen core off n = s :=
  if_pos (by simp [State.playaBad, h])

/-! ### A burst that reaches its bank -/

/-- A burst is one that its bank serves: neither the cache nor an open combining entry has a read's data. -/
structure BurstServed (s : State) (b : Burst) : Prop where
  misses  : b.isWrite = true ∨ s.readHits (burstDpa b) = false
  alone   : b.isWrite = true ∨ b.requesters = [] ∨ (s.vault b.vault).entryOf (burstDpa b / 64) = none
  present : s.vaultRetired b.vault = false
  free    : s.bankHeld (burstDpa b) = false

/-- The counter of a burst that reaches its bank. -/
def burstCounter (b : Burst) : Nat := if b.isWrite then vltWrBursts b.vault else vltRdBursts b.vault
def burstCounted (s : State) (b : Burst) : State := s.ctrAdd (burstCounter b) 1
/-- A burst has come back good: its sub-channel's repetitions start anew. -/
def burstGood (s : State) (b : Burst) : State :=
  (burstCounted s b).modVault b.vault fun x => { x with repeats := Tbl.drop x.repeats (b.bank / 2) }

theorem burstCounter_of_write {b : Burst} (h : b.isWrite = true) : burstCounter b = vltWrBursts b.vault := if_pos h
theorem burstCounter_of_read {b : Burst} (h : b.isWrite = false) : burstCounter b = vltRdBursts b.vault := if_neg (by simp [h])

theorem vltCrcRepeat_ne_burstCounter (b : Burst) : vltCrcRepeat b.vault ≠ burstCounter b := by
  unfold burstCounter
  split <;> simp [vltCrcRepeat, vltWrBursts, vltRdBursts, vltCtr]

theorem vltRdBursts_ne_vltCombined (n : Nat) : vltRdBursts n ≠ vltCombined n := by simp [vltRdBursts, vltCombined, vltCtr]

theorem vault_burstCounted (s : State) (b : Burst) : (burstCounted s b).vault = s.vault := State.vault_ctrAdd ..

theorem vault_burstGood (s : State) (b : Burst) : (burstGood s b).vault b.vault
    = { s.vault b.vault with repeats := Tbl.drop (s.vault b.vault).repeats (b.bank / 2) } := by
  rw [burstGood, State.vault_modVault_self, vault_burstCounted]

theorem vaultsSameBut_burstGood (s : State) (b : Burst) : vaultsSameBut s (burstGood s b) b.vault := fun q hq => by
  rw [burstGood, State.vault_modVault_ne _ _ hq, vault_burstCounted]

theorem ctrGet_burstGood (s : State) (b : Burst) : (burstGood s b).ctrGet = (burstCounted s b).ctrGet := State.ctrGet_modVault ..

theorem burstSt_burstGood (s : State) (b : Burst) : (burstGood s b).burstSt b = s.burstSt b := by
  have hdram : (burstGood s b).dram = s.dram := rfl
  rw [State.burstSt, hdram, State.burstSt]

theorem burstGood_frame (s : State) (b : Burst) :
    burstGood s b = { s with vaults := (burstGood s b).vaults, ctr := (burstGood s b).ctr } := rfl

section
variable {s : State} {b : Burst} (h : BurstServed s b)
include h

theorem BurstServed.not_cached : ¬ (!b.isWrite && s.readHits (burstDpa b)) = true := by
  rcases h.misses with hw | hm <;> simp [*]

theorem BurstServed.not_held : ¬ (s.vaultRetired b.vault || s.bankHeld (burstDpa b)) = true := by simp [h.present, h.free]

theorem exec_burstReturn_of_served : exec (.burstReturn b) s =
    if !burstHolds b then
      .next ((if b.isWrite then burstCounted s b else (burstCounted s b).combineRead b.vault (burstDpa b / 64) b.requesters false).failBurst
        b.vault (b.bank / 2))
    else .next (if b.isWrite then (burstGood s b).closeEntries (burstDpa b) 64 else (burstGood s b).readBurst b) := by
  refine (if_neg h.not_cached).trans ((if_neg h.not_held).trans (if_neg ?_))
  rcases h.alone with hw | hr | he
  · simp [hw]
  · simp [hr]
  · simp [he]

theorem exec_burstReturn_of_crc_bad (hone : b.isWrite = true ∨ b.requesters = []) (hcrc : burstHolds b = false) :
    exec (.burstReturn b) s = .next ((burstCounted s b).failBurst b.vault (b.bank / 2)) := by
  have hcombine : (if b.isWrite then burstCounted s b
      else (burstCounted s b).combineRead b.vault (burstDpa b / 64) b.requesters false) = burstCounted s b := by
    split
    · rfl
    · next hw => exact if_pos (by simp [hone.resolve_left hw])
  rw [exec_burstReturn_of_served h, hcombine, hcrc]
  rfl

theorem exec_burstReturn_of_good_write (hwrite : b.isWrite = true) (hcrc : burstHolds b = true) :
    exec (.burstReturn b) s = .next ((burstGood s b).closeEntries (burstDpa b) 64) := by
  rw [exec_burstReturn_of_served h, hcrc, hwrite]
  rfl

theorem exec_burstReturn_of_good_read (hread : b.isWrite = false) (hcrc : burstHolds b = true) :
    exec (.burstReturn b) s = .next ((burstGood s b).readBurst b) := by
  rw [exec_burstReturn_of_served h, hcrc, hread]
  rfl

end

/-! ### Repetition -/

theorem failBurst_of_lt {s : State} {n sub : Nat} (h : Tbl.get 0 (s.vault n).repeats sub < 3) : s.failBurst n sub
    = (s.setVault n { s.vault n with repeats := Tbl.put 0 (s.vault n).repeats sub (Tbl.get 0 (s.vault n).repeats sub + 1) }).ctrAdd
        (vltCrcRepeat n) 1 := if_pos h

theorem failBurst_of_le {s : State} {n sub : Nat} (h : 3 ≤ Tbl.get 0 (s.vault n).repeats sub) : s.failBurst n sub
    = s.setVault n { s.vault n with repeats := Tbl.drop (s.vault n).repeats sub, stopped := insSet sub (s.vault n).stopped } :=
  if_neg (Nat.not_lt.mpr h)

theorem bad_burst_is_repeated {b : Burst} {s : State}
    (hone : b.isWrite = true ∨ b.requesters = [] ∧ s.readHits (burstDpa b) = false) (hpresent : s.vaultRetired b.vault = false)
    (hfree : s.bankHeld (burstDpa b) = false) (hcrc : burstHolds b = false)
    (hrepeats : Tbl.get 0 (s.vault b.vault).repeats (b.bank / 2) < 3) :
    ∃ t : State, exec (.burstReturn b) s = .next t ∧ t = { s with vaults := t.vaults, ctr := t.ctr } ∧
      t.vault b.vault = { s.vault b.vault with
        repeats := Tbl.put 0 (s.vault b.vault).repeats (b.bank / 2) (Tbl.get 0 (s.vault b.vault).repeats (b.bank / 2) + 1) } ∧
      t.ctrGet (vltCrcRepeat b.vault) = s.ctrGet (vltCrcRepeat b.vault) + 1 ∧ vaultsSameBut s t b.vault := by
  have hserved : BurstServed s b := ⟨hone.imp_right And.right, hone.imp_right fun h => .inl h.1, hpresent, hfree⟩
  refine ⟨_, exec_burstReturn_of_crc_bad hserved (hone.imp_right And.left) hcrc, ?_⟩
  rw [failBurst_of_lt (by rwa [vault_burstCounted]), vault_burstCounted]
  refine ⟨rfl, ?_, ?_, fun q hq => ?_⟩
  · rw [State.vault_ctrAdd, State.vault_setVault_self]
  · rw [ctrGet_ctrAdd_one, State.ctrGet_setVault, burstCounted, countersSameBut_ctrAdd _ _ 1 _ (vltCrcRepeat_ne_burstCounter b)]
  · rw [State.vault_ctrAdd, State.vault_setVault, if_neg hq, vault_burstCounted]

theorem bad_burst_stops_subchannel {b : Burst} {s : State}
    (hone : b.isWrite = true ∨ b.requesters = [] ∧ s.readHits (burstDpa b) = false) (hpresent : s.vaultRetired b.vault = false)
    (hfree : s.bankHeld (burstDpa b) = false) (hcrc : burstHolds b = false)
    (hrepeats : 3 ≤ Tbl.get 0 (s.vault b.vault).repeats (b.bank / 2)) :
    ∃ t : State, exec (.burstReturn b) s = .next t ∧ t = { s with vaults := t.vaults, ctr := t.ctr } ∧
      b.bank / 2 ∈ (t.vault b.vault).stopped ∧ Tbl.get 0 (t.vault b.vault).repeats (b.bank / 2) = 0 ∧
      t.ctrGet (vltCrcRepeat b.vault) = s.ctrGet (vltCrcRepeat b.vault) ∧ vaultsSameBut s t b.vault := by
  have hserved : BurstServed s b := ⟨hone.imp_right And.right, hone.imp_right fun h => .inl h.1, hpresent, hfree⟩
  refine ⟨_, exec_burstReturn_of_crc_bad hserved (hone.imp_right And.left) hcrc, ?_⟩
  rw [failBurst_of_le (by rwa [vault_burstCounted]), vault_burstCounted, State.vault_setVault_self]
  refine ⟨rfl, (mem_insSet ..).mpr (.inl rfl), (Tbl.get_drop ..).trans (if_pos rfl), ?_, fun q hq => ?_⟩
  · rw [State.ctrGet_setVault, burstCounted, countersSameBut_ctrAdd _ _ 1 _ (vltCrcRepeat_ne_burstCounter b)]
  · rw [State.vault_setVault, if_neg hq, vault_burstCounted]

/-! ### Combining entries -/

theorem combine_closeEntries (s : State) (a : Nat) {n : Nat} (hn : n ≠ 0) :
    ((s.closeEntries a n).vault (a / Config.vaultBytes)).combine = (s.vault (a / Config.vaultBytes)).combine.filter
      (fun e => !(decide (a / 64 ≤ e.burst) && decide (e.burst ≤ (a + n - 1) / 64))) := by
  unfold State.closeEntries
  extract_lets v
  split
  · next h =>
    have hempty : v.combine = [] := by simpa [hn] using h
    simp [show (s.vault (a / Config.vaultBytes)).combine = [] from hempty]
  · rw [State.vault_setVault_self]

/-- A write of a whole burst closes that burst's entry and no other. -/
theorem mem_combine_closeEntries_burst (s : State) {a : Nat} (ha : a % 64 = 0) (e : Combine) :
    e ∈ ((s.closeEntries a 64).vault (a / Config.vaultBytes)).combine ↔
      e ∈ (s.vault (a / Config.vaultBytes)).combine ∧ e.burst ≠ a / 64 := by
  rw [combine_closeEntries s a (by decide), List.mem_filter]
  simp only [Bool.not_eq_true', Bool.and_eq_false_iff, decide_eq_false_iff_not]
  exact and_congr_right fun _ => by omega

theorem good_write_closes_entry {b : Burst} {s : State} (hwrite : b.isWrite = true)
    (hvault : burstDpa b / Config.vaultBytes = b.vault) (haligned : burstDpa b % 64 = 0) (hpresent : s.vaultRetired b.vault = false)
    (hfree : s.bankHeld (burstDpa b) = false) (hcrc : burstHolds b = true) :
    ∃ t : State, exec (.burstReturn b) s = .next t ∧ t = { s with vaults := t.vaults, ctr := t.ctr } ∧
      t.ctrGet (vltWrBursts b.vault) = s.ctrGet (vltWrBursts b.vault) + 1 ∧ countersSameBut s t (vltWrBursts b.vault) ∧
      (∀ e, e ∈ (t.vault b.vault).combine ↔ e ∈ (s.vault b.vault).combine ∧ e.burst ≠ burstDpa b / 64) ∧
      vaultsSameBut s t b.vault := by
  refine ⟨_, exec_burstReturn_of_good_write ⟨.inl hwrite, .inl hwrite, hpresent, hfree⟩ hwrite hcrc, ?_⟩
  have hclosed := entriesClosed_closeEntries (burstGood s b) (burstDpa b) 64
  have hmem := mem_combine_closeEntries_burst (burstGood s b) haligned
  rw [hvault] at hclosed hmem
  generalize (burstGood s b).closeEntries (burstDpa b) 64 = t at hclosed hmem ⊢
  have hctr : t.ctrGet = (s.ctrAdd (vltWrBursts b.vault) 1).ctrGet := by
    rw [State.ctrGet_congr (t := t) (s := burstGood s b) (by rw [hclosed.frame]), ctrGet_burstGood, burstCounted,
      burstCounter_of_write hwrite]
  refine ⟨?_, ?_, fun q hq => ?_, fun e => ?_, fun q hq => ?_⟩
  · rw [hclosed.frame, burstGood_frame]
  · rw [hctr, ctrGet_ctrAdd_one]
  · rw [hctr, countersSameBut_ctrAdd s _ 1 q hq]
  · rw [hmem, vault_burstGood]
  · rw [hclosed.others q hq, vaultsSameBut_burstGood s b q hq]

/-- A read of several readers opens an entry where one is free; the readers but the opener cost no access. -/
theorem combineRead_of_none {s : State} {n burst : Nat} {who : List Nat} (hwho : who ≠ [])
    (hnone : (s.vault n).entryOf burst = none) (hroom : (s.vault n).combine.length < 32) (back : Bool) :
    s.combineRead n burst who back = (s.setVault n { s.vault n with
      combine := (s.vault n).combine ++ [{ burst := burst, requesters := who, returned := back }] }).ctrAdd
        (vltCombined n) (who.length - 1) := by
  rw [State.combineRead, if_neg (by simpa using hwho)]
  dsimp only
  rw [hnone]
  exact if_pos hroom

/-- The entry of a burst once more readers have joined it. -/
def Combine.joined (x : Combine) (burst : Nat) (new : List Nat) (back : Bool) : Combine :=
  if x.burst = burst then { x with requesters := x.requesters ++ new, returned := x.returned || back } else x

theorem combineRead_of_some {s : State} {n burst : Nat} {who : List Nat} {e : Combine} (hwho : who ≠ [])
    (hsome : (s.vault n).entryOf burst = some e) (back : Bool) :
    s.combineRead n burst who back = (s.setVault n { s.vault n with
      combine := (s.vault n).combine.map fun x => Combine.joined x burst (who.filter fun y => !e.requesters.contains y) back }).ctrAdd
        (vltCombined n) (who.filter fun y => !e.requesters.contains y).length := by
  rw [State.combineRead, if_neg (by simpa using hwho)]
  dsimp only
  rw [hsome]
  rfl

/-! ### Good reads -/

/-- t is s but for counters and for what a vault's poison and cache do not rest on. -/
structure ReadsAlike (s t : State) : Prop where
  frame    : t = { s with vaults := t.vaults, ctr := t.ctr }
  mode     : ∀ q, (t.vault q).mode = (s.vault q).mode
  sideDead : ∀ q, (t.vault q).sideDead = (s.vault q).sideDead

theorem ReadsAlike.trans {s t u : State} (h : ReadsAlike s t) (g : ReadsAlike t u) : ReadsAlike s u :=
  ⟨g.frame.trans (by rw [h.frame]), fun q => (g.mode q).trans (h.mode q), fun q => (g.sideDead q).trans (h.sideDead q)⟩

theorem readsAlike_ctrAdd (s : State) (o n : Nat) : ReadsAlike s (s.ctrAdd o n) := ⟨rfl, fun _ => rfl, fun _ => rfl⟩

theorem readsAlike_setVault (s : State) (n : Nat) {v : VaultSt} (hmode : v.mode = (s.vault n).mode)
    (hside : v.sideDead = (s.vault n).sideDead) : ReadsAlike s (s.setVault n v) := by
  refine ⟨rfl, fun q => ?_, fun q => ?_⟩
  · rw [State.vault_setVault]
    split
    · next hq => rw [hq, hmode]
    · rfl
  · rw [State.vault_setVault]
    split
    · next hq => rw [hq, hside]
    · rfl

theorem ReadsAlike.cacheOn {s t : State} (h : ReadsAlike s t) (n : Nat) : t.cacheOn n = s.cacheOn n := by
  have happlied : t.applied = s.applied := by rw [h.frame]
  rw [State.cacheOn, happlied, h.mode, State.cacheOn]

theorem ReadsAlike.dpaPoison {s t : State} (h : ReadsAlike s t) (a n : Nat) : t.dpaPoison a n = s.dpaPoison a n := by
  have hcaches : t.caches = s.caches := by rw [h.frame]
  have hcached : t.cachedAt = s.cachedAt := funext fun a => by rw [State.cachedAt, hcaches, h.cacheOn, State.cachedAt]
  have hbank : t.bankPoison = s.bankPoison := by rw [h.frame]; rfl
  have hplaya : t.playaPoison = s.playaPoison := by rw [h.frame]; rfl
  simp only [State.dpaPoison, h.sideDead, hcaches, hcached, hbank, hplaya]

theorem readsAlike_burstGood (s : State) (b : Burst) : ReadsAlike s (burstGood s b) :=
  (readsAlike_ctrAdd s (burstCounter b) 1).trans (readsAlike_setVault (burstCounted s b) b.vault rfl rfl)

theorem readsAlike_combineRead (s : State) (n burst : Nat) (who : List Nat) (back : Bool) :
    ReadsAlike s (s.combineRead n burst who back) := by
  have hset (x : List Combine) (o k : Nat) : ReadsAlike s ((s.setVault n { s.vault n with combine := x }).ctrAdd o k) :=
    .trans (t := s.setVault n { s.vault n with combine := x }) (readsAlike_setVault s n rfl rfl) (readsAlike_ctrAdd ..)
  have hsame : ReadsAlike s s := ⟨rfl, fun _ => rfl, fun _ => rfl⟩
  unfold State.combineRead
  split
  · exact hsame
  · extract_lets v
    split
    · exact hset ..
    · split
      · exact hset ..
      · exact hsame

/-- A clean read without a cache goes to its readers alone. -/
theorem readBurst_of_clean {s : State} {b : Burst} (hstatus : s.burstSt b = 0)
    (hclean : (s.combineRead b.vault (burstDpa b / 64) b.requesters true).dpaPoison (burstDpa b) 64 = false)
    (hoff : (s.combineRead b.vault (burstDpa b / 64) b.requesters true).cacheOn (burstDpa b / Config.vaultBytes) = false) :
    s.readBurst b = s.combineRead b.vault (burstDpa b / 64) b.requesters true := by
  rw [State.readBurst]
  dsimp only
  rw [hstatus, if_neg (by decide), hclean, if_neg Bool.false_ne_true, if_neg (by decide), cacheRead_of_cacheOff hoff]

theorem good_read_opens_entry {b : Burst} {first second : Nat} {s : State} (hread : b.isWrite = false)
    (hvault : burstDpa b / Config.vaultBytes = b.vault) (hpresent : s.vaultRetired b.vault = false)
    (hfree : s.bankHeld (burstDpa b) = false) (hcrc : burstHolds b = true) (hreaders : b.requesters = [first, second])
    (hstatus : s.burstSt b = 0) (hoff : s.cacheOn b.vault = false) (hclean : s.dpaPoison (burstDpa b) 64 = false)
    (hnone : (s.vault b.vault).entryOf (burstDpa b / 64) = none) (hroom : (s.vault b.vault).combine.length < 32) :
    ∃ t : State, exec (.burstReturn b) s = .next t ∧ t = { s with vaults := t.vaults, ctr := t.ctr } ∧
      t.ctrGet (vltRdBursts b.vault) = s.ctrGet (vltRdBursts b.vault) + 1 ∧
      t.ctrGet (vltCombined b.vault) = s.ctrGet (vltCombined b.vault) + 1 ∧
      (∃ e ∈ (t.vault b.vault).combine, e.burst = burstDpa b / 64 ∧ e.requesters = [first, second]) ∧
      vaultsSameBut s t b.vault := by
  rw [← hvault] at hoff
  have hserved : BurstServed s b := ⟨.inr (readHits_of_cacheOff hoff), .inr (.inr hnone), hpresent, hfree⟩
  have hcombine := combineRead_of_none (s := burstGood s b) (n := b.vault) (burst := burstDpa b / 64) (who := b.requesters)
    (by simp [hreaders]) (by rw [vault_burstGood]; exact hnone) (by rw [vault_burstGood]; exact hroom) true
  have halike := (readsAlike_burstGood s b).trans (readsAlike_combineRead _ b.vault (burstDpa b / 64) b.requesters true)
  refine ⟨_, exec_burstReturn_of_good_read hserved hread hcrc, ?_⟩
  rw [readBurst_of_clean ((burstSt_burstGood s b).trans hstatus) ((halike.dpaPoison ..).trans hclean) ((halike.cacheOn _).trans hoff)]
  refine ⟨halike.frame, ?_⟩
  rw [hcombine, hreaders]
  have hctr : (burstGood s b).ctrGet = (s.ctrAdd (vltRdBursts b.vault) 1).ctrGet := by
    rw [ctrGet_burstGood, burstCounted, burstCounter_of_read hread]
  refine ⟨?_, ?_, ⟨{ burst := burstDpa b / 64, requesters := [first, second], returned := true }, ?_, rfl, rfl⟩, fun q hq => ?_⟩
  · rw [countersSameBut_ctrAdd _ _ _ _ (vltRdBursts_ne_vltCombined _), State.ctrGet_setVault, hctr, ctrGet_ctrAdd_one]
  · refine (ctrGet_ctrAdd_one _ _).trans ?_
    rw [State.ctrGet_setVault, hctr, countersSameBut_ctrAdd s _ 1 _ (vltRdBursts_ne_vltCombined _).symm]
  · rw [State.vault_ctrAdd, State.vault_setVault_self]
    exact List.mem_append_right _ (List.mem_singleton.mpr rfl)
  · rw [State.vault_ctrAdd, State.vault_setVault, if_neg hq, vaultsSameBut_burstGood s b q hq]

theorem read_joins_returned_entry {b : Burst} {e : Combine} {s : State} (hread : b.isWrite = false)
    (hvault : burstDpa b / Config.vaultBytes = b.vault) (hpresent : s.vaultRetired b.vault = false)
    (hfree : s.bankHeld (burstDpa b) = false) (hreaders : b.requesters ≠ []) (hoff : s.cacheOn b.vault = false)
    (hentry : (s.vault b.vault).entryOf (burstDpa b / 64) = some e) (hback : e.returned = true) :
    ∃ t : State, exec (.burstReturn b) s = .next t ∧ t = { s with vaults := t.vaults, ctr := t.ctr } ∧
      t.ctrGet (vltCombined b.vault) = s.ctrGet (vltCombined b.vault)
        + BitVec.ofNat 64 (b.requesters.filter (fun x => !e.requesters.contains x)).length ∧
      countersSameBut s t (vltCombined b.vault) ∧ vaultsSameBut s t b.vault := by
  rw [← hvault] at hoff
  have hexec : exec (.burstReturn b) s
      = .next ((s.cacheRead (burstDpa b) false b.requesters.length).1.combineRead b.vault (burstDpa b / 64) b.requesters true) := by
    refine (if_neg ?_).trans ((if_neg ?_).trans (if_pos ?_))
    · simp [readHits_of_cacheOff hoff]
    · simp [hpresent, hfree]
    · simp [hread, hreaders, hentry, hback]
  rw [cacheRead_of_cacheOff hoff, combineRead_of_some hreaders hentry] at hexec
  refine ⟨_, hexec, rfl, ?_, fun q hq => ?_, fun q hq => ?_⟩
  · rw [State.ctrGet_ctrAdd, if_pos rfl, State.ctrGet_setVault]
  · rw [countersSameBut_ctrAdd _ _ _ q hq, State.ctrGet_setVault]
  · rw [State.vault_ctrAdd, State.vault_setVault, if_neg hq]

theorem cached_read_counts_hits {b : Burst} {s : State} (hread : b.isWrite = false) (hhit : s.readHits (burstDpa b) = true)
    (hchecks : s.playa.checks = []) :
    ∃ t : State, exec (.burstReturn b) s = .next t ∧ t = { s with caches := t.caches, ctr := t.ctr } ∧
      t.ctrGet (vltCacheHit (burstDpa b / Config.vaultBytes)) = s.ctrGet (vltCacheHit (burstDpa b / Config.vaultBytes))
        + BitVec.ofNat 64 (max 1 b.requesters.length) ∧
      countersSameBut s t (vltCacheHit (burstDpa b / Config.vaultBytes)) := by
  obtain ⟨cs, hcs⟩ := cacheRead_of_hit hhit false (max 1 b.requesters.length)
  have hexec : exec (.burstReturn b) s = .next (((s.cacheRead (burstDpa b) false (max 1 b.requesters.length)).1).playaSeen b.vault
      ((s.cachedAt (burstDpa b)).getD (b.vault, 0)).2 64) := if_pos (by simp [hread, hhit])
  rw [hcs, playaSeen_of_no_checks (s := State.ctrAdd { s with caches := cs } _ _) hchecks] at hexec
  refine ⟨_, hexec, rfl, ?_, fun q hq => ?_⟩
  · rw [State.ctrGet_ctrAdd, if_pos rfl]
    rfl
  · rw [countersSameBut_ctrAdd _ _ _ q hq]
    rfl

theorem read_with_status_starts_repair {b : Burst} {s : State} (hread : b.isWrite = false) (hreaders : b.requesters = [])
    (hmiss : s.readHits (burstDpa b) = false) (hpresent : s.vaultRetired b.vault = false)
    (hfree : s.bankHeld (burstDpa b) = false) (hcrc : burstHolds b = true) (hstatus : 2 ≤ s.burstSt b) :
    ∃ u : State, exec (.burstReturn b) s = .next (u.startRepair (rowOfDpa (burstDpa b))) ∧
      u = { s with vaults := u.vaults, ctr := u.ctr } ∧
      u.vault b.vault = { s.vault b.vault with repeats := Tbl.drop (s.vault b.vault).repeats (b.bank / 2) } ∧
      vaultsSameBut s u b.vault ∧ u.ctrGet (vltRdBursts b.vault) = s.ctrGet (vltRdBursts b.vault) + 1 ∧
      countersSameBut s u (vltRdBursts b.vault) := by
  have hrepair : (burstGood s b).readBurst b = (burstGood s b).startRepair (rowOfDpa (burstDpa b)) :=
    if_pos (by rwa [burstSt_burstGood])
  have hctr : (burstGood s b).ctrGet = (s.ctrAdd (vltRdBursts b.vault) 1).ctrGet := by
    rw [ctrGet_burstGood, burstCounted, burstCounter_of_read hread]
  refine ⟨burstGood s b, ?_, burstGood_frame s b, vault_burstGood s b, vaultsSameBut_burstGood s b, ?_, fun q hq => ?_⟩
  · rw [← hrepair]
    exact exec_burstReturn_of_good_read ⟨.inr hmiss, .inr (.inl hreaders), hpresent, hfree⟩ hread hcrc
  · rw [hctr, ctrGet_ctrAdd_one]
  · rw [hctr, countersSameBut_ctrAdd s _ 1 q hq]

/-! ### The end of the window -/

theorem combineWindowExpiry_closes_entry {v burst : Nat} {late : List Nat} {s : State}
    (hopen : (s.vault v).combine.any (fun e => e.burst == burst) = true) :
    ∃ t : State, exec (.combineWindowExpiry v burst late) s = .next t ∧ t = { s with vaults := t.vaults, ctr := t.ctr } ∧
      (∀ e, e ∈ (t.vault v).combine ↔ e ∈ (s.vault v).combine ∧ e.burst ≠ burst) ∧
      t.ctrGet (vltCombined v) = s.ctrGet (vltCombined v) + BitVec.ofNat 64 late.length ∧
      countersSameBut s t (vltCombined v) ∧ vaultsSameBut s t v := by
  have hexec : exec (.combineWindowExpiry v burst late) s = .next ((s.modVault v fun x =>
      { x with combine := x.combine.filter fun e => decide (e.burst ≠ burst) }).ctrAdd (vltCombined v) late.length) := if_pos hopen
  refine ⟨_, hexec, rfl, fun e => ?_, ?_, fun q hq => ?_, fun q hq => ?_⟩
  · rw [State.vault_ctrAdd, State.vault_modVault_self, List.mem_filter, decide_eq_true_iff]
  · rw [State.ctrGet_ctrAdd, if_pos rfl, State.ctrGet_modVault]
  · rw [countersSameBut_ctrAdd _ _ _ q hq, State.ctrGet_modVault]
  · rw [State.vault_ctrAdd, State.vault_modVault_ne s _ hq]

/-- Settles O31: each clause is one case of a returned burst, or the end of a window. -/
theorem burstsReturnAndRepeat : Obligations.BurstsReturnAndRepeat := by
  unfold Obligations.BurstsReturnAndRepeat
  exact ⟨fun _ _ => bad_burst_is_repeated, fun _ _ => bad_burst_stops_subchannel, fun _ _ => good_write_closes_entry,
    fun _ _ _ _ => good_read_opens_entry, fun _ _ _ => read_joins_returned_entry, fun _ _ => cached_read_counts_hits,
    fun _ _ => read_with_status_starts_repair, fun _ _ _ _ => combineWindowExpiry_closes_entry⟩

end Sys2Proof.Proofs
end

section
/-! PROOFS. O18: a store through a noun within one flit of device memory (05 R154; 14 R461, R462). -/

open Sys2Proof Sys2Proof.Machine

namespace Sys2Proof.Proofs

/-- A range within one flit is one piece. -/
theorem flitPieces_of_one_flit {dva n : Nat} (hn : 0 < n) (hfit : dva % 32 + n ≤ 32) : flitPieces dva n = [(dva, n)] := by
  have hflits : flitsOf dva n = [dva / 32] := by
    rw [flitsOf, if_neg (by omega), show (dva + n - 1) / 32 - dva / 32 + 1 = 1 by omega]
    simp
  rw [flitPieces, hflits, List.map_singleton]
  refine List.singleton_inj.mpr (Prod.ext ?_ ?_)
  · exact Nat.max_eq_left (by omega)
  · dsimp only
    omega

/-- The bytes of a piece: those given, and the old ones where none is given. -/
def givenBytes (ws : List WByte) (old : List PByte) : List Byte :=
  (ws.zip old).map fun p => match p.1 with
    | some b => b.byte
    | none => p.2.byte

theorem length_givenBytes {ws : List WByte} {old : List PByte} (h : old.length = ws.length) :
    (givenBytes ws old).length = ws.length := by
  simp [givenBytes, h]

theorem getD_givenBytes {ws : List WByte} {old : List PByte} (h : old.length = ws.length) {i : Nat} (hi : i < ws.length) (z : PByte) :
    (givenBytes ws old).getD i 0 = ((ws.getD i none).map (·.byte)).getD (old.getD i z).byte := by
  have hi' : i < old.length := by omega
  rw [givenBytes, List.getD_eq_getElem _ _ (by simp [h, hi]), List.getD_eq_getElem _ _ hi, List.getD_eq_getElem _ _ hi',
    List.getElem_map, List.getElem_zip]
  cases ws[i] <;> rfl

theorem getD_of_all_isNone {ws : List WByte} (h : ws.all (fun w => w.isNone) = true) (i : Nat) : ws.getD i none = none := by
  rw [List.getD_eq_getElem?_getD]
  cases hi : ws[i]? with
  | none => rfl
  | some w => exact Option.isNone_iff_eq_none.mp (List.all_eq_true.mp h w (List.mem_of_getElem? hi))

/-- A store within one flit leaves everything where it gives no byte, and is one write of its target where it gives one. -/
theorem writeDva_of_one_flit {place dva : Nat} {ws : List WByte} {s : State} (hn : 0 < ws.length)
    (hfit : dva % 32 + ws.length ≤ 32) : ∃ full poison, s.writeDva place dva ws =
      if ws.all (fun w => w.isNone) then s
      else s.writeTarget (s.translate place dva) (givenBytes ws (s.readTarget (s.translate place dva) ws.length)) full poison := by
  rw [State.writeDva, flitPieces_of_one_flit hn hfit, State.writePieces, List.take_length]
  exact ⟨_, _, rfl⟩

/-- The target of a write in device memory takes the bytes and keeps the others; host memory stays. -/
theorem writeTarget_dram_read {s : State} {a : Nat} (hchecks : s.dram.checks = []) (hcaches : s.caches = [])
    (hslots : s.dbg.slots = []) (hside : (s.vault (a / Config.vaultBytes)).sideDead = false) (bs : List Byte) (full poison : Bool) :
    (s.writeTarget (some (.dram a)) bs full poison).host = s.host ∧
    ∀ x, Cells.read (s.writeTarget (some (.dram a)) bs full poison).dram.cells x
      = if a ≤ x ∧ x < a + bs.length then bs.getD (x - a) 0 else Cells.read s.dram.cells x := by
  have hwrite : s.writeTarget (some (.dram a)) bs full poison = (s.bankFlit a bs full poison).closeEntries a bs.length := by
    have hperturb : (s.bankFlit a bs full poison).perturbWrite a bs.length = s.bankFlit a bs full poison :=
      if_pos (by simp [State.bankFlit, hslots])
    have hlines : (s.bankFlit a bs full poison).updateLines a bs poison = s.bankFlit a bs full poison :=
      if_pos (by simp [State.bankFlit, hcaches])
    rw [State.writeTarget, if_neg (by simp [hside]), hperturb, hlines]
  have hclosed := entriesClosed_closeEntries (s.bankFlit a bs full poison) a bs.length
  have hcells : (s.bankFlit a bs full poison).dram.cells = Cells.write s.dram.cells a bs := by
    simp [State.bankFlit, Dram.write, Dram.beforeWrite, hchecks]
  rw [hwrite]
  generalize (s.bankFlit a bs full poison).closeEntries a bs.length = t at hclosed ⊢
  refine ⟨?_, fun x => ?_⟩
  · rw [hclosed.frame]
    rfl
  · have hdram : t.dram = (s.bankFlit a bs full poison).dram := by rw [hclosed.frame]
    rw [hdram, hcells, Cells.read_write]

/-- What a clean device memory without caches gives for a piece. -/
theorem readTarget_dram {s : State} (hchecks : s.dram.checks = []) (hcaches : s.caches = []) (a n : Nat) :
    (s.readTarget (some (.dram a)) n).map (·.byte) = Cells.readRange s.dram.cells a n := by
  simp [State.readTarget, State.dpaRead, State.bankRead, hchecks, hcaches, Function.comp_def]

/-- Settles O18: the store is one write of its flit, of the given bytes among the old ones. -/
theorem nounStoreStaysInItsFlit : Obligations.NounStoreStaysInItsFlit := by
  unfold Obligations.NounStoreStaysInItsFlit
  intro place dva a ws s hchecks hcaches hslots hn hfit htarget hside x
  obtain ⟨full, poison, hstore⟩ := writeDva_of_one_flit (place := place) (s := s) hn hfit
  rw [hstore, htarget]
  have hbytes := readTarget_dram hchecks hcaches a ws.length
  generalize s.readTarget (some (.dram a)) ws.length = old at hbytes ⊢
  have hlen : old.length = ws.length := by
    rw [← List.length_map (f := (·.byte)), hbytes, Cells.readRange_eq]
    simp
  have hold (i : Nat) (hi : i < ws.length) (z : PByte) : (old.getD i z).byte = Cells.read s.dram.cells (a + i) := by
    have h := congrArg (fun l => l[i]?) hbytes
    rw [Cells.readRange_eq] at h
    simp [hi, hlen] at h
    simp [hi, hlen, h]
  split
  · next hnone =>
    refine ⟨?_, rfl⟩
    split
    · rw [getD_of_all_isNone hnone]
    · rfl
  · obtain ⟨hhost, hread⟩ := writeTarget_dram_read (a := a) hchecks hcaches hslots hside (givenBytes ws old) full poison
    refine ⟨?_, hhost⟩
    rw [hread, length_givenBytes hlen]
    split
    · next hx =>
      rw [getD_givenBytes hlen (by omega) ⟨0, false⟩, hold _ (by omega), Nat.add_sub_cancel' hx.1]
      cases ws.getD (x - a) none <;> rfl
    · rfl

end Sys2Proof.Proofs
end

section
/-! PROOFS. O20: the engines of a vault: the grant of tokens and the end of a step (06 R199, R202), the step itself (R193, R196,
R238), a page repair that it needs (R197, 14 R458), and an engine's fault (R205). -/

open Sys2Proof Sys2Proof.Machine

namespace Sys2Proof.Proofs

/-! ### The grant of tokens -/

/-- Engines of vault n that were busy may hold a token; nothing else of an engine has changed. -/
structure TokensGranted (n : Nat) (s t : State) : Prop where
  frame  : t = { s with vaults := t.vaults, engines := t.engines }
  vault  : ∀ m, t.vault m = { s.vault m with nextEngine := (t.vault m).nextEngine }
  engine : ∀ m q, t.engine m q = { s.engine m q with token := (t.engine m q).token }
  idle   : ∀ q, s.engineBusy n q = false → t.engine n q = s.engine n q

theorem TokensGranted.refl (n : Nat) (s : State) : TokensGranted n s s := ⟨rfl, fun _ => rfl, fun _ _ => rfl, fun _ _ => rfl⟩

theorem TokensGranted.engineBusy {n : Nat} {s t : State} (h : TokensGranted n s t) (m q : Nat) :
    t.engineBusy m q = s.engineBusy m q := by
  refine State.engineBusy_congr ?_ ?_ ?_ ?_ ?_ ?_
  · rw [h.vault]
  · rw [h.vault]
  · rw [h.frame]
  · rw [h.frame]
  · rw [h.engine]
  · rw [h.engine]

theorem TokensGranted.trans {n : Nat} {s t u : State} (h : TokensGranted n s t) (g : TokensGranted n t u) : TokensGranted n s u where
  frame := g.frame.trans (by rw [h.frame])
  vault m := by rw [g.vault, h.vault]
  engine m q := by rw [g.engine, h.engine]
  idle q hq := (g.idle q ((h.engineBusy n q).trans hq)).trans (h.idle q hq)

/-- The token of one busy engine. -/
theorem tokensGranted_of_busy {s : State} {n p : Nat} (hbusy : s.engineBusy n p = true) (next : Nat) :
    TokensGranted n s
      ((s.setEngine n p { s.engine n p with token := true }).modVault n fun v => { v with nextEngine := next }) := by
  have hengine (m q : Nat) : ((s.setEngine n p { s.engine n p with token := true }).modVault n fun v =>
      { v with nextEngine := next }).engine m q = if 128 * m + q = 128 * n + p then { s.engine n p with token := true } else s.engine m q := State.engine_setEngine ..
  refine ⟨rfl, fun m => ?_, fun m q => ?_, fun q hq => ?_⟩
  · rw [State.vault_modVault]
    split
    · next hm => rw [hm]; rfl
    · rfl
  · rw [hengine]
    split
    · next h => rw [State.engine_eq_of_place h]
    · rfl
  · rw [hengine, if_neg]
    intro h
    rw [show q = p by omega, hbusy] at hq
    exact Bool.noConfusion hq

theorem tokensGranted_grantTokens (s : State) (n : Nat) : TokensGranted n s (s.grantTokens n) := by
  unfold State.grantTokens
  refine List.foldlRecOn (motive := fun t : State => TokensGranted n s t) _ _ (.refl n s) fun t ht i _ => ?_
  extract_lets p e
  split
  · next h =>
    have hbusy : t.engineBusy n p = true := by
      simp only [Bool.and_eq_true] at h
      exact h.1.1.1.2
    exact ht.trans (tokensGranted_of_busy hbusy _)
  · exact ht

/-! ### The end of a step -/

/-- An engine's token has come back. -/
def tokenBack (s : State) (n p : Nat) : State := s.setEngine n p { s.engine n p with token := false, orphan := false }

theorem engine_tokenBack (s : State) (n p : Nat) :
    (tokenBack s n p).engine n p = { s.engine n p with token := false, orphan := false } := State.engine_setEngine_self ..

theorem engineBusy_tokenBack (s : State) (n p : Nat) : (tokenBack s n p).engineBusy n p = s.engineBusy n p :=
  State.engineBusy_congr rfl rfl rfl rfl (by rw [engine_tokenBack]) (by rw [engine_tokenBack])

theorem serveBoundary_of_waiting_nil {s : State} {n : Nat} (h : (s.vault n).waiting = []) (p o : Nat) :
    s.serveBoundary n p o = s.ctrAdd o 0 := by
  simp [State.serveBoundary, VaultSt.ordered, h, rankedRequests, eightActivations]

theorem toMerge_frame (s : State) (n : Nat) : s.toMerge n = { s with vaults := (s.toMerge n).vaults } := by
  unfold State.toMerge
  split
  · split <;> rfl
  · rfl

/-- A step has ended: the engine's token went back, and others may have been granted. -/
structure StepEnded (n p : Nat) (s t : State) : Prop where
  frame    : t = { s with vaults := t.vaults, engines := t.engines, ctr := t.ctr }
  engine   : t.engine n p = { s.engine n p with token := (t.engine n p).token, orphan := false }
  idle     : s.engineBusy n p = false → (t.engine n p).token = false
  counters : ∀ o, o ≠ nbeBoundaryServed n → o ≠ nbeTokenWait n → t.ctrGet o = s.ctrGet o

theorem stepEnded_endStep {s : State} {n : Nat} (p : Nat) (hwait : (s.vault n).waiting = []) : StepEnded n p s (s.endStep n p) := by
  unfold State.endStep
  extract_lets e s1 s2 s3
  have h1 : s1 = tokenBack s n p := rfl
  have h2 : TokensGranted n (s1.ctrAdd (nbeBoundaryServed n) 0) s2 := by
    have hserved : s1.serveBoundary n p (nbeBoundaryServed n) = s1.ctrAdd (nbeBoundaryServed n) 0 :=
      serveBoundary_of_waiting_nil (s := tokenBack s n p) hwait ..
    unfold s2
    rw [hserved]
    exact tokensGranted_grantTokens ..
  clear_value s1 s2
  subst h1
  have h3 : s3 = { s2 with ctr := s3.ctr } ∧ ∀ o, o ≠ nbeTokenWait n → s3.ctrGet o = s2.ctrGet o := by
    unfold s3
    split
    · exact ⟨rfl, countersSameBut_ctrAdd s2 (nbeTokenWait n) 1⟩
    · exact ⟨rfl, fun _ _ => rfl⟩
  clear_value s3
  obtain ⟨h3, hcounters⟩ := h3
  have hengine : s3.engine = s2.engine := by rw [h3]; rfl
  have hfree : (if (s3.engine n p).token then s3 else s3.serveFree n) = s3 := by
    have hwait3 : (s3.vault n).waiting = [] := by
      have hvault : s3.vault = s2.vault := by rw [h3]; rfl
      rw [hvault, h2.vault]
      exact hwait
    rw [State.serveFree_of_waiting_nil hwait3, ite_self]
  rw [hfree]
  have h4 := toMerge_frame s3 n
  generalize s3.toMerge n = t at h4 ⊢
  have htengine : t.engine = s2.engine := by rw [h4, ← hengine]; rfl
  have hback : ((tokenBack s n p).ctrAdd (nbeBoundaryServed n) 0).engine n p = { s.engine n p with token := false, orphan := false } :=
    engine_tokenBack s n p
  refine ⟨?_, ?_, fun hidle => ?_, fun o hserved hwaits => ?_⟩
  · rw [h4, h3, h2.frame]
    rfl
  · rw [htengine, h2.engine, hback]
  · rw [htengine, h2.idle p ((engineBusy_tokenBack s n p).trans hidle), hback]
  · have hctr : s2.ctrGet = ((tokenBack s n p).ctrAdd (nbeBoundaryServed n) 0).ctrGet := State.ctrGet_congr (by rw [h2.frame])
    rw [State.ctrGet_congr (t := t) (s := s3) (by rw [h4]), hcounters o hwaits, hctr, countersSameBut_ctrAdd _ _ _ o hserved]
    rfl

/-! ### The step itself -/

/-- t is s but for what an engine's step of a clause of ring r may change besides its counter. -/
structure EngineWorked (r : Nat) (s t : State) : Prop where
  frame   : t = { s with dram := t.dram, rings := t.rings, vaults := t.vaults, engines := t.engines, decodes := t.decodes, dbg := t.dbg }
  rings   : ringsSameBut s t r
  waiting : ∀ q, (t.vault q).waiting = (s.vault q).waiting

theorem EngineWorked.refl (r : Nat) (s : State) : EngineWorked r s s := ⟨rfl, fun _ _ => rfl, fun _ => rfl⟩

theorem EngineWorked.trans {r : Nat} {s t u : State} (h : EngineWorked r s t) (g : EngineWorked r t u) : EngineWorked r s u :=
  ⟨g.frame.trans (by rw [h.frame]), fun q hq => (g.rings q hq).trans (h.rings q hq), fun q => (g.waiting q).trans (h.waiting q)⟩

theorem engineWorked_setEngine (r : Nat) (s : State) (n p : Nat) (e : EngineSt) : EngineWorked r s (s.setEngine n p e) :=
  ⟨rfl, fun _ _ => rfl, fun _ => rfl⟩

theorem engineWorked_modRing (s : State) (r : Nat) (f : RingSt → RingSt) : EngineWorked r s (s.modRing r f) :=
  ⟨rfl, fun q hq => by rw [State.ring_modRing, if_neg hq], fun _ => rfl⟩

theorem engineWorked_noteBad (r : Nat) (s : State) (d : DecodeSt) (items : List Nat) : EngineWorked r s (s.noteBad d items) :=
  ⟨rfl, fun _ _ => rfl, fun _ => rfl⟩

theorem engineWorked_bankFlit (r : Nat) (s : State) (a : Nat) (bs : List Byte) (full poison : Bool) :
    EngineWorked r s (s.bankFlit a bs full poison) := ⟨rfl, fun _ _ => rfl, fun _ => rfl⟩

theorem engineWorked_perturbWrite (r : Nat) (s : State) (a n : Nat) : EngineWorked r s (s.perturbWrite a n) := by
  unfold State.perturbWrite
  split
  · exact .refl r s
  · refine List.foldlRecOn (motive := fun t : State => EngineWorked r s t) _ _ (.refl r s) fun t ht e _ => ?_
    extract_lets x w hit d
    split
    · exact ht
    · exact ht.trans ⟨rfl, fun _ _ => rfl, fun _ => rfl⟩

theorem engineWorked_closeEntries (r : Nat) (s : State) (a n : Nat) : EngineWorked r s (s.closeEntries a n) := by
  have hclosed := entriesClosed_closeEntries s a n
  generalize s.closeEntries a n = t at hclosed ⊢
  refine ⟨?_, fun q _ => ?_, hclosed.waiting⟩
  · rw [hclosed.frame]
  · rw [hclosed.frame]
    rfl

theorem engineWorked_writeBank (r : Nat) (s : State) (dva : Nat) (bs : List Byte) (poison : Bool) :
    EngineWorked r s (s.writeBank dva bs poison) := by
  unfold State.writeBank
  refine List.foldlRecOn (motive := fun t : State => EngineWorked r s t) _ _ (.refl r s) fun t ht x _ => ?_
  split
  · exact ht.trans ((engineWorked_bankFlit ..).trans ((engineWorked_perturbWrite ..).trans (engineWorked_closeEntries ..)))
  · exact ht

/-- One step of engine p of vault n has been taken: its level rose, and it was counted at o. -/
def StepTaken (r n p o : Nat) (s t : State) : Prop :=
  ∃ u, t = u.ctrAdd o 1 ∧ EngineWorked r s u ∧ (u.engine n p).level = (s.engine n p).level + 1

theorem readStep_level (w : Noun) (q : MvPlan) (fmtX : Nat) (row : List PByte) (l : Nat) (e : EngineSt) :
    (readStep w q fmtX row l e).1.level = l + 1 := by
  unfold readStep
  extract_lets e1
  split <;> rfl

theorem stepMv_of_read {s : State} {n p b : Nat} {j : NbeJob} {c : ClauseSt}
    (hread : (s.engine n p).level < (mvPlan (c.noun 0)).heads + (mvPlan (c.noun 0)).tiles) :
    StepTaken j.ring n p (nbeStepsRd n) s (s.stepMv n p j c b) ∧ (s.stepMv n p j c b).dram = s.dram := by
  unfold State.stepMv
  extract_lets w q e st old
  rw [if_pos hread]
  refine ⟨⟨_, rfl, (engineWorked_setEngine ..).trans (engineWorked_modRing ..), ?_⟩, rfl⟩
  have hengine : ((s.setEngine n p st.1).noteVerdict j.ring j.index st.2).engine n p = st.1 := State.engine_setEngine_self ..
  rw [hengine]
  exact readStep_level ..

theorem stepMv_of_write {s : State} {n p b : Nat} {j : NbeJob} {c : ClauseSt}
    (hwrite : ¬ (s.engine n p).level < (mvPlan (c.noun 0)).heads + (mvPlan (c.noun 0)).tiles) :
    StepTaken j.ring n p (nbeStepsWr n) s (s.stepMv n p j c b) := by
  unfold State.stepMv
  extract_lets w q e st old
  rw [if_neg hwrite]
  refine ⟨_, rfl, (engineWorked_writeBank ..).trans (engineWorked_setEngine ..), ?_⟩
  rw [State.engine_setEngine_self]

theorem stepDecode_taken (s : State) (n p : Nat) (j : NbeJob) (c : ClauseSt) (d : DecodeSt) :
    ∃ o, StepTaken j.ring n p o s (s.stepDecode n p j c d) := by
  unfold State.stepDecode
  extract_lets e st row batch used bad e0 i t fmt v badRow e1 s1
  split
  · next hzero =>
    refine ⟨_, _, rfl, (engineWorked_setEngine ..).trans (engineWorked_noteBad ..), ?_⟩
    refine (congrArg EngineSt.level (State.engine_setEngine_self ..)).trans ?_
    exact (congrArg (· + 1) hzero).symm
  · split
    · refine ⟨_, _, rfl, ?_, ?_⟩
      · split
        · exact (engineWorked_setEngine ..).trans (engineWorked_noteBad ..)
        · exact engineWorked_setEngine ..
      · have hengine : s1.engine n p = { e1 with level := e.level + 1, poison := e.poison || badRow } := State.engine_setEngine_self ..
        have hnoted : (if badRow then s1.noteBad d [i] else s1).engine = s1.engine := by split <;> rfl
        rw [hnoted, hengine]
    · refine ⟨_, _, rfl, (engineWorked_writeBank ..).trans (engineWorked_setEngine ..), ?_⟩
      rw [State.engine_setEngine_self]

theorem takeStep_taken (s : State) (n p : Nat) (j : NbeJob) (w : Work) : ∃ o, StepTaken j.ring n p o s (s.takeStep n p j w) := by
  cases w with
  | mv c b =>
    by_cases hread : (s.engine n p).level < (mvPlan (c.noun 0)).heads + (mvPlan (c.noun 0)).tiles
    · exact ⟨_, (stepMv_of_read hread).1⟩
    · exact ⟨_, stepMv_of_write hread⟩
  | decode c d => exact stepDecode_taken s n p j c d

/-! ### The boundary of a step -/

/-- From s a step was taken to t and counted at o, and its boundary passed to u. -/
structure BoundaryPassed (r n p o : Nat) (s t u : State) : Prop where
  frame    : u = { s with dram := u.dram, rings := u.rings, vaults := u.vaults, engines := u.engines, decodes := u.decodes
                          ctr := u.ctr, dbg := u.dbg }
  level    : (u.engine n p).level = (s.engine n p).level + 1
  rings    : ringsSameBut s u r
  counters : ∀ q, q ≠ nbeBoundaryServed n → q ≠ nbeTokenWait n → u.ctrGet q = (s.ctrAdd o 1).ctrGet q
  dram     : u.dram = t.dram

theorem boundaryPassed_of_taken {r n p o : Nat} {s t : State} (h : StepTaken r n p o s t) (index : Nat) (hwait : (s.vault n).waiting = []) :
    BoundaryPassed r n p o s t ((t.dataBegun r index).endStep n p) := by
  obtain ⟨u, rfl, hworked, hlevel⟩ := h
  have hend := stepEnded_endStep (s := (u.ctrAdd o 1).dataBegun r index) (n := n) p (by rw [← hwait, ← hworked.waiting]; rfl)
  have hbegun : EngineWorked r s (u.dataBegun r index) := hworked.trans (engineWorked_modRing ..)
  have hdram : (u.ctrAdd o 1).dram = (u.dataBegun r index).dram := rfl
  have hlast : (u.ctrAdd o 1).dataBegun r index = (u.dataBegun r index).ctrAdd o 1 := rfl
  have hengine : (u.dataBegun r index).engine = u.engine := rfl
  rw [hlast] at hend ⊢
  rw [← hengine] at hlevel
  generalize u.dataBegun r index = x at hend hbegun hlevel hdram ⊢
  generalize (x.ctrAdd o 1).endStep n p = t at hend ⊢
  have hxctr : x.ctr = s.ctr := by rw [hbegun.frame]
  refine ⟨?_, ?_, fun q hq => ?_, fun q hserved hwaits => ?_, ?_⟩
  · rw [hend.frame, hbegun.frame]
    rfl
  · rw [hend.engine]
    exact hlevel
  · rw [← hbegun.rings q hq, hend.frame]
    rfl
  · rw [hend.counters q hserved hwaits, State.ctrGet_ctrAdd, State.ctrGet_ctrAdd, State.ctrGet_congr hxctr]
  · rw [hend.frame, hdram]
    rfl

section
variable {s : State} {v p key : Nat} {j : NbeJob} {w : Work} (htoken : (s.engine v p).token = true)
  (horphan : (s.engine v p).orphan = false) (hbusy : s.engineBusy v p = true) (hrepairing : s.bankRepairing v p = false)
  (hjob : (s.vault v).activeJob = some j) (hwork : s.workOf j = some w)
include htoken horphan hbusy hrepairing hjob hwork

theorem exec_engineStepBoundary_of_clean (hchecks : s.dram.checks = []) :
    exec (.engineStepBoundary v p) s = .next (((s.takeStep v p j w).dataBegun j.ring j.index).endStep v p) := by
  have hrepair (dva n : Nat) : s.spanRepair dva n = none := if_pos (by simp [hchecks])
  have hce (dva n : Nat) : s.spanCe dva n = s := if_pos (by simp [hchecks])
  simp [exec, execEngineStepBoundary, htoken, horphan, hbusy, hrepairing, hjob, hwork, hrepair, hce]

theorem exec_engineStepBoundary_of_repair (hspan : s.spanRepair (s.stepSpan v p j w).1 (s.stepSpan v p j w).2 = some key)
    (hfree : s.repairFree key = true) : exec (.engineStepBoundary v p) s = .next (s.startRepair key) := by
  simp [exec, execEngineStepBoundary, htoken, horphan, hbusy, hrepairing, hjob, hwork, hspan, hfree]

theorem engine_takes_step (hwait : (s.vault v).waiting = []) (hchecks : s.dram.checks = []) :
    ∃ t : State, exec (.engineStepBoundary v p) s = .next t ∧
      t = { s with dram := t.dram, rings := t.rings, vaults := t.vaults, engines := t.engines, decodes := t.decodes
                   ctr := t.ctr, dbg := t.dbg } ∧
      (t.engine v p).level = (s.engine v p).level + 1 ∧ ringsSameBut s t j.ring := by
  obtain ⟨o, htaken⟩ := takeStep_taken s v p j w
  have hpassed := boundaryPassed_of_taken htaken j.index hwait
  exact ⟨_, exec_engineStepBoundary_of_clean htoken horphan hbusy hrepairing hjob hwork hchecks, hpassed.frame, hpassed.level,
    hpassed.rings⟩

theorem engine_step_starts_repair (hspan : s.spanRepair (s.stepSpan v p j w).1 (s.stepSpan v p j w).2 = some key)
    (hfree : s.repairFree key = true) :
    ∃ t : State, exec (.engineStepBoundary v p) s = .next t ∧ t = { s with vaults := t.vaults } ∧
      vaultsSameBut s t (rowVault key) ∧ (t.vault (rowVault key)).repair = some key := by
  have hstart : s.startRepair key = s.modVault (rowVault key) fun x => { x with repair := some key } := if_pos hfree
  refine ⟨_, exec_engineStepBoundary_of_repair htoken horphan hbusy hrepairing hjob hwork hspan hfree, ?_⟩
  rw [hstart, State.vault_modVault_self]
  exact ⟨rfl, fun _ hq => State.vault_modVault_ne s _ hq, rfl⟩

end

theorem workOf_matrixVector {s : State} {j : NbeJob} {c : ClauseSt} {b : Nat} {bs : List Nat} (hdecode : j.decode = false)
    (hclause : s.jobClause j = some c) (hbatches : j.batches = b :: bs) : s.workOf j = some (.mv c b) := by
  simp [State.workOf, hclause, hdecode, hbatches]

theorem matrixVector_step_is_counted {v p b : Nat} {bs : List Nat} {j : NbeJob} {c : ClauseSt} {s : State}
    (htoken : (s.engine v p).token = true) (horphan : (s.engine v p).orphan = false) (hbusy : s.engineBusy v p = true)
    (hrepairing : s.bankRepairing v p = false) (hjob : (s.vault v).activeJob = some j) (hdecode : j.decode = false)
    (hclause : s.jobClause j = some c) (hbatches : j.batches = b :: bs) (hwait : (s.vault v).waiting = []) (hchecks : s.dram.checks = []) :
    ∃ t : State, exec (.engineStepBoundary v p) s = .next t ∧
      (if (s.engine v p).level < (mvPlan (c.noun 0)).heads + (mvPlan (c.noun 0)).tiles
       then t.ctrGet (nbeStepsRd v) = s.ctrGet (nbeStepsRd v) + 1 ∧ t.ctrGet (nbeStepsWr v) = s.ctrGet (nbeStepsWr v) ∧
         t.dram = s.dram
       else t.ctrGet (nbeStepsWr v) = s.ctrGet (nbeStepsWr v) + 1 ∧ t.ctrGet (nbeStepsRd v) = s.ctrGet (nbeStepsRd v)) := by
  have hrdwr : nbeStepsRd v ≠ nbeStepsWr v := by simp [nbeStepsRd, nbeStepsWr, nbeCtr]
  have hrd : nbeStepsRd v ≠ nbeBoundaryServed v ∧ nbeStepsRd v ≠ nbeTokenWait v := by
    simp [nbeStepsRd, nbeBoundaryServed, nbeTokenWait, nbeCtr]
  have hwr : nbeStepsWr v ≠ nbeBoundaryServed v ∧ nbeStepsWr v ≠ nbeTokenWait v := by
    simp [nbeStepsWr, nbeBoundaryServed, nbeTokenWait, nbeCtr]
  refine ⟨_, exec_engineStepBoundary_of_clean htoken horphan hbusy hrepairing hjob (workOf_matrixVector hdecode hclause hbatches)
    hchecks, ?_⟩
  split
  · next hread =>
    obtain ⟨htaken, hdram⟩ := stepMv_of_read (j := j) (b := b) hread
    have hpassed := boundaryPassed_of_taken htaken j.index hwait
    refine ⟨?_, ?_, ?_⟩
    · exact (hpassed.counters _ hrd.1 hrd.2).trans (ctrGet_ctrAdd_one ..)
    · exact (hpassed.counters _ hwr.1 hwr.2).trans (countersSameBut_ctrAdd s _ 1 _ hrdwr.symm)
    · exact hpassed.dram.trans hdram
  · next hwrite =>
    have hpassed := boundaryPassed_of_taken (stepMv_of_write (j := j) (b := b) hwrite) j.index hwait
    exact ⟨(hpassed.counters _ hwr.1 hwr.2).trans (ctrGet_ctrAdd_one ..),
      (hpassed.counters _ hrd.1 hrd.2).trans (countersSameBut_ctrAdd s _ 1 _ hrdwr)⟩

theorem orphan_token_goes_back {v p : Nat} {s : State} (htoken : (s.engine v p).token = true) (horphan : (s.engine v p).orphan = true)
    (hwait : (s.vault v).waiting = []) (hidle : s.engineBusy v p = false) :
    ∃ t : State, exec (.engineStepBoundary v p) s = .next t ∧
      t = { s with vaults := t.vaults, engines := t.engines, ctr := t.ctr } ∧
      (t.engine v p).token = false ∧ (t.engine v p).orphan = false := by
  have hexec : exec (.engineStepBoundary v p) s = .next (s.endStep v p) := by simp [exec, execEngineStepBoundary, htoken, horphan]
  have hend := stepEnded_endStep p hwait
  exact ⟨_, hexec, hend.frame, hend.idle hidle, by rw [hend.engine]⟩

/-! ### An engine's fault -/

/-- An engine marked as failed. -/
def engineMarked (s : State) (v p : Nat) : State := s.setEngine v p { s.engine v p with dead := true, token := false, orphan := false }
/-- A failed engine marked, reported, and noted for the next start. -/
def engineFailed (s : State) (v p : Nat) : State :=
  ((engineMarked s v p).event .engineFault (some 0xE) 2 v none stNbeFault [BitVec.ofNat 64 (128 * v + p)]).finding 6 v p 0

theorem engineMarked_frame (s : State) (v p : Nat) : engineMarked s v p = { s with engines := (engineMarked s v p).engines } := rfl

theorem reportsOnly_engineFailed (s : State) (v p : Nat) : (engineMarked s v p).ReportsOnly (engineFailed s v p) :=
  ((State.ReportsOnly.refl _).raise _).finding ..

theorem engine_engineFailed (s : State) (v p : Nat) :
    (engineFailed s v p).engine v p = { s.engine v p with dead := true, token := false, orphan := false } := by
  obtain ⟨es, aw, fs, h⟩ := reportsOnly_engineFailed s v p
  rw [h]
  exact State.engine_setEngine_self ..

theorem vault_engineFailed (s : State) (v p : Nat) : (engineFailed s v p).vault = s.vault := (reportsOnly_engineFailed s v p).vault

theorem rings_engineFailed (s : State) (v p : Nat) : (engineFailed s v p).rings = s.rings := by
  obtain ⟨es, aw, fs, h⟩ := reportsOnly_engineFailed s v p
  rw [h, engineMarked_frame]

theorem exec_engineFault_of_idle {v p : Nat} {s : State} (hidle : s.engineBusy v p = false) :
    exec (.engineFault v p) s = .next (((engineFailed s v p).grantTokens v).serveFree v) := by
  rw [exec, execEngineFault, hidle]
  cases (s.vault v).activeJob <;> rfl

theorem exec_engineFault_of_busy {v p : Nat} {j : NbeJob} {s : State} (hbusy : s.engineBusy v p = true)
    (hjob : (s.vault v).activeJob = some j) : exec (.engineFault v p) s = .next ((((engineFailed s v p).failClause j.ring j.index
      { status := 0x702, operand := 7, detail := 0 }).grantTokens v).serveFree v) := by
  rw [exec, execEngineFault, hjob]
  dsimp only
  rw [hbusy]
  rfl

theorem idle_engine_fault_is_reported {v p : Nat} {s : State} (hidle : s.engineBusy v p = false) (hwait : (s.vault v).waiting = []) :
    ∃ t : State, exec (.engineFault v p) s = .next t ∧
      t = { s with engines := t.engines, vaults := t.vaults, boot := { s.boot with events := t.boot.events }
                   mgt := { s.mgt with awaiting := t.mgt.awaiting, findings := t.mgt.findings } } ∧
      t.engine v p = { s.engine v p with dead := true, token := false, orphan := false } ∧
      t.mgt.findings.length = s.mgt.findings.length + 1 ∧ (t.boot.events.head?).map (·.kind) = some .engineFault := by
  have hgranted := tokensGranted_grantTokens (engineFailed s v p) v
  have hengine := engine_engineFailed s v p
  have hdead : (engineFailed s v p).engineBusy v p = false := State.engineBusy_of_dead (by rw [hengine])
  have hfindings : (engineFailed s v p).mgt.findings.length = s.mgt.findings.length + 1 := List.length_append
  have hkind : ((engineFailed s v p).boot.events.head?).map (·.kind) = some .engineFault := State.kind_head_event ..
  obtain ⟨es, aw, fs, hreports⟩ := reportsOnly_engineFailed s v p
  have hvault := vault_engineFailed s v p
  refine ⟨_, exec_engineFault_of_idle hidle, ?_⟩
  generalize engineFailed s v p = u at *
  have hserved : (u.grantTokens v).serveFree v = u.grantTokens v := by
    refine State.serveFree_of_waiting_nil ?_
    rw [hgranted.vault, hvault]
    exact hwait
  rw [hserved]
  generalize u.grantTokens v = t at hgranted ⊢
  refine ⟨?_, (hgranted.idle p hdead).trans hengine, ?_, ?_⟩
  · rw [hgranted.frame, hreports, engineMarked_frame]
  · rw [← hfindings, hgranted.frame]
  · rw [← hkind, hgranted.frame]

theorem busy_engine_fault_fails_clause {v p : Nat} {j : NbeJob} {s : State} (hbusy : s.engineBusy v p = true)
    (hjob : (s.vault v).activeJob = some j) :
    ∃ (u t : State), exec (.engineFault v p) s = .next t ∧ u.rings = s.rings ∧
      t = ((u.failClause j.ring j.index { status := 0x702, operand := 7, detail := 0 }).grantTokens v).serveFree v ∧
      u.engine v p = { s.engine v p with dead := true, token := false, orphan := false } :=
  ⟨engineFailed s v p, _, exec_engineFault_of_busy hbusy hjob, rings_engineFailed s v p, rfl, engine_engineFailed s v p⟩

/-- Settles O20: each clause is one case of a step's boundary or of an engine's fault; that the step of a clause that has ended gives
its token back and leaves nothing is log 56's. -/
theorem nearBankEnginesStepAndFault : Obligations.NearBankEnginesStepAndFault := by
  unfold Obligations.NearBankEnginesStepAndFault
  exact ⟨fun _ _ _ _ _ => engine_takes_step, fun _ _ _ _ _ _ _ => matrixVector_step_is_counted,
    fun _ _ _ _ _ _ => engine_step_starts_repair, fun _ _ _ => orphan_token_goes_back, fun _ _ _ => idle_engine_fault_is_reported,
    fun _ _ _ _ => busy_engine_fault_fails_clause⟩

end Sys2Proof.Proofs
end

section
/-! PROOFS. O45: the brake and the link hold, the sharing of a cap, the power estimate and what follows from it, the calibration of
the weights, and path resistances (12 R405, R406, R411 to R417; 06 R202). -/

open Sys2Proof Sys2Proof.Machine

namespace Sys2Proof.Proofs

/-! ### Sharing the cap -/

theorem prioOrder_lt (prio : Nat) : ∀ c ∈ prioOrder prio, c < 3 := by
  have hrows : ∀ l ∈ [[0, 1, 2], [0, 2, 1], [1, 0, 2], [1, 2, 0], [2, 0, 1], [2, 1, 0]], ∀ c ∈ l, c < 3 := by decide
  unfold prioOrder
  by_cases h : prio < 6
  · rw [List.getD_eq_getElem _ _ h]
    exact hrows _ (List.getElem_mem _)
  · rw [List.getD_eq_default _ _ (Nat.le_of_not_lt h)]
    exact hrows _ (by decide)

/-- Three allocations and what is left give the whole away. -/
def GivesAway (whole : Int) (x : List Int × Int) : Prop := ∃ a b c, x.1 = [a, b, c] ∧ a + b + c + x.2 = whole

/-- What a class takes of the rest joins its allocation. -/
theorem GivesAway.take {whole : Int} {x : List Int × Int} (h : GivesAway whole x) {c : Nat} (hc : c < 3) (extra : Int) :
    GivesAway whole (setAt x.1 c (x.1.getD c 0 + extra), x.2 - extra) := by
  obtain ⟨a0, a1, a2, hlist, hsum⟩ := h
  rw [hlist]
  match c, hc with
  | 0, _ => exact ⟨a0 + extra, a1, a2, rfl, by linarith only [hsum]⟩
  | 1, _ => exact ⟨a0, a1 + extra, a2, rfl, by linarith only [hsum]⟩
  | 2, _ => exact ⟨a0, a1, a2 + extra, rfl, by linarith only [hsum]⟩

theorem sharing_gives_whole (cap vaux prio : Nat) (d : Demand) :
    (sharing cap vaux prio d).2 = (cap * 1000 : Nat) - (vaux : Int) - (cap * 20 : Nat) ∧
    (sharing cap vaux prio d).1.1 + (sharing cap vaux prio d).1.2.1 + (sharing cap vaux prio d).1.2.2 = (sharing cap vaux prio d).2 := by
  unfold sharing
  extract_lets whole base r
  have hfloors : GivesAway whole (base, whole - 220000) := ⟨40000, 60000, 120000, rfl, by ring⟩
  have hr : GivesAway whole r := List.foldlRecOn (motive := GivesAway whole) _ _ hfloors fun x hx c hc => hx.take (prioOrder_lt prio c hc) _
  clear_value r
  obtain ⟨a, b, c, hlist, hsum⟩ := hr
  refine ⟨rfl, ?_⟩
  rw [hlist, ← hsum]
  exact (add_assoc ..).symm

/-! ### Limits and voltages -/

theorem liveLimit_le (p : Pwr) (e : Estimate) (alloc : Int) :
    liveLimit p e alloc ≤ p.limit.toNat ∧ liveLimit p e alloc ≤ 32768 ∧ liveLimit p e alloc ≤ railEngines e.vddBase := by
  unfold liveLimit Pwr.engineCeiling
  omega

/-- t is s but for the supply domains, cores, vaults and engines. -/
def UnitsOnly (s t : State) : Prop := t = { s with doms := t.doms, cores := t.cores, vaults := t.vaults, engines := t.engines }

theorem UnitsOnly.refl (s : State) : UnitsOnly s s := rfl

theorem UnitsOnly.trans {s t u : State} (h : UnitsOnly s t) (g : UnitsOnly t u) : UnitsOnly s u := Eq.trans g (by rw [h])

theorem UnitsOnly.ite {s t u : State} {c : Prop} {_ : Decidable c} (ht : UnitsOnly s t) (hu : UnitsOnly s u) :
    UnitsOnly s (if c then t else u) := by
  split <;> assumption

theorem UnitsOnly.foldl {α : Type} {f : State → α → State} (hf : ∀ t a, UnitsOnly t (f t a)) (l : List α) (s : State) :
    UnitsOnly s (l.foldl f s) :=
  List.foldlRecOn (motive := fun t : State => UnitsOnly s t) l f (.refl s) fun t ht a _ => ht.trans (hf t a)

theorem unitsOnly_modDom (s : State) (d : Nat) (f : DomSt → DomSt) : UnitsOnly s (s.modDom d f) := rfl
theorem unitsOnly_modCore (s : State) (n : Nat) (f : CoreSt → CoreSt) : UnitsOnly s (s.modCore n f) := rfl
theorem unitsOnly_modVault (s : State) (n : Nat) (f : VaultSt → VaultSt) : UnitsOnly s (s.modVault n f) := rfl

theorem unitsOnly_grantTokens (s : State) (n : Nat) : UnitsOnly s (s.grantTokens n) := by
  have hgranted := tokensGranted_grantTokens s n
  generalize s.grantTokens n = t at hgranted ⊢
  rw [hgranted.frame]
  rfl

/-- A retune that is due is marked at its core and its vault (R25). -/
theorem unitsOnly_retuneTest (s : State) (n : Nat) : UnitsOnly s (s.retuneTest n) := by
  have hport (c : Prop) [Decidable c] (f : CoreSt → CoreSt) : UnitsOnly s (if c then s.modCore n f else s) :=
    .ite (unitsOnly_modCore ..) (.refl s)
  exact .ite (hport ..) ((hport ..).trans (unitsOnly_modVault ..))

theorem unitsOnly_setVoltages (s : State) (x : PowerInput) : UnitsOnly s (s.setVoltages x) := by
  unfold State.setVoltages
  extract_lets -underBinder s0 s1 s15 s2
  have h0 : UnitsOnly s s0 := .foldl (fun t d => unitsOnly_modDom t d _) _ s
  have h1 : UnitsOnly s0 s1 := .foldl (fun t n => by
    split
    · split
      · exact unitsOnly_modDom t n _
      · exact .refl t
    · exact .refl t) _ s0
  have h15 : UnitsOnly s1 s15 := .foldl (fun t n => .ite (unitsOnly_modDom t n _) (.refl t)) _ s1
  have h2 : UnitsOnly s15 s2 := .foldl (fun t c => .ite (.refl t) (unitsOnly_modDom t _ _)) _ s15
  exact (((h0.trans h1).trans h15).trans h2).trans (.foldl unitsOnly_retuneTest _ s2)

theorem unitsOnly_divideTokens (s : State) : UnitsOnly s s.divideTokens := by
  unfold State.divideTokens
  extract_lets busy live each rest s1 s2
  have h1 : UnitsOnly s s1 := .foldl (fun t (e : Nat × VaultSt) => unitsOnly_modVault t e.1 _) _ s
  have h2 : UnitsOnly s1 s2 := .foldl (fun t (e : Nat × Nat) => unitsOnly_modVault t e.1 _) _ s1
  exact (h1.trans h2).trans (.foldl unitsOnly_grantTokens _ s2)

/-! ### The estimate -/

/-- The cycles that domains were held are counted, and nothing else changes. -/
theorem heldCycles_frame (l : List (Nat × Nat)) (s : State) : ∃ ctr,
    l.foldl (fun t (e : Nat × Nat) => if e.1 < 256 then t.ctrAdd (pwrDom e.1 0x20) e.2 else t) s = { s with ctr := ctr } := by
  refine List.foldlRecOn (motive := fun t : State => ∃ ctr, t = { s with ctr := ctr }) _ _ ⟨_, rfl⟩ ?_
  rintro _ ⟨ctr, rfl⟩ e -
  split <;> exact ⟨_, rfl⟩

theorem powerEstimate_shares (x : PowerInput) (s : State) : ∃ t : State, exec (.powerEstimate x) s = .next t ∧
    t = { s with pwr := t.pwr, thm := t.thm, doms := t.doms, cores := t.cores, vaults := t.vaults, engines := t.engines, ctr := t.ctr } ∧
    (x.held = [] → t.ctr = s.ctr) ∧ t.pwr.estLink = (s.estimate x).link ∧ t.pwr.estMemory = (s.estimate x).memory ∧
    t.pwr.estCompute = (s.estimate x).compute ∧ t.pwr.estVaux = x.vaux ∧ t.pwr.demLink = x.demLink ∧
    (s.pwr.linkHold = false → ∃ r : Int × Int × Int,
      r = (sharing s.pwr.capEff x.vaux s.pwr.prio.toNat (s.demand x (s.estimate x))).1 ∧
      t.pwr.allocLink = r.1.toNat ∧ t.pwr.allocMemory = r.2.1.toNat ∧ t.pwr.allocCompute = r.2.2.toNat) ∧
    t.pwr.budget = ((s.pwr.capEff * 1000 : Nat) - (x.vaux : Int) - (s.pwr.capEff * 20 : Nat)).toNat ∧
    t.pwr.live.toNat ≤ s.pwr.limit.toNat ∧ t.pwr.live.toNat ≤ 32768 ∧ t.pwr.live.toNat ≤ railEngines (s.estimate x).vddBase := by
  have hnext : ∃ t, execPowerEstimate x s = .next t := ⟨_, rfl⟩
  obtain ⟨t, ht⟩ := hnext
  refine ⟨t, ht, ?_⟩
  unfold execPowerEstimate at ht
  extract_lets e d p r a live busy memRail s1 pwr s2 s3 at ht
  have ht := Host.Outcome.next.inj ht
  have hctr : x.held = [] → s3.ctr = s.ctr := fun hheld => by
    unfold s3
    rw [hheld]
    rfl
  obtain ⟨ctr, (h3 : s3 = { s2 with ctr := ctr })⟩ := heldCycles_frame x.held s2
  have hunits : UnitsOnly s3 (s3.setVoltages x).divideTokens := (unitsOnly_setVoltages s3 x).trans (unitsOnly_divideTokens _)
  clear_value s3
  subst h3
  rw [ht] at hunits
  have hpwr : t.pwr = s2.pwr := by rw [hunits]
  have htctr : t.ctr = ctr := by rw [hunits]
  have hbudget : r.2 = (s.pwr.capEff * 1000 : Nat) - (x.vaux : Int) - (s.pwr.capEff * 20 : Nat) := by
    unfold r
    split <;> rfl
  have hlive : t.pwr.live.toNat ≤ live := by
    have hmod : s2.pwr.live.toNat ≤ min live s1.thm.flowLive := (BitVec.toNat_ofNat ..).trans_le (Nat.mod_le ..)
    rw [hpwr]
    exact hmod.trans (Nat.min_le_left ..)
  obtain ⟨hlimit, hceiling, hrail⟩ := liveLimit_le p e r.1.2.1
  refine ⟨?_, fun hheld => htctr.trans (hctr hheld), congrArg Pwr.estLink hpwr, congrArg Pwr.estMemory hpwr,
    congrArg Pwr.estCompute hpwr, congrArg Pwr.estVaux hpwr, congrArg Pwr.demLink hpwr, fun hhold => ⟨r.1, ?_,
      congrArg Pwr.allocLink hpwr, congrArg Pwr.allocMemory hpwr, congrArg Pwr.allocCompute hpwr⟩,
    (congrArg Pwr.budget hpwr).trans (congrArg Int.toNat hbudget), hlive.trans hlimit, hlive.trans hceiling, hlive.trans hrail⟩
  · rw [hunits]
    rfl
  · exact congrArg Prod.fst (if_neg (by rw [hhold]; exact Bool.false_ne_true))

/-! ### Calibration -/

/-- A class with energy has a weight within 25 % of the factory's. -/
theorem scaleWeight_bounds {e : Nat} (he : e ≠ 0) (w m : Nat) : 750000 ≤ scaleWeight w e m ∧ scaleWeight w e m ≤ 1250000 := by
  unfold scaleWeight
  rw [if_neg he]
  omega

theorem weightCalibration_adjusts (e m : List Nat) (s : State) : ∃ t : State, exec (.weightCalibration e m) s = .next t ∧
    t = { s with pwr := { s.pwr with weights := t.pwr.weights, calRuns := t.pwr.calRuns, calOk := t.pwr.calOk } } ∧
    (∀ i, i < 3 → e.getD i 0 ≠ 0 → 750000 ≤ t.pwr.weights.getD i 0 ∧ t.pwr.weights.getD i 0 ≤ 1250000) ∧
    (t.pwr.calOk = true ↔ s.pwr.calOk = true ∨ 9 ≤ s.pwr.calRuns ∧
      ∀ i, i < 3 → 50 * (max (e.getD i 0) (m.getD i 0) - min (e.getD i 0) (m.getD i 0)) ≤ m.getD i 0) := by
  have hnext : ∃ t, execWeightCalibration e m s = .next t := ⟨_, rfl⟩
  obtain ⟨t, ht⟩ := hnext
  refine ⟨t, ht, ?_⟩
  unfold execWeightCalibration at ht
  extract_lets near runs at ht
  obtain rfl := Host.Outcome.next.inj ht
  refine ⟨rfl, fun i hi he => ?_, ?_⟩
  · dsimp only
    rw [List.getD_eq_getElem _ _ (by simpa using hi), List.getElem_map, List.getElem_range]
    exact scaleWeight_bounds he _ _
  · have hnear : (List.range 3).all near = true ↔
        ∀ i, i < 3 → 50 * (max (e.getD i 0) (m.getD i 0) - min (e.getD i 0) (m.getD i 0)) ≤ m.getD i 0 := by
      simp only [List.all_eq_true, List.mem_range, near, decide_eq_true_eq]
    have hruns : 10 ≤ runs ↔ 9 ≤ s.pwr.calRuns ∧ (List.range 3).all near = true := by
      unfold runs
      split
      · next h => exact ⟨fun hr => ⟨by omega, h⟩, fun hr => by omega⟩
      · next h => exact ⟨fun hr => by omega, fun hr => absurd hr.2 h⟩
    rw [Bool.or_eq_true, decide_eq_true_eq, hruns, hnear]

/-! ### Path resistances -/

/-- A measurement joins a filter that is not yet full. -/
theorem pathResistance_joins {d r ma : Nat} {t8 : Int} {s : State} (hma : domMaxMa d ≤ 4 * ma) (hpower : (s.dom d).power ≠ 3)
    (hlen : (s.dom d).pathSum.length < 999) : exec (.pathResistanceCheck d r ma t8) s
      = .next (s.setDom d { s.dom d with pathSum := at60 r t8 :: (s.dom d).pathSum }) := by
  have hcond : ¬ (4 * ma < domMaxMa d ∨ (s.dom d).power = 3) := not_or.mpr ⟨Nat.not_lt.mpr hma, hpower⟩
  have hwin : (at60 r t8 :: (s.dom d).pathSum).take 1000 = at60 r t8 :: (s.dom d).pathSum :=
    List.take_of_length_le (by rw [List.length_cons]; omega)
  rw [exec, execPathResistanceCheck, if_neg hcond]
  dsimp only
  rw [hwin]
  exact if_pos (by rw [List.length_cons]; omega)

/-- The domain with a new filtered value. -/
def pathFiltered (s : State) (d f : Nat) (win : List Nat) : State :=
  s.setDom d { s.dom d with pathSum := win, filtered := BitVec.ofNat 16 f }

/-- A full filter whose value calls for more derating has it act. -/
theorem exec_pathResistanceCheck_of_rise {d r ma f k : Nat} {t8 : Int} {s : State} (hma : domMaxMa d ≤ 4 * ma)
    (hpower : (s.dom d).power ≠ 3) (hlen : (s.dom d).pathSum.length = 1000)
    (hf : f = sumOf (at60 r t8 :: (s.dom d).pathSum.take 999) / 1000) (hk : k = pathStep (s.dom d).baseline.toNat f)
    (hderate : (s.dom d).derate.toNat < k) : exec (.pathResistanceCheck d r ma t8) s
      = .next ((pathFiltered s d f (at60 r t8 :: (s.dom d).pathSum.take 999)).pathAct d t8 k).issueAll := by
  have hcond : ¬ (4 * ma < domMaxMa d ∨ (s.dom d).power = 3) := not_or.mpr ⟨Nat.not_lt.mpr hma, hpower⟩
  have hfull : ¬ (at60 r t8 :: (s.dom d).pathSum.take 999).length < 1000 := by simp [hlen]
  rw [exec, execPathResistanceCheck, if_neg hcond]
  dsimp only
  rw [List.take_succ_cons, if_neg hfull, ← hf]
  simp only [hlen, lt_irrefl, decide_false, Bool.false_eq_true, and_false, if_false, BitVec.ofNat_toNat, BitVec.setWidth_eq]
  rw [← hk, if_pos hderate]
  rfl

/-- A derating of less than a failed regulator is reported, and acts in the domain and in the boot store. -/
theorem pathAct_of_lt {k : Nat} (hk : k < 3) (d : Nat) (t8 : Int) (s : State) : s.pathAct d t8 k
    = (s.event .crackedPath (some 8) 3 d none 0 [BitVec.ofNat 64 (domPath (s.dom d)), BitVec.ofInt 64 t8]).setDerate d k :=
  if_neg (Nat.ne_of_lt hk)

theorem setDerate_frame (s : State) (d k : Nat) : s.setDerate d k = { s with
    doms := (s.setDerate d k).doms, boot := { s.boot with derates := (s.setDerate d k).boot.derates } } := rfl

theorem dom_setDerate_self (s : State) (d k : Nat) : (s.setDerate d k).dom d = { s.dom d with derate := BitVec.ofNat 2 k } :=
  State.dom_modDom_self s d (fun x => { x with derate := BitVec.ofNat 2 k })

theorem domsSameBut_setDerate (s : State) (d k : Nat) : domsSameBut s (s.setDerate d k) d := fun _ hq => Tbl.get_put_ne _ _ _ hq

theorem derates_setDerate (s : State) (d k : Nat) : Tbl.get 0 (s.setDerate d k).boot.derates d = BitVec.ofNat 2 k :=
  Tbl.get_put_self ..

theorem pathResistance_derates {d r ma f k : Nat} {t8 : Int} {s : State} (hma : domMaxMa d ≤ 4 * ma)
    (hpower : (s.dom d).power ≠ 3) (hlen : (s.dom d).pathSum.length = 1000)
    (hf : f = sumOf (at60 r t8 :: (s.dom d).pathSum.take 999) / 1000) (hk : k = pathStep (s.dom d).baseline.toNat f)
    (hderate : (s.dom d).derate.toNat < k) (hk3 : k < 3) :
    ∃ u : State, exec (.pathResistanceCheck d r ma t8) s = .next u.issueAll ∧
      u.dom d = { s.dom d with pathSum := at60 r t8 :: (s.dom d).pathSum.take 999, filtered := BitVec.ofNat 16 f
                               derate := BitVec.ofNat 2 k } ∧ domsSameBut s u d ∧
      Tbl.get 0 u.boot.derates d = BitVec.ofNat 2 k ∧ (u.boot.events.head?).map (·.kind) = some .crackedPath ∧
      u = { s with doms := u.doms, boot := { s.boot with events := u.boot.events, derates := u.boot.derates }
                   mgt := { s.mgt with awaiting := u.mgt.awaiting } } := by
  refine ⟨_, exec_pathResistanceCheck_of_rise hma hpower hlen hf hk hderate, ?_⟩
  rw [pathAct_of_lt hk3]
  generalize at60 r t8 :: (s.dom d).pathSum.take 999 = win
  have hfiltered : (pathFiltered s d f win).dom d = { s.dom d with pathSum := win, filtered := BitVec.ofNat 16 f } :=
    State.dom_setDom_self ..
  have hothers : domsSameBut s (pathFiltered s d f win) d := domsSameBut_setDom s d _
  have hframe : pathFiltered s d f win = { s with doms := (pathFiltered s d f win).doms } := rfl
  generalize pathFiltered s d f win = v at hfiltered hothers hframe ⊢
  have hkind := State.kind_head_event v .crackedPath (some 8) 3 d none 0 [BitVec.ofNat 64 (domPath (v.dom d)), BitVec.ofInt 64 t8]
  have hevent : v.EventsOnly (v.event .crackedPath (some 8) 3 d none 0 [BitVec.ofNat 64 (domPath (v.dom d)), BitVec.ofInt 64 t8]) :=
    State.raise_eventsOnly ..
  generalize State.event v .crackedPath _ _ _ _ _ _ = w at hkind hevent ⊢
  obtain ⟨es, aw, rfl⟩ := hevent
  refine ⟨?_, fun q hq => ?_, derates_setDerate .., hkind, ?_⟩
  · rw [dom_setDerate_self]
    exact congrArg (fun x : DomSt => { x with derate := BitVec.ofNat 2 k }) hfiltered
  · exact (domsSameBut_setDerate _ d k q hq).trans (hothers q hq)
  · rw [setDerate_frame, hframe]

/-- Settles O45: each clause is one case of the brake, the hold, the sharing, the estimate, the calibration or a path resistance; that
the filter acts from 1,000 intervals on, the integer arithmetic, and that CAL_OK stays set are log 39's. -/
theorem powerIsShared : Obligations.PowerIsShared := by
  unfold Obligations.PowerIsShared
  exact ⟨fun _ _ => rfl, fun _ => rfl, sharing_gives_whole, powerEstimate_shares, weightCalibration_adjusts,
    fun _ _ _ _ _ h => if_pos h, fun _ _ _ _ _ => pathResistance_joins, fun _ _ _ _ _ _ _ => pathResistance_derates⟩

end Sys2Proof.Proofs
end

section
/-! PROOFS. O19: near-bank work in the vaults: its start, the end of a batch's staging, the end of its merge, and how the clause
settles that its last vault leaves (06 R191, R192, R195, R200; 07 R236, R238). -/

open Sys2Proof Sys2Proof.Machine

namespace Sys2Proof.Proofs

/-! ### The jobs of a vault -/

/-- The clause that a job works for. -/
def jobKey (j : NbeJob) : Nat × Nat := (j.ring, j.index)

theorem jobKey_eq_iff {j : NbeJob} {r i : Nat} : jobKey j = (r, i) ↔ j.ring = r ∧ j.index = i := Prod.mk_inj

/-- A change of one clause's jobs in a vault keeps the clauses of all jobs. -/
theorem jobKeys_modJob (v : VaultSt) (r i : Nat) {f : NbeJob → NbeJob} (hf : ∀ x, jobKey (f x) = jobKey x) :
    (v.modJob r i f).jobs.map jobKey = v.jobs.map jobKey := by
  rw [VaultSt.modJob, List.map_map]
  refine List.map_congr_left fun x _ => ?_
  rw [Function.comp_apply]
  split
  · exact hf x
  · rfl

theorem jobKeys_beginStaging (v : VaultSt) : v.beginStaging.jobs.map jobKey = v.jobs.map jobKey := by
  unfold VaultSt.beginStaging
  split
  · split
    · exact jobKeys_modJob _ _ _ fun _ => rfl
    · rfl
  · rfl

/-- The jobs of a clause whose jobs were changed are the changed ones. -/
theorem mem_modJob {v : VaultSt} {r i : Nat} {f : NbeJob → NbeJob} {j : NbeJob}
    (hj : j ∈ (v.modJob r i f).jobs) (hkey : jobKey j = (r, i)) : ∃ x, j = f x := by
  obtain ⟨x, -, rfl⟩ := List.mem_map.mp hj
  by_cases hx : x.ring = r ∧ x.index = i
  · exact ⟨x, if_pos hx⟩
  · rw [if_neg hx] at hkey
    exact absurd (jobKey_eq_iff.mp hkey) hx

/-- No job of a clause that has finished in a vault is staged there again. -/
theorem mem_beginStaging_of_finished {v : VaultSt} {r i : Nat} (hdone : ∀ x ∈ v.jobs, jobKey x = (r, i) → 4 ≤ x.stage) {j : NbeJob}
    (hj : j ∈ v.beginStaging.jobs) (hkey : jobKey j = (r, i)) : j ∈ v.jobs := by
  unfold VaultSt.beginStaging at hj
  split at hj
  · next a ha =>
    split at hj
    · next hstage =>
      obtain ⟨x, hx, rfl⟩ := List.mem_map.mp hj
      by_cases hxa : x.ring = a.ring ∧ x.index = a.index
      · rw [if_pos hxa] at hkey
        have hak : jobKey a = (r, i) := (jobKey_eq_iff.mpr ⟨hxa.1.symm, hxa.2.symm⟩).trans hkey
        have hfinished := hdone a (List.mem_of_find?_eq_some ha) hak
        omega
      · rwa [if_neg hxa]
    · exact hj
  · exact hj

/-- While the active job's clause is at a stage before its end, it stays the active job's. -/
theorem activeJob_modJob {v : VaultSt} {j : NbeJob} (h : v.activeJob = some j) {f : NbeJob → NbeJob} (hf : ∀ x, (f x).stage < 4) :
    ∃ x, (v.modJob j.ring j.index f).activeJob = some (f x) ∧ jobKey x = jobKey j := by
  unfold VaultSt.activeJob VaultSt.modJob at *
  dsimp only
  generalize v.jobs = l at h
  induction l with
  | nil => exact absurd h (by simp)
  | cons a l ih =>
    by_cases hkey : a.ring = j.ring ∧ a.index = j.index
    · refine ⟨a, ?_, jobKey_eq_iff.mpr hkey⟩
      rw [List.map_cons, if_pos hkey, List.find?_cons]
      simp [hf a]
    · rw [List.map_cons, if_neg hkey]
      by_cases hstage : a.stage < 4
      · have ha : some a = some j := by
          rw [← h, List.find?_cons]
          simp [hstage]
        obtain rfl := Option.some.inj ha
        exact absurd ⟨rfl, rfl⟩ hkey
      · rw [List.find?_cons] at h ⊢
        simp only [hstage, decide_false] at h ⊢
        exact ih h

/-! ### The start (R191, R192) -/

theorem pairwise_insSet {l : List Nat} (h : l.Pairwise (· < ·)) (k : Nat) : (insSet k l).Pairwise (· < ·) := by
  induction l with
  | nil => exact List.pairwise_singleton ..
  | cons j l ih =>
    obtain ⟨hj, hl⟩ := List.pairwise_cons.mp h
    unfold insSet
    split
    · next hlt =>
      refine List.pairwise_cons.mpr ⟨fun x hx => ?_, h⟩
      rcases List.mem_cons.mp hx with rfl | hx
      · exact hlt
      · exact hlt.trans (hj x hx)
    · split
      · exact h
      · refine List.pairwise_cons.mpr ⟨fun x hx => ?_, ih hl⟩
        rcases (mem_insSet ..).mp hx with rfl | hx
        · omega
        · exact hj x hx

/-- Each vault of a clause's weights is named once. -/
theorem nodup_mvVaults (s : State) (w : Noun) (q : MvPlan) : (s.mvVaults w q).Nodup := by
  have h : (s.mvVaults w q).Pairwise (· < ·) :=
    List.foldlRecOn (motive := List.Pairwise (· < ·)) _ _ .nil fun _ hl _ _ => pairwise_insSet hl _
  exact h.imp Nat.ne_of_lt

/-- Vaults changed one after another: each of the list once, no other. -/
theorem foldl_modVault {l : List Nat} (hl : l.Nodup) (g : Nat → VaultSt → VaultSt) (s : State) :
    l.foldl (fun t n => t.modVault n (g n)) s = { s with vaults := (l.foldl (fun t n => t.modVault n (g n)) s).vaults } ∧
    ∀ m, (l.foldl (fun t n => t.modVault n (g n)) s).vault m = if m ∈ l then g m (s.vault m) else s.vault m := by
  induction l generalizing s with
  | nil => exact ⟨rfl, fun m => (if_neg (by simp)).symm⟩
  | cons n l ih =>
    obtain ⟨hn, hl⟩ := List.nodup_cons.mp hl
    obtain ⟨hframe, hvault⟩ := ih hl (s.modVault n (g n))
    refine ⟨by rw [List.foldl_cons, hframe]; rfl, fun m => ?_⟩
    rw [List.foldl_cons, hvault, State.vault_modVault]
    by_cases hm : m = n
    · subst hm
      simp [hn]
    · simp [hm]

/-- A change of the clause that keeps its index. -/
theorem clauseOf_modRing {s : State} {r i : Nat} {c : ClauseSt} (h : (s.ring r).clauseOf i = some c) {f : ClauseSt → ClauseSt}
    (hf : ∀ x, (f x).index = x.index) : ((s.modRing r (fun R => R.modClause i f)).ring r).clauseOf i = some (f c) := by
  rw [State.ring_modRing_self]
  exact clauseOf_modClause f hf h

/-- A clause whose work is under way in vaults does not settle. -/
theorem settleClause_of_vaults {s : State} {r index : Nat} {c : ClauseSt} (h : (s.ring r).clauseOf index = some c)
    (hvaults : c.vaults ≠ []) : s.settleClause r index = s := by
  rw [State.settleClause, h]
  exact if_neg (by simp [hvaults])

theorem workDone_of_vaults {s : State} {r index : Nat} {c : ClauseSt} {f : ClauseSt → ClauseSt}
    (hc : (s.ring r).clauseOf index = some c) (hindex : ∀ x, (f x).index = x.index) (hvaults : (f c).vaults ≠ []) :
    s.workDone r index f = { s with rings := (s.workDone r index f).rings } ∧
      (((s.workDone r index f).ring r).clauseOf index).map (·.vaults) = some (f c).vaults := by
  unfold State.workDone
  generalize hg : (fun c : ClauseSt => ({ f c with worked := true, begun := true, verdict := _ } : ClauseSt)) = g
  have hgc : (g c).vaults = (f c).vaults := by rw [← hg]
  have hclause := clauseOf_modRing hc (f := g) fun x => by rw [← hg]; exact hindex x
  rw [settleClause_of_vaults hclause (by rw [hgc]; exact hvaults), hclause, Option.map_some, hgc]
  exact ⟨rfl, rfl⟩

/-- A vault with one more job at the end of its queue. -/
def queued (v : VaultSt) (job : NbeJob) : VaultSt := ({ v with jobs := v.jobs ++ [job] } : VaultSt).beginStaging

theorem jobKeys_queued (v : VaultSt) (job : NbeJob) : (queued v job).jobs.map jobKey = v.jobs.map jobKey ++ [jobKey job] := by
  rw [queued, jobKeys_beginStaging, List.map_append, List.map_singleton]

/-- A clause whose vaults stay brings each of them one job. -/
theorem startNearBank_of_stay {s : State} {r : Nat} {c : ClauseSt}
    (hstay : (s.mvVaults (c.noun 0) (mvPlan (c.noun 0))).any s.vaultEvacuating = false) :
    ∃ job : Nat → NbeJob, (∀ n, jobKey (job n) = (r, c.index)) ∧ s.startNearBank r c
      = ((s.mvVaults (c.noun 0) (mvPlan (c.noun 0))).foldl (fun t n => t.modVault n (fun v => queued v (job n))) s).workDone r c.index
          (fun y => { y with vaults := s.mvVaults (c.noun 0) (mvPlan (c.noun 0)) }) :=
  ⟨_, fun _ => rfl, if_neg (by rw [hstay]; exact Bool.false_ne_true)⟩

theorem matrixVector_is_queued {r k : Nat} {h : HostView} {c : ClauseSt} {s : State} (hc : s.startedClause r k verbNearBank = some c)
    (hturn : s.engineTurn r c = true)
    (hfree : ((s.seeHost h).mvVaults (c.noun 0) (mvPlan (c.noun 0))).any s.vaultEvacuating = false)
    (hsome : (s.seeHost h).mvVaults (c.noun 0) (mvPlan (c.noun 0)) ≠ []) :
    ∃ t : State, exec (.nearBankMatrixVector r k h) s = .next t ∧
      t = { s with host := (s.seeHost h).host, rings := t.rings, vaults := t.vaults } ∧
      (∀ n ∈ (s.seeHost h).mvVaults (c.noun 0) (mvPlan (c.noun 0)),
        (t.vault n).jobs.length = (s.vault n).jobs.length + 1 ∧
        ((t.vault n).jobs.getLast?).map (fun j => (j.ring, j.index)) = some (r, c.index)) ∧
      (∀ n, n ∉ (s.seeHost h).mvVaults (c.noun 0) (mvPlan (c.noun 0)) → t.vault n = s.vault n) ∧
      ((t.ring r).clauseOf c.index).map (·.vaults) = some ((s.seeHost h).mvVaults (c.noun 0) (mvPlan (c.noun 0))) := by
  have hexec : exec (.nearBankMatrixVector r k h) s = .next ((s.seeHost h).startNearBank r c) := by
    rw [exec, execNearBankMatrixVector, hc]
    exact congrArg Host.Outcome.next (if_pos hturn)
  refine ⟨_, hexec, ?_⟩
  have hclause : (s.ring r).clauseOf c.index = some c := clauseOf_of_startedClause hc
  obtain ⟨job, hkey, hstart⟩ := startNearBank_of_stay (s := s.seeHost h) (r := r) hfree
  rw [hstart]
  have hnodup := nodup_mvVaults (s.seeHost h) (c.noun 0) (mvPlan (c.noun 0))
  generalize (s.seeHost h).mvVaults (c.noun 0) (mvPlan (c.noun 0)) = vs at hsome hnodup ⊢
  obtain ⟨hframe, hvault⟩ := foldl_modVault hnodup (fun n v => queued v (job n)) (s.seeHost h)
  generalize List.foldl _ (s.seeHost h) vs = u at hframe hvault ⊢
  have huclause : (u.ring r).clauseOf c.index = some c := by rw [hframe]; exact hclause
  obtain ⟨hdone, hvaults⟩ := workDone_of_vaults (f := fun y => { y with vaults := vs }) huclause (fun _ => rfl) hsome
  generalize u.workDone r c.index _ = t at hdone hvaults ⊢
  have hsame : t.vault = u.vault := by rw [hdone]; rfl
  refine ⟨by rw [hdone, hframe]; rfl, fun n hn => ?_, fun n hn => ?_, hvaults⟩
  · have hkeys : (t.vault n).jobs.map jobKey = (s.vault n).jobs.map jobKey ++ [(r, c.index)] := by
      rw [hsame, hvault, if_pos hn, jobKeys_queued, hkey]
      rfl
    refine ⟨by simpa using congrArg List.length hkeys, ?_⟩
    have hlast := congrArg List.getLast? hkeys
    rwa [List.getLast?_map, List.getLast?_concat] at hlast
  · rw [hsame, hvault, if_neg hn]
    rfl

/-! ### The end of staging (R192, R204, R238) -/

/-- t is s but for what the staging of a batch and the begin of its steps may change. -/
def StagingOnly (s t : State) : Prop :=
  t = { s with dram := t.dram, playa := t.playa, host := t.host, rings := t.rings, vaults := t.vaults, engines := t.engines
               ctr := t.ctr, dbg := t.dbg }

/-- Part of a batch's staging: every vault keeps its jobs. -/
structure Staged (s t : State) : Prop where
  frame : StagingOnly s t
  jobs  : ∀ n, (t.vault n).jobs = (s.vault n).jobs

theorem Staged.refl (s : State) : Staged s s := ⟨rfl, fun _ => rfl⟩

theorem StagingOnly.trans {s t u : State} (h : StagingOnly s t) (g : StagingOnly t u) : StagingOnly s u := Eq.trans g (by rw [h])

theorem Staged.trans {s t u : State} (h : Staged s t) (g : Staged t u) : Staged s u :=
  ⟨h.frame.trans g.frame, fun n => (g.jobs n).trans (h.jobs n)⟩

theorem Staged.ite {s t u : State} {c : Prop} {_ : Decidable c} (ht : Staged s t) (hu : Staged s u) :
    Staged s (if c then t else u) := by
  split <;> assumption

theorem Staged.foldl {α : Type} {f : State → α → State} (hf : ∀ t a, Staged t (f t a)) (l : List α) (s : State) :
    Staged s (l.foldl f s) :=
  List.foldlRecOn (motive := fun t : State => Staged s t) l f (.refl s) fun t ht a _ => ht.trans (hf t a)

theorem staged_ctrAdd (s : State) (o n : Nat) : Staged s (s.ctrAdd o n) := ⟨rfl, fun _ => rfl⟩
theorem staged_setEngine (s : State) (n p : Nat) (e : EngineSt) : Staged s (s.setEngine n p e) := ⟨rfl, fun _ => rfl⟩
theorem staged_noteVerdict (s : State) (r i : Nat) (slot : Option Nat) : Staged s (s.noteVerdict r i slot) := ⟨rfl, fun _ => rfl⟩

theorem staged_perturbWrite (s : State) (a n : Nat) : Staged s (s.perturbWrite a n) :=
  .ite (.refl s) (.foldl (fun t e => by
    extract_lets x w hit d
    exact .ite (.refl t) ⟨rfl, fun _ => rfl⟩) _ s)

theorem staged_playaWrite (s : State) (core off : Nat) (bs : List Byte) (poison : Bool) : Staged s (s.playaWrite core off bs poison) := by
  have hframe := State.playaWrite_frame s core off bs poison
  generalize s.playaWrite core off bs poison = t at hframe ⊢
  rw [hframe]
  exact ⟨rfl, fun _ => rfl⟩

theorem staged_updateLines (s : State) (a : Nat) (bs : List Byte) (poison : Bool) : Staged s (s.updateLines a bs poison) := by
  refine .ite (.refl s) (.foldl (fun t _ => ?_) _ s)
  split
  · exact staged_playaWrite ..
  · exact .refl t

theorem staged_closeEntries (s : State) (a n : Nat) : Staged s (s.closeEntries a n) := by
  have hclosed := entriesClosed_closeEntries s a n
  generalize s.closeEntries a n = t at hclosed ⊢
  exact ⟨by rw [hclosed.frame]; rfl, hclosed.jobs⟩

theorem staged_writeTarget (s : State) (x : Option Target) (bs : List Byte) (full poison : Bool) :
    Staged s (s.writeTarget x bs full poison) := by
  unfold State.writeTarget
  split
  · have hflit (a : Nat) : Staged s (s.bankFlit a bs full poison) := ⟨rfl, fun _ => rfl⟩
    exact .ite (.refl s) ((((hflit _).trans (staged_perturbWrite ..)).trans (staged_updateLines ..)).trans (staged_closeEntries ..))
  · exact ⟨rfl, fun _ => rfl⟩
  · exact .refl s

theorem staged_writePieces (s : State) (place : Nat) (ps : List (Nat × Nat)) (ws : List WByte) : Staged s (s.writePieces place ps ws) := by
  induction ps generalizing s ws with
  | nil => exact .refl s
  | cons p ps ih => exact .trans (.ite (.refl s) (staged_writeTarget ..)) (ih ..)

theorem staged_writeDva (s : State) (place dva : Nat) (ws : List WByte) : Staged s (s.writeDva place dva ws) := staged_writePieces ..

theorem staged_writeHeads (s : State) (w : Noun) (q : MvPlan) (j : NbeJob) (b : Nat) : Staged s (s.writeHeads w q j b) :=
  .foldl (fun t _ => .foldl (fun u _ => staged_writeDva u ..) _ t) _ s

theorem staged_stageMv (s : State) (n : Nat) (j : NbeJob) (c : ClauseSt) (b : Nat) : Staged s (s.stageMv n j c b) :=
  (staged_writeHeads ..).trans (.foldl (fun t _ => .ite
    (((staged_writeDva t ..).trans (staged_noteVerdict ..)).trans (staged_ctrAdd ..)) (staged_setEngine t ..)) _ _)

theorem staged_stageDecode (s : State) (n : Nat) (j : NbeJob) (c : ClauseSt) (d : DecodeSt) : Staged s (s.stageDecode n j c d) := by
  refine .foldl (fun t p => .ite (.refl t) ?_) _ s
  have hvectors (l : List (Nat × Nat)) : Staged t (l.foldl (fun u x =>
      u.writeDva 3 (u.scratchDva n p (if j.pv then 5 else 0) (128 * x.2)) (s.stagedVector c d j.pv x.1)) t) :=
    .foldl (fun u _ => staged_writeDva u ..) l t
  exact .ite ((hvectors _).trans (.foldl (fun u _ => (staged_writeDva u ..).trans (staged_ctrAdd ..)) _ _))
    ((hvectors _).trans (staged_setEngine ..))

/-- A vault's active job works for the clause of j, and stands at a stage from the steps on. -/
def StepsOf (j : NbeJob) (v : VaultSt) : Prop := ∃ j', v.activeJob = some j' ∧ jobKey j' = jobKey j ∧ (j'.stage = 2 ∨ j'.stage = 3)

theorem stepsOf_congr {j : NbeJob} {v w : VaultSt} (hjobs : w.jobs = v.jobs) (h : StepsOf j v) : StepsOf j w := by
  rw [StepsOf, VaultSt.activeJob, hjobs]
  exact h

theorem stepsOf_modJob {j : NbeJob} {v : VaultSt} (h : v.activeJob = some j) {k : Nat} (hk : k = 2 ∨ k = 3) :
    StepsOf j (v.modJob j.ring j.index (fun x => { x with stage := k })) := by
  obtain ⟨x, hx, hkey⟩ := activeJob_modJob (f := fun x => { x with stage := k }) h (fun _ => by dsimp only; omega)
  exact ⟨_, hx, hkey, hk⟩

/-- A batch without a step left goes on to its merge, and another stays at its steps. -/
theorem stepsOf_toMerge {s : State} {n : Nat} {j : NbeJob} (h : StepsOf j (s.vault n)) : StepsOf j ((s.toMerge n).vault n) := by
  obtain ⟨a, ha, hkey, hstage⟩ := h
  have hmerge : StepsOf a ((s.vault n).modJob a.ring a.index (fun x => { x with stage := 3 })) := stepsOf_modJob ha (.inr rfl)
  rw [StepsOf, hkey] at hmerge
  rw [State.toMerge, ha]
  dsimp only
  split
  · rw [State.vault_modVault_self]
    exact hmerge
  · exact ⟨a, ha, hkey, hstage⟩

/-- The vaults, engines and counters are what the begin of a batch's steps may change. -/
theorem stagingOnly_beginSteps (s : State) (n : Nat) (j : NbeJob) : StagingOnly s (s.beginSteps n j) := by
  unfold State.beginSteps
  extract_lets s1
  have hgranted : TokensGranted n (s.modVault n (fun x => x.modJob j.ring j.index (fun x => { x with stage := 2 }))) s1 :=
    tokensGranted_grantTokens ..
  clear_value s1
  rw [StagingOnly, toMerge_frame, hgranted.frame]
  rfl

theorem stepsOf_beginSteps {s : State} {n : Nat} {j : NbeJob} (hjob : (s.vault n).activeJob = some j) :
    StepsOf j ((s.beginSteps n j).vault n) := by
  unfold State.beginSteps
  extract_lets s1
  have hjobs : (s1.vault n).jobs = ((s.vault n).modJob j.ring j.index (fun x => { x with stage := 2 })).jobs := by
    rw [(tokensGranted_grantTokens (s.modVault n _) n).vault n, State.vault_modVault_self]
  clear_value s1
  exact stepsOf_toMerge (stepsOf_congr hjobs (stepsOf_modJob hjob (k := 2) (.inl rfl)))

/-- A job whose work is a decode is a decode's. -/
theorem decode_of_workOf {s : State} {j : NbeJob} {c : ClauseSt} {d : DecodeSt} (h : s.workOf j = some (.decode c d)) :
    j.decode = true ∧ s.decodeOf j.ring j.index = some d := by
  unfold State.workOf at h
  split at h
  · exact absurd h (by simp)
  · split at h
    · next hdecode =>
      obtain ⟨x, hx, hxd⟩ := Option.map_eq_some_iff.mp h
      obtain ⟨-, rfl⟩ := Work.decode.inj hxd
      exact ⟨hdecode, hx⟩
    · split at h <;> simp at h

theorem staging_ends {v : Nat} {j : NbeJob} {w : Work} {s : State} (hjob : (s.vault v).activeJob = some j) (hstage : j.stage = 1)
    (hwork : s.workOf j = some w)
    (hscores : j.decode = true → j.pv = true → ∀ d, s.decodeOf j.ring j.index = some d → d.scoresIn j.tasks = true) :
    ∃ (t : State) (j' : NbeJob), exec (.stagingDone v) s = .next t ∧
      t = { s with dram := t.dram, playa := t.playa, host := t.host, rings := t.rings, vaults := t.vaults, engines := t.engines
                   ctr := t.ctr, dbg := t.dbg } ∧
      (t.vault v).activeJob = some j' ∧ (j'.ring, j'.index) = (j.ring, j.index) ∧ (j'.stage = 2 ∨ j'.stage = 3) := by
  have hexec : ∃ u, Staged s u ∧ exec (.stagingDone v) s = .next (u.beginSteps v j) := by
    cases w with
    | mv c b => exact ⟨_, staged_stageMv s v j c b, by simp [exec, execStagingDone, hjob, hstage, hwork]⟩
    | decode c d =>
      obtain ⟨hdecode, hd⟩ := decode_of_workOf hwork
      have hready : (j.pv && !d.scoresIn j.tasks) = false := by
        cases hpv : j.pv with
        | false => rfl
        | true => simp [hscores hdecode hpv d hd]
      exact ⟨_, staged_stageDecode s v j c d, by simp [exec, execStagingDone, hjob, hstage, hwork, hready]⟩
  obtain ⟨u, hstaged, hexec⟩ := hexec
  have hactive : (u.vault v).activeJob = some j := by rw [VaultSt.activeJob, hstaged.jobs]; exact hjob
  obtain ⟨j', hactive', hkey, hstages⟩ := stepsOf_beginSteps hactive
  exact ⟨_, j', hexec, hstaged.frame.trans (stagingOnly_beginSteps u v j), hactive', hkey, hstages⟩

/-! ### The merge of a batch (R182, R192, R195) -/

/-- t is s but for what the merge of a batch of clause (r, i) may change; of its ring's clause c the merged outputs, the count of
saturated elements and the verdict alone may be other. -/
structure Merged (r i : Nat) (c : ClauseSt) (s t : State) : Prop where
  frame  : t = { s with dram := t.dram, playa := t.playa, host := t.host, rings := t.rings, vaults := t.vaults, caches := t.caches
                        dbg := t.dbg }
  rings  : ringsSameBut s t r
  clause : ∃ m k f, (t.ring r).clauseOf i = some { c with merged := m, saturated := k, verdict := f }

theorem dropCacheRows_frame (n : Nat) (l : List LockedRow) (s : State) :
    ∃ cs, l.foldl (fun t x => t.dropCacheRow n x) s = { s with caches := cs } := by
  refine List.foldlRecOn (motive := fun t : State => ∃ cs, t = { s with caches := cs }) _ _ ⟨_, rfl⟩ ?_
  rintro _ ⟨cs, rfl⟩ x -
  exact ⟨_, rfl⟩

theorem ringsSameBut_modRing (s : State) (r : Nat) (f : RingSt → RingSt) : ringsSameBut s (s.modRing r f) r :=
  ringsSameBut_setRing s r _

theorem merged_mergeBatch {s : State} {j : NbeJob} {c : ClauseSt} (hc : s.jobClause j = some c) (n b : Nat) :
    Merged j.ring j.index c s (s.mergeBatch n j c b) := by
  have hindex : c.index = j.index := by simpa using List.find?_some hc
  unfold State.mergeBatch State.writeOutputs State.noteVerdict
  extract_lets -underBinder w y q init outs badY s0 size all blocks whole ready done es left
  obtain ⟨cs, (h0 : s0 = { s with caches := cs })⟩ := dropCacheRows_frame n (s.batchRows w q b) s
  have hstored : s0.StoreOnly (s0.storeTensor y es) := State.storeOnly_storeTensor ..
  generalize s0.storeTensor y es = u at hstored ⊢
  have hring : u.ring = s.ring := by rw [hstored.frame, h0]; rfl
  have hclause : (u.ring j.ring).clauseOf c.index = some c := by rw [hring, hindex]; exact hc
  rw [hindex] at hclause ⊢
  have hwritten := clauseOf_modRing hclause (f := fun x =>
    { x with merged := left, saturated := x.saturated + sumOf (done.map (fun d => d.2.saturated)) }) fun _ => rfl
  refine ⟨?_, fun m hm => ?_, _, _, _, clauseOf_modRing hwritten (f := fun x =>
    { x with verdict := mergeVerdict x.verdict (if badY then some 2 else none) }) fun _ => rfl⟩
  · rw [hstored.frame, h0]
    rfl
  · rw [ringsSameBut_modRing _ _ _ m hm, ringsSameBut_modRing _ _ _ m hm, hring]

theorem merge_goes_on {v b b2 : Nat} {more : List Nat} {j : NbeJob} {c : ClauseSt} {s : State} (hjob : (s.vault v).activeJob = some j)
    (hstage : j.stage = 3) (hdecode : j.decode = false) (hclause : s.jobClause j = some c) (hbatches : j.batches = b :: b2 :: more) :
    ∃ t : State, exec (.mergeDone v) s = .next t ∧
      t = { s with dram := t.dram, playa := t.playa, host := t.host, rings := t.rings, vaults := t.vaults
                   caches := t.caches, dbg := t.dbg } ∧ ringsSameBut s t j.ring ∧
      (∀ j' ∈ (t.vault v).jobs, (j'.ring, j'.index) = (j.ring, j.index) → j'.stage = 1 ∧ j'.batches = b2 :: more) := by
  have hexec : exec (.mergeDone v) s = .next ((s.mergeBatch v j c b).modVault v
      (fun x => x.modJob j.ring j.index (fun y => { y with stage := 1, batches := b2 :: more }))) := by
    simp [exec, execMergeDone, hjob, hstage, workOf_matrixVector hdecode hclause hbatches, hbatches]
  have hmerged := merged_mergeBatch hclause v b
  generalize s.mergeBatch v j c b = u at hexec hmerged
  refine ⟨_, hexec, ?_, hmerged.rings, fun j' hj hkey => ?_⟩
  · rw [hmerged.frame]
    rfl
  · rw [State.vault_modVault_self] at hj
    obtain ⟨x, rfl⟩ := mem_modJob hj hkey
    exact ⟨rfl, rfl⟩

/-! ### The last batch in a vault (R191) -/

/-- The clause that leaves a vault no longer waits for it. -/
theorem clauseOf_leaveVault {s : State} {n : Nat} {j : NbeJob} {c : ClauseSt} (h : (s.ring j.ring).clauseOf j.index = some c) :
    ((s.leaveVault n j).ring j.ring).clauseOf j.index = some { c with vaults := delSet n c.vaults } := by
  unfold State.leaveVault
  extract_lets s1
  have h1 : (s1.ring j.ring).clauseOf j.index = some c := h
  exact clauseOf_modRing h1 (f := fun x => { x with vaults := delSet n x.vaults }) fun _ => rfl

/-- A vault in which the clause of a job has finished. -/
def finishedIn (j : NbeJob) (v : VaultSt) : VaultSt :=
  v.modJob j.ring j.index (fun x => { x with stage := 4, batches := [], tasks := [] })

theorem vault_leaveVault_self (s : State) (n : Nat) (j : NbeJob) :
    (s.leaveVault n j).vault n = (finishedIn j (s.vault n)).beginStaging :=
  State.vault_modVault_self s n (fun v => (finishedIn j v).beginStaging)

theorem finished_of_mem_finishedIn {v : VaultSt} {j x : NbeJob} (hx : x ∈ (finishedIn j v).jobs) (hkey : jobKey x = jobKey j) :
    4 ≤ x.stage ∧ x.batches = [] := by
  obtain ⟨y, rfl⟩ := mem_modJob hx hkey
  exact ⟨Nat.le_refl 4, rfl⟩

/-- The job of a clause that leaves a vault is finished there, though another's staging begins. -/
theorem finished_of_mem_leaveVault {s : State} {n : Nat} {j x : NbeJob} (hx : x ∈ ((s.leaveVault n j).vault n).jobs)
    (hkey : jobKey x = jobKey j) : 4 ≤ x.stage ∧ x.batches = [] := by
  rw [vault_leaveVault_self] at hx
  exact finished_of_mem_finishedIn (mem_beginStaging_of_finished (fun _ hy hk => (finished_of_mem_finishedIn hy hk).1) hx hkey) hkey

theorem exec_mergeDone_of_last {v b : Nat} {j : NbeJob} {c : ClauseSt} {s : State} (hjob : (s.vault v).activeJob = some j)
    (hstage : j.stage = 3) (hdecode : j.decode = false) (hclause : s.jobClause j = some c) (hbatches : j.batches = [b]) :
    exec (.mergeDone v) s = .next (((s.mergeBatch v j c b).leaveVault v j).settleClause j.ring j.index) := by
  simp [exec, execMergeDone, hjob, hstage, workOf_matrixVector hdecode hclause hbatches, hbatches]

theorem vault_is_left {v b : Nat} {j : NbeJob} {c : ClauseSt} {s : State} (hjob : (s.vault v).activeJob = some j)
    (hstage : j.stage = 3) (hdecode : j.decode = false) (hclause : s.jobClause j = some c) (hbatches : j.batches = [b])
    (hothers : delSet v c.vaults ≠ []) :
    ∃ t : State, exec (.mergeDone v) s = .next t ∧
      t = { s with dram := t.dram, playa := t.playa, host := t.host, rings := t.rings, vaults := t.vaults
                   caches := t.caches, dbg := t.dbg } ∧ ringsSameBut s t j.ring ∧
      (∀ j' ∈ (t.vault v).jobs, (j'.ring, j'.index) = (j.ring, j.index) → 4 ≤ j'.stage ∧ j'.batches = []) ∧
      ((t.ring j.ring).clauseOf j.index).map (·.vaults) = some (delSet v c.vaults) := by
  have hexec := exec_mergeDone_of_last hjob hstage hdecode hclause hbatches
  have hmerged := merged_mergeBatch hclause v b
  generalize s.mergeBatch v j c b = u at hexec hmerged
  obtain ⟨m, k, f, hc⟩ := hmerged.clause
  have hleft := clauseOf_leaveVault (n := v) hc
  rw [settleClause_of_vaults hleft hothers] at hexec
  refine ⟨_, hexec, ?_, fun q hq => ?_, fun j' => finished_of_mem_leaveVault, by rw [hleft]; rfl⟩
  · rw [State.leaveVault, hmerged.frame]
    rfl
  · exact (ringsSameBut_modRing (u.modVault v _) j.ring _ q hq).trans (hmerged.rings q hq)

/-! ### A clause that its last vault leaves settles (R78, R111) -/

/-- Every clause of an index in the ring is done or posted. -/
def RingSt.DoneOrPosted (index : Nat) (x : RingSt) : Prop := ∀ c ∈ x.clauses, c.index = index → c.phase = .done ∨ c.phase = .posted

theorem RingSt.DoneOrPosted.clauseOf {index : Nat} {x : RingSt} (h : RingSt.DoneOrPosted index x) :
    (x.clauseOf index).all (fun c => decide (c.phase = .done) || decide (c.phase = .posted)) = true := by
  cases hc : x.clauseOf index with
  | none => rfl
  | some c => simpa using h c (List.mem_of_find?_eq_some hc) (by simpa using List.find?_some hc)

theorem RingSt.AllPosted.doneOrPosted {index : Nat} {x : RingSt} (h : RingSt.AllPosted index x) : RingSt.DoneOrPosted index x :=
  fun c hc hi => .inr (h (indexPhase c) (List.mem_map_of_mem hc) hi)

theorem RingSt.DoneOrPosted.of_clauses {index : Nat} {x y : RingSt} (h : RingSt.DoneOrPosted index x) (hy : y.clauses = x.clauses) :
    RingSt.DoneOrPosted index y := by
  rw [RingSt.DoneOrPosted, hy]
  exact h

/-- Control fences that a target's end makes done are done. -/
theorem RingSt.doneOrPosted_fencesDone {s : State} {r index : Nat} (t : Nat) (h : RingSt.DoneOrPosted index (s.ring r)) :
    RingSt.DoneOrPosted index ((s.fencesDone t).ring r) := by
  by_cases hr : r = 0
  · subst r
    rw [ring_fencesDone_zero]
    intro c hc hi
    obtain ⟨d, hd, rfl⟩ := List.mem_map.mp hc
    by_cases ht : d.target = some t
    · exact .inl (by rw [doneFor_of_target ht])
    · rw [doneFor, if_neg ht] at hi ⊢
      exact h d hd hi
  · rwa [ring_fencesDone _ _ hr]

/-- A ring that closes, becomes idle or goes on leaves clauses posted, but for the fences that waited for it. -/
theorem RingSt.doneOrPosted_tryClose {s : State} {r index : Nat} (h : RingSt.DoneOrPosted index (s.ring r)) :
    RingSt.DoneOrPosted index ((s.tryClose r).ring r) := by
  unfold State.tryClose
  split
  · intro c hc
    rw [clauses_closeNow] at hc
    exact absurd hc (by simp)
  · unfold State.tryIdle
    dsimp only
    split
    · exact RingSt.doneOrPosted_fencesDone r (h.of_clauses (idledFrom_idleSeen s r).clauses)
    · exact h

/-- A clause that fails is posted again or gone, and what its ring does then makes it done at most. -/
theorem RingSt.doneOrPosted_failClause {s : State} {r index : Nat} {c : ClauseSt} (hc : (s.ring r).clauseOf index = some c) (f : Failure) :
    RingSt.DoneOrPosted index ((s.failClause r index f).ring r) := by
  unfold State.failClause
  extract_lets -underBinder ring
  split
  case _ h => exact absurd (h.symm.trans hc) (by simp)
  case _ d h =>
    extract_lets -underBinder sA back s0 s1 s2 cmd s3 s4 s5
    have h4 : RingSt.AllPosted index (s4.ring r) := by
      rw [State.ring_modRing_self]
      split
      · exact RingSt.allPosted_dropClause _ _
      · exact RingSt.allPosted_stoppedAt _ _
    have h5 : s5.rings = s4.rings := rfl
    clear_value s5
    have hmoved : SharesMoved s4 _ := (SharesMoved.of_rings h5).trans
      (sharesMoved_sendNexts s5 (d.shares ++ back.flatMap (fun x => x.shares)) ring.ctx.paren)
    refine RingSt.doneOrPosted_tryClose (RingSt.AllPosted.doneOrPosted ?_)
    rw [RingSt.AllPosted, hmoved.phases]
    exact h4

/-- A clause with its work behind it, of which nothing is out, is done, or has failed. -/
theorem doneOrPosted_settleClause {s : State} {r index : Nat} {c : ClauseSt} (h : (s.ring r).clauseOf index = some c)
    (hphase : c.phase = .started) (hworked : c.worked = true) (hshares : c.shares = []) (hunsent : c.unsent = [])
    (hvaults : c.vaults = []) : RingSt.DoneOrPosted index ((s.settleClause r index).ring r) := by
  cases hverdict : c.verdict with
  | none =>
    rw [settleClause_of_free h hphase hworked hshares hunsent hvaults hverdict, State.ring_modRing_self]
    intro x hx hi
    obtain ⟨y, -, rfl⟩ := List.mem_map.mp hx
    by_cases hy : y.index = index
    · exact .inl (by rw [if_pos hy])
    · rw [if_neg hy] at hi
      exact absurd hi hy
  | some f =>
    have hfail : s.settleClause r index = s.failClause r index f := by
      simp [State.settleClause, h, hphase, hworked, hshares, hunsent, hvaults, hverdict]
    rw [hfail]
    exact RingSt.doneOrPosted_failClause h f

theorem last_vault_settles_clause {v b : Nat} {j : NbeJob} {c : ClauseSt} {s : State} (hjob : (s.vault v).activeJob = some j)
    (hstage : j.stage = 3) (hdecode : j.decode = false) (hclause : s.jobClause j = some c) (hbatches : j.batches = [b])
    (hothers : delSet v c.vaults = []) (hphase : c.phase = .started) (hworked : c.worked = true) (hshares : c.shares = [])
    (hunsent : c.unsent = []) :
    ∃ t : State, exec (.mergeDone v) s = .next t ∧
      ((t.ring j.ring).clauseOf j.index).all (fun x => decide (x.phase = .done) || decide (x.phase = .posted)) = true := by
  obtain ⟨m, k, f, hc⟩ := (merged_mergeBatch hclause v b).clause
  exact ⟨_, exec_mergeDone_of_last hjob hstage hdecode hclause hbatches,
    (doneOrPosted_settleClause (clauseOf_leaveVault hc) hphase hworked hshares hunsent hothers).clauseOf⟩

/-! ### The two phases of a decode (R238) -/

theorem decode_goes_to_second_phase {v : Nat} {j : NbeJob} {c : ClauseSt} {d : DecodeSt} {s : State}
    (hjob : (s.vault v).activeJob = some j) (hstage : j.stage = 3) (hwork : s.workOf j = some (.decode c d)) (hpv : j.pv = false) :
    ∃ t : State, exec (.mergeDone v) s = .next t ∧ t = { s with vaults := t.vaults, decodes := t.decodes } ∧
      vaultsSameBut s t v ∧
      (∀ j' ∈ (t.vault v).jobs, (j'.ring, j'.index) = (j.ring, j.index) → j'.stage = 1 ∧ j'.pv = true) := by
  have hexec : exec (.mergeDone v) s = .next ((s.setDecode (s.collectWords v j d)).modVault v
      (fun x => x.modJob j.ring j.index (fun y => { y with stage := 1, pv := true }))) := by
    simp [exec, execMergeDone, hjob, hstage, hwork, State.mergeDecode, hpv]
  refine ⟨_, hexec, rfl, fun q hq => ?_, fun j' hj hkey => ?_⟩
  · exact State.vault_modVault_ne (s.setDecode _) _ hq
  · rw [State.vault_modVault_self] at hj
    obtain ⟨x, rfl⟩ := mem_modJob hj hkey
    exact ⟨rfl, rfl⟩

/-- Settles O19: each clause is one case of a start, of the end of a staging, or of the end of a merge. -/
theorem nearBankWorkProceeds : Obligations.NearBankWorkProceeds := by
  unfold Obligations.NearBankWorkProceeds
  exact ⟨fun _ _ _ _ _ => matrixVector_is_queued, fun _ _ _ _ => staging_ends, fun _ _ _ _ _ _ _ => merge_goes_on,
    fun _ _ _ _ _ => vault_is_left, fun _ _ _ _ _ => last_vault_settles_clause,
    fun _ _ _ _ _ hjob hstage hwork _ hpv => decode_goes_to_second_phase hjob hstage hwork hpv⟩

end Sys2Proof.Proofs
end

section
/-! PROOFS. The key-value manager under the work of a clause (O21). A clause's failure, and its end, leave the pages in use, the
pages that wait and the count of freed pages alone. A lookup and a store leave the pages alone too; an evict only gives pages
up, at once where no started decode reads them (07 R218, R228, R230). -/

namespace Sys2Proof.Machine

/-! ### What a clause's failure and its end leave of the pages -/

/-- The pages in use, those that wait and the count of freed pages are as they were. -/
structure State.PagesKept (s t : State) : Prop where
  used    : t.kvm.used = s.kvm.used
  freeing : t.kvm.freeing = s.kvm.freeing
  freed   : t.ctrGet kvmPagesFreed = s.ctrGet kvmPagesFreed

theorem State.PagesKept.refl (s : State) : s.PagesKept s := ⟨rfl, rfl, rfl⟩

variable {s₀ s : State}

theorem State.PagesKept.ite {t : State} {c : Prop} {_ : Decidable c} (hs : s₀.PagesKept s) (ht : s₀.PagesKept t) :
    s₀.PagesKept (if c then s else t) := by
  split <;> assumption

theorem State.PagesKept.foldl {α : Type} {f : State → α → State} {l : List α} (h : s₀.PagesKept s)
    (hf : ∀ t a, s₀.PagesKept t → s₀.PagesKept (f t a)) : s₀.PagesKept (l.foldl f s) :=
  List.foldlRecOn l f h fun t ht a _ => hf t a ht

/-- A record update that keeps the counters and, in the key-value manager, the pages in use and those that wait. -/
theorem State.PagesKept.update {pending time freeIdx dram playa delays host latchHi loHold staged applied glb epoch cmd rings
    tainted conj fields steps sync slow cores vaults caches tiers engines selfRef kvm decodes routers slots reducing ports lnk
    colls pwr doms thm err dbg boot bond mgt oas cxl io pins} (h : s₀.PagesKept s)
    (hused : kvm.used = s.kvm.used := by rfl) (hfreeing : kvm.freeing = s.kvm.freeing := by rfl) :
    s₀.PagesKept (.mk pending time freeIdx dram playa delays host s.ctr latchHi loHold staged applied glb epoch cmd rings
      tainted conj fields steps sync slow cores vaults caches tiers engines selfRef kvm decodes routers slots reducing ports
      lnk colls pwr doms thm err dbg boot bond mgt oas cxl io pins) :=
  ⟨hused.trans h.used, hfreeing.trans h.freeing, h.freed⟩

theorem State.PagesKept.stored {t : State} (h : s₀.PagesKept s) (g : s.StoreOnly t) : s₀.PagesKept t := by
  rw [g.frame]
  exact h.update

theorem State.PagesKept.modRing {r f} (h : s₀.PagesKept s) : s₀.PagesKept (s.modRing r f) := h.update
theorem State.PagesKept.modPort {p f} (h : s₀.PagesKept s) : s₀.PagesKept (s.modPort p f) := h.update

theorem State.PagesKept.ctrAdd {o n : Nat} (h : s₀.PagesKept s) (ho : kvmPagesFreed ≠ o) : s₀.PagesKept (s.ctrAdd o n) :=
  ⟨h.used, h.freeing, by rw [State.ctrGet_ctrAdd, if_neg ho]; exact h.freed⟩

/-! The counters that a failure advances lie apart from the count of freed pages (04 R142, 09 R317, 05 R178, 14 R479). -/

theorem kvmPagesFreed_ne_vecCtr (core : Nat) (paren : Bool) {o : Nat} (h : o = 0x10 ∨ o = 0x20) :
    kvmPagesFreed ≠ vecCtr core paren o := by
  unfold kvmPagesFreed vecCtr
  split <;> omega

theorem kvmPagesFreed_ne_lnkCtr (p o : Nat) : kvmPagesFreed ≠ lnkCtr p o := by
  unfold kvmPagesFreed lnkCtr
  omega

theorem kvmPagesFreed_ne_errVlt (n o : Nat) : kvmPagesFreed ≠ errVlt n o := by
  unfold kvmPagesFreed errVlt
  omega

theorem kvmPagesFreed_ne_vltWrBursts (n : Nat) : kvmPagesFreed ≠ vltWrBursts n := by
  unfold kvmPagesFreed vltWrBursts vltCtr
  omega

theorem State.PagesKept.countFailed {r c} (h : s₀.PagesKept s) : s₀.PagesKept (s.countFailed r c) := by
  unfold State.countFailed
  extract_lets s1
  have h1 : s₀.PagesKept s1 := by
    unfold s1
    split
    · exact (h.ctrAdd (kvmPagesFreed_ne_vecCtr _ _ (.inl rfl))).ctrAdd (kvmPagesFreed_ne_vecCtr _ _ (.inr rfl))
    · exact h
  refine .ite h1 ?_
  unfold State.raiseNf
  split
  · split
    · exact h1.update
    · exact h1
  · exact h1

/-! Frames that tell a group that its collective is over (R303). -/

theorem State.PagesKept.transmit {p f} (h : s₀.PagesKept s) : s₀.PagesKept (s.transmit p f) :=
  .update (.ctrAdd (.update h) (kvmPagesFreed_ne_lnkCtr p 0x40))

theorem State.PagesKept.freePool {p f} (h : s₀.PagesKept s) : s₀.PagesKept (s.freePool p f) := .ite h.modPort h

theorem State.PagesKept.pump {n p : Nat} {s : State} (h : s₀.PagesKept s) : s₀.PagesKept (State.pump n p s) := by
  induction n generalizing s with
  | zero => exact h
  | succ n ih =>
    unfold State.pump
    split
    · exact ih h.modPort.transmit.freePool
    · exact h

theorem State.PagesKept.emit {f} (h : s₀.PagesKept s) : s₀.PagesKept (s.emit f) := .ite h.update (by
  split
  · exact h.modPort.pump
  · exact (h.ctrAdd (kvmPagesFreed_ne_lnkCtr _ _)).update)

theorem State.PagesKept.abortColl {r index} (h : s₀.PagesKept s) : s₀.PagesKept (s.abortColl r index) :=
  .foldl h fun _ c ht => by
    have htold : s₀.PagesKept (State.tellGroup _ c 2 65536) := .foldl ht fun _ _ hu => .emit hu.update
    exact htold.update

/-! Deferred host writes, served when a clause's lock falls (R200, R201). -/

theorem State.PagesKept.checkQuotas {loud} (h : s₀.PagesKept s) : s₀.PagesKept (s.checkQuotas loud) :=
  .foldl h fun _ _ ht => by
    split
    · exact .ite ht (.ite ht.update ht.update)
    · exact ht

theorem State.PagesKept.serveWrite {dpa bs poison} (h : s₀.PagesKept s) : s₀.PagesKept (s.serveWrite dpa bs poison) := by
  unfold State.serveWrite
  extract_lets n a dead s1 s2 s4 s5
  have h1 : s₀.PagesKept s1 := .stored (s := s.taint dpa bs.length) h.update (State.storeOnly_dpaWrite ..)
  have h2 : s₀.PagesKept s2 := .ite (h1.stored (State.storeOnly_poisonLine ..)) h1
  have h4 : s₀.PagesKept s4 := h2.update
  have h5 : s₀.PagesKept s5 := (h4.ctrAdd (kvmPagesFreed_ne_vltWrBursts n)).update
  have hdropped : s₀.PagesKept (s.dropSeqWrite dpa) := (h.ctrAdd (show kvmPagesFreed ≠ 0x900048 by decide)).update
  exact .ite (.update (.ite (h.ctrAdd (kvmPagesFreed_ne_errVlt n 0x18)) h)) (.ite hdropped (.ite h5.checkQuotas h5))

/-- Only writes are deferred requests that an unlocked region lets through. -/
theorem State.PagesKept.drainDeferred {n} (h : s₀.PagesKept s) : s₀.PagesKept (s.drainDeferred n) := by
  unfold State.drainDeferred
  extract_lets free go s1
  have h1 : s₀.PagesKept s1 := h.update
  refine List.foldlRecOn _ _ h1 fun t ht w hw => .ite ht.update ?_
  have hfree := (List.mem_filter.mp hw).2
  cases w with
  | write a bs p q => exact ht.serveWrite
  | read a p => exact absurd hfree Bool.false_ne_true
  | rawWrite a k => exact absurd hfree Bool.false_ne_true
  | rawRead a => exact absurd hfree Bool.false_ne_true

theorem State.PagesKept.drainAllDeferred (h : s₀.PagesKept s) : s₀.PagesKept s.drainAllDeferred :=
  .foldl h fun _ _ ht => ht.drainDeferred

theorem State.PagesKept.releaseWork {r index} (h : s₀.PagesKept s) : s₀.PagesKept (s.releaseWork r index) := h.update
theorem State.PagesKept.poisonEvent {r c f} (h : s₀.PagesKept s) : s₀.PagesKept (s.poisonEvent r c f) := .ite h.update h

theorem State.PagesKept.undefineOutputs {c} (h : s₀.PagesKept s) : s₀.PagesKept (s.undefineOutputs c) := by
  have hbytes {t : State} {place dva n : Nat} (ht : s₀.PagesKept t) : s₀.PagesKept (t.undefineBytes place dva n) :=
    (ht.stored (State.storeOnly_writeDva ..)).update
  exact .ite h (.foldl h fun _ _ ht => .ite (.ite (hbytes (hbytes ht)) (hbytes ht)) ht)

/-! Records, rings that close or become idle, and shares. -/

theorem State.PagesKept.writeRecord {r slot tag f irq} (h : s₀.PagesKept s) : s₀.PagesKept (s.writeRecord r slot tag f irq) := by
  rw [State.writeRecord_eq]
  exact h.update

theorem State.PagesKept.event {a b c d e f g} (h : s₀.PagesKept s) : s₀.PagesKept (s.event a b c d e f g) := h.update

theorem State.PagesKept.setCmd {c} (h : s₀.PagesKept s) : s₀.PagesKept { s with cmd := c } := h.update

theorem State.PagesKept.openAdmin (h : s₀.PagesKept s) : s₀.PagesKept s.openAdmin :=
  .ite h.setCmd.event h.update

theorem State.PagesKept.flushPosted {r} (h : s₀.PagesKept s) : s₀.PagesKept (s.flushPosted r) := by
  unfold State.flushPosted
  exact .modRing (.foldl (.foldl h.update fun _ _ ht => ht.writeRecord) fun _ _ ht => ht.writeRecord)

theorem State.PagesKept.ringClosed {r} (h : s₀.PagesKept s) : s₀.PagesKept (s.ringClosed r) := by
  have hreset : s₀.PagesKept ((s.flushPosted r).setRing r RingSt.reset) := h.flushPosted.update
  unfold State.ringClosed State.leaveLine
  exact .ite hreset hreset.setCmd

theorem State.PagesKept.closeNow {r} (h : s₀.PagesKept s) : s₀.PagesKept (s.closeNow r) := by
  have hclosed := h.ringClosed (r := r)
  rw [State.closeNow_eq, State.afterClose]
  generalize s.ringClosed r = t at hclosed ⊢
  have hzero : s₀.PagesKept t.ring0Closed := hclosed.update
  exact .ite (.ite hzero.openAdmin hzero) hclosed.modRing

theorem State.PagesKept.stopUnfetched {r f} (h : s₀.PagesKept s) : s₀.PagesKept (s.stopUnfetched r f) := by
  unfold State.stopUnfetched
  extract_lets x s1 cmd s2
  have h1 : s₀.PagesKept s1 := h.writeRecord
  clear_value s1
  have h2 : s₀.PagesKept s2 := .ite h1.update h1
  exact h2.modRing

theorem State.PagesKept.seeProducer {r v} (h : s₀.PagesKept s) : s₀.PagesKept (s.seeProducer r v) := by
  have hset {x : RingSt} : s₀.PagesKept (s.setRing r x) := h.update
  exact .ite hset (.ite hset hset.stopUnfetched)

theorem State.PagesKept.tryClose {r} (h : s₀.PagesKept s) : s₀.PagesKept (s.tryClose r) := by
  have hset {x : RingSt} : s₀.PagesKept (s.setRing r x) := h.update
  exact .ite h.closeNow (.ite (.modRing (.ite hset.seeProducer.modRing hset.seeProducer)) h)

theorem State.PagesKept.sendNext {core paren} (h : s₀.PagesKept s) : s₀.PagesKept (s.sendNext core paren) := by
  unfold State.sendNext
  split
  · exact .ite h.update h.update
  · exact h

/-! Failing, and settling (R78, R111). -/

theorem State.PagesKept.failClause {r index f} (h : s₀.PagesKept s) : s₀.PagesKept (s.failClause r index f) := by
  unfold State.failClause
  extract_lets -underBinder ring
  split
  · exact h
  · extract_lets -underBinder sA back s0 s1 s2 cmd s3 s4 s5
    have hA : s₀.PagesKept sA := .ite h.abortColl h
    clear_value sA
    have h0 : s₀.PagesKept s0 := by
      refine .poisonEvent (.drainAllDeferred (.releaseWork (.foldl hA.countFailed fun _ _ ht => ?_)))
      exact ht.releaseWork
    clear_value s0
    have h1 : s₀.PagesKept s1 := .ite h0.undefineOutputs h0
    have h2 : s₀.PagesKept s2 := h1.writeRecord
    clear_value s2
    have h3 : s₀.PagesKept s3 := .ite h2.update h2
    clear_value s3
    have h5 : s₀.PagesKept s5 := (h3.modRing (r := r)).update
    exact .tryClose (.foldl h5 fun _ _ ht => ht.sendNext)

theorem State.PagesKept.workDone {r index f} (h : s₀.PagesKept s) : s₀.PagesKept (s.workDone r index f) := by
  have hworked {g : RingSt → RingSt} : s₀.PagesKept (s.modRing r g) := h.modRing
  unfold State.workDone State.settleClause
  split
  · refine .ite ?_ hworked
    split
    · exact hworked.failClause
    · exact hworked.modRing
  · exact hworked

theorem State.PagesKept.settleEvict {r index} (h : s₀.PagesKept s) : s₀.PagesKept (s.settleEvict r index) := .ite h h.workDone

/-! ### Lookups, stores and evicts -/

theorem State.storeOnly_markPage (s : State) (k : Nat) (free : Bool) : s.StoreOnly (s.markPage k free) := by
  generalize hf : State.markPage = f
  delta State.markPage at hf
  subst hf
  beta_reduce
  extract_lets -underBinder fs col pos dva
  split
  · exact State.storeOnly_writeDva ..
  · exact .refl s

theorem State.storeOnly_writePositions (s : State) (e : SeqEntry) (p : AppendPlan) (tnew : Nat)
    (at_ : Nat → Nat → Nat → Nat → Val × Bool) : s.StoreOnly (s.writePositions e p tnew at_) :=
  .foldl _ fun _ _ => .foldl _ fun _ _ => .foldl _ fun _ _ => State.storeOnly_writeDva ..

/-- Entries have been looked up and bytes stored: of the key-value manager the sequence-table cache alone has changed, and no
slice has where no vault cache holds a line. -/
structure State.SeqsUsed (s t : State) : Prop where
  frame : t = { s with dram := t.dram, playa := t.playa, host := t.host, ctr := t.ctr, vaults := t.vaults, dbg := t.dbg
                       kvm := { s.kvm with cache := t.kvm.cache } }
  playa : s.caches = [] → t.playa = s.playa

theorem State.SeqsUsed.refl (s : State) : s.SeqsUsed s := ⟨rfl, fun _ => rfl⟩

theorem State.SeqsUsed.trans {s t u : State} (h : s.SeqsUsed t) (g : t.SeqsUsed u) : s.SeqsUsed u where
  frame := g.frame.trans (by rw [h.frame])
  playa hc := (g.playa (by rw [h.frame]; exact hc)).trans (h.playa hc)

theorem State.SeqsUsed.foldl {α : Type} {s : State} {f : State → α → State} (l : List α) (hf : ∀ (t : State) a, t.SeqsUsed (f t a)) :
    s.SeqsUsed (l.foldl f s) :=
  List.foldlRecOn l f (.refl s) fun t ht a _ => ht.trans (hf t a)

theorem State.StoreOnly.seqsUsed {s t : State} (h : s.StoreOnly t) : s.SeqsUsed t := ⟨h.frame.trans (by rw [h.frame]), h.playa⟩

theorem State.seqsUsed_touchSeq (s : State) (pinned : List Nat) (i : Nat) : s.SeqsUsed (s.touchSeq pinned i) := by
  unfold State.touchSeq
  split <;> exact ⟨rfl, fun _ => rfl⟩

/-- Pages have been given up: none is taken into use, and no further one waits where no started decode reads a page (R230). -/
structure State.PagesEvicted (s t : State) : Prop where
  frame   : t = { s with freeIdx := t.freeIdx, dram := t.dram, playa := t.playa, host := t.host, ctr := t.ctr
                         vaults := t.vaults, dbg := t.dbg
                         kvm := { s.kvm with cache := t.kvm.cache, used := t.kvm.used, freeing := t.kvm.freeing } }
  playa   : s.caches = [] → t.playa = s.playa
  used    : ∀ u ∈ t.kvm.used, u ∈ s.kvm.used
  freeing : (∀ x ∈ s.kvm.reading, x.pages = []) → t.kvm.freeing = s.kvm.freeing

theorem State.SeqsUsed.evicted {s t : State} (h : s.SeqsUsed t) : s.PagesEvicted t where
  frame := h.frame.trans (by rw [h.frame])
  playa := h.playa
  used u hu := by
    rw [h.frame] at hu
    exact hu
  freeing _ := by rw [h.frame]

theorem State.PagesEvicted.trans {s t u : State} (h : s.PagesEvicted t) (g : t.PagesEvicted u) : s.PagesEvicted u where
  frame := g.frame.trans (by rw [h.frame])
  playa hc := (g.playa (by rw [h.frame]; exact hc)).trans (h.playa hc)
  used x hx := h.used x (g.used x hx)
  freeing hread := (g.freeing (by rw [h.frame]; exact hread)).trans (h.freeing hread)

theorem State.PagesEvicted.foldl {α : Type} {s t : State} {f : State → α → State} (h : s.PagesEvicted t) (l : List α)
    (hf : ∀ (u : State) a, u.PagesEvicted (f u a)) : s.PagesEvicted (l.foldl f t) :=
  List.foldlRecOn l f h fun u hu a _ => hu.trans (hf u a)

/-- A page is counted as freed and is no longer in use; its bit of the bitmap is `markPage`'s. -/
def State.pageFreed (s : State) (k : Nat) : State :=
  let s1 := s.ctrAdd kvmPagesFreed 1
  { s1 with kvm := { s1.kvm with used := s1.kvm.used.filter (fun u => decide (u.1 ≠ k)) } }

theorem State.freePage_eq (s : State) (k : Nat) : s.freePage k = (s.markPage k true).pageFreed k := rfl

theorem State.freeing_freePage (s : State) (k : Nat) : (s.freePage k).kvm.freeing = s.kvm.freeing := by
  have hmark : (s.markPage k true).kvm = s.kvm := by rw [(s.storeOnly_markPage k true).frame]
  have hpage (m : State) : (m.pageFreed k).kvm.freeing = m.kvm.freeing := rfl
  rw [State.freePage_eq, hpage, hmark]

theorem State.ctrGet_freePage (s : State) (k : Nat) : (s.freePage k).ctrGet kvmPagesFreed = s.ctrGet kvmPagesFreed + 1 := by
  have hmark : (s.markPage k true).ctr = s.ctr := by rw [(s.storeOnly_markPage k true).frame]
  have hpage (m : State) : (m.pageFreed k).ctrGet kvmPagesFreed = m.ctrGet kvmPagesFreed + 1 :=
    (State.ctrGet_ctrAdd m _ _ _).trans (if_pos rfl)
  rw [State.freePage_eq, hpage, State.ctrGet_congr hmark]

theorem State.not_mem_used_freePage (s : State) (k : Nat) : ∀ u ∈ (s.freePage k).kvm.used, u.1 ≠ k := by
  have hpage (m : State) : ∀ u ∈ (m.pageFreed k).kvm.used, u.1 ≠ k := fun _ hu => of_decide_eq_true (List.mem_filter.mp hu).2
  rw [State.freePage_eq]
  exact hpage _

theorem State.pagesEvicted_freePage (s : State) (k : Nat) : s.PagesEvicted (s.freePage k) := by
  have hpage (m : State) : m.PagesEvicted (m.pageFreed k) := ⟨rfl, fun _ => rfl, fun _ hu => List.mem_of_mem_filter hu, fun _ => rfl⟩
  rw [State.freePage_eq]
  exact (s.storeOnly_markPage k true).seqsUsed.evicted.trans (hpage _)

/-- A page that no started decode reads goes at once, and waits nowhere (R230). -/
theorem State.pagesEvicted_evictPage (s : State) (r index k : Nat) : s.PagesEvicted (s.evictPage r index k) := by
  unfold State.evictPage
  extract_lets readers
  split
  · exact s.pagesEvicted_freePage k
  · next hreaders =>
    refine ⟨rfl, fun _ => rfl, fun _ hu => hu, fun hread => absurd ?_ hreaders⟩
    have hnone : s.kvm.reading.filter (fun x => x.pages.contains k) = [] :=
      List.filter_eq_nil_iff.mpr fun x hx => by simp [hread x hx]
    rw [show readers = [] from congrArg (List.map _) hnone]
    rfl

variable {t : State}

theorem State.ClauseKept.evicted (h : s₀.ClauseKept s) (g : s.PagesEvicted t) : s₀.ClauseKept t where
  frame := h.frame.trans (by rw [g.frame]; rfl)
  playa hc := ⟨by rw [g.frame]; exact (h.playa hc).1, (g.playa (h.playa hc).1).trans (h.playa hc).2⟩

theorem State.ClauseKept.settleEvict {r index} (h : s₀.ClauseKept s) : s₀.ClauseKept (s.settleEvict r index) := .ite h h.workDone

end Sys2Proof.Machine
end

section
/-! PROOFS. O21: the key-value verbs. An append reserves its pages or fails, an evict gives its pages up, a page whose readers have
completed is released, and a decode runs to the end of its start. -/

open Sys2Proof Sys2Proof.Machine

namespace Sys2Proof.Proofs

/-! ### Append (R225, R227) -/

/-- What an append of `tnew` positions reserves of one sequence for its completion. -/
def reserved (r index tnew : Nat) (p : AppendPlan) : KvAppend :=
  { ring := r, index := index, seq := p.seq, layer := p.layer, length := p.start + tnew, pages := p.pages }

/-- The check of an append's sequences against their entries (R226). -/
def appendCheck (s : State) (c : ClauseSt) : Option Failure :=
  s.checkWords c.seqs (some (kvLayer c.bits)) (some ((c.noun 1).dim 1))

/-- The sequences of an append fit their capacity with the new positions. -/
def AppendFits (s : State) (c : ClauseSt) : Prop :=
  ∀ p ∈ c.seqs.zipIdx, s.layerLength (s.seqEntry p.1.1) (kvLayer c.bits - (s.seqEntry p.1.1).base) + (c.noun 1).dim 2
    ≤ 128 * (s.seqEntry p.1.1).cap

/-- What an append takes of the pool, or the position of the first sequence that goes without. -/
def appendPlans (s : State) (c : ClauseSt) : List AppendPlan ⊕ Nat :=
  s.planAppends s.poolFrames (kvLayer c.bits) ((c.noun 1).dim 2) c.seqs.zipIdx s.pagesTaken

/-- An append whose sequences pass their checks and fit their capacity fails at the first that goes without a page, or has its
positions written and its pages reserved. -/
theorem kvAppend_cases {s : State} (r : Nat) {c : ClauseSt} (hcheck : appendCheck s c = none) (hfits : AppendFits s c) :
    (∃ pos, appendPlans s c = .inr pos ∧ s.kvAppend r c = s.failClause r c.index (failNone stKvPoolEmpty pos)) ∨
    ∃ plans u, appendPlans s c = .inl plans ∧ s.SeqsUsed u ∧ s.kvAppend r c = State.workDone
      { u with kvm := { u.kvm with appends := u.kvm.appends ++ plans.map (reserved r c.index ((c.noun 1).dim 2)) } }
      r c.index (fun x => x) := by
  generalize ht : s.kvAppend r c = t
  unfold State.kvAppend at ht
  extract_lets -underBinder new words tnew layer at ht
  split at ht
  · next h => exact absurd (h.symm.trans hcheck) (by simp)
  · split at ht
    · next p h =>
      have hover := List.find?_some h
      simp only [decide_eq_true_eq] at hover
      exact absurd hover (Nat.not_lt.mpr (hfits p (List.mem_of_find?_eq_some h)))
    · split at ht
      · next pos h => exact .inl ⟨pos, h, ht.symm⟩
      · next plans h =>
        extract_lets -underBinder pins s1 vals kh bb s2 recs at ht
        have h1 : s.SeqsUsed s1 := .foldl _ fun t _ => t.seqsUsed_touchSeq ..
        have h2 : s.SeqsUsed s2 := h1.trans (.foldl _ fun _ _ => (State.storeOnly_writePositions ..).seqsUsed)
        exact .inr ⟨plans, s2, h, h2, ht.symm⟩

theorem exec_keyValueAppend_of_turn {r k : Nat} {h : HostView} {c : ClauseSt} {s : State}
    (hc : s.startedClause r k verbKvAppend = some c) (hturn : s.appendWaits r c.index = false) :
    exec (.keyValueAppend r k h) s = .next ((s.seeHost h).kvAppend r c) := by
  simp [exec, execKeyValueAppend, hc, hturn]

theorem append_reserves {r k : Nat} {h : HostView} {c : ClauseSt} {plans : List AppendPlan} {s : State}
    (hc : s.startedClause r k verbKvAppend = some c) (hturn : s.appendWaits r c.index = false) (hverdict : c.verdict = none)
    (hcheck : appendCheck (s.seeHost h) c = none) (hfits : AppendFits (s.seeHost h) c)
    (hplan : appendPlans (s.seeHost h) c = .inl plans) :
    ∃ t : State, exec (.keyValueAppend r k h) s = .next t ∧ clauseFrame (s.seeHost h) t ∧ workEnded t r c.index ∧
      t.kvm.used = s.kvm.used ∧ t.kvm.appends = s.kvm.appends ++ plans.map (reserved r c.index ((c.noun 1).dim 2)) := by
  have hexec := exec_keyValueAppend_of_turn (h := h) hc hturn
  rcases kvAppend_cases r hcheck hfits with ⟨pos, hempty, -⟩ | ⟨plans', u, hplan', hu, heq⟩
  · exact absurd (hplan.symm.trans hempty) (by simp)
  · obtain rfl : plans = plans' := Sum.inl.inj (hplan.symm.trans hplan')
    rw [heq] at hexec
    have hkvm : u.kvm = { s.kvm with cache := u.kvm.cache } := by rw [hu.frame]; rfl
    have hring : u.ring r = s.ring r := by rw [hu.frame]; rfl
    have hkept := (State.ClauseKept.refl _).evicted hu.evicted
    generalize hv : ({ u with kvm := _ } : State) = v at hexec
    have hvkept : (s.seeHost h).ClauseKept v := by rw [← hv]; exact hkept.update
    have hvring : v.ring r = s.ring r := by rw [← hv]; exact hring
    have hrings := workDone_of_no_verdict (f := fun x => x) (hvring ▸ clauseOf_of_startedClause hc) (fun _ => rfl) hverdict hverdict
    refine ⟨_, hexec, hvkept.workDone.frame, workEnded_workDone .., ?_, ?_⟩
    · rw [hrings, ← hv, hkvm]
    · rw [hrings, ← hv, hkvm]

theorem append_finds_pool_empty {r k pos : Nat} {h : HostView} {c : ClauseSt} {s : State}
    (hc : s.startedClause r k verbKvAppend = some c) (hturn : s.appendWaits r c.index = false)
    (hcheck : appendCheck (s.seeHost h) c = none) (hfits : AppendFits (s.seeHost h) c)
    (hplan : appendPlans (s.seeHost h) c = .inr pos) :
    exec (.keyValueAppend r k h) s = .next ((s.seeHost h).failClause r c.index (failNone stKvPoolEmpty pos)) := by
  rcases kvAppend_cases r hcheck hfits with ⟨pos', hempty, heq⟩ | ⟨plans, u, hplan', -, -⟩
  · obtain rfl : pos = pos' := Sum.inr.inj (hplan.symm.trans hempty)
    rw [exec_keyValueAppend_of_turn hc hturn, heq]
  · exact absurd (hplan.symm.trans hplan') (by simp)

/-! ### Evict (R228, R230) -/

/-- No page of a started evict clause waits yet. -/
theorem freeing_of_startedEvict {s : State} {r k fn : Nat} {c : ClauseSt} (h : s.startedEvict r k fn = some c) :
    s.kvm.freeing.any (fun x => x.ring == r && x.index == c.index) = false := by
  unfold State.startedEvict at h
  split at h
  · split at h
    · next hfree =>
      obtain rfl := Option.some.inj h
      simpa using hfree.2
    · exact absurd h (by simp)
  · exact absurd h (by simp)

/-- What an evict clause leaves: nothing outside the clause's reach, no page taken into use, and, where no started decode reads a
page, its work ended and no further page waiting. -/
structure EvictEnds (s t : State) (r index : Nat) : Prop where
  frame : clauseFrame s t
  used  : ∀ u ∈ t.kvm.used, u ∈ s.kvm.used
  ended : (∀ x ∈ s.kvm.reading, x.pages = []) → workEnded t r index ∧ t.kvm.freeing = s.kvm.freeing

/-- An evict that has given its pages up is done once none of them waits. -/
theorem evictEnds_settleEvict {s t : State} {r index : Nat} (h : s.PagesEvicted t)
    (hfree : s.kvm.freeing.any (fun x => x.ring == r && x.index == index) = false) :
    EvictEnds s ((t.checkQuotas true).settleEvict r index) r index := by
  have hquotas : t.PagesKept (t.checkQuotas true) := (State.PagesKept.refl t).checkQuotas
  have hsettled := hquotas.settleEvict (r := r) (index := index)
  refine ⟨((State.ClauseKept.refl s).evicted h).checkQuotas.settleEvict.frame, fun u hu => ?_, fun hread => ⟨?_, ?_⟩⟩
  · rw [hsettled.used] at hu
    exact h.used u hu
  · rw [State.settleEvict, if_neg (by rw [hquotas.freeing, h.freeing hread, hfree]; exact Bool.false_ne_true)]
    exact workEnded_workDone ..
  · rw [hsettled.freeing, h.freeing hread]

theorem evictEnds_kvClose {s : State} {r : Nat} {c : ClauseSt} (hcheck : s.checkWords c.seqs none none = none)
    (hfree : s.kvm.freeing.any (fun x => x.ring == r && x.index == c.index) = false) :
    EvictEnds s (s.kvClose r c) r c.index := by
  unfold State.kvClose
  extract_lets -underBinder words
  split
  · next hf => exact absurd (hf.symm.trans hcheck) (by simp)
  · extract_lets -underBinder pins s1
    have h1 : s.PagesEvicted s1 := .foldl (State.SeqsUsed.refl s).evicted _ fun t w =>
      (State.PagesEvicted.foldl (t.seqsUsed_touchSeq ..).evicted _ fun u _ => u.pagesEvicted_evictPage ..).trans
        (State.storeOnly_dpaWrite ..).seqsUsed.evicted
    exact evictEnds_settleEvict h1 hfree

theorem evictEnds_kvTruncate {s : State} {r : Nat} {c : ClauseSt} (hcheck : s.checkWords c.seqs none none = none)
    (hfree : s.kvm.freeing.any (fun x => x.ring == r && x.index == c.index) = false) :
    EvictEnds s (s.kvTruncate r c) r c.index := by
  have hword (t : State) (dva v : Nat) : t.PagesEvicted (t.setDirWord dva v) := (State.storeOnly_writeDva ..).seqsUsed.evicted
  unfold State.kvTruncate
  extract_lets -underBinder words
  split
  · next hf => exact absurd (hf.symm.trans hcheck) (by simp)
  · extract_lets -underBinder pins s1 s2
    have h1 : s.PagesEvicted s1 := .foldl (State.SeqsUsed.refl s).evicted _ fun t w =>
      (State.PagesEvicted.foldl (State.PagesEvicted.foldl (t.seqsUsed_touchSeq ..).evicted _ fun u _ =>
        (u.pagesEvicted_evictPage ..).trans (hword ..)) _ fun _ _ => hword ..).trans
          (State.storeOnly_dpaWrite ..).seqsUsed.evicted
    have h2 : s1.PagesEvicted s2 := ⟨rfl, fun _ => rfl, fun _ hu => hu, fun _ => rfl⟩
    exact evictEnds_settleEvict (h1.trans h2) hfree

/-- What the host's view changed is no page. -/
theorem EvictEnds.of_seeHost {s t : State} {h : HostView} {r index : Nat} (hends : EvictEnds (s.seeHost h) t r index) :
    clauseFrame (s.seeHost h) t ∧ (∀ u ∈ t.kvm.used, u ∈ s.kvm.used) ∧
      ((∀ x ∈ s.kvm.reading, x.pages = []) → workEnded t r index ∧ t.kvm.freeing = s.kvm.freeing) := by
  obtain ⟨hframe, hused, hended⟩ := hends
  rw [State.seeHost_kvm] at hused hended
  exact ⟨hframe, hused, hended⟩

theorem close_ends {r k : Nat} {h : HostView} {c : ClauseSt} {s : State} (hc : s.startedEvict r k 0 = some c)
    (hcheck : (s.seeHost h).checkWords c.seqs none none = none) :
    ∃ t : State, exec (.kvEvictClose r k h) s = .next t ∧ EvictEnds (s.seeHost h) t r c.index :=
  ⟨_, by simp [exec, execKvEvictClose, hc], evictEnds_kvClose hcheck (by rw [State.seeHost_kvm]; exact freeing_of_startedEvict hc)⟩

theorem truncate_ends {r k : Nat} {h : HostView} {c : ClauseSt} {s : State} (hc : s.startedEvict r k 1 = some c)
    (hcheck : (s.seeHost h).checkWords c.seqs none none = none) :
    ∃ t : State, exec (.kvEvictTruncate r k h) s = .next t ∧ EvictEnds (s.seeHost h) t r c.index :=
  ⟨_, by simp [exec, execKvEvictTruncate, hc],
    evictEnds_kvTruncate hcheck (by rw [State.seeHost_kvm]; exact freeing_of_startedEvict hc)⟩

/-! ### A page whose readers have completed (R230) -/

/-- A page waits no longer. -/
def pageReleased (s : State) (page : Nat) : State :=
  { s with kvm := { s.kvm with freeing := s.kvm.freeing.filter (fun x => decide (x.page ≠ page)) } }

theorem read_page_is_freed {page : Nat} {w : FreeWait} {s : State} (hw : s.kvm.freeing.find? (fun x => x.page == page) = some w)
    (hreaders : ∀ x ∈ w.readers, ∀ y ∈ s.kvm.reading, x ≠ (y.ring, y.index)) :
    ∃ t : State, exec (.deferredPageFree page) s = .next t ∧ clauseFrame s t ∧
      (∀ x ∈ t.kvm.freeing, x.page ≠ page) ∧ (∀ u ∈ t.kvm.used, u.1 ≠ page) ∧
      t.ctrGet kvmPagesFreed = s.ctrGet kvmPagesFreed + 1 := by
  have hdone : w.readers.any (fun x => s.kvm.reading.any (fun y => x == (y.ring, y.index))) = false := by
    simpa using hreaders
  have hexec : exec (.deferredPageFree page) s
      = .next ((((pageReleased s page).freePage page).checkQuotas true).settleEvict w.ring w.index) := by
    rw [exec, execDeferredPageFree, hw]
    simp only [hdone]
    rfl
  have hreleased : s.ClauseKept (pageReleased s page) := (State.ClauseKept.refl s).update
  have hwaiting : ∀ x ∈ (pageReleased s page).kvm.freeing, x.page ≠ page := fun _ hx => of_decide_eq_true (List.mem_filter.mp hx).2
  have hcount : (pageReleased s page).ctrGet = s.ctrGet := rfl
  generalize pageReleased s page = u at hexec hreleased hwaiting hcount
  have hfreed := u.pagesEvicted_freePage page
  have hkept := (State.PagesKept.refl (u.freePage page)).checkQuotas (loud := true) |>.settleEvict (r := w.ring) (index := w.index)
  refine ⟨_, hexec, (hreleased.evicted hfreed).checkQuotas.settleEvict.frame, ?_, ?_, ?_⟩
  · rw [hkept.freeing, u.freeing_freePage]
    exact hwaiting
  · rw [hkept.used]
    exact u.not_mem_used_freePage page
  · rw [hkept.freed, u.ctrGet_freePage, hcount]

/-! ### Decode attention (R231 to R240) -/

theorem clauseKept_finishDecode {s₀ s : State} (h : s₀.ClauseKept s) (r : Nat) (c : ClauseSt) (d : DecodeSt) :
    s₀.ClauseKept (s.finishDecode r c d) := by
  unfold State.finishDecode
  extract_lets -underBinder q o kh reads tau qa d heads down outs conv s1 st s2 s3
  have h1 : s₀.ClauseKept s1 := h.storeTensor
  clear_value s1
  have h2 : s₀.ClauseKept s2 := .ite h1.storeTensor h1
  clear_value s2
  have h3 : s₀.ClauseKept s3 := .ctrAdd (off := kvmTasksCore) h2.update
  exact h3.modRing

theorem verbEnds_decodeAttention {s : State} {r : Nat} {c : ClauseSt}
    (hcheck : checkReads (s.decodeReads r c) (decLayer c.bits) ((c.noun 0).dim 1) = none) :
    VerbEnds s (s.decodeAttention r c) r c.index := by
  unfold State.decodeAttention
  extract_lets -underBinder reads kh
  split
  · next hf => exact absurd (hf.symm.trans hcheck) (by simp)
  · extract_lets -underBinder tasks cols d0 d pins s1
    have h1 : s.ClauseKept s1 := (State.ClauseKept.refl s).evicted (State.SeqsUsed.foldl _ fun t _ => t.seqsUsed_touchSeq ..).evicted
    clear_value s1
    split
    · exact verbEnds_workDone (clauseKept_finishDecode h1 r c d) ..
    · have hqueued : s.ClauseKept (State.queueDecode { s1 with decodes := s1.decodes ++ [d] } r c d cols) :=
        .foldl h1.update fun _ _ ht => ht.modVault
      exact verbEnds_workDone hqueued ..

theorem decode_runs {r k : Nat} {h : HostView} {c : ClauseSt} {s : State} (hc : s.startedClause r k verbDecode = some c)
    (hturn : s.engineTurn r c = true)
    (hcheck : checkReads ((s.seeHost h).decodeReads r c) (decLayer c.bits) ((c.noun 0).dim 1) = none) :
    ∃ t : State, exec (.decodeAttention r k h) s = .next t ∧ t = (s.seeHost h).decodeAttention r c ∧
      VerbEnds (s.seeHost h) t r c.index :=
  ⟨_, by simp [exec, execDecodeAttention, hc, hturn], rfl, verbEnds_decodeAttention hcheck⟩

/-- Settles O21: each clause is one case of an append, of an evict, of a deferred page or of a decode. -/
theorem keyValueVerbsRun : Obligations.KeyValueVerbsRun := by
  unfold Obligations.KeyValueVerbsRun
  refine ⟨fun _ _ _ _ _ _ => append_reserves, fun _ _ _ _ _ _ => append_finds_pool_empty, fun r k h c s hc hcheck => ?_,
    fun r k h c s hc hcheck => ?_, fun _ _ _ => read_page_is_freed, fun r k h c s hc hturn hcheck => ?_⟩
  · obtain ⟨t, hexec, hends⟩ := close_ends hc hcheck
    exact ⟨t, hexec, hends.of_seeHost⟩
  · obtain ⟨t, hexec, hends⟩ := truncate_ends hc hcheck
    exact ⟨t, hexec, hends.of_seeHost⟩
  · obtain ⟨t, hexec, hdecode, hframe, hplaya, hended⟩ := decode_runs hc hturn hcheck
    exact ⟨t, hexec, hdecode, hframe, hplaya, hended⟩

end Sys2Proof.Proofs
end

section
/-! PROOFS. O38: an arrival at a barrier and a contribution to a flag, each told apart by whether the island takes part, and
put together (08 R255 to R258). -/

open Sys2Proof Sys2Proof.Machine

namespace Sys2Proof.Proofs

/-! ### Barriers (R256) -/

/-- Nothing is released while a participant that is not away has not arrived. -/
theorem releaseBarrier_of_missing {s : State} {o j : Nat} {x : SyncObj} (hj : j ∈ s.participants o)
    (haway : s.islandAway j = false) (hmissing : j ∉ x.arrived) : s.releaseBarrier o x = x := by
  have hfull : (s.participants o).all (fun n => x.arrived.contains n || s.islandAway n) = false :=
    List.all_eq_false.mpr ⟨j, hj, by simp [haway, hmissing]⟩
  simp only [State.releaseBarrier, hfull, Bool.and_false, Bool.false_and, Bool.false_eq_true, if_false]

/-- With every participant there, and none held for the next generation, the generation turns. -/
theorem releaseBarrier_of_all {s : State} {o n : Nat} {x : SyncObj} (hn : n ∈ s.participants o) (harrived : n ∈ x.arrived)
    (hall : ∀ j ∈ s.participants o, j ∈ x.arrived ∨ s.islandAway j = true) (hheld : x.held = []) :
    s.releaseBarrier o x = { x with gen := !x.gen, arrived := [] } := by
  have hfull : (s.participants o).all (fun j => x.arrived.contains j || s.islandAway j) = true :=
    List.all_eq_true.mpr fun j hj => by simpa using hall j hj
  have hsome : (s.participants o).isEmpty = false := by simpa using List.ne_nil_of_mem hn
  have hne : x.arrived ≠ [] := List.ne_nil_of_mem harrived
  simp only [State.releaseBarrier, hfull, hsome, hheld]
  simp [hne]

/-- An island that does not take part, or is away, does not arrive; neither does any at a flag (R255, R258). -/
theorem barrierArrive_idle {o n : Nat} {g : Bool} {s : State}
    (h : s.objectKind o = 2 ∨ n ∉ s.participants o ∨ s.islandAway n = true) : exec (.barrierArrive o n g) s = .next s := by
  have hidle : (decide (s.objectKind o = 2) || !(s.participants o).contains n || s.islandAway n) = true := by
    simpa [or_assoc] using h
  exact if_pos hidle

/-- An arrival at a barrier by a participant. -/
theorem barrierArrive_counts {o n : Nat} {g : Bool} {s : State} (hkind : s.objectKind o ≠ 2) (hn : n ∈ s.participants o)
    (haway : s.islandAway n = false) : exec (.barrierArrive o n g) s =
      if n ∈ (s.syncObj o).arrived then .next (s.setSync o { s.syncObj o with kind := 1, held := insSet n (s.syncObj o).held })
      else if g ≠ (s.syncObj o).gen then .next s
      else .next (s.setSync o (s.releaseBarrier o
        { s.syncObj o with kind := 1, arrived := insSet n (s.syncObj o).arrived })) := by
  have hrun : exec (.barrierArrive o n g) s = execBarrierArrive o n g s := rfl
  rw [hrun, execBarrierArrive]
  simp [hkind, hn, haway]

theorem barrierArrive_holds {o n j : Nat} {s : State} (hkind : s.objectKind o ≠ 2) (hn : n ∈ s.participants o)
    (haway : s.islandAway n = false) (hnew : n ∉ (s.syncObj o).arrived) (hj : j ∈ s.participants o) (hne : j ≠ n)
    (hjaway : s.islandAway j = false) (hmissing : j ∉ (s.syncObj o).arrived) :
    exec (.barrierArrive o n (s.syncObj o).gen) s
      = .next (s.setSync o { s.syncObj o with kind := 1, arrived := insSet n (s.syncObj o).arrived }) := by
  rw [barrierArrive_counts hkind hn haway, if_neg hnew, if_neg (fun h => h rfl),
    releaseBarrier_of_missing hj hjaway (by simp [hne, hmissing])]

theorem barrierArrive_releases {o n : Nat} {s : State} (hkind : s.objectKind o ≠ 2) (hn : n ∈ s.participants o)
    (haway : s.islandAway n = false) (hnew : n ∉ (s.syncObj o).arrived)
    (hall : ∀ j ∈ s.participants o, j = n ∨ j ∈ (s.syncObj o).arrived ∨ s.islandAway j = true)
    (hheld : (s.syncObj o).held = []) :
    exec (.barrierArrive o n (s.syncObj o).gen) s
      = .next (s.setSync o { s.syncObj o with kind := 1, gen := !(s.syncObj o).gen, arrived := [] }) := by
  have hthere : ∀ j ∈ s.participants o, j ∈ insSet n (s.syncObj o).arrived ∨ s.islandAway j = true := fun j hj => by
    simpa [or_assoc] using hall j hj
  rw [barrierArrive_counts hkind hn haway, if_neg hnew, if_neg (fun h => h rfl)]
  have hreleased := releaseBarrier_of_all (x := { s.syncObj o with kind := 1, arrived := insSet n (s.syncObj o).arrived }) hn
    ((mem_insSet ..).mpr (.inl rfl)) hthere hheld
  exact congrArg (fun x => Host.Outcome.next (s.setSync o x)) hreleased

theorem barrierArrive_twice {o n : Nat} {g : Bool} {s : State} (hkind : s.objectKind o ≠ 2) (hn : n ∈ s.participants o)
    (haway : s.islandAway n = false) (hold : n ∈ (s.syncObj o).arrived) :
    exec (.barrierArrive o n g) s = .next (s.setSync o { s.syncObj o with kind := 1, held := insSet n (s.syncObj o).held }) := by
  rw [barrierArrive_counts hkind hn haway, if_pos hold]

/-! ### Flags (R257, R327) -/

/-- A contribution of 0, one of an island that does not take part or is away, and one to a barrier (R255, R257, R258). -/
theorem flagContribute_idle {o n : Nat} {v : Bool} {s : State}
    (h : v = false ∨ s.objectKind o = 1 ∨ n ∉ s.participants o ∨ s.islandAway n = true) :
    exec (.flagContribute o n v) s = .next s := by
  have hidle : (!v || decide (s.objectKind o = 1) || !(s.participants o).contains n || s.islandAway n) = true := by
    simpa [or_assoc] using h
  exact if_pos hidle

/-- A contribution of 1 reaches the step owner whose flag the object is, or the object. -/
theorem flagContribute_counts {o n : Nat} {s : State} (hkind : s.objectKind o ≠ 1) (hn : n ∈ s.participants o)
    (haway : s.islandAway n = false) :
    (s.flagOwner o = none →
      exec (.flagContribute o n true) s = .next (s.setSync o { s.syncObj o with kind := 2, value := true })) ∧
    (∀ k x, s.flagOwner o = some k → s.stepOf k = some x →
      exec (.flagContribute o n true) s = .next (s.setStep k { x with nf := true })) := by
  have hrun : exec (.flagContribute o n true) s = execFlagContribute o n true s := rfl
  rw [hrun, execFlagContribute]
  constructor
  · intro howner
    simp [hkind, hn, haway, howner]
  · intro k x howner hstep
    simp [hkind, hn, haway, howner, hstep]

/-- Settles O38: each clause is one case of an arrival at a barrier or of a contribution to a flag; that the first use decides
an object's kind is log 64's. -/
theorem syncObjectsGather : Obligations.SyncObjectsGather := by
  unfold Obligations.SyncObjectsGather
  refine ⟨?held, ?released, ?twice, ?flag, ?owner, ?zero, ?apart, ?kinds⟩
  case held => exact fun o n j s hkind hn haway hnew hj hne hjaway => barrierArrive_holds hkind hn haway hnew hj hne hjaway
  case released => exact fun o n s hkind hn haway hnew hall => barrierArrive_releases hkind hn haway hnew hall
  case twice => exact fun o n g s hkind hn haway => barrierArrive_twice hkind hn haway
  case flag => exact fun o n s hkind hn haway => (flagContribute_counts hkind hn haway).1
  case owner => exact fun o n k x s hkind hn haway => (flagContribute_counts hkind hn haway).2 k x
  case zero => exact fun o n s => flagContribute_idle (.inl rfl)
  case apart => exact fun o n g v s h => ⟨barrierArrive_idle (.inr h), flagContribute_idle (.inr (.inr h))⟩
  case kinds =>
    exact fun o n g v s => ⟨fun h => barrierArrive_idle (.inl h), fun h => flagContribute_idle (.inr (.inl h))⟩

end Sys2Proof.Proofs
end

section
/-! PROOFS. Packets in a router: what stops one, what a hop, a delivery and a discard leave, and what a fault of a field does to
the buffers and the rings of the field (08 R246 to R252, R269, R270). -/

namespace Sys2Proof.Machine

/-! ### A packet in the buffers of a router -/

theorem RouterSt.packet_of_find {x : RouterSt} {p : Packet} {h : Held} (hfind : x.find p = some h) : h.packet = p := by
  simpa using List.find?_some hfind

theorem packetDirs_of_nextDir {p : Packet} {island d : Nat} (hmcast : packetMcast p = false)
    (hd : nextDir island (packetDst p) = some d) : packetDirs p island = [d] := by
  simp [packetDirs, hmcast, hd]

/-- A packet for one island goes nowhere from there. -/
theorem packetDirs_dst {p : Packet} (hmcast : packetMcast p = false) : packetDirs p (packetDst p) = [] := by
  simp [packetDirs, hmcast, nextDir]

theorem packetHere_iff {p : Packet} {island : Nat} (hmcast : packetMcast p = false) :
    packetHere p island = decide (packetDst p = island) := by
  simp [packetHere, packetDests, hmcast, eq_comm]

/-- Nothing stops a packet at the router's outputs: it is to be discarded, or each copy may go (R246, R247, R251). -/
def State.unstopped (s : State) (island : Nat) (p : Packet) : Bool :=
  packetReserved p || !packetKindOk p
    || ((packetDirs p island).all (fun d => s.dirFree island p d) && (!packetHere p island || s.portTakes island p))

theorem State.corruptDirs_of_no_slots {s : State} (island : Nat) (p : Packet) (hslots : s.dbg.slots = []) :
    s.corruptDirs island p = [] :=
  List.filter_eq_nil_iff.mpr fun _ _ => by simp [State.armedSlot, hslots]

/-- A packet whose turn it is leaves when nothing stops it. -/
theorem State.tryPacket_of_unstopped {s : State} {island : Nat} {h : Held} (hfree : s.unstopped island h.packet = true)
    (hnext : (s.router island).goesNext island h = true) (hslots : s.dbg.slots = []) :
    s.tryPacket island h = s.passPacket island h := by
  have hgoes : (s.unstopped island h.packet && (s.router island).goesNext island h) = true := by rw [hfree, hnext]; rfl
  rw [State.tryPacket]
  dsimp only
  rw [State.corruptDirs_of_no_slots island _ hslots]
  exact if_pos hgoes

/-- A packet that is stopped has lost an arbitration (R248). -/
theorem State.tryPacket_of_stopped {s : State} {island : Nat} {h : Held} (hstop : s.unstopped island h.packet = false) :
    s.tryPacket island h = s.setRouter island { s.router island with
      queue := (s.router island).queue.map (fun x => if x = h then { x with lost := x.lost + 1 } else x) } := by
  have hstays : ¬ (s.unstopped island h.packet && (s.router island).goesNext island h) = true := by simp [hstop]
  exact if_neg hstays

/-! ### A hop (R246, R251) -/

/-- A copy that crosses joins the buffers of the next router; its flits are counted. -/
structure State.Hop (s t : State) (island m : Nat) (x : Held) : Prop where
  frame   : t = { s with routers := t.routers, ctr := t.ctr }
  joined  : t.router m = { s.router m with queue := (s.router m).queue ++ [x] }
  left    : (t.router island).queue = (s.router island).queue
  others  : ∀ n, n ≠ m → n ≠ island → t.router n = s.router n
  counted : t.ctrGet (fabFlitsOut island) = s.ctrGet (fabFlitsOut island) + BitVec.ofNat 64 (packetFlits x.packet)
  rest    : countersSameBut s t (fabFlitsOut island)

theorem State.hop_sendPacket {s : State} {island d m : Nat} {p : Packet} (hm : neighbour island d = some m) :
    s.Hop (s.sendPacket island p d) island m { packet := p, input := opposite d, lost := 0 } := by
  have hne := neighbour_ne hm
  rw [State.sendPacket, hm]
  dsimp only
  generalize hs : (s.setRouter island { s.router island with replays := Tbl.drop (s.router island).replays d }).ctrAdd
    (fabFlitsOut island) (packetFlits p) = s1
  have hrouter (n : Nat) : s1.router n = if n = island then
      { s.router island with replays := Tbl.drop (s.router island).replays d } else s.router n := by
    rw [← hs]
    exact State.router_setRouter ..
  have hctr (q : Nat) : s1.ctrGet q = if q = fabFlitsOut island then
      s.ctrGet (fabFlitsOut island) + BitVec.ofNat 64 (packetFlits p) else s.ctrGet q := by
    rw [← hs]
    exact State.ctrGet_ctrAdd ..
  refine ⟨by rw [← hs]; rfl, ?_, ?_, fun n hn hi => ?_, (hctr _).trans (if_pos rfl), fun q hq => (hctr q).trans (if_neg hq)⟩
  · rw [State.router_setRouter_self, hrouter, if_neg hne]
  · rw [State.router_setRouter_ne _ _ hne.symm, hrouter, if_pos rfl]
  · rw [State.router_setRouter_ne _ _ hn, hrouter, if_neg hi]

/-! ### A packet leaves the buffers (R249, R252, R270) -/

/-- The packet is out of the router's buffers. -/
def State.unheld (s : State) (island : Nat) (h : Held) : State :=
  s.setRouter island { s.router island with queue := (s.router island).queue.erase h }

theorem State.router_unheld (s : State) (island : Nat) (h : Held) :
    (s.unheld island h).router island = { s.router island with queue := (s.router island).queue.erase h } :=
  State.router_setRouter_self ..

theorem State.routersSameBut_unheld (s : State) (island : Nat) (h : Held) : routersSameBut s (s.unheld island h) island :=
  fun _ hn => State.router_setRouter_ne s _ hn

theorem State.passPacket_of_bad {s : State} {island : Nat} {h : Held}
    (hbad : (packetReserved h.packet || !packetKindOk h.packet) = true) :
    s.passPacket island h = (s.unheld island h).discardPacket island h.packet := if_pos hbad

/-- A sound packet for another island makes one hop. -/
theorem State.passPacket_of_hop {s : State} {island d : Nat} {h : Held} (hres : packetReserved h.packet = false)
    (hkind : packetKindOk h.packet = true) (hmcast : packetMcast h.packet = false) (haway : packetDst h.packet ≠ island)
    (hd : nextDir island (packetDst h.packet) = some d) :
    s.passPacket island h = (s.unheld island h).sendPacket island h.packet d := by
  simp [State.passPacket, State.unheld, hres, hkind, packetDirs_of_nextDir hmcast hd, packetHere_iff hmcast, haway, hmcast]

/-- A sound packet for this island is taken in by a faulted field, delivered, or discarded. -/
theorem State.passPacket_of_here {s : State} {h : Held} (hres : packetReserved h.packet = false)
    (hkind : packetKindOk h.packet = true) (hmcast : packetMcast h.packet = false) :
    s.passPacket (packetDst h.packet) h =
      if s.faultedDrop h.packet then (s.unheld (packetDst h.packet) h).ctrAdd (fabFieldDrop (packetDst h.packet)) 1
      else if s.fieldOk (packetDst h.packet) h.packet && hasPort (packetDst h.packet) (packetDport h.packet) then
        (s.unheld (packetDst h.packet) h).setRouter (packetDst h.packet)
          (((s.unheld (packetDst h.packet) h).router (packetDst h.packet)).answered h.packet)
      else (s.unheld (packetDst h.packet) h).discardPacket (packetDst h.packet) h.packet := by
  have hdrop : (s.unheld (packetDst h.packet) h).faultedDrop h.packet = s.faultedDrop h.packet := rfl
  have hfield : (s.unheld (packetDst h.packet) h).fieldOk (packetDst h.packet) h.packet = s.fieldOk (packetDst h.packet) h.packet :=
    rfl
  simp only [State.passPacket, hres, hkind, hmcast, packetDirs_dst hmcast, packetHere_iff hmcast, List.foldl_nil,
    decide_true, Bool.not_true, Bool.or_false, Bool.false_eq_true, if_false]
  rw [← State.unheld, hdrop, hfield]

/-! ### A fault of a field (R269, R270) -/

/-- The buffers of a router hold no packet of the field. -/
def RouterSt.ClearOf (fid : Nat) (x : RouterSt) : Prop := ∀ h ∈ x.queue, packetSys h.packet = true ∨ packetField h.packet ≠ fid

/-- A pass over a table of routers clears router n, where the table's entry of n is its own state, and keeps it clear. -/
theorem State.clearOf_foldl {fid n : Nat} {f : State → Nat × RouterSt → State}
    (hclear : ∀ t x, (t.router n).ClearOf fid ∨ t.router n = x → ((f t (n, x)).router n).ClearOf fid)
    (hkeep : ∀ t e, e.1 ≠ n → (f t e).router n = t.router n) (l : Tbl RouterSt) (s : State)
    (hs : (s.router n).ClearOf fid ∨ s.router n = Tbl.get RouterSt.reset l n) : ((l.foldl f s).router n).ClearOf fid := by
  induction l generalizing s with
  | nil =>
    rcases hs with hs | hs
    · exact hs
    · intro h hh
      rw [List.foldl_nil, hs] at hh
      exact absurd hh List.not_mem_nil
  | cons e l ih =>
    obtain ⟨i, x⟩ := e
    refine ih _ ?_
    by_cases hi : i = n
    · subst hi
      exact .inl (hclear s x (hs.imp_right fun h => by simpa [Tbl.get] using h))
    · rw [hkeep s (i, x) hi]
      exact hs.imp_right fun h => by simpa [Tbl.get, Ne.symm hi] using h

theorem State.clearOf_dropPackets (s : State) (fid n : Nat) : ((s.dropPackets fid).router n).ClearOf fid := by
  have hmine (h : Held) : (!packetSys h.packet && packetField h.packet == fid) = false ↔
      packetSys h.packet = true ∨ packetField h.packet ≠ fid := by
    cases packetSys h.packet <;> simp
  unfold State.dropPackets
  extract_lets -underBinder mine
  refine State.clearOf_foldl (fun t x ht => ?_) (fun t e he => ?_) s.routers s (.inr rfl)
  · dsimp only
    split
    · next hgone =>
      refine ht.elim id fun hx h hh => ?_
      rw [hx] at hh
      have hnone := List.filter_eq_nil_iff.mp (List.length_eq_zero_iff.mp hgone) h hh
      exact (hmine h).mp (by simpa [mine] using hnone)
    · intro h hh
      have hset : h ∈ ((t.setRouter n { x with queue := x.queue.filter (fun h => !mine h) }).router n).queue := hh
      rw [State.router_setRouter_self] at hset
      exact (hmine h).mp (eq_false_of_ne_true fun hm => absurd (List.mem_filter.mp hset).2 (by simpa [mine] using hm))
  · dsimp only
    split
    · rfl
    · exact State.router_setRouter_ne t _ (Ne.symm he)

theorem State.dropPackets_frame (s : State) (fid : Nat) :
    s.dropPackets fid = { s with routers := (s.dropPackets fid).routers, ctr := (s.dropPackets fid).ctr } := by
  unfold State.dropPackets
  refine List.foldlRecOn (motive := fun t : State => t = { s with routers := t.routers, ctr := t.ctr }) _ _ rfl ?_
  intro t ht e _
  dsimp only
  split
  · exact ht
  · rw [ht]
    rfl

/-- The field is marked with the island, its packets are gone, and the fault is reported. -/
def State.fieldLost (s : State) (fid trigger island : Nat) (f : FieldSt) : State :=
  ((s.setField fid { f with faulted := some island }).dropPackets fid).event .fieldFault (some 6) 1 island (some fid) stFieldFault
    [BitVec.ofNat 64 trigger, BitVec.ofNat 64 island]

/-- A ring of a faulted field: its outstanding clauses fail, and it stops in any case. -/
def State.haltRing (island : Nat) (t : State) (r : Nat) : State :=
  let u := t.failOutstanding r (failNone stFieldFault island)
  if (u.ring r).isStopped then u else u.modRing r RingSt.haltEmpty

theorem State.fieldLost_frame (s : State) (fid trigger island : Nat) (f : FieldSt) :
    s.fieldLost fid trigger island f =
      { s with fields := (s.fieldLost fid trigger island f).fields, routers := (s.fieldLost fid trigger island f).routers
               ctr := (s.fieldLost fid trigger island f).ctr
               boot := { s.boot with events := (s.fieldLost fid trigger island f).boot.events }
               mgt := { s.mgt with awaiting := (s.fieldLost fid trigger island f).mgt.awaiting } } := by
  unfold State.fieldLost
  rw [(s.setField fid { f with faulted := some island }).dropPackets_frame fid]
  rfl

theorem State.faultField_eq {s : State} {fid : Nat} {f : FieldSt} (trigger island : Nat) (hf : s.fieldOf fid = some f)
    (hfaulted : f.faulted = none) :
    s.faultField fid trigger island
      = ((s.ringsOf (some fid)).foldl (State.haltRing island) (s.fieldLost fid trigger island f)).issueAll := by
  have hrings : (s.fieldLost fid trigger island f).rings = s.rings := by rw [State.fieldLost_frame]
  rw [State.faultField, hf]
  dsimp only
  rw [hfaulted, State.ringsOf, ← hrings]
  rfl

theorem State.fieldOf_fieldLost (s : State) (fid trigger island : Nat) (f : FieldSt) (q : Nat) :
    (s.fieldLost fid trigger island f).fieldOf q = if q = fid then some { f with faulted := some island } else s.fieldOf q := by
  have hfields : (s.fieldLost fid trigger island f).fields
      = Tbl.put fieldNone s.fields fid { f with faulted := some island } := by
    unfold State.fieldLost
    rw [State.dropPackets_frame]
    rfl
  have hset : ({ f with faulted := some island } : FieldSt) ≠ fieldNone := fun h =>
    absurd (congrArg FieldSt.faulted h) (Option.some_ne_none island)
  rw [State.fieldOf, hfields, Tbl.find_put, if_neg hset]
  rfl

theorem RingSt.isStopped_haltEmpty (x : RingSt) : x.haltEmpty.isStopped = true := RingSt.isStopped_become x

theorem RingSt.clauses_haltEmpty (x : RingSt) : x.haltEmpty.clauses = x.clauses := by
  have hbecome : (x.become .stopped).clauses = x.clauses := by rw [RingSt.become_eq]
  exact hbecome

theorem State.haltRing_of_quiet {t : State} (island : Nat) {r : Nat}
    (hquiet : (t.ring r).clauses.any ClauseSt.outstanding = false) :
    t.haltRing island r = if (t.ring r).isStopped then t else t.modRing r RingSt.haltEmpty := by
  have hnone : (t.ring r).clauses.filter ClauseSt.outstanding = [] :=
    List.filter_eq_nil_iff.mpr (List.any_eq_false.mp hquiet)
  simp only [State.haltRing, State.failOutstanding, hnone, List.map_nil, List.foldl_nil]

/-- At most ring r has changed, and no clause of it is outstanding. -/
structure State.Halted (s t : State) (r : Nat) : Prop where
  frame : t = { s with rings := t.rings }
  rings : ringsSameBut s t r
  quiet : (t.ring r).clauses.any ClauseSt.outstanding = false

theorem State.Halted.haltRing {s t : State} {r : Nat} (h : s.Halted t r) (island : Nat) :
    s.Halted (t.haltRing island r) r ∧ ((t.haltRing island r).ring r).isStopped = true := by
  rw [State.haltRing_of_quiet island h.quiet]
  split
  · next hstop => exact ⟨h, hstop⟩
  · refine ⟨⟨by rw [h.frame]; rfl, fun q hq => ?_, ?_⟩, ?_⟩
    · exact (State.ring_modRing ..).trans ((if_neg hq).trans (h.rings q hq))
    · rw [State.ring_modRing_self, RingSt.clauses_haltEmpty]
      exact h.quiet
    · rw [State.ring_modRing_self]
      exact RingSt.isStopped_haltEmpty _

/-- One ring, halted once or more often. -/
theorem State.Halted.foldl {s t : State} {r : Nat} (h : s.Halted t r) (island : Nat) {l : List Nat} (hl : ∀ q ∈ l, q = r)
    (hne : l ≠ []) : s.Halted (l.foldl (State.haltRing island) t) r ∧
      ((l.foldl (State.haltRing island) t).ring r).isStopped = true := by
  induction l generalizing t with
  | nil => exact absurd rfl hne
  | cons q l ih =>
    obtain rfl : q = r := hl q List.mem_cons_self
    obtain ⟨hhalted, hstop⟩ := h.haltRing island
    rw [List.foldl_cons]
    cases l with
    | nil => exact ⟨hhalted, hstop⟩
    | cons p l => exact ih hhalted (fun x hx => hl x (List.mem_cons_of_mem q hx)) (List.cons_ne_nil p l)

theorem Tbl.mem_of_get_ne {α : Type} {d : α} {t : Tbl α} {k : Nat} (h : Tbl.get d t k ≠ d) : (k, Tbl.get d t k) ∈ t := by
  induction t with
  | nil => exact absurd rfl h
  | cons e t ih =>
    obtain ⟨i, w⟩ := e
    by_cases hk : k = i
    · simp [Tbl.get, hk]
    · rw [Tbl.get, if_neg hk] at h ⊢
      exact List.mem_cons_of_mem _ (ih h)

/-- An open ring of the field is one of its rings. -/
theorem State.mem_ringsOf {s : State} {r : Nat} (hr : r ≠ 0) (hopen : (s.ring r).isOpen = true) :
    r ∈ s.ringsOf (some (s.ring r).field) := by
  have hlisted : (r, s.ring r) ∈ s.rings := Tbl.mem_of_get_ne (d := RingSt.reset) fun h => by
    have hreset : s.ring r = RingSt.reset := h
    rw [hreset] at hopen
    exact absurd hopen (by decide)
  exact List.mem_filterMap.mpr ⟨(r, s.ring r), hlisted, by simp [hr, hopen]⟩

theorem State.ringsOf_eq_nil {s : State} {fid : Nat} (h : ∀ e ∈ s.rings, e.1 = 0 ∨ e.2.isOpen = false ∨ e.2.field ≠ fid) :
    s.ringsOf (some fid) = [] :=
  List.filterMap_eq_nil_iff.mpr fun e he => if_neg fun hmine => by
    obtain ⟨hzero, hopen, hfield⟩ := hmine
    rcases h e he with h | h | h
    · exact hzero h
    · exact absurd hopen (by simp [h])
    · exact h hfield

theorem State.eq_of_mem_ringsOf {s : State} {fid r : Nat}
    (h : ∀ e ∈ s.rings, e.1 = 0 ∨ e.1 = r ∨ e.2.isOpen = false ∨ e.2.field ≠ fid) : ∀ q ∈ s.ringsOf (some fid), q = r := fun q hq => by
  obtain ⟨e, he, hmine⟩ := List.mem_filterMap.mp hq
  obtain ⟨⟨hzero, hopen, hfield⟩, hkey⟩ := Option.ite_none_right_eq_some.mp hmine
  rcases h e he with h | h | h | h
  · exact absurd h hzero
  · exact (Option.some.inj hkey).symm.trans h
  · exact absurd hopen (by simp [h])
  · exact absurd hfield h

end Sys2Proof.Machine
end

section
/-! PROOFS. O36: the cases of a packet that is sent, forwarded, delivered or discarded, and of a field's fault, put together. -/

open Sys2Proof Sys2Proof.Machine

namespace Sys2Proof.Proofs

/-! ### Packets -/

/-- A packet in the buffers of a router that is on is tried there. -/
theorem meshPacket_tries {island : Nat} {p : Packet} {h : Held} {s : State} (hon : s.routerOn island = true)
    (hsound : packetSound p = true) (hfind : (s.router island).find p = some h) :
    exec (.meshPacket island p) s = .next (s.tryPacket island h) := by
  have hrun : exec (.meshPacket island p) s = execMeshPacket island p s := rfl
  rw [hrun, execMeshPacket, hon, hsound, hfind]
  rfl

theorem meshPacket_forwards {island d m : Nat} {p : Packet} {h : Held} {s : State} (hon : s.routerOn island = true)
    (hsound : packetSound p = true) (hfind : (s.router island).find p = some h) (hres : packetReserved p = false)
    (hkind : packetKindOk p = true) (hmcast : packetMcast p = false) (haway : packetDst p ≠ island)
    (hd : nextDir island (packetDst p) = some d) (hm : neighbour island d = some m) (hfree : s.dirFree island p d = true)
    (hnext : (s.router island).goesNext island h = true) (hslots : s.dbg.slots = []) :
    ∃ t : State, exec (.meshPacket island p) s = .next t ∧ t = { s with routers := t.routers, ctr := t.ctr } ∧
      t.router m = { s.router m with queue := (s.router m).queue ++ [{ packet := p, input := opposite d, lost := 0 }] } ∧
      (t.router island).queue = (s.router island).queue.erase h ∧
      (∀ n, n ≠ m → n ≠ island → t.router n = s.router n) ∧
      t.ctrGet (fabFlitsOut island) = s.ctrGet (fabFlitsOut island) + BitVec.ofNat 64 (1 + packetLen p) ∧
      countersSameBut s t (fabFlitsOut island) := by
  obtain rfl := RouterSt.packet_of_find hfind
  have hunstopped : s.unstopped island h.packet = true := by
    simp [State.unstopped, packetDirs_of_nextDir hmcast hd, hfree, packetHere_iff hmcast, haway]
  have hhop := State.hop_sendPacket (s := s.unheld island h) (p := h.packet) hm
  have hflits : packetFlits h.packet = 1 + packetLen h.packet := by simp [packetFlits, hmcast, flag]
  rw [meshPacket_tries hon hsound hfind, State.tryPacket_of_unstopped hunstopped hnext hslots,
    State.passPacket_of_hop hres hkind hmcast haway hd]
  obtain ⟨hframe, hjoined, hleft, hothers, hcounted, hrest⟩ := hhop
  refine ⟨_, rfl, hframe, ?_, ?_, fun n hn hi => ?_, ?_, hrest⟩
  · rw [hjoined, State.routersSameBut_unheld s island h m (neighbour_ne hm)]
  · rw [hleft, State.router_unheld]
  · rw [hothers n hn hi, State.routersSameBut_unheld s island h n hi]
  · rw [hcounted, hflits]
    rfl

theorem meshPacket_loses {island d : Nat} {p : Packet} {h : Held} {s : State} (hon : s.routerOn island = true)
    (hsound : packetSound p = true) (hfind : (s.router island).find p = some h) (hres : packetReserved p = false)
    (hkind : packetKindOk p = true) (hmcast : packetMcast p = false) (hd : nextDir island (packetDst p) = some d)
    (hheld : s.dirFree island p d = false) :
    exec (.meshPacket island p) s = .next (s.setRouter island { s.router island with
      queue := (s.router island).queue.map (fun x => if x = h then { x with lost := x.lost + 1 } else x) }) := by
  obtain rfl := RouterSt.packet_of_find hfind
  have hstopped : s.unstopped island h.packet = false := by
    simp [State.unstopped, hres, hkind, packetDirs_of_nextDir hmcast hd, hheld]
  rw [meshPacket_tries hon hsound hfind, State.tryPacket_of_stopped hstopped]

theorem meshPacket_enters {island : Nat} {p : Packet} {s : State} (hon : s.routerOn island = true)
    (hsound : packetSound p = true) (hfind : (s.router island).find p = none) (hsend : s.maySend island p = true)
    (hopen : s.inputOpen island (4 + packetSport p) (packetVc p) = true) :
    exec (.meshPacket island p) s
      = .next ((s.injectPacket island p).tryPacket island { packet := p, input := 4 + packetSport p, lost := 0 }) := by
  have hrun : exec (.meshPacket island p) s = execMeshPacket island p s := rfl
  rw [hrun, execMeshPacket, hon, hsound, hfind]
  simp [hsend, hopen]

theorem queue_injectPacket (s : State) (island : Nat) (p : Packet) :
    ((s.injectPacket island p).router island).queue
      = (s.router island).queue ++ [{ packet := p, input := 4 + packetSport p, lost := 0 }] := by
  rw [State.injectPacket, State.router_setRouter_self]

/-- A packet at its own island is delivered, or taken in by its faulted field (R252, R270). -/
theorem meshPacket_arrives {p : Packet} {h : Held} {s : State} (hon : s.routerOn (packetDst p) = true)
    (hsound : packetSound p = true) (hfind : (s.router (packetDst p)).find p = some h) (hres : packetReserved p = false)
    (hkind : packetKindOk p = true) (hmcast : packetMcast p = false) (htakes : s.portTakes (packetDst p) p = true)
    (hnext : (s.router (packetDst p)).goesNext (packetDst p) h = true) (hslots : s.dbg.slots = []) :
    (s.faultedDrop p = false → s.fieldOk (packetDst p) p = true → hasPort (packetDst p) (packetDport p) = true →
      ∃ t : State, exec (.meshPacket (packetDst p) p) s = .next t ∧ t = { s with routers := t.routers } ∧
        t.router (packetDst p)
          = RouterSt.answered { s.router (packetDst p) with queue := (s.router (packetDst p)).queue.erase h } p ∧
        routersSameBut s t (packetDst p)) ∧
    (s.faultedDrop p = true →
      ∃ t : State, exec (.meshPacket (packetDst p) p) s = .next t ∧ t = { s with routers := t.routers, ctr := t.ctr } ∧
        (t.router (packetDst p)).queue = (s.router (packetDst p)).queue.erase h ∧ routersSameBut s t (packetDst p) ∧
        t.ctrGet (fabFieldDrop (packetDst p)) = s.ctrGet (fabFieldDrop (packetDst p)) + 1 ∧
        countersSameBut s t (fabFieldDrop (packetDst p))) := by
  obtain rfl := RouterSt.packet_of_find hfind
  have hunstopped : s.unstopped (packetDst h.packet) h.packet = true := by
    simp [State.unstopped, packetDirs_dst hmcast, htakes]
  rw [meshPacket_tries hon hsound hfind, State.tryPacket_of_unstopped hunstopped hnext hslots,
    State.passPacket_of_here hres hkind hmcast]
  have hsame := State.routersSameBut_unheld s (packetDst h.packet) h
  constructor
  · intro hdrop hfield hport
    rw [if_neg (by simp [hdrop]), if_pos (by simp [hfield, hport])]
    refine ⟨_, rfl, rfl, ?_, fun n hn => (State.router_setRouter_ne _ _ hn).trans (hsame n hn)⟩
    rw [State.router_setRouter_self, State.router_unheld]
  · intro hdrop
    rw [if_pos hdrop]
    refine ⟨_, rfl, rfl, ?_, hsame, ?_, fun q hq => ?_⟩
    · exact congrArg RouterSt.queue (State.router_unheld s _ h)
    · exact (State.ctrGet_ctrAdd ..).trans (if_pos rfl)
    · exact (State.ctrGet_ctrAdd ..).trans (if_neg hq)

/-- A system packet with a reserved code is discarded, counted and reported (R252). -/
theorem meshPacket_discards {island : Nat} {p : Packet} {h : Held} {s : State} (hon : s.routerOn island = true)
    (hsound : packetSound p = true) (hfind : (s.router island).find p = some h) (hres : packetReserved p = true)
    (hsys : packetSys p = true) (hnext : (s.router island).goesNext island h = true) (hslots : s.dbg.slots = []) :
    ∃ t : State, exec (.meshPacket island p) s = .next t ∧
      t = { s with routers := t.routers, ctr := t.ctr, boot := { s.boot with events := t.boot.events }
                   mgt := { s.mgt with awaiting := t.mgt.awaiting } } ∧
      (t.router island).queue = (s.router island).queue.erase h ∧ routersSameBut s t island ∧
      t.ctrGet (fabFieldDrop island) = s.ctrGet (fabFieldDrop island) + 1 ∧
      (t.boot.events.head?).map (·.kind) = some .meshDevice := by
  obtain rfl := RouterSt.packet_of_find hfind
  have hbad : (packetReserved h.packet || !packetKindOk h.packet) = true := by rw [hres, Bool.true_or]
  have hunstopped : s.unstopped island h.packet = true := by simp [State.unstopped, hres]
  rw [meshPacket_tries hon hsound hfind, State.tryPacket_of_unstopped hunstopped hnext hslots, State.passPacket_of_bad hbad,
    State.discardPacket, hsys]
  refine ⟨_, rfl, rfl, ?_, State.routersSameBut_unheld s island h, ?_, State.kind_head_event ..⟩
  · exact congrArg RouterSt.queue (State.router_unheld s island h)
  · exact (State.ctrGet_ctrAdd ..).trans (if_pos rfl)

/-! ### Fields -/

theorem fieldFault_runs {fid : Nat} {f : FieldSt} {s : State} (island : Nat) (hf : s.fieldOf fid = some f)
    (hfaulted : f.faulted = none) : exec (.fieldFault fid island) s = .next
      ((s.ringsOf (some fid)).foldl (State.haltRing island) (s.fieldLost fid faultPacket island f)).issueAll :=
  congrArg Host.Outcome.next (State.faultField_eq faultPacket island hf hfaulted)

theorem fieldFault_marks {fid island : Nat} {f : FieldSt} {s : State} (hf : s.fieldOf fid = some f) (hfaulted : f.faulted = none)
    (hrings : ∀ e ∈ s.rings, e.1 = 0 ∨ e.2.isOpen = false ∨ e.2.field ≠ fid) :
    ∃ u : State, exec (.fieldFault fid island) s = .next u.issueAll ∧
      u = { s with fields := u.fields, routers := u.routers, ctr := u.ctr, boot := { s.boot with events := u.boot.events }
                   mgt := { s.mgt with awaiting := u.mgt.awaiting } } ∧
      u.fieldOf fid = some { f with faulted := some island } ∧ (∀ q, q ≠ fid → u.fieldOf q = s.fieldOf q) ∧
      (∀ n, ∀ h ∈ (u.router n).queue, packetSys h.packet = true ∨ packetField h.packet ≠ fid) ∧
      (u.boot.events.head?).map (·.kind) = some .fieldFault := by
  rw [fieldFault_runs island hf hfaulted, State.ringsOf_eq_nil hrings, List.foldl_nil]
  refine ⟨_, rfl, State.fieldLost_frame .., ?_, fun q hq => ?_, fun n => ?_, State.kind_head_event ..⟩
  · rw [State.fieldOf_fieldLost, if_pos rfl]
  · rw [State.fieldOf_fieldLost, if_neg hq]
  · exact State.clearOf_dropPackets (s.setField fid { f with faulted := some island }) fid n

theorem fieldFault_stops_ring {fid island r : Nat} {f : FieldSt} {s : State} (hf : s.fieldOf fid = some f)
    (hfaulted : f.faulted = none) (hr : r ≠ 0) (hopen : (s.ring r).isOpen = true) (hfield : (s.ring r).field = fid)
    (hquiet : (s.ring r).clauses.any ClauseSt.outstanding = false)
    (hrings : ∀ e ∈ s.rings, e.1 = 0 ∨ e.1 = r ∨ e.2.isOpen = false ∨ e.2.field ≠ fid) :
    ∃ u : State, exec (.fieldFault fid island) s = .next u.issueAll ∧ (u.ring r).isStopped = true ∧ ringsSameBut s u r ∧
      u = { s with fields := u.fields, routers := u.routers, ctr := u.ctr, rings := u.rings
                   boot := { s.boot with events := u.boot.events }, mgt := { s.mgt with awaiting := u.mgt.awaiting } } := by
  have hrun := fieldFault_runs island hf hfaulted
  have hlost := s.fieldLost_frame fid faultPacket island f
  generalize s.fieldLost fid faultPacket island f = v at hrun hlost
  have hring (q : Nat) : v.ring q = s.ring q := by
    rw [hlost]
    rfl
  have hstart : v.Halted v r := ⟨rfl, fun _ _ => rfl, by rw [hring]; exact hquiet⟩
  obtain ⟨hhalted, hstop⟩ := hstart.foldl island (State.eq_of_mem_ringsOf hrings)
    (List.ne_nil_of_mem (hfield ▸ State.mem_ringsOf hr hopen))
  refine ⟨_, hrun, hstop, fun q hq => (hhalted.rings q hq).trans (hring q), ?_⟩
  rw [hhalted.frame, hlost]

/-- Settles O36: each clause is one case of a packet in a router, or of a fault of a field; that a ring without outstanding
clauses stops at its lowest clause, or at the next to be fetched, is log 63's. -/
theorem packetsTravelAndFieldsFault : Obligations.PacketsTravelAndFieldsFault := by
  unfold Obligations.PacketsTravelAndFieldsFault
  refine ⟨?forwards, ?loses, ?enters, ?arrives, ?discards, ?marks, ?stops⟩
  case forwards =>
    exact fun island d m p h s hon hsound hfind hres hkind hmcast haway hd hm hfree hnext hslots =>
      meshPacket_forwards hon hsound hfind hres hkind hmcast haway hd hm hfree hnext hslots
  case loses =>
    exact fun island d p h s hon hsound hfind hres hkind hmcast hd hheld =>
      meshPacket_loses hon hsound hfind hres hkind hmcast hd hheld
  case enters =>
    exact fun island p s hon hsound hfind hsend hopen =>
      ⟨meshPacket_enters hon hsound hfind hsend hopen, rfl, queue_injectPacket s island p⟩
  case arrives =>
    exact fun p h s hon hsound hfind hres hkind hmcast htakes hnext hslots =>
      meshPacket_arrives hon hsound hfind hres hkind hmcast htakes hnext hslots
  case discards =>
    exact fun island p h s hon hsound hfind hres hsys hnext hslots =>
      meshPacket_discards hon hsound hfind hres hsys hnext hslots
  case marks => exact fun fid island f s hf hfaulted hrings => fieldFault_marks hf hfaulted hrings
  case stops =>
    exact fun fid island r f s hf hfaulted hr hopen hfield hquiet hrings =>
      fieldFault_stops_ring hf hfaulted hr hopen hfield hquiet hrings

end Sys2Proof.Proofs
end

section
/-! PROOFS. The INST that each group's next collective takes (O22): neither a clause's failure nor its completion touches it, and
no frame sent does (09 R282, R303). -/

namespace Sys2Proof.Machine

/-- The INST that the next collective of each group takes is the table's. -/
structure State.InstsAre (insts : Tbl Nat) (s : State) : Prop where
  next : s.lnk.instNext = insts

variable {insts : Tbl Nat} {s : State}

theorem State.InstsAre.ite {t : State} {c : Prop} {_ : Decidable c} (hs : s.InstsAre insts) (ht : t.InstsAre insts) :
    (if c then s else t).InstsAre insts := by
  split <;> assumption

theorem State.InstsAre.foldl {α : Type} {f : State → α → State} {l : List α} (h : s.InstsAre insts)
    (hf : ∀ t a, t.InstsAre insts → (f t a).InstsAre insts) : (l.foldl f s).InstsAre insts :=
  List.foldlRecOn l f h fun t ht a _ => hf t a ht

/-- A record update that keeps the next INSTs among what the links hold. -/
theorem State.InstsAre.update {pending time freeIdx dram playa delays host ctr latchHi loHold staged applied glb epoch cmd rings
    tainted conj fields steps sync slow cores vaults caches tiers engines selfRef kvm decodes routers slots reducing ports lnk
    colls pwr doms thm err dbg boot bond mgt oas cxl io pins} (h : s.InstsAre insts)
    (hnext : lnk.instNext = s.lnk.instNext := by rfl) :
    State.InstsAre insts (.mk pending time freeIdx dram playa delays host ctr latchHi loHold staged applied glb epoch cmd rings
      tainted conj fields steps sync slow cores vaults caches tiers engines selfRef kvm decodes routers slots reducing ports
      lnk colls pwr doms thm err dbg boot bond mgt oas cxl io pins) :=
  ⟨hnext.trans h.next⟩

theorem State.InstsAre.stored {t : State} (h : s.InstsAre insts) (g : s.StoreOnly t) : t.InstsAre insts := by
  rw [g.frame]
  exact h.update

theorem State.InstsAre.modRing {r f} (h : s.InstsAre insts) : (s.modRing r f).InstsAre insts := h.update
theorem State.InstsAre.modPort {p f} (h : s.InstsAre insts) : (s.modPort p f).InstsAre insts := h.update
theorem State.InstsAre.ctrAdd {o n} (h : s.InstsAre insts) : (s.ctrAdd o n).InstsAre insts := h.update
theorem State.InstsAre.event {a b c d e f g} (h : s.InstsAre insts) : (s.event a b c d e f g).InstsAre insts := h.update
theorem State.InstsAre.answer {a} (h : s.InstsAre insts) : (s.answer a).InstsAre insts := h.update
theorem State.InstsAre.setCmd {c} (h : s.InstsAre insts) : State.InstsAre insts { s with cmd := c } := h.update
theorem State.InstsAre.setStep {o v} (h : s.InstsAre insts) : (s.setStep o v).InstsAre insts := h.update

/-! ### Frames sent -/

theorem State.InstsAre.transmit {p f} (h : s.InstsAre insts) : (s.transmit p f).InstsAre insts := h.update
theorem State.InstsAre.freePool {p f} (h : s.InstsAre insts) : (s.freePool p f).InstsAre insts := .ite h.modPort h

theorem State.InstsAre.pump {n p : Nat} {s : State} (h : s.InstsAre insts) : (State.pump n p s).InstsAre insts := by
  induction n generalizing s with
  | zero => exact h
  | succ n ih =>
    unfold State.pump
    split
    · exact ih h.modPort.transmit.freePool
    · exact h

theorem State.InstsAre.emitOn {p f} (h : s.InstsAre insts) : (s.emitOn p f).InstsAre insts := h.modPort.pump

theorem State.InstsAre.emit {f} (h : s.InstsAre insts) : (s.emit f).InstsAre insts := .ite h.update (by
  split
  · exact h.emitOn
  · exact h.ctrAdd.event)

theorem State.InstsAre.tellGroup {c type except} (h : s.InstsAre insts) : (s.tellGroup c type except).InstsAre insts :=
  .foldl h fun _ _ ht => ht.update.emit

theorem State.InstsAre.abortColl {r index} (h : s.InstsAre insts) : (s.abortColl r index).InstsAre insts :=
  .foldl h fun _ _ ht => ht.tellGroup.update

/-! ### Elements counted for a clause that fails, and deferred host writes (R200, R201) -/

theorem State.InstsAre.countFailed {r c} (h : s.InstsAre insts) : (s.countFailed r c).InstsAre insts := by
  unfold State.countFailed
  extract_lets s1
  have h1 : s1.InstsAre insts := by
    unfold s1
    split
    · exact h.ctrAdd.ctrAdd
    · exact h
  refine .ite h1 ?_
  unfold State.raiseNf
  split
  · split
    · exact h1.setStep
    · exact h1
  · exact h1

theorem State.InstsAre.checkQuotas {loud} (h : s.InstsAre insts) : (s.checkQuotas loud).InstsAre insts :=
  .foldl h fun _ _ ht => by
    split
    · exact .ite ht (.ite ht.update ht.update)
    · exact ht

theorem State.InstsAre.serveWrite {dpa bs poison} (h : s.InstsAre insts) : (s.serveWrite dpa bs poison).InstsAre insts := by
  unfold State.serveWrite
  extract_lets n a dead s1 s2 s4 s5
  have h1 : s1.InstsAre insts := .stored (s := s.taint dpa bs.length) h.update (State.storeOnly_dpaWrite ..)
  have h2 : s2.InstsAre insts := .ite (h1.stored (State.storeOnly_poisonLine ..)) h1
  have h4 : s4.InstsAre insts := h2.update
  have h5 : s5.InstsAre insts := h4.ctrAdd.answer
  exact .ite (.answer (.ite h.ctrAdd h)) (.ite h.ctrAdd.event.answer (.ite h5.checkQuotas h5))

/-- Only writes are deferred requests that an unlocked region lets through. -/
theorem State.InstsAre.drainDeferred {n} (h : s.InstsAre insts) : (s.drainDeferred n).InstsAre insts := by
  unfold State.drainDeferred
  extract_lets free go s1
  have h1 : s1.InstsAre insts := h.update
  refine List.foldlRecOn _ _ h1 fun t ht w hw => .ite ht.update ?_
  have hfree := (List.mem_filter.mp hw).2
  cases w with
  | write a bs p q => exact ht.serveWrite
  | read a p => exact absurd hfree Bool.false_ne_true
  | rawWrite a k => exact absurd hfree Bool.false_ne_true
  | rawRead a => exact absurd hfree Bool.false_ne_true

theorem State.InstsAre.drainAllDeferred (h : s.InstsAre insts) : s.drainAllDeferred.InstsAre insts :=
  .foldl h fun _ _ ht => ht.drainDeferred

theorem State.InstsAre.releaseWork {r index} (h : s.InstsAre insts) : (s.releaseWork r index).InstsAre insts := h.update

theorem State.InstsAre.poisonEvent {r c f} (h : s.InstsAre insts) : (s.poisonEvent r c f).InstsAre insts := .ite h.event h

theorem State.InstsAre.undefineOutputs {c} (h : s.InstsAre insts) : (s.undefineOutputs c).InstsAre insts := by
  have hbytes {t : State} {place dva n : Nat} (ht : t.InstsAre insts) : (t.undefineBytes place dva n).InstsAre insts :=
    (ht.stored (State.storeOnly_writeDva ..)).update
  exact .ite h (.foldl h fun _ _ ht => .ite (.ite (hbytes (hbytes ht)) (hbytes ht)) ht)

/-! ### Records, and rings that close or become idle -/

theorem State.InstsAre.writeRecord {r slot tag f irq} (h : s.InstsAre insts) :
    (s.writeRecord r slot tag f irq).InstsAre insts := by
  rw [State.writeRecord_eq]
  exact h.update

theorem State.InstsAre.flushPosted {r} (h : s.InstsAre insts) : (s.flushPosted r).InstsAre insts := by
  unfold State.flushPosted
  exact .modRing (.foldl (.foldl h.update fun _ _ ht => ht.writeRecord) fun _ _ ht => ht.writeRecord)

theorem State.InstsAre.ringClosed {r} (h : s.InstsAre insts) : (s.ringClosed r).InstsAre insts := by
  have hreset : ((s.flushPosted r).setRing r RingSt.reset).InstsAre insts := h.flushPosted.update
  unfold State.ringClosed State.leaveLine
  exact .ite hreset hreset.setCmd

theorem State.InstsAre.openAdmin (h : s.InstsAre insts) : s.openAdmin.InstsAre insts := .ite h.setCmd.event h.update

theorem State.InstsAre.closeNow {r} (h : s.InstsAre insts) : (s.closeNow r).InstsAre insts := by
  have hclosed := h.ringClosed (r := r)
  rw [State.closeNow_eq, State.afterClose]
  generalize s.ringClosed r = t at hclosed ⊢
  have hzero : t.ring0Closed.InstsAre insts := hclosed.setCmd
  exact .ite (.ite hzero.openAdmin hzero) hclosed.modRing

theorem State.InstsAre.stopUnfetched {r f} (h : s.InstsAre insts) : (s.stopUnfetched r f).InstsAre insts := by
  unfold State.stopUnfetched
  exact .modRing (.ite h.writeRecord.setCmd h.writeRecord)

theorem State.InstsAre.seeProducer {r v} (h : s.InstsAre insts) : (s.seeProducer r v).InstsAre insts := by
  have hset {x : RingSt} : (s.setRing r x).InstsAre insts := h.update
  exact .ite hset (.ite hset hset.stopUnfetched)

theorem State.InstsAre.tryClose {r} (h : s.InstsAre insts) : (s.tryClose r).InstsAre insts := by
  have hset {x : RingSt} : (s.setRing r x).InstsAre insts := h.update
  exact .ite h.closeNow (.ite (.modRing (.ite hset.seeProducer.modRing hset.seeProducer)) h)

theorem State.InstsAre.sendNext {core paren} (h : s.InstsAre insts) : (s.sendNext core paren).InstsAre insts := by
  unfold State.sendNext
  split
  · exact .ite h.update h.update
  · exact h

/-! ### Failing, and settling (R78, R111) -/

theorem State.InstsAre.failClause {r index f} (h : s.InstsAre insts) : (s.failClause r index f).InstsAre insts := by
  unfold State.failClause
  extract_lets -underBinder ring
  split
  · exact h
  · extract_lets -underBinder sA back s0 s1 s2 cmd s3 s4 s5
    have hA : sA.InstsAre insts := .ite h.abortColl h
    clear_value sA
    have h0 : s0.InstsAre insts := .poisonEvent (.drainAllDeferred (.releaseWork (.foldl hA.countFailed fun _ _ ht =>
      ht.releaseWork)))
    clear_value s0
    have h1 : s1.InstsAre insts := .ite h0.undefineOutputs h0
    have h2 : s2.InstsAre insts := h1.writeRecord
    clear_value s2
    have h3 : s3.InstsAre insts := .ite h2.setCmd h2
    clear_value s3
    have h5 : s5.InstsAre insts := (h3.modRing (r := r)).update
    exact .tryClose (.foldl h5 fun _ _ ht => ht.sendNext)

theorem State.InstsAre.workDone {r index f} (h : s.InstsAre insts) : (s.workDone r index f).InstsAre insts := by
  have hworked {x : ClauseSt → ClauseSt} : (s.modRing r (fun R => R.modClause index x)).InstsAre insts := h.modRing
  unfold State.workDone State.settleClause
  split
  · refine .ite ?_ hworked
    split
    · exact hworked.failClause
    · exact hworked.modRing
  · exact hworked

end Sys2Proof.Machine
end

section
/-! PROOFS. What the work of a collective leaves alone (O22): its clause's frame, the slices where no cache holds a line, and the
next INST of each group, which a start alone counts on. Each lemma follows the body of its function (09 R299 to R306; 10 R330,
R333). -/

namespace Sys2Proof.Machine

/-- What a clause's work leaves alone stands, and the INST that the next collective of each group takes is the table's. -/
structure State.CollKept (s₀ : State) (insts : Tbl Nat) (s : State) : Prop where
  kept  : s₀.ClauseKept s
  insts : s.InstsAre insts

variable {s₀ s : State} {insts : Tbl Nat}

/-- A state keeps to itself, with the next INSTs that it holds. -/
theorem State.CollKept.refl (s : State) : s.CollKept s.lnk.instNext s := ⟨.refl s, ⟨rfl⟩⟩

theorem State.CollKept.ite {t : State} {c : Prop} {_ : Decidable c} (hs : s₀.CollKept insts s) (ht : s₀.CollKept insts t) :
    s₀.CollKept insts (if c then s else t) := by
  split <;> assumption

theorem State.CollKept.foldl {α : Type} {f : State → α → State} {l : List α} (h : s₀.CollKept insts s)
    (hf : ∀ t a, s₀.CollKept insts t → s₀.CollKept insts (f t a)) : s₀.CollKept insts (l.foldl f s) :=
  List.foldlRecOn l f h fun t ht a _ => hf t a ht

theorem State.CollKept.modRing {r f} (h : s₀.CollKept insts s) : s₀.CollKept insts (s.modRing r f) :=
  ⟨h.kept.modRing, h.insts.modRing⟩
theorem State.CollKept.setStep {o v} (h : s₀.CollKept insts s) : s₀.CollKept insts (s.setStep o v) :=
  ⟨h.kept.setStep, h.insts.setStep⟩
theorem State.CollKept.ctrAdd {o n} (h : s₀.CollKept insts s) : s₀.CollKept insts (s.ctrAdd o n) :=
  ⟨h.kept.ctrAdd, h.insts.ctrAdd⟩
theorem State.CollKept.event {a b c d e f g} (h : s₀.CollKept insts s) : s₀.CollKept insts (s.event a b c d e f g) :=
  ⟨h.kept.event, h.insts.event⟩
theorem State.CollKept.tookFree (h : s₀.CollKept insts s) : s₀.CollKept insts s.tookFree := ⟨h.kept.update, h.insts.update⟩
theorem State.CollKept.setLnk {lnk} (h : s₀.CollKept insts s) (hnext : lnk.instNext = s.lnk.instNext := by rfl) :
    s₀.CollKept insts { s with lnk := lnk } := ⟨h.kept.update, h.insts.update hnext⟩
theorem State.CollKept.setColls {l} (h : s₀.CollKept insts s) : s₀.CollKept insts { s with colls := l } :=
  ⟨h.kept.update, h.insts.update⟩
theorem State.CollKept.setColl {c} (h : s₀.CollKept insts s) : s₀.CollKept insts (s.setColl c) := h.setColls
theorem State.CollKept.dropColl {c} (h : s₀.CollKept insts s) : s₀.CollKept insts (s.dropColl c) := h.setColls
theorem State.CollKept.freeLeft (h : s₀.CollKept insts s) : s₀.CollKept insts s.freeLeft := h.setColls
theorem State.CollKept.storeTensor {n es} (h : s₀.CollKept insts s) : s₀.CollKept insts (s.storeTensor n es) :=
  ⟨h.kept.storeTensor, h.insts.stored (s.storeOnly_storeTensor n es)⟩
theorem State.CollKept.dataBegun {r index} (h : s₀.CollKept insts s) : s₀.CollKept insts (s.dataBegun r index) := h.modRing
theorem State.CollKept.workDone {r index f} (h : s₀.CollKept insts s) : s₀.CollKept insts (s.workDone r index f) :=
  ⟨h.kept.workDone, h.insts.workDone⟩
theorem State.CollKept.failClause {r index f} (h : s₀.CollKept insts s) : s₀.CollKept insts (s.failClause r index f) :=
  ⟨h.kept.failClause, h.insts.failClause⟩

/-! ### Frames sent and taken -/

theorem State.CollKept.emit {f} (h : s₀.CollKept insts s) : s₀.CollKept insts (s.emit f) := ⟨h.kept.emit, h.insts.emit⟩
theorem State.CollKept.emitOn {p f} (h : s₀.CollKept insts s) : s₀.CollKept insts (s.emitOn p f) :=
  ⟨h.kept.modPort.pump, h.insts.emitOn⟩
theorem State.CollKept.sendCtrl {dst type c block} (h : s₀.CollKept insts s) : s₀.CollKept insts (s.sendCtrl dst type c block) :=
  h.setLnk.emit
theorem State.CollKept.tellGroup {c type except} (h : s₀.CollKept insts s) : s₀.CollKept insts (s.tellGroup c type except) :=
  ⟨h.kept.tellGroup, h.insts.tellGroup⟩
theorem State.CollKept.inboxTake {p f} (h : s₀.CollKept insts s) : s₀.CollKept insts (s.inboxTake p f) := by
  have herased : s₀.CollKept insts { s with lnk := { s.lnk with inbox := s.lnk.inbox.erase (p, f) } } := h.setLnk
  exact ⟨herased.kept.freePool, herased.insts.freePool⟩
theorem State.CollKept.sendBlock {c kind block rank bs dsts} (h : s₀.CollKept insts s) :
    s₀.CollKept insts (s.sendBlock c kind block rank bs dsts) :=
  .foldl h fun _ _ ht => .foldl ht fun _ _ hu => hu.emit
theorem State.CollKept.sendPiece {c off bytes flits dsts} (h : s₀.CollKept insts s) :
    s₀.CollKept insts (s.sendPiece c off bytes flits dsts) :=
  .foldl h fun _ _ ht => ht.emit

/-! ### The arrival of a DECIDE whose norm is reduced (R330, R333) -/

theorem State.CollKept.releaseWave0 {v mm} (h : s₀.CollKept insts s) : s₀.CollKept insts (s.releaseWave0 v mm) := by
  have hsent {a : SyncArg} : s₀.CollKept insts (s.sendSyncDown a) := .foldl h fun _ _ ht => ht.emitOn
  unfold State.releaseWave0
  split <;> exact hsent.setLnk

theorem State.CollKept.stepWave0 (h : s₀.CollKept insts s) : s₀.CollKept insts s.stepWave0 := by
  unfold State.stepWave0
  extract_lets -underBinder w kids here own c t step s1 s2
  have ht : s₀.CollKept insts t := .foldl h fun _ _ hu => hu.event
  clear_value t
  have h1 : s₀.CollKept insts s1 := .ite ht.tookFree ht
  have h2 : s₀.CollKept insts s2 := h1.emitOn
  exact .ite h (.ite (.ite h ht.releaseWave0) (.ite h h2.setLnk))

theorem State.CollKept.arriveStep {o kind v r index} (h : s₀.CollKept insts s) :
    s₀.CollKept insts (s.arriveStep o kind v r index) := by
  unfold State.arriveStep
  split
  · exact h
  · exact .ite h.dataBegun.setStep (.ite h.dataBegun.setStep.setLnk.stepWave0 h.dataBegun.setStep)

theorem State.CollKept.decideArrive {r c n2} (h : s₀.CollKept insts s) : s₀.CollKept insts (s.decideArrive r c n2) := by
  unfold State.decideArrive
  split
  · exact h
  · split
    · exact h
    · extract_lets -underBinder norm bad s1 word mine
      have h1 : s₀.CollKept insts s1 := by
        unfold s1
        clear_value norm
        split
        · exact h.storeTensor
        · exact h
      exact .ite h1.arriveStep h1.setStep.arriveStep

/-! ### Blocks of a reduction (R300 to R302) -/

theorem State.CollKept.settleColl {c} (h : s₀.CollKept insts s) : s₀.CollKept insts (s.settleColl c) := by
  unfold State.settleColl
  extract_lets -underBinder all s1
  have h1 : s₀.CollKept insts s1 := by
    refine .ite ?_ h
    split
    · exact .ite h (.workDone (.ite h.tellGroup h))
    · exact h
  exact .ite h1.dropColl h1

theorem State.CollKept.deliverBlock {c b bs} (h : s₀.CollKept insts s) : s₀.CollKept insts (s.deliverBlock c b bs) := by
  unfold State.deliverBlock
  extract_lets -underBinder es c1 s1 s2
  have h1 : s₀.CollKept insts s1 := h.setColl
  have h2 : s₀.CollKept insts s2 := by
    refine .ite ?_ h1
    split
    · exact .ite (.ite h1.failClause h1.decideArrive) h1.storeTensor.modRing
    · exact h1
  clear_value s2
  split
  · exact h2.settleColl
  · exact h2

theorem State.CollKept.takeSlots {n r index} {s : State} (h : s₀.CollKept insts s) :
    s₀.CollKept insts (State.takeSlots n r index s) := by
  induction n generalizing s with
  | zero => exact h
  | succ n ih =>
    unfold State.takeSlots
    split
    · exact h
    · exact .ite (ih (.foldl h.setColl fun _ _ ht => ht.sendCtrl)) h

theorem State.CollKept.outputBlock {t : State} {c : Coll} (h : s₀.CollKept insts s) (ht : s.outputBlock c = some t) :
    s₀.CollKept insts t := by
  unfold State.outputBlock at ht
  dsimp only at ht
  split at ht
  · cases ht
  · cases ht
    exact .freeLeft (.ite h.setColl.ctrAdd.sendBlock.modRing.deliverBlock h.setColl.ctrAdd.sendBlock)

theorem State.CollKept.advanceColl {n r index} {s : State} (h : s₀.CollKept insts s) :
    s₀.CollKept insts (State.advanceColl n r index s) := by
  induction n generalizing s with
  | zero => exact h
  | succ n ih =>
    unfold State.advanceColl
    extract_lets s1
    have h1 : s₀.CollKept insts s1 := h.takeSlots
    clear_value s1
    split
    · exact h1
    · split
      · exact ih (h1.outputBlock ‹_›)
      · exact h1

/-! ### Frames that waited for the collective (R302, R303) -/

theorem State.CollKept.settleGather {c} (h : s₀.CollKept insts s) : s₀.CollKept insts (s.settleGather c) := .ite (by
  split
  · exact h.storeTensor.dropColl.workDone
  · exact h.dropColl) h

theorem State.CollKept.bulkArrive {c f} (h : s₀.CollKept insts s) : s₀.CollKept insts (s.bulkArrive c f) :=
  .ite h h.setColl.sendPiece.settleGather

theorem State.CollKept.failColl {c type f except} (h : s₀.CollKept insts s) : s₀.CollKept insts (s.failColl c type f except) := by
  unfold State.failColl
  split
  · exact h.tellGroup.dropColl.failClause
  · exact h.tellGroup.dropColl

theorem State.CollKept.ctrlArrive {c f} (h : s₀.CollKept insts s) : s₀.CollKept insts (s.ctrlArrive c f) := by
  unfold State.ctrlArrive
  exact .ite h.failColl (.ite h.failColl (.ite h.setColl.advanceColl h))

theorem State.CollKept.takeFrame {e} (h : s₀.CollKept insts s) : s₀.CollKept insts (s.takeFrame e) := .ite (by
  split
  · exact h.inboxTake.ctrlArrive
  · exact h) (.ite (by
  split
  · exact h.inboxTake.bulkArrive
  · exact h) h)

theorem State.CollKept.drainInbox (h : s₀.CollKept insts s) : s₀.CollKept insts s.drainInbox :=
  .foldl h fun _ _ ht => ht.takeFrame

/-! ### The start (R282, R300) -/

/-- What the words' code finds in a buffer is counted alone (R145). -/
theorem State.CollKept.rbufSeen {x b n} (h : s₀.CollKept insts s) : s₀.CollKept insts (s.rbufSeen x b n) :=
  .foldl h fun _ _ ht => .ite ht ⟨ht.kept.update, ht.insts.update⟩

theorem State.CollKept.emptyRbuf {fid b n} (h : s₀.CollKept insts s) : s₀.CollKept insts (s.emptyRbuf fid b n) := by
  unfold State.emptyRbuf
  split
  · exact ⟨h.rbufSeen.kept.setField, h.rbufSeen.insts.update⟩
  · exact h

/-- A collective that starts takes the next INST of its group, modulo 4 (R282). -/
theorem State.CollKept.startColl {r c verb group elems fmt words seed} (h : s₀.CollKept insts s) :
    s₀.CollKept (Tbl.put 0 insts group ((Tbl.get 0 insts group + 1) % 4)) (s.startColl r c verb group elems fmt words seed) := by
  unfold State.startColl
  extract_lets -underBinder inst k kept lnk s1 s2 lnk' m es bytes d ps qs s3
  have h1 : s₀.CollKept (Tbl.put 0 insts group ((Tbl.get 0 insts group + 1) % 4)) s1 := by
    obtain ⟨hkept, ⟨rfl⟩⟩ := h
    exact ⟨hkept.update, ⟨rfl⟩⟩
  clear_value s1
  have h2 : s₀.CollKept _ s2 := .dataBegun (.foldl h1 fun _ _ ht => ht.sendCtrl)
  clear_value s2
  have h3 : s₀.CollKept _ s3 := .ite (.foldl h2 fun _ _ ht => ht.sendPiece) h2
  clear_value s3
  exact .ite h1.setLnk.failColl (.ite h3.settleGather.drainInbox h2.advanceColl.drainInbox)

/-- A clause's frame stands, and the group's next INST has gone on by one, modulo 4. -/
structure CollStarts (s t : State) (group : Nat) : Prop where
  frame : clauseFrame s t
  inst  : Tbl.get 0 t.lnk.instNext group = (Tbl.get 0 s.lnk.instNext group + 1) % 4

theorem State.CollKept.starts {s t : State} {group : Nat}
    (h : s.CollKept (Tbl.put 0 s.lnk.instNext group ((Tbl.get 0 s.lnk.instNext group + 1) % 4)) t) : CollStarts s t group where
  frame := h.kept.frame
  inst := by rw [h.insts.next, Tbl.get_put_self]

end Sys2Proof.Machine
end

section
/-! PROOFS. O22: reductions and collectives begin, and within one device end, put together. -/

open Sys2Proof Sys2Proof.Machine

namespace Sys2Proof.Proofs

/-! ### Starts -/

theorem startedClause_of_startedColl {s : State} {r k verb : Nat} {c : ClauseSt} (h : s.startedColl r k verb = some c) :
    s.startedClause r k verb = some c := by
  unfold State.startedColl at h
  split at h
  · next d hd =>
    obtain ⟨-, hdc⟩ := Option.ite_none_left_eq_some.mp h
    exact hd.trans hdc
  · exact absurd h (by simp)

/-! ### Within one device (R369, R371, R372) -/

/-- A reduction stores its output, empties the buffer that it read, and has its work done. -/
theorem verbEnds_reduceHere (s : State) (r : Nat) (c : ClauseSt) : VerbEnds s (s.reduceHere r c) r c.index := by
  unfold State.reduceHere
  extract_lets -underBinder fid out parts seed sum conv s1 s2
  have h1 : s.CollKept s.lnk.instNext s1 := (State.CollKept.refl s).storeTensor
  have h2 : s.CollKept s.lnk.instNext s2 := .ite h1.emptyRbuf h1
  exact verbEnds_workDone h2.kept ..

theorem reduce_ends {r k : Nat} {h : HostView} {c : ClauseSt} {s : State} (hc : s.startedClause r k verbReduce = some c) :
    ∃ t : State, exec (.reduce r k h) s = .next t ∧ t = (s.seeHost h).reduceHere r c ∧
      VerbEnds (s.seeHost h) t r c.index :=
  ⟨_, by simp [exec, execReduce, hc], rfl, verbEnds_reduceHere ..⟩

/-- A reducing clause of a buffer that holds something, over a group of one member, is a reduction here. -/
theorem reduceOrFail_of_one {s : State} {r : Nat} {c : ClauseSt} (hone : (parseGroup c.entry).members = 1)
    (hfull : s.emptySource r c = false) : s.reduceOrFail r c = s.reduceHere r c := by
  rw [State.reduceOrFail, if_neg (by simp [hfull]), State.reduceGroup]
  exact if_pos hone

/-- An all-gather or a broadcast over a group of one member is a copy (R372). -/
theorem gatherGroup_of_one {s : State} {r : Nat} {c : ClauseSt} (hone : (parseGroup c.entry).members = 1) :
    s.gatherGroup r c
      = (s.storeTensor (c.noun 1) ((s.loadTensor (c.noun 0)).map some)).workDone r c.index (fun x => x) := if_pos hone

/-- The copy of a started clause without a verdict stores what it loads, and nothing else in the banks. -/
theorem gatherGroup_copies {s : State} {r k verb : Nat} {h : HostView} {c : ClauseSt} (hc : s.startedColl r k verb = some c)
    (hone : (parseGroup c.entry).members = 1) (hverdict : c.verdict = none) :
    clauseFrame (s.seeHost h) ((s.seeHost h).gatherGroup r c) ∧ workEnded ((s.seeHost h).gatherGroup r c) r c.index ∧
      ((s.seeHost h).gatherGroup r c).dram
        = ((s.seeHost h).storeTensor (c.noun 1) (((s.seeHost h).loadTensor (c.noun 0)).map some)).dram := by
  have hclause := clauseOf_of_startedClause (startedClause_of_startedColl hc)
  have hstored := State.storeOnly_storeTensor (s.seeHost h) (c.noun 1) (((s.seeHost h).loadTensor (c.noun 0)).map some)
  rw [gatherGroup_of_one hone]
  generalize State.storeTensor _ (c.noun 1) _ = u at hstored ⊢
  have hring : u.ring r = s.ring r := by rw [hstored.frame]; rfl
  have hends := verbEnds_workDone ((State.ClauseKept.refl _).stored hstored) r c.index (fun x => x)
  have hrings := workDone_of_no_verdict (f := fun x => x) (hring ▸ hclause) (fun _ => rfl) hverdict hverdict
  exact ⟨hends.frame, hends.ended, by rw [hrings]⟩

/-! ### Over a larger group (R282, R300) -/

theorem reduceOrFail_starts {s : State} {r : Nat} {c : ClauseSt} (hmore : (parseGroup c.entry).members ≠ 1)
    (hfull : s.emptySource r c = false) : CollStarts s (s.reduceOrFail r c) (coGroup c.bits) := by
  rw [State.reduceOrFail, if_neg (by simp [hfull]), State.reduceGroup, if_neg hmore]
  extract_lets -underBinder fid out e l words seed s1
  have h1 : s.CollKept s.lnk.instNext s1 := .ite (State.CollKept.refl s).emptyRbuf (State.CollKept.refl s)
  exact h1.startColl.starts

theorem gatherGroup_starts {s : State} {r : Nat} {c : ClauseSt} (hmore : (parseGroup c.entry).members ≠ 1) :
    CollStarts s (s.gatherGroup r c) (coGroup c.bits) := by
  have hstarts : s.gatherGroup r c = s.startColl r c _ _ _ _ [] [] := if_neg hmore
  rw [hstarts]
  exact (State.CollKept.refl s).startColl.starts

/-! ### The four verbs over a group -/

theorem exec_allReduce {r k : Nat} {h : HostView} {c : ClauseSt} {s : State} (hc : s.startedColl r k verbAllReduce = some c) :
    exec (.allReduce r k h) s = .next ((s.seeHost h).reduceOrFail r c) := by simp [exec, execAllReduce, hc]

theorem exec_reduceScatter {r k : Nat} {h : HostView} {c : ClauseSt} {s : State}
    (hc : s.startedColl r k verbReduceScatter = some c) :
    exec (.reduceScatter r k h) s = .next ((s.seeHost h).reduceOrFail r c) := by simp [exec, execReduceScatter, hc]

theorem exec_allGather {r k : Nat} {h : HostView} {c : ClauseSt} {s : State} (hc : s.startedColl r k verbAllGather = some c) :
    exec (.allGather r k h) s = .next ((s.seeHost h).gatherGroup r c) := by simp [exec, execAllGather, hc]

theorem exec_broadcast {r k : Nat} {h : HostView} {c : ClauseSt} {s : State} (hc : s.startedColl r k verbBroadcast = some c) :
    exec (.broadcast r k h) s = .next ((s.seeHost h).gatherGroup r c) := by simp [exec, execBroadcast, hc]

/-- Settles O22: each clause is one case of a reduction, of a copy, of a start over a group, or of an emptied buffer. -/
theorem collectivesBegin : Obligations.CollectivesBegin := by
  unfold Obligations.CollectivesBegin
  refine ⟨?reduce, ?allReduce, ?reduceScatter, ?allGather, ?broadcast, ?group, ?emptied⟩
  case reduce =>
    intro r k h c s hc
    obtain ⟨t, hexec, ht, hframe, hplaya, hended⟩ := reduce_ends (h := h) hc
    exact ⟨t, hexec, ht, hframe, hplaya, hended⟩
  case allReduce =>
    intro r k h c s hc hone hfull
    obtain ⟨hframe, hplaya, hended⟩ := verbEnds_reduceHere (s.seeHost h) r c
    exact ⟨_, (exec_allReduce hc).trans (congrArg _ (reduceOrFail_of_one hone hfull)), rfl, hframe, hplaya, hended⟩
  case reduceScatter =>
    intro r k h c s hc hone hfull
    obtain ⟨hframe, hplaya, hended⟩ := verbEnds_reduceHere (s.seeHost h) r c
    exact ⟨_, (exec_reduceScatter hc).trans (congrArg _ (reduceOrFail_of_one hone hfull)), rfl, hframe, hplaya, hended⟩
  case allGather => exact fun r k h c s hc hone hverdict => ⟨_, exec_allGather hc, gatherGroup_copies hc hone hverdict⟩
  case broadcast => exact fun r k h c s hc hone hverdict => ⟨_, exec_broadcast hc, gatherGroup_copies hc hone hverdict⟩
  case group =>
    intro r k h c s hmore
    refine ⟨fun hc hfull => ⟨_, exec_allReduce hc, ?_⟩, fun hc hfull => ⟨_, exec_reduceScatter hc, ?_⟩,
      fun hc => ⟨_, exec_allGather hc, ?_⟩, fun hc => ⟨_, exec_broadcast hc, ?_⟩⟩
    · obtain ⟨hframe, hinst⟩ := reduceOrFail_starts (s := s.seeHost h) hmore hfull
      exact ⟨hframe, hinst⟩
    · obtain ⟨hframe, hinst⟩ := reduceOrFail_starts (s := s.seeHost h) hmore hfull
      exact ⟨hframe, hinst⟩
    · obtain ⟨hframe, hinst⟩ := gatherGroup_starts (s := s.seeHost h) (r := r) hmore
      exact ⟨hframe, hinst⟩
    · obtain ⟨hframe, hinst⟩ := gatherGroup_starts (s := s.seeHost h) (r := r) hmore
      exact ⟨hframe, hinst⟩
  case emptied =>
    intro r k h c s hempty
    have hfails : (s.seeHost h).reduceOrFail r c
        = (s.seeHost h).failClause r c.index { status := 0x40A, operand := 7, detail := 0 } := if_pos hempty
    exact ⟨fun hc => (exec_allReduce hc).trans (congrArg _ hfails), fun hc => (exec_reduceScatter hc).trans (congrArg _ hfails)⟩

end Sys2Proof.Proofs
end

section
/-! PROOFS. Caravan ports: what a link frame, a resend and a discard leave of a port, and the cases of a frame's reception (09
R276 to R298, R310). -/

namespace Sys2Proof.Machine

/-! ### Ports and counters besides the one written -/

theorem State.portsSameBut_setPort (s : State) (p : Nat) (v : PortSt) : portsSameBut s (s.setPort p v) p :=
  fun q hq => (State.port_setPort s p q v).trans (if_neg hq)

theorem State.portsSameBut_modPort (s : State) (p : Nat) (f : PortSt → PortSt) : portsSameBut s (s.modPort p f) p :=
  s.portsSameBut_setPort p _

theorem portsSameBut.trans {s t u : State} {p : Nat} (h : portsSameBut s t p) (hu : portsSameBut t u p) : portsSameBut s u p :=
  fun q hq => (hu q hq).trans (h q hq)

theorem State.EventsOnly.port {s t : State} (h : s.EventsOnly t) : t.port = s.port := by
  obtain ⟨es, aw, rfl⟩ := h; rfl

theorem State.EventsOnly.portEvent {s t : State} (h : s.EventsOnly t) (p : Nat) (k : EventKind) (c : Nat) :
    s.EventsOnly (t.portEvent p k c) := h.raise _

theorem State.port_ctrAdd (s : State) (o n : Nat) : (s.ctrAdd o n).port = s.port := rfl

theorem State.ctrGet_ctrAdd_self (s : State) (o n : Nat) : (s.ctrAdd o n).ctrGet o = s.ctrGet o + BitVec.ofNat 64 n :=
  (State.ctrGet_ctrAdd s o o n).trans (if_pos rfl)

theorem State.countersSameBut_ctrAdd (s : State) (o n : Nat) : countersSameBut s (s.ctrAdd o n) o :=
  fun q hq => (State.ctrGet_ctrAdd s o q n).trans (if_neg hq)

/-! ### Pool units -/

/-- Pool units that are freed leave the port but for its pool and its count of them (R280, R288). -/
theorem State.port_freePool (s : State) (p q : Nat) (f : Frame) : ∃ pool freed,
    (s.freePool p f).port q = { s.port q with pool := pool, freed := freed } := by
  unfold State.freePool
  split
  · rw [State.port_modPort]
    split
    · subst_vars
      exact ⟨_, _, rfl⟩
    · exact ⟨_, _, rfl⟩
  · exact ⟨_, _, rfl⟩

theorem State.freePool_ports_only (s : State) (p : Nat) (f : Frame) : s.freePool p f = { s with ports := (s.freePool p f).ports } := by
  unfold State.freePool
  split <;> rfl

theorem State.portsSameBut_freePool (s : State) (p : Nat) (f : Frame) : portsSameBut s (s.freePool p f) p := by
  unfold State.freePool
  split
  · exact s.portsSameBut_modPort p _
  · exact fun _ _ => rfl

/-! ### Discards (R294, R297, R317) -/

theorem State.countDiscard_frame (s : State) (p : Nat) (f : Frame) :
    s.countDiscard p f = { s with ports := (s.countDiscard p f).ports, ctr := (s.countDiscard p f).ctr } := by
  rw [State.countDiscard, State.freePool_ports_only]
  rfl

theorem State.ctrGet_countDiscard (s : State) (p q : Nat) (f : Frame) : (s.countDiscard p f).ctrGet q =
    if q = lnkDiscard p then s.ctrGet (lnkDiscard p) + 1 else s.ctrGet q := by
  rw [State.countDiscard, State.freePool_ports_only]
  exact State.ctrGet_ctrAdd s (lnkDiscard p) q 1

theorem State.kind_head_discardFrame (s : State) (p : Nat) (f : Frame) :
    ((s.discardFrame p f).boot.events.head?).map (·.kind) = some .frameDiscard := State.kind_head_event ..

theorem State.ctrGet_discardFrame_self (s : State) (p : Nat) (f : Frame) :
    (s.discardFrame p f).ctrGet (lnkDiscard p) = s.ctrGet (lnkDiscard p) + 1 := s.ctrGet_ctrAdd_self (lnkDiscard p) 1

theorem State.countersSameBut_discardFrame (s : State) (p : Nat) (f : Frame) :
    countersSameBut s (s.discardFrame p f) (lnkDiscard p) := s.countersSameBut_ctrAdd (lnkDiscard p) 1

/-! ### Link frames (R278, R282) -/

/-- The link frame of a kind that a port sends now. -/
def State.linkFrame (s : State) (p kind : Nat) (payload : List Byte) : Frame :=
  (s.port p).dress (s.withheld p) { s.newFrame (s.port p).peerId.toNat 7 kind 0 payload [] with seq := 0, hops := 0 }

theorem State.transmitLink_eq (s : State) (p kind : Nat) (payload : List Byte) :
    s.transmitLink p kind payload = { s.setPort p ((s.port p).hasTold (s.withheld p)) with
      io := { s.io with frames := (p, s.linkFrame p kind payload) :: s.io.frames } } := rfl

/-- Of a port that sends a trailer only NAK and what it last told change (R280, R285). -/
theorem PortSt.hasTold_eq (x : PortSt) (held : List Nat) :
    x.hasTold held = { x with nakDue := false, told := (x.hasTold held).told } := rfl

theorem State.port_transmitLink_self (s : State) (p kind : Nat) (payload : List Byte) :
    (s.transmitLink p kind payload).port p = (s.port p).hasTold (s.withheld p) := State.port_setPort_self ..

theorem State.portsSameBut_transmitLink (s : State) (p kind : Nat) (payload : List Byte) :
    portsSameBut s (s.transmitLink p kind payload) p := s.portsSameBut_setPort p _

/-! ### Reception (R276, R277, R281 to R285) -/

theorem exec_frameReceive (p : Nat) (f : Frame) (s : State) : exec (.frameReceive p f) s = execFrameReceive p f s := rfl

/-- Without a perturbation slot a frame comes in as it was sent. -/
theorem State.insertErrors_of_no_slots {s : State} (p : Nat) (f : Frame) (hslots : s.dbg.slots = []) :
    s.insertErrors p f = (f, s) := by
  simp [State.insertErrors, State.armedSlot, hslots]

theorem badBlock_of_fec_nil {f : Frame} (hfec : f.fec = []) : badBlock f = false := by simp [badBlock, hfec]

theorem fec_ne_nil_of_badBlock {f : Frame} (hbad : badBlock f = true) : f.fec ≠ [] := by
  rintro hfec
  rw [badBlock_of_fec_nil hfec] at hbad
  exact Bool.noConfusion hbad

/-- A trailer whose TCRC fails says nothing (R280). -/
theorem State.takeTrailer_of_bad {s : State} {f : Frame} (p : Nat) (ht : frameTrailerCrc f ≠ f.tcrc) : s.takeTrailer p f = s :=
  if_pos ht

/-- A frame is refused: NAK stands in the port's next trailer (R285). -/
def State.refuse (s : State) (p : Nat) : State := s.modPort p (fun x => { x with nakDue := true })

theorem State.port_refuse_self (s : State) (p : Nat) : (s.refuse p).port p = { s.port p with nakDue := true } :=
  State.port_modPort_self s p fun x => { x with nakDue := true }

theorem State.portsSameBut_refuse (s : State) (p : Nat) : portsSameBut s (s.refuse p) p := s.portsSameBut_modPort p _

theorem State.ctrGet_refuse (s : State) (p q : Nat) : (s.refuse p).ctrGet q = s.ctrGet q := rfl

/-- A port that has accepted a frame: RX_SEQ moves on, and the frame takes its pool units (R285, R288). -/
def PortSt.accept (x : PortSt) (f : Frame) : PortSt := ({ x with rxSeq := (x.rxSeq + 1) % 4096, gotAny := true } : PortSt).take f

/-- A good frame in its order is accepted and counted (R285). -/
def State.accept (s : State) (p : Nat) (f : Frame) : State := (s.modPort p (fun x => x.accept f)).ctrAdd (lnkRxFrames p) 1

theorem State.port_accept_self (s : State) (p : Nat) (f : Frame) : (s.accept p f).port p = (s.port p).accept f :=
  State.port_modPort_self s p fun x => x.accept f

theorem State.portsSameBut_accept (s : State) (p : Nat) (f : Frame) : portsSameBut s (s.accept p f) p :=
  s.portsSameBut_modPort p fun x => x.accept f

theorem State.ctrGet_accept (s : State) (p q : Nat) (f : Frame) : (s.accept p f).ctrGet q =
    if q = lnkRxFrames p then s.ctrGet (lnkRxFrames p) + 1 else s.ctrGet q := State.ctrGet_ctrAdd s (lnkRxFrames p) q 1

section
variable {p : Nat} {f : Frame} {s : State} (hslots : s.dbg.slots = [])
include hslots

theorem exec_frameReceive_of_badBlock (hup : (s.port p).state ≠ 0) (hbad : badBlock f = true) :
    exec (.frameReceive p f) s
      = .next (((s.decodeFec p f).ctrAdd (lnkCrcFail p) 1).refuse p).pumpAll.advanceColls := by
  rw [exec_frameReceive, execFrameReceive, if_neg hup, State.insertErrors_of_no_slots p f hslots]
  simp [State.refuse, hbad, fec_ne_nil_of_badBlock hbad]

theorem exec_frameReceive_of_bad_fcrc (hup : (s.port p).state ≠ 0) (hfec : f.fec = []) (hcrc : frameCrc f ≠ f.fcrc)
    (ht : frameTrailerCrc f ≠ f.tcrc) :
    exec (.frameReceive p f) s = .next ((s.ctrAdd (lnkCrcFail p) 1).refuse p).pumpAll.advanceColls := by
  rw [exec_frameReceive, execFrameReceive, if_neg hup, State.insertErrors_of_no_slots p f hslots]
  simp [State.refuse, hfec, hcrc, badBlock_of_fec_nil hfec, State.takeTrailer_of_bad p ht]

/-- A good frame of VC 0 to 4 is accepted in its order, and otherwise refused. -/
theorem exec_frameReceive_of_good (hup : 2 ≤ (s.port p).state.toNat) (hfec : f.fec = []) (hcrc : frameCrc f = f.fcrc)
    (ht : frameTrailerCrc f ≠ f.tcrc) (hvc : f.vc ≠ 7) :
    exec (.frameReceive p f) s =
      .next (if f.seq = (s.port p).rxSeq then (s.accept p f).routeFrame p f else s.refuse p).pumpAll.advanceColls := by
  have hne : (s.port p).state ≠ 0 := by
    intro h0
    rw [h0] at hup
    exact absurd hup (by decide)
  have hlow : ¬ (s.port p).state.toNat < 2 := by omega
  rw [exec_frameReceive, execFrameReceive, if_neg hne, State.insertErrors_of_no_slots p f hslots]
  by_cases hseq : f.seq = (s.port p).rxSeq <;>
    simp [State.refuse, State.accept, PortSt.accept, hfec, hcrc, badBlock_of_fec_nil hfec, State.takeTrailer_of_bad p ht, hvc,
      hlow, hseq]

end

end Sys2Proof.Machine
end

section
/-! PROOFS. Routes: when an entry matches, the entry that is chosen, and the port that a frame takes or is discarded at (09
R296, R297, R310). -/

namespace Sys2Proof.Machine

/-! ### Entries (R296) -/

theorem routeMatch_eq_some_iff {e dst : Nat} {m : Nat × Nat × Nat} :
    routeMatch e dst = some m ↔
      (bitAt e 31 = true ∧ bits e 30 29 = 0 ∧ bits e 20 16 ≤ 16 ∧ bits e 24 21 < 12 ∧
        (bits e 28 25 < 12 ∨ bits e 28 25 = 15) ∧
        dst / 2 ^ (16 - bits e 20 16) = bits e 15 0 / 2 ^ (16 - bits e 20 16)) ∧
      (bits e 20 16, bits e 24 21, bits e 28 25) = m := by
  simp [routeMatch, and_assoc]

/-! ### The entry that is chosen (R297) -/

theorem bestRoute_concat_of_no_match {dst : Nat} {e : Nat × Word32} (t : Tbl Word32) (he : routeMatch e.2.toNat dst = none) :
    bestRoute dst (t ++ [e]) = bestRoute dst t := by
  simp [bestRoute, he]

theorem bestRoute_concat_of_first {dst : Nat} {e : Nat × Word32} {t : Tbl Word32} {m : Nat × Nat × Nat}
    (he : routeMatch e.2.toNat dst = some m) (ht : bestRoute dst t = none) : bestRoute dst (t ++ [e]) = some m := by
  simp only [bestRoute, List.foldl_append] at ht ⊢
  simp [ht, he]

theorem bestRoute_concat_of_match {dst : Nat} {e : Nat × Word32} {t : Tbl Word32} {m o : Nat × Nat × Nat}
    (he : routeMatch e.2.toNat dst = some m) (ht : bestRoute dst t = some o) :
    bestRoute dst (t ++ [e]) = some (if o.1 < m.1 then m else o) := by
  simp only [bestRoute, List.foldl_append] at ht ⊢
  by_cases hlong : o.1 < m.1 <;> simp [ht, he, hlong]

/-- Without a route no entry matches. -/
theorem routeMatch_of_bestRoute_none {dst : Nat} {t : Tbl Word32} (ht : bestRoute dst t = none) :
    ∀ e ∈ t, routeMatch e.2.toNat dst = none := by
  induction t using List.reverseRecOn with
  | nil => exact fun _ he => absurd he List.not_mem_nil
  | append_singleton t e ih =>
    have hlast : routeMatch e.2.toNat dst = none := by
      by_contra hne
      obtain ⟨m, hm⟩ := Option.ne_none_iff_exists'.mp hne
      cases hb : bestRoute dst t with
      | none => simp [bestRoute_concat_of_first hm hb] at ht
      | some o => simp [bestRoute_concat_of_match hm hb] at ht
    rw [bestRoute_concat_of_no_match t hlast] at ht
    intro x hx
    rcases List.mem_append.mp hx with hx | hx
    · exact ih ht x hx
    · exact List.mem_singleton.mp hx ▸ hlast

/-- m is the match of an entry of t that no entry before it reaches and none behind it exceeds in its prefix. -/
def FirstLongest (dst : Nat) (t : Tbl Word32) (m : Nat × Nat × Nat) : Prop :=
  ∃ (before after : Tbl Word32) (i : Nat) (w : Word32), t = before ++ (i, w) :: after ∧ routeMatch w.toNat dst = some m ∧
    (∀ e ∈ before, ∀ k, routeMatch e.2.toNat dst = some k → k.1 < m.1) ∧
    (∀ e ∈ after, ∀ k, routeMatch e.2.toNat dst = some k → k.1 ≤ m.1)

theorem FirstLongest.le {dst : Nat} {t : Tbl Word32} {m k : Nat × Nat × Nat} (h : FirstLongest dst t m) {e : Nat × Word32}
    (he : e ∈ t) (hk : routeMatch e.2.toNat dst = some k) : k.1 ≤ m.1 := by
  obtain ⟨before, after, i, w, rfl, hm, hbefore, hafter⟩ := h
  rcases List.mem_append.mp he with he | he
  · exact (hbefore e he k hk).le
  · rcases List.mem_cons.mp he with rfl | he
    · exact (congrArg (·.1) (Option.some.inj (hk.symm.trans hm))).le
    · exact hafter e he k hk

/-- An entry behind the chosen one that is no longer leaves the choice. -/
theorem FirstLongest.concat {dst : Nat} {t : Tbl Word32} {m : Nat × Nat × Nat} (h : FirstLongest dst t m) {e : Nat × Word32}
    (he : ∀ k, routeMatch e.2.toNat dst = some k → k.1 ≤ m.1) : FirstLongest dst (t ++ [e]) m := by
  obtain ⟨before, after, i, w, rfl, hm, hbefore, hafter⟩ := h
  refine ⟨before, after ++ [e], i, w, by simp, hm, hbefore, fun x hx k hk => ?_⟩
  rcases List.mem_append.mp hx with hx | hx
  · exact hafter x hx k hk
  · obtain rfl := List.mem_singleton.mp hx
    exact he k hk

theorem firstLongest_of_bestRoute {dst : Nat} {t : Tbl Word32} {m : Nat × Nat × Nat} (ht : bestRoute dst t = some m) :
    FirstLongest dst t m := by
  induction t using List.reverseRecOn generalizing m with
  | nil => exact absurd ht (by simp [bestRoute])
  | append_singleton t e ih =>
    cases he : routeMatch e.2.toNat dst with
    | none =>
      rw [bestRoute_concat_of_no_match t he] at ht
      exact (ih ht).concat fun k hk => absurd (he.symm.trans hk) (by simp)
    | some n =>
      cases hb : bestRoute dst t with
      | none =>
        rw [bestRoute_concat_of_first he hb] at ht
        obtain rfl := Option.some.inj ht
        refine ⟨t, [], e.1, e.2, rfl, he, fun x hx k hk => ?_, fun _ hx => absurd hx List.not_mem_nil⟩
        exact absurd ((routeMatch_of_bestRoute_none hb x hx).symm.trans hk) (by simp)
      | some o =>
        rw [bestRoute_concat_of_match he hb] at ht
        obtain rfl := Option.some.inj ht
        by_cases hlong : o.1 < n.1
        · rw [if_pos hlong]
          exact ⟨t, [], e.1, e.2, rfl, he, fun x hx k hk => ((ih hb).le hx hk).trans_lt hlong,
            fun _ hx => absurd hx List.not_mem_nil⟩
        · rw [if_neg hlong]
          refine (ih hb).concat fun k hk => ?_
          obtain rfl := Option.some.inj (he.symm.trans hk)
          exact Nat.le_of_not_lt hlong

/-! ### The port of a route, or none (R297, R310) -/

theorem State.routePort_of_bestRoute {s : State} {dst len port alt : Nat}
    (h : bestRoute dst s.applied.route = some (len, port, alt)) :
    s.routePort dst = (if s.portUp port then some port else if alt < 12 ∧ s.portUp alt then some alt else none) := by
  rw [State.routePort, h]

/-- A route leads to a port that is up. -/
theorem State.portUp_of_routePort {s : State} {dst p : Nat} (h : s.routePort dst = some p) : s.portUp p = true := by
  cases hb : bestRoute dst s.applied.route with
  | none => simp [State.routePort, hb] at h
  | some m =>
    obtain ⟨len, port, alt⟩ := m
    rw [State.routePort_of_bestRoute hb] at h
    split at h
    · rename_i hup
      exact Option.some.inj h ▸ hup
    · split at h
      · rename_i hup
        exact Option.some.inj h ▸ hup.2
      · exact absurd h (by simp)

theorem State.routePort_ne_of_quarantined {s : State} {p : Nat} (dst : Nat) (hq : (s.port p).state = 3) :
    s.routePort dst ≠ some p := by
  intro h
  have hup := State.portUp_of_routePort h
  rw [State.portUp, hq] at hup
  exact absurd hup (by decide)

theorem State.vc_of_mayCarry_quarantined {s : State} {p : Nat} {f : Frame} (hq : (s.port p).state = 3)
    (hcarry : s.mayCarry p f = true) : f.vc = 0 := by
  simp [State.mayCarry, hq] at hcarry
  tauto

theorem State.emit_of_no_route {s : State} {f : Frame} (hdst : f.dst ≠ s.applied.deviceId.toNat)
    (hroute : s.routePort f.dst = none) : s.emit f = s.discardFrame (s.discardPort f.dst) f := by
  rw [State.emit, if_neg hdst, hroute]

theorem State.forwardFrame_of_no_route {s : State} {f : Frame} (p : Nat) (hroute : s.routePort f.dst = none) :
    s.forwardFrame p f = (s.discardFrame p f).freePool p f := by
  rw [State.forwardFrame, hroute]

/-! ### Frames on a quarantined port (R310) -/

theorem lnkDiscard_ne_lnkRxFrames (p : Nat) : lnkDiscard p ≠ lnkRxFrames p := by
  unfold lnkDiscard lnkRxFrames lnkCtr
  omega

/-- A malformed frame is discarded and counted (R317; log 35). -/
theorem State.routeFrame_of_malformed {s : State} {f : Frame} (p : Nat) (hbad : (frameKindOk f && frameShapeOk f) = false) :
    s.routeFrame p f = s.countDiscard p f := by
  have h : (!frameKindOk f || !frameShapeOk f) = true := by rw [← Bool.not_and, hbad]; rfl
  rw [State.routeFrame, if_pos h]

theorem State.routeFrame_of_quarantined {s : State} {f : Frame} {p : Nat} (hq : (s.port p).state = 3) (hvc : f.vc ≠ 0) :
    s.routeFrame p f = s.countDiscard p f := by
  rw [State.routeFrame, if_pos (c := (s.port p).state = 3 ∧ f.vc ≠ 0) ⟨hq, hvc⟩, ite_self]

/-! ### IDENT (R307, R308, R310) -/

theorem State.identEvents_eventsOnly (s : State) (p : Nat) (f : Frame) : s.EventsOnly (s.identEvents p f) := by
  unfold State.identEvents
  exact List.foldlRecOn (motive := fun t : State => s.EventsOnly t) _ _ (EventsOnly.refl s) fun _ ht _ _ => ht.raise _

/-- The port with what its peer's IDENT says of the peer (R308). -/
def State.identified (s : State) (p : Nat) (f : Frame) : PortSt :=
  { s.port p with
    state := if s.quarantineCause f = 0 then 2 else 3
    qCause := BitVec.ofNat 3 (s.quarantineCause f)
    peerResetting := bitAt (identField f 4 4) 1
    peerId := BitVec.ofNat 16 (identField f 2 2)
    peerMajor := BitVec.ofNat 8 (identField f 0 1)
    peerMinor := BitVec.ofNat 8 (identField f 1 1)
    runMinor := BitVec.ofNat 8 (min (identField f 1 1) s.glb.minor.toNat)
    syncOpen := s.quarantineCause f = 0 && s.syncPort p && withinMicro ((identField f 0x40 8 : Int) - s.time.toNat) }

/-- The IDENT is consumed, the port identified, and what differs reported. -/
def State.takeIdent (s : State) (p : Nat) (f : Frame) : State :=
  let t := (({ s with lnk := { s.lnk with inbox := s.lnk.inbox.erase (p, f) } } : State).setPort p (s.identified p f)).identEvents p f
  if s.quarantineCause f ≠ 0 ∧ (s.port p).qCause.toNat ≠ s.quarantineCause f then t.portEvent p .quarantine 3 else t

theorem exec_identReceive_of_find {p : Nat} {f : Frame} {s : State}
    (hfind : s.inboxFind p (fun x => x.vc == 7 && x.kind == 1) = some f) (hup : (s.port p).state ≠ 0) :
    exec (.identReceive p) s = .next (if s.quarantineCause f ≠ 0 ∧ (s.port p).state = 2
      then (s.takeIdent p f).shunPort p else s.takeIdent p f).pumpAll := by
  have hrun : exec (.identReceive p) s = execIdentReceive p s := rfl
  rw [hrun, execIdentReceive, hfind]
  exact if_neg hup

theorem State.takeIdent_eventsOnly (s : State) (p : Nat) (f : Frame) :
    (({ s with lnk := { s.lnk with inbox := s.lnk.inbox.erase (p, f) } } : State).setPort p (s.identified p f)).EventsOnly
      (s.takeIdent p f) := by
  have h := State.identEvents_eventsOnly
    (({ s with lnk := { s.lnk with inbox := s.lnk.inbox.erase (p, f) } } : State).setPort p (s.identified p f)) p f
  unfold State.takeIdent
  dsimp only
  split
  · exact h.portEvent p .quarantine 3
  · exact h

theorem State.port_takeIdent_self (s : State) (p : Nat) (f : Frame) : (s.takeIdent p f).port p = s.identified p f := by
  rw [(s.takeIdent_eventsOnly p f).port]
  exact State.port_setPort_self ..

theorem State.portsSameBut_takeIdent (s : State) (p : Nat) (f : Frame) : portsSameBut s (s.takeIdent p f) p := by
  intro q hq
  rw [(s.takeIdent_eventsOnly p f).port]
  exact (State.port_setPort ..).trans (if_neg hq)

end Sys2Proof.Machine
end

section
/-! PROOFS. O59: the entries of the route table, the port that a frame takes, and what a quarantined port carries, put together. -/

open Sys2Proof Sys2Proof.Machine

namespace Sys2Proof.Proofs

theorem emit_discards_without_route {f : Frame} {s : State} (hdst : f.dst ≠ s.applied.deviceId.toNat)
    (hroute : s.routePort f.dst = none) :
    ∃ (t : State) (p : Nat), s.emit f = t ∧ (t.boot.events.head?).map (·.kind) = some .frameDiscard ∧
      t.ctrGet (lnkDiscard p) = s.ctrGet (lnkDiscard p) + 1 ∧ countersSameBut s t (lnkDiscard p) ∧
      t = { s with ctr := t.ctr, boot := { s.boot with events := t.boot.events }, mgt := { s.mgt with awaiting := t.mgt.awaiting } } :=
  ⟨_, s.discardPort f.dst, State.emit_of_no_route hdst hroute, State.kind_head_discardFrame .., State.ctrGet_discardFrame_self ..,
    State.countersSameBut_discardFrame _ _ _, rfl⟩

theorem forwardFrame_discards_without_route {f : Frame} {s : State} (p : Nat) (hroute : s.routePort f.dst = none) :
    ∃ t : State, s.forwardFrame p f = t ∧ (t.boot.events.head?).map (·.kind) = some .frameDiscard ∧
      t.ctrGet (lnkDiscard p) = s.ctrGet (lnkDiscard p) + 1 ∧ countersSameBut s t (lnkDiscard p) ∧
      t = { s with ctr := t.ctr, boot := { s.boot with events := t.boot.events }
                   mgt := { s.mgt with awaiting := t.mgt.awaiting }, ports := t.ports } := by
  refine ⟨_, State.forwardFrame_of_no_route p hroute, ?_⟩
  rw [State.freePool_ports_only]
  exact ⟨State.kind_head_discardFrame s p f, State.ctrGet_discardFrame_self s p f, State.countersSameBut_discardFrame s p f, rfl⟩

theorem frameReceive_discards_on_quarantined {p : Nat} {f : Frame} {s : State} (hq : (s.port p).state = 3)
    (hslots : s.dbg.slots = []) (hfec : f.fec = []) (hcrc : frameCrc f = f.fcrc) (ht : frameTrailerCrc f ≠ f.tcrc)
    (hlow : 1 ≤ f.vc) (hhigh : f.vc ≤ 4) (hseq : f.seq = (s.port p).rxSeq) :
    ∃ u : State, exec (.frameReceive p f) s = .next u.pumpAll.advanceColls ∧ u = { s with ports := u.ports, ctr := u.ctr } ∧
      u.ctrGet (lnkDiscard p) = s.ctrGet (lnkDiscard p) + 1 := by
  have hup : 2 ≤ (s.port p).state.toNat := by rw [hq]; decide
  have hq' : ((s.accept p f).port p).state = 3 := by rw [State.port_accept_self]; exact hq
  have hrun := exec_frameReceive_of_good hslots hup hfec hcrc ht (by omega : f.vc ≠ 7)
  rw [if_pos hseq, State.routeFrame_of_quarantined hq' (by omega)] at hrun
  refine ⟨_, hrun, ?_, ?_⟩
  · rw [State.countDiscard_frame]
    rfl
  · rw [State.ctrGet_countDiscard, if_pos rfl, State.ctrGet_accept, if_neg (lnkDiscard_ne_lnkRxFrames p)]

theorem identReceive_opens {p : Nat} {f : Frame} {s : State}
    (hfind : s.inboxFind p (fun x => x.vc == 7 && x.kind == 1) = some f) (hq : (s.port p).state = 3)
    (hcause : s.quarantineCause f = 0) :
    ∃ u : State, exec (.identReceive p) s = .next u.pumpAll ∧ (u.port p).state = 2 := by
  have hup : (s.port p).state ≠ 0 := by rw [hq]; decide
  have hrun := exec_identReceive_of_find hfind hup
  rw [if_neg fun h => h.1 hcause] at hrun
  refine ⟨_, hrun, ?_⟩
  rw [State.port_takeIdent_self]
  exact if_pos hcause

/-- Settles O59: each clause is one case of an entry's match, of the choice among the entries, of a frame without a port, or of a
quarantined port; that an own frame without a route is counted at its entry's primary port, or at port 0, is log 21's. -/
theorem routesFollowLongestPrefix : Obligations.RoutesFollowLongestPrefix := by
  unfold Obligations.RoutesFollowLongestPrefix
  refine ⟨?fits, ?fitting, ?longest, ?noMatch, ?port, ?own, ?transit, ?carries, ?shunned, ?discards, ?opens⟩
  case fits =>
    intro e dst len port alt h
    obtain ⟨⟨hv, hres, hlen, hport, halt, hprefix⟩, heq⟩ := routeMatch_eq_some_iff.mp h
    cases heq
    exact ⟨hv, hres, hport, halt, rfl, hlen, rfl, rfl, hprefix⟩
  case fitting =>
    exact fun e dst hv hres hlen hport halt hprefix =>
      routeMatch_eq_some_iff.mpr ⟨⟨hv, hres, hlen, hport, halt, hprefix⟩, rfl⟩
  case longest => exact fun dst t m ht => firstLongest_of_bestRoute ht
  case noMatch => exact fun dst t ht => routeMatch_of_bestRoute_none ht
  case port => exact fun dst len port alt s h => State.routePort_of_bestRoute h
  case own => exact fun f s hdst hroute => emit_discards_without_route hdst hroute
  case transit => exact fun p f s hroute => forwardFrame_discards_without_route p hroute
  case carries => exact fun p f s hq hcarry => State.vc_of_mayCarry_quarantined hq hcarry
  case shunned => exact fun p dst s hq => State.routePort_ne_of_quarantined dst hq
  case discards =>
    exact fun p f s hq hslots hfec hcrc ht hlow hhigh hseq =>
      frameReceive_discards_on_quarantined hq hslots hfec hcrc ht hlow hhigh hseq
  case opens => exact fun p f s hfind hq hcause => identReceive_opens hfind hq hcause

end Sys2Proof.Proofs
end

section
/-! PROOFS. Frames on their way: the decoded codewords of a frame, the output that a forwarded frame leaves by, and the frames
that leave a queue without being sent (09 R276, R277, R283, R287, R288, R294, R298). -/

namespace Sys2Proof.Machine

/-! ### Codewords (R276, R277) -/

theorem State.decodeFec_frame (s : State) (p : Nat) (f : Frame) :
    s.decodeFec p f = { s with ports := (s.decodeFec p f).ports, ctr := (s.decodeFec p f).ctr } := rfl

theorem State.port_decodeFec_self (s : State) (p : Nat) (f : Frame) :
    ∃ l, (s.decodeFec p f).port p = { s.port p with laneCorr := l } := ⟨_, State.port_setPort_self s p _⟩

theorem State.portsSameBut_decodeFec (s : State) (p : Nat) (f : Frame) : portsSameBut s (s.decodeFec p f) p :=
  s.portsSameBut_setPort p _

/-- Besides the corrected symbols only the uncorrectable codewords are counted. -/
theorem State.ctrGet_decodeFec (s : State) {p q : Nat} (f : Frame) (hq : q ≠ lnkFecCorr p) : (s.decodeFec p f).ctrGet q =
    if q = lnkFecUncorr p
      then s.ctrGet (lnkFecUncorr p) + BitVec.ofNat 64 (f.fec.filter (fun c => !rsCorrects c)).length else s.ctrGet q := by
  have hne : lnkFecUncorr p ≠ lnkFecCorr p := by unfold lnkFecUncorr lnkFecCorr lnkCtr; omega
  unfold State.decodeFec
  extract_lets lanes fixed s1
  have hctr (n : Nat) : s1.ctrGet n = s.ctrGet n := rfl
  rw [State.ctrGet_ctrAdd, State.ctrGet_ctrAdd, State.ctrGet_ctrAdd, if_neg hne, if_neg hq, hctr, hctr]

/-! ### What sending frames changes -/

/-- t is s but for its ports, its counters and the frames that went out. -/
def State.LinksOnly (s t : State) : Prop :=
  ∃ ports ctr frames, t = { s with ports := ports, ctr := ctr, io := { s.io with frames := frames } }

section
variable {s t : State}

theorem State.LinksOnly.refl (s : State) : s.LinksOnly s := ⟨_, _, _, rfl⟩

theorem State.LinksOnly.frame (h : s.LinksOnly t) :
    t = { s with ports := t.ports, ctr := t.ctr, io := { s.io with frames := t.io.frames } } := by
  obtain ⟨ports, ctr, frames, rfl⟩ := h; rfl

theorem State.LinksOnly.setPort (h : s.LinksOnly t) (p : Nat) (v : PortSt) : s.LinksOnly (t.setPort p v) := by
  obtain ⟨ports, ctr, frames, rfl⟩ := h
  exact ⟨_, _, _, rfl⟩

theorem State.LinksOnly.modPort (h : s.LinksOnly t) (p : Nat) (f : PortSt → PortSt) : s.LinksOnly (t.modPort p f) :=
  h.setPort p _

theorem State.LinksOnly.ctrAdd (h : s.LinksOnly t) (o n : Nat) : s.LinksOnly (t.ctrAdd o n) := by
  obtain ⟨ports, ctr, frames, rfl⟩ := h
  exact ⟨_, _, _, rfl⟩

theorem State.LinksOnly.accept (h : s.LinksOnly t) (p : Nat) (f : Frame) : s.LinksOnly (t.accept p f) :=
  (h.modPort p _).ctrAdd _ 1

theorem State.LinksOnly.freePool (h : s.LinksOnly t) (p : Nat) (f : Frame) : s.LinksOnly (t.freePool p f) := by
  unfold State.freePool
  split
  · exact h.modPort p _
  · exact h

theorem State.LinksOnly.transmit (h : s.LinksOnly t) (p : Nat) (f : Frame) : s.LinksOnly (t.transmit p f) := by
  obtain ⟨ports, ctr, frames, rfl⟩ := h
  exact ⟨_, _, _, rfl⟩

theorem State.LinksOnly.sendQueued (h : s.LinksOnly t) (p : Nat) (e : Queued) : s.LinksOnly (t.sendQueued p e) :=
  ((h.modPort p _).transmit p e.frame).freePool e.pool e.frame

theorem State.LinksOnly.pump {n p : Nat} {t : State} (h : s.LinksOnly t) : s.LinksOnly (State.pump n p t) := by
  induction n generalizing t with
  | zero => exact h
  | succ n ih =>
    unfold State.pump
    split
    · exact ih (h.sendQueued p _)
    · exact h

theorem State.LinksOnly.enqueue (h : s.LinksOnly t) (p pool : Nat) (f : Frame) : s.LinksOnly (t.enqueue p pool f) :=
  h.modPort p _

theorem State.LinksOnly.emitOn (h : s.LinksOnly t) (p : Nat) (f : Frame) : s.LinksOnly (t.emitOn p f) := (h.enqueue p 12 f).pump

end

/-! ### The output of a port (R287, R288) -/

/-- A port of t sends as that of s: its link, its credits and its replay storage are those of s. -/
def State.SendsAlike (s t : State) (q : Nat) : Prop :=
  ∃ ports ctr, t = { s with ports := ports, ctr := ctr } ∧
    ∃ rx got pool queue, t.port q = { s.port q with rxSeq := rx, gotAny := got, pool := pool, txQueue := queue }

theorem State.SendsAlike.mayCarry {s t : State} {q : Nat} (h : s.SendsAlike t q) (f : Frame) : t.mayCarry q f = s.mayCarry q f := by
  obtain ⟨ports, ctr, rfl, rx, got, pool, queue, hport⟩ := h
  simp only [State.mayCarry, State.creditFor, hport]
  rfl

theorem State.SendsAlike.room {s t : State} {q : Nat} (h : s.SendsAlike t q) (f : Frame) : (t.port q).room f = (s.port q).room f := by
  obtain ⟨ports, ctr, -, rx, got, pool, queue, hport⟩ := h
  rw [hport]
  rfl

theorem State.SendsAlike.txSeq {s t : State} {q : Nat} (h : s.SendsAlike t q) : (t.port q).txSeq = (s.port q).txSeq := by
  obtain ⟨ports, ctr, -, rx, got, pool, queue, hport⟩ := h
  rw [hport]

theorem State.sendsAlike_accept (s : State) (p q : Nat) (f : Frame) : s.SendsAlike (s.accept p f) q := by
  refine ⟨_, _, rfl, ?_⟩
  by_cases hq : q = p
  · subst hq
    exact ⟨_, _, _, _, s.port_accept_self q f⟩
  · exact ⟨_, _, _, _, s.portsSameBut_accept p f q hq⟩

theorem State.sendsAlike_enqueue (s : State) (q pool : Nat) (f : Frame) : s.SendsAlike (s.enqueue q pool f) q :=
  ⟨_, _, rfl, _, _, _, _, State.port_setPort_self s q _⟩

/-- The only frame of a queue leaves where the port may carry it and keep it. -/
theorem State.pumpPort_of_single {s : State} {q : Nat} {e : Queued} (hqueue : (s.port q).txQueue = [e])
    (hcarry : s.mayCarry q e.frame = true) (hroom : (s.port q).room e.frame = true) (hvc : e.frame.vc ∈ vcOrder) :
    s.pumpPort q = s.sendQueued q e := by
  have hone : s.contenders q = [e] := by simp [State.contenders, hqueue, hcarry, hroom]
  have hnext : s.nextQueued q = some e := by
    rw [State.nextQueued, hone]
    by_cases hlost : 32 ≤ e.lost
    · simp [hlost]
    · rw [vcOrder] at hvc ⊢
      simp only [List.mem_cons, List.not_mem_nil, or_false] at hvc
      rcases hvc with h | h | h | h | h <;> simp [h, hlost]
  rw [State.pumpPort, hqueue, List.length_singleton, State.pump, hnext]
  rfl

/-- The frame that leaves by a port: the next SEQ, under the port's present trailer (R279, R280). -/
def State.sentFrame (s : State) (q : Nat) (f : Frame) : Frame :=
  (s.port q).dress (s.withheld q) { f with seq := (s.port q).txSeq }

theorem State.frames_sendQueued (s : State) (q : Nat) (e : Queued) : ∃ t : State, (t.port q).txSeq = (s.port q).txSeq ∧
    (s.sendQueued q e).io.frames = (q, t.sentFrame q e.frame) :: s.io.frames := by
  unfold State.sendQueued
  extract_lets lost s1
  have hs1 : s1 = s.modPort q _ := rfl
  refine ⟨s1, by rw [hs1, State.port_modPort_self], ?_⟩
  rw [State.freePool_ports_only]
  rfl

/-! ### Transit (R283, R297) -/

theorem vc_mem_vcOrder {f : Frame} (hkind : frameKindOk f = true) (hvc : f.vc ≠ 7) : f.vc ∈ vcOrder := by
  unfold frameKindOk at hkind
  split at hkind <;> simp_all [vcOrder]

theorem State.portUp_accept (s : State) (p q : Nat) (f : Frame) : (s.accept p f).portUp q = s.portUp q := by
  unfold State.portUp
  by_cases hq : q = p
  · subst hq
    rw [State.port_accept_self]
    rfl
  · rw [State.portsSameBut_accept s p f q hq]

theorem State.routePort_accept (s : State) (p dst : Nat) (f : Frame) : (s.accept p f).routePort dst = s.routePort dst := by
  cases hb : bestRoute dst s.applied.route with
  | none =>
    have hb' : bestRoute dst (s.accept p f).applied.route = none := hb
    rw [State.routePort, State.routePort, hb, hb']
  | some m =>
    obtain ⟨len, port, alt⟩ := m
    have hb' : bestRoute dst (s.accept p f).applied.route = some (len, port, alt) := hb
    simp only [State.routePort_of_bestRoute hb, State.routePort_of_bestRoute hb', State.portUp_accept]

/-- A sound frame for another device goes on with one hop less. -/
theorem State.routeFrame_of_transit {s : State} {p : Nat} {f : Frame} (hkind : frameKindOk f = true) (hshape : frameShapeOk f = true)
    (hup : (s.port p).state = 2) (hvc : f.vc ≠ 1) (hdst : f.dst ≠ s.applied.deviceId.toNat) (hhops : f.hops ≠ 0) :
    s.routeFrame p f = s.forwardFrame p { f with hops := f.hops - 1 } := by
  simp [State.routeFrame, hkind, hshape, hup, hvc, hdst, hhops]

section
variable {s : State} {p q : Nat} {f : Frame} (hroute : s.routePort f.dst = some q)
include hroute

theorem State.LinksOnly.forwardFrame {s₀ : State} (h : s₀.LinksOnly s) : s₀.LinksOnly (s.forwardFrame p f) := by
  rw [State.forwardFrame, hroute]
  exact (h.enqueue q p f).pump

/-- A forwarded frame whose output is free leaves at once. -/
theorem State.forwardFrame_sends (hqueue : (s.port q).txQueue = []) (hcarry : s.mayCarry q f = true)
    (hroom : (s.port q).room f = true) (hvc : f.vc ∈ vcOrder) :
    ∃ t : State, (t.port q).txSeq = (s.port q).txSeq ∧
      (s.forwardFrame p f).io.frames = (q, t.sentFrame q f) :: s.io.frames := by
  have hport : (s.enqueue q p f).port q = { s.port q with txQueue := (s.port q).txQueue ++ [{ pool := p, frame := f, lost := 0 }] } :=
    State.port_setPort_self s q _
  have halike := s.sendsAlike_enqueue q p f
  have hsingle : ((s.enqueue q p f).port q).txQueue = [{ pool := p, frame := f, lost := 0 }] := by
    rw [hport, hqueue]
    rfl
  obtain ⟨t, hseq, hframes⟩ := (s.enqueue q p f).frames_sendQueued q { pool := p, frame := f, lost := 0 }
  refine ⟨t, hseq.trans halike.txSeq, ?_⟩
  rw [State.forwardFrame, hroute]
  dsimp only
  rw [State.pumpPort_of_single hsingle ((halike.mayCarry f).trans hcarry) ((halike.room f).trans hroom) hvc, hframes]
  rfl

end

/-! ### Frames that leave a queue unsent (R294, R298) -/

theorem State.txQueue_unqueue (s : State) (q : Nat) (e : Queued) :
    ((s.unqueue q e).port q).txQueue = (s.port q).txQueue.erase e := by
  unfold State.unqueue
  obtain ⟨pool, freed, hport⟩ := State.port_freePool
    (s.modPort q (fun x => { x with txQueue := x.txQueue.erase e })) e.pool q e.frame
  rw [hport, State.port_modPort_self]

theorem State.unqueue_ports_only (s : State) (q : Nat) (e : Queued) : s.unqueue q e = { s with ports := (s.unqueue q e).ports } := by
  rw [State.unqueue, State.freePool_ports_only]
  rfl

end Sys2Proof.Machine
end

section
/-! PROOFS. O40: the cases of a frame's reception and of a frame that waited too long, put together. -/

open Sys2Proof Sys2Proof.Machine

namespace Sys2Proof.Proofs

theorem frameReceive_counts_uncorrectable {p : Nat} {f : Frame} {s : State} (hup : (s.port p).state ≠ 0) (hslots : s.dbg.slots = [])
    (hbad : badBlock f = true) :
    ∃ u : State, exec (.frameReceive p f) s = .next u.pumpAll.advanceColls ∧ u = { s with ports := u.ports, ctr := u.ctr } ∧
      u.port p = { s.port p with nakDue := true, laneCorr := (u.port p).laneCorr } ∧ portsSameBut s u p ∧
      u.ctrGet (lnkFecUncorr p) = s.ctrGet (lnkFecUncorr p) + BitVec.ofNat 64 (f.fec.filter (fun c => !rsCorrects c)).length ∧
      u.ctrGet (lnkCrcFail p) = s.ctrGet (lnkCrcFail p) + 1 := by
  have hlanes : lnkFecUncorr p ≠ lnkFecCorr p := by unfold lnkFecUncorr lnkFecCorr lnkCtr; omega
  have hfails : lnkCrcFail p ≠ lnkFecCorr p := by unfold lnkCrcFail lnkFecCorr lnkCtr; omega
  have hne : lnkCrcFail p ≠ lnkFecUncorr p := by unfold lnkCrcFail lnkFecUncorr lnkCtr; omega
  obtain ⟨l, hport⟩ := s.port_decodeFec_self p f
  have hu : (((s.decodeFec p f).ctrAdd (lnkCrcFail p) 1).refuse p).port p = { s.port p with nakDue := true, laneCorr := l } := by
    rw [State.port_refuse_self, State.port_ctrAdd, hport]
  refine ⟨_, exec_frameReceive_of_badBlock hslots hup hbad, ?_, ?_, ?_, ?_, ?_⟩
  · rw [State.decodeFec_frame]
    rfl
  · rw [hu]
  · exact (s.portsSameBut_decodeFec p f).trans (State.portsSameBut_refuse ((s.decodeFec p f).ctrAdd (lnkCrcFail p) 1) p)
  · rw [State.ctrGet_refuse, State.ctrGet_ctrAdd, if_neg hne.symm, State.ctrGet_decodeFec s f hlanes, if_pos rfl]
  · rw [State.ctrGet_refuse, State.ctrGet_ctrAdd_self, State.ctrGet_decodeFec s f hfails, if_neg hne]
    rfl

theorem frameReceive_refuses_bad_fcrc {p : Nat} {f : Frame} {s : State} (hup : (s.port p).state ≠ 0) (hslots : s.dbg.slots = [])
    (hfec : f.fec = []) (hcrc : frameCrc f ≠ f.fcrc) (ht : frameTrailerCrc f ≠ f.tcrc) :
    ∃ u : State, exec (.frameReceive p f) s = .next u.pumpAll.advanceColls ∧ u = { s with ports := u.ports, ctr := u.ctr } ∧
      u.port p = { s.port p with nakDue := true } ∧ portsSameBut s u p ∧
      u.ctrGet (lnkCrcFail p) = s.ctrGet (lnkCrcFail p) + 1 ∧ countersSameBut s u (lnkCrcFail p) :=
  ⟨_, exec_frameReceive_of_bad_fcrc hslots hup hfec hcrc ht, rfl, State.port_refuse_self _ p, State.portsSameBut_refuse _ p,
    s.ctrGet_ctrAdd_self (lnkCrcFail p) 1, s.countersSameBut_ctrAdd (lnkCrcFail p) 1⟩

section
variable {p : Nat} {f : Frame} {s : State} (hslots : s.dbg.slots = []) (hfec : f.fec = [])
  (hcrc : frameCrc f = f.fcrc) (ht : frameTrailerCrc f ≠ f.tcrc) (hvc : f.vc ≠ 7)
include hslots hfec hcrc ht hvc

theorem frameReceive_refuses_out_of_order (hup : 2 ≤ (s.port p).state.toNat) (hseq : f.seq ≠ (s.port p).rxSeq) :
    ∃ u : State, exec (.frameReceive p f) s = .next u.pumpAll.advanceColls ∧ u = { s with ports := u.ports } ∧
      u.port p = { s.port p with nakDue := true } ∧ portsSameBut s u p := by
  have hrun := exec_frameReceive_of_good hslots hup hfec hcrc ht hvc
  rw [if_neg hseq] at hrun
  exact ⟨_, hrun, rfl, s.port_refuse_self p, s.portsSameBut_refuse p⟩

theorem frameReceive_discards_malformed (hup : 2 ≤ (s.port p).state.toNat) (hseq : f.seq = (s.port p).rxSeq)
    (hbad : (frameKindOk f && frameShapeOk f) = false) :
    ∃ u : State, exec (.frameReceive p f) s = .next u.pumpAll.advanceColls ∧ u = { s with ports := u.ports, ctr := u.ctr } ∧
      (u.port p).rxSeq = ((s.port p).rxSeq + 1) % 4096 ∧ portsSameBut s u p ∧
      u.ctrGet (lnkRxFrames p) = s.ctrGet (lnkRxFrames p) + 1 ∧ u.ctrGet (lnkDiscard p) = s.ctrGet (lnkDiscard p) + 1 := by
  have hne := lnkDiscard_ne_lnkRxFrames p
  have hrun := exec_frameReceive_of_good hslots hup hfec hcrc ht hvc
  rw [if_pos hseq, State.routeFrame_of_malformed p hbad] at hrun
  obtain ⟨pool, freed, hport⟩ := State.port_freePool ((s.accept p f).ctrAdd (lnkDiscard p) 1) p p f
  refine ⟨_, hrun, ?_, ?_, ?_, ?_, ?_⟩
  · rw [State.countDiscard_frame]
    rfl
  · have haccept : ((s.accept p f).ctrAdd (lnkDiscard p) 1).port p = (s.port p).accept f := s.port_accept_self p f
    rw [State.countDiscard, hport, haccept]
    rfl
  · exact (s.portsSameBut_accept p f).trans (State.portsSameBut_freePool _ p f)
  · rw [State.ctrGet_countDiscard, if_neg hne.symm, State.ctrGet_accept, if_pos rfl]
  · rw [State.ctrGet_countDiscard, if_pos rfl, State.ctrGet_accept, if_neg hne]

theorem frameReceive_forwards {q : Nat} (hup : (s.port p).state = 2) (hvc1 : f.vc ≠ 1) (hseq : f.seq = (s.port p).rxSeq)
    (hkind : frameKindOk f = true) (hshape : frameShapeOk f = true) (hdst : f.dst ≠ s.applied.deviceId.toNat) (hhops : f.hops ≠ 0)
    (hroute : s.routePort f.dst = some q) (hcarry : s.mayCarry q { f with hops := f.hops - 1 } = true)
    (hroom : (s.port q).room f = true) (hqueue : (s.port q).txQueue = []) :
    ∃ (u : State) (g : Frame), exec (.frameReceive p f) s = .next u.pumpAll.advanceColls ∧ u.io.frames = (q, g) :: s.io.frames ∧
      g.dst = f.dst ∧ g.src = f.src ∧ g.vc = f.vc ∧ g.kind = f.kind ∧ g.payload = f.payload ∧ g.poison = f.poison ∧
      g.fcrc = f.fcrc ∧ g.hops = f.hops - 1 ∧ g.seq = (s.port q).txSeq ∧
      u = { s with ports := u.ports, ctr := u.ctr, io := { s.io with frames := u.io.frames } } := by
  have hup2 : 2 ≤ (s.port p).state.toNat := by rw [hup]; decide
  have hrun := exec_frameReceive_of_good hslots hup2 hfec hcrc ht hvc
  have hstate : ((s.accept p f).port p).state = 2 := by rw [State.port_accept_self]; exact hup
  have halike := s.sendsAlike_accept p q f
  have hempty : ((s.accept p f).port q).txQueue = [] := by
    by_cases hq : q = p
    · subst hq
      rw [State.port_accept_self]
      exact hqueue
    · rw [State.portsSameBut_accept s p f q hq, hqueue]
  have hroute' : (s.accept p f).routePort f.dst = some q := (s.routePort_accept p f.dst f).trans hroute
  rw [if_pos hseq, State.routeFrame_of_transit hkind hshape hstate hvc1 hdst hhops] at hrun
  obtain ⟨t, htx, hframes⟩ := State.forwardFrame_sends (p := p) (f := { f with hops := f.hops - 1 }) hroute' hempty
    ((halike.mayCarry _).trans hcarry) ((halike.room f).trans hroom) (vc_mem_vcOrder hkind hvc)
  exact ⟨_, _, hrun, hframes, rfl, rfl, rfl, rfl, rfl, rfl, rfl, rfl, htx.trans halike.txSeq,
    (((State.LinksOnly.refl s).accept p f).forwardFrame (f := { f with hops := f.hops - 1 }) hroute').frame⟩

end

theorem resentFrameExpiry_discards {p q : Nat} {e : Queued} {s : State}
    (hfind : s.queuedFind (fun o x => x.frame.resent && (o == p || x.pool == p)) = some (q, e)) :
    ∃ t : State, exec (.resentFrameExpiry p) s = .next t ∧ (t.port q).txQueue = (s.port q).txQueue.erase e ∧
      t.ctrGet (lnkDiscard p) = s.ctrGet (lnkDiscard p) + 1 ∧ countersSameBut s t (lnkDiscard p) ∧
      t = { s with ports := t.ports, ctr := t.ctr } := by
  have hrun : exec (.resentFrameExpiry p) s = .next ((s.unqueue q e).ctrAdd (lnkDiscard p) 1) := by
    have hexec : exec (.resentFrameExpiry p) s = execResentFrameExpiry p s := rfl
    rw [hexec, execResentFrameExpiry, hfind]
  refine ⟨_, hrun, s.txQueue_unqueue q e, ?_⟩
  rw [State.unqueue_ports_only]
  exact ⟨s.ctrGet_ctrAdd_self (lnkDiscard p) 1, s.countersSameBut_ctrAdd (lnkDiscard p) 1, rfl⟩

theorem poolWaitExpiry_discards {p q vc : Nat} {e : Queued} {s : State} (hvc : 2 ≤ vc)
    (hfind : s.queuedFind (fun _ x => x.pool == p && x.frame.vc == vc) = some (q, e)) :
    ∃ u : State, exec (.poolWaitExpiry p vc) s = .next u.pumpAll ∧ (u.port q).txQueue = (s.port q).txQueue.erase e ∧
      u.ctrGet (lnkDiscard p) = s.ctrGet (lnkDiscard p) + 1 ∧ countersSameBut s u (lnkDiscard p) ∧
      (u.boot.events.head?).map (·.kind) = some .frameDiscard ∧
      u = { s with ports := u.ports, ctr := u.ctr, boot := { s.boot with events := u.boot.events }
                   mgt := { s.mgt with awaiting := u.mgt.awaiting } } := by
  have hrun : exec (.poolWaitExpiry p vc) s = .next ((s.unqueue q e).discardFrame p e.frame).pumpAll := by
    have hexec : exec (.poolWaitExpiry p vc) s = execPoolWaitExpiry p vc s := rfl
    rw [hexec, execPoolWaitExpiry, if_neg (by omega), hfind]
  refine ⟨_, hrun, s.txQueue_unqueue q e, ?_⟩
  rw [State.unqueue_ports_only]
  exact ⟨s.ctrGet_discardFrame_self p e.frame, s.countersSameBut_discardFrame p e.frame, s.kind_head_discardFrame p e.frame, rfl⟩

/-- Settles O40: each clause is one case of a frame's reception, or of a frame that waited too long; that a malformed frame in its
order is discarded and counted in LNK_DISCARD is log 35's. -/
theorem framesTravel : Obligations.FramesTravel := by
  unfold Obligations.FramesTravel
  refine ⟨?uncorrectable, ?fcrc, ?order, ?malformed, ?transit, ?resent, ?waited⟩
  case uncorrectable => exact fun p f s hup hslots hbad => frameReceive_counts_uncorrectable hup hslots hbad
  case fcrc => exact fun p f s hup hslots hfec hcrc ht => frameReceive_refuses_bad_fcrc hup hslots hfec hcrc ht
  case order =>
    exact fun p f s hup hslots hfec hcrc ht hvc hseq => frameReceive_refuses_out_of_order hslots hfec hcrc ht hvc hup hseq
  case malformed =>
    exact fun p f s hup hslots hfec hcrc ht hvc hseq hbad =>
      frameReceive_discards_malformed hslots hfec hcrc ht hvc hup hseq hbad
  case transit =>
    exact fun p q f s hup hslots hfec hcrc ht hvc hvc1 hseq hkind hshape hdst hhops hroute hcarry hroom hqueue =>
      frameReceive_forwards hslots hfec hcrc ht hvc hup hvc1 hseq hkind hshape hdst hhops hroute hcarry hroom hqueue
  case resent => exact fun p q e s hfind => resentFrameExpiry_discards hfind
  case waited => exact fun p q vc e s hvc hfind => poolWaitExpiry_discards hvc hfind

end Sys2Proof.Proofs
end

section
/-! PROOFS. Caravan ports at fault: the resend of a replay storage, a port that goes down, and the half of a port that holds no
failed lane (09 R285, R290 to R293). -/

namespace Sys2Proof.Machine

/-! ### Resends (R285) -/

/-- Frames as a port sends them again, in order: NAK, where it is due, stands in the first trailer alone. -/
def State.resentFrames (s : State) (p : Nat) : List Frame → List (Nat × Frame)
  | [] => []
  | f :: r => (p, (s.port p).dress (s.withheld p) f)
      :: r.map (fun g => (p, ((s.port p).hasTold (s.withheld p)).dress (s.withheld p) g))

theorem State.length_resentFrames (s : State) (p : Nat) (l : List Frame) : (s.resentFrames p l).length = l.length := by
  cases l <;> simp [State.resentFrames]

/-- A frame leaves again with the SEQ and the payload that it had. -/
theorem State.map_resentFrames (s : State) (p : Nat) (l : List Frame) :
    (s.resentFrames p l).map (fun e => (e.1, e.2.seq, e.2.payload)) = l.map (fun f => (p, f.seq, f.payload)) := by
  cases l with
  | nil => rfl
  | cons f r => simp [State.resentFrames, PortSt.dress]

theorem State.nak_head_resentFrames (s : State) (p : Nat) {l : List Frame} (hl : l ≠ []) :
    ((s.resentFrames p l).head?).map (fun e => e.2.nak) = some (s.port p).nakDue := by
  obtain ⟨f, r, rfl⟩ := List.exists_cons_of_ne_nil hl
  rfl

section
variable {s : State} {p : Nat} (hup : (s.port p).state = 2)
include hup

theorem State.filter_unacked_of_up :
    (s.port p).unacked.filter (fun f => (s.port p).state == 2 || f.vc == 0) = (s.port p).unacked :=
  List.filter_eq_self.mpr fun _ _ => by simp [hup]

/-- A port that is up resends all of its replay storage. -/
theorem State.resendAll_of_up (hne : (s.port p).unacked ≠ []) :
    s.resendAll p = { s.setPort p ((s.port p).hasTold (s.withheld p)) with
      io := { s.io with frames := (s.resentFrames p (s.port p).unacked).reverse ++ s.io.frames } } := by
  have hall := State.filter_unacked_of_up hup
  obtain ⟨f, r, hcons⟩ := List.exists_cons_of_ne_nil hne
  unfold State.resendAll
  dsimp only
  rw [hall, hcons]
  rfl

theorem State.resendAll_of_unacked_nil (hnil : (s.port p).unacked = []) : s.resendAll p = s := by
  have hall := State.filter_unacked_of_up hup
  unfold State.resendAll
  dsimp only
  rw [hall, hnil]

/-- A resend puts every frame of the replay storage on the wire. -/
theorem State.length_frames_resendAll : (s.resendAll p).io.frames.length = s.io.frames.length + (s.port p).unacked.length := by
  by_cases hnil : (s.port p).unacked = []
  · rw [State.resendAll_of_unacked_nil hup hnil, hnil]
    rfl
  · rw [State.resendAll_of_up hup hnil, List.length_append, List.length_reverse, State.length_resentFrames, Nat.add_comm]

theorem State.laneMove_resendAll : ((s.resendAll p).port p).laneMove = (s.port p).laneMove := by
  by_cases hnil : (s.port p).unacked = []
  · rw [State.resendAll_of_unacked_nil hup hnil]
  · rw [State.resendAll_of_up hup hnil]
    exact (congrArg PortSt.laneMove (State.port_setPort_self s p ((s.port p).hasTold (s.withheld p)))).trans rfl

end

theorem State.resendAll_frame (s : State) (p : Nat) :
    s.resendAll p = { s with ports := (s.resendAll p).ports, io := { s.io with frames := (s.resendAll p).io.frames } } := by
  unfold State.resendAll
  dsimp only
  split <;> rfl

theorem State.portsSameBut_resendAll (s : State) (p : Nat) : portsSameBut s (s.resendAll p) p := by
  unfold State.resendAll
  dsimp only
  split
  · exact fun _ _ => rfl
  · exact s.portsSameBut_setPort p _

/-- The port counts one more resend of its oldest frame, and its frames are counted as resent (R285, R317). -/
def State.countResend (s : State) (p : Nat) : State :=
  (s.setPort p { s.port p with resends := (s.port p).resends + 1 }).ctrAdd (lnkReplays p) (s.port p).unacked.length

theorem State.port_countResend_self (s : State) (p : Nat) :
    (s.countResend p).port p = { s.port p with resends := (s.port p).resends + 1 } := State.port_setPort_self ..

section
variable {s : State} {p : Nat} (hne : (s.port p).unacked ≠ []) (hmove : (s.port p).laneMove = false)
include hne hmove

theorem State.replay_of_lt (hfew : (s.port p).resends < 4) : s.replay p = (s.countResend p).resendAll p := by
  have hgo : ¬ ((s.port p).unacked.isEmpty || (s.port p).laneMove) = true := by simp [hne, hmove]
  exact (if_neg hgo).trans (if_neg (Nat.not_le_of_lt hfew))

/-- A port goes down when its oldest frame has been resent four times (R292). -/
theorem State.replay_of_le (hmany : 4 ≤ (s.port p).resends) : s.replay p = s.portDown p := by
  have hgo : ¬ ((s.port p).unacked.isEmpty || (s.port p).laneMove) = true := by simp [hne, hmove]
  exact (if_neg hgo).trans (if_pos hmany)

end

theorem exec_replayTimer_of_up {s : State} {p : Nat} (hup : 2 ≤ (s.port p).state.toNat) :
    exec (.replayTimer p) s = .next (s.replay p) := if_neg (Nat.not_lt_of_le hup)

theorem exec_portDown (p : Nat) (s : State) : exec (.portDown p) s = .next (s.portDown p) := rfl

theorem exec_ackStallTimeout_of_unacked {s : State} {p : Nat} (hne : (s.port p).unacked ≠ []) :
    exec (.ackStallTimeout p) s = .next (s.portDown p) := if_neg (by simp [hne])

/-! ### A port goes down (R292, R293) -/

/-- The port once it is down. -/
def PortSt.wentDown (x : PortSt) : PortSt :=
  { x with
    state := 0, syncOpen := false, laneMove := false, qCause := 0, peerResetting := false, txSeq := 0, rxSeq := 0
    gotAny := false, nakDue := false, unacked := [], resends := 0, freed := [], sent := [], peerFreed := [], txQueue := [], told := []
    lastAck := 0, timeT1 := none }

theorem State.rerouteAll_of_empty (s : State) {x : PortSt} (p : Nat) (pred : Frame → Bool) (hunacked : x.unacked = [])
    (hqueue : x.txQueue = []) : s.rerouteAll p x pred = s := by
  simp [State.rerouteAll, hunacked, hqueue]

theorem State.portDown_of_empty {s : State} {p : Nat} (hup : (s.port p).state ≠ 0) (hunacked : (s.port p).unacked = [])
    (hqueue : (s.port p).txQueue = []) (hparent : s.parentPort ≠ some p) :
    s.portDown p = ((s.setPort p (s.port p).wentDown).portEvent p .port 2).pumpAll := by
  refine (if_neg hup).trans ((if_neg hparent).trans ?_)
  rw [State.rerouteAll_of_empty _ p _ hunacked hqueue]
  rfl

/-! ### Lanes (R290, R291) -/

/-- With one failed lane the half without it is good. -/
theorem goodHalf_of_single {lane : Nat} (hlane : lane < 8) :
    goodHalf (BitVec.ofNat 8 (2 ^ lane)).toNat 0 = some (decide (lane < 4)) := by
  interval_cases lane <;> rfl

/-- The port takes up the other half, its traffic of VC 0 to 4 stopped (R291). -/
def PortSt.halved (x : PortSt) (bad : BitVec 8) (h : Bool) : PortSt :=
  { x with badLanes := bad, half := true, halfSel := h, laneMove := true }

theorem exec_laneFail_of_first {s : State} {p lane : Nat} (hup : 2 ≤ (s.port p).state.toNat) (hbad : (s.port p).badLanes = 0)
    (hpeer : (s.port p).peerBad = 0) (hfull : (s.port p).half = false) (hlane : lane < 8) :
    ∃ t : State, exec (.laneFail p lane) s = .next (t.transmitLink p 3 (natLe 32 (flag (decide (lane < 4))))) ∧
      t.port p = (s.port p).halved (BitVec.ofNat 8 (2 ^ lane)) (decide (lane < 4)) ∧ portsSameBut s t p ∧
      t = { s with ports := t.ports } := by
  have hnew : (s.port p).badLanes ||| BitVec.ofNat 8 (2 ^ lane) = BitVec.ofNat 8 (2 ^ lane) := by
    rw [hbad]
    exact BitVec.zero_or
  have hhalf : goodHalf (BitVec.ofNat 8 (2 ^ lane)).toNat (s.port p).peerBad.toNat = some (decide (lane < 4)) := by
    rw [hpeer]
    exact goodHalf_of_single hlane
  have hrun : exec (.laneFail p lane) s = execLaneFail p lane s := rfl
  rw [hrun, execLaneFail]
  dsimp only
  rw [hnew, if_neg (Nat.not_lt_of_le hup), hhalf]
  dsimp only
  rw [if_neg (by simp [hfull])]
  refine ⟨_, rfl, ?_, (s.portsSameBut_setPort p _).trans (State.portsSameBut_modPort _ p _), rfl⟩
  rw [State.port_modPort_self, State.port_setPort_self]
  rfl

theorem exec_laneRetrainDone_of_moving {s : State} {p : Nat} (hmove : (s.port p).laneMove = true) :
    exec (.laneRetrainDone p) s = .next ((((s.modPort p (fun x => { x with laneMove := false })).resendAll p).sendIdent p).portEvent
      p .port 1).pumpAll := if_neg (by simp [hmove])

end Sys2Proof.Machine
end

section
/-! PROOFS. O41: the cases of a resend, of a port that goes down and of a failed lane, put together. -/

open Sys2Proof Sys2Proof.Machine

namespace Sys2Proof.Proofs

theorem replayTimer_resends {p : Nat} {s : State} (hup : (s.port p).state = 2) (hne : (s.port p).unacked ≠ [])
    (hmove : (s.port p).laneMove = false) (hfew : (s.port p).resends < 4) :
    ∃ t : State, exec (.replayTimer p) s = .next t ∧
      t = { s with ports := t.ports, ctr := t.ctr, io := { s.io with frames := t.io.frames } } ∧
      t.port p = { s.port p with resends := (s.port p).resends + 1, nakDue := false, told := (t.port p).told } ∧
      portsSameBut s t p ∧
      t.io.frames.length = s.io.frames.length + (s.port p).unacked.length ∧
      ((t.io.frames.take (s.port p).unacked.length).reverse.map (fun e => (e.1, e.2.seq, e.2.payload)))
        = (s.port p).unacked.map (fun f => (p, f.seq, f.payload)) ∧
      (((t.io.frames.take (s.port p).unacked.length).reverse.head?).map (fun e => e.2.nak)) = some (s.port p).nakDue ∧
      t.ctrGet (lnkReplays p) = s.ctrGet (lnkReplays p) + BitVec.ofNat 64 (s.port p).unacked.length := by
  have hport := s.port_countResend_self p
  have hup1 : ((s.countResend p).port p).state = 2 := by rw [hport]; exact hup
  have hunacked : ((s.countResend p).port p).unacked = (s.port p).unacked := by rw [hport]
  have hnak : ((s.countResend p).port p).nakDue = (s.port p).nakDue := by rw [hport]
  have hresend := State.resendAll_of_up hup1 (hunacked ▸ hne)
  have hlength := (State.length_frames_resendAll hup1).trans (congrArg (_ + ·.length) hunacked)
  have htake : ((s.countResend p).resendAll p).io.frames.take (s.port p).unacked.length
      = ((s.countResend p).resentFrames p (s.port p).unacked).reverse := by
    rw [hresend, hunacked]
    exact List.take_left' (by rw [List.length_reverse, State.length_resentFrames])
  have hself : ((s.countResend p).resendAll p).port p
      = ((s.countResend p).port p).hasTold ((s.countResend p).withheld p) := by
    rw [hresend]
    exact State.port_setPort_self ..
  refine ⟨_, (exec_replayTimer_of_up (by rw [hup]; decide)).trans (congrArg _ (State.replay_of_lt hne hmove hfew)), ?_, ?_, ?_,
    hlength, ?_, ?_, ?_⟩
  · rw [State.resendAll_frame]
    rfl
  · rw [hself, hport]
    rfl
  · exact (s.portsSameBut_setPort p _).trans (State.portsSameBut_resendAll (s.countResend p) p)
  · rw [htake, List.reverse_reverse, State.map_resentFrames]
  · rw [htake, List.reverse_reverse, State.nak_head_resentFrames _ p hne, hnak]
  · rw [State.resendAll_frame]
    exact State.ctrGet_ctrAdd_self _ (lnkReplays p) _

theorem replayTimer_gives_up {p : Nat} {s : State} (hup : 2 ≤ (s.port p).state.toNat) (hne : (s.port p).unacked ≠ [])
    (hmove : (s.port p).laneMove = false) (hmany : 4 ≤ (s.port p).resends) :
    ∃ t : State, exec (.replayTimer p) s = .next t ∧ exec (.portDown p) s = .next t :=
  ⟨_, (exec_replayTimer_of_up hup).trans (congrArg _ (State.replay_of_le hne hmove hmany)), exec_portDown p s⟩

theorem portDown_reports {p : Nat} {s : State} (hup : (s.port p).state ≠ 0) (hunacked : (s.port p).unacked = [])
    (hqueue : (s.port p).txQueue = []) (hparent : s.parentPort ≠ some p) :
    ∃ u : State, exec (.portDown p) s = .next u.pumpAll ∧ (u.port p).state = 0 ∧ (u.port p).txSeq = 0 ∧ (u.port p).rxSeq = 0 ∧
      (u.port p).syncOpen = false ∧ (u.boot.events.head?).map (·.kind) = some .port ∧ portsSameBut s u p ∧
      u = { s with ports := u.ports, boot := { s.boot with events := u.boot.events }
                   mgt := { s.mgt with awaiting := u.mgt.awaiting } } := by
  have hport : ((s.setPort p (s.port p).wentDown).portEvent p .port 2).port p = (s.port p).wentDown := State.port_setPort_self ..
  refine ⟨_, (exec_portDown p s).trans (congrArg _ (State.portDown_of_empty hup hunacked hqueue hparent)), ?_, ?_, ?_, ?_, rfl,
    s.portsSameBut_setPort p (s.port p).wentDown, rfl⟩ <;> rw [hport] <;> rfl

theorem laneFail_halves {p lane : Nat} {s : State} (hup : 2 ≤ (s.port p).state.toNat) (hbad : (s.port p).badLanes = 0)
    (hpeer : (s.port p).peerBad = 0) (hfull : (s.port p).half = false) (hlane : lane < 8) :
    ∃ (t : State) (g : Frame), exec (.laneFail p lane) s = .next t ∧ (t.port p).badLanes = BitVec.ofNat 8 (2 ^ lane) ∧
      (t.port p).half = true ∧ (t.port p).halfSel = decide (lane < 4) ∧ (t.port p).laneMove = true ∧
      (t.port p).unacked = (s.port p).unacked ∧ portsSameBut s t p ∧
      t.io.frames = (p, g) :: s.io.frames ∧ g.vc = 7 ∧ g.kind = 3 ∧
      t = { s with ports := t.ports, io := { s.io with frames := t.io.frames } } := by
  obtain ⟨v, hrun, hport, hsame, hframe⟩ := exec_laneFail_of_first hup hbad hpeer hfull hlane
  have hself := v.port_transmitLink_self p 3 (natLe 32 (flag (decide (lane < 4))))
  rw [hport] at hself
  refine ⟨_, v.linkFrame p 3 (natLe 32 (flag (decide (lane < 4)))), hrun, ?_, ?_, ?_, ?_, ?_,
    hsame.trans (v.portsSameBut_transmitLink p 3 _), ?_, rfl, rfl, ?_⟩
  iterate 5 rw [hself]; rfl
  · rw [State.transmitLink_eq, hframe]
  · rw [State.transmitLink_eq, hframe]
    rfl

theorem laneRetrainDone_resumes {p : Nat} {s : State} (hup : (s.port p).state = 2) (hmove : (s.port p).laneMove = true) :
    ∃ (u : State) (g : Frame), exec (.laneRetrainDone p) s = .next u.pumpAll ∧ (u.port p).laneMove = false ∧
      u.io.frames.head? = some (p, g) ∧ g.vc = 7 ∧ g.kind = 1 ∧
      u.io.frames.length = s.io.frames.length + (s.port p).unacked.length + 1 ∧ portsSameBut s u p ∧
      u = { s with ports := u.ports, io := { s.io with frames := u.io.frames }
                   boot := { s.boot with events := u.boot.events }, mgt := { s.mgt with awaiting := u.mgt.awaiting } } := by
  have hrun := exec_laneRetrainDone_of_moving hmove
  have hsame := s.portsSameBut_modPort p fun x => { x with laneMove := false }
  have hframe : s.modPort p (fun x => { x with laneMove := false })
      = { s with ports := (s.modPort p (fun x => { x with laneMove := false })).ports } := rfl
  have hport := s.port_modPort_self p fun x => { x with laneMove := false }
  generalize s.modPort p (fun x => { x with laneMove := false }) = v at hrun hsame hframe hport
  have hup1 : (v.port p).state = 2 := by rw [hport]; exact hup
  have hlength := State.length_frames_resendAll hup1
  rw [hport] at hlength
  have hresume : ((((v.resendAll p).sendIdent p).portEvent p .port 1).port p).laneMove = false := by
    have hself : (((v.resendAll p).sendIdent p).portEvent p .port 1).port p
        = ((v.resendAll p).port p).hasTold ((v.resendAll p).withheld p) :=
      (v.resendAll p).port_transmitLink_self p 1 (v.resendAll p).identBlock
    rw [hself, PortSt.hasTold_eq]
    exact (State.laneMove_resendAll hup1).trans (by rw [hport])
  refine ⟨_, (v.resendAll p).linkFrame p 1 (v.resendAll p).identBlock, hrun, hresume, rfl, rfl, rfl, ?_,
    (hsame.trans (v.portsSameBut_resendAll p)).trans ((v.resendAll p).portsSameBut_transmitLink p 1 (v.resendAll p).identBlock), ?_⟩
  · exact (congrArg Nat.succ hlength).trans (by rw [hframe])
  · rw [State.resendAll_frame, hframe]
    rfl

/-- Settles O41: each clause is one case of a resend, of a port that goes down or of a failed lane; that LNK_REPLAYS counts frames and
that the port goes down at the fifth resend are log 35's. -/
theorem portsRetryAndFail : Obligations.PortsRetryAndFail := by
  unfold Obligations.PortsRetryAndFail
  refine ⟨?resends, ?givesUp, ?stalls, ?down, ?halves, ?resumes⟩
  case resends => exact fun p s hup hne hmove hfew => replayTimer_resends hup hne hmove hfew
  case givesUp => exact fun p s hup hne hmove hmany => replayTimer_gives_up hup hne hmove hmany
  case stalls => exact fun p s hne => ⟨_, exec_ackStallTimeout_of_unacked hne, exec_portDown p s⟩
  case down => exact fun p s hup hunacked hqueue hparent => portDown_reports hup hunacked hqueue hparent
  case halves => exact fun p lane s hup hbad hpeer hfull hlane => laneFail_halves hup hbad hpeer hfull hlane
  case resumes => exact fun p s hup hmove => laneRetrainDone_resumes hup hmove

end Sys2Proof.Proofs
end

section
/-! PROOFS. Caravan ports in training, their peers' identity, and the time base: what each answers in its cases (09 R307, R308,
R310 to R312; 01 R20). -/

namespace Sys2Proof.Machine

/-! ### Training (R307) -/

/-- A port as it comes up at full width. -/
def PortSt.trained (x : PortSt) : PortSt := { PortSt.reset with state := 2, laneCorr := x.laneCorr, pool := x.pool }

/-- The training of a port without bad lanes ends: it comes up and sends IDENT, or goes down. -/
theorem exec_linkTrainingDone_of_good {s : State} {p : Nat} (ok : Bool) (hdown : (s.port p).state.toNat < 2)
    (hstep : 3 ≤ s.glb.step.toNat) (hclk : s.pwr.refclk = true) (hbad : (s.port p).badLanes = 0) :
    exec (.linkTrainingDone p ok) s
      = .next (if ok then ((s.setPort p (s.port p).trained).sendIdent p).pumpAll else s.portDown p) := by
  have hgo : ¬ (2 ≤ (s.port p).state.toNat ∨ s.glb.step.toNat < 3 ∨ (!s.pwr.refclk) = true) := by
    rw [hclk]
    simp only [Bool.not_true, Bool.false_eq_true, or_false]
    omega
  have hrun : exec (.linkTrainingDone p ok) s = execLinkTrainingDone p ok s := rfl
  have hhalf : goodHalf (0 : BitVec 8).toNat 0 = some false := rfl
  rw [hrun, execLinkTrainingDone]
  dsimp only
  rw [if_neg hgo, hbad, hhalf]
  cases ok <;> rfl

/-! ### The time base (R311, R312) -/

theorem State.stepTime_eq (s : State) (n : Int) :
    ∃ time hold, s.stepTime n = { s with time := time, lnk := { s.lnk with timeHold := hold } } := by
  unfold State.stepTime
  split
  · exact ⟨_, _, rfl⟩
  · exact ⟨_, _, rfl⟩

theorem State.time_stepTime_of_nonneg (s : State) {n : Int} (hn : 0 ≤ n) :
    (s.stepTime n).time = s.time + BitVec.ofNat 64 n.toNat := by rw [State.stepTime, if_pos hn]

/-- The time base never runs backwards: it is held (R312). -/
theorem State.time_stepTime_of_neg (s : State) {n : Int} (hn : n < 0) : (s.stepTime n).time = s.time := by
  rw [State.stepTime, if_neg (Int.not_le.mpr hn)]

/-- A step to a time w reaches it at once, or is held until w. -/
theorem State.stepTime_to (s : State) (w : Word64) : s.stepTime ((w.toNat : Int) - s.time.toNat) =
    if s.time.toNat ≤ w.toNat then { s with time := w, lnk := { s.lnk with timeHold := none } }
    else { s with lnk := { s.lnk with timeHold := some w } } := by
  have hw := w.isLt
  have ht := s.time.isLt
  unfold State.stepTime
  by_cases hle : s.time.toNat ≤ w.toNat
  · have hsum : s.time + BitVec.ofNat 64 ((w.toNat : Int) - s.time.toNat).toNat = w := by
      apply BitVec.eq_of_toNat_eq
      rw [BitVec.toNat_add, BitVec.toNat_ofNat]
      omega
    rw [if_pos hle, if_pos (by omega), hsum]
  · have hdiff : s.time - BitVec.ofNat 64 ((w.toNat : Int) - s.time.toNat).natAbs = w := by
      apply BitVec.eq_of_toNat_eq
      rw [BitVec.toNat_sub, BitVec.toNat_ofNat]
      omega
    rw [if_neg hle, if_neg (by omega), hdiff]

theorem State.setRootTime_of_root {s : State} (w : Word64) (hroot : s.parentPort = none) :
    s.setRootTime (some w) = s.stepTime ((w.toNat : Int) - s.time.toNat) := by
  unfold State.setRootTime
  rw [hroot]

theorem exec_timeWave_of_root {s : State} (hroot : s.parentPort = none) :
    exec .timeWave s = .next { s with lnk := { s.lnk with depth := 0 } } := by
  have hrun : exec .timeWave s = execTimeWave s := rfl
  rw [hrun, execTimeWave, hroot]

theorem exec_timeWave_of_child {s : State} {p : Nat} (hparent : s.parentPort = some p) (hup : 2 ≤ (s.port p).state.toNat) :
    exec .timeWave s = .next ((s.modPort p (fun x => { x with timeT1 := some s.stamp })).transmitLink p 2
      (timePayload s.stamp 0 0 s.lnk.depth.toNat)) := by
  have hrun : exec .timeWave s = execTimeWave s := rfl
  rw [hrun, execTimeWave, hparent]
  exact if_neg (Nat.not_lt_of_le hup)

theorem leNat_take_timePayload (t1 t2 t3 depth : Nat) : leNat ((timePayload t1 t2 t3 depth).take 8) = t1 % 2 ^ 64 := by
  have htake : (timePayload t1 t2 t3 depth).take 8 = natLe 8 t1 := rfl
  rw [htake, leNat_natLe, show (256 : Nat) ^ 8 = 2 ^ 64 from rfl]

/-! ### The parent's answer (R311) -/

/-- The step of the clock for an offset in 1/8 ns: a slew of at most 50 ns within 1 µs, and the whole offset beyond it. -/
def timeSlew (theta8 : Int) : Int := if theta8.natAbs ≤ 8000 then max (-50) (min 50 (theta8 / 8)) else theta8 / 8

theorem timeSlew_neg {theta8 : Int} (h : theta8 < 0) : timeSlew theta8 < 0 := by
  unfold timeSlew
  split <;> omega

theorem timeSlew_of_near {theta8 : Int} (h : 0 ≤ theta8) (hnear : theta8.natAbs ≤ 8000) :
    0 ≤ timeSlew theta8 ∧ (timeSlew theta8).toNat = min 50 (theta8 / 8).toNat := by
  rw [timeSlew, if_pos hnear]
  omega

theorem timeSlew_of_far {theta8 : Int} (h : 0 ≤ theta8) (hfar : 8000 < theta8.natAbs) :
    0 ≤ timeSlew theta8 ∧ timeSlew theta8 = theta8 / 8 := by
  rw [timeSlew, if_neg (by omega)]
  omega

/-- The answer is consumed, the exchange over, and the offset kept, before the clock moves. -/
def State.takeOffset (s : State) (p : Nat) (f : Frame) (theta8 : Int) : State :=
  let s1 := { s with lnk := { s.lnk with inbox := s.lnk.inbox.erase (p, f) } }
  let s2 := s1.modPort p (fun x =>
    { x with timeT1 := none, syncOpen := decide (theta8.natAbs ≤ 8000) && x.state == 2 && s1.syncPort p })
  { s2 with lnk := { s2.lnk with
      offset := offsetField (theta8 / 8), depth := BitVec.ofNat 8 (identField f 0x18 8 + 1)
      locked := decide (theta8.natAbs ≤ 8000) } }

theorem exec_timeFrameReceive_of_answer {s : State} {p t1 t4 : Nat} {theta8 : Int} {f : Frame}
    (hfind : s.inboxFind p (fun x => x.vc == 7 && x.kind == 2) = some f) (ht1 : (s.port p).timeT1 = some t1)
    (htheta : theta8 = (((identField f 8 8 : Int) - t1) - ((t4 : Int) - identField f 0x10 8)) / 2) :
    exec (.timeFrameReceive p t4) s = .next ((s.takeOffset p f theta8).stepTime (timeSlew theta8)).pumpAll := by
  have hrun : exec (.timeFrameReceive p t4) s = execTimeFrameReceive p t4 s := rfl
  have ht1' : (({ s with lnk := { s.lnk with inbox := s.lnk.inbox.erase (p, f) } } : State).port p).timeT1 = some t1 := ht1
  rw [hrun, execTimeFrameReceive, hfind]
  dsimp only
  rw [ht1']
  dsimp only
  rw [← htheta, timeSlew]
  by_cases hnear : theta8.natAbs ≤ 8000
  · rw [if_pos hnear, if_pos (decide_eq_true hnear)]
    rfl
  · rw [if_neg hnear, if_neg (by simpa using hnear)]
    rfl

theorem State.port_takeOffset_self (s : State) (p : Nat) (f : Frame) (theta8 : Int) :
    ∃ b, (s.takeOffset p f theta8).port p
      = { s.port p with timeT1 := none, syncOpen := decide (theta8.natAbs ≤ 8000) && b } := by
  refine ⟨(s.port p).state == 2 && s.syncPort p, ?_⟩
  rw [← Bool.and_assoc]
  exact State.port_setPort_self ..

theorem State.portsSameBut_takeOffset (s : State) (p : Nat) (f : Frame) (theta8 : Int) :
    portsSameBut s (s.takeOffset p f theta8) p :=
  fun _ hq => (Tbl.get_put ..).trans (if_neg hq)

theorem State.takeOffset_frame (s : State) (p : Nat) (f : Frame) (theta8 : Int) :
    s.takeOffset p f theta8 = { s with ports := (s.takeOffset p f theta8).ports, lnk := (s.takeOffset p f theta8).lnk } := rfl

theorem State.port_stepTime (s : State) (n : Int) : (s.stepTime n).port = s.port := by
  obtain ⟨time, hold, h⟩ := s.stepTime_eq n
  rw [h]
  rfl

end Sys2Proof.Machine
end

section
/-! PROOFS. O42: the cases of training, identity and time, put together. -/

open Sys2Proof Sys2Proof.Machine

namespace Sys2Proof.Proofs

theorem linkTrainingDone_comes_up {p : Nat} {s : State} (hdown : (s.port p).state.toNat < 2) (hstep : 3 ≤ s.glb.step.toNat)
    (hclk : s.pwr.refclk = true) (hbad : (s.port p).badLanes = 0) :
    ∃ (u : State) (g : Frame), exec (.linkTrainingDone p true) s = .next u.pumpAll ∧
      u.port p = { PortSt.reset with
        state := 2, laneCorr := (s.port p).laneCorr, pool := (s.port p).pool, told := (u.port p).told } ∧ portsSameBut s u p ∧
      u.io.frames = (p, g) :: s.io.frames ∧ g.vc = 7 ∧ g.kind = 1 ∧ g.payload = s.identBlock ∧
      u = { s with ports := u.ports, io := { s.io with frames := u.io.frames } } := by
  have hself := (s.setPort p (s.port p).trained).port_transmitLink_self p 1 s.identBlock
  rw [State.port_setPort_self] at hself
  refine ⟨(s.setPort p (s.port p).trained).transmitLink p 1 s.identBlock, _,
    exec_linkTrainingDone_of_good true hdown hstep hclk hbad, ?_,
    (s.portsSameBut_setPort p _).trans (State.portsSameBut_transmitLink _ p 1 _), rfl, rfl, rfl, rfl, rfl⟩
  rw [hself]
  rfl

theorem identReceive_identifies {p : Nat} {f : Frame} {s : State}
    (hfind : s.inboxFind p (fun x => x.vc == 7 && x.kind == 1) = some f) (hup : (s.port p).state ≠ 0) :
    ∃ u : State, exec (.identReceive p) s
        = .next (if s.quarantineCause f ≠ 0 ∧ (s.port p).state = 2 then u.shunPort p else u).pumpAll ∧
      (u.port p).state = (if s.quarantineCause f = 0 then 2 else 3) ∧
      (u.port p).qCause = BitVec.ofNat 3 (s.quarantineCause f) ∧ (u.port p).peerId = BitVec.ofNat 16 (identField f 2 2) ∧
      (u.port p).runMinor = BitVec.ofNat 8 (min (identField f 1 1) s.glb.minor.toNat) ∧
      (s.quarantineCause f ≠ 0 → (u.port p).syncOpen = false) ∧ portsSameBut s u p ∧
      u.lnk = { s.lnk with inbox := s.lnk.inbox.erase (p, f) } ∧
      u = { s with ports := u.ports, lnk := u.lnk, boot := { s.boot with events := u.boot.events }
                   mgt := { s.mgt with awaiting := u.mgt.awaiting } } := by
  have hport := s.port_takeIdent_self p f
  have hsame := s.portsSameBut_takeIdent p f
  have hevents := s.takeIdent_eventsOnly p f
  refine ⟨_, exec_identReceive_of_find hfind hup, ?_⟩
  generalize s.takeIdent p f = u at hport hsame hevents
  rw [hport]
  obtain ⟨es, aw, rfl⟩ := hevents
  refine ⟨rfl, rfl, rfl, rfl, fun hcause => ?_, hsame, rfl, rfl⟩
  simp [State.identified, hcause]

theorem timeTick_sets_root {island cycles : Nat} {w : Word64} {s : State} (hroot : s.parentPort = none) :
    ∃ t : State, exec (.timeTick island ⟨cycles, some w⟩) s = .next t ∧
      t = { s with time := t.time, lnk := { s.lnk with timeHold := t.lnk.timeHold }, cores := t.cores, routers := t.routers } ∧
      t.time = (if s.time.toNat ≤ w.toNat then w else s.time) ∧
      t.lnk.timeHold = (if s.time.toNat ≤ w.toNat then none else some w) := by
  generalize hv : (s.modCore island (fun c => { c with trim := (cycles : Int) - s.coreMhz island })).setRouter island
    { (s.modCore island (fun c => { c with trim := (cycles : Int) - s.coreMhz island })).router island with replays := [] } = v
  have hframe : v = { s with cores := v.cores, routers := v.routers } := by rw [← hv]; rfl
  have hroot' : v.parentPort = none := by rw [hframe]; exact hroot
  have htime : v.time = s.time := by rw [hframe]
  have hrun : exec (.timeTick island ⟨cycles, some w⟩) s = .next (v.setRootTime (some w)) := by rw [← hv]; rfl
  rw [State.setRootTime_of_root w hroot', State.stepTime_to, htime] at hrun
  refine ⟨_, hrun, ?_⟩
  split
  · rw [hframe]
    exact ⟨rfl, rfl, rfl⟩
  · rw [hframe]
    exact ⟨rfl, rfl, rfl⟩

theorem timeWave_starts_exchange {p : Nat} {s : State} (hparent : s.parentPort = some p) (hup : 2 ≤ (s.port p).state.toNat) :
    ∃ (t : State) (g : Frame), exec .timeWave s = .next t ∧ (t.port p).timeT1 = some s.stamp ∧
      t.io.frames = (p, g) :: s.io.frames ∧ g.vc = 7 ∧ g.kind = 2 ∧ leNat (g.payload.take 8) = s.stamp % 2 ^ 64 ∧ portsSameBut s t p ∧
      t = { s with ports := t.ports, io := { s.io with frames := t.io.frames } } := by
  have hrun := exec_timeWave_of_child hparent hup
  have hport := s.port_modPort_self p fun x => { x with timeT1 := some s.stamp }
  have hsame := s.portsSameBut_modPort p fun x => { x with timeT1 := some s.stamp }
  have hframe : s.modPort p (fun x => { x with timeT1 := some s.stamp })
      = { s with ports := (s.modPort p (fun x => { x with timeT1 := some s.stamp })).ports } := rfl
  generalize s.modPort p (fun x => { x with timeT1 := some s.stamp }) = v at hrun hport hsame hframe
  refine ⟨_, v.linkFrame p 2 (timePayload s.stamp 0 0 s.lnk.depth.toNat), hrun, ?_, ?_, rfl, rfl, leNat_take_timePayload ..,
    hsame.trans (v.portsSameBut_transmitLink p 2 _), ?_⟩
  · rw [State.port_transmitLink_self, hport]
    rfl
  · rw [State.transmitLink_eq, hframe]
  · rw [State.transmitLink_eq, hframe]
    rfl

theorem timeFrameReceive_gives_offset {p t1 t4 : Nat} {theta8 : Int} {f : Frame} {s : State}
    (hfind : s.inboxFind p (fun x => x.vc == 7 && x.kind == 2) = some f) (ht1 : (s.port p).timeT1 = some t1)
    (htheta : theta8 = (((identField f 8 8 : Int) - t1) - ((t4 : Int) - identField f 0x10 8)) / 2) :
    ∃ u : State, exec (.timeFrameReceive p t4) s = .next u.pumpAll ∧ (u.port p).timeT1 = none ∧
      u.lnk.offset = offsetField (theta8 / 8) ∧ u.lnk.locked = decide (theta8.natAbs ≤ 8000) ∧
      u.lnk.depth = BitVec.ofNat 8 (identField f 0x18 8 + 1) ∧
      (0 ≤ theta8 → theta8.natAbs ≤ 8000 → u.time = s.time + BitVec.ofNat 64 (min 50 (theta8 / 8).toNat)) ∧
      (0 ≤ theta8 → 8000 < theta8.natAbs → u.time = s.time + BitVec.ofNat 64 (theta8 / 8).toNat ∧ (u.port p).syncOpen = false) ∧
      (theta8 < 0 → u.time = s.time) ∧ portsSameBut s u p ∧
      u = { s with ports := u.ports, lnk := u.lnk, time := u.time } := by
  obtain ⟨b, hport⟩ := s.port_takeOffset_self p f theta8
  have hsame := s.portsSameBut_takeOffset p f theta8
  have hlnk : (s.takeOffset p f theta8).lnk = { s.lnk with
    inbox := s.lnk.inbox.erase (p, f), offset := offsetField (theta8 / 8), depth := BitVec.ofNat 8 (identField f 0x18 8 + 1)
    locked := decide (theta8.natAbs ≤ 8000) } := rfl
  have htime : (s.takeOffset p f theta8).time = s.time := rfl
  have hframe := s.takeOffset_frame p f theta8
  refine ⟨_, exec_timeFrameReceive_of_answer hfind ht1 htheta, ?_⟩
  generalize s.takeOffset p f theta8 = v at hport hsame hlnk htime hframe
  obtain ⟨time, hold, hstep⟩ := v.stepTime_eq (timeSlew theta8)
  have hlnk' : (v.stepTime (timeSlew theta8)).lnk = { v.lnk with timeHold := hold } := congrArg State.lnk hstep
  rw [State.port_stepTime, hport, hlnk', hlnk]
  refine ⟨rfl, rfl, rfl, rfl, fun hpos hnear => ?_, fun hpos hfar => ⟨?_, ?_⟩, fun hneg => ?_, fun q hq => ?_, ?_⟩
  · obtain ⟨hnn, hslew⟩ := timeSlew_of_near hpos hnear
    rw [State.time_stepTime_of_nonneg v hnn, hslew, htime]
  · obtain ⟨hnn, hslew⟩ := timeSlew_of_far hpos hfar
    rw [State.time_stepTime_of_nonneg v hnn, hslew, htime]
  · simp [Nat.not_le_of_lt hfar]
  · rw [State.time_stepTime_of_neg v (timeSlew_neg hneg), htime]
  · rw [State.port_stepTime]
    exact hsame q hq
  · rw [hstep, hframe, hlnk]

/-- Settles O42: each clause is one case of training, of an IDENT or of the time exchange; the slew of at most 50 ns is log 35's, and
the places of the times in a TIME payload are log 16's. -/
theorem portsTrainAndKeepTime : Obligations.PortsTrainAndKeepTime := by
  unfold Obligations.PortsTrainAndKeepTime
  refine ⟨?trains, ?fails, ?ident, ?rootWave, ?rootTick, ?childWave, ?answer⟩
  case trains => exact fun p s hdown hstep hclk hbad => linkTrainingDone_comes_up hdown hstep hclk hbad
  case fails =>
    exact fun p s hdown hstep hclk hbad => (exec_linkTrainingDone_of_good false hdown hstep hclk hbad).trans (exec_portDown p s).symm
  case ident => exact fun p f s hfind hup => identReceive_identifies hfind hup
  case rootWave => exact fun s hroot => exec_timeWave_of_root hroot
  case rootTick => exact fun island cycles w s hroot => timeTick_sets_root hroot
  case childWave => exact fun p s hparent hup => timeWave_starts_exchange hparent hup
  case answer => exact fun p t1 t4 theta8 f s hfind ht1 htheta => timeFrameReceive_gives_offset hfind ht1 htheta

end Sys2Proof.Proofs
end

section
/-! PROOFS. The management core's answers: addresses, bridging, sensors, effecters and the events it delivers (16 R509 to R511,
R516, R517; 12 R413; 15 R485; 09 R283). -/

namespace Sys2Proof.Machine

theorem exec_dynamicAddressAssignment_of_vaux {s : State} (a : Nat) (hvaux : s.pwr.vaux = true) :
    exec (.dynamicAddressAssignment a) s = .next { s with mgt := { s.mgt with dynAddr := some a } } := if_pos hvaux

section
variable {s : State} (hmgt : s.answersMgt = true)
include hmgt

/-! ### Endpoint IDs (R509; log 20) -/

theorem exec_setEndpointId_of_reserved {e : Nat} (he : e = 0 ∨ e = 255) :
    exec (.setEndpointId e) s = .next (s.reply (.refused errInvalidData)) := by
  have hrun : exec (.setEndpointId e) s = execSetEndpointId e s := rfl
  rw [hrun, execSetEndpointId, hmgt]
  exact if_pos he

theorem exec_setEndpointId_of_free {e : Nat} (hnull : e ≠ 0) (hall : e ≠ 255) :
    exec (.setEndpointId e) s = .next (({ s with mgt := { s.mgt with eid := e } } : State).reply .ok) := by
  have hrun : exec (.setEndpointId e) s = execSetEndpointId e s := rfl
  rw [hrun, execSetEndpointId, hmgt]
  exact if_neg (not_or_intro hnull hall)

/-! ### Bridging (R510, R511, R283) -/

theorem exec_mctpBridge_of_unknown (p d n : Option Nat) {m : List Byte} (hunknown : knownType m = false) :
    exec (.mctpBridge p s.mgt.eid d n m) s = .next { s with mgt := { s.mgt with discarded := s.mgt.discarded + 1 } } := by
  have hrun : exec (.mctpBridge p s.mgt.eid d n m) s = execMctpBridge p s.mgt.eid d n m s := rfl
  rw [hrun]
  unfold execMctpBridge
  rw [hmgt, hunknown]
  exact if_pos (Or.inr rfl)

section
variable {e : Nat} (hnull : e ≠ 0) (hother : e ≠ s.mgt.eid)
include hnull hother

/-- A message from a port for an endpoint behind no known device goes to the I3C bus. -/
theorem exec_mctpBridge_of_bus (p : Nat) (m : List Byte) (hroute : Tbl.find s.mgt.routes e = none) :
    exec (.mctpBridge (some p) e none none m) s = .next { s with io := { s.io with bridged := (e, m) :: s.io.bridged } } := by
  have hrun : exec (.mctpBridge (some p) e none none m) s = execMctpBridge (some p) e none none m s := rfl
  rw [hrun]
  unfold execMctpBridge
  rw [hmgt, hroute]
  exact if_neg (not_or_intro hnull hother)

/-- A message for an endpoint whose device is told goes to that device. -/
theorem exec_mctpBridge_of_device (d : Nat) (n : Option Nat) (m : List Byte) :
    ∃ f : Frame, f.dst = d ∧ exec (.mctpBridge none e (some d) n m) s
      = .next (({ s with mgt := { s.mgt with routes := Tbl.setKey s.mgt.routes e d } } : State).emit f) := by
  have hrun : exec (.mctpBridge none e (some d) n m) s = execMctpBridge none e (some d) n m s := rfl
  refine ⟨({ s with mgt := { s.mgt with routes := Tbl.setKey s.mgt.routes e d } } : State).newFrame d 0 0 0 (mctpPayload m) [],
    rfl, ?_⟩
  rw [hrun]
  unfold execMctpBridge
  rw [hmgt]
  exact if_neg (not_or_intro hnull hother)

end

end

/-! ### Sensors and effecters (R517) -/

section
variable {s : State} (hready : s.mgt.ready = true)
include hready

/-- A thermal sensor reads its mean, or is unavailable once it has failed. -/
theorem exec_getSensorReading_of_sensor {k : Nat} (hk : k < Config.sensors) :
    exec (.getSensorReading (0x1000 + k)) s
      = .next (s.reply (if (s.sensor k).state = 3 then .unavailable else .value (s.sensor k).mean)) := by
  have hrun : exec (.getSensorReading (0x1000 + k)) s = execGetSensorReading (0x1000 + k) s := rfl
  rw [hrun]
  unfold execGetSensorReading
  rw [hready]
  dsimp only
  rw [if_neg (by decide), if_pos ⟨Nat.le_add_right .., Nat.add_lt_add_left hk _⟩, Nat.add_sub_cancel_left]
  split <;> rfl

/-- The lowest voltage of a domain is read once, and its time kept. -/
theorem exec_getSensorReading_of_domain {d mv : Nat} (hd : d < Config.domains) (hlive : (s.dom d).power ≠ 3)
    (hmv : (s.dom d).minMv = some mv) :
    exec (.getSensorReading (0x2000 + d)) s
      = .next ((s.setDom d { s.dom d with minMv := none, readTime := (s.dom d).minTime, minTime := 0 }).reply (.value (mv : Int))) := by
  have hrun : exec (.getSensorReading (0x2000 + d)) s = execGetSensorReading (0x2000 + d) s := rfl
  have hsensors : 0x1000 + Config.sensors ≤ 0x2000 := by decide
  rw [hrun]
  unfold execGetSensorReading
  rw [hready]
  dsimp only
  rw [if_neg (by decide), if_neg (by omega), if_pos ⟨Nat.le_add_right .., Nat.add_lt_add_left hd _⟩, Nat.add_sub_cancel_left,
    if_neg hlive, hmv]

theorem exec_getSensorReading_of_unknown {k : Nat} (hk : 0x6000 ≤ k) :
    exec (.getSensorReading k) s = .next (s.reply (.refused errInvalidSensor)) := by
  have hrun : exec (.getSensorReading k) s = execGetSensorReading k s := rfl
  have hsensors : 0x1000 + Config.sensors ≤ 0x2000 := by decide
  have hdomains : Config.domains ≤ 0x400 := by decide
  rw [hrun]
  unfold execGetSensorReading
  rw [hready]
  dsimp only
  rw [if_neg (by decide), if_neg (by omega), if_neg (by omega), if_neg (by omega), if_neg (by omega), if_neg (by omega),
    if_neg (by omega), if_neg (by omega), if_neg (by omega), if_neg (by omega)]
  split
  case h_16 => rfl
  all_goals omega

/-- The management cap is set from 400 W to 1,800 W alone (R413). -/
theorem exec_setCap (w : Nat) :
    exec (.setNumericEffecterValue 0x8000 w) s
      = .next (if w < 400 ∨ 1800 < w then s.reply (.refused errInvalidData) else (s.setMgtCap w).reply .ok) := by
  have hrun : exec (.setNumericEffecterValue 0x8000 w) s = execSetNumericEffecterValue 0x8000 w s := rfl
  rw [hrun]
  unfold execSetNumericEffecterValue
  rw [hready, if_neg (by decide), if_neg (by decide)]
  split <;> rfl

theorem exec_setFullTest (v : Nat) :
    exec (.setStateEffecter 0x8001 v) s
      = .next (({ s with mgt := { s.mgt with fullTest := decide (v = 1) } } : State).reply .ok) := by
  have hrun : exec (.setStateEffecter 0x8001 v) s = execSetStateEffecter 0x8001 v s := rfl
  rw [hrun]
  unfold execSetStateEffecter
  rw [hready, if_neg (by decide), if_neg (by decide)]

theorem exec_setEventReceiver_of_ready (e : Nat) :
    exec (.setEventReceiver e) s = .next (({ s with mgt := { s.mgt with receiver := some e } } : State).reply .ok) := by
  have hrun : exec (.setEventReceiver e) s = execSetEventReceiver e s := rfl
  rw [hrun, execSetEventReceiver, hready]
  rfl

end

/-- Without a collective in progress a new cap changes nothing but itself (R413, R417). -/
theorem State.setMgtCap_of_no_colls {s : State} (w : Nat) (hcolls : s.colls = []) :
    s.setMgtCap w = { s with pwr := { s.pwr with mgtCap := BitVec.ofNat 12 w } } := if_neg fun h => h.2 hcolls

/-- The next event in sequence goes to the receiver, unless it is of a CPER kind. -/
theorem exec_platformEventMessage_of_event {s : State} {e : Nat} {v : Event} {r : List Event} (hto : s.mgt.receiver = some e)
    (hnext : s.deliverable = v :: r) (hplain : v.cper = none) :
    exec .platformEventMessage s = .next (({ s with mgt := { s.mgt with awaiting := r } } : State).reply (.event v)) := by
  have hrun : exec .platformEventMessage s = execPlatformEventMessage s := rfl
  rw [hrun, execPlatformEventMessage, hto, hnext]
  exact if_neg (by simp [hplain])

end Sys2Proof.Machine
end

section
/-! PROOFS. O54: the cases of the management core's answers, put together. -/

open Sys2Proof Sys2Proof.Machine

namespace Sys2Proof.Proofs

theorem mctpBridge_discards_without_route {e d : Nat} {s : State} (n : Option Nat) (m : List Byte) (hmgt : s.answersMgt = true)
    (hnull : e ≠ 0) (hother : e ≠ s.mgt.eid) (hdev : d ≠ s.applied.deviceId.toNat) (hroute : s.routePort d = none) :
    ∃ t : State, exec (.mctpBridge none e (some d) n m) s = .next t ∧ Tbl.find t.mgt.routes e = some d ∧
      (t.boot.events.head?).map (·.kind) = some .frameDiscard ∧ t.ports = s.ports ∧ t.io = s.io := by
  obtain ⟨f, rfl, hrun⟩ := exec_mctpBridge_of_device hmgt hnull hother d n m
  have hlost := State.emit_of_no_route (s := { s with mgt := { s.mgt with routes := Tbl.setKey s.mgt.routes e f.dst } }) hdev hroute
  refine ⟨_, hrun.trans (congrArg _ hlost), ?_, State.kind_head_discardFrame .., rfl, rfl⟩
  exact (Tbl.find_setKey s.mgt.routes e f.dst e).trans (if_pos rfl)

theorem getSensorReading_reads_domain {d mv : Nat} {s : State} (hready : s.mgt.ready = true) (hd : d < Config.domains)
    (hlive : (s.dom d).power ≠ 3) (hmv : (s.dom d).minMv = some mv) :
    ∃ t : State, exec (.getSensorReading (0x2000 + d)) s = .next t ∧ t.io.replies = .value (mv : Int) :: s.io.replies ∧
      t.dom d = { s.dom d with minMv := none, readTime := (s.dom d).minTime, minTime := 0 } ∧ domsSameBut s t d ∧
      t = { s with doms := t.doms, io := { s.io with replies := t.io.replies } } :=
  ⟨_, exec_getSensorReading_of_domain hready hd hlive hmv, rfl, State.dom_setDom_self ..,
    fun q hq => (State.dom_setDom s d q _).trans (if_neg hq), rfl⟩

/-- Settles O54: each clause is one case of one command; that the null and the broadcast endpoint ID are refused is log 20's. -/
theorem managementAnswers : Obligations.ManagementAnswers := by
  unfold Obligations.ManagementAnswers
  refine ⟨?address, ?eid, ?reserved, ?unknownType, ?bus, ?noRoute, ?mean, ?failed, ?domain, ?unknownSensor, ?cap, ?badCap,
    ?fullTest, ?receiver, ?event⟩
  case address => exact fun a s hvaux => exec_dynamicAddressAssignment_of_vaux a hvaux
  case eid => exact fun e s hmgt hnull hall => exec_setEndpointId_of_free hmgt hnull hall
  case reserved =>
    exact fun s hmgt => ⟨⟨_, exec_setEndpointId_of_reserved hmgt (.inl rfl)⟩, _, exec_setEndpointId_of_reserved hmgt (.inr rfl)⟩
  case unknownType => exact fun p d n m s hmgt hunknown => exec_mctpBridge_of_unknown hmgt p d n hunknown
  case bus => exact fun p e m s hmgt hnull hother hroute => exec_mctpBridge_of_bus hmgt hnull hother p m hroute
  case noRoute =>
    exact fun e d n m s hmgt hnull hother hdev hroute => mctpBridge_discards_without_route n m hmgt hnull hother hdev hroute
  case mean =>
    intro k s hready hk hgood
    rw [exec_getSensorReading_of_sensor hready hk, if_neg hgood]
  case failed =>
    intro k s hready hk hfailed
    rw [exec_getSensorReading_of_sensor hready hk, if_pos hfailed]
  case domain => exact fun d mv s hready hd hlive hmv => getSensorReading_reads_domain hready hd hlive hmv
  case unknownSensor => exact fun k s hready hk => ⟨_, exec_getSensorReading_of_unknown hready hk⟩
  case cap =>
    intro w s hready hlow hhigh hcolls
    rw [exec_setCap hready, if_neg (by omega), State.setMgtCap_of_no_colls w hcolls]
  case badCap => exact fun w s hready hw => ⟨_, (exec_setCap hready w).trans (congrArg _ (if_pos hw))⟩
  case fullTest => exact fun v s hready => exec_setFullTest hready v
  case receiver => exact fun e s hready => exec_setEventReceiver_of_ready hready e
  case event => exact fun e v r s hto hnext hplain => exec_platformEventMessage_of_event hto hnext hplain

end Sys2Proof.Proofs
end

section
/-! PROOFS. Objects 0 and 1 on the sync tree: an arrival that waits for others, a release, and the end of a chain epoch (09 R304,
R305; 10 R330; 15 R503, R505, R506). -/

namespace Sys2Proof.Machine

/-! ### Frames taken and sent -/

/-- A delivered frame that is consumed leaves the inbox, and its pool units are free. -/
theorem State.inboxTake_eq (s : State) (p : Nat) (f : Frame) :
    ∃ ports, s.inboxTake p f = { s with ports := ports, lnk := { s.lnk with inbox := s.lnk.inbox.erase (p, f) } } := by
  unfold State.inboxTake
  exact ⟨_, State.freePool_ports_only _ p f⟩

theorem State.sendSyncDown_linksOnly (s : State) (a : SyncArg) : s.LinksOnly (s.sendSyncDown a) := by
  unfold State.sendSyncDown
  exact List.foldlRecOn (motive := fun t : State => s.LinksOnly t) _ _ (LinksOnly.refl s) fun _ ht p _ => ht.emitOn p _

theorem State.LinksOnly.transmitLink {s t : State} (h : s.LinksOnly t) (p kind : Nat) (payload : List Byte) :
    s.LinksOnly (t.transmitLink p kind payload) := by
  obtain ⟨ports, ctr, frames, rfl⟩ := h
  exact ⟨_, _, _, rfl⟩

theorem State.sendIdents_linksOnly (s : State) : s.LinksOnly s.sendIdents := by
  unfold State.sendIdents
  refine List.foldlRecOn (motive := fun t : State => s.LinksOnly t) _ _ (LinksOnly.refl s) fun t ht p _ => ?_
  split
  · exact ht
  · exact ht.transmitLink p 1 t.identBlock

/-! ### An arrival that waits for others (R304, R330) -/

/-- A wave with the arrival of child p. -/
def Wave.arrived (w : Wave) (p : Nat) (a : SyncArg) : Wave := { w with inputs := Tbl.setKey w.inputs p (a.value, a.step, a.mismatch) }

theorem Wave.find_arrived (w : Wave) (p q : Nat) (a : SyncArg) : Tbl.find (w.arrived p a).inputs q =
    if q = p then some (a.value, a.step, a.mismatch) else Tbl.find w.inputs q := Tbl.find_setKey ..

/-- Not every child has arrived at a wave that misses one. -/
theorem State.all_childPorts_of_missing {s : State} {w : Wave} {j : Nat} (hj : j ∈ s.childPorts)
    (hmiss : Tbl.find w.inputs j = none) :
    s.childPorts.all (fun p => (Tbl.find w.inputs p).isSome) = false :=
  List.all_eq_false.mpr ⟨j, hj, by simp [hmiss]⟩

theorem State.stepWave0_of_missing {s : State} {j : Nat} (hj : j ∈ s.childPorts) (hmiss : Tbl.find s.lnk.wave0.inputs j = none) :
    s.stepWave0 = s := by
  have hall := State.all_childPorts_of_missing hj hmiss
  unfold State.stepWave0
  dsimp only
  rw [hall]
  exact if_pos (by rw [Bool.not_false, Bool.or_true])

theorem State.stepWave1_of_missing {s : State} {j : Nat} (hj : j ∈ s.childPorts) (hmiss : Tbl.find s.epoch.wave.inputs j = none) :
    s.stepWave1 = s := by
  have hall := State.all_childPorts_of_missing hj hmiss
  have hmove : s.moveWave1 = s := by
    unfold State.moveWave1
    dsimp only
    rw [hall]
    exact if_pos (by rw [Bool.not_false, Bool.or_true])
  rw [State.stepWave1, hmove, hmove]

/-- The arrival leaves the inbox and is held under its port at object 0. -/
def State.holdArrival0 (s : State) (p : Nat) (f : Frame) : State :=
  { s.inboxTake p f with lnk := { (s.inboxTake p f).lnk with wave0 := s.lnk.wave0.arrived p (parseSync f.arg) } }

theorem State.holdArrival0_eq (s : State) (p : Nat) (f : Frame) : ∃ ports, s.holdArrival0 p f = { s with
    ports := ports
    lnk := { s.lnk with inbox := s.lnk.inbox.erase (p, f), wave0 := s.lnk.wave0.arrived p (parseSync f.arg) } } := by
  obtain ⟨ports, htake⟩ := s.inboxTake_eq p f
  rw [State.holdArrival0, htake]
  exact ⟨ports, rfl⟩

/-- The arrival leaves the inbox and is held under its port at object 1. -/
def State.holdArrival1 (s : State) (p : Nat) (f : Frame) : State :=
  { s.inboxTake p f with epoch := { (s.inboxTake p f).epoch with wave := s.epoch.wave.arrived p (parseSync f.arg) } }

theorem State.holdArrival1_eq (s : State) (p : Nat) (f : Frame) : ∃ ports, s.holdArrival1 p f = { s with
    ports := ports, lnk := { s.lnk with inbox := s.lnk.inbox.erase (p, f) }
    epoch := { s.epoch with wave := s.epoch.wave.arrived p (parseSync f.arg) } } := by
  obtain ⟨ports, htake⟩ := s.inboxTake_eq p f
  rw [State.holdArrival1, htake]
  exact ⟨ports, rfl⟩

theorem exec_syncUp_of_object0 {s : State} {p : Nat} {f : Frame} (hnext : s.nextSync p 0 = some f)
    (hobj : (parseSync f.arg).object = 0) (hgen : (parseSync f.arg).gen = s.lnk.wave0.gen) (hrel : s.lnk.wave0.released = none) :
    exec (.syncUp p) s = .next (s.holdArrival0 p f).stepWave0 := by
  have hrun : exec (.syncUp p) s = execSyncUp p s := rfl
  rw [hrun, execSyncUp, hnext]
  dsimp only
  rw [if_pos hobj, State.syncUp0]
  exact congrArg _ (if_pos ⟨hgen, hrel⟩)

theorem exec_syncUp_of_object1 {s : State} {p : Nat} {f : Frame} (hnext : s.nextSync p 0 = some f)
    (hobj : (parseSync f.arg).object = 1) (hgen : (parseSync f.arg).gen = s.epoch.wave.gen) (hrel : s.epoch.wave.released = none) :
    exec (.syncUp p) s = .next (s.holdArrival1 p f).stepWave1 := by
  have hrun : exec (.syncUp p) s = execSyncUp p s := rfl
  rw [hrun, execSyncUp, hnext]
  dsimp only
  rw [if_neg (by omega), if_pos hobj, State.syncUp1]
  exact congrArg _ (if_pos ⟨hgen, hrel⟩)

/-! ### Releases (R304, R330, R503) -/

/-- A release of object 0 gives the waiting owner's wave its outcome. -/
theorem State.releaseWave0_of_owner {s : State} {o : Nat} (v mm : Bool) (howner : s.waveOwner = some o) :
    ∃ ports ctr frames, s.releaseWave0 v mm = { s with
      ports := ports, ctr := ctr, io := { s.io with frames := frames }
      lnk := { s.lnk with wave0 := { s.lnk.wave0 with released := some (v, mm) } } } := by
  obtain ⟨ports, ctr, frames, hsent⟩ := s.sendSyncDown_linksOnly
    { object := 0, gen := s.lnk.wave0.gen, value := v, mismatch := mm, step := 0 }
  unfold State.releaseWave0
  dsimp only
  rw [hsent, howner]
  exact ⟨_, _, _, rfl⟩

/-- A release of object 1 decides a chain epoch that is undecided. -/
theorem State.releaseWave1_of_undecided {s : State} (v mm : Bool) (hchain : s.chainEpoch = true) (hopen : s.epoch.decided = none) :
    ∃ ports ctr frames own, s.releaseWave1 v mm = { s with
      ports := ports, ctr := ctr, io := { s.io with frames := frames }, glb := { s.glb with epState := 3 }
      epoch := { s.epoch with
        decided := some (!v && !mm), wave := { Wave.idle with gen := !s.epoch.wave.gen, own := own } } } := by
  obtain ⟨ports, ctr, frames, hsent⟩ := s.sendSyncDown_linksOnly
    { object := 1, gen := s.epoch.wave.gen, value := v, mismatch := mm, step := 0 }
  have hchain' : State.chainEpoch { s with ports := ports, ctr := ctr, io := { s.io with frames := frames } } = true := hchain
  unfold State.releaseWave1
  dsimp only
  rw [hsent, if_pos hchain', hopen]
  exact ⟨_, _, _, _, rfl⟩

theorem exec_syncDown_of_object0 {s : State} {p : Nat} {f : Frame} (hnext : s.nextSync p 1 = some f)
    (hobj : (parseSync f.arg).object = 0) (hgen : (parseSync f.arg).gen = s.lnk.wave0.gen) (hrel : s.lnk.wave0.released = none) :
    exec (.syncDown p) s = .next (if ((s.inboxTake p f).releaseWave0 (parseSync f.arg).value (parseSync f.arg).mismatch).waveOwner.isNone
      then ((s.inboxTake p f).releaseWave0 (parseSync f.arg).value (parseSync f.arg).mismatch).stepWave0
      else (s.inboxTake p f).releaseWave0 (parseSync f.arg).value (parseSync f.arg).mismatch) := by
  have hrun : exec (.syncDown p) s = execSyncDown p s := rfl
  rw [hrun, execSyncDown, hnext]
  dsimp only
  rw [if_pos hobj, State.syncDown0]
  exact congrArg _ (if_pos ⟨hgen, hrel⟩)

theorem exec_syncDown_of_object1 {s : State} {p : Nat} {f : Frame} (hnext : s.nextSync p 1 = some f)
    (hobj : (parseSync f.arg).object = 1) (hgen : (parseSync f.arg).gen = s.epoch.wave.gen) (hrel : s.epoch.wave.released = none) :
    exec (.syncDown p) s
      = .next ((s.inboxTake p f).releaseWave1 (parseSync f.arg).value (parseSync f.arg).mismatch).stepWave1 := by
  have hrun : exec (.syncDown p) s = execSyncDown p s := rfl
  rw [hrun, execSyncDown, hnext]
  dsimp only
  rw [if_neg (by omega), if_pos hobj, State.syncDown1]
  exact congrArg _ (if_pos ⟨hgen, hrel⟩)

/-- A root that has seen a first arrival and waited releases object 1 with value 1 (R505). -/
theorem exec_rootWaveTimeout_of_begun {s : State} (hroot : s.applied.syncRoot = true)
    (hbegun : s.epoch.wave.own.isSome = true ∨ s.epoch.wave.inputs ≠ []) (hrel : s.epoch.wave.released = none) :
    exec (.rootWaveTimeout 1) s = .next (s.releaseWave1 true (s.epoch.wave.combine s.epoch.wave.own).2.1).stepWave1 :=
  if_pos ⟨rfl, hroot, hbegun, hrel⟩

/-! ### The end of a chain epoch (R503, R506) -/

/-- The end of an epoch up to what it lets go on: its status is written and its rings leave PAUSED. -/
def State.epochEnded (s : State) (result : Nat) (missed : Bool) : State :=
  ({ s with epoch := s.epoch.over } : State).resumeRings.writeEpochStatus s.epoch.number result missed s.epoch.rej

theorem State.endEpoch_eq (s : State) (result : Nat) (missed : Bool) :
    s.endEpoch result missed = (s.epochEnded result missed).issueAll.pumpAll := rfl

theorem State.resumeRings_rings_only (s : State) : s.resumeRings = { s with rings := s.resumeRings.rings } := by
  unfold State.resumeRings
  refine List.foldlRecOn (motive := fun t : State => t = { s with rings := t.rings }) _ _ rfl fun t ht r _ => ?_
  rw [ht]
  rfl

/-- An interrupt is the front end's and the output's (R56). -/
theorem State.raiseMsix_frame (s : State) (v : Nat) :
    s.raiseMsix v = { s with cmd := (s.raiseMsix v).cmd, io := (s.raiseMsix v).io } := by
  unfold State.raiseMsix
  split
  · rfl
  · unfold State.fireMsix
    split <;> rfl

theorem State.epochEnded_status (s : State) (result : Nat) (missed : Bool) :
    (s.epochEnded result missed).applied = s.applied ∧ (s.epochEnded result missed).epoch = s.epoch.over ∧
      (s.epochEnded result missed).glb.epState = 0 ∧ (s.epochEnded result missed).glb.lastNumber = s.epoch.number ∧
      (s.epochEnded result missed).glb.epResult = BitVec.ofNat 3 result := by
  unfold State.epochEnded State.writeEpochStatus
  rw [State.resumeRings_rings_only]
  dsimp only
  split
  · rw [State.raiseMsix_frame]
    exact ⟨rfl, rfl, rfl, rfl, rfl⟩
  · exact ⟨rfl, rfl, rfl, rfl, rfl⟩

/-- The latches of the quotas touch the fields and the events alone (R344). -/
theorem State.checkQuotas_eq (s : State) (loud : Bool) : ∃ fields es aw, s.checkQuotas loud = { s with
    fields := fields, boot := { s.boot with events := es }, mgt := { s.mgt with awaiting := aw } } := by
  unfold State.checkQuotas
  refine List.foldlRecOn (motive := fun t : State => ∃ fields es aw, t = { s with
    fields := fields, boot := { s.boot with events := es }, mgt := { s.mgt with awaiting := aw } }) _ _ ⟨_, _, _, rfl⟩
    fun t ht f _ => ?_
  obtain ⟨fields, es, aw, rfl⟩ := ht
  split
  · dsimp only
    split
    · exact ⟨_, _, _, rfl⟩
    · split <;> exact ⟨_, _, _, rfl⟩
  · exact ⟨_, _, _, rfl⟩

theorem State.applyRows_nil (s : State) : s.applyRows [] = s.checkQuotas true := rfl

/-- An epoch that has applied its rows ends with RESULT 1, or 2 with rejects; its rows and the epoch itself stand until then. -/
theorem State.finishApplied_eq (s : State) (missed : Bool) : ∃ t : State, t.applied = s.applied ∧ t.epoch = s.epoch ∧
    s.finishApplied missed = t.endEpoch s.appliedResult missed := by
  unfold State.finishApplied
  dsimp only
  split
  · exact ⟨s, rfl, rfl, rfl⟩
  · obtain ⟨ports, ctr, frames, hsent⟩ := s.digestConfig.sendIdents_linksOnly
    have hresult : s.digestConfig.sendIdents.appliedResult = s.appliedResult := by rw [hsent]; rfl
    refine ⟨s.digestConfig.sendIdents, by rw [hsent]; rfl, by rw [hsent]; rfl, ?_⟩
    rw [hresult]

/-- The epoch with its commit wave behind it. -/
def State.committed (s : State) : State := { s with epoch := { s.epoch with wave := { Wave.idle with gen := !s.epoch.wave.gen } } }

/-- A chain epoch without row 8 ends: it applies no further row, and its RESULT is 4 where it was discarded. -/
theorem State.finishChain_of_no_row8 {s : State} (go : Bool) (hrows : 8 ∉ s.epoch.rows) :
    ∃ t : State, t.applied = s.applied ∧ t.epoch = s.committed.epoch ∧
      s.finishChain go false = ((t.epochEnded (if go then s.appliedResult else 4) false).issueAll.pumpAll).stepWave1 := by
  have hnone : s.epoch.rows.filter (fun r => r == 8) = [] :=
    List.filter_eq_nil_iff.mpr fun r hr => by
      rw [beq_iff_eq]
      rintro rfl
      exact hrows hr
  cases go with
  | false => exact ⟨s.committed, rfl, rfl, rfl⟩
  | true =>
    obtain ⟨fields, es, aw, hquota⟩ := s.committed.checkQuotas_eq true
    obtain ⟨t, happlied, hepoch, hend⟩ := (s.committed.checkQuotas true).finishApplied_eq false
    rw [hquota] at happlied hepoch
    refine ⟨t, happlied, hepoch, ?_⟩
    have hresult : (s.committed.checkQuotas true).appliedResult = s.appliedResult := by rw [hquota]; rfl
    unfold State.finishChain
    dsimp only
    rw [hnone, State.applyRows_nil, if_pos rfl, if_pos rfl, ← hresult, ← State.endEpoch_eq, ← hend]
    rfl

theorem exec_epochCommit_of_released {s : State} {go : Bool} {o : Bool × Bool} (hdec : s.epoch.decided = some go)
    (hrel : s.epoch.wave.released = some o) (hchain : s.chainEpoch = true) (happlied : s.epoch.applied = true)
    (hreset : s.inReset = false) : exec .epochCommit s = .next (s.finishChain go false) := by
  have hrun : exec .epochCommit s = execEpochCommit s := rfl
  rw [hrun, execEpochCommit, hdec, hrel]
  exact if_pos ⟨hchain, happlied, by rw [hreset]; rfl⟩

end Sys2Proof.Machine
end

section
/-! PROOFS. O44: the cases of an arrival, of a release and of a commit wave, put together. -/

open Sys2Proof Sys2Proof.Machine

namespace Sys2Proof.Proofs

theorem syncUp_holds_arrival0 {p j : Nat} {f : Frame} {s : State} (hnext : s.nextSync p 0 = some f)
    (hobj : (parseSync f.arg).object = 0) (hgen : (parseSync f.arg).gen = s.lnk.wave0.gen) (hrel : s.lnk.wave0.released = none)
    (hj : j ∈ s.childPorts) (hne : j ≠ p) (hmiss : Tbl.find s.lnk.wave0.inputs j = none) :
    ∃ t : State, exec (.syncUp p) s = .next t ∧ t.lnk.inbox = s.lnk.inbox.erase (p, f) ∧
      Tbl.find t.lnk.wave0.inputs p
        = some ((parseSync f.arg).value, (parseSync f.arg).step, (parseSync f.arg).mismatch) ∧
      (∀ q, q ≠ p → Tbl.find t.lnk.wave0.inputs q = Tbl.find s.lnk.wave0.inputs q) ∧
      t = { s with ports := t.ports, lnk := t.lnk } ∧
      t.lnk = { s.lnk with inbox := t.lnk.inbox, wave0 := t.lnk.wave0 } ∧
      t.lnk.wave0 = { s.lnk.wave0 with inputs := t.lnk.wave0.inputs } := by
  obtain ⟨ports, hheld⟩ := s.holdArrival0_eq p f
  have hfind (q : Nat) := s.lnk.wave0.find_arrived p q (parseSync f.arg)
  have hrun := exec_syncUp_of_object0 hnext hobj hgen hrel
  have hstays : (s.holdArrival0 p f).stepWave0 = s.holdArrival0 p f := by
    rw [hheld]
    exact State.stepWave0_of_missing (j := j) hj ((hfind j).trans ((if_neg hne).trans hmiss))
  rw [hstays, hheld] at hrun
  exact ⟨_, hrun, rfl, (hfind p).trans (if_pos rfl), fun q hq => (hfind q).trans (if_neg hq), rfl, rfl, rfl⟩

theorem syncUp_holds_arrival1 {p j : Nat} {f : Frame} {s : State} (hnext : s.nextSync p 0 = some f)
    (hobj : (parseSync f.arg).object = 1) (hgen : (parseSync f.arg).gen = s.epoch.wave.gen) (hrel : s.epoch.wave.released = none)
    (hj : j ∈ s.childPorts) (hne : j ≠ p) (hmiss : Tbl.find s.epoch.wave.inputs j = none) :
    ∃ t : State, exec (.syncUp p) s = .next t ∧ t.lnk = { s.lnk with inbox := s.lnk.inbox.erase (p, f) } ∧
      Tbl.find t.epoch.wave.inputs p
        = some ((parseSync f.arg).value, (parseSync f.arg).step, (parseSync f.arg).mismatch) ∧
      (∀ q, q ≠ p → Tbl.find t.epoch.wave.inputs q = Tbl.find s.epoch.wave.inputs q) ∧
      t = { s with ports := t.ports, lnk := t.lnk
                   epoch := { s.epoch with wave := { s.epoch.wave with inputs := t.epoch.wave.inputs } } } := by
  obtain ⟨ports, hheld⟩ := s.holdArrival1_eq p f
  have hfind (q : Nat) := s.epoch.wave.find_arrived p q (parseSync f.arg)
  have hrun := exec_syncUp_of_object1 hnext hobj hgen hrel
  have hstays : (s.holdArrival1 p f).stepWave1 = s.holdArrival1 p f := by
    rw [hheld]
    exact State.stepWave1_of_missing (j := j) hj ((hfind j).trans ((if_neg hne).trans hmiss))
  rw [hstays, hheld] at hrun
  exact ⟨_, hrun, rfl, (hfind p).trans (if_pos rfl), fun q hq => (hfind q).trans (if_neg hq), rfl⟩

theorem syncDown_releases_owner {p o : Nat} {f : Frame} {s : State} (hnext : s.nextSync p 1 = some f)
    (hobj : (parseSync f.arg).object = 0) (hgen : (parseSync f.arg).gen = s.lnk.wave0.gen) (hrel : s.lnk.wave0.released = none)
    (howner : s.waveOwner = some o) :
    ∃ t : State, exec (.syncDown p) s = .next t ∧
      t.lnk.wave0 = { s.lnk.wave0 with released := some ((parseSync f.arg).value, (parseSync f.arg).mismatch) } ∧
      t.steps = s.steps ∧ t.rings = s.rings ∧ t.epoch = s.epoch := by
  have hrun := exec_syncDown_of_object0 hnext hobj hgen hrel
  obtain ⟨ports, htake⟩ := s.inboxTake_eq p f
  have howner' : (s.inboxTake p f).waveOwner = some o := by rw [htake]; exact howner
  obtain ⟨ports', ctr, frames, hreleased⟩ :=
    State.releaseWave0_of_owner (parseSync f.arg).value (parseSync f.arg).mismatch howner'
  have hstays : ((s.inboxTake p f).releaseWave0 (parseSync f.arg).value (parseSync f.arg).mismatch).waveOwner = some o := by
    rw [hreleased]
    exact howner'
  rw [hstays, if_neg (by simp)] at hrun
  refine ⟨_, hrun, ?_⟩
  rw [hreleased, htake]
  exact ⟨rfl, rfl, rfl, rfl⟩

theorem syncDown_decides_epoch {p : Nat} {f : Frame} {s : State} (hnext : s.nextSync p 1 = some f)
    (hobj : (parseSync f.arg).object = 1) (hgen : (parseSync f.arg).gen = s.epoch.wave.gen) (hrel : s.epoch.wave.released = none)
    (hchain : s.chainEpoch = true) (hopen : s.epoch.decided = none) :
    ∃ u : State, exec (.syncDown p) s = .next u.stepWave1 ∧
      u.epoch.decided = some (!(parseSync f.arg).value && !(parseSync f.arg).mismatch) ∧ u.glb.epState = 3 ∧
      u.epoch.wave.gen = !s.epoch.wave.gen ∧ u.applied = s.applied := by
  refine ⟨_, exec_syncDown_of_object1 hnext hobj hgen hrel, ?_⟩
  obtain ⟨ports, htake⟩ := s.inboxTake_eq p f
  have hchain' : (s.inboxTake p f).chainEpoch = true := by rw [htake]; exact hchain
  have hopen' : (s.inboxTake p f).epoch.decided = none := by rw [htake]; exact hopen
  obtain ⟨ports', ctr, frames, own, hreleased⟩ :=
    State.releaseWave1_of_undecided (parseSync f.arg).value (parseSync f.arg).mismatch hchain' hopen'
  rw [hreleased, htake]
  exact ⟨rfl, rfl, rfl, rfl⟩

theorem rootWaveTimeout_discards_epoch {s : State} (hroot : s.applied.syncRoot = true)
    (hbegun : s.epoch.wave.own.isSome = true ∨ s.epoch.wave.inputs ≠ []) (hrel : s.epoch.wave.released = none)
    (hchain : s.chainEpoch = true) (hopen : s.epoch.decided = none) :
    ∃ u : State, exec (.rootWaveTimeout 1) s = .next u.stepWave1 ∧ u.epoch.decided = some false ∧ u.glb.epState = 3 ∧
      u.epoch.wave.gen = !s.epoch.wave.gen ∧ u.applied = s.applied := by
  refine ⟨_, exec_rootWaveTimeout_of_begun hroot hbegun hrel, ?_⟩
  obtain ⟨ports, ctr, frames, own, hreleased⟩ :=
    State.releaseWave1_of_undecided true (s.epoch.wave.combine s.epoch.wave.own).2.1 hchain hopen
  rw [hreleased]
  exact ⟨rfl, rfl, rfl, rfl⟩

theorem epochCommit_ends_epoch {go : Bool} {o : Bool × Bool} {s : State} (hdec : s.epoch.decided = some go)
    (hrel : s.epoch.wave.released = some o) (hchain : s.chainEpoch = true) (happlied : s.epoch.applied = true)
    (hreset : s.inReset = false) (hrows : 8 ∉ s.epoch.rows) :
    ∃ u : State, exec .epochCommit s = .next u.issueAll.pumpAll.stepWave1 ∧ u.applied = s.applied ∧ u.epoch.active = false ∧
      u.glb.epState = 0 ∧ u.glb.lastNumber = s.epoch.number ∧ u.epoch.wave.gen = !s.epoch.wave.gen ∧
      u.glb.epResult = (if go then (if s.epoch.rej = 0 then 1 else 2) else 4) := by
  obtain ⟨t, ht, hepoch, hend⟩ := State.finishChain_of_no_row8 go hrows
  obtain ⟨hrowsKept, hover, hstate, hnumber, hresult⟩ := t.epochEnded_status (if go then s.appliedResult else 4) false
  have hcode : BitVec.ofNat 3 (if go then s.appliedResult else 4) = (if go then (if s.epoch.rej = 0 then 1 else 2) else 4) := by
    cases go with
    | false => rfl
    | true => exact apply_ite (BitVec.ofNat 3) (s.epoch.rej = 0) 1 2
  refine ⟨_, (exec_epochCommit_of_released hdec hrel hchain happlied hreset).trans (congrArg _ hend), hrowsKept.trans ht, ?_, hstate,
    ?_, ?_, hresult.trans hcode⟩
  · rw [hover]
    rfl
  · rw [hnumber, hepoch]
    rfl
  · rw [hover, hepoch]
    rfl

/-- Settles O44: each clause is one case of an arrival, of a release from the parent or by the root, or of the commit wave. -/
theorem syncTreeGathersAndReleases : Obligations.SyncTreeGathersAndReleases := by
  unfold Obligations.SyncTreeGathersAndReleases
  refine ⟨?arrival0, ?arrival1, ?owner, ?decides, ?timeout, ?commit⟩
  case arrival0 =>
    exact fun p j f s hnext hobj hgen hrel hj hne hmiss => syncUp_holds_arrival0 hnext hobj hgen hrel hj hne hmiss
  case arrival1 =>
    exact fun p j f s hnext hobj hgen hrel hj hne hmiss => syncUp_holds_arrival1 hnext hobj hgen hrel hj hne hmiss
  case owner => exact fun p o f s hnext hobj hgen hrel howner => syncDown_releases_owner hnext hobj hgen hrel howner
  case decides =>
    exact fun p f s hnext hobj hgen hrel hchain hopen => syncDown_decides_epoch hnext hobj hgen hrel hchain hopen
  case timeout => exact fun s hroot hbegun hrel hchain hopen => rootWaveTimeout_discards_epoch hroot hbegun hrel hchain hopen
  case commit =>
    exact fun go o s hdec hrel hchain happlied hreset hrows => epochCommit_ends_epoch hdec hrel hchain happlied hreset hrows

end Sys2Proof.Proofs
end

section
/-! PROOFS. The step of an owner: what is read back of it, how its wave ends in LOCAL scope, and what a decision leaves alone
(O24; 10 R328 to R334). -/

namespace Sys2Proof.Machine

/-! ### Steps read back -/

/-- A step with an outcome of its own is none that the table leaves out. -/
theorem StepSt.ne_stepNone {x : StepSt} (h : x.outcome ≠ 255) : x ≠ stepNone := fun hx => h (by rw [hx]; rfl)

theorem State.stepOf_setStep {o : Nat} {x : StepSt} (s : State) (h : x.outcome ≠ 255) : (s.setStep o x).stepOf o = some x := by
  rw [State.stepOf, State.setStep, Tbl.find_put, if_pos rfl, if_neg (StepSt.ne_stepNone h)]

theorem State.stepOf_setStep_ne {o q : Nat} (s : State) (x : StepSt) (h : q ≠ o) : (s.setStep o x).stepOf q = s.stepOf q :=
  (Tbl.find_put ..).trans (if_neg h)

/-! ### Arrivals (R330) -/

/-- The step once its owner has arrived in LOCAL scope, where the wave is released at once. -/
def StepSt.arrived (x : StepSt) (kind : Nat) (v : Bool) (q : Nat × Nat) : StepSt :=
  { x with waveKind := kind, owing := some q, wave := { x.wave with own := some (v, x.step.toNat), released := some (v, false) } }

theorem State.arriveStep_of_local {s : State} {o : Nat} {x : StepSt} (kind : Nat) (v : Bool) (r index : Nat) (hx : s.stepOf o = some x)
    (hlocal : x.chain = false) (hown : x.wave.own = none) :
    s.arriveStep o kind v r index = (s.dataBegun r index).setStep o (x.arrived kind v (r, index)) := by
  simp [State.arriveStep, hx, State.waveOf, hlocal, hown, StepSt.arrived]

/-- The step that a DECIDE without a norm check takes into its wave: the non-finite flag is in the arrival (R329). -/
def StepSt.nfTaken (x : StepSt) : StepSt := { x with nf := false, nfHeld := false, norm := 0, normSkip := false }

theorem State.decideArrive_of_no_norm {s : State} {r o : Nat} {c : ClauseSt} {x : StepSt}
    (howner : s.ownerOf (s.ring r).field = some o) (hx : s.stepOf o = some x) (hlocal : x.chain = false) (hown : x.wave.own = none) :
    s.decideArrive r c none = (s.setStep o x.nfTaken).arriveStep o 1 (x.nfHeld || x.nf) r c.index := by
  simp [State.decideArrive, howner, hx, State.waveOf, hlocal, hown, StepSt.nfTaken]

theorem State.stepReady_of {s : State} {r o : Nat} {x : StepSt} {allowed : StepPhase → Bool}
    (howner : s.ownerOf (s.ring r).field = some o) (hx : s.stepOf o = some x) (hphase : allowed x.phase = true) :
    s.stepReady r allowed = some (o, x) := by
  simp [State.stepReady, howner, hx, hphase]

/-! ### A wave's release in LOCAL scope (R330 to R334) -/

/-- The step once its own wave is over: the next wave has the other generation. -/
def StepSt.waveEnded (x : StepSt) : StepSt := { x with waveKind := 0, wave := { Wave.idle with gen := !x.wave.gen } }

theorem State.endWave_of_local {s : State} {o : Nat} {x : StepSt} (hx : s.stepOf o = some x) (hlocal : x.chain = false) :
    s.endWave o = s.setStep o x.waveEnded := by
  simp [State.endWave, hx, hlocal, StepSt.waveEnded]

/-- A released wave of a LOCAL owner, for which a clause waits. -/
structure LocalRelease (s : State) (o : Nat) (x : StepSt) (v mm : Bool) (r i : Nat) : Prop where
  step     : s.stepOf o = some x
  scope    : x.chain = false
  released : x.wave.released = some (v, mm)
  owing    : x.owing = some (r, i)
  outcome  : x.outcome ≠ 255

theorem exec_waveRelease_of_local {s : State} {o r i : Nat} {x : StepSt} {v mm : Bool} (h : LocalRelease s o x v mm r i) :
    exec (.waveRelease o) s = .next (if x.waveKind = 1 then (s.setStep o x.waveEnded).decideOutcome o x.waveEnded v mm
      else (s.setStep o x.waveEnded).releaseOutcome o x.waveEnded (v || mm) mm) := by
  obtain ⟨hx, hlocal, hrel, howing, hout⟩ := h
  have hended : x.waveEnded.chain = false := hlocal
  have hstep : (s.setStep o x.waveEnded).stepOf o = some x.waveEnded := State.stepOf_setStep s hout
  simp [exec, execWaveRelease, hx, State.waveOf, hlocal, hrel, howing, State.endWave_of_local hx hlocal, hstep, hended]

/-! ### Banks that flip (R319, R323) -/

theorem State.host_perturbWrite (s : State) (a n : Nat) : (s.perturbWrite a n).host = s.host := by
  unfold State.perturbWrite
  split
  · rfl
  · refine List.foldlRecOn (motive := fun t : State => t.host = s.host) _ _ rfl fun t ht e _ => ?_
    dsimp only
    split <;> exact ht

theorem State.host_updateLines (s : State) (a : Nat) (bs : List Byte) (poison : Bool) : (s.updateLines a bs poison).host = s.host := by
  unfold State.updateLines
  split
  · rfl
  · refine List.foldlRecOn (motive := fun t : State => t.host = s.host) _ _ rfl fun t ht p _ => ?_
    split
    · rw [State.playaWrite_frame]
      exact ht
    · exact ht

theorem State.host_closeEntries (s : State) (a n : Nat) : (s.closeEntries a n).host = s.host := by
  unfold State.closeEntries
  dsimp only
  split <;> rfl

/-- A write to a DPA reaches device memory alone. -/
theorem State.host_dpaWrite (s : State) (a : Nat) (bs : List Byte) (poison : Bool) : (s.dpaWrite a bs poison).host = s.host := by
  unfold State.dpaWrite
  split
  · rfl
  · rw [State.host_closeEntries, State.host_updateLines, State.bankWrite, State.host_perturbWrite]

/-- Device memory and cached noun entries alone have changed, and no slice where no cache holds a line. -/
structure State.BanksFlipped (s t : State) : Prop where
  frame : t = { s with dram := t.dram, playa := t.playa, vaults := t.vaults, dbg := t.dbg, cmd := { s.cmd with nouns := t.cmd.nouns } }
  playa : s.caches = [] → t.playa = s.playa

theorem State.BanksFlipped.refl (s : State) : s.BanksFlipped s := ⟨rfl, fun _ => rfl⟩

theorem State.BanksFlipped.trans {s t u : State} (h : s.BanksFlipped t) (g : t.BanksFlipped u) : s.BanksFlipped u where
  frame := g.frame.trans (by rw [h.frame])
  playa hc := (g.playa (by rw [h.frame]; exact hc)).trans (h.playa hc)

theorem State.banksFlipped_dpaWrite (s : State) (a : Nat) (bs : List Byte) (poison : Bool) :
    s.BanksFlipped (s.dpaWrite a bs poison) := by
  obtain ⟨hframe, hplaya⟩ := s.storeOnly_dpaWrite a bs poison
  have hhost := s.host_dpaWrite a bs poison
  generalize s.dpaWrite a bs poison = t at hframe hplaya hhost ⊢
  rw [hhost] at hframe
  refine ⟨hframe.trans ?_, hplaya⟩
  rw [hframe]

theorem State.banksFlipped_flipSet (s : State) (i : Nat) : s.BanksFlipped (s.flipSet i) := by
  unfold State.flipSet
  extract_lets p wn w b0 s1 s2
  have h2 : s.BanksFlipped s2 := (s.banksFlipped_dpaWrite ..).trans (State.banksFlipped_dpaWrite ..)
  have hforget (t : State) : t.BanksFlipped (t.forgetNoun p.wnoun) := ⟨rfl, fun _ => rfl⟩
  refine .trans ?_ (hforget _)
  split
  · exact h2.trans (State.banksFlipped_dpaWrite ..)
  · exact h2

/-- The fast ones of the sets applied in a step flip. -/
def State.flipApplied (s : State) (l : List Nat) : State :=
  l.foldl (fun t i => if (parsePset (t.psetBytes i)).slow then t else t.flipSet i) s

theorem State.banksFlipped_flipApplied (s : State) (l : List Nat) : s.BanksFlipped (s.flipApplied l) :=
  List.foldlRecOn _ _ (.refl s) fun t ht i _ => by
    split
    · exact ht
    · exact ht.trans (t.banksFlipped_flipSet i)

/-! ### The advance of a step without slow sets (R334, R340) -/

theorem State.slowSets_of_no_slow {s : State} (h : s.slow = []) (o : Nat) : s.slowSets o = [] := by
  rw [State.slowSets, h]
  rfl

theorem State.slowDue_of_no_slow {s : State} (h : s.slow = []) (o n : Nat) : s.slowDue o n = false := by
  rw [State.slowDue, State.slowSets_of_no_slow h]
  rfl

theorem State.publishDue_of_no_slow {s : State} (h : s.slow = []) (o n : Nat) : s.publishDue o n = s := by
  rw [State.publishDue, State.slowSets_of_no_slow h]
  rfl

theorem State.settleStaged_of_no_slow {s : State} (h : s.slow = []) (o n : Nat) (commit : Bool) : s.settleStaged o n commit = s := by
  rw [State.settleStaged, State.slowSets_of_no_slow h]
  rfl

/-- The next step, opened. -/
def StepSt.advanced (x : StepSt) : StepSt :=
  { x with step := x.step + 1, phase := .open, applied := [], forced := false, outcome := 0, owing := none, stallFrom := none }

theorem State.tryAdvance_of_commit {s : State} {o r i : Nat} {x : StepSt} (howing : x.owing = some (r, i))
    (hstall : x.stallFrom = none) (hslow : s.slow = []) :
    (s.setStep o { x with outcome := 1 }).tryAdvance o
      = (((s.setStep o { x with outcome := 1 }).flipApplied x.applied).setStep o x.advanced).workDone r i (fun c => c) := by
  have hx : (s.setStep o { x with outcome := 1 }).stepOf o = some { x with outcome := 1 } :=
    s.stepOf_setStep (show (1 : Nat) ≠ 255 by decide)
  have hslow1 : (s.setStep o { x with outcome := 1 }).slow = [] := hslow
  generalize s.setStep o { x with outcome := 1 } = u at hx hslow1
  have hflip : (u.flipApplied x.applied).slow = [] := by rw [(u.banksFlipped_flipApplied x.applied).frame]; exact hslow1
  have hpublish := State.publishDue_of_no_slow hflip o x.step.toNat
  unfold State.flipApplied at hpublish
  simp [State.tryAdvance, hx, howing, hstall, State.slowDue_of_no_slow hslow1, hpublish, State.flipApplied, StepSt.advanced]

theorem State.tryAdvance_of_skip {s : State} {o r i : Nat} {x : StepSt} (howing : x.owing = some (r, i))
    (hstall : x.stallFrom = none) (hslow : s.slow = []) :
    (s.setStep o { x with outcome := 2 }).tryAdvance o
      = (((s.setStep o { x with outcome := 2 }).setStep o x.advanced).ctrAdd updSkips 1).workDone r i (fun c => c) := by
  have hx : (s.setStep o { x with outcome := 2 }).stepOf o = some { x with outcome := 2 } :=
    s.stepOf_setStep (show (2 : Nat) ≠ 255 by decide)
  have hslow1 : (s.setStep o { x with outcome := 2 }).slow = [] := hslow
  generalize s.setStep o { x with outcome := 2 } = u at hx hslow1
  simp [State.tryAdvance, hx, howing, hstall, State.slowDue_of_no_slow hslow1, State.publishDue_of_no_slow hslow1, StepSt.advanced]

/-! ### What the outcomes leave alone -/

theorem State.mismatchEvent_eventsOnly (s : State) (o : Nat) (x : StepSt) (mm : Bool) : s.EventsOnly (s.mismatchEvent o x mm) := by
  cases mm
  · exact .refl s
  · exact s.raise_eventsOnly _

theorem State.settleStaged_eq (s : State) (o n : Nat) (commit : Bool) : ∃ slow, s.settleStaged o n commit = { s with slow := slow } := by
  unfold State.settleStaged
  refine List.foldlRecOn (motive := fun t : State => ∃ slow, t = { s with slow := slow }) _ _ ⟨_, rfl⟩ fun t ht i _ => ?_
  obtain ⟨slow, rfl⟩ := ht
  dsimp only
  split
  · exact ⟨_, rfl⟩
  · exact ⟨_, rfl⟩

end Sys2Proof.Machine
end

section
/-! PROOFS. O24: DECIDE and RELEASE arrive in their waves, and each outcome of a wave is carried out (10 R328 to R334). -/

open Sys2Proof Sys2Proof.Machine

namespace Sys2Proof.Proofs

/-! ### Clauses of an update -/

/-- Where no clause of the index has a verdict and the work leaves none, only the ring changes. -/
theorem workDone_of_verdicts_none {s : State} {r index : Nat} {f : ClauseSt → ClauseSt}
    (hnone : ((s.ring r).clauseOf index).all (fun c => c.verdict.isNone) = true) (hindex : ∀ x, (f x).index = x.index)
    (hf : ∀ x, (f x).verdict = x.verdict) : s.workDone r index f = { s with rings := (s.workDone r index f).rings } := by
  cases hc : (s.ring r).clauseOf index with
  | some c =>
    have hverdict : c.verdict = none := by simpa [hc] using hnone
    exact workDone_of_no_verdict hc hindex hverdict ((hf c).trans hverdict)
  | none =>
    unfold State.workDone
    generalize hg : (fun c : ClauseSt => ({ f c with worked := true, begun := true, verdict := _ } : ClauseSt)) = g
    have habsent : ((s.modRing r (fun R => R.modClause index g)).ring r).clauseOf index = none := by
      rw [State.ring_modRing_self, RingSt.modClause, clauseOf_map _ _ _ fun c => ?_, hc]
      · rfl
      · split
        · rw [← hg]
          exact hindex c
        · rfl
    unfold State.settleClause
    rw [habsent]
    rfl

theorem startedClause_of_startedUpdate {s : State} {r k fn : Nat} {c : ClauseSt} (h : s.startedUpdate r k fn = some c) :
    s.startedClause r k verbUpdate = some c ∧ upFunction c.bits = fn := by
  unfold State.startedUpdate at h
  split at h
  · next d hd =>
    obtain ⟨hfn, rfl⟩ : upFunction d.bits = fn ∧ d = c := by simpa using h
    exact ⟨hd, hfn⟩
  · exact absurd h (by simp)

/-! ### Arrivals -/

theorem decide_arrives {r k o : Nat} {h : HostView} {c : ClauseSt} {x : StepSt} {s : State} (hc : s.startedUpdate r k 0 = some c)
    (howner : s.ownerOf (s.ring r).field = some o) (hidle : s.stepBusy o = false) (hx : s.stepOf o = some x)
    (hopen : x.phase = .open) (hnorm : decNormCheck c.bits = false) (hlocal : x.chain = false) (hown : x.wave.own = none)
    (hout : x.outcome ≠ 255) :
    exec (.decide r k h) s = .next ((((s.seeHost h).setStep o x.nfTaken).dataBegun r c.index).setStep o
      (x.nfTaken.arrived 1 (x.nfHeld || x.nf) (r, c.index))) := by
  have hready : (s.seeHost h).stepReady r (fun p => p == .open) = some (o, x) := State.stepReady_of howner hx (by rw [hopen]; rfl)
  have harrive : (s.seeHost h).decideArrive r c none
      = ((s.seeHost h).setStep o x.nfTaken).arriveStep o 1 (x.nfHeld || x.nf) r c.index :=
    State.decideArrive_of_no_norm howner hx hlocal hown
  have htaken : ((s.seeHost h).setStep o x.nfTaken).stepOf o = some x.nfTaken := State.stepOf_setStep _ hout
  rw [State.arriveStep_of_local 1 _ r c.index htaken hlocal hown] at harrive
  simp [exec, execDecide, hc, howner, hidle, State.decideClause, hready, hnorm, harrive]

theorem release_arrives {r k o : Nat} {c : ClauseSt} {x : StepSt} {s : State} (hc : s.startedUpdate r k 2 = some c)
    (howner : s.ownerOf (s.ring r).field = some o) (hidle : s.stepBusy o = false) (hdone : s.applyPending o c.order = false)
    (hx : s.stepOf o = some x) (hphase : x.phase ≠ .open) (hlocal : x.chain = false) (hown : x.wave.own = none) :
    exec (.release r k) s
      = .next ((s.dataBegun r c.index).setStep o (x.arrived 2 (reReject c.bits || x.forced) (r, c.index))) := by
  have hready : s.stepReady r (fun p => p != .open) = some (o, x) := State.stepReady_of howner hx (by simpa using hphase)
  simp [exec, execRelease, hc, howner, hidle, hdone, hready, State.arriveStep_of_local 2 _ r c.index hx hlocal hown]

/-! ### Outcomes -/

/-- The outcome of a decide wave: SKIP where it came with a skip or a MISMATCH, else PASS (R331). -/
theorem decideOutcome_decides {s : State} {o r i : Nat} {x : StepSt} {v mm : Bool} (howing : x.owing = some (r, i))
    (hout : x.outcome ≠ 255) (hnone : ((s.ring r).clauseOf i).all (fun c => c.verdict.isNone) = true) :
    ∃ t : State, s.decideOutcome o x v mm = t ∧
      t = { s with steps := t.steps, rings := t.rings, boot := { s.boot with events := t.boot.events }
                   mgt := { s.mgt with awaiting := t.mgt.awaiting } } ∧
      t.stepOf o = some { x with phase := if v || mm then .skip else .pass, owing := none } := by
  unfold State.decideOutcome
  extract_lets skip detail s1 s2
  have htold : s1.EventsOnly s2 := by
    unfold s2
    split
    · exact s1.raise_eventsOnly _
    · exact .refl s1
  clear_value s2
  obtain ⟨events, awaiting, rfl⟩ := htold
  simp only [howing]
  refine ⟨_, rfl, ?_⟩
  rw [workDone_of_verdicts_none (f := fun c => { c with detail := detail }) ?_ (fun _ => rfl) (fun _ => rfl)]
  · exact ⟨rfl, s.stepOf_setStep hout⟩
  · exact hnone

/-- A release wave in phase PASS that brings neither a REJECT nor a MISMATCH commits the step (R334). -/
theorem releaseOutcome_commits {s : State} {o r i : Nat} {x : StepSt} (howing : x.owing = some (r, i)) (hpass : x.phase = .pass)
    (hslow : s.slow = []) (hstall : x.stallFrom = none)
    (hnone : ((s.ring r).clauseOf i).all (fun c => c.verdict.isNone) = true) :
    ∃ t : State, s.releaseOutcome o x false false = t ∧
      t = { s with steps := t.steps, rings := t.rings, dram := t.dram, playa := t.playa, vaults := t.vaults, dbg := t.dbg
                   cmd := { s.cmd with nouns := t.cmd.nouns } } ∧ (s.caches = [] → t.playa = s.playa) ∧
      t.stepOf o = some x.advanced := by
  have hadvance : s.releaseOutcome o x false false = (s.setStep o { x with outcome := 1 }).tryAdvance o := by
    simp [State.releaseOutcome, State.mismatchEvent, hpass, State.settleStaged_of_no_slow hslow]
  have hflip := (s.setStep o { x with outcome := 1 }).banksFlipped_flipApplied x.applied
  refine ⟨_, hadvance.trans (State.tryAdvance_of_commit howing hstall hslow), ?_⟩
  generalize State.flipApplied _ x.applied = u at hflip
  obtain ⟨hframe, hplaya⟩ := hflip
  have hring : (u.setStep o x.advanced).ring r = s.ring r := by rw [hframe]; rfl
  rw [workDone_of_verdicts_none (s := u.setStep o x.advanced) (f := fun c => c) (by rw [hring]; exact hnone) (fun _ => rfl)
    (fun _ => rfl)]
  refine ⟨?_, hplaya, u.stepOf_setStep (show (0 : Nat) ≠ 255 by decide)⟩
  rw [hframe]
  rfl

/-- A release wave in phase PASS with a REJECT or a MISMATCH discards the step, and counts it (R305, R334). -/
theorem releaseOutcome_discards {s : State} {o r i : Nat} {x : StepSt} {mm : Bool} (howing : x.owing = some (r, i))
    (hpass : x.phase = .pass) (hout : x.outcome ≠ 255)
    (hnone : ((s.ring r).clauseOf i).all (fun c => c.verdict.isNone) = true) :
    ∃ t : State, s.releaseOutcome o x true mm = t ∧
      t = { s with steps := t.steps, rings := t.rings, slow := t.slow, ctr := t.ctr
                   boot := { s.boot with events := t.boot.events }, mgt := { s.mgt with awaiting := t.mgt.awaiting } } ∧
      (mm = false → t.boot.events = s.boot.events) ∧
      t.ctrGet updDiscards = s.ctrGet updDiscards + 1 ∧ countersSameBut s t updDiscards ∧
      t.stepOf o = some { x with phase := .open, applied := [], forced := false, owing := none } := by
  have hdiscard : s.releaseOutcome o x true mm
      = (((((s.mismatchEvent o x mm).settleStaged o x.step.toNat false).ctrAdd updDiscards 1).setStep o
          { x with phase := .open, applied := [], forced := false, owing := none }).workDone r i (fun c => c)) := by
    simp [State.releaseOutcome, hpass, howing]
  have hquiet : mm = false → (s.mismatchEvent o x mm).boot.events = s.boot.events := by rintro rfl; rfl
  refine ⟨_, hdiscard, ?_⟩
  obtain ⟨events, awaiting, htold⟩ := s.mismatchEvent_eventsOnly o x mm
  rw [htold] at hquiet ⊢
  obtain ⟨slow, hsettled⟩ := State.settleStaged_eq _ o x.step.toNat false
  rw [hsettled, workDone_of_verdicts_none (f := fun c => c) ?_ (fun _ => rfl) (fun _ => rfl)]
  · exact ⟨rfl, hquiet, ctrGet_ctrAdd_one s updDiscards, countersSameBut_ctrAdd s updDiscards 1, State.stepOf_setStep _ hout⟩
  · exact hnone

/-- A skipped step without slow sets advances, and is counted (R334). -/
theorem tryAdvance_skips {s : State} {o r i : Nat} {x : StepSt} (howing : x.owing = some (r, i)) (hslow : s.slow = [])
    (hstall : x.stallFrom = none) (hnone : ((s.ring r).clauseOf i).all (fun c => c.verdict.isNone) = true) :
    ∃ t : State, (s.setStep o { x with outcome := 2 }).tryAdvance o = t ∧
      t = { s with steps := t.steps, rings := t.rings, ctr := t.ctr } ∧
      t.ctrGet updSkips = s.ctrGet updSkips + 1 ∧ countersSameBut s t updSkips ∧ t.stepOf o = some x.advanced := by
  refine ⟨_, State.tryAdvance_of_skip howing hstall hslow, ?_⟩
  obtain ⟨steps, hskipped⟩ : ∃ steps, s.setStep o { x with outcome := 2 } = { s with steps := steps } := ⟨_, rfl⟩
  rw [hskipped, workDone_of_verdicts_none (f := fun c => c) ?_ (fun _ => rfl) (fun _ => rfl)]
  · exact ⟨rfl, ctrGet_ctrAdd_one s updSkips, countersSameBut_ctrAdd s updSkips 1,
      State.stepOf_setStep _ (show (0 : Nat) ≠ 255 by decide)⟩
  · exact hnone

/-- A release wave in phase SKIP advances the step, and counts it as skipped (R334). -/
theorem releaseOutcome_skips {s : State} {o r i : Nat} {x : StepSt} {bad mm : Bool} (howing : x.owing = some (r, i))
    (hskip : x.phase = .skip) (hslow : s.slow = []) (hstall : x.stallFrom = none)
    (hnone : ((s.ring r).clauseOf i).all (fun c => c.verdict.isNone) = true) :
    ∃ t : State, s.releaseOutcome o x bad mm = t ∧
      t = { s with steps := t.steps, rings := t.rings, ctr := t.ctr
                   boot := { s.boot with events := t.boot.events }, mgt := { s.mgt with awaiting := t.mgt.awaiting } } ∧
      (mm = false → t.boot.events = s.boot.events) ∧
      t.ctrGet updSkips = s.ctrGet updSkips + 1 ∧ countersSameBut s t updSkips ∧ t.stepOf o = some x.advanced := by
  have hadvance : s.releaseOutcome o x bad mm = ((s.mismatchEvent o x mm).setStep o { x with outcome := 2 }).tryAdvance o := by
    simp [State.releaseOutcome, hskip]
  have hquiet : mm = false → (s.mismatchEvent o x mm).boot.events = s.boot.events := by rintro rfl; rfl
  have htold := s.mismatchEvent_eventsOnly o x mm
  generalize s.mismatchEvent o x mm = e at hadvance hquiet htold
  obtain ⟨events, awaiting, he⟩ := htold
  obtain ⟨t, ht, hframe, hcount, hothers, hstep⟩ := tryAdvance_skips (s := e) (o := o) howing (by rw [he]; exact hslow) hstall
    (by rw [he]; exact hnone)
  subst he
  refine ⟨t, hadvance.trans ht, ?_, fun hmm => ?_, hcount, hothers, hstep⟩
  · rw [hframe]
  · rw [hframe]
    exact hquiet hmm

/-! ### The wave of a started clause that is not released in time (R332) -/

theorem waveTimeout_fails {r k o : Nat} {c : ClauseSt} {x : StepSt} {s : State} (hc : (s.ring r).clauseAt k = some c)
    (howner : s.ownerOf (s.ring r).field = some o) (hx : s.stepOf o = some x) (howing : x.owing = some (r, c.index))
    (hout : x.outcome = 0) (hrel : (s.waveOf x).released = none) (hruns : s.halted = false) :
    exec (.waveTimeout r k) s
      = .next ((s.setStep o { x with owing := none }).failClause r c.index { status := 0x501, operand := 7, detail := 3 }) := by
  simp [exec, execWaveTimeout, hc, howner, hx, howing, hout, hrel, hruns, failNone, stReduceTimeout]

/-- Settles O24: an arrival in LOCAL scope is one `arriveStep_of_local`; a release ends the wave and is one outcome. -/
theorem stepsDecideAndRelease : Obligations.StepsDecideAndRelease := by
  unfold Obligations.StepsDecideAndRelease
  refine ⟨?decide, ?release, ?decided, ?committed, ?discarded, ?skipped, ?timeout⟩
  case decide =>
    intro r k o h c x s hc howner hidle hx hopen hnorm hlocal hown hout
    exact ⟨_, decide_arrives hc howner hidle hx hopen hnorm hlocal hown hout, rfl, State.stepOf_setStep _ hout,
      fun q hq => (State.stepOf_setStep_ne _ _ hq).trans (State.stepOf_setStep_ne (s.seeHost h) _ hq)⟩
  case release =>
    intro r k o c x s hc howner hidle hdone hx hphase hlocal hown hout
    exact ⟨_, release_arrives hc howner hidle hdone hx hphase hlocal hown, rfl, State.stepOf_setStep _ hout,
      fun q hq => State.stepOf_setStep_ne _ _ hq⟩
  case decided =>
    intro o r i v mm x s hx hlocal hrel howing hkind hout hnone
    have hexec := exec_waveRelease_of_local ⟨hx, hlocal, hrel, howing, hout⟩
    obtain ⟨t, ht, hframe, hstep⟩ := decideOutcome_decides (s := s.setStep o x.waveEnded) (o := o) (x := x.waveEnded) (v := v)
      (mm := mm) howing hout hnone
    rw [if_pos hkind, ht] at hexec
    exact ⟨t, hexec, hframe, hstep⟩
  case committed =>
    intro o r i x s hx hlocal hrel howing hkind hpass hslow hstall hout hnone
    have hexec := exec_waveRelease_of_local ⟨hx, hlocal, hrel, howing, hout⟩
    obtain ⟨t, ht, hframe, hplaya, hstep⟩ := releaseOutcome_commits (s := s.setStep o x.waveEnded) (o := o) (x := x.waveEnded)
      howing hpass hslow hstall hnone
    rw [if_neg (by rw [hkind]; decide)] at hexec
    refine ⟨t, hexec.trans (congrArg _ ht), hframe, hplaya, hstep.trans ?_⟩
    rw [StepSt.advanced, StepSt.waveEnded, ← hstall]
  case discarded =>
    intro o r i v mm x s hx hlocal hrel hbad howing hkind hpass hout hnone
    have hexec := exec_waveRelease_of_local ⟨hx, hlocal, hrel, howing, hout⟩
    obtain ⟨t, ht, hframe, hevents, hcount, hothers, hstep⟩ := releaseOutcome_discards (s := s.setStep o x.waveEnded) (o := o)
      (x := x.waveEnded) (mm := mm) howing hpass hout hnone
    rw [if_neg (by rw [hkind]; decide), hbad, ht] at hexec
    exact ⟨t, hexec, hframe, hevents, hcount, hothers, hstep⟩
  case skipped =>
    intro o r i v mm x s hx hlocal hrel howing hkind hskip hslow hstall hout hnone
    have hexec := exec_waveRelease_of_local ⟨hx, hlocal, hrel, howing, hout⟩
    obtain ⟨t, ht, hframe, hevents, hcount, hothers, hstep⟩ := releaseOutcome_skips (s := s.setStep o x.waveEnded) (o := o)
      (x := x.waveEnded) (bad := v || mm) (mm := mm) howing hskip hslow hstall hnone
    rw [if_neg (by rw [hkind]; decide), ht] at hexec
    refine ⟨t, hexec, hframe, hevents, hcount, hothers, hstep.trans ?_⟩
    rw [StepSt.advanced, StepSt.waveEnded, ← hstall]
  case timeout =>
    intro r k o c x s hc howner hx howing hout hrel hruns
    exact ⟨_, waveTimeout_fails hc howner hx howing hout hrel hruns, (State.ClauseKept.refl s).setStep.failClause.frame, rfl⟩

end Sys2Proof.Proofs
end

section
/-! PROOFS. The sets that a step has applied, and the links, under the end of an update clause (O25). A clause that runs no
collective tells nobody when it fails, so that nothing of its failure or its completion reaches the links; of a step its
failure may raise the non-finite flag alone (10 R326; 02 R78). Each lemma follows the body of its function. -/

namespace Sys2Proof.Machine

/-- The links hold `lnk`, and the step of owner o has the sets `l` applied. -/
structure State.AppliedIs (lnk : Lnk) (o : Nat) (l : List Nat) (s : State) : Prop where
  lnk  : s.lnk = lnk
  step : ∃ x, s.stepOf o = some x ∧ x.applied = l ∧ x.outcome ≠ 255

variable {lnk : Lnk} {o : Nat} {l : List Nat} {s : State}

theorem State.AppliedIs.ite {t : State} {c : Prop} {_ : Decidable c} (hs : s.AppliedIs lnk o l) (ht : t.AppliedIs lnk o l) :
    (if c then s else t).AppliedIs lnk o l := by
  split <;> assumption

theorem State.AppliedIs.foldl {α : Type} {f : State → α → State} {as : List α} (h : s.AppliedIs lnk o l)
    (hf : ∀ t a, t.AppliedIs lnk o l → (f t a).AppliedIs lnk o l) : (as.foldl f s).AppliedIs lnk o l :=
  List.foldlRecOn as f h fun t ht a _ => hf t a ht

/-- A record update that keeps the links and the steps. -/
theorem State.AppliedIs.update {pending time freeIdx dram playa delays host ctr latchHi loHold staged applied glb epoch cmd rings
    tainted conj fields sync slow cores vaults caches tiers engines selfRef kvm decodes routers slots reducing ports
    colls pwr doms thm err dbg boot bond mgt oas cxl io pins} (h : s.AppliedIs lnk o l) :
    State.AppliedIs lnk o l (.mk pending time freeIdx dram playa delays host ctr latchHi loHold staged applied glb epoch cmd rings
      tainted conj fields s.steps sync slow cores vaults caches tiers engines selfRef kvm decodes routers slots reducing ports
      s.lnk colls pwr doms thm err dbg boot bond mgt oas cxl io pins) :=
  ⟨h.lnk, h.step⟩

theorem State.AppliedIs.stored {t : State} (h : s.AppliedIs lnk o l) (g : s.StoreOnly t) : t.AppliedIs lnk o l := by
  rw [g.frame]
  exact h.update

theorem State.AppliedIs.modRing {r f} (h : s.AppliedIs lnk o l) : (s.modRing r f).AppliedIs lnk o l := h.update
theorem State.AppliedIs.ctrAdd {c n} (h : s.AppliedIs lnk o l) : (s.ctrAdd c n).AppliedIs lnk o l := h.update
theorem State.AppliedIs.event {a b c d e f g} (h : s.AppliedIs lnk o l) : (s.event a b c d e f g).AppliedIs lnk o l := h.update
theorem State.AppliedIs.answer {a} (h : s.AppliedIs lnk o l) : (s.answer a).AppliedIs lnk o l := h.update
theorem State.AppliedIs.setCmd {c} (h : s.AppliedIs lnk o l) : State.AppliedIs lnk o l { s with cmd := c } := h.update

/-! ### Elements counted for a clause that fails, and deferred host writes (R326, R200, R201) -/

/-- A step that takes in a non-finite flag keeps its applied sets. -/
theorem State.AppliedIs.raiseNf {r} (h : s.AppliedIs lnk o l) : (s.raiseNf r).AppliedIs lnk o l := by
  obtain ⟨hlnk, x, hx, happlied, hout⟩ := h
  unfold State.raiseNf
  split
  · next q hq =>
    split
    · next y hy =>
      by_cases hqo : o = q
      · subst hqo
        obtain rfl : x = y := Option.some.inj (hx.symm.trans hy)
        exact ⟨hlnk, _, State.stepOf_setStep _ hout, happlied, hout⟩
      · exact ⟨hlnk, x, (State.stepOf_setStep_ne _ _ hqo).trans hx, happlied, hout⟩
    · exact ⟨hlnk, x, hx, happlied, hout⟩
  · exact ⟨hlnk, x, hx, happlied, hout⟩

theorem State.AppliedIs.countFailed {r c} (h : s.AppliedIs lnk o l) : (s.countFailed r c).AppliedIs lnk o l := by
  unfold State.countFailed
  extract_lets s1
  have h1 : s1.AppliedIs lnk o l := by
    unfold s1
    split
    · exact h.ctrAdd.ctrAdd
    · exact h
  exact .ite h1 h1.raiseNf

theorem State.AppliedIs.checkQuotas {loud} (h : s.AppliedIs lnk o l) : (s.checkQuotas loud).AppliedIs lnk o l :=
  .foldl h fun _ _ ht => by
    split
    · exact .ite ht (.ite ht.update ht.update)
    · exact ht

theorem State.AppliedIs.serveWrite {dpa bs poison} (h : s.AppliedIs lnk o l) : (s.serveWrite dpa bs poison).AppliedIs lnk o l := by
  unfold State.serveWrite
  extract_lets n a dead s1 s2 s4 s5
  have h1 : s1.AppliedIs lnk o l := .stored (s := s.taint dpa bs.length) h.update (State.storeOnly_dpaWrite ..)
  have h2 : s2.AppliedIs lnk o l := .ite (h1.stored (State.storeOnly_poisonLine ..)) h1
  have h4 : s4.AppliedIs lnk o l := h2.update
  have h5 : s5.AppliedIs lnk o l := h4.ctrAdd.answer
  exact .ite (.answer (.ite h.ctrAdd h)) (.ite h.ctrAdd.event.answer (.ite h5.checkQuotas h5))

/-- Only writes are deferred requests that an unlocked region lets through. -/
theorem State.AppliedIs.drainDeferred {n} (h : s.AppliedIs lnk o l) : (s.drainDeferred n).AppliedIs lnk o l := by
  unfold State.drainDeferred
  extract_lets free go s1
  have h1 : s1.AppliedIs lnk o l := h.update
  refine List.foldlRecOn _ _ h1 fun t ht w hw => .ite ht.update ?_
  have hfree := (List.mem_filter.mp hw).2
  cases w with
  | write a bs p q => exact ht.serveWrite
  | read a p => exact absurd hfree Bool.false_ne_true
  | rawWrite a k => exact absurd hfree Bool.false_ne_true
  | rawRead a => exact absurd hfree Bool.false_ne_true

theorem State.AppliedIs.drainAllDeferred (h : s.AppliedIs lnk o l) : s.drainAllDeferred.AppliedIs lnk o l :=
  .foldl h fun _ _ ht => ht.drainDeferred

theorem State.AppliedIs.releaseWork {r index} (h : s.AppliedIs lnk o l) : (s.releaseWork r index).AppliedIs lnk o l := h.update

theorem State.AppliedIs.poisonEvent {r c f} (h : s.AppliedIs lnk o l) : (s.poisonEvent r c f).AppliedIs lnk o l := .ite h.event h

theorem State.AppliedIs.undefineOutputs {c} (h : s.AppliedIs lnk o l) : (s.undefineOutputs c).AppliedIs lnk o l := by
  have hbytes {t : State} {place dva n : Nat} (ht : t.AppliedIs lnk o l) : (t.undefineBytes place dva n).AppliedIs lnk o l :=
    (ht.stored (State.storeOnly_writeDva ..)).update
  exact .ite h (.foldl h fun _ _ ht => .ite (.ite (hbytes (hbytes ht)) (hbytes ht)) ht)

/-! ### Records, and rings that close or become idle -/

theorem State.AppliedIs.writeRecord {r slot tag f irq} (h : s.AppliedIs lnk o l) :
    (s.writeRecord r slot tag f irq).AppliedIs lnk o l := by
  rw [State.writeRecord_eq]
  exact h.update

theorem State.AppliedIs.flushPosted {r} (h : s.AppliedIs lnk o l) : (s.flushPosted r).AppliedIs lnk o l := by
  unfold State.flushPosted
  exact .modRing (.foldl (.foldl h.update fun _ _ ht => ht.writeRecord) fun _ _ ht => ht.writeRecord)

theorem State.AppliedIs.ringClosed {r} (h : s.AppliedIs lnk o l) : (s.ringClosed r).AppliedIs lnk o l := by
  have hreset : ((s.flushPosted r).setRing r RingSt.reset).AppliedIs lnk o l := h.flushPosted.update
  unfold State.ringClosed State.leaveLine
  exact .ite hreset hreset.setCmd

theorem State.AppliedIs.openAdmin (h : s.AppliedIs lnk o l) : s.openAdmin.AppliedIs lnk o l := .ite h.setCmd.event h.update

theorem State.AppliedIs.closeNow {r} (h : s.AppliedIs lnk o l) : (s.closeNow r).AppliedIs lnk o l := by
  have hclosed := h.ringClosed (r := r)
  rw [State.closeNow_eq, State.afterClose]
  generalize s.ringClosed r = t at hclosed ⊢
  have hzero : t.ring0Closed.AppliedIs lnk o l := hclosed.setCmd
  exact .ite (.ite hzero.openAdmin hzero) hclosed.modRing

theorem State.AppliedIs.seeProducer {r v} (h : s.AppliedIs lnk o l) : (s.seeProducer r v).AppliedIs lnk o l := by
  have hset {x : RingSt} : (s.setRing r x).AppliedIs lnk o l := h.update
  unfold State.seeProducer State.stopUnfetched
  exact .ite hset (.ite hset (.modRing (.ite hset.writeRecord.setCmd hset.writeRecord)))

theorem State.AppliedIs.tryClose {r} (h : s.AppliedIs lnk o l) : (s.tryClose r).AppliedIs lnk o l := by
  have hset {x : RingSt} : (s.setRing r x).AppliedIs lnk o l := h.update
  exact .ite h.closeNow (.ite (.modRing (.ite hset.seeProducer.modRing hset.seeProducer)) h)

theorem State.AppliedIs.sendNext {core paren} (h : s.AppliedIs lnk o l) : (s.sendNext core paren).AppliedIs lnk o l := by
  unfold State.sendNext
  split
  · exact .ite h.update h.update
  · exact h

/-! ### Failing, and settling, of a clause that runs no collective (R78, R111) -/

theorem State.AppliedIs.failClause {r index f} {c : ClauseSt} (h : s.AppliedIs lnk o l)
    (hc : (s.ring r).clauseOf index = some c) (halone : groupVerb c.bits = false) :
    (s.failClause r index f).AppliedIs lnk o l := by
  unfold State.failClause
  extract_lets -underBinder ring
  split
  · exact h
  · next d hd =>
    obtain rfl : d = c := Option.some.inj (hd.symm.trans hc)
    extract_lets -underBinder sA back s0 s1 s2 cmd s3 s4 s5
    have hA : sA.AppliedIs lnk o l := by
      unfold sA
      rw [if_neg (by simp [halone])]
      exact h
    clear_value sA
    have h0 : s0.AppliedIs lnk o l := .poisonEvent (.drainAllDeferred (.releaseWork (.foldl hA.countFailed fun _ _ ht =>
      ht.releaseWork)))
    clear_value s0
    have h1 : s1.AppliedIs lnk o l := .ite h0.undefineOutputs h0
    have h2 : s2.AppliedIs lnk o l := h1.writeRecord
    clear_value s2
    have h3 : s3.AppliedIs lnk o l := .ite h2.setCmd h2
    clear_value s3
    have h5 : s5.AppliedIs lnk o l := (h3.modRing (r := r)).update
    exact .tryClose (.foldl h5 fun _ _ ht => ht.sendNext)

end Sys2Proof.Machine
end

section
/-! PROOFS. What an update stores (O25): a set's banks and stages, with counters and events, and the buffer that its gradient
came from (10 R324, R337, R340; 08 R268). -/

namespace Sys2Proof.Machine

/-! ### Tensors of a set -/

/-- Tensors have been stored: memories, counters and events alone have changed. -/
def State.SetWritten (s t : State) : Prop :=
  t = { s with dram := t.dram, playa := t.playa, host := t.host, vaults := t.vaults, ctr := t.ctr, dbg := t.dbg
               boot := { s.boot with events := t.boot.events }, mgt := { s.mgt with awaiting := t.mgt.awaiting } }

variable {s t u : State}

theorem State.SetWritten.trans (h : s.SetWritten t) (g : t.SetWritten u) : s.SetWritten u := Eq.trans g (by rw [h])

theorem State.StoreOnly.setWritten (h : s.StoreOnly t) : s.SetWritten t := h.frame.trans (by rw [h.frame])

theorem State.SetWritten.stored (h : s.SetWritten t) (g : t.StoreOnly u) : s.SetWritten u := h.trans g.setWritten
theorem State.SetWritten.ctrAdd (h : s.SetWritten t) (o n : Nat) : s.SetWritten (t.ctrAdd o n) :=
  h.trans (show t.SetWritten (t.ctrAdd o n) from rfl)
theorem State.SetWritten.event (h : s.SetWritten t) (a : EventKind) (b : Option Nat) (c d : Nat) (e : Option Nat) (f : Nat)
    (g : List Word64) : s.SetWritten (t.event a b c d e f g) := h.trans (show t.SetWritten (t.event a b c d e f g) from rfl)

theorem State.storeOnly_storeWords (s : State) (dva : Nat) (v : Sum) : s.StoreOnly (s.storeWords dva v) :=
  .ite (.refl s) (State.storeOnly_storeTensor ..)

theorem State.setWritten_writeSet (s : State) (i : Nat) (p : Pset) (n stateBank workBank : Nat) (x : SetState) :
    s.SetWritten (s.writeSet i p n stateBank workBank x) := by
  unfold State.writeSet
  extract_lets w nf s1 s2 s3 s4
  have h1 : s.StoreOnly s1 := ((State.storeOnly_storeWords ..).trans (State.storeOnly_storeWords ..)).trans (State.storeOnly_storeWords ..)
  have h3 : s.StoreOnly s3 := (h1.trans (State.storeOnly_storeTensor ..)).trans (State.storeOnly_dpaWrite ..)
  have h4 : s.SetWritten s4 := (h3.setWritten.ctrAdd ..).ctrAdd ..
  clear_value s4
  split
  · exact h4
  · exact h4.event ..

/-! ### The state that an APPLY leaves before its clause ends -/

/-- Beside the stores of a set, its gradient's buffer and stage may have changed, and what stands of them. -/
def State.UpdateMade (s t : State) : Prop :=
  t = { s with dram := t.dram, playa := t.playa, host := t.host, vaults := t.vaults, ctr := t.ctr, dbg := t.dbg
               fields := t.fields, slow := t.slow
               boot := { s.boot with events := t.boot.events }, mgt := { s.mgt with awaiting := t.mgt.awaiting } }

theorem State.UpdateMade.trans (h : s.UpdateMade t) (g : t.UpdateMade u) : s.UpdateMade u := Eq.trans g (by rw [h])

theorem State.SetWritten.updateMade (h : s.SetWritten t) : s.UpdateMade t := Eq.trans h (by rw [h])

theorem State.UpdateMade.ring (h : s.UpdateMade t) (r : Nat) : t.ring r = s.ring r := by rw [h]; rfl
theorem State.UpdateMade.lnk (h : s.UpdateMade t) : t.lnk = s.lnk := by rw [h]
theorem State.UpdateMade.conj (h : s.UpdateMade t) : t.conj = s.conj := by rw [h]

theorem State.rbufSeen_frame (s : State) (f : FieldSt) (b n : Nat) : s.rbufSeen f b n = { s with ctr := (s.rbufSeen f b n).ctr } := by
  unfold State.rbufSeen
  refine List.foldlRecOn (motive := fun t : State => t = { s with ctr := t.ctr }) _ _ rfl fun t ht p _ => ?_
  unfold State.playaSeen
  dsimp only
  split
  · exact ht
  · rw [ht]

theorem State.updateMade_emptyRbuf (s : State) (fid b n : Nat) : s.UpdateMade (s.emptyRbuf fid b n) := by
  unfold State.emptyRbuf
  split
  · rw [State.rbufSeen_frame]
    rfl
  · rfl

theorem State.updateMade_stageGo (s : State) (i r index : Nat) : s.UpdateMade (s.stageGo i r index) := by
  unfold State.stageGo
  split
  · rfl
  · extract_lets s1
    split <;> rfl

theorem State.updateMade_setSlow (s : State) (i : Nat) (v : SlowSt) : s.UpdateMade (s.setSlow i v) := rfl
theorem State.updateMade_seeHost (s : State) (h : HostView) : s.UpdateMade (s.seeHost h) := rfl

/-- An APPLY in phase PASS stores, enters its set among those applied, and has its work done, with a verdict where it met
poison (R324, R328, R339, R462). -/
theorem State.applySet_marks (s : State) (r : Nat) (c : ClauseSt) (o : Nat) (x : StepSt) :
    ∃ (m : State) (forced : Bool) (v : Option Failure), s.UpdateMade m ∧
      s.applySet r c o x = (m.setStep o { x with applied := insSet (apPset c.bits) x.applied, forced := forced }).workDone r c.index
        (fun y => { y with verdict := v }) := by
  unfold State.applySet
  extract_lets i p g norm k scaled s0 mark
  have h0 : s.UpdateMade s0 := by
    unfold s0
    split
    · exact s.updateMade_emptyRbuf ..
    · rfl
  clear_value s0
  split
  · refine ⟨_, _, _, ?_, rfl⟩
    exact (h0.trans (s0.storeOnly_storeWords ..).setWritten.updateMade).trans (State.updateMade_setSlow ..)
  · refine ⟨_, _, _, ?_, rfl⟩
    exact h0.trans (s0.setWritten_writeSet ..).updateMade

end Sys2Proof.Machine
end

section
/-! PROOFS. O25: updates are applied, at once or later, and sets are digested and audited (10 R324, R328, R337 to R340). -/

open Sys2Proof Sys2Proof.Machine

namespace Sys2Proof.Proofs

/-! ### APPLY (R328, R375) -/

/-- The work of a clause that runs no collective ends without the links, and keeps what its step has applied. -/
theorem appliedIs_workDone {lnk : Lnk} {o r index : Nat} {l : List Nat} {s : State} {c : ClauseSt} {f : ClauseSt → ClauseSt}
    (h : s.AppliedIs lnk o l) (hc : (s.ring r).clauseOf index = some c) (halone : groupVerb c.bits = false)
    (hf : ∀ y, (f y).index = y.index ∧ (f y).bits = y.bits) : (s.workDone r index f).AppliedIs lnk o l := by
  unfold State.workDone
  generalize hg : (fun c : ClauseSt => ({ f c with worked := true, begun := true, verdict := _ } : ClauseSt)) = g
  have hbits : (g c).bits = c.bits := by rw [← hg]; exact (hf c).2
  have hworked : ((s.modRing r (fun R => R.modClause index g)).ring r).clauseOf index = some (g c) := by
    rw [State.ring_modRing_self]
    exact clauseOf_modClause g (fun y => by rw [← hg]; exact (hf y).1) hc
  have hkept : (s.modRing r (fun R => R.modClause index g)).AppliedIs lnk o l := h.modRing
  unfold State.settleClause
  rw [hworked]
  refine .ite ?_ hkept
  split
  · exact hkept.failClause hworked (by rw [hbits]; exact halone)
  · exact hkept.modRing

theorem verb_of_startedClause {s : State} {r k verb : Nat} {c : ClauseSt} (h : s.startedClause r k verb = some c) :
    clVerb c.bits = verb := by
  unfold State.startedClause at h
  split at h
  · split at h
    · next hcond =>
      obtain ⟨-, hverb, -⟩ := hcond
      cases h
      exact hverb
    · exact absurd h (by simp)
  · exact absurd h (by simp)

/-- An APPLY is no collective, nor a DECIDE. -/
theorem groupVerb_of_apply {s : State} {r k : Nat} {c : ClauseSt} (hc : s.startedUpdate r k 1 = some c) : groupVerb c.bits = false := by
  obtain ⟨hstarted, hfn⟩ := startedClause_of_startedUpdate hc
  have hmod : clModBits c.bits 3 0 = 1 := hfn
  rw [groupVerb, verb_of_startedClause hstarted, hmod]
  rfl

/-- What an APPLY in phase PASS leaves: its work ended, its set entered, and neither a link nor a conjunction touched. -/
theorem applySet_enters {s : State} {r o : Nat} {c : ClauseSt} (x : StepSt) (hc : (s.ring r).clauseOf c.index = some c)
    (halone : groupVerb c.bits = false) (hout : x.outcome ≠ 255) :
    workEnded (s.applySet r c o x) r c.index ∧
      ((s.applySet r c o x).stepOf o).map (·.applied) = some (insSet (apPset c.bits) x.applied) ∧
      (s.applySet r c o x).lnk = s.lnk ∧ (s.applySet r c o x).conj = s.conj := by
  obtain ⟨m, forced, v, hmade, happly⟩ := s.applySet_marks r c o x
  rw [happly]
  generalize hn : m.setStep o _ = n
  have hmarked : n.AppliedIs s.lnk o (insSet (apPset c.bits) x.applied) := by
    rw [← hn]
    exact ⟨hmade.lnk, _, State.stepOf_setStep m hout, rfl, hout⟩
  have hclause : (n.ring r).clauseOf c.index = some c := by
    rw [← hn]
    exact (congrArg (RingSt.clauseOf · c.index) (hmade.ring r)).trans hc
  obtain ⟨hlnk, y, hy, happlied, -⟩ := appliedIs_workDone (f := fun y => { y with verdict := v }) hmarked hclause halone
    fun _ => ⟨rfl, rfl⟩
  refine ⟨workEnded_workDone _ _ _ _, ?_, hlnk, ?_⟩
  · rw [hy, Option.map_some, happlied]
  · have hframe := (State.ClauseKept.refl n).workDone (r := r) (index := c.index) (f := fun y => { y with verdict := v }) |>.frame
    have hconj : n.conj = s.conj := by rw [← hn]; exact hmade.conj
    rw [hframe]
    exact hconj

section
variable {r k o : Nat} {h : HostView} {c : ClauseSt} {x : StepSt} {s : State} (hc : s.startedUpdate r k 1 = some c)
  (howner : s.ownerOf (s.ring r).field = some o) (hx : s.stepOf o = some x)
include hc howner hx

theorem apply_of_skip (hskip : x.phase = .skip) :
    exec (.apply r k h) s = .next (s.workDone r c.index (fun y => { y with detail := 1 })) := by
  have hready : s.stepReady r (fun p => p != .open) = some (o, x) := State.stepReady_of howner hx (by rw [hskip]; rfl)
  simp [exec, execApply, hc, hready, hskip]

variable (hpass : x.phase = .pass)
include hpass

theorem apply_of_applied (hagain : apPset c.bits ∈ x.applied) :
    exec (.apply r k h) s = .next (s.failClause r c.index (failNone stStepState 0)) := by
  have hready : s.stepReady r (fun p => p != .open) = some (o, x) := State.stepReady_of howner hx (by rw [hpass]; rfl)
  simp [exec, execApply, hc, hready, hpass, hagain]

variable (hfirst : apPset c.bits ∉ x.applied)
include hfirst

theorem apply_of_empty (hempty : s.emptyGradient r c = true) :
    exec (.apply r k h) s = .next (s.failClause r c.index (failNone stRbufEmpty 0)) := by
  have hready : s.stepReady r (fun p => p != .open) = some (o, x) := State.stepReady_of howner hx (by rw [hpass]; rfl)
  simp [exec, execApply, hc, hready, hpass, hfirst, hempty]

variable (hfull : s.emptyGradient r c = false)
include hfull

theorem apply_of_stage_taken (hbusy : s.stageBusy (apPset c.bits) (parsePset c.entry) x.step.toNat = true) :
    exec (.apply r k h) s = .next (s.stageStall (apPset c.bits) r c.index) := by
  have hready : s.stepReady r (fun p => p != .open) = some (o, x) := State.stepReady_of howner hx (by rw [hpass]; rfl)
  simp [exec, execApply, hc, hready, hpass, hfirst, hfull, hbusy]

theorem apply_of_pass (hfree : s.stageBusy (apPset c.bits) (parsePset c.entry) x.step.toNat = false)
    (hunlocked : s.setLocked r c.index (s.setNow (apPset c.bits) c.entry) (s.setNow (apPset c.bits) c.entry).applyRegions = false) :
    exec (.apply r k h) s = .next (((s.stageGo (apPset c.bits) r c.index).seeHost h).applySet r c o x) := by
  have hready : s.stepReady r (fun p => p != .open) = some (o, x) := State.stepReady_of howner hx (by rw [hpass]; rfl)
  simp [exec, execApply, hc, hready, hpass, hfirst, hfull, hfree, hunlocked]

end

/-- An APPLY that waits changes nothing but when its set's wait began (R339). -/
theorem stageStall_waits (s : State) (i r index : Nat) :
    s.stageStall i r index = { s with slow := (s.stageStall i r index).slow } ∧
      ((s.stageStall i r index).slowSet i).committed = (s.slowSet i).committed := by
  unfold State.stageStall
  dsimp only
  split
  · exact ⟨rfl, rfl⟩
  · exact ⟨rfl, by rw [State.slowSet_setSlow_self]⟩

/-! ### Slow applications (R340) -/

/-- A slow application stores its set and enters the step among those applied; a RELEASE that waited for it goes on. -/
theorem slowApplication_writes {i j : Nat} {rest : List Nat} (h : HostView) {s : State}
    (hcommitted : (s.slowSet i).committed = j :: rest) (hnone : (s.slowSet i).applied = [])
    (hunlocked : s.setLocked 65536 0 (parsePset (s.psetBytes i)) (fun wn => (parsePset (s.psetBytes i)).pendingRegions wn false) = false) :
    ∃ w : State, s.SetWritten w ∧
      (exec (.slowApplication i h) s = .next (w.setSlow i { s.slowSet i with committed := rest, applied := [j] }) ∨
        ∃ o, exec (.slowApplication i h) s
          = .next ((w.setSlow i { s.slowSet i with committed := rest, applied := [j] }).tryAdvance o)) := by
  rw [exec, execSlowApplication]
  split
  · next hnil => exact absurd (hnil.symm.trans hcommitted) (by simp)
  · next j' rest' hcons =>
    obtain ⟨rfl, rfl⟩ : j' = j ∧ rest' = rest := by simpa using hcons.symm.trans hcommitted
    rw [if_neg (by simp [hnone, hunlocked])]
    extract_lets s0 p g old new s1 s2 s3
    have hwritten : s.SetWritten s2 :=
      (State.SetWritten.trans (t := s0) rfl (s0.setWritten_writeSet ..)).stored (s1.storeOnly_dpaWrite ..)
    refine ⟨s2, hwritten, ?_⟩
    split
    · exact .inr ⟨_, rfl⟩
    · exact .inl rfl

/-- The earliest committed step of a slow set is applied, and waits to be published. -/
theorem slowApplication_applies {i j : Nat} {rest : List Nat} {h : HostView} {s : State}
    (hcommitted : (s.slowSet i).committed = j :: rest) (hnone : (s.slowSet i).applied = [])
    (hunlocked : s.setLocked 65536 0 (parsePset (s.psetBytes i)) (fun wn => (parsePset (s.psetBytes i)).pendingRegions wn false) = false) :
    ∃ (u t : State), exec (.slowApplication i h) s = .next t ∧
      u = { s with dram := u.dram, playa := u.playa, host := u.host, vaults := u.vaults, ctr := u.ctr, slow := u.slow, dbg := u.dbg
                   boot := { s.boot with events := u.boot.events }, mgt := { s.mgt with awaiting := u.mgt.awaiting } } ∧
      u.slowSet i = { s.slowSet i with committed := rest, applied := [j] } ∧ u.steps = s.steps ∧ u.rings = s.rings ∧
      (t = u ∨ ∃ o, t = u.tryAdvance o) := by
  obtain ⟨w, hwritten, hexec⟩ := slowApplication_writes h hcommitted hnone hunlocked
  have hset := w.slowSet_setSlow_self i { s.slowSet i with committed := rest, applied := [j] }
  have hsteps : w.steps = s.steps := by rw [hwritten]
  have hrings : w.rings = s.rings := by rw [hwritten]
  have hframe (slow : Tbl SlowSt) : ({ w with slow := slow } : State) = { s with
      dram := w.dram, playa := w.playa, host := w.host, vaults := w.vaults, ctr := w.ctr, slow := slow, dbg := w.dbg
      boot := { s.boot with events := w.boot.events }, mgt := { s.mgt with awaiting := w.mgt.awaiting } } := by
    conv_lhs => rw [hwritten]
  obtain hexec | ⟨o, hexec⟩ := hexec
  · exact ⟨w.setSlow i _, _, hexec, hframe _, hset, hsteps, hrings, .inl rfl⟩
  · exact ⟨w.setSlow i _, _, hexec, hframe _, hset, hsteps, hrings, .inr ⟨o, rfl⟩⟩

/-! ### Digests and audits (R337, R338) -/

theorem startedClause_of_startedDigest {s : State} {r k fn : Nat} {c : ClauseSt} (h : s.startedDigest r k fn = some c) :
    s.startedClause r k verbDigest = some c := by
  unfold State.startedDigest at h
  split at h
  · next d hd =>
    obtain ⟨-, rfl⟩ : dgFunction d.bits = fn ∧ d = c := by simpa using h
    exact hd
  · exact absurd h (by simp)

/-- A digest of a stream without poison stores its four words, and is counted (R337). -/
theorem digest_stores {r k : Nat} {h : HostView} {c : ClauseSt} {s : State} (hc : s.startedDigest r k 0 = some c)
    (hverdict : c.verdict = none) (hclean : ((s.seeHost h).digestStream c).any (·.poison) = false) :
    ∃ t : State, exec (.digest r k h) s = .next t ∧ clauseFrame (s.seeHost h) t ∧ workEnded t r c.index ∧
      t.dram = ((s.seeHost h).storeTensor (c.noun 1)
        ((digestWords (((s.seeHost h).digestStream c).map (·.byte))).map (fun w => some { Elem.zero with code := w }))).dram ∧
      t.ctrGet updDigests = s.ctrGet updDigests + 1 ∧ countersSameBut s t updDigests := by
  generalize hes : ((digestWords (((s.seeHost h).digestStream c).map (·.byte))).map (fun w => some { Elem.zero with code := w })) = es
  have hexec : exec (.digest r k h) s = .next
      ((((s.seeHost h).storeTensor (c.noun 1) es).ctrAdd updDigests 1).workDone r c.index (fun x => x)) := by
    rw [exec, execDigest, hc]
    simp [State.digestClause, hclean, hes]
  have hstored := (s.seeHost h).storeOnly_storeTensor (c.noun 1) es
  generalize State.storeTensor _ (c.noun 1) es = u at hexec hstored ⊢
  have hget (q : Nat) : u.ctrGet q = s.ctrGet q := by rw [hstored.frame]; rfl
  have hclause : ((u.ctrAdd updDigests 1).ring r).clauseOf c.index = some c := by
    have hring : (u.ctrAdd updDigests 1).ring r = s.ring r := by rw [hstored.frame]; rfl
    rw [hring]
    exact clauseOf_of_startedClause (startedClause_of_startedDigest hc)
  have hends := verbEnds_workDone (((State.ClauseKept.refl _).stored hstored).ctrAdd (off := updDigests) (n := 1)) r c.index (fun x => x)
  have hrings := workDone_of_no_verdict (f := fun x => x) hclause (fun _ => rfl) hverdict hverdict
  refine ⟨_, hexec, hends.frame, hends.ended, by rw [hrings]; rfl, ?_, fun q hq => ?_⟩
  · rw [hrings, ← hget]
    exact ctrGet_ctrAdd_one u updDigests
  · rw [hrings, ← hget]
    exact countersSameBut_ctrAdd u updDigests 1 q hq

/-- An audit ends with a wait told, with poison met, with both digests equal, or with the copy stored again (R338). -/
theorem verbEnds_auditClause (s : State) (r : Nat) (c : ClauseSt) : VerbEnds s (s.auditClause r c) r c.index := by
  have hs := State.ClauseKept.refl s
  unfold State.auditClause
  extract_lets p cur wn work again ref s1
  split
  · exact verbEnds_workDone hs ..
  · split
    · exact verbEnds_workDone hs ..
    · split
      · exact verbEnds_workDone hs ..
      · split
        · exact verbEnds_workDone hs.ctrAdd ..
        · exact verbEnds_workDone hs.ctrAdd.storeTensor.ctrAdd.event ..

theorem audit_ends {r k o : Nat} {h : HostView} {c : ClauseSt} {x : StepSt} {s : State} (hc : s.startedDigest r k 1 = some c)
    (howner : s.ownerOf (s.ring r).field = some o) (hx : s.stepOf o = some x) (hopen : x.phase = .open) :
    ∃ t : State, exec (.audit r k h) s = .next t ∧ VerbEnds (s.seeHost h) t r c.index := by
  have hready : s.stepReady r (fun p => p == .open) = some (o, x) := State.stepReady_of howner hx (by rw [hopen]; rfl)
  exact ⟨_, by simp [exec, execAudit, hc, hready], verbEnds_auditClause ..⟩

/-- Settles O25: an APPLY by the phase and by what holds it back, the others by what they store before their work is done. -/
theorem updatesApplyAndAudit : Obligations.UpdatesApplyAndAudit := by
  unfold Obligations.UpdatesApplyAndAudit
  refine ⟨?skip, ?first, ?again, ?empty, ?waits, ?slow, ?digest, ?audit⟩
  case skip => exact fun r k o h c x s hc howner hx hskip => apply_of_skip hc howner hx hskip
  case first =>
    intro r k o h c x s hc howner hx hpass hout hfirst hfull hfree hunlocked
    have hgone := (s.updateMade_stageGo (apPset c.bits) r c.index).trans (State.updateMade_seeHost _ h)
    have hclause : (((s.stageGo (apPset c.bits) r c.index).seeHost h).ring r).clauseOf c.index = some c := by
      rw [hgone.ring]
      exact clauseOf_of_startedClause (startedClause_of_startedUpdate hc).1
    obtain ⟨hended, happlied, hlnk, hconj⟩ := applySet_enters (o := o) x hclause (groupVerb_of_apply hc) hout
    exact ⟨_, apply_of_pass hc howner hx hpass hfirst hfull hfree hunlocked, rfl, hended, happlied, hlnk.trans hgone.lnk,
      hconj.trans hgone.conj⟩
  case again => exact fun r k o h c x s hc howner hx hpass hagain => apply_of_applied hc howner hx hpass hagain
  case empty => exact fun r k o h c x s hc howner hx hpass hfirst hempty => apply_of_empty hc howner hx hpass hfirst hempty
  case waits =>
    intro r k o h c x s hc howner hx hpass hfirst hfull hbusy
    obtain ⟨hframe, hcommitted⟩ := stageStall_waits s (apPset c.bits) r c.index
    exact ⟨_, apply_of_stage_taken hc howner hx hpass hfirst hfull hbusy, hframe, hcommitted⟩
  case slow => exact fun i j rest h s hcommitted hnone hunlocked => slowApplication_applies hcommitted hnone hunlocked
  case digest => exact fun r k h c s hc hverdict hclean => digest_stores hc hverdict hclean
  case audit =>
    intro r k o h c x s hc howner hx hopen
    obtain ⟨t, hexec, hframe, hplaya, hended⟩ := audit_ends (h := h) hc howner hx hopen
    exact ⟨t, hexec, hframe, hplaya, hended⟩

end Sys2Proof.Proofs
end
